-- ==== Sys2Proof/Word.lean ====
section
/-! DEFINITION. The plain word types of the block, and the shape of a register field (R8, R9). -/

namespace Sys2Proof

/-- A 32-bit word: a vector lane, a scalar register, an accumulator entry. -/
abbrev Word := BitVec 32

/-- A byte of device, host or flash memory. -/
abbrev Byte := BitVec 8

namespace Machine

/-- The access codes of R9. -/
inductive Access where
  | rw | ro | w1c | w1s | wo | rwl
  deriving DecidableEq, Repr

/-- One field of a BAR0 register: the byte offset of its register, its low bit, its width, its access code and its
reset value, as its chapter's table gives them. -/
structure Field where
  off   : Nat
  lo    : Nat
  w     : Nat
  acc   : Access
  reset : Nat
  deriving DecidableEq, Repr

/-- One register, or one array of registers: first offset, stride, count, whether it is 64 bits wide, and its fields
(those of index 0). -/
structure RegRow where
  base   : Nat
  stride : Nat
  count  : Nat
  wide   : Bool
  fields : List Field
  deriving DecidableEq, Repr

end Machine

end Sys2Proof
end

