-- ==== Sys2Proof/Machine/Bits.lean ====
section
/-! DEFINITION. Bit fields, little-endian bytes and sign extension (R8). -/

namespace Sys2Proof.Machine

/-- Bits [lo + w − 1 : lo] of a number. -/
def bits (n lo w : Nat) : Nat := (n >>> lo) % 2 ^ w

/-- Bit i of a number. -/
def bit (n i : Nat) : Bool := bits n i 1 = 1

/-- A number with bits [lo + w − 1 : lo] replaced by the low w bits of v. -/
def setBits (n lo w v : Nat) : Nat :=
  n - (bits n lo w) * 2 ^ lo + (v % 2 ^ w) * 2 ^ lo

/-- A number with bit i set or cleared. -/
def setBit (n i : Nat) (b : Bool) : Nat := setBits n i 1 (if b then 1 else 0)

/-- 1 for true, 0 for false. -/
def flag (b : Bool) : Nat := if b then 1 else 0

/-- Two's-complement reading of the low w bits. -/
def sext (w n : Nat) : Int :=
  let m := n % 2 ^ w
  if m < 2 ^ (w - 1) then (m : Int) else (m : Int) - (2 ^ w : Nat)

/-- An integer reduced to w bits. -/
def wrapInt (w : Nat) (i : Int) : Nat := (i % ((2 ^ w : Nat) : Int)).toNat

/-- The number of set bits among the low w bits. -/
def popCount (w n : Nat) : Nat := ((List.range w).filter (bit n)).length

/-- The positions below w of the set bits, ascending. -/
def onesOf (w n : Nat) : List Nat := (List.range w).filter (bit n)

/-- A little-endian number of bytes (R8). -/
def leNat : List Byte → Nat
  | [] => 0
  | b :: r => b.toNat + 256 * leNat r

/-- The low n bytes of a number, little-endian (R8). -/
def leBytes : Nat → Nat → List Byte
  | 0, _ => []
  | k + 1, n => BitVec.ofNat 8 n :: leBytes k (n / 256)

/-- The low n bytes of a number, most significant first. -/
def beBytes (k n : Nat) : List Byte := (leBytes k n).reverse

/-- A big-endian number of bytes. -/
def beNat (l : List Byte) : Nat := leNat l.reverse

/-- n zero bytes. -/
def zeros (n : Nat) : List Byte := List.replicate n 0

/-- A list of bytes cut or filled with zeros to n bytes. -/
def padTo (n : Nat) (l : List Byte) : List Byte := (l ++ zeros (n - l.length)).take n

/-- Bytes [a, a + n) of a list of bytes, zeros past its end. -/
def slice (l : List Byte) (a n : Nat) : List Byte := padTo n (l.drop a)

/-- The little-endian number in bytes [a, a + n). -/
def leAt (l : List Byte) (a n : Nat) : Nat := leNat (slice l a n)

/-- Two ranges [a, a + m) and [b, b + n) share a byte. -/
def overlaps (a m b n : Nat) : Bool := a < b + n && b < a + m && 0 < m && 0 < n

/-- Quotient rounded up. -/
def ceilDiv (a b : Nat) : Nat := (a + b - 1) / b

/-- A number held at most at a ceiling. -/
def satTo (top n : Nat) : Nat := if n ≤ top then n else top

/-- A number brought into [lo, hi]. -/
def clampNat (lo hi n : Nat) : Nat := if n < lo then lo else if hi < n then hi else n

end Sys2Proof.Machine
end

