-- ==== Sys2Proof/Machine/Crypto.lean ====
section
/-! DEFINITION. The checksums the spec gives (CRC-32C of R18, CRC-32 of R206, CRC-16 of R148), and the standard functions it names: SHA-256, HMAC-SHA-256 (R390, R411), RSASSA-PSS verification (R404, R405) and AES-256 key wrap of RFC 3394 (R411 to R413). -/

namespace Sys2Proof.Machine

/-- One byte through a reflected 32-bit CRC. -/
def crc32Byte (poly : Nat) (c : Nat) (b : Byte) : Nat :=
  (List.range 8).foldl (fun c _ => if c % 2 = 1 then (c / 2) ^^^ poly else c / 2) (c ^^^ b.toNat)

/-- CRC-32C: polynomial 0x1EDC6F41 reflected, initial value and final XOR all ones (R18). -/
def crc32c (l : List Byte) : Nat := (l.foldl (crc32Byte 0x82F63B78) 0xFFFFFFFF) ^^^ 0xFFFFFFFF

/-- CRC-32: polynomial 0x04C11DB7 reflected, initial value and final XOR all ones (R206). -/
def crc32 (l : List Byte) : Nat := (l.foldl (crc32Byte 0xEDB88320) 0xFFFFFFFF) ^^^ 0xFFFFFFFF

/-- CRC-16 of a vault half-sector: polynomial 0x1021, initial value 0xFFFF, not reflected, no final XOR (R148). -/
def crc16 (l : List Byte) : Nat :=
  l.foldl (fun c b =>
    (List.range 8).foldl (fun c _ => if 0x8000 ≤ c then ((c * 2) ^^^ 0x1021) % 0x10000 else c * 2)
      (c ^^^ (b.toNat * 256))) 0xFFFF

/-! ### SHA-256 -/

/-- The eight words of a 256-bit number, the most significant first. -/
def wordsOf (n : Nat) : List Word := (List.range 8).map (fun i => BitVec.ofNat 32 (n >>> (224 - 32 * i)))

/-- The round constants of FIPS 180-4, eight words to a row: the fractions of the cube roots of the first 64 primes. -/
def shaK : List Word :=
  (wordsOf 0x428a2f9871374491b5c0fbcfe9b5dba53956c25b59f111f1923f82a4ab1c5ed5 ++ wordsOf 0xd807aa9812835b01243185be550c7dc372be5d7480deb1fe9bdc06a7c19bf174 ++
    wordsOf 0xe49b69c1efbe47860fc19dc6240ca1cc2de92c6f4a7484aa5cb0a9dc76f988da ++ wordsOf 0x983e5152a831c66db00327c8bf597fc7c6e00bf3d5a7914706ca635114292967) ++
  (wordsOf 0x27b70a852e1b21384d2c6dfc53380d13650a7354766a0abb81c2c92e92722c85 ++ wordsOf 0xa2bfe8a1a81a664bc24b8b70c76c51a3d192e819d6990624f40e3585106aa070 ++
    wordsOf 0x19a4c1161e376c082748774c34b0bcb5391c0cb34ed8aa4a5b9cca4f682e6ff3 ++ wordsOf 0x748f82ee78a5636f84c878148cc7020890befffaa4506cebbef9a3f7c67178f2)

/-- The initial hash value: the fractions of the square roots of the first eight primes. -/
def shaH0 : List Word := wordsOf 0x6a09e667bb67ae853c6ef372a54ff53a510e527f9b05688c1f83d9ab5be0cd19

/-- The exclusive or of a word's rotations to the right. -/
def xorRot (r : List Nat) (x : Word) : Word := r.foldl (fun y k => y ^^^ x.rotateRight k) 0

/-- The message schedule, newest word first: k more words. -/
def shaExtend : Nat → List Word → List Word
  | 0, w => w
  | k + 1, w =>
    let at' := fun i => w.getD i 0
    let old := xorRot [7, 18] (at' 14) ^^^ (at' 14 >>> 3)
    let new := xorRot [17, 19] (at' 1) ^^^ (at' 1 >>> 10)
    shaExtend k ((old + new + at' 15 + at' 6) :: w)

/-- One round, on the eight working words a to h: all but a and e move one place on. -/
def shaRound (w : List Word) (k : Word × Word) : List Word :=
  let at' := fun i => w.getD i 0
  let pick := at' 6 ^^^ (at' 4 &&& (at' 5 ^^^ at' 6))
  let most := (at' 0 &&& at' 1) ||| (at' 2 &&& (at' 0 ||| at' 1))
  let t := at' 7 + xorRot [6, 11, 25] (at' 4) + pick + k.1 + k.2
  (t + xorRot [2, 13, 22] (at' 0) + most) :: (w.take 3 ++ (at' 3 + t) :: (w.drop 4).take 3)

/-- One 64-byte block. -/
def shaBlock (h : List Word) (blk : List Byte) : List Word :=
  let w16 := (List.range 16).map (fun i => BitVec.ofNat 32 (beNat (slice blk (4 * i) 4)))
  let w := (shaExtend 48 w16.reverse).reverse
  List.zipWith (· + ·) h ((List.zip shaK w).foldl shaRound h)

/-- Blocks of a padded message. -/
def shaBlocks : Nat → List Word → List Byte → List Word
  | 0, h, _ => h
  | k + 1, h, l => shaBlocks k (shaBlock h (l.take 64)) (l.drop 64)

/-- SHA-256, 32 bytes. DESIGN CHOICE and DEDUCED (log entry 40). -/
def sha256 (l : List Byte) : List Byte :=
  let n := l.length
  let z := (119 - n % 64) % 64
  let m := l ++ [0x80] ++ zeros z ++ beBytes 8 (8 * n)
  ((shaBlocks (m.length / 64) shaH0 m).map (fun w => beBytes 4 w.toNat)).flatten

/-- HMAC-SHA-256 under a key of at most 64 bytes. -/
def hmac (key msg : List Byte) : List Byte :=
  let k := padTo 64 key
  sha256 (k.map (· ^^^ 0x5C) ++ sha256 (k.map (· ^^^ 0x36) ++ msg))

/-! ### RSASSA-PSS verification -/

/-- Exponentiation modulo m, by the bits of the exponent from the top. -/
def powMod (m b : Nat) : Nat → Nat → Nat
  | 0, _ => 1 % m
  | k + 1, e =>
    let r := powMod m b k (e / 2)
    if e % 2 = 1 then (r * r) % m * b % m else r * r % m

/-- MGF1 with SHA-256. -/
def mgf1 (seed : List Byte) (len : Nat) : List Byte :=
  (((List.range (ceilDiv len 32)).map (fun i => sha256 (seed ++ beBytes 4 i))).flatten).take len

/-- RSASSA-PSS verification with SHA-256, MGF1 with SHA-256 and a 32-byte salt, RSA-3072 (R405).
DESIGN CHOICE and DEDUCED (log entry 40). -/
def pssVerify (modulus : List Byte) (exponent : Nat) (sig msg : List Byte) : Bool :=
  let n := beNat modulus
  let s := beNat sig
  if s < n then
    let em := beBytes 384 (powMod n s 32 exponent)
    let mdb := em.take 351
    let h := slice em 351 32
    let db := List.zipWith (· ^^^ ·) mdb (mgf1 h 351)
    let db := (db.take 1).map (· &&& 0x7F) ++ db.drop 1
    let salt := slice db 319 32
    (em.getD 383 0 == 0xBC) && ((mdb.getD 0 0) &&& 0x80 == 0) &&
      (db.take 318).all (· == 0) && (db.getD 318 0 == 1) &&
      (sha256 (zeros 8 ++ sha256 msg ++ salt) == h)
  else false

/-! ### AES-256 and its key wrap -/

/-- Multiplication by x in GF(2^8). -/
def gfDouble (b : Byte) : Byte := if b.toNat < 128 then b <<< 1 else (b <<< 1) ^^^ 0x1B

/-- Multiplication in GF(2^8). -/
def gfMul (a b : Byte) : Byte :=
  ((List.range 8).foldl (fun (p : Byte × Byte) i =>
    (if b.getLsbD i then p.1 ^^^ p.2 else p.1, gfDouble p.2)) (0, a)).1

/-- The multiplicative inverse in GF(2^8): the 254th power. -/
def gfInv (a : Byte) : Byte :=
  (List.range 6).foldl (fun r _ => gfMul (gfMul r r) a) a |> fun r => gfMul r r

/-- The AES substitution of a byte. -/
def aesSub (b : Byte) : Byte :=
  let i := gfInv b
  i ^^^ i.rotateLeft 1 ^^^ i.rotateLeft 2 ^^^ i.rotateLeft 3 ^^^ i.rotateLeft 4 ^^^ 0x63

/-- The inverse AES substitution of a byte. -/
def aesInvSub (b : Byte) : Byte :=
  gfInv (b.rotateLeft 1 ^^^ b.rotateLeft 3 ^^^ b.rotateLeft 6 ^^^ 0x05)

/-- The AES-256 key schedule: 60 words, newest first. -/
def aesExpand : Nat → Nat → Byte → List (List Byte) → List (List Byte)
  | 0, _, _, w => w
  | k + 1, i, rc, w =>
    let t := w.getD 0 []
    let t := if i % 8 = 0 then
        let r := (t.drop 1 ++ t.take 1).map aesSub
        (r.take 1).map (· ^^^ rc) ++ r.drop 1
      else if i % 8 = 4 then t.map aesSub else t
    aesExpand k (i + 1) (if i % 8 = 0 then gfDouble rc else rc)
      (List.zipWith (· ^^^ ·) (w.getD 7 []) t :: w)

/-- The 15 round keys of 16 bytes. -/
def aesRoundKeys (key : List Byte) : List (List Byte) :=
  let w := (aesExpand 52 8 1 ((List.range 8).map (fun i => slice key (4 * i) 4)).reverse).reverse
  (List.range 15).map (fun r => ((w.drop (4 * r)).take 4).flatten)

/-- The state with row r of each column rotated by s · r columns. -/
def aesShift (s : Nat) (x : List Byte) : List Byte :=
  (List.range 16).map (fun i => x.getD (4 * ((i / 4 + s * (i % 4)) % 4) + i % 4) 0)

/-- Each column multiplied by a circulant row of coefficients. -/
def aesMix (c : List Byte) (x : List Byte) : List Byte :=
  (List.range 16).map (fun i =>
    (List.range 4).foldl (fun a j => a ^^^ gfMul (c.getD ((j + 4 - i % 4) % 4) 0) (x.getD (4 * (i / 4) + j) 0)) 0)

/-- The bytewise exclusive or. -/
def xorBytes (a b : List Byte) : List Byte := List.zipWith (· ^^^ ·) a b

/-- AES-256 encryption of a 16-byte block. -/
def aesEnc (key blk : List Byte) : List Byte :=
  let rk := aesRoundKeys key
  let x := (List.range 13).foldl (fun x r =>
    xorBytes (aesMix [2, 3, 1, 1] (aesShift 1 (x.map aesSub))) (rk.getD (r + 1) [])) (xorBytes blk (rk.getD 0 []))
  xorBytes (aesShift 1 (x.map aesSub)) (rk.getD 14 [])

/-- AES-256 decryption of a 16-byte block. -/
def aesDec (key blk : List Byte) : List Byte :=
  let rk := aesRoundKeys key
  let x := (List.range 13).foldl (fun x r =>
    aesMix [14, 11, 13, 9] (xorBytes ((aesShift 3 x).map aesInvSub) (rk.getD (13 - r) []))) (xorBytes blk (rk.getD 14 []))
  xorBytes ((aesShift 3 x).map aesInvSub) (rk.getD 0 [])

/-- AES key wrap of a 32-byte key (RFC 3394): 40 bytes. -/
def keyWrap (kek key : List Byte) : List Byte :=
  let step := fun (s : List Byte × List (List Byte)) (t : Nat) =>
    let i := t % 4
    let b := aesEnc kek (s.1 ++ s.2.getD i [])
    (xorBytes (b.take 8) (beBytes 8 (t + 1)), s.2.set i (b.drop 8))
  let r := (List.range 24).foldl step (List.replicate 8 0xA6, (List.range 4).map (fun i => slice key (8 * i) 8))
  r.1 ++ r.2.flatten

/-- AES key unwrap of 40 bytes (RFC 3394): the key, or none when the integrity check fails.
DESIGN CHOICE and DEDUCED (log entry 40). -/
def keyUnwrap (kek wrapped : List Byte) : Option (List Byte) :=
  let step := fun (s : List Byte × List (List Byte)) (j : Nat) =>
    let t := 24 - j
    let i := (t - 1) % 4
    let b := aesDec kek (xorBytes s.1 (beBytes 8 t) ++ s.2.getD i [])
    (b.take 8, s.2.set i (b.drop 8))
  let r := (List.range 24).foldl step (slice wrapped 0 8, (List.range 4).map (fun i => slice wrapped (8 + 8 * i) 8))
  if r.1 = List.replicate 8 0xA6 then some r.2.flatten else none

end Sys2Proof.Machine
end

