-- ==== Sys2Proof/Config.lean ====
section
/-! DEFINITION. What one part fixes at assembly test and the values the spec leaves open. Every constant here is opaque: it has no body, so no proof can see a value, and a statement holds whatever it is. -/

namespace Sys2Proof

/-- A free value (a number whose meaning its use gives): the n-th the machine draws. DESIGN CHOICE (log entry 5). -/
opaque Config.freeValue : Nat → Nat

/-- A free byte: byte i of the n-th undefined block of data. DESIGN CHOICE (log entry 5). -/
opaque Config.freeByte : Nat → Nat → Byte

/-- What the spec leaves open of the NaN that an addition in the arrays gives, its sign and its payload below the quiet bit
(R37): a function of the cell row, or 64 for the accumulate unit, and of the operands as numbers, so that the same inputs give
the same bits. DESIGN CHOICE (log entry 5). -/
opaque Config.freeNaN : Nat → List Int → Nat

/-- Whether a binary32 result is tiny after rounding (true) or before it (false): IEEE 754 leaves the choice (R124).
DESIGN CHOICE (log entry 5). -/
opaque Config.tinyAfter : Bool

/-- Units of a handover after its memory units: the spec gives the parts of R394 that are not memory no layout. -/
opaque Config.handoverExtra : Nat

/-- The fused shift coefficient of a ring: ring r of port p at 36 · p + r, receive rings first (R218). -/
opaque Config.ringShift : Nat → Int

/-- The RSA-3072 key (modulus, exponent) that a cartridge's certificate chain certifies, when the chain verifies to the
authority key held in the boot ROM; none when it does not (R232). The spec gives neither the key nor a certificate profile.
DESIGN CHOICE and DEDUCED (log entry 37). -/
opaque Config.cartridgeKey : List Byte → Option (List Byte × Nat)

/-- The fused 256-bit key hash of a key slot, as 32 bytes (R405). -/
opaque Config.keyHash : Nat → List Byte

/-- The device-unique storage key, 32 bytes (R413). -/
opaque Config.storageKey : List Byte

/-- Amfehus' PCI-SIG Vendor ID, which the spec names without its number (R171). -/
opaque Config.vendorId : Nat

/-- The 128-bit device identity (R417). -/
opaque Config.deviceId : Nat

/-- The silicon version and the manufacturer identity of DBG_IDCODE. -/
opaque Config.version : Nat

/-- The JEDEC manufacturer identity of DBG_IDCODE. -/
opaque Config.jedecMfr : Nat

/-- Policy fuse: restricted observation groups are selectable (R438). -/
opaque Config.dbgRestricted : Bool

/-- Policy fuse: private JTAG instructions are available (R436). -/
opaque Config.jtagPrivate : Bool

end Sys2Proof
end

