-- ==== Sys2Proof/Machine/Num.lean ====
section
/-! DEFINITION. Exact binary numbers, IEEE 754 binary32 arithmetic with one rounding, and the generator word of R77 (R35, R37, R73, R78, R80). -/

namespace Sys2Proof.Machine

/-- A value of a float format: not a number, an infinity, or the exact number m · 2^e, with the sign that an exact zero
carries. -/
inductive Val where
  | nan
  | inf (neg : Bool)
  | fin (m : Int) (e : Int) (negZero : Bool)
  deriving DecidableEq, Repr

/-- Rounding modes: nearest even, toward zero, or stochastic with a generator word. -/
inductive Rnd where
  | rne
  | rtz
  | sr (word : Nat)
  deriving DecidableEq, Repr

/-- The layout of a float format: exponent bits, mantissa bits, bias, and whether the all-ones exponent holds infinity
and NaN. -/
structure FFmt where
  eb : Nat
  mb : Nat
  bias : Nat
  special : Bool
  deriving DecidableEq, Repr

/-- binary32. -/
def fp32F : FFmt := ⟨8, 23, 127, true⟩

/-- The exponent of a format's smallest subnormal. -/
def FFmt.qmin (f : FFmt) : Int := 1 - (f.bias : Int) - f.mb

/-! ### Exact values -/

/-- The sign of a value; an exact zero has the sign it carries. -/
def Val.neg : Val → Bool
  | .nan => false
  | .inf n => n
  | .fin m _ z => if m = 0 then z else m < 0

/-- A finite value. -/
def Val.finite : Val → Bool
  | .fin _ _ _ => true
  | _ => false

/-- An exact integer. -/
def Val.ofInt (i : Int) : Val := .fin i 0 false

/-- A value times 2^k, exactly. -/
def Val.scale (k : Int) : Val → Val
  | .fin m e z => .fin m (e + k) z
  | v => v

/-- An exact product: NaN for a NaN or infinity times zero, the sign of the two factors (R35, R64). -/
def Val.mul (a b : Val) : Val :=
  match a, b with
  | .nan, _ => .nan
  | _, .nan => .nan
  | .inf n, .inf k => .inf (n != k)
  | .inf n, .fin m e z => if m = 0 then .nan else .inf (n != (Val.fin m e z).neg)
  | .fin m e z, .inf n => if m = 0 then .nan else .inf (n != (Val.fin m e z).neg)
  | .fin m e z, .fin m' e' z' => .fin (m * m') (e + e') ((Val.fin m e z).neg != (Val.fin m' e' z').neg)

/-- An exact sum of two values; an exact zero sum is negative only when both addends are −0 (R35). -/
def Val.add (a b : Val) : Val :=
  match a, b with
  | .nan, _ => .nan
  | _, .nan => .nan
  | .inf n, .inf k => if n = k then .inf n else .nan
  | .inf n, _ => .inf n
  | _, .inf n => .inf n
  | .fin m e z, .fin m' e' z' =>
    let q := min e e'
    .fin (m * 2 ^ (e - q).toNat + m' * 2 ^ (e' - q).toNat) q
      (m = 0 && z && m' = 0 && z')

/-- The exact sum of a list of values; −0 only when every addend is −0. -/
def Val.sum : List Val → Val
  | [] => .fin 0 0 false
  | [v] => v
  | v :: r => Val.add v (Val.sum r)

/-- The opposite value. -/
def Val.negate : Val → Val
  | .nan => .nan
  | .inf n => .inf (!n)
  | .fin m e z => .fin (-m) e (if m = 0 then !z else false)

/-- The magnitude. -/
def Val.abs : Val → Val
  | .nan => .nan
  | .inf _ => .inf false
  | .fin m e _ => .fin m.natAbs e false

/-- An exact comparison of finite values, infinities included; false with a NaN. -/
def Val.lt (a b : Val) : Bool :=
  match a, b with
  | .nan, _ => false
  | _, .nan => false
  | .inf n, .inf k => n && !k
  | .inf n, .fin _ _ _ => n
  | .fin _ _ _, .inf k => !k
  | .fin m e _, .fin m' e' _ =>
    let q := min e e'
    m * 2 ^ (e - q).toNat < m' * 2 ^ (e' - q).toNat

/-- Equality of numbers (zeros of either sign are equal). -/
def Val.eqv (a b : Val) : Bool :=
  match a, b with
  | .nan, _ => false
  | _, .nan => false
  | .inf n, .inf k => n = k
  | .inf _, .fin _ _ _ => false
  | .fin _ _ _, .inf _ => false
  | .fin m e z, .fin m' e' z' => !(Val.lt (.fin m e z) (.fin m' e' z')) && !(Val.lt (.fin m' e' z') (.fin m e z))

/-! ### Decoding and rounding -/

/-- The value of a pattern of a float format (R61, R64); FP8-E4M3's one NaN is handled by its caller. -/
def FFmt.decode (f : FFmt) (w : Nat) : Val :=
  let s := bit w (f.eb + f.mb)
  let ex := bits w f.mb f.eb
  let man := bits w 0 f.mb
  if f.special && ex = 2 ^ f.eb - 1 then (if man = 0 then .inf s else .nan)
  else
    let n : Nat := if ex = 0 then man else man + 2 ^ f.mb
    let q : Int := f.qmin + ((if ex = 0 then 0 else ex - 1 : Nat) : Int)
    .fin (if s then -(n : Int) else n) q s

/-- ⌊log2⌋ of the magnitude m · 2^e, m > 0. -/
def log2Mag (m : Nat) (e : Int) : Int := (Nat.log2 m : Int) + e

/-- The magnitude m · 2^e placed on a grid with mb mantissa bits and least exponent qmin: n · 2^q (R73, R78). -/
def roundMag (r : Rnd) (mb : Nat) (qmin : Int) (m : Nat) (e : Int) : Nat × Int :=
  if m = 0 then (0, qmin)
  else
    let q := max qmin (log2Mag m e - mb)
    if q ≤ e then (m * 2 ^ (e - q).toNat, q)
    else
      let s := (q - e).toNat
      let lo := m / 2 ^ s
      let rem := m % 2 ^ s
      let up := match r with
        | .rne => 2 ^ s < 2 * rem || (2 * rem = 2 ^ s && lo % 2 = 1)
        | .rtz => false
        | .sr w => rem * 2 ^ 32 / 2 ^ s != 0 && w < rem * 2 ^ 32 / 2 ^ s
      (if up then lo + 1 else lo, q)

/-- The pattern of a magnitude n · 2^q on a format's grid. -/
def FFmt.encodeMag (f : FFmt) (n : Nat) (q : Int) : Nat :=
  if n < 2 ^ f.mb then n
  else if n < 2 ^ (f.mb + 1) then ((q - f.qmin).toNat + 1) * 2 ^ f.mb + (n - 2 ^ f.mb)
  else ((q - f.qmin).toNat + 2) * 2 ^ f.mb

/-- The sign bit of a format. -/
def FFmt.signBit (f : FFmt) (neg : Bool) : Nat := if neg then 2 ^ (f.eb + f.mb) else 0

/-- The pattern of infinity. -/
def FFmt.infBits (f : FFmt) (neg : Bool) : Nat := f.signBit neg + (2 ^ f.eb - 1) * 2 ^ f.mb

/-- The canonical NaN of binary32. -/
def canonNaN : Nat := 0x7FC00000

/-- A value rounded to binary32 once: nearest even overflows to infinity after rounding; stochastic rounding gives
infinity when the exact magnitude exceeds the largest finite value (R37, R80). -/
def toFp32 (nan : Nat) (r : Rnd) (v : Val) : Nat :=
  match v with
  | .nan => nan
  | .inf n => fp32F.infBits n
  | .fin m e z =>
    if m = 0 then fp32F.signBit z
    else
      let big := Val.lt (.fin ((2 ^ 24 - 1 : Nat) : Int) 104 false) (.fin m.natAbs e false)
      let p := roundMag r 23 (-149) m.natAbs e
      let c := fp32F.encodeMag p.1 p.2
      match r with
      | .sr _ => if big then fp32F.infBits (m < 0) else fp32F.signBit (m < 0) + c
      | _ => fp32F.signBit (m < 0) + (if 0x7F800000 ≤ c then 0x7F800000 else c)

/-- The value of a binary32 pattern. -/
def fp32 (w : Nat) : Val := fp32F.decode w

/-- The quiet NaN that an array addition gives: its sign and payload are the free number's. DESIGN CHOICE (log entry 5). -/
def arrayNaN (f : Nat) : Nat := 0x7FC00000 + f % 2 ^ 22 + f / 2 ^ 22 % 2 * 2 ^ 31

/-- binary32 addition, nearest even, with the NaN given. -/
def fpAdd (nan a b : Nat) : Nat := toFp32 nan .rne (Val.add (fp32 a) (fp32 b))

/-- binary32 multiplication. -/
def fpMul (nan a b : Nat) : Nat := toFp32 nan .rne (Val.mul (fp32 a) (fp32 b))

/-- Fused a · b + c. -/
def fpFma (nan a b c : Nat) : Nat := toFp32 nan .rne (Val.add (Val.mul (fp32 a) (fp32 b)) (fp32 c))

/-! ### The stochastic generator (R77) -/

/-- One round of the generator. -/
def srRound (k0 k1 : Word) (s : Word × Word × Word × Word) (i : Nat) : Word × Word × Word × Word :=
  let (a, b, c, d) := s
  let a := a + b + k0
  let d := (d ^^^ a).rotateLeft 16
  let c := c + d + k1
  let b := (b ^^^ c).rotateLeft 12
  let a := a + b + BitVec.ofNat 32 i * 0x9E3779B9
  let d := (d ^^^ a).rotateLeft 8
  let c := c + d
  let b := (b ^^^ c).rotateLeft 7
  (a, b, c, d)

/-- The generator word of a key, step, tensor, use code and element index (R77). -/
def srWord (key step tensor use elem : Nat) : Nat :=
  let k0 := BitVec.ofNat 32 key
  let k1 := BitVec.ofNat 32 (key / 2 ^ 32)
  let a := BitVec.ofNat 32 elem
  let b := BitVec.ofNat 32 (bits elem 32 16 + (use % 256) * 2 ^ 16 + 0xA5000000)
  let c := BitVec.ofNat 32 (tensor % 2 ^ 24 + 0x3C000000)
  let r := (List.range 8).foldl (srRound k0 k1) (a, b, c, BitVec.ofNat 32 step)
  (r.1 ^^^ r.2.2.1).toNat

end Sys2Proof.Machine
end

