-- ==== Sys2Proof/Machine/Tab.lean ====
section
/-! DEFINITION. Sparse tables: lists of (key, value) pairs in one canonical form (keys strictly rising, no entry equal to what an unlisted key reads as). Memory, poison marks, registers and every unit's table use them. -/

namespace Sys2Proof.Machine

/-- A sparse table from numbers to values. -/
abbrev Tab (α : Type) := List (Nat × α)

/-- The value at a key; an unlisted key reads as the default. -/
def Tab.get {α : Type} (dflt : α) : Tab α → Nat → α
  | [], _ => dflt
  | (k, v) :: r, q => if k = q then v else Tab.get dflt r q

/-- Removal of a key. -/
def Tab.erase {α : Type} : Tab α → Nat → Tab α
  | [], _ => []
  | (k, v) :: r, q => if k = q then Tab.erase r q else (k, v) :: Tab.erase r q

/-- Insertion of a key that is not listed, keeping the keys rising. -/
def Tab.insert {α : Type} : Tab α → Nat → α → Tab α
  | [], q, x => [(q, x)]
  | (k, v) :: r, q, x => if q < k then (q, x) :: (k, v) :: r else (k, v) :: Tab.insert r q x

/-- Writing a value at a key; writing the default removes the entry. -/
def Tab.set {α : Type} [DecidableEq α] (dflt : α) (t : Tab α) (q : Nat) (x : α) : Tab α :=
  if x = dflt then Tab.erase t q else Tab.insert (Tab.erase t q) q x

/-- Every key of [a, a + n) set back to the default. -/
def Tab.clear {α : Type} (t : Tab α) (a n : Nat) : Tab α := t.filter (fun p => p.1 < a || a + n ≤ p.1)

/-- The entries of [a, a + n). -/
def Tab.within {α : Type} (t : Tab α) (a n : Nat) : Tab α := t.filter (fun p => a ≤ p.1 && p.1 < a + n)

/-- Writing a list of (key, value) pairs in order. -/
def Tab.setAll {α : Type} [DecidableEq α] (dflt : α) : Tab α → List (Nat × α) → Tab α
  | t, [] => t
  | t, (k, v) :: r => Tab.setAll dflt (Tab.set dflt t k v) r

/-- Copying [src, src + n) over [dst, dst + n), the source as it was before. -/
def Tab.copy {α : Type} [DecidableEq α] (dflt : α) (t : Tab α) (src dst n : Nat) : Tab α :=
  Tab.setAll dflt (Tab.clear t dst n) ((Tab.within t src n).map (fun p => (p.1 - src + dst, p.2)))

/-- Changing the value at a key by a function of it. -/
def Tab.mod {α : Type} [DecidableEq α] (dflt : α) (t : Tab α) (q : Nat) (f : α → α) : Tab α :=
  Tab.set dflt t q (f (Tab.get dflt t q))

/-- The canonical form: keys strictly rising from a bound, no entry equal to the default. -/
def Tab.wfFrom {α : Type} [DecidableEq α] (dflt : α) : Nat → Tab α → Bool
  | _, [] => true
  | lo, (k, v) :: r => decide (lo ≤ k) && (decide (v ≠ dflt) && Tab.wfFrom dflt (k + 1) r)

/-- The canonical form of a table. -/
def Tab.wf {α : Type} [DecidableEq α] (dflt : α) (t : Tab α) : Bool := Tab.wfFrom dflt 0 t

end Sys2Proof.Machine
end

