-- ==== Sys2Proof/Syntax.lean ====
section
/-! DEFINITION. The commands the block takes: one constructor per row of the table of operations and events, with the operands that come from outside with it (unit numbers, packets, flits, link blocks, readings, the host's writes). -/

namespace Sys2Proof

/-- A fabric packet: the header fields of R255 and its payload. -/
structure Packet where
  cls     : Nat
  dl      : Bool
  ord     : Bool
  mcast   : Bool
  viaTree : Bool
  op      : Nat
  dst     : Nat
  src     : Nat
  da      : Nat
  hops    : Nat
  tag     : Nat
  payload : List Byte
  deriving DecidableEq, Repr

/-- What the ROM start phase reads: whether the root PLL locks at once, the Midway's strap word, the strap words on the
eight tower ports, the rails outside their windows (bit n for rail n of R426) and the two profile pins. -/
structure RomInputs where
  rootLock   : Bool
  hubWord    : Nat
  towerWords : List Nat
  railsBad   : Nat
  profile    : Nat
  deriving DecidableEq, Repr

/-- What lane selection finds on one bundle: the lanes (0 to 67) that pass the PRBS31 test, in order of falling
measured eye width. -/
structure LaneResult where
  passing : List Nat
  deriving DecidableEq, Repr

/-- A reading of a die-to-die margin sweep of one bundle (R29). -/
structure D2DSweep where
  eyeWTo : Nat
  eyeWFrom : Nat
  eyeHTo : Nat
  eyeHFrom : Nat
  worstTo : Nat
  worstFrom : Nat
  errNominal : Nat
  deriving DecidableEq, Repr

/-- A reading of an optical lane sweep (R227). -/
structure LaneSweep where
  eyeW : Nat
  eyeLo : Nat
  eyeMid : Nat
  eyeHi : Nat
  rxPower : Nat
  omargin : Nat
  deriving DecidableEq, Repr

/-- What the host has changed in its own memory since the device last looked: bytes written, and ranges (address,
length) whose reads complete with an error. -/
structure HostChange where
  writes : List (Nat × Byte)
  errs   : List (Nat × Nat)
  deriving DecidableEq, Repr

/-- What an access finds in stored lines of SRAM (R93, R377): half-lines, by device address, whose error cannot be
corrected, and lines whose corrected error is present again after write-back. -/
structure Ecc where
  ue   : List Nat
  hard : List Nat
  deriving DecidableEq, Repr

/-- What a tile operation meets when it starts: the core-clock cycles it was held under R97, the bank requests of it that
waited (R91), and what its reads find in SRAM. -/
structure Start where
  hold     : Nat
  conflict : Nat
  ecc      : Ecc
  deriving DecidableEq, Repr

/-- What slowed a pass: shadow wait cycles (R47), bubble slots (R52), starved slots (R91). -/
structure PassTiming where
  wait   : Nat
  bubble : Nat
  starve : Nat
  deriving DecidableEq, Repr

/-- What a vault transfer meets (R148, R150, R151): the pipes whose attempts failed, in order; the pipe that served it;
whether all four attempts of a half-sector failed; the address of the sector with an error; corrected errors; whether a
corrected error was present again after write-back; whether the read is uncorrectable. -/
structure VaultErr where
  failed  : List Nat
  pipe    : Nat
  allFail : Bool
  sector  : Nat
  ce      : Nat
  hard    : Bool
  ue      : Bool
  deriving DecidableEq, Repr

/-- What the host sets in the function's configuration space and what the link has trained to (R171, R172): log2 of the BAR2
size, maximum payload and maximum read request sizes in bytes, generation of the rate, lanes. -/
structure PcieSetup where
  bar2  : Nat
  mps   : Nat
  mrrs  : Nat
  gen   : Nat
  lanes : Nat
  deriving DecidableEq, Repr

/-- A reading of a vault pipe's margin sweep (R163, R164). -/
structure PipeSweep where
  eyeWRd : Nat
  eyeWWr : Nat
  eyeHRd : Nat
  eyeHWr : Nat
  trcd   : Nat
  trp    : Nat
  twr    : Nat
  errNominal : Nat
  deriving DecidableEq, Repr

/-- What a port training finds (R211): the receive lanes that pass, in order of falling optical margin, and the transmit lanes
that pass at the peer's receiver, in its order: the first 16 of each are chosen to carry slots. -/
structure TrainResult where
  rx : List Nat
  tx : List Nat
  deriving DecidableEq, Repr

/-- A 10 µs sample of Tightrope (R333 to R340, R426): the voltage in mV and the current in mA of each rail by its number, none
when the rail did not return both readings; the activity estimate E, its array part A and its dynamic compute-die part in mW; the temperatures to which the model's
nodes advance, in 0.001 °C. -/
structure PowerSample where
  rails : List (Option (Nat × Nat))
  est : Nat
  arr : Nat
  dyn : Nat
  temps : List Int
  deriving DecidableEq, Repr

/-- A second's reading of a cartridge (R234): drive current in mA, the 18 line powers in 0.01 dBm, whether all lines lie
within ±2 GHz of the grid, and whether a line is below loss-of-signal. -/
structure CartReading where
  drive : Nat
  power : List Int
  locked : Bool
  los : Bool
  deriving DecidableEq, Repr

/-- The parts of an exported state that are not device memory (R394), as the units after the last memory unit spell them in
a layout that the spec does not give: logical cores that are not ACTIVE with their states; event counters; group table;
bindings, each as the bytes of its UPD_BIND, its freeze-map position and its DAMAGED mark; frozen positions; live table;
current and committed counters by layer; routing entries as FAB_ROUTE holds them; step number, attempt, the STEP_CFG in
force and any that waits, as descriptor bytes. -/
structure HandoverParts where
  states  : List (Nat × Nat)
  evt     : List (Nat × Nat)
  groups  : List (Nat × List Nat)
  binds   : List (List Byte × Nat × Bool)
  frozen  : List Nat
  live    : List (Nat × Nat)
  unf     : List (Nat × Nat)
  ovf     : List (Nat × Nat)
  cUnf    : List (Nat × Nat)
  cOvf    : List (Nat × Nat)
  routes  : List (Nat × Nat)
  step    : Nat
  attempt : Nat
  cfg     : List Byte
  next    : Option (List Byte)
  deriving DecidableEq, Repr

/-- The commands, in the order of the table: what comes from the host, the fabric, the links, the pins, the sensors and the
block's own engines and timers. DESIGN CHOICE (log entry 6). -/
inductive Instr where
  /-- RESET_RELEASE (R429): PWRGOOD and RESET_N are both high, so the device leaves RESET and enters BOOT. -/
  | resetRelease (r : RomInputs)
  /-- RESET_N_ASSERT (R429): RESET_N falls, so the device enters RESET and sets its outputs to their reset levels. -/
  | resetNAssert
  /-- PWRGOOD_FALL (R431): PWRGOOD falls, and within 1 µs the device enters RESET with its outputs set by R429. -/
  | pwrgoodFall
  /-- PERST_N_ASSERT (R425): PERST_N low resets only the PCIe controller and configuration space. -/
  | perstNAssert
  /-- PERST_N_RELEASE (R439): PERST_N rises and the PCIe link restarts without disturbing BOOT or RECOVERY. -/
  | perstNRelease
  /-- THERMTRIP_ASSERT (R432): THERMTRIP_N is low for at least 100 ns and the device takes a thermal trip. -/
  | thermtripAssert
  /-- ROOT_PLL_LOCK_TIMEOUT (R402): The root PLL has not locked within 2 ms of reset release, so the device enters HALTED. -/
  | rootPllLockTimeout
  /-- IMAGE_LOADED (R405): The image header and body have been read, and the format, key, revocation, signature, digest and rollback checks run. -/
  | imageLoaded (readErr : Bool)
  /-- FIRMWARE_START_DONE (R401): The firmware start phase is complete: PLLs, lanes, SRAM, vaults, core map, update cores and Tightrope are up. -/
  | firmwareStartDone (res : List (Nat × LaneResult))
  /-- BOOT_FINISH (R401): Fabric time is set to 0, Act presets are applied, the device enters READY and vector 0 is sent. -/
  | bootFinish
  /-- BOOT_WATCHDOG (R402): The device is not READY 10 s after reset release, so the Ringmaster restarts in ROM and enters RECOVERY. -/
  | bootWatchdog
  /-- FUSE_ADVANCE (R406): Within 100 ms of first READY, the security-version fuses and any revocation fuses are blown. -/
  | fuseAdvance
  /-- RCV_PROGRAM (R408): A write of program to SEC_RCV_CTRL.CMD makes the boot ROM check the image in Midway SRAM and write it to flash. -/
  | rcvProgram
  /-- RCV_FLASH_DONE (R408): The recovery flash write and read-back end, and SEC_RCV_CTRL.STATUS reports done, rejected or flash failed. -/
  | rcvFlashDone (ok : Bool)
  /-- RCV_RESET (R408): A write of reset to SEC_RCV_CTRL.CMD makes the device enter RESET. -/
  | rcvReset
  /-- PLL_LOCK_LOSS (R33): A root, tower or engine PLL loses lock; the root halts the device, a follower holds its flows or takes its ports down. -/
  | pllLockLoss (k : Nat)
  /-- PLL_RELOCK (R33): A follower PLL relocks, its discarded passes are replayed and its ports retrain. -/
  | pllRelock (k : Nat)
  /-- PLL_RELOCK_TIMEOUT (R33): A follower PLL has not relocked within 100 µs, so the tower's cores become LOST or the engine's ports FAILED. -/
  | pllRelockTimeout (k : Nat)
  /-- REF_CHECK (R34): The millisecond measurement of the reference against the check oscillator, which records and alerts after 10 deviations. -/
  | refCheck (dev : Nat)
  /-- DIVIDER_CHANGE (R32): The core divider of all towers changes at the next 120-root-cycle alignment point. -/
  | dividerChange
  /-- REGULATOR_REPORT (R338): The regulator reports the commanded core voltage, so a step up may proceed to its divider change. -/
  | regulatorReport
  /-- STEP_UP_ABANDON (R338): No regulator report has come within 500 µs, so the step up is abandoned and the previous voltage is restored. -/
  | stepUpAbandon
  /-- D2D_PACKET_START (R21): A sender starts a packet on a bundle once it holds credits for all of the packet's flits. -/
  | d2dPacketStart (l : Nat) (dir : Nat) (src : Nat) (dst : Nat) (p : Packet)
  /-- D2D_FLIT_RECEIVE (R22): A die-to-die flit is received, CRC-checked, acknowledged and credited, with NAK-driven re-send at the sender. -/
  | d2dFlitReceive (l : Nat) (b : Nat) (dir : Nat) (f : List Byte)
  /-- D2D_REPLAY_TIMEOUT (R22): No acknowledgement has come 256 ns after the oldest unacknowledged flit, so the sender re-sends from ACK + 1. -/
  | d2dReplayTimeout (l : Nat) (b : Nat) (dir : Nat)
  /-- D2D_RETRAIN_DONE (R24): A bundle retrain ends and the bundle resumes, or it fails and goes out of service. -/
  | d2dRetrainDone (l : Nat) (b : Nat) (res : LaneResult)
  /-- D2D_RECOVERY_FLIT_SEND (R25): The receiver sends the bundle recovery flit again at its 1 µs interval. -/
  | d2dRecoveryFlitSend (l : Nat) (b : Nat) (dir : Nat)
  /-- D2D_RECOVERY_FLIT_RECEIVE (R25): The sender receives a recovery flit, discards packets already delivered and re-sends the rest on new bundles. -/
  | d2dRecoveryFlitReceive (l : Nat) (dir : Nat) (f : List Byte)
  /-- D2D_RECOVERY_TIMEOUT (R25): No good recovery flit has arrived within 100 µs, so the link is handled as lost. -/
  | d2dRecoveryTimeout (l : Nat) (b : Nat) (dir : Nat)
  /-- D2D_BAND_SET_DONE (R27): One bundle has applied its equalisation set for the new band, and the next bundle of the link begins. -/
  | d2dBandSetDone (l : Nat) (b : Nat)
  /-- D2D_MARGIN_BUNDLE_DONE (R29): The margin sweep of one bundle ends, its record is written and the next bundle is held. -/
  | d2dMarginBundleDone (l : Nat) (b : Nat) (x : D2DSweep)
  /-- SEQ_DISPATCH (R96): The sequencer dispatches the next tile operation in program order once its queue has room. -/
  | seqDispatch (c : Nat) (e : Ecc)
  /-- RUN_CHECK_DONE (R95): The RUN's programs have all been checked, and the cores start or the RUN completes BAD_FIELD. -/
  | runCheckDone (ring : Nat) (sub : Nat)
  /-- W_LOAD (R100): A W_LOAD starts and fills the shadow weight registers of all four arrays. -/
  | wLoad (c : Nat) (pos : Nat) (t : Start)
  /-- W_LOAD_COMPLETE (R45): The shadow load completes 68 cycles after it started. -/
  | wLoadComplete (c : Nat) (pos : Nat)
  /-- CB_LOAD (R101): A CB_LOAD starts copying a codebook table into a slot. -/
  | cbLoad (c : Nat) (pos : Nat) (t : Start)
  /-- CB_LOAD_COMPLETE (R69): The last byte of a codebook table has been moved into its slot. -/
  | cbLoadComplete (c : Nat) (pos : Nat)
  /-- STREAM (R102): A STREAM starts a pass that injects its activation rows, with the switch token when SWITCH is set. -/
  | stream (c : Nat) (pos : Nat) (t : Start)
  /-- PASS_END (R43): A pass ends and its output rows become visible together. -/
  | passEnd (c : Nat) (pos : Nat) (p : PassTiming)
  /-- FAULT_COUNT_CLEAR (R59): 2^FAULT_WINDOW consecutive fault-free passes have ended, so the core's array fault count clears. -/
  | faultCountClear (c : Nat)
  /-- BUBBLE_WINDOW_START (R53): A 16-slot window begins and the bubble ratio in force is applied to it. -/
  | bubbleWindowStart (c : Nat)
  /-- DRAIN (R103): A DRAIN starts converting accumulator rows by its conversion record. -/
  | drain (c : Nat) (pos : Nat) (t : Start)
  /-- CONV_RECORD_READ (R104): The drain's conversion record is read once its writers are complete, narrowing its write set. -/
  | convRecordRead (c : Nat) (pos : Nat)
  /-- DRAIN_END (R82): A drain ends with a clean, range-overflow or saturated-source verdict. -/
  | drainEnd (c : Nat) (pos : Nat)
  /-- OVERFLOW_REPLAY (R83): Four cycles after an overflow verdict the segment is abandoned, k is lowered and the segment is re-issued. -/
  | overflowReplay (c : Nat)
  /-- VEC (R105): A VEC starts running its vector code with the registers initialised by R119. -/
  | vec (c : Nat) (pos : Nat) (t : Start)
  /-- VEC_END (R105): The vector code ends by HALT or by leaving its range, and its stores are written. -/
  | vecEnd (c : Nat) (pos : Nat)
  /-- MOVE (R106): A MOVE starts copying rows between device addresses. -/
  | move (c : Nat) (pos : Nat) (t : Start)
  /-- MOVE_COMPLETE (R97): The last byte of a MOVE is visible at its destination. -/
  | moveComplete (c : Nat) (pos : Nat)
  /-- GATHER (R106): A GATHER starts reading indexed elements from the own vault through the narrow gather path. -/
  | gather (c : Nat) (pos : Nat) (t : Start)
  /-- GATHER_COMPLETE (R97): The last gathered element has been written. -/
  | gatherComplete (c : Nat) (pos : Nat)
  /-- XFER (R106): An XFER starts a memory-fabric put or get between local and remote memory. -/
  | xfer (c : Nat) (pos : Nat) (t : Start)
  /-- XFER_COMPLETE (R320): Every byte of an XFER is acknowledged or written, and a notify is sent if asked for. -/
  | xferComplete (c : Nat) (pos : Nat)
  /-- WAIT (R107): A WAIT holds dispatch until its event counter reaches the threshold. -/
  | wait (c : Nat)
  /-- WAIT_MET (R107): The awaited counter reaches the threshold and dispatch resumes. -/
  | waitMet (c : Nat)
  /-- WAIT_TIMEOUT (R111): A WAIT or SCOPE 0 barrier has held dispatch beyond WAIT_LIMIT, so the program stops with TIMEOUT. -/
  | waitTimeout (c : Nat)
  /-- CORE_STOP_AT_BOUNDARY (R111): A core of a stopping RUN reaches its next pass boundary and stops. -/
  | coreStopAtBoundary (c : Nat)
  /-- SIGNAL (R108): A SIGNAL enters the signal queue. -/
  | signal (c : Nat)
  /-- SIGNAL_FIRE (R108): A SIGNAL's fence is met and it adds ADD to its event counter atomically. -/
  | signalFire (c : Nat)
  /-- BARRIER (R109): A BARRIER fences all units and then arrives at a local or step barrier. -/
  | barrier (c : Nat)
  /-- LOCAL_BARRIER_RELEASE (R109): The last core of the RUN arrives at a SCOPE 0 barrier instance, which releases. -/
  | localBarrierRelease (ring : Nat) (sub : Nat) (id : Nat)
  /-- REPLAY_MARK (R110): A REPLAY_MARK opens a replay segment. -/
  | replayMark (c : Nat)
  /-- END (R110): END applies a fence over every unit and every SIGNAL. -/
  | endOp (c : Nat)
  /-- PROGRAM_COMPLETE (R110): The END fence is met, the program is complete, and the RUN completes once all its cores end. -/
  | programComplete (c : Nat)
  /-- ARRAY_FAULT (R58): An array detects a parity or residue fault and the pass is discarded. -/
  | arrayFault (c : Nat) (cause : Nat) (arrays : Nat)
  /-- PREEMPT_REQUEST (R113): A pre-emption request reaches a core, dispatch stops and started operations run on. -/
  | preemptRequest (c : Nat)
  /-- PREEMPT_SAVE (R113): The core is at a pass boundary and writes its sequencer record and save window. -/
  | preemptSave (c : Nat) (cycles : Nat)
  /-- PREEMPT_SAVE_DONE (R113): The save is complete and the higher-priority RUN receives the core. -/
  | preemptSaveDone (c : Nat) (micros : Nat)
  /-- PREEMPT_RESTORE (R114): A pre-empted RUN's cores are free, and restore of the save window and record begins. -/
  | preemptRestore (c : Nat)
  /-- PREEMPT_RESTORE_DONE (R114): The active tile is reloaded, saved operations are re-dispatched and dispatch continues. -/
  | preemptRestoreDone (c : Nat) (micros : Nat)
  /-- HALT (R122): Vector instruction HALT ends the vector code. -/
  | halt (x : Nat)
  /-- VFP (R125): Vector FP32 arithmetic instruction, with the function chosen by FN. -/
  | vfp (x : Nat)
  /-- VINT (R126): Vector INT32 arithmetic and logic instruction. -/
  | vint (x : Nat)
  /-- VCMP (R127): Vector comparison into a predicate. -/
  | vcmp (x : Nat)
  /-- VPERM (R129): Vector permute and lane move instruction. -/
  | vperm (x : Nat)
  /-- VRED (R130): Vector reduction by the fixed tree. -/
  | vred (x : Nat)
  /-- VCVT (R131): Vector conversion by R72 with the parameters in the control registers. -/
  | vcvt (x : Nat)
  /-- VSCL (R132): Block-scale instruction BSC, UNSCALE or BSTAT. -/
  | vscl (x : Nat)
  /-- VPRED (R128): Predicate logic instruction. -/
  | vpred (x : Nat)
  /-- VLD (R133): Contiguous 32-bit vector load. -/
  | vld (x : Nat) (e : Ecc)
  /-- VLDS (R133): Strided vector load. -/
  | vlds (x : Nat) (e : Ecc)
  /-- VLDX (R133): Indexed vector load. -/
  | vldx (x : Nat) (e : Ecc)
  /-- VLDW (R133): Packed narrow-format load, widened exactly. -/
  | vldw (x : Nat) (e : Ecc)
  /-- VLDB (R133): Block byte load, one byte per 32-lane block. -/
  | vldb (x : Nat) (e : Ecc)
  /-- VST (R133): Contiguous 32-bit vector store. -/
  | vst (x : Nat)
  /-- VSTS (R133): Strided vector store. -/
  | vsts (x : Nat)
  /-- VSTX (R133): Indexed vector store; on duplicate addresses the higher lane wins. -/
  | vstx (x : Nat)
  /-- VSTN (R133): Packed narrow-format store. -/
  | vstn (x : Nat)
  /-- VSTB (R133): Block byte store, one byte per 32-lane block. -/
  | vstb (x : Nat)
  /-- SALU (R135): Scalar register arithmetic. -/
  | salu (x : Nat)
  /-- SADDI (R135): Scalar add of a sign-extended immediate. -/
  | saddi (x : Nat)
  /-- SLUI (R135): Scalar load of an upper immediate. -/
  | slui (x : Nat)
  /-- SORI (R135): Scalar or with a zero-extended immediate. -/
  | sori (x : Nat)
  /-- SLD (R135): Scalar 32-bit load. -/
  | sld (x : Nat) (e : Ecc)
  /-- SST (R135): Scalar 32-bit store. -/
  | sst (x : Nat)
  /-- MTC (R135): Move a scalar register to a control register. -/
  | mtc (x : Nat)
  /-- MFC (R135): Move a control register to a scalar register. -/
  | mfc (x : Nat)
  /-- BEQ (R135): Branch if equal. -/
  | beq (x : Nat)
  /-- BNE (R135): Branch if not equal. -/
  | bne (x : Nat)
  /-- BLT (R135): Branch if less, signed. -/
  | blt (x : Nat)
  /-- BLTU (R135): Branch if less, unsigned. -/
  | bltu (x : Nat)
  /-- JMP (R135): Unconditional branch. -/
  | jmp (x : Nat)
  /-- VEC_UNDEFINED (R136): An undefined vector opcode or FN stops the program with BAD_FIELD. -/
  | vecUndefined (x : Nat)
  /-- VEC_LIMIT_EXCEEDED (R120): The executed-instruction count passes 2^LIMIT_EXP, so the program stops with TIMEOUT. -/
  | vecLimitExceeded (x : Nat)
  /-- VAULT_READ (R142): A read request reaches the vault controller and is served with CRC and storage-code checks. -/
  | vaultRead (c : Nat) (off : Nat) (len : Nat) (e : VaultErr)
  /-- VAULT_WRITE (R142): A write request reaches the vault controller, is mirrored if in a mirrored range, and is made visible. The list holds the pipes of failed attempts on a spare row. -/
  | vaultWrite (c : Nat) (off : Nat) (data : List Byte) (e : VaultErr) (again : List Nat)
  /-- ROW_REPAIR_FUSED (R157): The background fuse programming of a row repair ends. -/
  | rowRepairFused (bk : Nat) (row : Nat)
  /-- BANK_SPARE_DONE (R158): The bank copy ends and the bank is remapped atomically. -/
  | bankSpareDone (c : Nat) (bk : Nat)
  /-- REFRESH_DUE (R154): A bank's refresh interval expires and 8 rows are refreshed. -/
  | refreshDue (col : Nat) (layer : Nat) (bank : Nat)
  /-- PATROL_SCRUB (R152): Patrol scrub reads a sector in an idle or forced slot and corrects errors. -/
  | patrolScrub (t : Nat) (site : Nat) (ce : Nat) (hard : Bool) (ue : Bool)
  /-- PIPE_RETRAIN_DONE (R149): A pipe retrain ends; a failed pipe goes out of service and migration is requested. -/
  | pipeRetrainDone (c : Nat) (p : Nat) (ok : Bool)
  /-- MIRROR_RESYNC_DONE (R162): The full resync copy ends and the mirror becomes OK. -/
  | mirrorResyncDone
  /-- VAULT_MARGIN_PIPE_DONE (R163): The margin sweep of one pipe ends, its record is written and the next pipe starts. -/
  | vaultMarginPipeDone (c : Nat) (p : Nat) (x : PipeSweep)
  /-- MIGRATION_START (R166): A waiting migration's turn comes, and it takes the lowest spare site or ends without one. -/
  | migrationStart (t : Nat)
  /-- MIGRATION_INIT_DONE (R167): The target site is clocked and its SRAM initialised, so the copy begins. -/
  | migrationInitDone (t : Nat)
  /-- MIGRATION_COPY_DONE (R167): The copy of SRAM and vault to the target ends and verification begins. -/
  | migrationCopyDone (t : Nat) (bad : List Nat)
  /-- MIGRATION_VERIFY_DONE (R167): Verification ends and the cut-over changes the core map. The list holds the units that a repeated copy could not read. -/
  | migrationVerifyDone (t : Nat) (mismatch : Bool) (bad : List Nat)
  /-- SPARE_ZERO_DONE (R378): A site brought in for a LOST core finishes zeroing and the core becomes ACTIVE. -/
  | spareZeroDone (c : Nat)
  /-- DOORBELL_POLL (R178): The device reads the doorbell area, fetches descriptors and writes held records to freed ring space. -/
  | doorbellPoll (c : HostChange)
  /-- DESC_UNDEFINED (R183): A descriptor with an undefined opcode completes BAD_OPCODE. -/
  | descUndefined (r : Nat)
  /-- DESC_WAIT_TIMEOUT (R198): A descriptor's waits stay unmet past HQ_WAIT_LIMIT and it completes TIMEOUT; the ring is a host ring or a core request ring. -/
  | descWaitTimeout (r : Nat) (core : Bool)
  /-- IRQ_HOLDOFF_EXPIRE (R175): An MSI-X hold-off ends and the completions it held share one message. -/
  | irqHoldoffExpire (v : Nat)
  /-- BAR2_READ (R173): A host read through BAR2 of device memory or the register mirror. -/
  | bar2Read (o : Nat) (n : Nat) (e : Ecc)
  /-- BAR2_WRITE (R173): A host write through BAR2, dropped and counted when not allowed. -/
  | bar2Write (o : Nat) (l : List Byte) (e : Ecc)
  /-- PCIE_LINK_RESET (R174): A hot reset, link disable, link down or D3hot resets configuration space and stops polling. -/
  | pcieLinkReset
  /-- PCIE_D0_RETURN (R174): The function is back in D0 with Bus Master Enable, so held records are written and polling resumes. -/
  | pcieD0Return (msix : Bool) (c : PcieSetup)
  /-- NOP (R192): Descriptor NOP completes DONE at once. -/
  | nop (r : Nat)
  /-- EVENT_ADD (R192): EVENT descriptor that adds VALUE to a counter. -/
  | eventAdd (r : Nat)
  /-- EVENT_SET (R192): EVENT descriptor that sets a counter to VALUE. -/
  | eventSet (r : Nat)
  /-- EVENT_READ (R192): EVENT descriptor that writes a counter's value to DST. -/
  | eventRead (r : Nat)
  /-- RUN (R199): RUN descriptor that acquires its cores, pre-empting or waiting as priority requires. -/
  | run (r : Nat)
  /-- DMA (R192): DMA descriptor that copies LEN bytes between regions. -/
  | dma (r : Nat)
  /-- DMA_COMPLETE (R192): Every byte of a DMA is visible at its destination and the DMA completes. -/
  | dmaComplete (r : Nat) (k : Nat) (e : Ecc)
  /-- COLL_ALL_REDUCE (R280): COLL descriptor of KIND all-reduce. -/
  | collAllReduce (r : Nat)
  /-- COLL_REDUCE_SCATTER (R280): COLL descriptor of KIND reduce-scatter. -/
  | collReduceScatter (r : Nat)
  /-- COLL_ALL_GATHER (R280): COLL descriptor of KIND all-gather. -/
  | collAllGather (r : Nat)
  /-- COLL_BROADCAST (R280): COLL descriptor of KIND broadcast. -/
  | collBroadcast (r : Nat)
  /-- COLL_REDUCE (R280): COLL descriptor of KIND reduce to rank 0. -/
  | collReduce (r : Nat)
  /-- COLL_GROUP (R267): COLL_GROUP descriptor that defines a group entry and its member list. -/
  | collGroup (r : Nat)
  /-- COLL_GROUP_DELETE (R192): COLL_GROUP descriptor with DELETE = 1 that removes a group entry. -/
  | collGroupDelete (r : Nat)
  /-- GET (R318): MFAB GET that reads remote bytes to LOCAL. -/
  | get (r : Nat)
  /-- GET_CACHED (R325): MFAB GET served through the remote line cache. -/
  | getCached (r : Nat)
  /-- PUT (R318): MFAB PUT that writes LOCAL bytes to a remote address. -/
  | put (r : Nat)
  /-- PUT_LINE (R318): MFAB PUT to every other member of this device's line. -/
  | putLine (r : Nat)
  /-- INVALIDATE (R326): MFAB that drops cached lines of a range. -/
  | invalidate (r : Nat)
  /-- INVALIDATE_ALL (R326): MFAB that drops every cached line. -/
  | invalidateAll (r : Nat)
  /-- A_IADD (R318): Remote atomic integer add. -/
  | aIadd (r : Nat)
  /-- A_FADD (R318): Remote atomic FP32 add. -/
  | aFadd (r : Nat)
  /-- A_SWAP (R318): Remote atomic swap. -/
  | aSwap (r : Nat)
  /-- A_CAS (R318): Remote atomic compare-and-swap. -/
  | aCas (r : Nat)
  /-- A_UMAX (R318): Remote atomic unsigned maximum. -/
  | aUmax (r : Nat)
  /-- A_UMIN (R318): Remote atomic unsigned minimum. -/
  | aUmin (r : Nat)
  /-- A_OR (R318): Remote atomic bitwise or. -/
  | aOr (r : Nat)
  /-- A_AND (R318): Remote atomic bitwise and. -/
  | aAnd (r : Nat)
  /-- R_FADD (R318): Remote FP32 add reduction, element by element. -/
  | rFadd (r : Nat)
  /-- R_IADD (R318): Remote INT32 add reduction. -/
  | rIadd (r : Nat)
  /-- R_FMAX (R318): Remote FMAX reduction. -/
  | rFmax (r : Nat)
  /-- R_FMIN (R318): Remote FMIN reduction. -/
  | rFmin (r : Nat)
  /-- UPD_BIND (R292): UPD_BIND descriptor that binds a tensor's master, state and narrow arrays. -/
  | updBind (r : Nat)
  /-- UPD_UNBIND (R293): UPD_BIND with UNBIND = 1 that removes a binding. -/
  | updUnbind (r : Nat)
  /-- UPD_FREEZE (R304): UPD_FREEZE with FREEZE = 1 that sets freeze-map bits. -/
  | updFreeze (r : Nat)
  /-- UPD_THAW (R304): UPD_FREEZE with FREEZE = 0 that clears freeze-map bits. -/
  | updThaw (r : Nat)
  /-- STEP_CFG (R359): STEP_CFG descriptor that sets the step number, replay budget, sync, fall-back and barrier group. -/
  | stepCfg (r : Nat)
  /-- SET_CAP (R349): SET_CAP descriptor that puts a new power cap in force. -/
  | setCap (r : Nat)
  /-- SET_POLICY_DRAM_BAND (R342): SET_POLICY key 0x0001, which allows or forbids the DRAM extended band. -/
  | setPolicyDramBand (r : Nat)
  /-- SET_POLICY_HIGHEST_POINT (R339): SET_POLICY key 0x0002, which sets the highest operating point allowed. -/
  | setPolicyHighestPoint (r : Nat)
  /-- SET_POLICY_COLL_WATCHDOG (R289): SET_POLICY key 0x0003, which sets the collective watchdog interval. -/
  | setPolicyCollWatchdog (r : Nat)
  /-- SET_POLICY_ATOMIC_RETRY (R329): SET_POLICY key 0x0004, which sets the atomic retry interval. -/
  | setPolicyAtomicRetry (r : Nat)
  /-- ACT_SELECT (R415): ACT_SELECT descriptor that sets SEC_ACT_NEXT for the next reset. -/
  | actSelect (r : Nat)
  /-- CAL_REQ_OPTICAL (R220): CAL_REQ KIND 0, a port calibration of each named optical port. -/
  | calReqOptical (r : Nat)
  /-- CAL_REQ_D2D (R30): CAL_REQ KIND 1, which retrains every bundle of each named link. -/
  | calReqD2d (r : Nat)
  /-- CAL_REQ_VAULT (R165): CAL_REQ KIND 2, which retrains the pipes of each named vault. -/
  | calReqVault (r : Nat)
  /-- CAL_REQ_THERMAL (R353): CAL_REQ KIND 3, which refits every thermal-model record. -/
  | calReqThermal (r : Nat)
  /-- MARGIN_VAULT (R163): MARGIN KIND 0, which sweeps the pipes and DRAM timing of named vaults. -/
  | marginVault (r : Nat)
  /-- MARGIN_OPTICAL (R227): MARGIN KIND 1, which sweeps the receive lanes of named ports. -/
  | marginOptical (r : Nat)
  /-- MARGIN_D2D (R29): MARGIN KIND 2, which sweeps named die-to-die links bundle by bundle. -/
  | marginD2d (r : Nat)
  /-- OPT_MARGIN_LANE_DONE (R227): The sweep of one optical lane ends and its record is written. -/
  | optMarginLaneDone (p : Nat) (lane : Nat) (x : LaneSweep)
  /-- SPARE_CORE (R379): SPARE_CORE descriptor that migrates or restores a logical core. -/
  | spareCore (r : Nat)
  /-- SPARE_LIMELIGHT (R242): SPARE_LIMELIGHT descriptor that switches a home slot's ports to its spare cartridge. -/
  | spareLimelight (r : Nat)
  /-- HANDOVER_EXPORT (R396): HANDOVER_EXPORT descriptor that exports the logical state to a spare. -/
  | handoverExport (r : Nat)
  /-- HANDOVER_IMPORT (R396): HANDOVER_IMPORT descriptor that imports a source's state and takes over its flat ID. -/
  | handoverImport (r : Nat)
  /-- QUIESCE (R197): QUIESCE descriptor that brings the device to QUIESCED at the next boundary. -/
  | quiesce (r : Nat)
  /-- RESUME (R192): RESUME descriptor that returns the device to RUNNING. -/
  | resume (r : Nat)
  /-- ATTEST (R418): ATTEST descriptor that writes a signed attestation report. -/
  | attest (r : Nat)
  /-- FW_STAGE (R409): FW_STAGE descriptor that copies image bytes into the staging buffer. -/
  | fwStage (r : Nat)
  /-- FW_COMMIT (R410): FW_COMMIT descriptor that checks a staged firmware image or Act record and writes it to flash. -/
  | fwCommit (r : Nat)
  /-- FLASH_WRITE_DONE (R410): The commit's flash write and read-back end, and FW_COMMIT completes. -/
  | flashWriteDone (ok : Bool)
  /-- SETUP_LOCK (R444): A write of the key to GLB_SETUP_LOCK requests the set-up lock. -/
  | setupLock
  /-- EVT_DATA_WRITE (R184): A write to EVT_DATA atomically sets the event counter that EVT_SEL selects. -/
  | evtDataWrite (v : Nat)
  /-- SR_TEST_WRITE (R77): A write to an ARR_SR_TEST register makes the device compute sr_word into ARR_SR_TEST_OUT. -/
  | srTestWrite (b : Bool) (v : Nat)
  /-- MGMT_REQ_TAKE (R393): The driver clears FLT_MGMT_REQ.VALID to take a pending management request. -/
  | mgmtReqTake
  /-- DBG_SEL_WRITE (R438): A write to DBG_SEL selects an observation group at the next DBG_OBS_CLK edge. -/
  | dbgSelWrite (v : Nat)
  /-- REGISTER_WRITE (R441): A BAR0 write to any register without its own row, under the access codes and the lock. -/
  | registerWrite (off : Nat) (n : Nat) (v : Nat)
  /-- LINK_BLOCK_RECEIVE (R208): A link block arrives, is CRC-checked, reordered, delivered, acknowledged and credited. -/
  | linkBlockReceive (p : Nat) (b : List Byte)
  /-- RESEND_TIMER (R209): The re-send timer expires and every unacknowledged block is re-sent from ACK + 1. -/
  | resendTimer (p : Nat)
  /-- ALIGNMENT_BEAT (R214): An alignment beat is received and each lane's alignment-unit errors are counted. -/
  | alignmentBeat (p : Nat) (units : List (List Byte))
  /-- LANE_MOVE (R215): LANE_MOVE control block, which asks the transmitter to drive a slot on a new lane. -/
  | laneMove (p : Nat) (b : List Byte)
  /-- LANE_MOVE_ACK (R215): LANE_MOVE_ACK control block, which names the alignment count A of the switch. -/
  | laneMoveAck (p : Nat) (b : List Byte)
  /-- LANE_MOVE_SWITCH (R215): After alignment beat A, both ends use the new lane for the slot. -/
  | laneMoveSwitch (p : Nat) (rx : Bool) (slot : Nat)
  /-- IDENT (R212): IDENT control block, which is checked for peer type, direction and index. -/
  | ident (p : Nat) (b : List Byte)
  /-- TIME (R225): TIME control block, which gives link delay and the fabric time offset. -/
  | time (p : Nat) (b : List Byte)
  /-- MARGIN_REPORT (R226): MARGIN_REPORT control block, which carries the peer's receive margin. -/
  | marginReport (p : Nat) (b : List Byte)
  /-- CAL_LANE (R224): CAL_LANE control block, which starts or ends transmitter calibration of a lane. -/
  | calLane (p : Nat) (b : List Byte)
  /-- RETRAIN (R224): RETRAIN control block carrying a retrain cause. -/
  | retrain (p : Nat) (b : List Byte)
  /-- CONTROL_RESEND_TIMER (R224): An unanswered control block is sent again after 1 µs, and the port fails after 16 sends. -/
  | controlResendTimer (p : Nat)
  /-- LIGHT_DETECTED (R213): Light and feed are present on a DOWN or FAILED port, so training starts. -/
  | lightDetected (p : Nat)
  /-- LOSS_OF_LIGHT (R214): Received power falls below loss of signal on lanes of a port, or its feed is lost. -/
  | lossOfLight (p : Nat) (feed : Bool) (lanes : List Nat)
  /-- TRAINING_COMPLETE (R211): Port training completes, and the port is UP or DEGRADED and offered to routing. -/
  | trainingComplete (p : Nat) (r : TrainResult)
  /-- TRAINING_PHASE_TIMEOUT (R211): A training phase exceeds its limit, so the training fails. -/
  | trainingPhaseTimeout (p : Nat) (light : Bool)
  /-- TRAINING_RETRY_TIMER (R213): 10 ms after a failure the port tries training again while tries remain. -/
  | trainingRetryTimer (p : Nat)
  /-- MISWIRE_HOLD_EXPIRE (R212): A port has been DOWN for 1 s after a miswire, so it may train again. -/
  | miswireHoldExpire (p : Nat)
  /-- LANE_CAL_DUE (R219): A lane's calibration period expires, and it is moved behind a spare and calibrated. -/
  | laneCalDue (p : Nat)
  /-- LANE_CAL_DONE (R219): A lane calibration ends and the lane becomes a spare. -/
  | laneCalDone (p : Nat) (pass : Bool)
  /-- PORT_CAL_DUE (R220): A port calibration falls due on time or on a change of power band. -/
  | portCalDue (p : Nat)
  /-- PORT_CAL_DRAINED (R220): A withdrawn port has every block acknowledged and begins its full training. -/
  | portCalDrained (p : Nat)
  /-- TIME_BLOCK_SEND (R225): The 10 µs timer sends a TIME block on a port. -/
  | timeBlockSend (p : Nat)
  /-- MARGIN_ESTIMATE (R226): Every 10 ms each receiver estimates lane margins and reports them. -/
  | marginEstimate (p : Nat) (lanes : List Nat)
  /-- RING_LOCK_LOSS (R217): Rings leave their capture range, their lanes fail and relock sweeps begin. -/
  | ringLockLoss (p : Nat) (rx : Bool) (lanes : List Nat)
  /-- RING_RELOCK (R217): A ring relocks on its line. -/
  | ringRelock (p : Nat) (rx : Bool) (lane : Nat)
  /-- LINK_RECOVERY_NOTICE (R222): A link recovery notice arrives and packets after its SEQ are re-sent on other paths. -/
  | linkRecoveryNotice (p : Packet)
  /-- RECOVERY_NOTICE_TIMEOUT (R222): No recovery notice has come within 10 ms, so the peer is treated as lost. -/
  | recoveryNoticeTimeout (p : Nat)
  /-- LM_PRESENCE (R232): A cartridge's presence is asserted in a slot. -/
  | lmPresence (sl : Nat)
  /-- CARTRIDGE_CHECK (R232): 500 ms after presence, the order code, chain and challenge are checked and the slot state set. The operand is what the cartridge gives on its bus, none for no answer: record bytes 0 to 71, certificate chain, signature. -/
  | cartridgeCheck (sl : Nat) (a : Option (List Byte × List Byte × List Byte))
  /-- LM_REMOVAL (R235): A cartridge's presence is removed, so the slot becomes EMPTY and LM_EN goes low. -/
  | lmRemoval (sl : Nat)
  /-- CARTRIDGE_POLL (R234): Each second the drive current and line powers are read and the fade stages judged. -/
  | cartridgePoll (sl : Nat) (r : Option CartReading)
  /-- LIFE_ACCOUNTING (R233): Each hour HOURS and EQ_HOURS are advanced and written back to the cartridge. -/
  | lifeAccounting (sl : Nat)
  /-- WARMING_TIMEOUT (R235): A cartridge has not locked within 120 s and is retired with cause lock. -/
  | warmingTimeout (sl : Nat)
  /-- SWITCH_SETTLED (R237): 10 ms after a select change, feed power is confirmed on the group's backup feeds. -/
  | switchSettled (sl : Nat) (lit : Nat)
  /-- SWITCH_LIGHT_TIMEOUT (R237): A port is without light 20 ms after a select change, so the switch is marked faulted. -/
  | switchLightTimeout (sl : Nat)
  /-- PACKET_ROUTE (R251): A whole packet has arrived and the router decides its next hop, delivery or discard. -/
  | packetRoute
  /-- TREE_WAIT_TIMEOUT (R252): No tree port has come into service within TREE_WAIT_MS, so the packet is discarded. -/
  | treeWaitTimeout
  /-- TAKEOVER_NOTICE (R265): A takeover notice arrives, the entry becomes tree and MOVED, and it is acknowledged. -/
  | takeoverNotice (p : Packet)
  /-- TAKEOVER_ACK (R264): A takeover acknowledgement arrives from a member. -/
  | takeoverAck (p : Packet)
  /-- TAKEOVER_RESEND (R264): The notice is sent again every 1 ms to unacknowledged members, up to 10 sends. -/
  | takeoverResend
  /-- COLL_SLOT_ASSIGN (R273): A posted or queued collective takes the lowest free slot and starts its exchange. -/
  | collSlotAssign
  /-- EXCHANGE_PACKET (R276): An exchange packet of records arrives, is acknowledged, and is merged or held early. -/
  | exchangePacket (p : Packet)
  /-- EXCHANGE_ACK (R276): An exchange acknowledgement arrives. -/
  | exchangeAck (p : Packet)
  /-- EXCHANGE_RESEND (R276): An unacknowledged exchange packet is sent again after 20 µs. -/
  | exchangeResend
  /-- CAROUSEL_DATA (R284): A Carousel data packet of a chunk arrives. -/
  | carouselData (p : Packet)
  /-- CHUNK_END (R285): A chunk end arrives, and the chunk is CRC-checked and combined, written or handed on. -/
  | chunkEnd (p : Packet) (adder : Bool)
  /-- GRANT (R286): A grant arrives and the sender may send chunks below UPTO. -/
  | grant (p : Packet)
  /-- POISON_NOTICE (R288): A poison notice arrives, is relayed, poisons the step and completes the collective POISONED. -/
  | poisonNotice (p : Packet)
  /-- ABORT_NOTICE (R290): An abort notice arrives and the collective completes TIMEOUT or PEER_LOST. -/
  | abortNotice (p : Packet)
  /-- COLL_WATCHDOG (R289): A collective makes no progress for W and completes TIMEOUT with an abort notice. -/
  | collWatchdog (r : Nat) (sub : Nat)
  /-- EARLY_ENTRY_EXPIRE (R290): A held early-arrival entry leaves the table after 2 × W. -/
  | earlyEntryExpire
  /-- BLOCK_DISPATCH (R298): A ready update block is dispatched to a free update core, scaled by 2^-u and loaded. -/
  | blockDispatch (k : Nat)
  /-- UPDATE_BLOCK_END (R298): An update program ends, and the undo record, master, state and narrow copy are written and handed to Carousel. -/
  | updateBlockEnd (k : Nat) (fault : Bool)
  /-- CORE_RING_START (R317): A core request ring descriptor starts once its doorbell counter exceeds its index. -/
  | coreRingStart (r : Nat)
  /-- MFB_GET_REQUEST (R319): At the home, a GET request is checked and answered with data. -/
  | mfbGetRequest (p : Packet)
  /-- MFB_PUT_PACKET (R319): At the home, a PUT packet is checked, applied and acknowledged. -/
  | mfbPutPacket (p : Packet) (hot : Bool)
  /-- MFB_ATOMIC_REQUEST (R328): At the home, an atomic is answered STALE, answered from the table, or applied and recorded. -/
  | mfbAtomicRequest (p : Packet) (hot : Bool)
  /-- MFB_REDUCTION_PACKET (R324): At the home, reduction elements are applied in address order. -/
  | mfbReductionPacket (p : Packet) (hot : Bool)
  /-- MFB_MIRROR_WRITE (R161): At the partner, a mirror write is applied without mirroring again. -/
  | mfbMirrorWrite (p : Packet) (hot : Bool)
  /-- MFB_PUT_LINE_COPY (R319): A PUT_LINE copy is applied, acknowledged and forwarded along the line. -/
  | mfbPutLineCopy (p : Packet) (hot : Bool)
  /-- MFB_NOTIFY (R320): At the home, a notify packet adds 1 to its event counter. -/
  | mfbNotify (p : Packet)
  /-- HOT_LINE_WRITE (R330): A queued write to a hot line is applied when its turn comes. -/
  | hotLineWrite (line : Nat)
  /-- MFB_GET_DATA (R320): At the source, GET data arrives and is written at LOCAL. -/
  | mfbGetData (p : Packet)
  /-- MFB_ACKNOWLEDGEMENT (R320): At the source, a write acknowledgement arrives. -/
  | mfbAcknowledgement (p : Packet)
  /-- MFB_ATOMIC_RESULT (R329): At the source, an atomic result arrives and completes the atomic or is discarded as late. -/
  | mfbAtomicResult (p : Packet)
  /-- MFB_ERROR (R319): At the source, an error response arrives and the operation completes by its status. -/
  | mfbError (p : Packet)
  /-- GET_RETRY (R322): A GET with no data is sent again at the retry interval. -/
  | getRetry (id : Nat)
  /-- ATOMIC_RETRY (R329): An atomic is sent again with TRY + 1 until 10 ms after ISSUED. -/
  | atomicRetry (id : Nat)
  /-- ATOMIC_DEADLINE (R329): No result has come by ISSUED + 12 ms, so the atomic completes INDETERMINATE. -/
  | atomicDeadline (id : Nat)
  /-- MFB_RESP_TIMEOUT (R322): A write, PUT_LINE or reduction is not fully acknowledged within RESP_MS. -/
  | mfbRespTimeout (id : Nat)
  /-- MFB_WINDOW_TIMER (R331): Every 2 µs the C0 window of each home is halved or grown. -/
  | mfbWindowTimer
  /-- TIGHTROPE_SAMPLE (R346): The 10 µs sample forms M and E, advances the model and computes the target bubble ratio. -/
  | tightropeSample (x : PowerSample)
  /-- RATIO_RAMP (R346): The ratio in force moves one sixteenth towards the target every 2 µs, or 4 µs when slowed. -/
  | ratioRamp
  /-- OP_POINT_TICK (R347): The 1 ms tick decides a step down or up of the operating point and the power band. -/
  | opPointTick
  /-- SENSOR_READ (R340): A sensor reading corrects its model node. -/
  | sensorRead (node : Nat) (t : Int)
  /-- EMERGENCY_HOLD_END (R345): The 1 ms emergency hold expires, ending or restarting the hold. -/
  | emergencyHoldEnd
  /-- RAMP_SLOW_END (R345): ρ has stayed at or below 6 °C/ms for 1 ms, so the ramp returns to normal. -/
  | rampSlowEnd
  /-- CRITICAL_RELEASE (R343): Every node has been at or below its limit for 1 ms, so the loops resume from P5. -/
  | criticalRelease
  /-- BAND_DEMOTION (R350): A band is demoted after 100 ms below its lower edge less 2 °C. -/
  | bandDemotion (u : Nat)
  /-- TELEMETRY_REASON_TIMER (R336): Telemetry is faulted for 60 s, or good for 60 s, and the TELEMETRY reason is set or cleared. -/
  | telemetryReasonTimer
  /-- STEP_ARRIVAL (R362): All RUNs, COLLs and updates of the step are done, so the device arrives and sends its barrier record. -/
  | stepArrival
  /-- BARRIER_RECORD (R364): A barrier record packet arrives and is merged, held or discarded by STEP and ATTEMPT. -/
  | barrierRecord (p : Packet)
  /-- STEP_COMMIT_DONE (R307): Commit ends: undo records are discarded, tables updated and staged descriptors applied. -/
  | stepCommitDone
  /-- STEP_ROLLBACK (R308): Once no collective of the step runs, rollback restores every undo record. -/
  | stepRollback
  /-- STEP_ROLLBACK_DONE (R308): Rollback ends, counters are cleared and staged descriptors applied. -/
  | stepRollbackDone
  /-- BARRIER_ACK (R364): A barrier record acknowledgement arrives. -/
  | barrierAck (p : Packet)
  /-- BARRIER_RESEND (R364): An unacknowledged barrier record is sent again after 20 µs. -/
  | barrierResend
  /-- STEP_SYNC_EDGE (R366): A rising edge on STEP_SYNC_IN is timestamped, possibly setting the boundary. -/
  | stepSyncEdge
  /-- SYNC_WINDOW_END (R366): The sync window passes without an edge, so the boundary falls at T_c + SYNC_LATE. -/
  | syncWindowEnd
  /-- STEP_GAP_END (R368): GAP_MAX_US expires, the gap ends and actions not started wait for the next gap. -/
  | stepGapEnd
  /-- TIMED_FALLBACK (R369): F is reached before release, so RUNs and COLLs end and the step is rolled back. -/
  | timedFallback
  /-- GET_STATE (R392): Management command that returns the state, flags, reasons, flat ID and last SEQ. -/
  | getState (m : List Byte)
  /-- GET_RECORDS (R392): Management command that returns fault records from a given SEQ. -/
  | getRecords (m : List Byte)
  /-- GET_SUSPECTS (R392): Management command that returns the suspect table. -/
  | getSuspects (m : List Byte)
  /-- SET_LOST (R392): Management command that sets or clears LOST of a routing entry. -/
  | setLost (m : List Byte)
  /-- REQUEST (R393): Management command that places a request for the driver in FLT_MGMT_REQ. -/
  | request (m : List Byte)
  /-- MGMT_RESET (R392): Management command after whose response the device enters RESET. -/
  | mgmtReset (m : List Byte)
  /-- REPORT_ACK (R391): A report acknowledgement arrives from the fault manager. -/
  | reportAck (m : List Byte)
  /-- REPORT_RESEND (R391): An unacknowledged report message is sent again after 1 s. -/
  | reportResend
  /-- SUSPECT_NOTICE (R385): A suspect notice copy arrives, is held, and is spread to the next stage. -/
  | suspectNotice (p : Packet)
  /-- SUSPECT_HOLD_EXPIRE (R386): HOLD_S passes without a sighting and a notice or origin entry ends. -/
  | suspectHoldExpire (x : Nat)
  /-- SUSPECT_COUNT_UPDATE (R387): Once a second, an origin whose count has grown sends a count update. -/
  | suspectCountUpdate (x : Nat)
  /-- MANIFEST (R396): A handover manifest arrives at the spare and is checked for cores and key. -/
  | manifest (p : Packet)
  /-- ACCEPT (R396): The spare's accept arrives at the source, and the copy starts or the export ends. -/
  | accept (p : Packet)
  /-- HANDOVER_DATA (R395): A handover data packet arrives and is written at the spare. -/
  | handoverData (p : Packet)
  /-- UNIT_END (R396): A unit end arrives and the spare checks the unit's CRC. -/
  | unitEnd (p : Packet) (x : HandoverParts)
  /-- UNIT_ACK (R396): A unit acknowledgement arrives, more units flow or one is re-sent. -/
  | unitAck (p : Packet)
  /-- HANDOVER_DONE (R396): The spare's Done arrives and the export completes. -/
  | handoverDone (p : Packet)
  /-- MANIFEST_RESEND (R396): The export sends its manifest again every 1 ms until answered. -/
  | manifestResend
  /-- HANDOVER_WAIT_TIMEOUT (R396): HANDOVER_WAIT_S passes without a manifest or an answer, so the descriptor completes TIMEOUT. -/
  | handoverWaitTimeout
  /-- HANDOVER_STALL (R396): A handover makes no progress for 1 s and is aborted. -/
  | handoverStall
  /-- JTAG_BYPASS (R436): JTAG instruction BYPASS. -/
  | jtagBypass
  /-- JTAG_IDCODE (R436): JTAG instruction IDCODE. -/
  | jtagIdcode
  /-- JTAG_SAMPLE_PRELOAD (R436): JTAG instruction SAMPLE/PRELOAD. -/
  | jtagSamplePreload
  /-- JTAG_EXTEST (R436): JTAG instruction EXTEST, allowed only in RESET with RESET_N low. -/
  | jtagExtest
  /-- JTAG_EXTEST_PULSE (R436): JTAG instruction EXTEST_PULSE, allowed only in RESET with RESET_N low. -/
  | jtagExtestPulse
  /-- JTAG_TRST (R436): TRST_N low holds the JTAG port in Test-Logic-Reset. -/
  | jtagTrst (high : Bool)
  /-- INTERNAL_RESET_PULSE_END (R429): The 1 ms internal reset pulse of a management RESET (or recovery reset) ends with both pins high, and the device leaves RESET for BOOT. -/
  | internalResetPulseEnd (r : RomInputs)
  /-- MGMT_LINK_UP (R391): The 10GBASE-KR management link comes up, LINK_UP becomes 1 and queued records are sent as report messages. -/
  | mgmtLinkUp
  /-- MGMT_LINK_DOWN (R391): The management link goes down, LINK_UP becomes 0 and later records wait in the queue. -/
  | mgmtLinkDown
  /-- RESULT_TABLE_ENTRY_EXPIRE (R328): The oldest atomic result-table entry reaches 10 ms of age, so the home admits a held atomic and TABLE_FULL clears. -/
  | resultTableEntryExpire
  /-- ATOMIC_SEQUENCE_FREE (R327): 20 ms have passed since a sequence number's first send, so an atomic waiting for that number may start. -/
  | atomicSequenceFree
  /-- ATTEST_COMPLETE (R419): The signed attestation report has been written to RESULT, the ATTEST completes DONE and the next ATTEST may be served. -/
  | attestComplete
  /-- FW_STAGE_COMPLETE (R409): The last staged byte has been copied from the host into the staging buffer and FW_STAGE completes. -/
  | fwStageComplete (r : Nat) (k : Nat) (e : Ecc)
  /-- MSIX_TABLE_WRITE (R175): A host write to the BAR4 MSI-X table or vector control unmasks a vector, and its pending message is sent. -/
  | msixTableWrite (dw : Nat) (v : Nat)
  deriving DecidableEq, Repr

end Sys2Proof
end

