-- ==== Sys2Proof/Machine/Units.lean ====
section
/-! DEFINITION. The state of each unit of the block, as plain data. A register whose fields show a unit's state exactly is that state's only home (Dev.regs); what stands here is what no register shows. -/

namespace Sys2Proof.Machine

/-- The completion statuses of R190. -/
inductive Status where
  | done | doneNote | badOpcode | badField | lengthExceeds | countExceeds | stateConflict | noResource
  | poisoned | peerLost | indeterminate | timeout | stateLost | replayExhausted | deviceFault
  deriving DecidableEq, Repr

/-- Bytes 12 to 23 of a completion record. -/
structure Detail where
  note : Nat
  lcore : Nat
  fieldByte : Nat
  pos : Nat
  vinstr : Nat
  aux : Nat
  deriving DecidableEq, Repr

/-- An outcome: a status and its detail. -/
structure Ending where
  st  : Status
  det : Detail
  deriving DecidableEq, Repr

/-- The device states of R5. -/
inductive DevState where
  | reset | boot | recovery | ready | running | quiesced | halted
  deriving DecidableEq, Repr

/-- The JTAG instructions that are always available (R436). DESIGN CHOICE and PRESUMED (log entry 15). -/
inductive JtagInstr where
  | bypass | idcode | samplePreload | extest | extestPulse
  deriving DecidableEq, Repr

/-- The input and output signals of R422 that the model follows. -/
structure Pins where
  /-- PWRGOOD. -/
  pwrgood : Bool
  /-- RESET_N. -/
  resetN : Bool
  /-- PERST_N. -/
  perstN : Bool
  /-- PROFILE_SEL[1:0]. -/
  profile : Nat
  /-- Bit s: a cartridge is present in slot s (LM_PRSNT_N low). -/
  lmPresent : Nat
  /-- When presence was asserted, by slot; 0 for one present when RESET was left (R232). -/
  lmAt : Tab Nat
  /-- TRST_N. -/
  trstN : Bool
  /-- LM_EN[9:0]. -/
  lmEn : Nat
  /-- LM_SW_SEL[3:0]. -/
  lmSwSel : Nat
  /-- The device pulls THERMTRIP_N low. -/
  thermtripOut : Bool
  /-- DBG_OBS[31:0] as last presented. -/
  dbgObs : Nat
  /-- The flash pins FL_CLK, FL_CS_N and FL_IO are driven (false: high impedance). -/
  flDriven : Bool
  /-- AVS_CLK and AVS_MDATA run (false: idle high). -/
  avsRuns : Bool
  /-- The PCIe and management lanes run (false: electrical idle). -/
  lanesRun : Bool
  /-- The JTAG instruction register; IDCODE in Test-Logic-Reset (IEEE 1149.1). -/
  jtag : JtagInstr
  deriving DecidableEq, Repr

/-- The phases of R401 that BOOT has finished. -/
inductive BootPhase where
  | off | waitRoot | rom | image | firmware
  deriving DecidableEq, Repr

/-- A flash write in progress: its first offset, its bytes, and the descriptor that waits for it (none in RECOVERY). -/
structure FlashJob where
  addr : Nat
  data : List Byte
  act  : Option Nat
  desc : Option (Nat × Nat)
  deriving DecidableEq, Repr

/-- Boot, identity and Acts. -/
structure Boot where
  phase : BootPhase
  /-- Image checks that have failed in this BOOT (R402). -/
  fails : Nat
  /-- The running image's header. -/
  header : List Byte
  /-- The Act record in force, as stored in flash. -/
  act : Option (List Byte)
  /-- The management key in use (R412, R420). -/
  mgmtKey : List Byte
  /-- SHA-256 of the header of a committed image awaiting reset. -/
  pendingDigest : List Byte
  /-- Fuses are still to be advanced (R406). -/
  advance : Bool
  flashJob : Option FlashJob
  /-- Recovery programming runs on this image (R408). -/
  rcvJob : Bool
  /-- An internal reset pulse is in progress (R429). -/
  pulse : Bool
  /-- ATTEST descriptors started and not complete, in start order (R419). -/
  attests : List (Nat × Nat)
  deriving DecidableEq, Repr

/-- Fuses that the device itself can blow, and the assembly-test fuses of lanes. -/
structure Fuses where
  /-- Fused security version (R406). -/
  svn : Nat
  /-- Bit s: key slot s revoked. -/
  revoked : Nat
  /-- Row repairs fused by R157: spare row 32 · bank + n to the row it stands for, plus 1. -/
  rows : Tab Nat
  /-- Lanes fused bad, by bundle index 16 · link + bundle: bit n for lane n (R23). -/
  badLanes : Tab Nat
  deriving DecidableEq, Repr

/-- A descriptor: its ring, its ring index, its 64 bytes and the time from which HQ_WAIT_LIMIT runs. -/
structure Desc where
  ring  : Nat
  sub   : Nat
  bytes : List Byte
  since : Nat
  deriving DecidableEq, Repr

/-- A completion record that is held (R182): its bytes without the phase bit, and whether it interrupts. -/
structure HeldRec where
  bytes : List Byte
  irq   : Bool
  deriving DecidableEq, Repr

/-- One ring pair (R176, R178, R182). -/
structure Ring where
  /-- Fetched and not started, oldest first. -/
  fetched : List Desc
  /-- Started and not complete. -/
  started : List Desc
  /-- SQ_HEAD: descriptors ever fetched, modulo 2^32. -/
  head : Nat
  /-- The last valid SQ_TAIL read. -/
  tail : Nat
  /-- The last invalid tail found, with no valid tail read since. -/
  lastBad : Option Nat
  /-- Records ever written, modulo 2^32. -/
  cqTail : Nat
  /-- The last CQ_HEAD read. -/
  cqHead : Nat
  /-- Records held, oldest first, at most 64. -/
  held : List HeldRec
  deriving DecidableEq, Repr

/-- A vector's hold-off (R175): idle, holding since a time, or holding with a completion that waits. -/
inductive Holdoff where
  | idle
  | holding (since : Nat)
  | waiting (since : Nat)
  deriving DecidableEq, Repr

/-- The host interface. -/
structure HQ where
  rings : Tab Ring
  /-- The present poll interval in units of 10 ns. -/
  interval : Nat
  /-- The PCIe link is up and the function is in D0. -/
  pcieUp : Bool
  /-- Bus Master Enable. -/
  busMaster : Bool
  /-- MSI-X enabled in configuration space. -/
  msixOn : Bool
  /-- The rest of configuration space that the host sets, and the link. -/
  pcie : PcieSetup
  /-- The MSI-X table of BAR4, by double word; the vector control of an entry resets to masked. -/
  msixTab : Tab Nat
  /-- The pending-bit array. -/
  pba : Tab Bool
  holdoff : Tab Holdoff
  /-- Host memory, as the device sees it. -/
  host : List (Nat × Byte)
  /-- Host ranges whose reads complete with an error. -/
  hostErr : List (Nat × Nat)
  deriving DecidableEq, Repr

/-- Configuration space after a reset: BAR2 of 1 TiB, 128-byte payloads, 512-byte read requests, the full link. The spec gives
no reset values: the BAR2 size is a DESIGN CHOICE, the request sizes are PRESUMED from PCI Express (log entry 15).
DESIGN CHOICE and PRESUMED (log entry 15). -/
def PcieSetup.init : PcieSetup := ⟨40, 128, 512, 7, 8⟩

/-- One fault record with its continuations, as bytes. -/
abbrev RecBytes := List Byte

/-- A suspect-table entry (R384). -/
structure Suspect where
  id     : Nat
  cause  : Nat
  origin : Bool
  count  : Nat
  /-- Time of the last sighting. -/
  last   : Nat
  /-- The count has grown since the last report. -/
  grown  : Bool
  port   : Nat
  /-- Time of the last report. -/
  told   : Nat
  deriving DecidableEq, Repr

/-- An unacknowledged report message (R391). -/
structure Report where
  msgSeq : Nat
  recs   : List (Nat × RecBytes)
  /-- Time of its last sending. -/
  at'    : Nat
  deriving DecidableEq, Repr

/-- The phases of a handover as FLT_HANDOVER.PHASE shows them. -/
inductive HoPhase where
  | manifest | copy | takeover
  deriving DecidableEq, Repr

/-- A handover in progress (R394 to R397). -/
structure Handover where
  isExport : Bool
  peer : Nat
  takeId : Nat
  desc : Nat × Nat
  phase : HoPhase
  /-- Time the descriptor started. -/
  start : Nat
  /-- Time of the last progress. -/
  progress : Nat
  /-- Time the manifest was last sent. -/
  asked : Nat
  /-- ACTIVE logical cores of the manifest: bit L. -/
  cores : Nat
  /-- Units in all. -/
  units : Nat
  /-- Units sent, and units verified without gap. -/
  sent : Nat
  verified : Nat
  /-- Units verified beyond a gap; units asked for a second time. -/
  got : List Nat
  resent : List Nat
  /-- Bytes received of the present unit. -/
  unitBuf : List Byte
  /-- Logical cores with unrestorable bytes: bit L. -/
  lost : Nat
  /-- Units not yet verified that hold sectors fetched from the buddy: unit, logical core, CRC-32C. -/
  buddy : List (Nat × Nat × Nat)
  deriving DecidableEq, Repr

/-- Fault reporting and the management port. -/
structure Flt where
  /-- SEQ of the next fault record. -/
  seq : Nat
  /-- Management queue, oldest first: (SEQ, record with continuations). -/
  queue : List (Nat × RecBytes)
  /-- Records logged since reset, newest first, for GET_RECORDS. -/
  logged : List (Nat × RecBytes)
  unacked : List Report
  msgSeq : Nat
  /-- The session value of R392. -/
  session : Nat
  /-- The largest accepted CMD_SEQ[31:0], none before the first. -/
  lastCmd : Option Nat
  /-- Notices held: (flat ID, time it last arrived). -/
  notices : List (Nat × Nat)
  suspects : Tab Suspect
  handover : Option Handover
  /-- A HANDOVER_EXPORT has completed: no job context is held (R398). -/
  exported : Bool
  deriving DecidableEq, Repr

/-- A flit in a replay buffer: its number, channel and packet marks, its 120 payload bytes, the units of its packet, and
the failed bundle it is sent again for. -/
structure FlitBuf where
  seq : Nat
  vc : Nat
  sop : Bool
  eop : Bool
  body : List Byte
  src : Nat
  dst : Nat
  again : Option Nat
  /-- Time of its last sending. -/
  at' : Nat
  deriving DecidableEq, Repr

/-- One direction of one bundle (R21 to R25); the index is 2 · (16 · link + bundle) + direction, direction 0 toward the
Midway. -/
structure Bundle where
  /-- Sender: next SEQ, the last ACK received, the replay buffer in order, credits spent per virtual channel. -/
  txSeq : Nat
  txAck : Nat
  replay : List FlitBuf
  spent : Tab Nat
  /-- Receiver: SEQ of the last data flit in order, NAK asked, bytes of the packet in progress and its flits, credits owed. -/
  rxLast : Nat
  nak : Bool
  partialBytes : List Byte
  partialFlits : Nat
  owed : Tab Nat
  /-- Credit returns in flits that have left and have not yet come, oldest first: (virtual channel, credits). -/
  crdOut : List (Nat × Nat)
  /-- SEQ of the last flit of the last packet delivered whole, and whether one was delivered. -/
  last : Nat
  any : Bool
  /-- Consecutive failed sends of the awaited flit. -/
  failRun : Nat
  /-- The last packet of C0 or C2 sent was of C2 (R258). -/
  altC2 : Bool
  deriving DecidableEq, Repr

/-- A bundle as a whole: retraining, margin sweep, times of the retries of the last second (newest first), recovery after
going out of service. -/
structure BundleCtl where
  retraining : Bool
  sweeping : Bool
  retries : List Nat
  /-- Recovery of each direction (R25), by direction, as the time it began plus 1: at its receiver until the first
  re-sent flit, at its sender until what it held has gone. -/
  rxRecover : Tab Nat
  txHold : Tab Nat
  /-- A recovery flit has come: what is held goes as credits allow. -/
  noticed : Tab Bool
  /-- BUNDLE_UP of the link as this bundle left it when it went out of service. -/
  failMask : Nat
  /-- The four receiver sets (R27), by temperature band: the power band in which a CAL_REQ trained the set afresh (R30),
  plus 1; 0 for a set as BOOT left it. -/
  sets : Tab Nat
  /-- The temperature band whose set is applied. -/
  applied : Nat
  /-- A band set is still to be applied (R27). -/
  bandDue : Bool
  deriving DecidableEq, Repr

/-- A packet on a die-to-die link: sending unit, receiving unit, packet. -/
structure UnitPkt where
  src : Nat
  dst : Nat
  pkt : Packet
  deriving DecidableEq, Repr

/-- A calibration or margin job: the descriptor and the (unit, sub-unit) pairs still to be done, and records so far. -/
structure SweepJob where
  desc : Nat × Nat
  left : List (Nat × Nat)
  busy : List (Nat × Nat)
  recs : Tab (List Byte)
  deriving DecidableEq, Repr

/-- Die-to-die links. -/
structure D2D where
  bundles : Tab Bundle
  ctl : Tab BundleCtl
  /-- Packets of failed bundles to be sent again, by 2 · link + direction: (failed bundle, packet), in order. -/
  held : Tab (List (Nat × UnitPkt))
  /-- Packets ready at an output that could not start yet, by 2 · link + direction, in the order in which they became ready
  (R258). -/
  ready : Tab (List UnitPkt)
  /-- Retrains that wait for one of a link's two places, oldest first: (link, bundle). -/
  queue : List (Nat × Nat)
  marginJobs : List SweepJob
  calJobs : List SweepJob
  deriving DecidableEq, Repr

/-- A packet in a port's queue: its place in the order in which packets were routed, its arrival port (none for one made
here), the packet as this device received it or made it, the packet as it leaves, and whether it then counts as a torus
fall-back (R252). -/
structure Queued where
  n : Nat
  src : Option Nat
  orig : Packet
  pkt : Packet
  fallback : Bool
  deriving DecidableEq, Repr

/-- A data block in a replay buffer; the first block of a packet keeps the packet as it was queued. -/
structure BlkBuf where
  seq : Nat
  sop : Bool
  eop : Bool
  vc : Nat
  body : List Byte
  sends : Nat
  from? : Option Queued
  /-- Time of its last sending. -/
  at' : Nat
  deriving DecidableEq, Repr

/-- The sender's credit account of R257. -/
structure Credits where
  reserved : Tab Nat
  shared : Nat
  fromShared : Tab Nat
  classShared : Tab Nat
  deriving DecidableEq, Repr

/-- A control block that awaits an answer: subtype, body from byte 9, sends so far, and the time of the last. -/
structure CtlBuf where
  sub : Nat
  body : List Byte
  sends : Nat
  at' : Nat
  deriving DecidableEq, Repr

/-- A slot move in progress or waiting (R215): slot, old lane, new lane, reason, and the alignment count A once named. -/
structure SlotMove where
  slot : Nat
  old : Nat
  new : Nat
  reason : Nat
  at? : Option Nat
  deriving DecidableEq, Repr

/-- Port recovery after FAILED (R222): the time it began, the peer, and the blocks kept until the peer's notice. -/
structure Recovery where
  since : Nat
  peer : Nat
  replay : List BlkBuf
  deriving DecidableEq, Repr

/-- One optical port: what OPT registers do not show. -/
structure Port where
  everUp : Bool
  /-- Withdrawn from routing for port calibration or a feed move (R220). -/
  withdrawn : Bool
  calDue : Bool
  /-- A feed move is to be made in the coming training; the present training follows one (R239). -/
  moveDue : Bool
  moving : Bool
  /-- The withdrawn port is drained and trains for calibration. -/
  calibrating : Bool
  since : Nat
  /-- DOWN after a miswire, its second not over. -/
  miswire : Bool
  /-- No light stands on the receive fibre, since light was last lost or sought in vain. -/
  lightLost : Bool
  /-- An IDENT has been accepted in the present training. -/
  ident : Bool
  txSeq : Nat
  /-- The last ACK received. -/
  txAck : Nat
  /-- Packets that have not started, in the order in which they were routed. -/
  txq : List Queued
  /-- The last packet of C0 or C2 sent was of C2 (R258). -/
  altC2 : Bool
  /-- Data blocks kept until ACK passes the last block of their packet (R209, R222). -/
  replay : List BlkBuf
  credits : Credits
  rxNext : Nat
  /-- One more than the highest SEQ received. -/
  rxHigh : Nat
  reorder : Tab (List Byte)
  naks : List Nat
  partialBytes : List Byte
  /-- Blocks of the packet in progress. -/
  partialBlocks : Nat
  /-- SEQ of the last block of the last packet delivered whole. -/
  lastWhole : Nat
  /-- Credits owed to the peer, per virtual channel. -/
  owed : Tab Nat
  ctl : List CtlBuf
  rxMoves : List SlotMove
  txMoves : List SlotMove
  waitMoves : List SlotMove
  /-- The last 16 alignment units of each receive lane: bit 0 the newest, 1 for an error. -/
  align : Tab Nat
  /-- Bit errors counted in the fixed bytes of each receive lane's alignment units since link start (R204). -/
  alignErrs : Tab Nat
  /-- Alignment count of the next beat sent, and of the last beat received. -/
  acount : Nat
  rxAcount : Nat
  /-- Blocks sent since link start, or since the active transmit slots last changed (R205), and the data beat, counted from
  there, at which the last alignment beat was sent. -/
  txBlocks : Nat
  txAlign : Int
  /-- Receiver equaliser sets by temperature band of the engine: the power band of the training that adapted the set, plus
  1; and the band whose set is applied (R218). -/
  eqSets : Tab Nat
  eqBand : Nat
  /-- Receive rings out of lock: bit n. -/
  ringLost : Nat
  /-- Transmit rings out of lock: bit n. -/
  txRingLost : Nat
  /-- Transmit lanes the peer has declared failed: bit n. -/
  txFailed : Nat
  /-- The latest TIME block received: its T_TX and local arrival, in 1/256 units. -/
  echoTx : Nat
  echoRx : Nat
  timeSeen : Bool
  /-- Next receive lane to calibrate. -/
  calRx : Nat
  /-- Time of the last training. -/
  trained : Nat
  recovery : Option Recovery
  deriving DecidableEq, Repr

/-- Optical ports. -/
structure Opt where
  ports : Tab Port
  /-- ΔT of the last power step announced to the engines, from which every heater's feed-forward offset follows (R218). -/
  rise : Int
  marginJobs : List SweepJob
  calJobs : List SweepJob
  deriving DecidableEq, Repr

/-- The cartridge of a slot (R231 to R234). -/
structure Slot where
  /-- Record bytes 0 to 71. -/
  card : List Byte
  /-- The result of its check, as attestation reports it. -/
  code : Nat
  /-- When it entered WARMING. -/
  since : Nat
  /-- Seconds in a row without an answer on the bus. -/
  silent : Nat
  /-- Sums of the readings since the last accounting, while it emits: their number, drive current, line powers. -/
  n : Nat
  sumI : Nat
  sumP : List Int
  /-- Hourly averages of the line powers while FADING, in 0.00001 dBm, newest first, at most 168. -/
  hist : List (List Int)
  /-- Part of EQ_HOURS below one hour, in millionths. -/
  eqRest : Nat
  /-- Part of HOURS below one hour, in cycles of the local clock. -/
  hourRest : Nat
  /-- When the present emission, or its part since the last accounting, began; emission before it not accounted (R233). -/
  emitAt : Nat
  emitted : Nat
  /-- The watch and the switch-over thresholds have been passed (R234). -/
  watched : Bool
  worn : Bool
  deriving DecidableEq, Repr

/-- Limelight cartridges and the board switch (R229 to R243). -/
structure Lim where
  slots : Tab Slot
  /-- Slots concerned by each of the two reason bits (R236). -/
  wantHome : Nat
  wantSpare : Nat
  /-- By spare (0 for slot 8, 1 for slot 9): the home group it is brought in for, plus 1; the time of its select change;
  light confirmed on the group's backup feeds. -/
  group : Tab Nat
  selAt : Tab Nat
  confirmed : Tab Bool
  /-- By spare: it warms for a group that no longer needs it, and goes back to STANDBY once ONLINE. -/
  dropped : Tab Bool
  /-- Home groups whose ports are to be on their backup feeds: bit k. -/
  toBackup : Nat
  /-- Home groups that lost their light while their spare could not be brought in: bit k. -/
  need : Nat
  /-- SPARE_LIMELIGHT descriptors under way: key and home slot. -/
  jobs : List ((Nat × Nat) × Nat)
  deriving DecidableEq, Repr

/-- A packet that waits for a tree port: its place in the order of routing, its arrival port, the packet, the time it
began, whether it counts as a torus fall-back. -/
structure TreeWait where
  n : Nat
  src : Option Nat
  pkt : Packet
  since : Nat
  fallback : Bool
  deriving DecidableEq, Repr

/-- A packet taken back to be routed again: its place in the order of routing, its arrival port, and the packet as it came;
a line copy already counts the devices beyond this one. -/
structure Again where
  n : Nat
  src : Option Nat
  pkt : Packet
  deriving DecidableEq, Repr

/-- A takeover being announced (R264): the taken ID, the members not yet acknowledged with their sends. -/
structure Takeover where
  id : Nat
  members : Tab Nat
  /-- Time of the last notices. -/
  at' : Nat
  deriving DecidableEq, Repr

/-- The fabric router. -/
structure Fab where
  /-- Packets arrived whole or made here and not yet routed, oldest first: (arrival port, none for local). -/
  arrived : List (Option Nat × Packet)
  /-- Packets routed before and taken back, to be routed again ahead of those. -/
  again : List Again
  /-- Packets routed so far: the place of the next one in the order of routing (R258). -/
  count : Nat
  /-- Packets delivered to local units and not yet taken. -/
  inbox : List Packet
  treeWait : List TreeWait
  takeover : Option Takeover
  deriving DecidableEq, Repr

/-- The phases of a step as STP_STATUS.PHASE codes them. -/
inductive StepPhase where
  | none | open | arrived | committing | rolling | syncWait | gap
  deriving DecidableEq, Repr

/-- The fields of a STEP_CFG. -/
structure StepCfg where
  step : Nat
  budget : Nat
  syncEn : Bool
  early : Nat
  late : Nat
  fallbackUs : Nat
  group : Nat
  deriving DecidableEq, Repr

/-- A barrier record's merged fields (R363). -/
structure BarRec where
  count : Nat
  failed : Bool
  tMin : Nat
  tMax : Nat
  lastRank : Nat
  deriving DecidableEq, Repr

/-- A barrier record packet that awaits its acknowledgement: the fall-back time of its attempt, the packet, and the time of
its last sending. -/
structure BarSend where
  last : Nat
  pkt : Packet
  at' : Nat
  deriving DecidableEq, Repr

/-- A barrier record received and not yet merged (R364): step, attempt, group, round code, the sender's flat ID, record. -/
structure BarHeld where
  step : Nat
  attempt : Nat
  group : Nat
  round : Nat
  src : Nat
  record : BarRec
  deriving DecidableEq, Repr

/-- An action deferred to a step gap (R368), in its order class. -/
inductive GapAct where
  | refit (i : Nat)
  | d2dRetrain (l b : Nat)
  | pipeRetrain (core pipe : Nat)
  | migration (core cause : Nat)
  | portCal (p : Nat)
  | feedMove (p : Nat)
  | calReq (ring sub : Nat)
  | sramRow (core bank row : Nat)
  deriving DecidableEq, Repr

/-- Steps, barriers and fabric time. -/
structure Stp where
  phase : StepPhase
  attempt : Nat
  failed : Bool
  cfg : StepCfg
  next : Option StepCfg
  /-- Fall-back time F. -/
  fallback : Nat
  tArr : Nat
  held : BarRec
  /-- Half rounds of the barrier done: 2i of round i's send, 2i + 1 of its receipt. -/
  round : Nat
  /-- Records received and not yet merged, and those of this attempt already merged (round, sender). -/
  early : List BarHeld
  merged : List (Nat × Nat)
  sends : List BarSend
  /-- Time T_c at which commit or rollback completed, and which of the two it was. -/
  tc : Nat
  committed : Bool
  /-- STEP_SYNC_IN edges not yet held against a window, newest first; the local time of the latest edge plus 1; the end of
  the last window. -/
  edges : List Nat
  lastEdge : Nat
  winEnd : Nat
  /-- A QUIESCE is pending: its descriptor. -/
  quiesce : Option (Nat × Nat)
  gapActs : List GapAct
  /-- Time the present gap began. -/
  gapStart : Nat
  /-- A step has begun since reset, or one has been imported. -/
  begun : Bool
  /-- The step in progress ended by the timed fall-back. -/
  timed : Bool
  /-- Skew totals since the last report: steps, first step, sum, largest, steps as LAST_RANK, largest spread. -/
  skewSteps : Nat
  skewFirst : Nat
  skewSum : Nat
  skewMax : Nat
  skewLast : Nat
  skewSpread : Nat
  /-- Fabric time: the counter, its 8-bit fraction, what the trim has gathered below it in 10^-8 of its unit, the trim in
  0.01 ppm. -/
  time : Nat
  frac : Nat
  sub : Nat
  trim : Int
  /-- Consecutive TIME blocks inside or outside the lock threshold. -/
  inRun : Nat
  outRun : Nat
  deriving DecidableEq, Repr

/-- A vector context (R116 to R119): a core's vector unit, or an update core. -/
structure VecCtx where
  /-- Vector code runs; it has ended and VEC_END or UPDATE_BLOCK_END is to come. -/
  run : Bool
  ended : Bool
  /-- First byte of the code (a device address) and instructions in it. -/
  code : Nat
  count : Nat
  /-- Tile-program position of the VEC. -/
  pos : Nat
  pc : Nat
  executed : Nat
  s : List Word
  v : List (List Word)
  p : List Nat
  c : List Word
  /-- Declared ranges of a core (R105): base and length. -/
  rd0 : Nat × Nat
  rd1 : Nat × Nat
  wr : Nat × Nat
  /-- Working memory of an update core's running block (R299). -/
  mem : Tab Byte
  deriving DecidableEq, Repr

/-- An operating-point change in progress (R338): its target, whether it steps up, whether the regulator's report is still
awaited. -/
structure OpChange where
  target : Nat
  up : Bool
  waits : Bool
  /-- When it began. -/
  since : Nat
  deriving DecidableEq, Repr

/-- An outstanding SET_CAP (R349): its descriptor, the samples since its cap came into force, the present run of samples
at or below the cap, and the sum of P over the samples. -/
structure CapWait where
  key : Nat × Nat
  n : Nat
  ok : Nat
  sum : Nat
  deriving DecidableEq, Repr

/-- Tightrope (R333 to R358). Temperatures are in units of 0.001 °C, powers in mW, P in fifths of a mW; times are counted in
samples of 10 µs. -/
structure Tgt where
  /-- Samples taken. -/
  n : Nat
  /-- When the last sample, the last 1 ms tick and the last move of the ratio were. -/
  sampleAt : Nat
  tickAt : Nat
  rampAt : Nat
  /-- The 484 nodes: logic 28t + s, DRAM 224 + 28t + 4q + g, lids 448 + t, Midway 456 + i, engines 472 + e; and their
  values at the last ten updates, newest first. -/
  temps : List Int
  hist : List (List Int)
  /-- Runs of valid samples that disagree, that agree, and that are valid while telemetry is faulted. -/
  disagree : Nat
  agree : Nat
  good : Nat
  /-- The sample at which telemetry was last faulted, and last good again. -/
  faultAt : Nat
  goodAt : Nat
  /-- P and the dynamic part of the compute dies in E at the last sample; E at the last one. -/
  power : Nat
  dyn : Nat
  est : Nat
  /-- b_cap and b_th of the last sample; the headroom. -/
  bCap : Nat
  bTh : Nat
  headroom : Int
  /-- A cap to be put in force at the next sample; the outstanding SET_CAP. -/
  capNext : Option Nat
  setCap : Option CapWait
  /-- R348: samples above the cap at the floor in a row and their P, samples at or below the cap in a row. -/
  overs : Nat
  overSum : Nat
  under : Nat
  /-- The sample at which the emergency hold last began; the greatest rate, in 0.001 °C per 100 µs; samples in a row at
  or below 6 °C/ms; samples in a row with every node within its limit; samples since an emergency or critical action. -/
  holdAt : Nat
  rho : Int
  rhoLow : Nat
  coolRun : Nat
  calm : Nat
  /-- Samples in a row with b = 0; sums of b and of P since the last tick, and the samples in them. -/
  bZero : Nat
  bSum : Nat
  pSum : Nat
  cnt : Nat
  change : Option OpChange
  /-- The sample of the last completed change, plus 1; no step up before the sample named. -/
  lastChange : Nat
  noUp : Nat
  /-- The last step down since the last step up: 0 none, 1 for the mean of b, 2 for the headroom, 3 for policy. -/
  lastDown : Nat
  /-- Samples in a row below the edge of R350's demotion, by tower, 8 for the Midway. -/
  bandLow : Tab Nat
  /-- Power bands of the last 1,000 ticks, newest first. -/
  bandLog : List Nat
  /-- Time of installation of each model record. -/
  recAt : Tab Nat
  /-- Energy not yet in TGT_ENERGY, in units of 0.002 µJ. -/
  rest : Nat
  /-- SET_POLICY: DRAM extended band, highest point, collective watchdog in ms, atomic retry interval in µs. -/
  polDram : Nat
  polHigh : Nat
  polWatch : Nat
  polRetry : Nat
  deriving DecidableEq, Repr

/-- A unit of a link block as it goes out (R203, R205): its data beat, its slot, and for each lane that carries it the 64
PAM4 levels. -/
structure LaneUnit where
  beat : Nat
  slot : Nat
  lanes : List (Nat × List Nat)
  deriving DecidableEq, Repr

/-- What leaves the block. DESIGN CHOICE (log entry 43). -/
inductive Emit where
  | msix (vector : Nat)
  | flit (link bundle dir : Nat) (bytes : List Byte)
  | unitPkt (link dir : Nat) (pkt : Packet)
  | block (port : Nat) (bytes : List Byte) (units : List LaneUnit)
  | align (port : Nat) (count : Nat) (units : List (List Byte))
  | mgmt (bytes : List Byte)
  | avs (point : Nat)
  | avsMid
  | announce (rise : Int)
  | readData (bytes : List Byte) (poisoned : Bool)
  | syncPulse (time : Nat)
  | jtag (word : Nat)
  | limCheck (slot : Nat) (nonce : List Byte)
  deriving DecidableEq, Repr

end Sys2Proof.Machine
end

