-- ==== Sys2Proof/Machine/CoreUnits.lean ====
section
/-! DEFINITION. The state of the logical cores (R90 to R115, R199) and of the memory fabric (R316 to R332), as plain data. -/

namespace Sys2Proof.Machine

/-! ### Cores and RUNs -/

/-- A stationary tile: the program position and the bytes of the W_LOAD that loads it, and its exact weights by K row, a
list of columns each (R35, R40, R42). -/
structure Tile where
  pos : Nat
  op : List Byte
  rows : List (List Val)
  deriving DecidableEq, Repr

/-- A codebook table: entry type (0 BF16, 1 FP8-E4M3), entries, bytes (R68). -/
structure CbTable where
  entry : Nat
  count : Nat
  bytes : List Byte
  deriving DecidableEq, Repr

/-- A dispatched operation that is not complete. -/
structure OpRec where
  pos : Nat
  bytes : List Byte
  started : Bool
  /-- A DRAIN's conversion record once read (R104). -/
  conv : List Byte
  /-- The tile a pass uses. -/
  tile : Option Tile
  /-- A STREAM that sends the switch token. -/
  sw : Bool
  /-- Issued again by a fault replay (R58): it may start while a pre-emption request waits. -/
  again : Bool
  /-- A REPLAY drain that has ended in range overflow: its outputs stay invisible (R82). -/
  overflowed : Bool
  deriving DecidableEq, Repr

/-- Where a core's program stands. -/
inductive CorePhase where
  | idle | checking | running
  | waitEvent (index value : Nat)
  | barrier (id inst : Nat)
  | stepBarrier
  | ending | ended | stopped | saving | restoring | reloading
  deriving DecidableEq, Repr

/-- The sequencer and arrays of a logical core. -/
structure Core where
  /-- The RUN that holds the core, by its descriptor's key. -/
  owner : Option (Nat × Nat)
  /-- SRAM offset of the program header. -/
  hdr : Nat
  phase : CorePhase
  /-- When dispatch began to be held at a WAIT or BARRIER. -/
  since : Nat
  /-- The next operation to dispatch. -/
  next : Nat
  /-- Operations dispatched and not complete, by program position. -/
  ops : List OpRec
  /-- The signal queue, oldest first. -/
  signals : List OpRec
  /-- Arrivals at SCOPE 0 barriers, by BAR_ID. -/
  arrivals : Tab Nat
  active : Option Tile
  shadow : Option Tile
  /-- W0, W1, A0, A1. -/
  slots : List (Option CbTable)
  /-- The open replay segment: position of its mark, DELTA, replays so far, lowering k by drain, drains that overflowed
  and await the replay. -/
  mark : Option Nat
  delta : Nat
  attempts : Nat
  lower : Tab Nat
  overs : List Nat
  replayDue : Bool
  /-- A pre-emption request waits (R113). -/
  preempt : Bool
  /-- SAVE_BASE, SAVE_LEN and SAVE_AREA of a saved core. -/
  area : Nat × Nat × Nat
  deriving DecidableEq, Repr

/-- A core that is free. -/
def Core.init : Core where
  owner := none
  hdr := 0
  phase := .idle
  since := 0
  next := 0
  ops := []
  signals := []
  arrivals := []
  active := none
  shadow := none
  slots := [none, none, none, none]
  mark := none
  delta := 0
  attempts := 0
  lower := []
  overs := []
  replayDue := false
  preempt := false
  area := (0, 0, 0)

/-- A RUN that has started and is not complete (R199). -/
structure Run where
  key : Nat × Nat
  mask : Nat
  /-- Program header offset by core. -/
  prog : Tab Nat
  prio : Nat
  /-- When its descriptor's waits were met. -/
  met : Nat
  acquired : Bool
  checked : Bool
  /-- A core has stopped: the others stop at their next pass boundary (R111). -/
  stopping : Bool
  /-- Outcomes of stopped cores, by core. -/
  ends : Tab Ending
  /-- Drains made visible with overflowed values, and replays taken (R84, R191). -/
  sat : Nat
  replays : Nat
  /-- Releases of SCOPE 0 barriers, by BAR_ID. -/
  released : Tab Nat
  /-- Pre-empted cores, as their save record holds them. -/
  saved : Tab Core
  deriving DecidableEq, Repr

/-- The phases of a migration (R166, R167): waiting for its turn, initialising the target, copying, verifying; or
zeroing a site brought in for a LOST core (R378). -/
inductive MigPhase where
  | waiting | init | copy | verify | zero
  deriving DecidableEq, Repr

/-- Why a migration is asked for (R166). -/
inductive MigCause where
  | arrayFault | pipe | bank | spareCore
  deriving DecidableEq, Repr

/-- A migration asked for and not ended. -/
structure Migr where
  core : Nat
  cause : MigCause
  /-- The SPARE_CORE that asked for it. -/
  desc : Option (Nat × Nat)
  phase : MigPhase
  target : Nat
  /-- Fabric time of its start. -/
  since : Nat
  /-- Sectors fetched from the buddy: how many, and where at the source. -/
  buddy : Nat
  fetch : List Nat
  deriving DecidableEq, Repr

/-! ### Vaults -/

/-- Vault columns (R139 to R165). A column's key is 28 · tower + site, a bank's 512 · column + 32 · layer + bank, bank 16 the
slice's spare bank. -/
structure Vlt where
  /-- Spare rows in use, by bank: bit n for spare row n. -/
  rowsUsed : Tab Nat
  /-- Row repairs not yet fused: (bank, row, spare row) (R157). -/
  unfused : List (Nat × Nat × Nat)
  /-- The bank, plus 1, that a slice's spare bank stands for or takes a copy of, by 16 · column + layer. -/
  slices : Tab Nat
  /-- Bank copies in progress: (logical core, bank) (R158). -/
  copies : List (Nat × Nat)
  /-- Rows of a bank that have had an uncorrectable read since reset. -/
  ueRows : Tab (List Nat)
  /-- Consecutive failed transfers of a pipe, by 32 · column + pipe (R149). -/
  fails : Tab Nat
  /-- Times of a pipe's CRC failures of the last second, latest first (R149). -/
  secFails : Tab (List Nat)
  /-- Pipes under retrain: (logical core, pipe). -/
  retrain : List (Nat × Nat)
  /-- Corrected errors of a row in the present scrub pass, by 8,192 · bank + row (R152). -/
  rowCe : Tab Nat
  /-- Next sector of patrol scrub, by column. -/
  scrub : Tab Nat
  /-- Next row to be refreshed, by bank (R154). -/
  refresh : Tab Nat
  /-- Receiver sets trained, by 4 · (32 · column + pipe) + band: the power band of the training, plus 1 (R156). -/
  sets : Tab Nat
  /-- DRAM timing margins of a vault under sweep, by logical core: tRCD, tRP, tWR (R163, R164). -/
  timing : Tab (Nat × Nat × Nat)
  /-- Poisoned sectors of mirrored ranges that the last full copy could not send (R151, R162). -/
  stale : List Nat
  marginJobs : List SweepJob
  calJobs : List SweepJob
  deriving DecidableEq, Repr

/-- Vaults as BOOT finds them. -/
def Vlt.init : Vlt where
  rowsUsed := []
  unfused := []
  slices := []
  copies := []
  ueRows := []
  fails := []
  secFails := []
  retrain := []
  rowCe := []
  scrub := []
  refresh := []
  sets := []
  timing := []
  stale := []
  marginJobs := []
  calJobs := []

/-- Vaults as BOOT finds them with row repairs fused: those spare rows are in use (R157). -/
def Vlt.ofFuses (rows : Tab Nat) : Vlt :=
  { Vlt.init with rowsUsed := rows.foldl (fun t e => Tab.set 0 t (e.1 / 32) (setBit (Tab.get 0 t (e.1 / 32)) (e.1 % 32) true)) [] }

/-! ### Memory fabric -/

/-- Who issued a memory-fabric operation. -/
inductive MfbOrigin where
  | desc (ring sub : Nat)
  | xfer (core pos : Nat)
  | coreRing (ring index : Nat)
  | mirror (core : Nat)
  /-- The notify packet of an operation that has ended (R320). -/
  | notify
  deriving DecidableEq, Repr

/-- One request packet of an operation (R319): its remote address, the bytes it asks for or carries, whether it has been
sent, when last and when first, and whether it is answered. -/
structure MfbPkt where
  da : Nat
  len : Nat
  payload : List Byte
  sent : Bool
  sentAt : Nat
  firstAt : Nat
  acked : Bool
  /-- A cache fill that is still to be installed (R332). -/
  install : Bool
  deriving DecidableEq, Repr

/-- An operation in flight at its source. -/
structure MfbOp where
  id : Nat
  mop : Nat
  origin : MfbOrigin
  /-- Flat ID of the home; the axis for PUT_LINE. -/
  home : Nat
  tag : Nat
  remote : Nat
  len : Nat
  /-- LOCAL: device memory or host memory, and its address. -/
  localDev : Bool
  localAddr : Nat
  notify : Option Nat
  pkts : List MfbPkt
  /-- ISSUED: the fabric time of the first send; and when the operation was issued. -/
  issued : Nat
  start : Nat
  tries : Nat
  operand : Nat
  compare : Nat
  /-- PUT_LINE: members that have acknowledged, by (flat ID, address). -/
  acks : List (Nat × Nat)
  deriving DecidableEq, Repr

/-- A source's window towards one home (R331). -/
structure MfbWindow where
  size : Nat
  /-- A request was older than 2 µs since then. -/
  late : Bool
  /-- When it last halved or could grow. -/
  since : Nat
  deriving DecidableEq, Repr

/-- An entry of the home's result table (R328). -/
structure MfbResult where
  src : Nat
  tag : Nat
  old : Nat
  time : Nat
  deriving DecidableEq, Repr

/-- A line of the remote line cache (R325). -/
structure RlcLine where
  id : Nat
  line : Nat
  bytes : List Byte
  deriving DecidableEq, Repr

/-- A core-ring descriptor that has started, or waits to write its record: ring, index, bytes. -/
structure CoreDesc where
  ring : Nat
  index : Nat
  bytes : List Byte
  deriving DecidableEq, Repr

/-- The memory fabric. -/
structure Mfb where
  ops : List MfbOp
  nextId : Nat
  nextTag : Nat
  /-- The sequence counter, and 1 more than the time of the last first send of each number that is not free again (R327). -/
  seq : Nat
  seqTime : Tab Nat
  windows : Tab MfbWindow
  /-- Core-ring descriptors in flight. -/
  descs : List CoreDesc
  /-- The result table, oldest first. -/
  table : List MfbResult
  /-- By core ring, since when its next descriptor heads it (R198, R317). -/
  ringSince : Tab Nat
  /-- Vaults whose further mirror writes wait until those sent are acknowledged, and whether the flow to the partner goes by
  the tree in place of a torus hop (R258, R321). -/
  mirrorHold : List Nat
  mirrorTree : Bool
  /-- Atomics that wait in the C0 input for a full table, as counted. -/
  heldAtomics : List Packet
  /-- Lines by set, most recently used first. -/
  rlc : Tab (List RlcLine)
  /-- Writes that wait for their turn on a hot line, in arrival order (R330). -/
  hot : List Packet
  /-- READY since reset, or the last import of a flat ID (R328). -/
  since : Nat
  deriving DecidableEq, Repr

/-- A memory fabric with nothing in flight. -/
def Mfb.init : Mfb where
  ops := []
  nextId := 0
  nextTag := 0
  seq := 0
  seqTime := []
  windows := []
  descs := []
  table := []
  ringSince := []
  mirrorHold := []
  mirrorTree := false
  heldAtomics := []
  rlc := []
  hot := []
  since := 0

end Sys2Proof.Machine
end

