-- ==== Sys2Proof/Machine/NicUnits.lean ====
section
/-! DEFINITION. The state of Carousel (R267 to R291) and of the update engine (R292 to R312), as plain data. -/

namespace Sys2Proof.Machine

/-! ### Carousel -/

/-- A chunk of a transfer (R284): its segment, its first byte within the segment's fabric data, its bytes. -/
structure Chunk where
  seg : Nat
  off : Nat
  len : Nat
  deriving DecidableEq, Repr

/-- A transfer that comes in (R286): round code, sender's rank, chunks (beyond those that have come whole, as this device
would cut them), limit granted, chunks consumed, bytes received and
not consumed, and the scale bytes of the chunks that have come whole and wait. -/
structure InXfer where
  round : Nat
  src : Nat
  chunks : List Chunk
  granted : Nat
  consumed : Nat
  bytes : List Byte
  whole : List (List Byte)
  deriving DecidableEq, Repr

/-- A transfer that goes out: round code, receiver's rank, chunks (those of a forwarded segment as they have come), limit granted, chunks sent, final grant received. -/
structure OutXfer where
  round : Nat
  dst : Nat
  chunks : List Chunk
  upto : Nat
  sent : Nat
  final : Bool
  deriving DecidableEq, Repr

/-- An update block of a collective on its owner: dispatched, or the narrow and scale bytes that it has returned. -/
inductive BlkSt where
  | fresh
  | out
  | back (bytes : List Byte)
  deriving DecidableEq, Repr

/-- A collective that waits in the queue or holds a slot. -/
structure Coll where
  key : Nat × Nat
  group : Nat
  kind : Nat
  rop : Nat
  dfmt : Nat
  wfmt : Nat
  tag : Nat
  count : Nat
  cap : Nat
  /-- Byte 56 of the descriptor. -/
  flags : Nat
  layer : Nat
  members : List Nat
  rank : Nat
  /-- SEND and RECV as buffers: first device address, elements. -/
  send : List (Nat × Nat)
  recv : List (Nat × Nat)
  /-- The step it belongs to. -/
  step : Nat
  slot : Option Nat
  /-- Time of the last progress (R289). -/
  last : Nat
  /-- The exchange (R275): records by rank as (COUNT, RECV_CAP, digest), those received as (round code, rank), rounds sent. -/
  recs : Tab (Nat × Nat × Nat)
  got : List (Nat × Nat)
  sentRounds : List Nat
  /-- The data phase runs. -/
  data : Bool
  /-- Partials of the reducing kinds by element: FP32 or INT32. -/
  vals : List Nat
  /-- Fabric data of finished segments, as far as known, by segment. -/
  segs : Tab (List Byte)
  /-- The segments it owns are converted, or handed to the update engine. -/
  conv : Bool
  ins : List InXfer
  outs : List OutXfer
  /-- Update blocks of the segments it owns, by block of the buffer. -/
  blocks : Tab BlkSt
  /-- Hyperparameter blocks by tensor, as read at the start (R299). -/
  hyper : Tab (List Byte)
  /-- Update-core errors by block (R310). -/
  faults : Tab Nat
  deriving DecidableEq, Repr

/-- An entry of the early-arrival table (R276, R290). -/
structure Early where
  pkt : Packet
  time : Nat
  deriving DecidableEq, Repr

/-- An exchange packet that awaits its acknowledgement. -/
structure ExSend where
  key : Nat × Nat
  dst : Nat
  pkt : Packet
  /-- Time of its last sending. -/
  at' : Nat
  deriving DecidableEq, Repr

/-- Carousel. -/
structure Car where
  /-- Group table: members in rank order; an undefined entry has none. -/
  groups : Tab (List Nat)
  /-- Collectives in the order they started. -/
  colls : List Coll
  early : List Early
  sends : List ExSend
  /-- Notices received in this step, by OP and payload, and tags completed in it. -/
  seen : List (Nat × List Byte)
  done : List Nat
  deriving DecidableEq, Repr

/-- No group, no collective. -/
def Car.init : Car where
  groups := []
  colls := []
  early := []
  sends := []
  seen := []
  done := []

/-! ### The update engine -/

/-- A binding (R292), with its freeze-map position and what its program header holds (R294). -/
structure Binding where
  tensor : Nat
  fmt : Nat
  master : Nat
  state : Nat
  narrow : Nat
  count : Nat
  progOff : Nat
  progLen : Nat
  layer : Nat
  slots : Nat
  hyperOff : Nat
  pos : Nat
  damaged : Bool
  deriving DecidableEq, Repr

/-- A staged descriptor of R295. -/
inductive Staged where
  | bind (key : Nat × Nat) (b : Binding)
  | unbind (key : Nat × Nat) (tensor : Nat)
  | freeze (key : Nat × Nat) (tensor first blocks : Nat) (on : Bool)
  deriving DecidableEq, Repr

/-- A block that an update core holds: its collective and its block of the buffer. -/
structure BlkJob where
  key : Nat × Nat
  block : Nat
  deriving DecidableEq, Repr

/-- An undo record of the step in progress: its offset in the undo area, its tensor and block. -/
structure UndoRec where
  off : Nat
  tensor : Nat
  block : Nat
  deriving DecidableEq, Repr

/-- What the engine does at a step's end (UPD_STATUS.PHASE). -/
inductive UpdPhase where
  | idle | committing | rolling
  deriving DecidableEq, Repr

/-- The update engine. The live table and the current counters stand in the device's own fields. -/
structure Upd where
  /-- Bindings in force, by ascending tensor. -/
  binds : List Binding
  /-- Frozen freeze-map positions. -/
  frozen : Tab Bool
  staged : List Staged
  /-- By update core: the block it runs, and the block that waits loaded. -/
  running : Tab (Option BlkJob)
  next : Tab (Option BlkJob)
  undo : List UndoRec
  /-- Committed counters by layer (R303). -/
  cUnf : Tab Nat
  cOvf : Tab Nat
  phase : UpdPhase
  /-- SEQ of the record of the last retirement. -/
  retireSeq : Nat
  deriving DecidableEq, Repr

/-- Nothing bound. -/
def Upd.init : Upd where
  binds := []
  frozen := []
  staged := []
  running := []
  next := []
  undo := []
  cUnf := []
  cOvf := []
  phase := .idle
  retireSeq := 0

end Sys2Proof.Machine
end

