-- ==== Sys2Proof/Machine/RegMap.lean ====
section
/-! DEFINITION. The set-up registers of BAR0, written from the register tables of every chapter of the spec (R440, R441 and the tables): one constant per field (its register's BAR0 offset, its low bit, its width, its access code of R9 and its reset value), and one row per register for whole-register accesses. A reset value the table gives as fuse, pins or strap stands here at the value that notes/assumptions/3.md names. -/

namespace Sys2Proof.Machine

/-- CLK_STATUS [0:0]. 1: root PLL locked -/
def Reg.CLK_STATUS.ROOT_LOCK : Field := ⟨0x40000, 0, 1, .ro, 0x0⟩

/-- CLK_STATUS [8:1]. Bit t: follower PLL of tower t locked -/
def Reg.CLK_STATUS.TWR_LOCK : Field := ⟨0x40000, 1, 8, .ro, 0x0⟩

/-- CLK_STATUS [20:9]. Bit e: follower PLL of engine e locked -/
def Reg.CLK_STATUS.ENG_LOCK : Field := ⟨0x40000, 9, 12, .ro, 0x0⟩

/-- CLK_STATUS [22:21]. Present core divider: 0b00 /4, 0b01 /5, 0b10 /6, 0b11 /8 -/
def Reg.CLK_STATUS.CORE_DIV : Field := ⟨0x40000, 21, 2, .ro, 0x0⟩

/-- CLK_LOCK_LOSS [0:0]. 1: root PLL lost lock since last cleared -/
def Reg.CLK_LOCK_LOSS.ROOT : Field := ⟨0x40004, 0, 1, .w1c, 0x0⟩

/-- CLK_LOCK_LOSS [8:1]. Bit t: tower t follower lost lock since last cleared -/
def Reg.CLK_LOCK_LOSS.TWR : Field := ⟨0x40004, 1, 8, .w1c, 0x0⟩

/-- CLK_LOCK_LOSS [20:9]. Bit e: engine e follower lost lock since last cleared -/
def Reg.CLK_LOCK_LOSS.ENG : Field := ⟨0x40004, 9, 12, .w1c, 0x0⟩

/-- CLK_REF_DEV [15:0]. Last measured reference deviation, two's complement, in units of 0.1 ppm -/
def Reg.CLK_REF_DEV.DEV : Field := ⟨0x40008, 0, 16, .ro, 0x0⟩

/-- CLK_REF_TOL [15:0]. Deviation limit for R34, in units of 0.1 ppm; reset value is 100 ppm -/
def Reg.CLK_REF_TOL.TOL : Field := ⟨0x4000c, 0, 16, .rwl, 0x3e8⟩

/-- CLK_DIV_CHANGES [31:0]. Core divider changes since reset; wraps at 2^32 -/
def Reg.CLK_DIV_CHANGES.COUNT : Field := ⟨0x40010, 0, 32, .ro, 0x0⟩

/-- D2D_CTRL [7:0]. Consecutive failed sends of one flit that trigger a retrain; 0 acts as 1 -/
def Reg.D2D_CTRL.RETRY_LIMIT : Field := ⟨0x110000, 0, 8, .rwl, 0x8⟩

/-- D2D_CTRL [23:8]. Retries in any 1 s above which a retrain is scheduled at the next step gap -/
def Reg.D2D_CTRL.RATE_LIMIT : Field := ⟨0x110000, 8, 16, .rwl, 0x3e8⟩

/-- D2D_STRAP [0:0]. Midway hub strap -/
def Reg.D2D_STRAP.HUB : Field := ⟨0x110004, 0, 1, .ro, 0x0⟩

/-- D2D_STRAP [3:1]. Midway position strap; 0b000 in a good package -/
def Reg.D2D_STRAP.POS : Field := ⟨0x110004, 1, 3, .ro, 0x0⟩

/-- D2D_STRAP [31:8]. Bits [3t+10:3t+8]: POS reported by the die on tower port t, valid once BOOT has read it -/
def Reg.D2D_STRAP.TWR_POS : Field := ⟨0x110004, 8, 24, .ro, 0x0⟩

/-- D2D_BUNDLE_DOWN [19:0]. Bit l: a bundle of link l went out of service since last cleared -/
def Reg.D2D_BUNDLE_DOWN.LINK : Field := ⟨0x110008, 0, 20, .w1c, 0x0⟩

/-- D2D_LINK_STATUS[l] [15:0]. Bit b: bundle b in service; engine links use bits [4:0] -/
def Reg.D2D_LINK_STATUS.BUNDLE_UP (l : Nat) : Field := ⟨0x110100 + 0x4 * l, 0, 16, .ro, 0x0⟩

/-- D2D_LINK_STATUS[l] [20:16]. Bundles in service -/
def Reg.D2D_LINK_STATUS.UP_COUNT (l : Nat) : Field := ⟨0x110100 + 0x4 * l, 16, 5, .ro, 0x0⟩

/-- D2D_LINK_STATUS[l] [22:21]. 0b00 down; 0b01 training; 0b10 all bundles up; 0b11 up with fewer bundles -/
def Reg.D2D_LINK_STATUS.STATE (l : Nat) : Field := ⟨0x110100 + 0x4 * l, 21, 2, .ro, 0x0⟩

/-- D2D_LINK_STATUS[l] [24:23]. Bundles of the link in retrain, 0–2 -/
def Reg.D2D_LINK_STATUS.RETRAINING (l : Nat) : Field := ⟨0x110100 + 0x4 * l, 23, 2, .ro, 0x0⟩

/-- D2D_LANE_MAP[l][b] [6:0]. Lowest-numbered lane (0–67) not carrying data -/
def Reg.D2D_LANE_MAP.SPARE0 (l b : Nat) : Field := ⟨0x111000 + 4 * (16 * l + b), 0, 7, .ro, 0x0⟩

/-- D2D_LANE_MAP[l][b] [13:7]. Second lane not carrying data -/
def Reg.D2D_LANE_MAP.SPARE1 (l b : Nat) : Field := ⟨0x111000 + 4 * (16 * l + b), 7, 7, .ro, 0x0⟩

/-- D2D_LANE_MAP[l][b] [20:14]. Third lane not carrying data -/
def Reg.D2D_LANE_MAP.SPARE2 (l b : Nat) : Field := ⟨0x111000 + 4 * (16 * l + b), 14, 7, .ro, 0x0⟩

/-- D2D_LANE_MAP[l][b] [27:21]. Highest-numbered lane not carrying data -/
def Reg.D2D_LANE_MAP.SPARE3 (l b : Nat) : Field := ⟨0x111000 + 4 * (16 * l + b), 21, 7, .ro, 0x0⟩

/-- D2D_LANE_MAP[l][b] [30:28]. Lanes among the four that are fused bad or failed at the last selection, 0–4 -/
def Reg.D2D_LANE_MAP.BAD_COUNT (l b : Nat) : Field := ⟨0x111000 + 4 * (16 * l + b), 28, 3, .ro, 0x0⟩

/-- D2D_ERR_CNT[l][b] [15:0]. Re-send episodes on the bundle since reset; saturates at 0xFFFF -/
def Reg.D2D_ERR_CNT.RETRIES (l b : Nat) : Field := ⟨0x112000 + 4 * (16 * l + b), 0, 16, .ro, 0x0⟩

/-- D2D_ERR_CNT[l][b] [23:16]. Retrains of the bundle since reset; saturates at 0xFF -/
def Reg.D2D_ERR_CNT.RETRAINS (l b : Nat) : Field := ⟨0x112000 + 4 * (16 * l + b), 16, 8, .ro, 0x0⟩

/-- ARR_CFG [0:0]. 1: bubble slots of logical core L are rotated by L mod 16 (R53). 0: all cores use the same slots -/
def Reg.ARR_CFG.BUBBLE_STAGGER : Field := ⟨0x70000, 0, 1, .rwl, 0x1⟩

/-- ARR_CFG [5:1]. Exponent of the fault-free pass count that clears a core's fault count (R59); values below 10 act as 10, above 30 act as 30 -/
def Reg.ARR_CFG.FAULT_WINDOW : Field := ⟨0x70000, 1, 5, .rwl, 0x14⟩

/-- ARR_STATUS [3:0]. Bubble ratio b in force -/
def Reg.ARR_STATUS.BUBBLE : Field := ⟨0x70004, 0, 4, .ro, 0x0⟩

/-- ARR_STATUS [4:4]. 1: the fixed 8/16 emergency ratio of "Tightrope: power, thermal and throttling" is in force -/
def Reg.ARR_STATUS.EMERGENCY : Field := ⟨0x70004, 4, 1, .ro, 0x0⟩

/-- ARR_PASSES [63:0]. Passes ended, summed over all cores; discarded passes are not counted -/
def Reg.ARR_PASSES.COUNT : Field := ⟨0x70008, 0, 64, .ro, 0x0⟩

/-- ARR_INJECT_CYCLES [63:0]. Injection slots that carried data, summed over all cores -/
def Reg.ARR_INJECT_CYCLES.COUNT : Field := ⟨0x70010, 0, 64, .ro, 0x0⟩

/-- ARR_BUBBLE_SLOTS [63:0]. Injection slots given to bubbles by R52, summed over all cores -/
def Reg.ARR_BUBBLE_SLOTS.COUNT : Field := ⟨0x70018, 0, 64, .ro, 0x0⟩

/-- ARR_SHADOW_WAIT [63:0]. Core-clock cycles of injection wait under R47, summed over all cores -/
def Reg.ARR_SHADOW_WAIT.COUNT : Field := ⟨0x70020, 0, 64, .ro, 0x0⟩

/-- ARR_FAULTS [15:0]. Array faults since reset, all cores; saturates at 0xFFFF -/
def Reg.ARR_FAULTS.FAULTS : Field := ⟨0x70028, 0, 16, .ro, 0x0⟩

/-- ARR_FAULTS [23:16]. Cores retired by a second fault since reset; saturates at 0xFF -/
def Reg.ARR_FAULTS.RETIRED : Field := ⟨0x70028, 16, 8, .ro, 0x0⟩

/-- ARR_PREEMPT_MAX [23:0]. Longest wait from pre-emption request to pass boundary since reset, in core-clock cycles; saturates at 0xFF_FFFF -/
def Reg.ARR_PREEMPT_MAX.CYCLES : Field := ⟨0x7002c, 0, 24, .ro, 0x0⟩

/-- ARR_FAULT_TOWER [7:0]. Bit t: a core of tower t had an array fault since last cleared -/
def Reg.ARR_FAULT_TOWER.TOWER : Field := ⟨0x70030, 0, 8, .w1c, 0x0⟩

/-- ARR_CORE_FAULT[L] [0:0]. Fault count of logical core L: 1 after a first fault, cleared by R59 -/
def Reg.ARR_CORE_FAULT.PENDING (L : Nat) : Field := ⟨0x70100 + 0x4 * L, 0, 1, .ro, 0x0⟩

/-- ARR_CORE_FAULT[L] [3:1]. Cause of the last fault: 0b000 none; 0b001 weight parity; 0b010 activation parity; 0b011 partial-sum parity; 0b100 adder residue; 0b101 accumulate-region check; 0b110 follower PLL lock loss; 0b111 reserved -/
def Reg.ARR_CORE_FAULT.LAST_CAUSE (L : Nat) : Field := ⟨0x70100 + 0x4 * L, 1, 3, .ro, 0x0⟩

/-- ARR_CORE_FAULT[L] [7:4]. Bit a: array a was involved in the last fault -/
def Reg.ARR_CORE_FAULT.ARRAYS (L : Nat) : Field := ⟨0x70100 + 0x4 * L, 4, 4, .ro, 0x0⟩

/-- ARR_CORE_FAULT[L] [31:16]. Faults of logical core L since reset, across sites; saturates at 0xFFFF -/
def Reg.ARR_CORE_FAULT.TOTAL (L : Nat) : Field := ⟨0x70100 + 0x4 * L, 16, 16, .ro, 0x0⟩

/-- ARR_SR_KEY [63:0]. Generator key of R76 -/
def Reg.ARR_SR_KEY.KEY : Field := ⟨0x70400, 0, 64, .rwl, 0x0⟩

/-- ARR_SR_TEST_A [47:0]. Element-index input for ARR_SR_TEST_OUT -/
def Reg.ARR_SR_TEST_A.ELEM : Field := ⟨0x70408, 0, 48, .rw, 0x0⟩

/-- ARR_SR_TEST_A [55:48]. Use input -/
def Reg.ARR_SR_TEST_A.USE : Field := ⟨0x70408, 48, 8, .rw, 0x0⟩

/-- ARR_SR_TEST_B [31:0]. Step input -/
def Reg.ARR_SR_TEST_B.STEP : Field := ⟨0x70410, 0, 32, .rw, 0x0⟩

/-- ARR_SR_TEST_B [55:32]. Tensor input -/
def Reg.ARR_SR_TEST_B.TENSOR : Field := ⟨0x70410, 32, 24, .rw, 0x0⟩

/-- ARR_SR_TEST_OUT [31:0]. sr_word of R77 for ARR_SR_KEY and the test inputs; valid 1 µs after the last write to either test register -/
def Reg.ARR_SR_TEST_OUT.WORD : Field := ⟨0x70418, 0, 32, .ro, 0x0⟩

/-- ARR_OVF_EVENTS [63:0]. Conversion verdicts of range overflow or saturated source, all cores, all attempts -/
def Reg.ARR_OVF_EVENTS.COUNT : Field := ⟨0x70420, 0, 64, .ro, 0x0⟩

/-- ARR_OVF_REPLAYS [63:0]. Segment replays under R83, all cores -/
def Reg.ARR_OVF_REPLAYS.COUNT : Field := ⟨0x70428, 0, 64, .ro, 0x0⟩

/-- ARR_OVF_SATURATED [63:0]. Conversions made visible with overflowed values under R84 -/
def Reg.ARR_OVF_SATURATED.COUNT : Field := ⟨0x70430, 0, 64, .ro, 0x0⟩

/-- ARR_REPLAY_EXHAUSTED [15:0]. RUNs completed with REPLAY_EXHAUSTED; saturates at 0xFFFF -/
def Reg.ARR_REPLAY_EXHAUSTED.COUNT : Field := ⟨0x70438, 0, 16, .ro, 0x0⟩

/-- ARR_NONFINITE [63:0]. Non-finite source values met by output conversions, all cores -/
def Reg.ARR_NONFINITE.COUNT : Field := ⟨0x70440, 0, 64, .ro, 0x0⟩

/-- ARR_SEQ_CFG [15:0]. Limit of R111 in milliseconds; 0 acts as 1 -/
def Reg.ARR_SEQ_CFG.WAIT_LIMIT : Field := ⟨0x70800, 0, 16, .rwl, 0x64⟩

/-- ARR_SEQ_OPS [63:0]. Tile operations completed, all cores; abandoned operations are not counted -/
def Reg.ARR_SEQ_OPS.COUNT : Field := ⟨0x70808, 0, 64, .ro, 0x0⟩

/-- ARR_SEQ_HOLD [63:0]. Core-clock cycles that operations spent held under R97, summed over all operations and cores -/
def Reg.ARR_SEQ_HOLD.CYCLES : Field := ⟨0x70810, 0, 64, .ro, 0x0⟩

/-- ARR_BANK_CONFLICT [63:0]. Bank requests made to wait under R91, all cores -/
def Reg.ARR_BANK_CONFLICT.COUNT : Field := ⟨0x70818, 0, 64, .ro, 0x0⟩

/-- ARR_FEED_STARVE [63:0]. Injection slots given an empty element for lack of staged data (R91), all cores -/
def Reg.ARR_FEED_STARVE.COUNT : Field := ⟨0x70820, 0, 64, .ro, 0x0⟩

/-- ARR_PREEMPTS [15:0]. Pre-emption saves under R113 since reset; saturates at 0xFFFF -/
def Reg.ARR_PREEMPTS.SAVES : Field := ⟨0x70828, 0, 16, .ro, 0x0⟩

/-- ARR_PREEMPTS [31:16]. Resumes under R114 since reset; saturates at 0xFFFF -/
def Reg.ARR_PREEMPTS.RESUMES : Field := ⟨0x70828, 16, 16, .ro, 0x0⟩

/-- ARR_SAVE_MAX [15:0]. Longest time from pass boundary to save complete, in µs; saturates at 0xFFFF -/
def Reg.ARR_SAVE_MAX.SAVE_US : Field := ⟨0x7082c, 0, 16, .ro, 0x0⟩

/-- ARR_SAVE_MAX [31:16]. Longest time from restore start to first re-dispatch, in µs; saturates at 0xFFFF -/
def Reg.ARR_SAVE_MAX.RESTORE_US : Field := ⟨0x7082c, 16, 16, .ro, 0x0⟩

/-- ARR_SEQ_POS[L] [15:0]. Next operation to be dispatched by logical core L -/
def Reg.ARR_SEQ_POS.POS (L : Nat) : Field := ⟨0x70900 + 0x4 * L, 0, 16, .ro, 0x0⟩

/-- ARR_SEQ_POS[L] [18:16]. 0b000 idle; 0b001 checking; 0b010 running; 0b011 held at WAIT; 0b100 held at BARRIER; 0b101 pre-empted; 0b110 ended; 0b111 stopped -/
def Reg.ARR_SEQ_POS.STATE (L : Nat) : Field := ⟨0x70900 + 0x4 * L, 16, 3, .ro, 0x0⟩

/-- ARR_VEC_INSTR [63:0]. Vector instructions executed, all cores -/
def Reg.ARR_VEC_INSTR.COUNT : Field := ⟨0x70c00, 0, 64, .ro, 0x0⟩

/-- ARR_VEC_CFG [4:0]. Exponent of the executed-instruction limit of R120; values below 16 act as 16, and values above 30 act as 30 -/
def Reg.ARR_VEC_CFG.LIMIT_EXP : Field := ⟨0x70c08, 0, 5, .rwl, 0x18⟩

/-- ARR_VEC_STOPS [7:0]. Stops with BAD_FIELD under R136 since reset; saturates at 0xFF -/
def Reg.ARR_VEC_STOPS.FIELD : Field := ⟨0x70c0c, 0, 8, .ro, 0x0⟩

/-- ARR_VEC_STOPS [15:8]. Of those, stops for access outside the declared ranges or misalignment; saturates at 0xFF -/
def Reg.ARR_VEC_STOPS.RANGE : Field := ⟨0x70c0c, 8, 8, .ro, 0x0⟩

/-- ARR_VEC_STOPS [23:16]. Stops for the instruction limit; saturates at 0xFF -/
def Reg.ARR_VEC_STOPS.LIMIT : Field := ⟨0x70c0c, 16, 8, .ro, 0x0⟩

/-- ARR_VEC_STOPS [31:24]. Stops with DEVICE_FAULT; saturates at 0xFF -/
def Reg.ARR_VEC_STOPS.FAULT : Field := ⟨0x70c0c, 24, 8, .ro, 0x0⟩

/-- TWR_CORE[L] [4:0]. Physical site serving logical core L -/
def Reg.TWR_CORE.SITE (L : Nat) : Field := ⟨0x50000 + 0x4 * L, 0, 5, .ro, L % 24⟩

/-- TWR_CORE[L] [6:5]. 0b00 ACTIVE; 0b01 MIGRATING; 0b10 LOST; 0b11 RETIRED -/
def Reg.TWR_CORE.STATE (L : Nat) : Field := ⟨0x50000 + 0x4 * L, 5, 2, .ro, 0x0⟩

/-- TWR_CORE[L] [11:7]. Target site of a migration in progress; 0x1F none -/
def Reg.TWR_CORE.TARGET (L : Nat) : Field := ⟨0x50000 + 0x4 * L, 7, 5, .ro, 0x1f⟩

/-- TWR_CORE[L] [15:12]. Completed migrations since reset; saturates at 15 -/
def Reg.TWR_CORE.MIGRATIONS (L : Nat) : Field := ⟨0x50000 + 0x4 * L, 12, 4, .ro, 0x0⟩

/-- TWR_CORE[L] [20:16]. Pipes in service -/
def Reg.TWR_CORE.PIPES (L : Nat) : Field := ⟨0x50000 + 0x4 * L, 16, 5, .ro, 0x14⟩

/-- TWR_SPARE_SITES[t] [27:0]. Bit s: site s is a spare in reserve -/
def Reg.TWR_SPARE_SITES.SPARE (t : Nat) : Field := ⟨0x50400 + 0x4 * t, 0, 28, .ro, 0xF000000⟩

/-- TWR_SPARE_SITES[t] [30:28]. Spare sites in reserve, 0–4 -/
def Reg.TWR_SPARE_SITES.COUNT (t : Nat) : Field := ⟨0x50400 + 0x4 * t, 28, 3, .ro, 4⟩

/-- TWR_RETIRED_SITES[t] [27:0]. Bit s: site s fused bad at assembly test or retired since reset -/
def Reg.TWR_RETIRED_SITES.RETIRED (t : Nat) : Field := ⟨0x50420 + 0x4 * t, 0, 28, .ro, 0x0⟩

/-- TWR_MIG [7:0]. Bit t: a migration is in progress in tower t -/
def Reg.TWR_MIG.ACTIVE : Field := ⟨0x50440, 0, 8, .ro, 0x0⟩

/-- TWR_MIG [15:8]. Bit t: a further migration waits in tower t -/
def Reg.TWR_MIG.QUEUED : Field := ⟨0x50440, 8, 8, .ro, 0x0⟩

/-- VLT_CFG [7:0]. Patrol scrub period of R152 in hours; 0 acts as 1 -/
def Reg.VLT_CFG.SCRUB_HOURS : Field := ⟨0x60000, 0, 8, .rwl, 0x18⟩

/-- VLT_CFG [11:8]. Corrected errors per row per pass that spare the row; 0 acts as 1 -/
def Reg.VLT_CFG.ROW_CE_LIMIT : Field := ⟨0x60000, 8, 4, .rwl, 0x4⟩

/-- VLT_CFG [27:12]. CRC failures of one pipe in any 1 s above which it is retrained (R149) -/
def Reg.VLT_CFG.PIPE_RATE : Field := ⟨0x60000, 12, 16, .rwl, 0x3e8⟩

/-- VLT_BAND [15:0]. Bits [2t+1:2t]: DRAM band of tower t -/
def Reg.VLT_BAND.BAND : Field := ⟨0x60004, 0, 16, .ro, 0x0⟩

/-- VLT_CRC_RETRY [63:0]. Re-reads and re-writes under R148, all vaults -/
def Reg.VLT_CRC_RETRY.COUNT : Field := ⟨0x60008, 0, 64, .ro, 0x0⟩

/-- VLT_CE [63:0]. Corrected errors under R150, all vaults and spare columns -/
def Reg.VLT_CE.COUNT : Field := ⟨0x60010, 0, 64, .ro, 0x0⟩

/-- VLT_UE [15:0]. Uncorrectable reads under R151; saturates at 0xFFFF -/
def Reg.VLT_UE.UE : Field := ⟨0x60018, 0, 16, .ro, 0x0⟩

/-- VLT_UE [31:16]. Sectors restored from the buddy, including during migration; saturates at 0xFFFF -/
def Reg.VLT_UE.BUDDY : Field := ⟨0x60018, 16, 16, .ro, 0x0⟩

/-- VLT_SPARES_USED [15:0]. Rows spared since reset, all vaults; saturates at 0xFFFF -/
def Reg.VLT_SPARES_USED.ROWS : Field := ⟨0x6001c, 0, 16, .ro, 0x0⟩

/-- VLT_SPARES_USED [23:16]. Banks spared since reset; saturates at 0xFF -/
def Reg.VLT_SPARES_USED.BANKS : Field := ⟨0x6001c, 16, 8, .ro, 0x0⟩

/-- VLT_SPARES_USED [31:24]. Pipes out of service; saturates at 0xFF -/
def Reg.VLT_SPARES_USED.PIPES_OUT : Field := ⟨0x6001c, 24, 8, .ro, 0x0⟩

/-- VLT_MIRROR_PEER [15:0]. Partner device of R160 -/
def Reg.VLT_MIRROR_PEER.FLAT_ID : Field := ⟨0x60020, 0, 16, .rwl, 0x0⟩

/-- VLT_MIRROR_PEER [16:16]. 1: mirroring on -/
def Reg.VLT_MIRROR_PEER.ENABLE : Field := ⟨0x60020, 16, 1, .rwl, 0x0⟩

/-- VLT_MIRROR_PEER [18:17]. 0b00 off; 0b01 OK; 0b10 BROKEN; 0b11 RESYNC -/
def Reg.VLT_MIRROR_PEER.STATE : Field := ⟨0x60020, 17, 2, .ro, 0x0⟩

/-- VLT_MIG_LAST [23:0]. Duration of the last migration in µs; saturates at 0xFF_FFFF -/
def Reg.VLT_MIG_LAST.DURATION_US : Field := ⟨0x60028, 0, 24, .ro, 0x0⟩

/-- VLT_MIG_LAST [25:24]. 0b00 none; 0b01 ACTIVE; 0b10 LOST; 0b11 reserved -/
def Reg.VLT_MIG_LAST.RESULT : Field := ⟨0x60028, 24, 2, .ro, 0x0⟩

/-- VLT_MIG_LAST [39:32]. Logical core of the last migration -/
def Reg.VLT_MIG_LAST.LOGICAL : Field := ⟨0x60028, 32, 8, .ro, 0x0⟩

/-- VLT_MIG_LAST [63:40]. Sectors fetched from the buddy in the last migration -/
def Reg.VLT_MIG_LAST.BUDDY_SECTORS : Field := ⟨0x60028, 40, 24, .ro, 0x0⟩

/-- VLT_SCRUB_PASS [31:0]. Completed scrub passes, summed over all columns; wraps at 2^32 -/
def Reg.VLT_SCRUB_PASS.COUNT : Field := ⟨0x60030, 0, 32, .ro, 0x0⟩

/-- VLT_MIRROR_SRC[L] [19:0]. Start of the mirrored range, in 4 KiB units -/
def Reg.VLT_MIRROR_SRC.BASE (L : Nat) : Field := ⟨0x61000 + 0x10 * L, 0, 20, .rwl, 0x0⟩

/-- VLT_MIRROR_SRC[L] [50:32]. Length in 4 KiB pages; 0 no mirror; values above 262,144 act as 262,144 -/
def Reg.VLT_MIRROR_SRC.PAGES (L : Nat) : Field := ⟨0x61000 + 0x10 * L, 32, 19, .rwl, 0x0⟩

/-- VLT_MIRROR_DST[L] [39:0]. Destination device address on the partner; bits [11:0] are ignored -/
def Reg.VLT_MIRROR_DST.DA (L : Nat) : Field := ⟨0x61008 + 0x10 * L, 0, 40, .rwl, 0x0⟩

/-- VLT_PIPES[L] [19:0]. Bit p: pipe p of logical core L's vault in service -/
def Reg.VLT_PIPES.UP (L : Nat) : Field := ⟨0x62000 + 0x4 * L, 0, 20, .ro, 0xfffff⟩

/-- HQ_CTRL [15:0]. Bit n: ring pair n in use -/
def Reg.HQ_CTRL.RING_EN : Field := ⟨0x10000, 0, 16, .rwl, 0x0⟩

/-- HQ_CTRL [16:16]. 1: polling and descriptor processing on -/
def Reg.HQ_CTRL.ENABLE : Field := ⟨0x10000, 16, 1, .rwl, 0x0⟩

/-- HQ_POLL_MIN [15:0]. Shortest poll interval of R178 in units of 10 ns; values below 10 act as 10 -/
def Reg.HQ_POLL_MIN.INTERVAL : Field := ⟨0x10004, 0, 16, .rwl, 0x19⟩

/-- HQ_POLL_MAX [15:0]. Longest poll interval in units of 10 ns; values below HQ_POLL_MIN act as HQ_POLL_MIN -/
def Reg.HQ_POLL_MAX.INTERVAL : Field := ⟨0x10008, 0, 16, .rwl, 0x2710⟩

/-- HQ_WAIT_LIMIT [15:0]. Longest wait of a descriptor for its events, in ms, measured from when the descriptor heads its ring (R198); 0: no limit -/
def Reg.HQ_WAIT_LIMIT.MS : Field := ⟨0x1000c, 0, 16, .rwl, 0x2710⟩

/-- HQ_DB_ADDR [63:0]. Host address of the doorbell area (R177); bits [6:0] ignored -/
def Reg.HQ_DB_ADDR.ADDR : Field := ⟨0x10010, 0, 64, .rwl, 0x0⟩

/-- HQ_STATUS_ADDR [63:0]. Host address of the status line (R179); bits [5:0] ignored -/
def Reg.HQ_STATUS_ADDR.ADDR : Field := ⟨0x10018, 0, 64, .rwl, 0x0⟩

/-- HQ_BAR2_BASE [9:0]. Device address reached at BAR2 offset 0, in GiB (R173) -/
def Reg.HQ_BAR2_BASE.BASE_GIB : Field := ⟨0x10020, 0, 10, .rwl, 0x0⟩

/-- HQ_IRQ_HOLDOFF [15:0]. Hold-off of R175 in units of 100 ns; 0: none -/
def Reg.HQ_IRQ_HOLDOFF.HOLDOFF : Field := ⟨0x10024, 0, 16, .rwl, 0xa⟩

/-- HQ_DESC_DONE [63:0]. Completion records written, all rings -/
def Reg.HQ_DESC_DONE.COUNT : Field := ⟨0x10028, 0, 64, .ro, 0x0⟩

/-- HQ_BAR2_ERR [15:0]. Poisoned BAR2 read completions; saturates at 0xFFFF -/
def Reg.HQ_BAR2_ERR.READS : Field := ⟨0x10030, 0, 16, .ro, 0x0⟩

/-- HQ_BAR2_ERR [31:16]. Dropped BAR2 writes; saturates at 0xFFFF -/
def Reg.HQ_BAR2_ERR.WRITES : Field := ⟨0x10030, 16, 16, .ro, 0x0⟩

/-- HQ_SQ_BASE[n] [63:0]. Host address of submission ring n; bits [11:0] ignored -/
def Reg.HQ_SQ_BASE.ADDR (n : Nat) : Field := ⟨0x10100 + 0x10 * n, 0, 64, .rwl, 0x0⟩

/-- HQ_SQ_CFG[n] [4:0]. Entries = 2^value; below 6 acts as 6, above 16 as 16 -/
def Reg.HQ_SQ_CFG.LOG2_SIZE (n : Nat) : Field := ⟨0x10108 + 0x10 * n, 0, 5, .rwl, 0x6⟩

/-- HQ_SQ_CFG[n] [9:8]. Ring priority, 3 highest -/
def Reg.HQ_SQ_CFG.PRIO (n : Nat) : Field := ⟨0x10108 + 0x10 * n, 8, 2, .rwl, 0x0⟩

/-- HQ_CQ_BASE[n] [63:0]. Host address of completion ring n; bits [11:0] ignored -/
def Reg.HQ_CQ_BASE.ADDR (n : Nat) : Field := ⟨0x10200 + 0x10 * n, 0, 64, .rwl, 0x0⟩

/-- HQ_CQ_CFG[n] [4:0]. As in HQ_SQ_CFG -/
def Reg.HQ_CQ_CFG.LOG2_SIZE (n : Nat) : Field := ⟨0x10208 + 0x10 * n, 0, 5, .rwl, 0x6⟩

/-- HQ_CQ_CFG[n] [15:8]. MSI-X vector, 1–255; 0 acts as 1 -/
def Reg.HQ_CQ_CFG.VECTOR (n : Nat) : Field := ⟨0x10208 + 0x10 * n, 8, 8, .rwl, 0x1⟩

/-- HQ_RING_STATUS[n] [6:0]. Descriptors started and not complete, 0–64 -/
def Reg.HQ_RING_STATUS.IN_FLIGHT (n : Nat) : Field := ⟨0x10300 + 0x4 * n, 0, 7, .ro, 0x0⟩

/-- HQ_RING_STATUS[n] [13:7]. Completion records held (R182), 0–64 -/
def Reg.HQ_RING_STATUS.HELD (n : Nat) : Field := ⟨0x10300 + 0x4 * n, 7, 7, .ro, 0x0⟩

/-- HQ_RING_STATUS[n] [14:14]. 1: no descriptor starts because records are held -/
def Reg.HQ_RING_STATUS.STALLED (n : Nat) : Field := ⟨0x10300 + 0x4 * n, 14, 1, .ro, 0x0⟩

/-- HQ_RING_STATUS[n] [31:16]. Invalid tails ignored (R177); saturates at 0xFFFF -/
def Reg.HQ_RING_STATUS.BAD_TAIL (n : Nat) : Field := ⟨0x10300 + 0x4 * n, 16, 16, .ro, 0x0⟩

/-- HQ_REGION_BASE[i] [63:0]. Host address, or device address in bits [39:0] when DEVICE = 1 -/
def Reg.HQ_REGION_BASE.BASE (i : Nat) : Field := ⟨0x14000 + 0x10 * i, 0, 64, .rwl, 0x0⟩

/-- HQ_REGION_LEN[i] [47:0]. Region length in bytes -/
def Reg.HQ_REGION_LEN.LEN (i : Nat) : Field := ⟨0x14008 + 0x10 * i, 0, 48, .rwl, 0x0⟩

/-- HQ_REGION_LEN[i] [48:48]. 1: entry usable -/
def Reg.HQ_REGION_LEN.VALID (i : Nat) : Field := ⟨0x14008 + 0x10 * i, 48, 1, .rwl, 0x0⟩

/-- HQ_REGION_LEN[i] [49:49]. 1: device memory -/
def Reg.HQ_REGION_LEN.DEVICE (i : Nat) : Field := ⟨0x14008 + 0x10 * i, 49, 1, .rwl, 0x0⟩

/-- HQ_REGION_LEN[i] [50:50]. 1: may be read -/
def Reg.HQ_REGION_LEN.RD (i : Nat) : Field := ⟨0x14008 + 0x10 * i, 50, 1, .rwl, 0x0⟩

/-- HQ_REGION_LEN[i] [51:51]. 1: may be written -/
def Reg.HQ_REGION_LEN.WR (i : Nat) : Field := ⟨0x14008 + 0x10 * i, 51, 1, .rwl, 0x0⟩

/-- EVT_SEL [15:0]. Counter reached by EVT_DATA -/
def Reg.EVT_SEL.INDEX : Field := ⟨0x20000, 0, 16, .rw, 0x0⟩

/-- EVT_DATA [31:0]. Value of the selected counter; a write sets it atomically -/
def Reg.EVT_DATA.VALUE : Field := ⟨0x20004, 0, 32, .rwl, 0x0⟩

/-- EVT_WAITING [15:0]. Descriptors waiting on events -/
def Reg.EVT_WAITING.DESC : Field := ⟨0x20008, 0, 16, .ro, 0x0⟩

/-- EVT_WAITING [23:16]. Cores with dispatch held at WAIT -/
def Reg.EVT_WAITING.CORES : Field := ⟨0x20008, 16, 8, .ro, 0x0⟩

/-- EVT_SIGNALS [63:0]. Counter changes by descriptors, SIGNAL and XFER notification -/
def Reg.EVT_SIGNALS.COUNT : Field := ⟨0x20010, 0, 64, .ro, 0x0⟩

/-- OPT_CFG [7:0]. Re-send timer of R209 in µs; values below 2 act as 2 -/
def Reg.OPT_CFG.RESEND_US : Field := ⟨0x80000, 0, 8, .rwl, 0x4⟩

/-- OPT_CFG [15:8]. Lane calibration period of R219 and R216 in s; 0: none -/
def Reg.OPT_CFG.CAL_PERIOD_S : Field := ⟨0x80000, 8, 8, .rwl, 0x3c⟩

/-- OPT_CFG [19:16]. Automatic tries from FAILED (R213); 0 acts as 1 -/
def Reg.OPT_CFG.TRAIN_TRIES : Field := ⟨0x80000, 16, 4, .rwl, 0x8⟩

/-- OPT_CFG [27:20]. Hours between port calibrations (R220); 0: none on time -/
def Reg.OPT_CFG.PORT_CAL_H : Field := ⟨0x80000, 20, 8, .rwl, 0x18⟩

/-- OPT_LANE_CFG [3:0]. Errored alignment units in 16 that fail a lane (R214); 0 acts as 1 -/
def Reg.OPT_LANE_CFG.ALIGN_ERR : Field := ⟨0x80004, 0, 4, .rwl, 0x4⟩

/-- OPT_LANE_CFG [7:4]. Sends of one block that set the re-send limit (R209); values below 2 act as 2 -/
def Reg.OPT_LANE_CFG.RESEND_FAIL : Field := ⟨0x80004, 4, 4, .rwl, 0x8⟩

/-- OPT_TRAINS [15:0]. Trainings completed, all ports; saturates at 0xFFFF -/
def Reg.OPT_TRAINS.DONE : Field := ⟨0x80008, 0, 16, .ro, 0x0⟩

/-- OPT_TRAINS [31:16]. Trainings failed, all ports; saturates at 0xFFFF -/
def Reg.OPT_TRAINS.FAILED : Field := ⟨0x80008, 16, 16, .ro, 0x0⟩

/-- OPT_BLOCKS [63:0]. Data blocks received with good CRC, all ports -/
def Reg.OPT_BLOCKS.COUNT : Field := ⟨0x80010, 0, 64, .ro, 0x0⟩

/-- OPT_RESENDS [63:0]. Data blocks re-sent under R209, all ports -/
def Reg.OPT_RESENDS.COUNT : Field := ⟨0x80018, 0, 64, .ro, 0x0⟩

/-- OPT_PORT_CHANGE [47:0]. Bit p: port p changed state since last cleared -/
def Reg.OPT_PORT_CHANGE.PORT : Field := ⟨0x80020, 0, 48, .w1c, 0x0⟩

/-- OPT_PORT_STATUS[p] [2:0]. 0b000 DOWN; 0b001 TRAINING; 0b010 UP; 0b011 CAL; 0b100 DEGRADED; 0b101 FAILED; others reserved -/
def Reg.OPT_PORT_STATUS.STATE (p : Nat) : Field := ⟨0x80100 + 0x4 * p, 0, 3, .ro, 0x0⟩

/-- OPT_PORT_STATUS[p] [7:3]. Active slots n of R213, 0–16 -/
def Reg.OPT_PORT_STATUS.SLOTS (p : Nat) : Field := ⟨0x80100 + 0x4 * p, 3, 5, .ro, 0x0⟩

/-- OPT_PORT_STATUS[p] [9:8]. Free spare lanes, receive direction -/
def Reg.OPT_PORT_STATUS.RX_SPARES (p : Nat) : Field := ⟨0x80100 + 0x4 * p, 8, 2, .ro, 0x0⟩

/-- OPT_PORT_STATUS[p] [11:10]. Free spare lanes, transmit direction, as reported by the peer -/
def Reg.OPT_PORT_STATUS.TX_SPARES (p : Nat) : Field := ⟨0x80100 + 0x4 * p, 10, 2, .ro, 0x0⟩

/-- OPT_PORT_STATUS[p] [12:12]. 0: home feed; 1: backup feed -/
def Reg.OPT_PORT_STATUS.FEED (p : Nat) : Field := ⟨0x80100 + 0x4 * p, 12, 1, .ro, 0x0⟩

/-- OPT_PORT_STATUS[p] [15:13]. Last cause of DOWN or FAILED: 0b000 none; 0b001 no light; 0b010 training failed; 0b011 miswired; 0b100 fewer than 12 slots; 0b101 feed lost; 0b110 re-send limit; 0b111 engine, as told by ENG_LINK -/
def Reg.OPT_PORT_STATUS.CAUSE (p : Nat) : Field := ⟨0x80100 + 0x4 * p, 13, 3, .ro, 0x0⟩

/-- OPT_PORT_STATUS[p] [19:16]. Failed tries since the last successful training -/
def Reg.OPT_PORT_STATUS.TRIES (p : Nat) : Field := ⟨0x80100 + 0x4 * p, 16, 4, .ro, 0x0⟩

/-- OPT_PORT_STATUS[p] [20:20]. With cause 0b111: 1, the engine's die-to-die link was lost (R223); 0, the engine's follower PLL did not relock (R33) -/
def Reg.OPT_PORT_STATUS.ENG_LINK (p : Nat) : Field := ⟨0x80100 + 0x4 * p, 20, 1, .ro, 0x0⟩

/-- OPT_PEER[p] [15:0]. Peer flat ID from IDENT -/
def Reg.OPT_PEER.FLAT_ID (p : Nat) : Field := ⟨0x80200 + 0x4 * p, 0, 16, .ro, 0x0⟩

/-- OPT_PEER[p] [21:16]. Peer port -/
def Reg.OPT_PEER.PORT (p : Nat) : Field := ⟨0x80200 + 0x4 * p, 16, 6, .ro, 0x0⟩

/-- OPT_PEER[p] [22:22]. 1: peer is a tree switch -/
def Reg.OPT_PEER.SWITCH (p : Nat) : Field := ⟨0x80200 + 0x4 * p, 22, 1, .ro, 0x0⟩

/-- OPT_PEER[p] [23:23]. 1: fields hold the last accepted IDENT -/
def Reg.OPT_PEER.VALID (p : Nat) : Field := ⟨0x80200 + 0x4 * p, 23, 1, .ro, 0x0⟩

/-- OPT_LANE_STATE[p] [17:0]. Bit n: receive lane n failed -/
def Reg.OPT_LANE_STATE.RX_FAILED (p : Nat) : Field := ⟨0x80300 + 0x4 * p, 0, 18, .ro, 0x0⟩

/-- OPT_LANE_STATE[p] [22:18]. Receive lane in calibration; 0x1F none -/
def Reg.OPT_LANE_STATE.RX_CAL (p : Nat) : Field := ⟨0x80300 + 0x4 * p, 18, 5, .ro, 0x1f⟩

/-- OPT_LANE_STATE[p] [27:23]. Transmit lane in calibration; 0x1F none -/
def Reg.OPT_LANE_STATE.TX_CAL (p : Nat) : Field := ⟨0x80300 + 0x4 * p, 23, 5, .ro, 0x1f⟩

/-- OPT_ERR[p] [15:0]. Blocks that failed CRC; saturates at 0xFFFF -/
def Reg.OPT_ERR.CRC_FAIL (p : Nat) : Field := ⟨0x80400 + 0x4 * p, 0, 16, .ro, 0x0⟩

/-- OPT_ERR[p] [31:16]. Lane failures under R214; saturates at 0xFFFF -/
def Reg.OPT_ERR.LANE_FAILS (p : Nat) : Field := ⟨0x80400 + 0x4 * p, 16, 16, .ro, 0x0⟩

/-- OPT_MARGIN[p] [15:0]. Receive margin of R226, signed, 0.01 dB -/
def Reg.OPT_MARGIN.RX (p : Nat) : Field := ⟨0x80500 + 0x4 * p, 0, 16, .ro, 0x0⟩

/-- OPT_MARGIN[p] [31:16]. Transmit margin reported by the peer, signed, 0.01 dB -/
def Reg.OPT_MARGIN.TX (p : Nat) : Field := ⟨0x80500 + 0x4 * p, 16, 16, .ro, 0x0⟩

/-- OPT_CAL_REC[p] [3:0]. Tightrope power band of the last port calibration or training -/
def Reg.OPT_CAL_REC.POWER_BAND (p : Nat) : Field := ⟨0x80600 + 0x4 * p, 0, 4, .ro, 0x0⟩

/-- OPT_CAL_REC[p] [11:4]. Engine temperature then, in °C -/
def Reg.OPT_CAL_REC.TEMP_C (p : Nat) : Field := ⟨0x80600 + 0x4 * p, 4, 8, .ro, 0x0⟩

/-- OPT_CAL_REC[p] [31:12]. Seconds since then; saturates at 0xF_FFFF -/
def Reg.OPT_CAL_REC.AGE_S (p : Nat) : Field := ⟨0x80600 + 0x4 * p, 12, 20, .ro, 0x0⟩

/-- OPT_LINK_DELAY[p] [23:0]. Link delay of R225, in units of 0.125 ns -/
def Reg.OPT_LINK_DELAY.DELAY (p : Nat) : Field := ⟨0x80700 + 0x4 * p, 0, 24, .ro, 0x0⟩

/-- OPT_MAP[p], receive map: the lane of slot i, 0x1F vacant. -/
def Reg.OPT_MAP.RX_SLOT_LANE (p i : Nat) : Field := ⟨0x081000 + 0x20 * p + 0x0 + 4 * (i / 6), 5 * (i % 6), 5, .ro, 0x1F⟩

/-- OPT_MAP[p], RX map: the lower-numbered free spare lane. -/
def Reg.OPT_MAP.RX_SPARE0 (p : Nat) : Field := ⟨0x081000 + 0x20 * p + 0x8, 20, 5, .ro, 0x1F⟩

/-- OPT_MAP[p], RX map: the higher-numbered free spare lane. -/
def Reg.OPT_MAP.RX_SPARE1 (p : Nat) : Field := ⟨0x081000 + 0x20 * p + 0x8, 25, 5, .ro, 0x1F⟩

/-- OPT_MAP[p], transmit map: the lane of slot i, 0x1F vacant. -/
def Reg.OPT_MAP.TX_SLOT_LANE (p i : Nat) : Field := ⟨0x081000 + 0x20 * p + 0x10 + 4 * (i / 6), 5 * (i % 6), 5, .ro, 0x1F⟩

/-- OPT_MAP[p], TX map: the lower-numbered free spare lane. -/
def Reg.OPT_MAP.TX_SPARE0 (p : Nat) : Field := ⟨0x081000 + 0x20 * p + 0x18, 20, 5, .ro, 0x1F⟩

/-- OPT_MAP[p], TX map: the higher-numbered free spare lane. -/
def Reg.OPT_MAP.TX_SPARE1 (p : Nat) : Field := ⟨0x081000 + 0x20 * p + 0x18, 25, 5, .ro, 0x1F⟩

/-- LIM_STATE[s] [2:0]. 0b000 EMPTY; 0b001 WARMING; 0b010 ONLINE; 0b011 STANDBY; 0b100 FADING; 0b101 RETIRING; 0b110 RETIRED; 0b111 reserved -/
def Reg.LIM_STATE.STATE (s : Nat) : Field := ⟨0x90000 + 0x4 * s, 0, 3, .ro, 0x0⟩

/-- LIM_STATE[s] [4:3]. RETIRED cause: 0b00 worn; 0b01 rejected; 0b10 lock; 0b11 failed -/
def Reg.LIM_STATE.CAUSE (s : Nat) : Field := ⟨0x90000 + 0x4 * s, 3, 2, .ro, 0x0⟩

/-- LIM_STATE[s] [10:5]. Bit i: port k + 8i on this slot's light -/
def Reg.LIM_STATE.FED (s : Nat) : Field := ⟨0x90000 + 0x4 * s, 5, 6, .ro, 0x0⟩

/-- LIM_STATE[s] [11:11]. 1: R232 check passed -/
def Reg.LIM_STATE.AUTH (s : Nat) : Field := ⟨0x90000 + 0x4 * s, 11, 1, .ro, 0x0⟩

/-- LIM_SW [3:0]. Present LM_SW_SEL -/
def Reg.LIM_SW.SEL : Field := ⟨0x90040, 0, 4, .ro, 0x0⟩

/-- LIM_SW [11:4]. Bit g: switch faulted for group g (R237) -/
def Reg.LIM_SW.FAULT : Field := ⟨0x90040, 4, 8, .ro, 0x0⟩

/-- LIM_LIFE[s] [31:0]. HOURS of R233 -/
def Reg.LIM_LIFE.HOURS (s : Nat) : Field := ⟨0x90100 + 0x8 * s, 0, 32, .ro, 0x0⟩

/-- LIM_LIFE[s] [63:32]. EQ_HOURS of R233 -/
def Reg.LIM_LIFE.EQ_HOURS (s : Nat) : Field := ⟨0x90100 + 0x8 * s, 32, 32, .ro, 0x0⟩

/-- LIM_FADE[s] [7:0]. Drive current as a percentage of I_MAX -/
def Reg.LIM_FADE.DRIVE_PCT (s : Nat) : Field := ⟨0x90200 + 0x4 * s, 0, 8, .ro, 0x0⟩

/-- LIM_FADE[s] [15:8]. Largest line shortfall below BOL_PWR, 0.01 dB units; saturates at 0xFF -/
def Reg.LIM_FADE.WORST_DB (s : Nat) : Field := ⟨0x90200 + 0x4 * s, 8, 8, .ro, 0x0⟩

/-- LIM_FADE[s] [31:16]. Predicted hours to −2.0 dB (R234); 0xFFFF infinite or not FADING -/
def Reg.LIM_FADE.PREDICT_H (s : Nat) : Field := ⟨0x90200 + 0x4 * s, 16, 16, .ro, 0xffff⟩

/-- LIM_SERIAL[s] [63:0]. SERIAL of the cartridge in slot s; 0 when EMPTY -/
def Reg.LIM_SERIAL.SERIAL (s : Nat) : Field := ⟨0x90300 + 0x8 * s, 0, 64, .ro, 0x0⟩

/-- LIM_EVENTS [7:0]. Switch-overs of R238 since reset; saturates at 0xFF -/
def Reg.LIM_EVENTS.SWITCHOVERS : Field := ⟨0x90400, 0, 8, .ro, 0x0⟩

/-- LIM_EVENTS [15:8]. Losses handled by R241; saturates at 0xFF -/
def Reg.LIM_EVENTS.SUDDEN : Field := ⟨0x90400, 8, 8, .ro, 0x0⟩

/-- LIM_EVENTS [23:16]. Port moves of R239 and R240; saturates at 0xFF -/
def Reg.LIM_EVENTS.MOVES : Field := ⟨0x90400, 16, 8, .ro, 0x0⟩

/-- LIM_EVENTS [31:24]. Cartridges that failed R232; saturates at 0xFF -/
def Reg.LIM_EVENTS.REJECTED : Field := ⟨0x90400, 24, 8, .ro, 0x0⟩

/-- FAB_SELF [15:0]. Flat ID of this device (R244); changed by import (R264) -/
def Reg.FAB_SELF.FLAT_ID : Field := ⟨0xa0000, 0, 16, .rwl, 0xffff⟩

/-- FAB_SELF [16:16]. 1: the flat ID was exported (R263) -/
def Reg.FAB_SELF.EXPORTED : Field := ⟨0xa0000, 16, 1, .ro, 0x0⟩

/-- FAB_COORD [4:0]. Torus X of this device -/
def Reg.FAB_COORD.X : Field := ⟨0xa0004, 0, 5, .rwl, 0x0⟩

/-- FAB_COORD [9:5]. Torus Y -/
def Reg.FAB_COORD.Y : Field := ⟨0xa0004, 5, 5, .rwl, 0x0⟩

/-- FAB_COORD [14:10]. Torus Z -/
def Reg.FAB_COORD.Z : Field := ⟨0xa0004, 10, 5, .rwl, 0x0⟩

/-- FAB_TORUS_DIM [5:0]. Hall size in X; 0 acts as 1, above 32 as 32 -/
def Reg.FAB_TORUS_DIM.DX : Field := ⟨0xa0008, 0, 6, .rwl, 0x1⟩

/-- FAB_TORUS_DIM [11:6]. Hall size in Y, same rule -/
def Reg.FAB_TORUS_DIM.DY : Field := ⟨0xa0008, 6, 6, .rwl, 0x1⟩

/-- FAB_TORUS_DIM [17:12]. Hall size in Z, same rule -/
def Reg.FAB_TORUS_DIM.DZ : Field := ⟨0xa0008, 12, 6, .rwl, 0x1⟩

/-- FAB_BLOCK_BASE [4:0]. Block base in X (R249) -/
def Reg.FAB_BLOCK_BASE.X : Field := ⟨0xa000c, 0, 5, .rwl, 0x0⟩

/-- FAB_BLOCK_BASE [9:5]. Block base in Y -/
def Reg.FAB_BLOCK_BASE.Y : Field := ⟨0xa000c, 5, 5, .rwl, 0x0⟩

/-- FAB_BLOCK_BASE [14:10]. Block base in Z -/
def Reg.FAB_BLOCK_BASE.Z : Field := ⟨0xa000c, 10, 5, .rwl, 0x0⟩

/-- FAB_BLOCK_SIZE [5:0]. Block size in X, 1–32 -/
def Reg.FAB_BLOCK_SIZE.SX : Field := ⟨0xa0010, 0, 6, .rwl, 0x1⟩

/-- FAB_BLOCK_SIZE [11:6]. Block size in Y -/
def Reg.FAB_BLOCK_SIZE.SY : Field := ⟨0xa0010, 6, 6, .rwl, 0x1⟩

/-- FAB_BLOCK_SIZE [17:12]. Block size in Z -/
def Reg.FAB_BLOCK_SIZE.SZ : Field := ⟨0xa0010, 12, 6, .rwl, 0x1⟩

/-- FAB_CFG [7:0]. Initial HOPS (R255); values below 96 act as 96 -/
def Reg.FAB_CFG.HOP_LIMIT : Field := ⟨0xa0014, 0, 8, .rwl, 0x60⟩

/-- FAB_CFG [15:8]. Longest wait for a tree port (R252) in ms; 0 acts as 1 -/
def Reg.FAB_CFG.TREE_WAIT_MS : Field := ⟨0xa0014, 8, 8, .rwl, 0xa⟩

/-- FAB_STATUS [0:0]. 1: job block invalid at lock (R249) -/
def Reg.FAB_STATUS.BLOCK_ERR : Field := ⟨0xa0018, 0, 1, .ro, 0x0⟩

/-- FAB_STATUS [6:1]. Bit d: torus direction d has no port in service -/
def Reg.FAB_STATUS.DIR_NONE : Field := ⟨0xa0018, 1, 6, .ro, 0x0⟩

/-- FAB_STATUS [7:7]. 1: no tree port in service -/
def Reg.FAB_STATUS.TREE_NONE : Field := ⟨0xa0018, 7, 1, .ro, 0x0⟩

/-- FAB_STATUS [8:8]. 1: the self entry was mended at lock or import (R247) -/
def Reg.FAB_STATUS.SELF_ERR : Field := ⟨0xa0018, 8, 1, .ro, 0x0⟩

/-- FAB_PORT_ROUTE [47:0]. Bit p: port p in service for routing (R251) -/
def Reg.FAB_PORT_ROUTE.IN_SERVICE : Field := ⟨0xa0020, 0, 48, .ro, 0x0⟩

/-- FAB_COORD_ERR [35:0]. Bit p: torus port p withdrawn for coordinate mismatch (R250) -/
def Reg.FAB_COORD_ERR.PORT : Field := ⟨0xa0028, 0, 36, .ro, 0x0⟩

/-- FAB_DROPS [15:0]. Packets discarded with no route or a bad header; saturates at 0xFFFF -/
def Reg.FAB_DROPS.NO_ROUTE : Field := ⟨0xa0030, 0, 16, .ro, 0x0⟩

/-- FAB_DROPS [31:16]. Packets discarded for a LOST destination (R262); saturates at 0xFFFF -/
def Reg.FAB_DROPS.LOST_DST : Field := ⟨0xa0030, 16, 16, .ro, 0x0⟩

/-- FAB_DROPS [47:32]. Packets discarded at HOPS = 0; saturates at 0xFFFF -/
def Reg.FAB_DROPS.HOP_LIMIT : Field := ⟨0xa0030, 32, 16, .ro, 0x0⟩

/-- FAB_DROPS [63:48]. Tree arrivals not for this device (R254); saturates at 0xFFFF -/
def Reg.FAB_DROPS.MISROUTED : Field := ⟨0xa0030, 48, 16, .ro, 0x0⟩

/-- FAB_MCAST [15:0]. Line multicasts sent by this device; saturates at 0xFFFF -/
def Reg.FAB_MCAST.ORIGINATED : Field := ⟨0xa0038, 0, 16, .ro, 0x0⟩

/-- FAB_MCAST [31:16]. Copies discarded for lack of a port (R260); saturates at 0xFFFF -/
def Reg.FAB_MCAST.CUT : Field := ⟨0xa0038, 16, 16, .ro, 0x0⟩

/-- FAB_PKTS [63:0]. Packets routed by the Midway router -/
def Reg.FAB_PKTS.COUNT : Field := ⟨0xa0040, 0, 64, .ro, 0x0⟩

/-- FAB_TREE_FALLBACK [63:0]. Packets for torus destinations sent on tree ports (R252) -/
def Reg.FAB_TREE_FALLBACK.COUNT : Field := ⟨0xa0048, 0, 64, .ro, 0x0⟩

/-- FAB_TAKEOVER [15:0]. Flat ID named by the last takeover notice applied or sent -/
def Reg.FAB_TAKEOVER.LAST_ID : Field := ⟨0xa0050, 0, 16, .ro, 0xffff⟩

/-- FAB_TAKEOVER [23:16]. Takeover notices applied (R265); saturates at 0xFF -/
def Reg.FAB_TAKEOVER.NOTICES : Field := ⟨0xa0050, 16, 8, .ro, 0x0⟩

/-- FAB_TAKEOVER [31:24]. Members that did not acknowledge the last notice sent (R264); saturates at 0xFF -/
def Reg.FAB_TAKEOVER.UNACKED : Field := ⟨0xa0050, 24, 8, .ro, 0x0⟩

/-- FAB_LOST [15:0]. Routing entries with LOST = 1 -/
def Reg.FAB_LOST.ENTRIES : Field := ⟨0xa0054, 0, 16, .ro, 0x0⟩

/-- FAB_ROUTE[i] [1:0]. 0b00 none; 0b01 torus; 0b10 tree; 0b11 self (R245); also changed by R263–R265 -/
def Reg.FAB_ROUTE.KIND (i : Nat) : Field := ⟨0x800000 + 0x8 * i, 0, 2, .rwl, 0x0⟩

/-- FAB_ROUTE[i] [6:2]. Torus X of flat ID i -/
def Reg.FAB_ROUTE.X (i : Nat) : Field := ⟨0x800000 + 0x8 * i, 2, 5, .rwl, 0x0⟩

/-- FAB_ROUTE[i] [11:7]. Torus Y -/
def Reg.FAB_ROUTE.Y (i : Nat) : Field := ⟨0x800000 + 0x8 * i, 7, 5, .rwl, 0x0⟩

/-- FAB_ROUTE[i] [16:12]. Torus Z -/
def Reg.FAB_ROUTE.Z (i : Nat) : Field := ⟨0x800000 + 0x8 * i, 12, 5, .rwl, 0x0⟩

/-- FAB_ROUTE[i] [17:17]. 1: member of the job (R264) -/
def Reg.FAB_ROUTE.JOB (i : Nat) : Field := ⟨0x800000 + 0x8 * i, 17, 1, .rwl, 0x0⟩

/-- FAB_ROUTE[i] [18:18]. 1: destination lost (R261) -/
def Reg.FAB_ROUTE.LOST (i : Nat) : Field := ⟨0x800000 + 0x8 * i, 18, 1, .ro, 0x0⟩

/-- FAB_ROUTE[i] [19:19]. 1: KIND changed by takeover -/
def Reg.FAB_ROUTE.MOVED (i : Nat) : Field := ⟨0x800000 + 0x8 * i, 19, 1, .ro, 0x0⟩

/-- CAR_CFG [1:0]. Chunk size of R284: 0b00 16 KiB; 0b01 32 KiB; 0b10 64 KiB; 0b11 acts as 0b10 -/
def Reg.CAR_CFG.CHUNK : Field := ⟨0xb0000, 0, 2, .rwl, 0x2⟩

/-- CAR_CFG [6:2]. Chunks granted and not consumed per slot (R286); 0 acts as 1, above 16 as 16 -/
def Reg.CAR_CFG.WINDOW : Field := ⟨0xb0000, 2, 5, .rwl, 0x8⟩

/-- CAR_STAGE_BASE [3:0]. Midway SRAM offset of the 32 MiB staging of R273, in 32 MiB units -/
def Reg.CAR_STAGE_BASE.BASE : Field := ⟨0xb0004, 0, 4, .rwl, 0x0⟩

/-- CAR_WATCHDOG [13:0]. Watchdog interval W of R289 in ms, as last set by SET_POLICY -/
def Reg.CAR_WATCHDOG.MS : Field := ⟨0xb0008, 0, 14, .ro, 0x64⟩

/-- CAR_SLOTS [15:0]. Bit i: slot i holds a collective -/
def Reg.CAR_SLOTS.BUSY : Field := ⟨0xb000c, 0, 16, .ro, 0x0⟩

/-- CAR_SLOTS [23:16]. Collectives in the queue; saturates at 0xFF -/
def Reg.CAR_SLOTS.QUEUED : Field := ⟨0xb000c, 16, 8, .ro, 0x0⟩

/-- CAR_COLLS [63:0]. Collectives completed, any status -/
def Reg.CAR_COLLS.COUNT : Field := ⟨0xb0010, 0, 64, .ro, 0x0⟩

/-- CAR_BYTES_OUT [63:0]. Data and scale bytes sent by Carousel -/
def Reg.CAR_BYTES_OUT.COUNT : Field := ⟨0xb0018, 0, 64, .ro, 0x0⟩

/-- CAR_BYTES_IN [63:0]. Data and scale bytes consumed by Carousel -/
def Reg.CAR_BYTES_IN.COUNT : Field := ⟨0xb0020, 0, 64, .ro, 0x0⟩

/-- CAR_OUTCOMES [7:0]. Collectives completed POISONED; saturates at 0xFF -/
def Reg.CAR_OUTCOMES.POISONED : Field := ⟨0xb0028, 0, 8, .ro, 0x0⟩

/-- CAR_OUTCOMES [15:8]. Completed TIMEOUT; saturates at 0xFF -/
def Reg.CAR_OUTCOMES.TIMEOUT : Field := ⟨0xb0028, 8, 8, .ro, 0x0⟩

/-- CAR_OUTCOMES [23:16]. Completed PEER_LOST; saturates at 0xFF -/
def Reg.CAR_OUTCOMES.PEER_LOST : Field := ⟨0xb0028, 16, 8, .ro, 0x0⟩

/-- CAR_OUTCOMES [31:24]. Failed by a check of R277; saturates at 0xFF -/
def Reg.CAR_OUTCOMES.EXCHANGE : Field := ⟨0xb0028, 24, 8, .ro, 0x0⟩

/-- CAR_CONV [31:0]. Values overflowed under R74 in Carousel conversions; saturates at 0xFFFF_FFFF -/
def Reg.CAR_CONV.OVF : Field := ⟨0xb0030, 0, 32, .ro, 0x0⟩

/-- CAR_CONV [63:32]. Non-finite source values met; saturates at 0xFFFF_FFFF -/
def Reg.CAR_CONV.NONFINITE : Field := ⟨0xb0030, 32, 32, .ro, 0x0⟩

/-- CAR_EARLY [8:0]. Early-arrival entries in use, 0–256 -/
def Reg.CAR_EARLY.USED : Field := ⟨0xb0038, 0, 9, .ro, 0x0⟩

/-- CAR_EARLY [31:16]. Packets discarded for a full table (R276); saturates at 0xFFFF -/
def Reg.CAR_EARLY.DROPPED : Field := ⟨0xb0038, 16, 16, .ro, 0x0⟩

/-- CAR_CHECK [15:0]. Chunk CRC mismatches found (R288); saturates at 0xFFFF -/
def Reg.CAR_CHECK.CRC_FAIL : Field := ⟨0xb003c, 0, 16, .ro, 0x0⟩

/-- CAR_CHECK [31:16]. Reducer residue errors; saturates at 0xFFFF -/
def Reg.CAR_CHECK.ADDER : Field := ⟨0xb003c, 16, 16, .ro, 0x0⟩

/-- CAR_GROUP_SPACE [20:0]. Free member storage of R267, in flat IDs -/
def Reg.CAR_GROUP_SPACE.FREE : Field := ⟨0xb0040, 0, 21, .ro, 0x100000⟩

/-- CAR_GROUP_SPACE [31:21]. Group entries defined, 0–1,024 -/
def Reg.CAR_GROUP_SPACE.GROUPS : Field := ⟨0xb0040, 21, 11, .ro, 0x0⟩

/-- CAR_SLOT_TAG[i] [31:0]. Tag of the collective in slot i -/
def Reg.CAR_SLOT_TAG.TAG (i : Nat) : Field := ⟨0xb0100 + 0x10 * i, 0, 32, .ro, 0x0⟩

/-- CAR_SLOT_STATE[i] [9:0]. Group of the collective -/
def Reg.CAR_SLOT_STATE.GROUP (i : Nat) : Field := ⟨0xb0104 + 0x10 * i, 0, 10, .ro, 0x0⟩

/-- CAR_SLOT_STATE[i] [12:10]. 0b000 free; 0b001 exchange; 0b010 fold; 0b011 halving or scatter; 0b100 doubling or gather to root; 0b101 unfold or extras; 0b110 ending after poison or abort; 0b111 reserved -/
def Reg.CAR_SLOT_STATE.PHASE (i : Nat) : Field := ⟨0xb0104 + 0x10 * i, 10, 3, .ro, 0x0⟩

/-- CAR_SLOT_STATE[i] [20:13]. Lowest round code with a transfer not yet complete -/
def Reg.CAR_SLOT_STATE.ROUND (i : Nat) : Field := ⟨0xb0104 + 0x10 * i, 13, 8, .ro, 0x0⟩

/-- CAR_SLOT_IDLE[i] [23:0]. µs since the collective's last progress (R289); saturates at 0xFF_FFFF -/
def Reg.CAR_SLOT_IDLE.IDLE_US (i : Nat) : Field := ⟨0xb0108 + 0x10 * i, 0, 24, .ro, 0x0⟩

/-- UPD_CFG [4:0]. Exponent of the instruction limit per block (R120); values below 12 act as 12, above 24 as 24 -/
def Reg.UPD_CFG.LIMIT_EXP : Field := ⟨0xc0000, 0, 5, .rwl, 0x10⟩

/-- UPD_AREA [4:0]. Midway SRAM offset of the update area (R302), in 16 MiB units -/
def Reg.UPD_AREA.BASE : Field := ⟨0xc0004, 0, 5, .rwl, 0x0⟩

/-- UPD_UNDO_BASE [39:0]. Device address of the undo area; bits [11:0] ignored -/
def Reg.UPD_UNDO_BASE.DA : Field := ⟨0xc0008, 0, 40, .rwl, 0x0⟩

/-- UPD_UNDO_LEN [39:0]. Undo area length in bytes -/
def Reg.UPD_UNDO_LEN.LEN : Field := ⟨0xc0010, 0, 40, .rwl, 0x0⟩

/-- UPD_CORES [63:0]. Bit c: update core c in service -/
def Reg.UPD_CORES.IN_SERVICE : Field := ⟨0xc0018, 0, 64, .ro, 0xffffffffffffffff⟩

/-- UPD_STATUS [12:0]. Bindings in force, 0–4,096 -/
def Reg.UPD_STATUS.BINDINGS : Field := ⟨0xc0020, 0, 13, .ro, 0x0⟩

/-- UPD_STATUS [14:13]. 0b00 idle; 0b01 updating; 0b10 committing; 0b11 rolling back -/
def Reg.UPD_STATUS.PHASE : Field := ⟨0xc0020, 13, 2, .ro, 0x0⟩

/-- UPD_STATUS [21:15]. Update cores in service -/
def Reg.UPD_STATUS.CORES : Field := ⟨0xc0020, 15, 7, .ro, 0x40⟩

/-- UPD_STATUS [28:22]. Staged descriptors of R295, 0–64 -/
def Reg.UPD_STATUS.STAGED : Field := ⟨0xc0020, 22, 7, .ro, 0x0⟩

/-- UPD_UNDO_USED [39:0]. Undo bytes written in the step in progress -/
def Reg.UPD_UNDO_USED.BYTES : Field := ⟨0xc0028, 0, 40, .ro, 0x0⟩

/-- UPD_UNDO_NEED [39:0]. Worst-case undo need of R306 -/
def Reg.UPD_UNDO_NEED.BYTES : Field := ⟨0xc0030, 0, 40, .ro, 0x0⟩

/-- UPD_BLOCKS [63:0]. Blocks updated by a program -/
def Reg.UPD_BLOCKS.COUNT : Field := ⟨0xc0038, 0, 64, .ro, 0x0⟩

/-- UPD_FROZEN [63:0]. Owned blocks skipped as frozen (R304) -/
def Reg.UPD_FROZEN.COUNT : Field := ⟨0xc0040, 0, 64, .ro, 0x0⟩

/-- UPD_STEPS [31:0]. Commits since reset; wraps at 2^32 -/
def Reg.UPD_STEPS.COMMITS : Field := ⟨0xc0048, 0, 32, .ro, 0x0⟩

/-- UPD_STEPS [47:32]. Rollbacks since reset; saturates at 0xFFFF -/
def Reg.UPD_STEPS.ROLLBACKS : Field := ⟨0xc0048, 32, 16, .ro, 0x0⟩

/-- UPD_STEPS [63:48]. Bindings DAMAGED (R309) -/
def Reg.UPD_STEPS.DAMAGED : Field := ⟨0xc0048, 48, 16, .ro, 0x0⟩

/-- UPD_FAULTS [7:0]. Update-core errors under R310; saturates at 0xFF -/
def Reg.UPD_FAULTS.CORE_FAULTS : Field := ⟨0xc0050, 0, 8, .ro, 0x0⟩

/-- UPD_FAULTS [15:8]. Update cores retired, 0–64 -/
def Reg.UPD_FAULTS.RETIRED : Field := ⟨0xc0050, 8, 8, .ro, 0x0⟩

/-- UPD_FAULTS [23:16]. Program stops with BAD_FIELD or TIMEOUT; saturates at 0xFF -/
def Reg.UPD_FAULTS.STOPS : Field := ⟨0xc0050, 16, 8, .ro, 0x0⟩

/-- UPD_FAULTS [31:24]. Records not restorable (R309); saturates at 0xFF -/
def Reg.UPD_FAULTS.UNDO_ERR : Field := ⟨0xc0050, 24, 8, .ro, 0x0⟩

/-- UPD_CONV [31:0]. Values overflowed in narrow conversions (R300); saturates at 0xFFFF_FFFF -/
def Reg.UPD_CONV.OVF : Field := ⟨0xc0058, 0, 32, .ro, 0x0⟩

/-- UPD_CONV [63:32]. Non-finite master values met; saturates at 0xFFFF_FFFF -/
def Reg.UPD_CONV.NONFINITE : Field := ⟨0xc0058, 32, 32, .ro, 0x0⟩

/-- UPD_FREEZE_SPACE [26:0]. Free freeze-map bits (R304) -/
def Reg.UPD_FREEZE_SPACE.FREE : Field := ⟨0xc0060, 0, 27, .ro, 0x4000000⟩

/-- MFB_CFG [0:0]. 1: the whole remote line cache is dropped at every step boundary (R326) -/
def Reg.MFB_CFG.INV_AT_STEP : Field := ⟨0xd0000, 0, 1, .rwl, 0x1⟩

/-- MFB_CFG [15:8]. Largest C0 window per home (R331), in packets; 0 acts as 1 -/
def Reg.MFB_CFG.WINDOW : Field := ⟨0xd0000, 8, 8, .rwl, 0x40⟩

/-- MFB_CFG [31:16]. Acknowledgement limit of R322 in ms; 0 acts as 1 -/
def Reg.MFB_CFG.RESP_MS : Field := ⟨0xd0000, 16, 16, .rwl, 0x14⟩

/-- MFB_RLC [2:0]. Midway SRAM offset of the cache, in 64 MiB units -/
def Reg.MFB_RLC.BASE : Field := ⟨0xd0004, 0, 3, .rwl, 0x7⟩

/-- MFB_RLC [3:3]. 1: GET_CACHED uses the cache (R325) -/
def Reg.MFB_RLC.ENABLE : Field := ⟨0xd0004, 3, 1, .rwl, 0x1⟩

/-- MFB_DOMAIN_BASE [4:0]. Domain base in X (R313) -/
def Reg.MFB_DOMAIN_BASE.X : Field := ⟨0xd0008, 0, 5, .rwl, 0x0⟩

/-- MFB_DOMAIN_BASE [9:5]. Domain base in Y -/
def Reg.MFB_DOMAIN_BASE.Y : Field := ⟨0xd0008, 5, 5, .rwl, 0x0⟩

/-- MFB_DOMAIN_BASE [14:10]. Domain base in Z -/
def Reg.MFB_DOMAIN_BASE.Z : Field := ⟨0xd0008, 10, 5, .rwl, 0x0⟩

/-- MFB_DOMAIN_SIZE [5:0]. Domain size in X, 1–32 -/
def Reg.MFB_DOMAIN_SIZE.SX : Field := ⟨0xd000c, 0, 6, .rwl, 0x1⟩

/-- MFB_DOMAIN_SIZE [11:6]. Domain size in Y -/
def Reg.MFB_DOMAIN_SIZE.SY : Field := ⟨0xd000c, 6, 6, .rwl, 0x1⟩

/-- MFB_DOMAIN_SIZE [17:12]. Domain size in Z -/
def Reg.MFB_DOMAIN_SIZE.SZ : Field := ⟨0xd000c, 12, 6, .rwl, 0x1⟩

/-- MFB_STATUS [0:0]. 1: domain invalid at lock (R313) -/
def Reg.MFB_STATUS.DOMAIN_ERR : Field := ⟨0xd0010, 0, 1, .ro, 0x0⟩

/-- MFB_STATUS [1:1]. 1: every result-table entry is younger than 10 ms (R328) -/
def Reg.MFB_STATUS.TABLE_FULL : Field := ⟨0xd0010, 1, 1, .ro, 0x0⟩

/-- MFB_OPS [63:0]. Memory-fabric operations completed by this device as source, any status -/
def Reg.MFB_OPS.COUNT : Field := ⟨0xd0018, 0, 64, .ro, 0x0⟩

/-- MFB_ATOMICS [31:0]. Atomics applied as home; wraps at 2^32 -/
def Reg.MFB_ATOMICS.APPLIED : Field := ⟨0xd0020, 0, 32, .ro, 0x0⟩

/-- MFB_ATOMICS [47:32]. Answered from the table with DUP = 1; saturates at 0xFFFF -/
def Reg.MFB_ATOMICS.DUPLICATES : Field := ⟨0xd0020, 32, 16, .ro, 0x0⟩

/-- MFB_ATOMICS [63:48]. Answered STALE; saturates at 0xFFFF -/
def Reg.MFB_ATOMICS.STALE : Field := ⟨0xd0020, 48, 16, .ro, 0x0⟩

/-- MFB_RLC_STATS [31:0]. Line hits; saturates at 0xFFFF_FFFF -/
def Reg.MFB_RLC_STATS.HITS : Field := ⟨0xd0028, 0, 32, .ro, 0x0⟩

/-- MFB_RLC_STATS [63:32]. Line fills; saturates at 0xFFFF_FFFF -/
def Reg.MFB_RLC_STATS.MISSES : Field := ⟨0xd0028, 32, 32, .ro, 0x0⟩

/-- MFB_ERRORS [7:0]. Requests answered ADDRESS as home; saturates at 0xFF -/
def Reg.MFB_ERRORS.ADDRESS : Field := ⟨0xd0030, 0, 8, .ro, 0x0⟩

/-- MFB_ERRORS [15:8]. Answered ACCESS; saturates at 0xFF -/
def Reg.MFB_ERRORS.ACCESS : Field := ⟨0xd0030, 8, 8, .ro, 0x0⟩

/-- MFB_ERRORS [23:16]. Answered LOST_CORE; saturates at 0xFF -/
def Reg.MFB_ERRORS.LOST_CORE : Field := ⟨0xd0030, 16, 8, .ro, 0x0⟩

/-- MFB_ERRORS [31:24]. Answered UNCORRECTABLE; saturates at 0xFF -/
def Reg.MFB_ERRORS.UNCORRECTABLE : Field := ⟨0xd0030, 24, 8, .ro, 0x0⟩

/-- MFB_SOURCE [11:0]. Atomics completed INDETERMINATE (R329); saturates at 0xFFF -/
def Reg.MFB_SOURCE.INDETERMINATE : Field := ⟨0xd0034, 0, 12, .ro, 0x0⟩

/-- MFB_SOURCE [23:12]. Operations completed TIMEOUT (R322); saturates at 0xFFF -/
def Reg.MFB_SOURCE.TIMEOUT : Field := ⟨0xd0034, 12, 12, .ro, 0x0⟩

/-- MFB_SOURCE [31:24]. Results discarded after completion; saturates at 0xFF -/
def Reg.MFB_SOURCE.LATE : Field := ⟨0xd0034, 24, 8, .ro, 0x0⟩

/-- MFB_THROTTLE [15:0]. Window halvings of R331; saturates at 0xFFFF -/
def Reg.MFB_THROTTLE.EVENTS : Field := ⟨0xd0038, 0, 16, .ro, 0x0⟩

/-- MFB_THROTTLE [24:16]. Deepest line queue seen as home (R330), 0–256 -/
def Reg.MFB_THROTTLE.MAX_QUEUE : Field := ⟨0xd0038, 16, 9, .ro, 0x0⟩

/-- MFB_TABLE [16:0]. Result-table entries in use, 0–65,536 -/
def Reg.MFB_TABLE.USED : Field := ⟨0xd003c, 0, 17, .ro, 0x0⟩

/-- MFB_TABLE [31:17]. Atomics held for a full table; saturates at 0x7FFF -/
def Reg.MFB_TABLE.FULL_STALLS : Field := ⟨0xd003c, 17, 15, .ro, 0x0⟩

/-- MFB_RING_BASE[r] [39:0]. Midway SRAM device address of core request ring r (R317); bits [11:0] ignored -/
def Reg.MFB_RING_BASE.DA (r : Nat) : Field := ⟨0xd0100 + 0x10 * r, 0, 40, .rwl, 0x0⟩

/-- MFB_RING_CFG[r] [3:0]. Entries = 2^value; below 4 acts as 4, above 12 as 12 -/
def Reg.MFB_RING_CFG.LOG2_SIZE (r : Nat) : Field := ⟨0xd0108 + 0x10 * r, 0, 4, .rwl, 0x4⟩

/-- MFB_RING_CFG[r] [4:4]. 1: ring in use -/
def Reg.MFB_RING_CFG.ENABLE (r : Nat) : Field := ⟨0xd0108 + 0x10 * r, 4, 1, .rwl, 0x0⟩

/-- MFB_RING_CFG[r] [31:16]. Event counter that counts descriptors placed -/
def Reg.MFB_RING_CFG.DB_EVENT (r : Nat) : Field := ⟨0xd0108 + 0x10 * r, 16, 16, .rwl, 0x0⟩

/-- MFB_RING_POS[r] [31:0]. Descriptors of ring r started, modulo 2^32 -/
def Reg.MFB_RING_POS.STARTED (r : Nat) : Field := ⟨0xd010c + 0x10 * r, 0, 32, .ro, 0x0⟩

/-- TGT_CFG [0:0]. 1: throttle records are written (R355) -/
def Reg.TGT_CFG.LOG_EN : Field := ⟨0x30000, 0, 1, .rwl, 0x1⟩

/-- TGT_CFG [1:1]. 1: band 3 asserts ALERT_N (R357) -/
def Reg.TGT_CFG.ALERT_BAND3 : Field := ⟨0x30000, 1, 1, .rwl, 0x1⟩

/-- TGT_STATUS [2:0]. Operating point 0–5 -/
def Reg.TGT_STATUS.OP : Field := ⟨0x30004, 0, 3, .ro, 0x0⟩

/-- TGT_STATUS [3:3]. 0 ESTIMATE; 1 MEASURED (R336) -/
def Reg.TGT_STATUS.MODEL_SRC : Field := ⟨0x30004, 3, 1, .ro, 0x0⟩

/-- TGT_STATUS [4:4]. 1: telemetry faulted -/
def Reg.TGT_STATUS.TELEM_FAULT : Field := ⟨0x30004, 4, 1, .ro, 0x0⟩

/-- TGT_STATUS [5:5]. 1: R348 in force -/
def Reg.TGT_STATUS.UNATTAINABLE : Field := ⟨0x30004, 5, 1, .ro, 0x0⟩

/-- TGT_STATUS [6:6]. 1: R343 in force -/
def Reg.TGT_STATUS.CRITICAL : Field := ⟨0x30004, 6, 1, .ro, 0x0⟩

/-- TGT_STATUS [7:7]. 1: ramp slowed (R345) -/
def Reg.TGT_STATUS.RAMP_SLOW : Field := ⟨0x30004, 7, 1, .ro, 0x0⟩

/-- TGT_STATUS [11:8]. Power band (R351) -/
def Reg.TGT_STATUS.POWER_BAND : Field := ⟨0x30004, 8, 4, .ro, 0x0⟩

/-- TGT_STATUS [13:12]. Midway band (R350) -/
def Reg.TGT_STATUS.MIDWAY_BAND : Field := ⟨0x30004, 12, 2, .ro, 0x0⟩

/-- TGT_STATUS [17:14]. Target ratio of R346 -/
def Reg.TGT_STATUS.TARGET : Field := ⟨0x30004, 14, 4, .ro, 0x0⟩

/-- TGT_STATUS [18:18]. 1: an operating-point change is in progress -/
def Reg.TGT_STATUS.OP_CHANGING : Field := ⟨0x30004, 18, 1, .ro, 0x0⟩

/-- TGT_CAP [11:0]. Cap in force in W, set by SET_CAP (R349) -/
def Reg.TGT_CAP.CAP_W : Field := ⟨0x30008, 0, 12, .ro, 0xc80⟩

/-- TGT_POWER [15:0]. M of the last sample in W; 0 if implausible -/
def Reg.TGT_POWER.MEAS_W : Field := ⟨0x3000c, 0, 16, .ro, 0x0⟩

/-- TGT_POWER [31:16]. E of the last sample in W -/
def Reg.TGT_POWER.EST_W : Field := ⟨0x3000c, 16, 16, .ro, 0x0⟩

/-- TGT_FLOOR [15:0]. Last floor power measured by R348, in W -/
def Reg.TGT_FLOOR.FLOOR_W : Field := ⟨0x30010, 0, 16, .ro, 0x0⟩

/-- TGT_ENERGY [63:0]. Package energy since reset in µJ (R356) -/
def Reg.TGT_ENERGY.UJ : Field := ⟨0x30018, 0, 64, .ro, 0x0⟩

/-- TGT_REASON [8:0]. Bit i: reason i of R354 in force -/
def Reg.TGT_REASON.IN_FORCE : Field := ⟨0x30020, 0, 9, .ro, 0x0⟩

/-- TGT_ALERT [0:0]. R348 in force -/
def Reg.TGT_ALERT.UNATTAINABLE : Field := ⟨0x30024, 0, 1, .ro, 0x0⟩

/-- TGT_ALERT [1:1]. Telemetry faulted -/
def Reg.TGT_ALERT.TELEM : Field := ⟨0x30024, 1, 1, .ro, 0x0⟩

/-- TGT_ALERT [2:2]. R343 in force -/
def Reg.TGT_ALERT.CRITICAL : Field := ⟨0x30024, 2, 1, .ro, 0x0⟩

/-- TGT_ALERT [3:3]. A tower in band 3 and ALERT_BAND3 = 1 -/
def Reg.TGT_ALERT.DRAM_BAND3 : Field := ⟨0x30024, 3, 1, .ro, 0x0⟩

/-- TGT_ALERT [4:4]. Reference deviation of R34 beyond CLK_REF_TOL -/
def Reg.TGT_ALERT.REF_DEV : Field := ⟨0x30024, 4, 1, .ro, 0x0⟩

/-- TGT_TELEM [15:0]. Seconds of the present faulted stretch; 0 when good; saturates at 0xFFFF -/
def Reg.TGT_TELEM.FAULT_S : Field := ⟨0x30028, 0, 16, .ro, 0x0⟩

/-- TGT_TELEM [31:16]. Entries into telemetry faulted since reset; saturates at 0xFFFF -/
def Reg.TGT_TELEM.FAULTS : Field := ⟨0x30028, 16, 16, .ro, 0x0⟩

/-- TGT_EVENTS [7:0]. DISAGREE records since reset; saturates at 0xFF -/
def Reg.TGT_EVENTS.DISAGREE : Field := ⟨0x3002c, 0, 8, .ro, 0x0⟩

/-- TGT_EVENTS [15:8]. Emergency holds started; saturates at 0xFF -/
def Reg.TGT_EVENTS.EMERGENCY : Field := ⟨0x3002c, 8, 8, .ro, 0x0⟩

/-- TGT_EVENTS [23:16]. Critical actions; saturates at 0xFF -/
def Reg.TGT_EVENTS.CRITICAL : Field := ⟨0x3002c, 16, 8, .ro, 0x0⟩

/-- TGT_EVENTS [31:24]. Entries into R348; saturates at 0xFF -/
def Reg.TGT_EVENTS.UNATTAINABLE : Field := ⟨0x3002c, 24, 8, .ro, 0x0⟩

/-- TGT_LOG_BASE [16:0]. Midway SRAM offset of the throttle log, in 4 KiB units (R355) -/
def Reg.TGT_LOG_BASE.BASE : Field := ⟨0x30030, 0, 17, .rwl, 0x0⟩

/-- TGT_LOG_HEAD [31:0]. Throttle records written; the last is at entry (COUNT − 1) mod 128 -/
def Reg.TGT_LOG_HEAD.COUNT : Field := ⟨0x30034, 0, 32, .ro, 0x0⟩

/-- TGT_DUR[i] [63:0]. µs during which reason i of R354 was in force -/
def Reg.TGT_DUR.US (i : Nat) : Field := ⟨0x30100 + 0x8 * i, 0, 64, .ro, 0x0⟩

/-- TGT_TEMP[t] [7:0]. Hottest modelled logic node of tower t, °C, guard excluded -/
def Reg.TGT_TEMP.LOGIC (t : Nat) : Field := ⟨0x30200 + 0x4 * t, 0, 8, .ro, 0x0⟩

/-- TGT_TEMP[t] [15:8]. Hottest modelled DRAM node, °C, guard excluded -/
def Reg.TGT_TEMP.DRAM (t : Nat) : Field := ⟨0x30200 + 0x4 * t, 8, 8, .ro, 0x0⟩

/-- TGT_TEMP[t] [23:16]. Largest node rate of the tower, two's complement, °C/ms -/
def Reg.TGT_TEMP.RATE (t : Nat) : Field := ⟨0x30200 + 0x4 * t, 16, 8, .ro, 0x0⟩

/-- TGT_TEMP[t] [25:24]. Tower band (R350) -/
def Reg.TGT_TEMP.BAND (t : Nat) : Field := ⟨0x30200 + 0x4 * t, 24, 2, .ro, 0x0⟩

/-- TGT_MIDWAY [7:0]. Hottest modelled Midway node, °C -/
def Reg.TGT_MIDWAY.MIDWAY : Field := ⟨0x30220, 0, 8, .ro, 0x0⟩

/-- TGT_MIDWAY [15:8]. Hottest modelled engine node, °C -/
def Reg.TGT_MIDWAY.ENGINE : Field := ⟨0x30220, 8, 8, .ro, 0x0⟩

/-- TGT_MODEL_REC[i] [3:0]. Power band of the record (R351) -/
def Reg.TGT_MODEL_REC.POWER_BAND (i : Nat) : Field := ⟨0x30240 + 0x4 * i, 0, 4, .ro, 0x0⟩

/-- TGT_MODEL_REC[i] [4:4]. 1: the 5 °C guard of R352 is applied -/
def Reg.TGT_MODEL_REC.GUARD (i : Nat) : Field := ⟨0x30240 + 0x4 * i, 4, 1, .ro, 0x0⟩

/-- TGT_MODEL_REC[i] [5:5]. 1: refit due at the next step gap -/
def Reg.TGT_MODEL_REC.REFIT_DUE (i : Nat) : Field := ⟨0x30240 + 0x4 * i, 5, 1, .ro, 0x0⟩

/-- TGT_MODEL_REC[i] [25:6]. Seconds since installation; saturates at 0xF_FFFF -/
def Reg.TGT_MODEL_REC.AGE_S (i : Nat) : Field := ⟨0x30240 + 0x4 * i, 6, 20, .ro, 0x0⟩

/-- STP_CFG [11:0]. Longest step gap of R368 in µs; 0 acts as 1 -/
def Reg.STP_CFG.GAP_MAX_US : Field := ⟨0xe0000, 0, 12, .rwl, 0x64⟩

/-- STP_CFG [19:12]. Committed steps per skew report (R370); 0 acts as 1 -/
def Reg.STP_CFG.SKEW_STEPS : Field := ⟨0xe0000, 12, 8, .rwl, 0x40⟩

/-- STP_STATUS [2:0]. 0b000 no step; 0b001 open; 0b010 arrived; 0b011 committing; 0b100 rolling back; 0b101 sync wait; 0b110 gap; 0b111 reserved -/
def Reg.STP_STATUS.PHASE : Field := ⟨0xe0004, 0, 3, .ro, 0x0⟩

/-- STP_STATUS [3:3]. 1: step marked failed (R361) -/
def Reg.STP_STATUS.FAILED : Field := ⟨0xe0004, 3, 1, .ro, 0x0⟩

/-- STP_STATUS [5:4]. 0b00 FREE; 0b01 LOCKING; 0b10 LOCKED; 0b11 HOLDOVER -/
def Reg.STP_STATUS.TIME_STATE : Field := ⟨0xe0004, 4, 2, .ro, 0x0⟩

/-- STP_STEP [31:0]. Number of the step in progress -/
def Reg.STP_STEP.STEP : Field := ⟨0xe0008, 0, 32, .ro, 0x0⟩

/-- STP_ENDS [31:0]. Steps committed; wraps at 2^32 -/
def Reg.STP_ENDS.COMMITS : Field := ⟨0xe0010, 0, 32, .ro, 0x0⟩

/-- STP_ENDS [47:32]. Steps rolled back at release; saturates at 0xFFFF -/
def Reg.STP_ENDS.ROLLBACKS : Field := ⟨0xe0010, 32, 16, .ro, 0x0⟩

/-- STP_ENDS [63:48]. Steps ended by R369; saturates at 0xFFFF -/
def Reg.STP_ENDS.TIMED : Field := ⟨0xe0010, 48, 16, .ro, 0x0⟩

/-- STP_TIME [63:0]. Fabric time counter (R371) -/
def Reg.STP_TIME.COUNT : Field := ⟨0xe0018, 0, 64, .ro, 0x0⟩

/-- STP_BOUNDARY [63:0]. Fabric time of the last boundary -/
def Reg.STP_BOUNDARY.TIME : Field := ⟨0xe0020, 0, 64, .ro, 0x0⟩

/-- STP_TIME_CFG [0:0]. 1: time root -/
def Reg.STP_TIME_CFG.ROOT : Field := ⟨0xe0028, 0, 1, .rwl, 0x0⟩

/-- STP_TIME_CFG [6:1]. Parent torus port 0–35; above 35 none -/
def Reg.STP_TIME_CFG.PARENT : Field := ⟨0xe0028, 1, 6, .rwl, 0x3f⟩

/-- STP_TIME_CFG [12:7]. Alternate torus port; above 35 none -/
def Reg.STP_TIME_CFG.ALT : Field := ⟨0xe0028, 7, 6, .rwl, 0x3f⟩

/-- STP_TIME_OFFSET [15:0]. Last offset of R371, two's complement, 0.125 ns units; saturates -/
def Reg.STP_TIME_OFFSET.OFFSET : Field := ⟨0xe002c, 0, 16, .ro, 0x0⟩

/-- STP_TIME_OFFSET [31:16]. Rate trim, two's complement, 0.01 ppm units -/
def Reg.STP_TIME_OFFSET.TRIM : Field := ⟨0xe002c, 16, 16, .ro, 0x0⟩

/-- STP_SKEW [15:0]. Skew of the last committed step in units of 10 ns; saturates at 0xFFFF -/
def Reg.STP_SKEW.LAST_NS : Field := ⟨0xe0030, 0, 16, .ro, 0x0⟩

/-- STP_SKEW [31:16]. Spread of that step in units of 10 ns; saturates at 0xFFFF -/
def Reg.STP_SKEW.SPREAD_NS : Field := ⟨0xe0030, 16, 16, .ro, 0x0⟩

/-- STP_SYNC [15:0]. Boundaries set by an edge in the window (R366); saturates at 0xFFFF -/
def Reg.STP_SYNC.HIT : Field := ⟨0xe0034, 0, 16, .ro, 0x0⟩

/-- STP_SYNC [23:16]. Windows without an edge; saturates at 0xFF -/
def Reg.STP_SYNC.MISS : Field := ⟨0xe0034, 16, 8, .ro, 0x0⟩

/-- STP_SYNC [31:24]. Edges outside every window; saturates at 0xFF -/
def Reg.STP_SYNC.STRAY : Field := ⟨0xe0034, 24, 8, .ro, 0x0⟩

/-- STP_BAR [15:0]. LAST_RANK of the last release -/
def Reg.STP_BAR.LAST_RANK : Field := ⟨0xe0038, 0, 16, .ro, 0x0⟩

/-- STP_BAR [23:16]. Barrier records discarded by R364; saturates at 0xFF -/
def Reg.STP_BAR.STRAY : Field := ⟨0xe0038, 16, 8, .ro, 0x0⟩

/-- FLT_CFG [7:0]. Notice hold time of R386 in s; 0 acts as 1 -/
def Reg.FLT_CFG.HOLD_S : Field := ⟨0xf0000, 0, 8, .rwl, 0xa⟩

/-- FLT_CFG [15:8]. Wait limit of R396 in s; 0 acts as 1 -/
def Reg.FLT_CFG.HANDOVER_WAIT_S : Field := ⟨0xf0000, 8, 8, .rwl, 0xa⟩

/-- FLT_REASON [8:0]. Bit i: reason i of R375 set -/
def Reg.FLT_REASON.REASONS : Field := ⟨0xf0004, 0, 9, .ro, 0x0⟩

/-- FLT_LOG_BASE [14:0]. Midway SRAM offset of the log of R383, in 16 KiB units -/
def Reg.FLT_LOG_BASE.BASE : Field := ⟨0xf0008, 0, 15, .rwl, 0x0⟩

/-- FLT_LOG_HEAD [31:0]. Log entries written; the last is at entry (COUNT − 1) mod 512 -/
def Reg.FLT_LOG_HEAD.COUNT : Field := ⟨0xf000c, 0, 32, .ro, 0x0⟩

/-- FLT_MGMT_STATUS [0:0]. 1: management link up -/
def Reg.FLT_MGMT_STATUS.LINK_UP : Field := ⟨0xf0010, 0, 1, .ro, 0x0⟩

/-- FLT_MGMT_STATUS [13:1]. Entries in the queue of R391, 0–4,096 -/
def Reg.FLT_MGMT_STATUS.QUEUED : Field := ⟨0xf0010, 1, 13, .ro, 0x0⟩

/-- FLT_MGMT_STATUS [31:16]. Entries dropped; saturates at 0xFFFF -/
def Reg.FLT_MGMT_STATUS.DROPPED : Field := ⟨0xf0010, 16, 16, .ro, 0x0⟩

/-- FLT_MGMT_CMDS [15:0]. Commands answered OK; saturates at 0xFFFF -/
def Reg.FLT_MGMT_CMDS.ACCEPTED : Field := ⟨0xf0014, 0, 16, .ro, 0x0⟩

/-- FLT_MGMT_CMDS [31:16]. Messages with a bad tag, and commands not answered OK; saturates at 0xFFFF -/
def Reg.FLT_MGMT_CMDS.REJECTED : Field := ⟨0xf0014, 16, 16, .ro, 0x0⟩

/-- FLT_MGMT_REQ [3:0]. Request code of R393 -/
def Reg.FLT_MGMT_REQ.CODE : Field := ⟨0xf0018, 0, 4, .ro, 0x0⟩

/-- FLT_MGMT_REQ [15:15]. 1: request pending -/
def Reg.FLT_MGMT_REQ.VALID : Field := ⟨0xf0018, 15, 1, .w1c, 0x0⟩

/-- FLT_MGMT_REQ [31:16]. Argument A -/
def Reg.FLT_MGMT_REQ.A : Field := ⟨0xf0018, 16, 16, .ro, 0x0⟩

/-- FLT_MGMT_REQ [47:32]. Argument B -/
def Reg.FLT_MGMT_REQ.B : Field := ⟨0xf0018, 32, 16, .ro, 0x0⟩

/-- FLT_HANDOVER [1:0]. 0b00 none; 0b01 export; 0b10 import; 0b11 reserved -/
def Reg.FLT_HANDOVER.ROLE : Field := ⟨0xf0020, 0, 2, .ro, 0x0⟩

/-- FLT_HANDOVER [4:2]. 0b000 idle; 0b001 manifest; 0b010 copy; 0b011 takeover; 0b100 ended; others reserved -/
def Reg.FLT_HANDOVER.PHASE : Field := ⟨0xf0020, 2, 3, .ro, 0x0⟩

/-- FLT_HANDOVER [12:5]. Logical cores LOST by R397 in the last handover -/
def Reg.FLT_HANDOVER.LOST_CORES : Field := ⟨0xf0020, 5, 8, .ro, 0x0⟩

/-- FLT_HANDOVER [63:32]. Units verified in the present or last handover -/
def Reg.FLT_HANDOVER.UNITS : Field := ⟨0xf0020, 32, 32, .ro, 0x0⟩

/-- FLT_SUSPECT[i] [15:0]. Suspect flat ID -/
def Reg.FLT_SUSPECT.FLAT_ID (i : Nat) : Field := ⟨0xf0100 + 0x8 * i, 0, 16, .ro, 0x0⟩

/-- FLT_SUSPECT[i] [19:16]. First cause of R384 -/
def Reg.FLT_SUSPECT.CAUSE (i : Nat) : Field := ⟨0xf0100 + 0x8 * i, 16, 4, .ro, 0x0⟩

/-- FLT_SUSPECT[i] [20:20]. 1: this device is an origin for the suspect -/
def Reg.FLT_SUSPECT.ORIGIN (i : Nat) : Field := ⟨0xf0100 + 0x8 * i, 20, 1, .ro, 0x0⟩

/-- FLT_SUSPECT[i] [21:21]. 1: entry in use -/
def Reg.FLT_SUSPECT.VALID (i : Nat) : Field := ⟨0xf0100 + 0x8 * i, 21, 1, .ro, 0x0⟩

/-- FLT_SUSPECT[i] [63:32]. Sightings; saturates at 0xFFFF_FFFF -/
def Reg.FLT_SUSPECT.COUNT (i : Nat) : Field := ⟨0xf0100 + 0x8 * i, 32, 32, .ro, 0x0⟩

/-- SEC_STATUS [0:0]. 1: the running firmware passed R405 -/
def Reg.SEC_STATUS.IMAGE_OK : Field := ⟨0x100000, 0, 1, .ro, 0x0⟩

/-- SEC_STATUS [1:1]. 1: the chosen Act had a valid copy -/
def Reg.SEC_STATUS.ACT_VALID : Field := ⟨0x100000, 1, 1, .ro, 0x0⟩

/-- SEC_STATUS [3:2]. Act chosen in BOOT -/
def Reg.SEC_STATUS.ACT : Field := ⟨0x100000, 2, 2, .ro, 0x0⟩

/-- SEC_STATUS [4:4]. 1: chosen by SEC_ACT_NEXT; 0: by PROFILE_SEL -/
def Reg.SEC_STATUS.ACT_FROM_SELECT : Field := ⟨0x100000, 4, 1, .ro, 0x0⟩

/-- SEC_STATUS [8:5]. Cause of R403 for the last entry to RECOVERY -/
def Reg.SEC_STATUS.BOOT_CAUSE : Field := ⟨0x100000, 5, 4, .ro, 0x0⟩

/-- SEC_STATUS [10:9]. Slot of the running image -/
def Reg.SEC_STATUS.KEY_SLOT : Field := ⟨0x100000, 9, 2, .ro, 0x0⟩

/-- SEC_STATUS [16:11]. SVN of the running image -/
def Reg.SEC_STATUS.SVN : Field := ⟨0x100000, 11, 6, .ro, 0x0⟩

/-- SEC_FUSE [5:0]. Fused security version (R406) -/
def Reg.SEC_FUSE.FUSED_SVN : Field := ⟨0x100004, 0, 6, .ro, 0x0⟩

/-- SEC_FUSE [9:6]. Bit s: key slot s revoked -/
def Reg.SEC_FUSE.REVOKED : Field := ⟨0x100004, 6, 4, .ro, 0x0⟩

/-- SEC_FUSE [10:10]. 1: fuses are being blown by R406 -/
def Reg.SEC_FUSE.ADVANCE_PENDING : Field := ⟨0x100004, 10, 1, .ro, 0x0⟩

/-- SEC_DEVICE_ID_LO [63:0]. DEVICE_ID[63:0] -/
def Reg.SEC_DEVICE_ID_LO.ID : Field := ⟨0x100008, 0, 64, .ro, 0x0⟩

/-- SEC_DEVICE_ID_HI [63:0]. DEVICE_ID[127:64] -/
def Reg.SEC_DEVICE_ID_HI.ID : Field := ⟨0x100010, 0, 64, .ro, 0x0⟩

/-- SEC_BUILD [31:0]. BUILD of the running image -/
def Reg.SEC_BUILD.BUILD : Field := ⟨0x100018, 0, 32, .ro, 0x0⟩

/-- SEC_IMAGE_DIGEST[i] [31:0]. Bytes 4i to 4i + 3 of IMAGE_DIGEST (R418), little-endian -/
def Reg.SEC_IMAGE_DIGEST.DIGEST (i : Nat) : Field := ⟨0x100020 + 0x4 * i, 0, 32, .ro, 0x0⟩

/-- SEC_STAGE_BASE [4:0]. Midway SRAM offset of the staging buffer (R409), in 16 MiB units -/
def Reg.SEC_STAGE_BASE.BASE : Field := ⟨0x100040, 0, 5, .rwl, 0x1b⟩

/-- SEC_COMMIT [0:0]. 1: a committed package awaits reset -/
def Reg.SEC_COMMIT.PENDING : Field := ⟨0x100044, 0, 1, .ro, 0x0⟩

/-- SEC_COMMIT [1:1]. Last package: 0 firmware, 1 Act -/
def Reg.SEC_COMMIT.KIND : Field := ⟨0x100044, 1, 1, .ro, 0x0⟩

/-- SEC_COMMIT [5:2]. Cause of R403 for the last commit or recovery programming -/
def Reg.SEC_COMMIT.CAUSE : Field := ⟨0x100044, 2, 4, .ro, 0x0⟩

/-- SEC_COMMIT [7:6]. 0b00 none; 0b01 accepted; 0b10 rejected; 0b11 flash failed -/
def Reg.SEC_COMMIT.RESULT : Field := ⟨0x100044, 6, 2, .ro, 0x0⟩

/-- SEC_ACT_NEXT [1:0]. Act set by ACT_SELECT (R415); kept across reset, cleared at power-on -/
def Reg.SEC_ACT_NEXT.ACT : Field := ⟨0x100048, 0, 2, .ro, 0x0⟩

/-- SEC_ACT_NEXT [2:2]. 1: ACT is used at the next reset -/
def Reg.SEC_ACT_NEXT.VALID : Field := ⟨0x100048, 2, 1, .ro, 0x0⟩

/-- SEC_ACT_NEXT [4:3]. PROFILE_SEL[1:0] sampled at the last reset release -/
def Reg.SEC_ACT_NEXT.PINS : Field := ⟨0x100048, 3, 2, .ro, 0x0⟩

/-- SEC_ACT_GEN[a] [31:0]. GENERATION of Act a in force; 0 with no valid copy -/
def Reg.SEC_ACT_GEN.GENERATION (a : Nat) : Field := ⟨0x100050 + 0x4 * a, 0, 32, .ro, 0x0⟩

/-- SEC_RCV_LEN [23:0]. Image length for recovery programming (R408); writes outside RECOVERY are ignored -/
def Reg.SEC_RCV_LEN.LEN : Field := ⟨0x100060, 0, 24, .rw, 0x0⟩

/-- SEC_RCV_CTRL [1:0]. 0b01 program; 0b10 reset; other values ignored; ignored outside RECOVERY -/
def Reg.SEC_RCV_CTRL.CMD : Field := ⟨0x100064, 0, 2, .wo, 0x0⟩

/-- SEC_RCV_CTRL [4:2]. 0b000 idle; 0b001 busy; 0b010 done; 0b011 rejected; 0b100 flash failed -/
def Reg.SEC_RCV_CTRL.STATUS : Field := ⟨0x100064, 2, 3, .ro, 0x0⟩

/-- SEC_ATTESTS [15:0]. Reports signed since reset; saturates at 0xFFFF -/
def Reg.SEC_ATTESTS.COUNT : Field := ⟨0x100068, 0, 16, .ro, 0x0⟩

/-- SEC_BOOT_MS [15:0]. Duration of the last BOOT in ms, from reset release to READY -/
def Reg.SEC_BOOT_MS.MS : Field := ⟨0x10006c, 0, 16, .ro, 0x0⟩

/-- DBG_CTRL [0:0]. 1: DBG_OBS and DBG_OBS_CLK driven (R437) -/
def Reg.DBG_CTRL.ENABLE : Field := ⟨0x120000, 0, 1, .rw, 0x0⟩

/-- DBG_CTRL [2:1]. DBG_OBS_CLK = 800 MHz / 2^(CLK_DIV + 2) -/
def Reg.DBG_CTRL.CLK_DIV : Field := ⟨0x120000, 1, 2, .rw, 0x0⟩

/-- DBG_SEL [7:0]. Observation group (R437, R438) -/
def Reg.DBG_SEL.GROUP : Field := ⟨0x120004, 0, 8, .rw, 0x0⟩

/-- DBG_SEL [15:8]. Unit within the group -/
def Reg.DBG_SEL.UNIT : Field := ⟨0x120004, 8, 8, .rw, 0x0⟩

/-- DBG_POLICY [0:0]. 1: restricted groups selectable -/
def Reg.DBG_POLICY.RESTRICTED : Field := ⟨0x120008, 0, 1, .ro, 0x0⟩

/-- DBG_POLICY [1:1]. 1: JTAG instructions beyond R436's list available -/
def Reg.DBG_POLICY.JTAG_PRIVATE : Field := ⟨0x120008, 1, 1, .ro, 0x0⟩

/-- DBG_IDCODE [0:0]. Always 1 -/
def Reg.DBG_IDCODE.ONE : Field := ⟨0x12000c, 0, 1, .ro, 0x1⟩

/-- DBG_IDCODE [11:1]. Amfehus JEDEC manufacturer identity -/
def Reg.DBG_IDCODE.MFR : Field := ⟨0x12000c, 1, 11, .ro, 0x0⟩

/-- DBG_IDCODE [27:12]. Part number -/
def Reg.DBG_IDCODE.PART : Field := ⟨0x12000c, 12, 16, .ro, 0xc28a⟩

/-- DBG_IDCODE [31:28]. Silicon version; the JTAG IDCODE holds the same value -/
def Reg.DBG_IDCODE.VERSION : Field := ⟨0x12000c, 28, 4, .ro, 0x0⟩

/-- DBG_RAIL_FAULT [15:0]. Bit n: rail n of R426 outside its window at ROM start (R430) -/
def Reg.DBG_RAIL_FAULT.RAIL : Field := ⟨0x120010, 0, 16, .w1c, 0x0⟩

/-- GLB_ID [15:0]. PCI Device ID (R171) -/
def Reg.GLB_ID.DEVICE : Field := ⟨0x0, 0, 16, .ro, 0xc28⟩

/-- GLB_ID [19:16]. Silicon version, as DBG_IDCODE.VERSION -/
def Reg.GLB_ID.VERSION : Field := ⟨0x0, 16, 4, .ro, 0x0⟩

/-- GLB_STATE [3:0]. Device state (R443); reads 0x1 from the first read possible after reset -/
def Reg.GLB_STATE.STATE : Field := ⟨0x4, 0, 4, .ro, 0x1⟩

/-- GLB_STATE [4:4]. Flag of R7 -/
def Reg.GLB_STATE.DEGRADED : Field := ⟨0x4, 4, 1, .ro, 0x0⟩

/-- GLB_STATE [5:5]. Flag of R7; reason bits in FLT_REASON -/
def Reg.GLB_STATE.REPLACE_REQUESTED : Field := ⟨0x4, 5, 1, .ro, 0x0⟩

/-- GLB_STATE [6:6]. 1: set-up registers locked -/
def Reg.GLB_STATE.LOCKED : Field := ⟨0x4, 6, 1, .ro, 0x0⟩

/-- GLB_STATE_CHANGE [0:0]. 1: the device state changed since last cleared -/
def Reg.GLB_STATE_CHANGE.STATE : Field := ⟨0x8, 0, 1, .w1c, 0x0⟩

/-- GLB_STATE_CHANGE [1:1]. 1: a flag or reason bit changed -/
def Reg.GLB_STATE_CHANGE.FLAGS : Field := ⟨0x8, 1, 1, .w1c, 0x0⟩

/-- GLB_STATE_CHANGE [2:2]. 1: a fault record was written -/
def Reg.GLB_STATE_CHANGE.RECORD : Field := ⟨0x8, 2, 1, .w1c, 0x0⟩

/-- GLB_STATE_CHANGE [3:3]. 1: a management request arrived (R393) -/
def Reg.GLB_STATE_CHANGE.REQUEST : Field := ⟨0x8, 3, 1, .w1c, 0x0⟩

/-- GLB_SETUP_LOCK [31:0]. Writing 0x4C4F_434B requests the lock of R444; any other value is ignored -/
def Reg.GLB_SETUP_LOCK.KEY : Field := ⟨0xc, 0, 32, .wo, 0x0⟩

/-- GLB_ACT [1:0]. Act used in BOOT, as SEC_STATUS.ACT -/
def Reg.GLB_ACT.ACT : Field := ⟨0x10, 0, 2, .ro, 0x0⟩

/-- GLB_ACT [2:2]. 1: that Act had a valid copy -/
def Reg.GLB_ACT.VALID : Field := ⟨0x10, 2, 1, .ro, 0x0⟩

/-- GLB_ACT [11:3]. Presets written at the end of BOOT (R416), 0–320 -/
def Reg.GLB_ACT.PRESETS : Field := ⟨0x10, 3, 9, .ro, 0x0⟩

/-- GLB_LOCK_CHECK [0:0]. 1: the last lock request was refused by R445 -/
def Reg.GLB_LOCK_CHECK.REFUSED : Field := ⟨0x14, 0, 1, .ro, 0x0⟩

/-- GLB_LOCK_CHECK [15:8]. Bit a: area a of R445 took part in an overlap at the last request; for a = 7, also set when an enabled ring lay outside Midway SRAM -/
def Reg.GLB_LOCK_CHECK.AREAS : Field := ⟨0x14, 8, 8, .ro, 0x0⟩

/-- GLB_LOCK_CHECK [31:16]. Writes to RWL fields ignored after lock; saturates at 0xFFFF -/
def Reg.GLB_LOCK_CHECK.IGNORED : Field := ⟨0x14, 16, 16, .ro, 0x0⟩

/-- GLB_LOCK_TIME [63:0]. Fabric time at which the lock took effect -/
def Reg.GLB_LOCK_TIME.TIME : Field := ⟨0x18, 0, 64, .ro, 0x0⟩

/-- The registers of block CLK. -/
def Reg.rowsClk : List RegRow :=
  [⟨0x40000, 0x0, 1, false, [Reg.CLK_STATUS.ROOT_LOCK, Reg.CLK_STATUS.TWR_LOCK, Reg.CLK_STATUS.ENG_LOCK, Reg.CLK_STATUS.CORE_DIV]⟩,
   ⟨0x40004, 0x0, 1, false, [Reg.CLK_LOCK_LOSS.ROOT, Reg.CLK_LOCK_LOSS.TWR, Reg.CLK_LOCK_LOSS.ENG]⟩,
   ⟨0x40008, 0x0, 1, false, [Reg.CLK_REF_DEV.DEV]⟩,
   ⟨0x4000c, 0x0, 1, false, [Reg.CLK_REF_TOL.TOL]⟩,
   ⟨0x40010, 0x0, 1, false, [Reg.CLK_DIV_CHANGES.COUNT]⟩]

/-- The registers of block D2D. -/
def Reg.rowsD2d : List RegRow :=
  [⟨0x110000, 0x0, 1, false, [Reg.D2D_CTRL.RETRY_LIMIT, Reg.D2D_CTRL.RATE_LIMIT]⟩,
   ⟨0x110004, 0x0, 1, false, [Reg.D2D_STRAP.HUB, Reg.D2D_STRAP.POS, Reg.D2D_STRAP.TWR_POS]⟩,
   ⟨0x110008, 0x0, 1, false, [Reg.D2D_BUNDLE_DOWN.LINK]⟩,
   ⟨0x110100, 0x4, 20, false, [Reg.D2D_LINK_STATUS.BUNDLE_UP 0, Reg.D2D_LINK_STATUS.UP_COUNT 0, Reg.D2D_LINK_STATUS.STATE 0, Reg.D2D_LINK_STATUS.RETRAINING 0]⟩,
   ⟨0x111000, 0x4, 320, false, [Reg.D2D_LANE_MAP.SPARE0 0 0, Reg.D2D_LANE_MAP.SPARE1 0 0, Reg.D2D_LANE_MAP.SPARE2 0 0, Reg.D2D_LANE_MAP.SPARE3 0 0, Reg.D2D_LANE_MAP.BAD_COUNT 0 0]⟩,
   ⟨0x112000, 0x4, 320, false, [Reg.D2D_ERR_CNT.RETRIES 0 0, Reg.D2D_ERR_CNT.RETRAINS 0 0]⟩]

/-- The registers of block ARR. -/
def Reg.rowsArr : List RegRow :=
  [⟨0x70000, 0x0, 1, false, [Reg.ARR_CFG.BUBBLE_STAGGER, Reg.ARR_CFG.FAULT_WINDOW]⟩,
   ⟨0x70004, 0x0, 1, false, [Reg.ARR_STATUS.BUBBLE, Reg.ARR_STATUS.EMERGENCY]⟩,
   ⟨0x70008, 0x0, 1, true, [Reg.ARR_PASSES.COUNT]⟩,
   ⟨0x70010, 0x0, 1, true, [Reg.ARR_INJECT_CYCLES.COUNT]⟩,
   ⟨0x70018, 0x0, 1, true, [Reg.ARR_BUBBLE_SLOTS.COUNT]⟩,
   ⟨0x70020, 0x0, 1, true, [Reg.ARR_SHADOW_WAIT.COUNT]⟩,
   ⟨0x70028, 0x0, 1, false, [Reg.ARR_FAULTS.FAULTS, Reg.ARR_FAULTS.RETIRED]⟩,
   ⟨0x7002c, 0x0, 1, false, [Reg.ARR_PREEMPT_MAX.CYCLES]⟩,
   ⟨0x70030, 0x0, 1, false, [Reg.ARR_FAULT_TOWER.TOWER]⟩,
   ⟨0x70100, 0x4, 192, false, [Reg.ARR_CORE_FAULT.PENDING 0, Reg.ARR_CORE_FAULT.LAST_CAUSE 0, Reg.ARR_CORE_FAULT.ARRAYS 0, Reg.ARR_CORE_FAULT.TOTAL 0]⟩,
   ⟨0x70400, 0x0, 1, true, [Reg.ARR_SR_KEY.KEY]⟩,
   ⟨0x70408, 0x0, 1, true, [Reg.ARR_SR_TEST_A.ELEM, Reg.ARR_SR_TEST_A.USE]⟩,
   ⟨0x70410, 0x0, 1, true, [Reg.ARR_SR_TEST_B.STEP, Reg.ARR_SR_TEST_B.TENSOR]⟩,
   ⟨0x70418, 0x0, 1, false, [Reg.ARR_SR_TEST_OUT.WORD]⟩,
   ⟨0x70420, 0x0, 1, true, [Reg.ARR_OVF_EVENTS.COUNT]⟩,
   ⟨0x70428, 0x0, 1, true, [Reg.ARR_OVF_REPLAYS.COUNT]⟩,
   ⟨0x70430, 0x0, 1, true, [Reg.ARR_OVF_SATURATED.COUNT]⟩,
   ⟨0x70438, 0x0, 1, false, [Reg.ARR_REPLAY_EXHAUSTED.COUNT]⟩,
   ⟨0x70440, 0x0, 1, true, [Reg.ARR_NONFINITE.COUNT]⟩,
   ⟨0x70800, 0x0, 1, false, [Reg.ARR_SEQ_CFG.WAIT_LIMIT]⟩,
   ⟨0x70808, 0x0, 1, true, [Reg.ARR_SEQ_OPS.COUNT]⟩,
   ⟨0x70810, 0x0, 1, true, [Reg.ARR_SEQ_HOLD.CYCLES]⟩,
   ⟨0x70818, 0x0, 1, true, [Reg.ARR_BANK_CONFLICT.COUNT]⟩,
   ⟨0x70820, 0x0, 1, true, [Reg.ARR_FEED_STARVE.COUNT]⟩,
   ⟨0x70828, 0x0, 1, false, [Reg.ARR_PREEMPTS.SAVES, Reg.ARR_PREEMPTS.RESUMES]⟩,
   ⟨0x7082c, 0x0, 1, false, [Reg.ARR_SAVE_MAX.SAVE_US, Reg.ARR_SAVE_MAX.RESTORE_US]⟩,
   ⟨0x70900, 0x4, 192, false, [Reg.ARR_SEQ_POS.POS 0, Reg.ARR_SEQ_POS.STATE 0]⟩,
   ⟨0x70c00, 0x0, 1, true, [Reg.ARR_VEC_INSTR.COUNT]⟩,
   ⟨0x70c08, 0x0, 1, false, [Reg.ARR_VEC_CFG.LIMIT_EXP]⟩,
   ⟨0x70c0c, 0x0, 1, false, [Reg.ARR_VEC_STOPS.FIELD, Reg.ARR_VEC_STOPS.RANGE, Reg.ARR_VEC_STOPS.LIMIT, Reg.ARR_VEC_STOPS.FAULT]⟩]

/-- The registers of block TWR. -/
def Reg.rowsTwr : List RegRow :=
  [⟨0x50000, 0x4, 192, false, [Reg.TWR_CORE.SITE 0, Reg.TWR_CORE.STATE 0, Reg.TWR_CORE.TARGET 0, Reg.TWR_CORE.MIGRATIONS 0, Reg.TWR_CORE.PIPES 0]⟩,
   ⟨0x50400, 0x4, 8, false, [Reg.TWR_SPARE_SITES.SPARE 0, Reg.TWR_SPARE_SITES.COUNT 0]⟩,
   ⟨0x50420, 0x4, 8, false, [Reg.TWR_RETIRED_SITES.RETIRED 0]⟩,
   ⟨0x50440, 0x0, 1, false, [Reg.TWR_MIG.ACTIVE, Reg.TWR_MIG.QUEUED]⟩]

/-- The registers of block VLT. -/
def Reg.rowsVlt : List RegRow :=
  [⟨0x60000, 0x0, 1, false, [Reg.VLT_CFG.SCRUB_HOURS, Reg.VLT_CFG.ROW_CE_LIMIT, Reg.VLT_CFG.PIPE_RATE]⟩,
   ⟨0x60004, 0x0, 1, false, [Reg.VLT_BAND.BAND]⟩,
   ⟨0x60008, 0x0, 1, true, [Reg.VLT_CRC_RETRY.COUNT]⟩,
   ⟨0x60010, 0x0, 1, true, [Reg.VLT_CE.COUNT]⟩,
   ⟨0x60018, 0x0, 1, false, [Reg.VLT_UE.UE, Reg.VLT_UE.BUDDY]⟩,
   ⟨0x6001c, 0x0, 1, false, [Reg.VLT_SPARES_USED.ROWS, Reg.VLT_SPARES_USED.BANKS, Reg.VLT_SPARES_USED.PIPES_OUT]⟩,
   ⟨0x60020, 0x0, 1, false, [Reg.VLT_MIRROR_PEER.FLAT_ID, Reg.VLT_MIRROR_PEER.ENABLE, Reg.VLT_MIRROR_PEER.STATE]⟩,
   ⟨0x60028, 0x0, 1, true, [Reg.VLT_MIG_LAST.DURATION_US, Reg.VLT_MIG_LAST.RESULT, Reg.VLT_MIG_LAST.LOGICAL, Reg.VLT_MIG_LAST.BUDDY_SECTORS]⟩,
   ⟨0x60030, 0x0, 1, false, [Reg.VLT_SCRUB_PASS.COUNT]⟩,
   ⟨0x61000, 0x10, 192, true, [Reg.VLT_MIRROR_SRC.BASE 0, Reg.VLT_MIRROR_SRC.PAGES 0]⟩,
   ⟨0x61008, 0x10, 192, true, [Reg.VLT_MIRROR_DST.DA 0]⟩,
   ⟨0x62000, 0x4, 192, false, [Reg.VLT_PIPES.UP 0]⟩]

/-- The registers of block HQ. -/
def Reg.rowsHq : List RegRow :=
  [⟨0x10000, 0x0, 1, false, [Reg.HQ_CTRL.RING_EN, Reg.HQ_CTRL.ENABLE]⟩,
   ⟨0x10004, 0x0, 1, false, [Reg.HQ_POLL_MIN.INTERVAL]⟩,
   ⟨0x10008, 0x0, 1, false, [Reg.HQ_POLL_MAX.INTERVAL]⟩,
   ⟨0x1000c, 0x0, 1, false, [Reg.HQ_WAIT_LIMIT.MS]⟩,
   ⟨0x10010, 0x0, 1, true, [Reg.HQ_DB_ADDR.ADDR]⟩,
   ⟨0x10018, 0x0, 1, true, [Reg.HQ_STATUS_ADDR.ADDR]⟩,
   ⟨0x10020, 0x0, 1, false, [Reg.HQ_BAR2_BASE.BASE_GIB]⟩,
   ⟨0x10024, 0x0, 1, false, [Reg.HQ_IRQ_HOLDOFF.HOLDOFF]⟩,
   ⟨0x10028, 0x0, 1, true, [Reg.HQ_DESC_DONE.COUNT]⟩,
   ⟨0x10030, 0x0, 1, false, [Reg.HQ_BAR2_ERR.READS, Reg.HQ_BAR2_ERR.WRITES]⟩,
   ⟨0x10100, 0x10, 16, true, [Reg.HQ_SQ_BASE.ADDR 0]⟩,
   ⟨0x10108, 0x10, 16, false, [Reg.HQ_SQ_CFG.LOG2_SIZE 0, Reg.HQ_SQ_CFG.PRIO 0]⟩,
   ⟨0x10200, 0x10, 16, true, [Reg.HQ_CQ_BASE.ADDR 0]⟩,
   ⟨0x10208, 0x10, 16, false, [Reg.HQ_CQ_CFG.LOG2_SIZE 0, Reg.HQ_CQ_CFG.VECTOR 0]⟩,
   ⟨0x10300, 0x4, 16, false, [Reg.HQ_RING_STATUS.IN_FLIGHT 0, Reg.HQ_RING_STATUS.HELD 0, Reg.HQ_RING_STATUS.STALLED 0, Reg.HQ_RING_STATUS.BAD_TAIL 0]⟩,
   ⟨0x14000, 0x10, 1024, true, [Reg.HQ_REGION_BASE.BASE 0]⟩,
   ⟨0x14008, 0x10, 1024, true, [Reg.HQ_REGION_LEN.LEN 0, Reg.HQ_REGION_LEN.VALID 0, Reg.HQ_REGION_LEN.DEVICE 0, Reg.HQ_REGION_LEN.RD 0, Reg.HQ_REGION_LEN.WR 0]⟩]

/-- The registers of block EVT. -/
def Reg.rowsEvt : List RegRow :=
  [⟨0x20000, 0x0, 1, false, [Reg.EVT_SEL.INDEX]⟩,
   ⟨0x20004, 0x0, 1, false, [Reg.EVT_DATA.VALUE]⟩,
   ⟨0x20008, 0x0, 1, false, [Reg.EVT_WAITING.DESC, Reg.EVT_WAITING.CORES]⟩,
   ⟨0x20010, 0x0, 1, true, [Reg.EVT_SIGNALS.COUNT]⟩]

/-- The registers of block OPT. -/
def Reg.rowsOpt : List RegRow :=
  [⟨0x80000, 0x0, 1, false, [Reg.OPT_CFG.RESEND_US, Reg.OPT_CFG.CAL_PERIOD_S, Reg.OPT_CFG.TRAIN_TRIES, Reg.OPT_CFG.PORT_CAL_H]⟩,
   ⟨0x80004, 0x0, 1, false, [Reg.OPT_LANE_CFG.ALIGN_ERR, Reg.OPT_LANE_CFG.RESEND_FAIL]⟩,
   ⟨0x80008, 0x0, 1, false, [Reg.OPT_TRAINS.DONE, Reg.OPT_TRAINS.FAILED]⟩,
   ⟨0x80010, 0x0, 1, true, [Reg.OPT_BLOCKS.COUNT]⟩,
   ⟨0x80018, 0x0, 1, true, [Reg.OPT_RESENDS.COUNT]⟩,
   ⟨0x80020, 0x0, 1, true, [Reg.OPT_PORT_CHANGE.PORT]⟩,
   ⟨0x80100, 0x4, 48, false, [Reg.OPT_PORT_STATUS.STATE 0, Reg.OPT_PORT_STATUS.SLOTS 0, Reg.OPT_PORT_STATUS.RX_SPARES 0, Reg.OPT_PORT_STATUS.TX_SPARES 0, Reg.OPT_PORT_STATUS.FEED 0, Reg.OPT_PORT_STATUS.CAUSE 0, Reg.OPT_PORT_STATUS.TRIES 0, Reg.OPT_PORT_STATUS.ENG_LINK 0]⟩,
   ⟨0x80200, 0x4, 48, false, [Reg.OPT_PEER.FLAT_ID 0, Reg.OPT_PEER.PORT 0, Reg.OPT_PEER.SWITCH 0, Reg.OPT_PEER.VALID 0]⟩,
   ⟨0x80300, 0x4, 48, false, [Reg.OPT_LANE_STATE.RX_FAILED 0, Reg.OPT_LANE_STATE.RX_CAL 0, Reg.OPT_LANE_STATE.TX_CAL 0]⟩,
   ⟨0x80400, 0x4, 48, false, [Reg.OPT_ERR.CRC_FAIL 0, Reg.OPT_ERR.LANE_FAILS 0]⟩,
   ⟨0x80500, 0x4, 48, false, [Reg.OPT_MARGIN.RX 0, Reg.OPT_MARGIN.TX 0]⟩,
   ⟨0x80600, 0x4, 48, false, [Reg.OPT_CAL_REC.POWER_BAND 0, Reg.OPT_CAL_REC.TEMP_C 0, Reg.OPT_CAL_REC.AGE_S 0]⟩,
   ⟨0x80700, 0x4, 48, false, [Reg.OPT_LINK_DELAY.DELAY 0]⟩,
   ⟨0x81000, 0x20, 48, false, [Reg.OPT_MAP.RX_SLOT_LANE 0 0, Reg.OPT_MAP.RX_SLOT_LANE 0 1, Reg.OPT_MAP.RX_SLOT_LANE 0 2, Reg.OPT_MAP.RX_SLOT_LANE 0 3, Reg.OPT_MAP.RX_SLOT_LANE 0 4, Reg.OPT_MAP.RX_SLOT_LANE 0 5]⟩,
   ⟨0x81004, 0x20, 48, false, [Reg.OPT_MAP.RX_SLOT_LANE 0 6, Reg.OPT_MAP.RX_SLOT_LANE 0 7, Reg.OPT_MAP.RX_SLOT_LANE 0 8, Reg.OPT_MAP.RX_SLOT_LANE 0 9, Reg.OPT_MAP.RX_SLOT_LANE 0 10, Reg.OPT_MAP.RX_SLOT_LANE 0 11]⟩,
   ⟨0x81008, 0x20, 48, false, [Reg.OPT_MAP.RX_SLOT_LANE 0 12, Reg.OPT_MAP.RX_SLOT_LANE 0 13, Reg.OPT_MAP.RX_SLOT_LANE 0 14, Reg.OPT_MAP.RX_SLOT_LANE 0 15, Reg.OPT_MAP.RX_SPARE0 0, Reg.OPT_MAP.RX_SPARE1 0]⟩,
   ⟨0x81010, 0x20, 48, false, [Reg.OPT_MAP.TX_SLOT_LANE 0 0, Reg.OPT_MAP.TX_SLOT_LANE 0 1, Reg.OPT_MAP.TX_SLOT_LANE 0 2, Reg.OPT_MAP.TX_SLOT_LANE 0 3, Reg.OPT_MAP.TX_SLOT_LANE 0 4, Reg.OPT_MAP.TX_SLOT_LANE 0 5]⟩,
   ⟨0x81014, 0x20, 48, false, [Reg.OPT_MAP.TX_SLOT_LANE 0 6, Reg.OPT_MAP.TX_SLOT_LANE 0 7, Reg.OPT_MAP.TX_SLOT_LANE 0 8, Reg.OPT_MAP.TX_SLOT_LANE 0 9, Reg.OPT_MAP.TX_SLOT_LANE 0 10, Reg.OPT_MAP.TX_SLOT_LANE 0 11]⟩,
   ⟨0x81018, 0x20, 48, false, [Reg.OPT_MAP.TX_SLOT_LANE 0 12, Reg.OPT_MAP.TX_SLOT_LANE 0 13, Reg.OPT_MAP.TX_SLOT_LANE 0 14, Reg.OPT_MAP.TX_SLOT_LANE 0 15, Reg.OPT_MAP.TX_SPARE0 0, Reg.OPT_MAP.TX_SPARE1 0]⟩]

/-- The registers of block LIM. -/
def Reg.rowsLim : List RegRow :=
  [⟨0x90000, 0x4, 10, false, [Reg.LIM_STATE.STATE 0, Reg.LIM_STATE.CAUSE 0, Reg.LIM_STATE.FED 0, Reg.LIM_STATE.AUTH 0]⟩,
   ⟨0x90040, 0x0, 1, false, [Reg.LIM_SW.SEL, Reg.LIM_SW.FAULT]⟩,
   ⟨0x90100, 0x8, 10, true, [Reg.LIM_LIFE.HOURS 0, Reg.LIM_LIFE.EQ_HOURS 0]⟩,
   ⟨0x90200, 0x4, 10, false, [Reg.LIM_FADE.DRIVE_PCT 0, Reg.LIM_FADE.WORST_DB 0, Reg.LIM_FADE.PREDICT_H 0]⟩,
   ⟨0x90300, 0x8, 10, true, [Reg.LIM_SERIAL.SERIAL 0]⟩,
   ⟨0x90400, 0x0, 1, false, [Reg.LIM_EVENTS.SWITCHOVERS, Reg.LIM_EVENTS.SUDDEN, Reg.LIM_EVENTS.MOVES, Reg.LIM_EVENTS.REJECTED]⟩]

/-- The registers of block FAB. -/
def Reg.rowsFab : List RegRow :=
  [⟨0xa0000, 0x0, 1, false, [Reg.FAB_SELF.FLAT_ID, Reg.FAB_SELF.EXPORTED]⟩,
   ⟨0xa0004, 0x0, 1, false, [Reg.FAB_COORD.X, Reg.FAB_COORD.Y, Reg.FAB_COORD.Z]⟩,
   ⟨0xa0008, 0x0, 1, false, [Reg.FAB_TORUS_DIM.DX, Reg.FAB_TORUS_DIM.DY, Reg.FAB_TORUS_DIM.DZ]⟩,
   ⟨0xa000c, 0x0, 1, false, [Reg.FAB_BLOCK_BASE.X, Reg.FAB_BLOCK_BASE.Y, Reg.FAB_BLOCK_BASE.Z]⟩,
   ⟨0xa0010, 0x0, 1, false, [Reg.FAB_BLOCK_SIZE.SX, Reg.FAB_BLOCK_SIZE.SY, Reg.FAB_BLOCK_SIZE.SZ]⟩,
   ⟨0xa0014, 0x0, 1, false, [Reg.FAB_CFG.HOP_LIMIT, Reg.FAB_CFG.TREE_WAIT_MS]⟩,
   ⟨0xa0018, 0x0, 1, false, [Reg.FAB_STATUS.BLOCK_ERR, Reg.FAB_STATUS.DIR_NONE, Reg.FAB_STATUS.TREE_NONE, Reg.FAB_STATUS.SELF_ERR]⟩,
   ⟨0xa0020, 0x0, 1, true, [Reg.FAB_PORT_ROUTE.IN_SERVICE]⟩,
   ⟨0xa0028, 0x0, 1, true, [Reg.FAB_COORD_ERR.PORT]⟩,
   ⟨0xa0030, 0x0, 1, true, [Reg.FAB_DROPS.NO_ROUTE, Reg.FAB_DROPS.LOST_DST, Reg.FAB_DROPS.HOP_LIMIT, Reg.FAB_DROPS.MISROUTED]⟩,
   ⟨0xa0038, 0x0, 1, false, [Reg.FAB_MCAST.ORIGINATED, Reg.FAB_MCAST.CUT]⟩,
   ⟨0xa0040, 0x0, 1, true, [Reg.FAB_PKTS.COUNT]⟩,
   ⟨0xa0048, 0x0, 1, true, [Reg.FAB_TREE_FALLBACK.COUNT]⟩,
   ⟨0xa0050, 0x0, 1, false, [Reg.FAB_TAKEOVER.LAST_ID, Reg.FAB_TAKEOVER.NOTICES, Reg.FAB_TAKEOVER.UNACKED]⟩,
   ⟨0xa0054, 0x0, 1, false, [Reg.FAB_LOST.ENTRIES]⟩,
   ⟨0x800000, 0x8, 65536, true, [Reg.FAB_ROUTE.KIND 0, Reg.FAB_ROUTE.X 0, Reg.FAB_ROUTE.Y 0, Reg.FAB_ROUTE.Z 0, Reg.FAB_ROUTE.JOB 0, Reg.FAB_ROUTE.LOST 0, Reg.FAB_ROUTE.MOVED 0]⟩]

/-- The registers of block CAR. -/
def Reg.rowsCar : List RegRow :=
  [⟨0xb0000, 0x0, 1, false, [Reg.CAR_CFG.CHUNK, Reg.CAR_CFG.WINDOW]⟩,
   ⟨0xb0004, 0x0, 1, false, [Reg.CAR_STAGE_BASE.BASE]⟩,
   ⟨0xb0008, 0x0, 1, false, [Reg.CAR_WATCHDOG.MS]⟩,
   ⟨0xb000c, 0x0, 1, false, [Reg.CAR_SLOTS.BUSY, Reg.CAR_SLOTS.QUEUED]⟩,
   ⟨0xb0010, 0x0, 1, true, [Reg.CAR_COLLS.COUNT]⟩,
   ⟨0xb0018, 0x0, 1, true, [Reg.CAR_BYTES_OUT.COUNT]⟩,
   ⟨0xb0020, 0x0, 1, true, [Reg.CAR_BYTES_IN.COUNT]⟩,
   ⟨0xb0028, 0x0, 1, false, [Reg.CAR_OUTCOMES.POISONED, Reg.CAR_OUTCOMES.TIMEOUT, Reg.CAR_OUTCOMES.PEER_LOST, Reg.CAR_OUTCOMES.EXCHANGE]⟩,
   ⟨0xb0030, 0x0, 1, true, [Reg.CAR_CONV.OVF, Reg.CAR_CONV.NONFINITE]⟩,
   ⟨0xb0038, 0x0, 1, false, [Reg.CAR_EARLY.USED, Reg.CAR_EARLY.DROPPED]⟩,
   ⟨0xb003c, 0x0, 1, false, [Reg.CAR_CHECK.CRC_FAIL, Reg.CAR_CHECK.ADDER]⟩,
   ⟨0xb0040, 0x0, 1, false, [Reg.CAR_GROUP_SPACE.FREE, Reg.CAR_GROUP_SPACE.GROUPS]⟩,
   ⟨0xb0100, 0x10, 16, false, [Reg.CAR_SLOT_TAG.TAG 0]⟩,
   ⟨0xb0104, 0x10, 16, false, [Reg.CAR_SLOT_STATE.GROUP 0, Reg.CAR_SLOT_STATE.PHASE 0, Reg.CAR_SLOT_STATE.ROUND 0]⟩,
   ⟨0xb0108, 0x10, 16, false, [Reg.CAR_SLOT_IDLE.IDLE_US 0]⟩]

/-- The registers of block UPD. -/
def Reg.rowsUpd : List RegRow :=
  [⟨0xc0000, 0x0, 1, false, [Reg.UPD_CFG.LIMIT_EXP]⟩,
   ⟨0xc0004, 0x0, 1, false, [Reg.UPD_AREA.BASE]⟩,
   ⟨0xc0008, 0x0, 1, true, [Reg.UPD_UNDO_BASE.DA]⟩,
   ⟨0xc0010, 0x0, 1, true, [Reg.UPD_UNDO_LEN.LEN]⟩,
   ⟨0xc0018, 0x0, 1, true, [Reg.UPD_CORES.IN_SERVICE]⟩,
   ⟨0xc0020, 0x0, 1, false, [Reg.UPD_STATUS.BINDINGS, Reg.UPD_STATUS.PHASE, Reg.UPD_STATUS.CORES, Reg.UPD_STATUS.STAGED]⟩,
   ⟨0xc0028, 0x0, 1, true, [Reg.UPD_UNDO_USED.BYTES]⟩,
   ⟨0xc0030, 0x0, 1, true, [Reg.UPD_UNDO_NEED.BYTES]⟩,
   ⟨0xc0038, 0x0, 1, true, [Reg.UPD_BLOCKS.COUNT]⟩,
   ⟨0xc0040, 0x0, 1, true, [Reg.UPD_FROZEN.COUNT]⟩,
   ⟨0xc0048, 0x0, 1, true, [Reg.UPD_STEPS.COMMITS, Reg.UPD_STEPS.ROLLBACKS, Reg.UPD_STEPS.DAMAGED]⟩,
   ⟨0xc0050, 0x0, 1, false, [Reg.UPD_FAULTS.CORE_FAULTS, Reg.UPD_FAULTS.RETIRED, Reg.UPD_FAULTS.STOPS, Reg.UPD_FAULTS.UNDO_ERR]⟩,
   ⟨0xc0058, 0x0, 1, true, [Reg.UPD_CONV.OVF, Reg.UPD_CONV.NONFINITE]⟩,
   ⟨0xc0060, 0x0, 1, false, [Reg.UPD_FREEZE_SPACE.FREE]⟩]

/-- The registers of block MFB. -/
def Reg.rowsMfb : List RegRow :=
  [⟨0xd0000, 0x0, 1, false, [Reg.MFB_CFG.INV_AT_STEP, Reg.MFB_CFG.WINDOW, Reg.MFB_CFG.RESP_MS]⟩,
   ⟨0xd0004, 0x0, 1, false, [Reg.MFB_RLC.BASE, Reg.MFB_RLC.ENABLE]⟩,
   ⟨0xd0008, 0x0, 1, false, [Reg.MFB_DOMAIN_BASE.X, Reg.MFB_DOMAIN_BASE.Y, Reg.MFB_DOMAIN_BASE.Z]⟩,
   ⟨0xd000c, 0x0, 1, false, [Reg.MFB_DOMAIN_SIZE.SX, Reg.MFB_DOMAIN_SIZE.SY, Reg.MFB_DOMAIN_SIZE.SZ]⟩,
   ⟨0xd0010, 0x0, 1, false, [Reg.MFB_STATUS.DOMAIN_ERR, Reg.MFB_STATUS.TABLE_FULL]⟩,
   ⟨0xd0018, 0x0, 1, true, [Reg.MFB_OPS.COUNT]⟩,
   ⟨0xd0020, 0x0, 1, true, [Reg.MFB_ATOMICS.APPLIED, Reg.MFB_ATOMICS.DUPLICATES, Reg.MFB_ATOMICS.STALE]⟩,
   ⟨0xd0028, 0x0, 1, true, [Reg.MFB_RLC_STATS.HITS, Reg.MFB_RLC_STATS.MISSES]⟩,
   ⟨0xd0030, 0x0, 1, false, [Reg.MFB_ERRORS.ADDRESS, Reg.MFB_ERRORS.ACCESS, Reg.MFB_ERRORS.LOST_CORE, Reg.MFB_ERRORS.UNCORRECTABLE]⟩,
   ⟨0xd0034, 0x0, 1, false, [Reg.MFB_SOURCE.INDETERMINATE, Reg.MFB_SOURCE.TIMEOUT, Reg.MFB_SOURCE.LATE]⟩,
   ⟨0xd0038, 0x0, 1, false, [Reg.MFB_THROTTLE.EVENTS, Reg.MFB_THROTTLE.MAX_QUEUE]⟩,
   ⟨0xd003c, 0x0, 1, false, [Reg.MFB_TABLE.USED, Reg.MFB_TABLE.FULL_STALLS]⟩,
   ⟨0xd0100, 0x10, 16, true, [Reg.MFB_RING_BASE.DA 0]⟩,
   ⟨0xd0108, 0x10, 16, false, [Reg.MFB_RING_CFG.LOG2_SIZE 0, Reg.MFB_RING_CFG.ENABLE 0, Reg.MFB_RING_CFG.DB_EVENT 0]⟩,
   ⟨0xd010c, 0x10, 16, false, [Reg.MFB_RING_POS.STARTED 0]⟩]

/-- The registers of block TGT. -/
def Reg.rowsTgt : List RegRow :=
  [⟨0x30000, 0x0, 1, false, [Reg.TGT_CFG.LOG_EN, Reg.TGT_CFG.ALERT_BAND3]⟩,
   ⟨0x30004, 0x0, 1, false, [Reg.TGT_STATUS.OP, Reg.TGT_STATUS.MODEL_SRC, Reg.TGT_STATUS.TELEM_FAULT, Reg.TGT_STATUS.UNATTAINABLE, Reg.TGT_STATUS.CRITICAL, Reg.TGT_STATUS.RAMP_SLOW, Reg.TGT_STATUS.POWER_BAND, Reg.TGT_STATUS.MIDWAY_BAND, Reg.TGT_STATUS.TARGET, Reg.TGT_STATUS.OP_CHANGING]⟩,
   ⟨0x30008, 0x0, 1, false, [Reg.TGT_CAP.CAP_W]⟩,
   ⟨0x3000c, 0x0, 1, false, [Reg.TGT_POWER.MEAS_W, Reg.TGT_POWER.EST_W]⟩,
   ⟨0x30010, 0x0, 1, false, [Reg.TGT_FLOOR.FLOOR_W]⟩,
   ⟨0x30018, 0x0, 1, true, [Reg.TGT_ENERGY.UJ]⟩,
   ⟨0x30020, 0x0, 1, false, [Reg.TGT_REASON.IN_FORCE]⟩,
   ⟨0x30024, 0x0, 1, false, [Reg.TGT_ALERT.UNATTAINABLE, Reg.TGT_ALERT.TELEM, Reg.TGT_ALERT.CRITICAL, Reg.TGT_ALERT.DRAM_BAND3, Reg.TGT_ALERT.REF_DEV]⟩,
   ⟨0x30028, 0x0, 1, false, [Reg.TGT_TELEM.FAULT_S, Reg.TGT_TELEM.FAULTS]⟩,
   ⟨0x3002c, 0x0, 1, false, [Reg.TGT_EVENTS.DISAGREE, Reg.TGT_EVENTS.EMERGENCY, Reg.TGT_EVENTS.CRITICAL, Reg.TGT_EVENTS.UNATTAINABLE]⟩,
   ⟨0x30030, 0x0, 1, false, [Reg.TGT_LOG_BASE.BASE]⟩,
   ⟨0x30034, 0x0, 1, false, [Reg.TGT_LOG_HEAD.COUNT]⟩,
   ⟨0x30100, 0x8, 9, true, [Reg.TGT_DUR.US 0]⟩,
   ⟨0x30200, 0x4, 8, false, [Reg.TGT_TEMP.LOGIC 0, Reg.TGT_TEMP.DRAM 0, Reg.TGT_TEMP.RATE 0, Reg.TGT_TEMP.BAND 0]⟩,
   ⟨0x30220, 0x0, 1, false, [Reg.TGT_MIDWAY.MIDWAY, Reg.TGT_MIDWAY.ENGINE]⟩,
   ⟨0x30240, 0x4, 9, false, [Reg.TGT_MODEL_REC.POWER_BAND 0, Reg.TGT_MODEL_REC.GUARD 0, Reg.TGT_MODEL_REC.REFIT_DUE 0, Reg.TGT_MODEL_REC.AGE_S 0]⟩]

/-- The registers of block STP. -/
def Reg.rowsStp : List RegRow :=
  [⟨0xe0000, 0x0, 1, false, [Reg.STP_CFG.GAP_MAX_US, Reg.STP_CFG.SKEW_STEPS]⟩,
   ⟨0xe0004, 0x0, 1, false, [Reg.STP_STATUS.PHASE, Reg.STP_STATUS.FAILED, Reg.STP_STATUS.TIME_STATE]⟩,
   ⟨0xe0008, 0x0, 1, false, [Reg.STP_STEP.STEP]⟩,
   ⟨0xe0010, 0x0, 1, true, [Reg.STP_ENDS.COMMITS, Reg.STP_ENDS.ROLLBACKS, Reg.STP_ENDS.TIMED]⟩,
   ⟨0xe0018, 0x0, 1, true, [Reg.STP_TIME.COUNT]⟩,
   ⟨0xe0020, 0x0, 1, true, [Reg.STP_BOUNDARY.TIME]⟩,
   ⟨0xe0028, 0x0, 1, false, [Reg.STP_TIME_CFG.ROOT, Reg.STP_TIME_CFG.PARENT, Reg.STP_TIME_CFG.ALT]⟩,
   ⟨0xe002c, 0x0, 1, false, [Reg.STP_TIME_OFFSET.OFFSET, Reg.STP_TIME_OFFSET.TRIM]⟩,
   ⟨0xe0030, 0x0, 1, false, [Reg.STP_SKEW.LAST_NS, Reg.STP_SKEW.SPREAD_NS]⟩,
   ⟨0xe0034, 0x0, 1, false, [Reg.STP_SYNC.HIT, Reg.STP_SYNC.MISS, Reg.STP_SYNC.STRAY]⟩,
   ⟨0xe0038, 0x0, 1, false, [Reg.STP_BAR.LAST_RANK, Reg.STP_BAR.STRAY]⟩]

/-- The registers of block FLT. -/
def Reg.rowsFlt : List RegRow :=
  [⟨0xf0000, 0x0, 1, false, [Reg.FLT_CFG.HOLD_S, Reg.FLT_CFG.HANDOVER_WAIT_S]⟩,
   ⟨0xf0004, 0x0, 1, false, [Reg.FLT_REASON.REASONS]⟩,
   ⟨0xf0008, 0x0, 1, false, [Reg.FLT_LOG_BASE.BASE]⟩,
   ⟨0xf000c, 0x0, 1, false, [Reg.FLT_LOG_HEAD.COUNT]⟩,
   ⟨0xf0010, 0x0, 1, false, [Reg.FLT_MGMT_STATUS.LINK_UP, Reg.FLT_MGMT_STATUS.QUEUED, Reg.FLT_MGMT_STATUS.DROPPED]⟩,
   ⟨0xf0014, 0x0, 1, false, [Reg.FLT_MGMT_CMDS.ACCEPTED, Reg.FLT_MGMT_CMDS.REJECTED]⟩,
   ⟨0xf0018, 0x0, 1, true, [Reg.FLT_MGMT_REQ.CODE, Reg.FLT_MGMT_REQ.VALID, Reg.FLT_MGMT_REQ.A, Reg.FLT_MGMT_REQ.B]⟩,
   ⟨0xf0020, 0x0, 1, true, [Reg.FLT_HANDOVER.ROLE, Reg.FLT_HANDOVER.PHASE, Reg.FLT_HANDOVER.LOST_CORES, Reg.FLT_HANDOVER.UNITS]⟩,
   ⟨0xf0100, 0x8, 64, true, [Reg.FLT_SUSPECT.FLAT_ID 0, Reg.FLT_SUSPECT.CAUSE 0, Reg.FLT_SUSPECT.ORIGIN 0, Reg.FLT_SUSPECT.VALID 0, Reg.FLT_SUSPECT.COUNT 0]⟩]

/-- The registers of block SEC. -/
def Reg.rowsSec : List RegRow :=
  [⟨0x100000, 0x0, 1, false, [Reg.SEC_STATUS.IMAGE_OK, Reg.SEC_STATUS.ACT_VALID, Reg.SEC_STATUS.ACT, Reg.SEC_STATUS.ACT_FROM_SELECT, Reg.SEC_STATUS.BOOT_CAUSE, Reg.SEC_STATUS.KEY_SLOT, Reg.SEC_STATUS.SVN]⟩,
   ⟨0x100004, 0x0, 1, false, [Reg.SEC_FUSE.FUSED_SVN, Reg.SEC_FUSE.REVOKED, Reg.SEC_FUSE.ADVANCE_PENDING]⟩,
   ⟨0x100008, 0x0, 1, true, [Reg.SEC_DEVICE_ID_LO.ID]⟩,
   ⟨0x100010, 0x0, 1, true, [Reg.SEC_DEVICE_ID_HI.ID]⟩,
   ⟨0x100018, 0x0, 1, false, [Reg.SEC_BUILD.BUILD]⟩,
   ⟨0x100020, 0x4, 8, false, [Reg.SEC_IMAGE_DIGEST.DIGEST 0]⟩,
   ⟨0x100040, 0x0, 1, false, [Reg.SEC_STAGE_BASE.BASE]⟩,
   ⟨0x100044, 0x0, 1, false, [Reg.SEC_COMMIT.PENDING, Reg.SEC_COMMIT.KIND, Reg.SEC_COMMIT.CAUSE, Reg.SEC_COMMIT.RESULT]⟩,
   ⟨0x100048, 0x0, 1, false, [Reg.SEC_ACT_NEXT.ACT, Reg.SEC_ACT_NEXT.VALID, Reg.SEC_ACT_NEXT.PINS]⟩,
   ⟨0x100050, 0x4, 4, false, [Reg.SEC_ACT_GEN.GENERATION 0]⟩,
   ⟨0x100060, 0x0, 1, false, [Reg.SEC_RCV_LEN.LEN]⟩,
   ⟨0x100064, 0x0, 1, false, [Reg.SEC_RCV_CTRL.CMD, Reg.SEC_RCV_CTRL.STATUS]⟩,
   ⟨0x100068, 0x0, 1, false, [Reg.SEC_ATTESTS.COUNT]⟩,
   ⟨0x10006c, 0x0, 1, false, [Reg.SEC_BOOT_MS.MS]⟩]

/-- The registers of block DBG. -/
def Reg.rowsDbg : List RegRow :=
  [⟨0x120000, 0x0, 1, false, [Reg.DBG_CTRL.ENABLE, Reg.DBG_CTRL.CLK_DIV]⟩,
   ⟨0x120004, 0x0, 1, false, [Reg.DBG_SEL.GROUP, Reg.DBG_SEL.UNIT]⟩,
   ⟨0x120008, 0x0, 1, false, [Reg.DBG_POLICY.RESTRICTED, Reg.DBG_POLICY.JTAG_PRIVATE]⟩,
   ⟨0x12000c, 0x0, 1, false, [Reg.DBG_IDCODE.ONE, Reg.DBG_IDCODE.MFR, Reg.DBG_IDCODE.PART, Reg.DBG_IDCODE.VERSION]⟩,
   ⟨0x120010, 0x0, 1, false, [Reg.DBG_RAIL_FAULT.RAIL]⟩]

/-- The registers of block GLB. -/
def Reg.rowsGlb : List RegRow :=
  [⟨0x0, 0x0, 1, false, [Reg.GLB_ID.DEVICE, Reg.GLB_ID.VERSION]⟩,
   ⟨0x4, 0x0, 1, false, [Reg.GLB_STATE.STATE, Reg.GLB_STATE.DEGRADED, Reg.GLB_STATE.REPLACE_REQUESTED, Reg.GLB_STATE.LOCKED]⟩,
   ⟨0x8, 0x0, 1, false, [Reg.GLB_STATE_CHANGE.STATE, Reg.GLB_STATE_CHANGE.FLAGS, Reg.GLB_STATE_CHANGE.RECORD, Reg.GLB_STATE_CHANGE.REQUEST]⟩,
   ⟨0xc, 0x0, 1, false, [Reg.GLB_SETUP_LOCK.KEY]⟩,
   ⟨0x10, 0x0, 1, false, [Reg.GLB_ACT.ACT, Reg.GLB_ACT.VALID, Reg.GLB_ACT.PRESETS]⟩,
   ⟨0x14, 0x0, 1, false, [Reg.GLB_LOCK_CHECK.REFUSED, Reg.GLB_LOCK_CHECK.AREAS, Reg.GLB_LOCK_CHECK.IGNORED]⟩,
   ⟨0x18, 0x0, 1, true, [Reg.GLB_LOCK_TIME.TIME]⟩]

/-- Every register of BAR0 (R440). -/
def Reg.rows : List RegRow :=
  Reg.rowsClk ++ Reg.rowsD2d ++ Reg.rowsArr ++ Reg.rowsTwr ++ Reg.rowsVlt ++ Reg.rowsHq ++ Reg.rowsEvt ++ Reg.rowsOpt ++ Reg.rowsLim ++ Reg.rowsFab ++ Reg.rowsCar ++ Reg.rowsUpd ++ Reg.rowsMfb ++ Reg.rowsTgt ++ Reg.rowsStp ++ Reg.rowsFlt ++ Reg.rowsSec ++ Reg.rowsDbg ++ Reg.rowsGlb

end Sys2Proof.Machine
end

