-- ==== Sys2Proof/Machine/State.lean ====
section
/-! DEFINITION. The state of the block, the reasons a step can stop, and the state right after reset. -/

namespace Sys2Proof.Machine

/-- Why a command faults. -/
inductive Fault where
  /-- Raised by every meaning whose operands name a unit the package does not have (a core above 191, a port above 47, a
  ring above 15, and so on): no such command exists on the hardware, so stopping is safe. -/
  | noSuchUnit
  deriving DecidableEq, Repr

/-- Why a command is refused by the model. -/
inductive Refusal where
  /-- Raised by Dispatch alone, for a command that has no meaning yet: safe. -/
  | notModelled (mnemonic : String)
  deriving DecidableEq, Repr

/-- The device: every piece of state the spec gives it. -/
structure Dev where
  /-- The device state (R5); shown in GLB_STATE.STATE. -/
  st : DevState
  /-- The set-up lock has taken effect (R446). -/
  locked : Bool
  /-- Every BAR0 register field that is its state's home, by Field.key; an unlisted field holds its reset value. -/
  regs : Tab Nat
  /-- Device memory by device address (R11): vaults, core SRAM windows and Midway SRAM; an unlisted byte reads as zero. -/
  mem : List Host.Cell
  /-- Poisoned units by base address: 32-byte half-lines of SRAM (R93) and 64-byte sectors of vaults (R151). -/
  poison : Tab Bool
  /-- The pins of R422. -/
  pins : Pins
  /-- Boot, identity and Acts. -/
  boot : Boot
  /-- Fuses. -/
  fuses : Fuses
  /-- The SPI NOR flash (R400); an unlisted byte is erased, 0xFF. -/
  flash : Tab Byte
  /-- The 65,536 event counters of 32 bits (R184); an unlisted counter is 0. -/
  evt : Tab Nat
  /-- The host interface. -/
  hq : HQ
  /-- Fault reporting, suspects, the management port and handover. -/
  flt : Flt
  /-- Die-to-die links. -/
  d2d : D2D
  /-- Optical ports. -/
  opt : Opt
  /-- The fabric router. -/
  fab : Fab
  /-- Steps, barriers and fabric time. -/
  stp : Stp
  /-- The DEGRADED flag as last announced (R7, R175). -/
  degradedSeen : Bool
  /-- Consecutive measurements whose reference deviation exceeded the tolerance (R34). -/
  refRun : Nat
  /-- Follower PLLs that have lost lock and of whose loss no record is written yet: bit k (R33). -/
  pllOpen : Nat
  /-- Cycles of 1.25 ns since RESET was left: the local clock of the device's own timers, which no step of fabric time
  moves. -/
  clock : Nat
  /-- By ring, 1 more than the time at which a counter met the waits of its head; 0 where none has since it heads the ring
  (R197, R199). -/
  met : Tab Nat
  /-- THE MODEL'S OWN: free values drawn so far; the next free value is Config.freeValue of it. -/
  fresh : Nat
  /-- THE MODEL'S OWN: what has left the block, newest first. -/
  out : List Emit
  /-- Bit l: a bundle of link l is out of service since reset (R25). -/
  bundleOut : Nat
  /-- Bit p: port p is without its laser feed (R7). -/
  feedLost : Nat
  /-- Torus coordinates of each port's peer, from its last accepted IDENT (R224, R250). -/
  peerCoord : Tab (Nat × Nat × Nat)
  /-- The logical cores, by number. -/
  cores : Tab Core
  /-- RUNs started and not complete, in start order. -/
  runs : List Run
  /-- Accumulator rows marked saturated (R37), by device address of the row. -/
  satRows : Tab Bool
  /-- Units of the replay budget taken in the present step, by logical core (R85). -/
  budgetUsed : Tab Nat
  /-- Consecutive fault-free passes since a first fault, by logical core (R59). -/
  cleanPasses : Tab Nat
  /-- The bubble ratio each core applies, taken at its last window start (R53). -/
  ratio : Tab Nat
  /-- Vector contexts: logical core L, or 192 + c for update core c. -/
  vec : Tab VecCtx
  /-- The memory fabric. -/
  mfb : Mfb
  /-- Migrations asked for and not ended, in arrival order (R166). -/
  migs : List Migr
  /-- Redundancy rows used (R377): key 4096 · core + bank, core 0xF0 for Midway SRAM. -/
  sramRows : Tab Nat
  /-- Live update-exponent table (R89, R302): entry l as a byte. -/
  uLive : Tab Nat
  /-- Current underflow counters by layer (R303). -/
  uUnf : Tab Nat
  /-- Current overflow counters by layer (R303). -/
  uOvf : Tab Nat
  /-- Bit L: logical core L stays ACTIVE on a site that was to be migrated, no spare site remaining (R149, R166). -/
  shortSites : Nat
  /-- Vault columns: sparing, pipes, scrub, refresh. -/
  vlt : Vlt
  /-- Tightrope. -/
  tgt : Tgt
  /-- Limelight cartridges and the board switch. -/
  lim : Lim
  /-- Carousel. -/
  car : Car
  /-- The update engine. -/
  upd : Upd
  deriving DecidableEq, Repr

/-- Pins after reset (R429): outputs low or released, PWRGOOD and RESET_N low. DESIGN CHOICE and PRESUMED (log entry 3). -/
def Pins.init : Pins where
  pwrgood := false
  resetN := false
  perstN := false
  profile := 0
  lmPresent := 0
  lmAt := []
  trstN := true
  lmEn := 0
  lmSwSel := 0
  thermtripOut := false
  dbgObs := 0
  flDriven := false
  avsRuns := false
  lanesRun := false
  jtag := .idcode

/-- No boot work done. -/
def Boot.init : Boot where
  phase := .off
  fails := 0
  header := []
  act := none
  mgmtKey := []
  pendingDigest := []
  advance := false
  flashJob := none
  rcvJob := false
  pulse := false
  attests := []

/-- Fuses of a part no image has yet advanced. DESIGN CHOICE and PRESUMED (log entry 3). -/
def Fuses.init : Fuses where
  svn := 0
  revoked := 0
  rows := []
  badLanes := []

/-- An idle ring pair. -/
def Ring.init : Ring where
  fetched := []
  started := []
  head := 0
  tail := 0
  lastBad := none
  cqTail := 0
  cqHead := 0
  held := []

/-- The host interface before the link trains. -/
def HQ.init : HQ where
  rings := []
  interval := 25
  pcieUp := false
  busMaster := false
  msixOn := false
  pcie := PcieSetup.init
  msixTab := []
  pba := []
  holdoff := []
  host := []
  hostErr := []

/-- No record written, nothing suspected. -/
def Flt.init : Flt where
  seq := 0
  queue := []
  logged := []
  unacked := []
  msgSeq := 0
  session := 0
  lastCmd := none
  notices := []
  suspects := []
  handover := none
  exported := false

/-- A bundle direction as it comes up: 48 credits of each virtual channel, nothing sent. The spec gives no first SEQ and
no ACK for nothing received: the first data flit has SEQ 1, and ACK is 0 until a flit has come.
DESIGN CHOICE (log entry 24). -/
def Bundle.init : Bundle where
  txSeq := 1
  txAck := 0
  replay := []
  spent := []
  rxLast := 0
  nak := false
  partialBytes := []
  partialFlits := 0
  owed := []
  crdOut := []
  last := 0
  any := false
  failRun := 0
  altC2 := false

/-- A bundle not in retrain. -/
def BundleCtl.init : BundleCtl where
  retraining := false
  sweeping := false
  retries := []
  rxRecover := []
  txHold := []
  noticed := []
  failMask := 0
  sets := []
  applied := 0
  bandDue := false

/-- Links before any packet. -/
def D2D.init : D2D where
  bundles := []
  ctl := []
  held := []
  ready := []
  queue := []
  marginJobs := []
  calJobs := []

/-- Full credits (R257); the tables count what is spent of the reserved blocks. -/
def Credits.init : Credits where
  reserved := []
  shared := 3072
  fromShared := []
  classShared := []

/-- A port that is DOWN. -/
def Port.init : Port where
  everUp := false
  withdrawn := false
  calDue := false
  moveDue := false
  moving := false
  calibrating := false
  since := 0
  miswire := false
  lightLost := false
  ident := false
  txSeq := 1
  txAck := 0
  txq := []
  altC2 := false
  replay := []
  credits := Credits.init
  rxNext := 1
  rxHigh := 1
  reorder := []
  naks := []
  partialBytes := []
  partialBlocks := 0
  lastWhole := 0
  owed := []
  ctl := []
  rxMoves := []
  txMoves := []
  waitMoves := []
  align := []
  alignErrs := []
  acount := 0
  rxAcount := 0
  txBlocks := 0
  txAlign := 0
  eqSets := []
  eqBand := 0
  ringLost := 0
  txRingLost := 0
  txFailed := 0
  echoTx := 0
  echoRx := 0
  timeSeen := false
  calRx := 0
  trained := 0
  recovery := none

/-- Every port DOWN. -/
def Opt.init : Opt where
  ports := []
  rise := 0
  marginJobs := []
  calJobs := []

/-- No cartridge. -/
def Slot.init : Slot where
  card := []
  code := 0
  since := 0
  silent := 0
  n := 0
  sumI := 0
  sumP := []
  hist := []
  eqRest := 0
  hourRest := 0
  emitAt := 0
  emitted := 0
  watched := false
  worn := false

/-- Every slot EMPTY, the board switch at 0b0000. -/
def Lim.init : Lim where
  slots := []
  wantHome := 0
  wantSpare := 0
  group := []
  selAt := []
  confirmed := []
  dropped := []
  toBackup := 0
  need := 0
  jobs := []

/-- No packet held. -/
def Fab.init : Fab where
  arrived := []
  again := []
  count := 0
  inbox := []
  treeWait := []
  takeover := none

/-- A STEP_CFG of zeros. -/
def StepCfg.init : StepCfg where
  step := 0
  budget := 0
  syncEn := false
  early := 0
  late := 0
  fallbackUs := 0
  group := 0

/-- An empty barrier record. -/
def BarRec.init : BarRec where
  count := 0
  failed := false
  tMin := 0
  tMax := 0
  lastRank := 0

/-- No step. -/
def Stp.init : Stp where
  phase := .none
  attempt := 0
  failed := false
  cfg := StepCfg.init
  next := none
  fallback := 0
  tArr := 0
  held := BarRec.init
  round := 0
  early := []
  merged := []
  sends := []
  tc := 0
  committed := false
  edges := []
  lastEdge := 0
  winEnd := 0
  quiesce := none
  gapActs := []
  gapStart := 0
  begun := false
  timed := false
  skewSteps := 0
  skewFirst := 0
  skewSum := 0
  skewMax := 0
  skewLast := 0
  skewSpread := 0
  time := 0
  frac := 0
  sub := 0
  trim := 0
  inRun := 0
  outRun := 0


/-- A context that runs nothing. -/
def VecCtx.init : VecCtx where
  run := false
  ended := false
  code := 0
  count := 0
  pos := 0
  pc := 0
  executed := 0
  s := []
  v := []
  p := []
  c := []
  rd0 := (0, 0)
  rd1 := (0, 0)
  wr := (0, 0)
  mem := []

/-- Tightrope before its first sample; SET_POLICY keys at their reset values. -/
def Tgt.init : Tgt where
  n := 0
  sampleAt := 0
  tickAt := 0
  rampAt := 0
  temps := []
  hist := []
  disagree := 0
  agree := 0
  good := 0
  faultAt := 0
  goodAt := 0
  power := 0
  dyn := 0
  est := 0
  bCap := 0
  bTh := 0
  headroom := 0
  capNext := none
  setCap := none
  overs := 0
  overSum := 0
  under := 0
  holdAt := 0
  rho := 0
  rhoLow := 0
  coolRun := 0
  calm := 0
  bZero := 0
  bSum := 0
  pSum := 0
  cnt := 0
  change := none
  lastChange := 0
  noUp := 0
  lastDown := 0
  bandLow := []
  bandLog := []
  recAt := []
  rest := 0
  polDram := 1
  polHigh := 0
  polWatch := 100
  polRetry := 1000

/-- The device right after reset: RESET, every register at its reset value, no memory listed; the values the spec does not give are those of notes/assumptions/3.md.
DESIGN CHOICE and PRESUMED (log entry 3). -/
def Dev.init : Dev where
  st := .reset
  locked := false
  regs := []
  mem := []
  poison := []
  pins := Pins.init
  boot := Boot.init
  fuses := Fuses.init
  flash := []
  evt := []
  hq := HQ.init
  flt := Flt.init
  d2d := D2D.init
  opt := Opt.init
  fab := Fab.init
  stp := Stp.init
  degradedSeen := false
  refRun := 0
  pllOpen := 0
  clock := 0
  met := []
  fresh := 0
  out := []
  bundleOut := 0
  feedLost := 0
  peerCoord := []
  cores := []
  runs := []
  satRows := []
  budgetUsed := []
  cleanPasses := []
  ratio := []
  vec := []
  mfb := Mfb.init
  migs := []
  sramRows := []
  uLive := []
  uUnf := []
  uOvf := []
  shortSites := 0
  vlt := Vlt.init
  tgt := Tgt.init
  lim := Lim.init
  car := Car.init
  upd := Upd.init

/-- The block: the device, and the commands that wait, first in first out. -/
structure State where
  /-- The device. -/
  dev : Dev
  /-- The commands that wait, the front first. -/
  pending : List Instr
  deriving DecidableEq, Repr

/-- The block right after reset: the device as reset leaves it, no command waiting. -/
def State.reset : State where
  dev := Dev.init
  pending := []

end Sys2Proof.Machine
end

