-- ==== Sys2Proof/Machine/Ops.lean ====
section
/-! DEFINITION. The shared operations of the block: register fields, device and host memory, events, fault records, MSI-X, reason bits and flags, and the shape every command's meaning has. -/

namespace Sys2Proof.Machine

/-! ### The shape of a meaning -/

/-- A meaning: a command with a unit number that does not exist faults; a command that is not due in the present state
leaves the block as it is; otherwise the device changes by `f`. DESIGN CHOICE (log entry 1). -/
def State.run (s : State) (unit : Bool) (due : Bool) (f : Dev → Dev) : Host.Outcome State Fault Refusal :=
  if unit then (if due then .next { s with dev := f s.dev } else .next s) else .fault .noSuchUnit

/-- The device is in one of the states. -/
def Dev.inSt (d : Dev) (l : List DevState) : Bool := l.contains d.st

/-- READY, RUNNING or QUIESCED: firmware runs. -/
def Dev.up (d : Dev) : Bool := d.inSt [.ready, .running, .quiesced]

/-- READY, RUNNING or QUIESCED, or BOOT with firmware started: links, ports and Tightrope run (R401). -/
def Dev.live (d : Dev) : Bool := d.up || (d.st = .boot && d.boot.phase = .firmware)

/-! ### Register fields -/

/-- The key of a field in the register table. -/
def Field.key (f : Field) : Nat := 64 * f.off + f.lo

/-- A field's present value. -/
def Dev.fld (d : Dev) (f : Field) : Nat := Tab.get f.reset d.regs f.key

/-- A one-bit field is set. -/
def Dev.on (d : Dev) (f : Field) : Bool := d.fld f = 1

/-- Writing a field: the low bits that it has room for. -/
def Dev.setFld (d : Dev) (f : Field) (n : Nat) : Dev :=
  { d with regs := Tab.set f.reset d.regs f.key (n % 2 ^ f.w) }

/-- Setting or clearing a one-bit field. -/
def Dev.setOn (d : Dev) (f : Field) (b : Bool) : Dev := d.setFld f (if b then 1 else 0)

/-- Adding to a counter that wraps (R9). -/
def Dev.bump (d : Dev) (f : Field) (n : Nat) : Dev := d.setFld f (d.fld f + n)

/-- Adding to a counter that saturates at its largest value. -/
def Dev.bumpSat (d : Dev) (f : Field) (n : Nat) : Dev := d.setFld f (satTo (2 ^ f.w - 1) (d.fld f + n))

/-- Setting bit i of a field that holds a mask. -/
def Dev.setFldBit (d : Dev) (f : Field) (i : Nat) (b : Bool) : Dev := d.setFld f (setBit (d.fld f) i b)

/-! ### Time: the fabric time counter runs at 0.8 GHz (R371) -/

/-- Microseconds in units of 1.25 ns. -/
def us (n : Nat) : Nat := 800 * n

/-- Milliseconds in units of 1.25 ns. -/
def ms (n : Nat) : Nat := 800000 * n

/-- Seconds in units of 1.25 ns. -/
def sec (n : Nat) : Nat := 800000000 * n

/-- The times of a list that lie in the 1 s interval that ends now: what "in any 1 s" counts. -/
def lastSecond (now : Nat) (l : List Nat) : List Nat := l.filter (fun t => now < t + sec 1)

/-- The fabric time counter. -/
def Dev.now (d : Dev) : Nat := d.stp.time

/-- The local clock, from which the device's own limits run. DESIGN CHOICE (log entry 2). -/
def Dev.clk (d : Dev) : Nat := d.clock

/-! ### Free values -/

/-- The next free value. DESIGN CHOICE (log entry 5). -/
def Dev.free (d : Dev) : Nat := Config.freeValue d.fresh

/-- A free value has been drawn. -/
def Dev.draw (d : Dev) : Dev := { d with fresh := d.fresh + 1 }

/-! ### Device memory (R11) -/

/-- What a device address names. -/
inductive Region where
  | vault (core off : Nat)
  | sram (core off : Nat)
  | midway (off : Nat)
  | mirror (off : Nat)
  | none
  deriving DecidableEq, Repr

/-- The first address of the vault of a logical core. -/
def vaultBase (core : Nat) : Nat := core * 0x100000000

/-- The first address of the SRAM window of a logical core. -/
def sramBase (core : Nat) : Nat := 0xE000000000 + core * 0x2000000

/-- The first address of Midway SRAM. -/
def midwayBase : Nat := 0xF000000000

/-- The first address of the register mirror. -/
def mirrorBase : Nat := 0xFF00000000

/-- Bytes of core SRAM. -/
def sramSize : Nat := 0x1800000

/-- Bytes of Midway SRAM. -/
def midwaySize : Nat := 0x20000000

/-- The region of a device address (R11). -/
def regionOf (a : Nat) : Region :=
  if a < 0xC000000000 then .vault (a / 0x100000000) (a % 0x100000000)
  else if a < 0xE000000000 then .none
  else if a < 0xE180000000 then
    if (a - 0xE000000000) % 0x2000000 < sramSize then
      .sram ((a - 0xE000000000) / 0x2000000) ((a - 0xE000000000) % 0x2000000)
    else .none
  else if midwayBase ≤ a && a < midwayBase + midwaySize then .midway (a - midwayBase)
  else if mirrorBase ≤ a && a < mirrorBase + 0x1000000 then .mirror (a - mirrorBase)
  else .none

/-- The logical core whose memory an address names. -/
def coreOfAddr (a : Nat) : Option Nat :=
  match regionOf a with
  | .vault c _ => some c
  | .sram c _ => some c
  | _ => none

/-- [a, a + n) is populated memory: the vaults, which follow one another, one core's SRAM, or Midway SRAM. -/
def memRange (a n : Nat) : Bool :=
  match regionOf a with
  | .vault _ _ => decide (a + n ≤ 0xC000000000)
  | .sram _ o => decide (o + n ≤ sramSize)
  | .midway o => decide (o + n ≤ midwaySize)
  | _ => false

/-- The logical cores whose memory [a, a + n) names, n above 0. -/
def coresOf (a n : Nat) : List Nat :=
  match regionOf a with
  | .vault c _ => (List.range ((a + n - 1) / 0x100000000 - c + 1)).map (fun i => c + i)
  | .sram c _ => [c]
  | _ => []

/-- Bytes of the unit that poison marks at an address: a vault sector or an SRAM half-line. -/
def poisonUnit (a : Nat) : Nat := if a < 0xC000000000 then 64 else 32

/-- The present state code of a logical core: 0 ACTIVE, 1 MIGRATING, 2 LOST, 3 RETIRED (R378). -/
def Dev.coreSt (d : Dev) (core : Nat) : Nat := d.fld (Reg.TWR_CORE.STATE core)

/-- A logical core is LOST or RETIRED. -/
def Dev.coreGone (d : Dev) (core : Nat) : Bool := 2 ≤ d.coreSt core

/-- A poisoned unit lies in or across [a, a + n). -/
def Dev.poisonIn (d : Dev) (a n : Nat) : Bool :=
  d.poison.any (fun p => overlaps p.1 (poisonUnit p.1) a n)

/-- The first poisoned unit in or across [a, a + n). -/
def Dev.firstPoison (d : Dev) (a n : Nat) : Option Nat :=
  (d.poison.find? (fun p => overlaps p.1 (poisonUnit p.1) a n)).map (·.1)

/-- Why an access to device memory cannot be served. -/
inductive MemErr where
  | unpopulated
  | lostCore (core : Nat)
  | poisoned (addr : Nat)
  deriving DecidableEq, Repr

/-- Why an access to [a, a + n) cannot be made: unpopulated addresses, or a lost core. -/
def Dev.accErr (d : Dev) (a n : Nat) : Option MemErr :=
  if n = 0 then none
  else if !memRange a n then some .unpopulated
  else ((coresOf a n).find? d.coreGone).map .lostCore

/-- Why a read of [a, a + n) cannot be served: an access error, or poison. -/
def Dev.readErr (d : Dev) (a n : Nat) : Option MemErr :=
  if n = 0 then none
  else match d.accErr a n with
    | some e => some e
    | none => (d.firstPoison a n).map .poisoned

/-- A byte of device memory; an unlisted byte reads as zero. DESIGN CHOICE (log entry 4). -/
def Dev.peek (d : Dev) (a : Nat) : Byte := Tab.get 0 d.mem a

/-- n bytes of device memory. -/
def Dev.read (d : Dev) (a n : Nat) : List Byte := (List.range n).map (fun i => d.peek (a + i))

/-- A little-endian number of n bytes of device memory. -/
def Dev.readLE (d : Dev) (a n : Nat) : Nat := leNat (d.read a n)

/-- A list of bytes as cells from an address on. -/
def cellsAt (a : Nat) : List Byte → List Host.Cell
  | [] => []
  | b :: r => (a, b) :: cellsAt (a + 1) r

/-- Units of poison that [a, a + n) covers whole are cleared. -/
def healPoison (p : Tab Bool) (a n : Nat) : Tab Bool :=
  p.filter (fun e => !(a ≤ e.1 && e.1 + poisonUnit e.1 ≤ a + n))

/-- The accumulator row (256 bytes, by device address) marked saturated meets [a, a + n): a write clears the mark (R37). -/
def healSat (t : Tab Bool) (a n : Nat) : Tab Bool := t.filter (fun e => !overlaps e.1 256 a n)

/-- A write of bytes; a poisoned unit that it covers whole is poisoned no more (R93, R151). DESIGN CHOICE (log entry 4). -/
def Dev.write (d : Dev) (a : Nat) (l : List Byte) : Dev :=
  { d with
    mem := Tab.setAll 0 d.mem (cellsAt a l)
    poison := healPoison d.poison a l.length
    satRows := healSat d.satRows a l.length }

/-- A write of a little-endian number of n bytes. -/
def Dev.writeLE (d : Dev) (a n v : Nat) : Dev := d.write a (leBytes n v)

/-- Zeroing [a, a + n). -/
def Dev.zero (d : Dev) (a n : Nat) : Dev :=
  { d with
    mem := Tab.clear d.mem a n
    poison := healPoison d.poison a n
    satRows := healSat d.satRows a n }

/-- Copying n bytes from src to dst, whatever their number, the source as it was before. -/
def Dev.copy (d : Dev) (src dst n : Nat) : Dev :=
  { d with
    mem := Tab.copy 0 d.mem src dst n
    poison := healPoison d.poison dst n
    satRows := healSat d.satRows dst n }

/-- [a, a + n) becomes undefined: free bytes. DESIGN CHOICE (log entry 5). -/
def Dev.scramble (d : Dev) (a n : Nat) : Dev :=
  (d.write a ((List.range n).map (Config.freeByte d.fresh))).draw

/-- The unit at an address becomes poisoned. -/
def Dev.setPoison (d : Dev) (a : Nat) : Dev :=
  { d with poison := Tab.set false d.poison (a - a % poisonUnit a) true }

/-- A write that covers only part of a poisoned unit. -/
def Dev.partPoison (d : Dev) (a n : Nat) : Bool :=
  (healPoison d.poison a n).any (fun p => overlaps p.1 (poisonUnit p.1) a n)

/-- The canonical form of device memory: addresses rising, no byte listed that reads as an unlisted one does.
DESIGN CHOICE (log entry 4). -/
def memWf (m : List Host.Cell) : Bool := Tab.wf 0 m

/-! ### Host memory -/

/-- n bytes of host memory. -/
def Dev.hostRead (d : Dev) (a n : Nat) : List Byte := (List.range n).map (fun i => Tab.get 0 d.hq.host (a + i))

/-- A host read of [a, a + n) completes with an error. -/
def Dev.hostErrIn (d : Dev) (a n : Nat) : Bool := d.hq.hostErr.any (fun r => overlaps r.1 r.2 a n)

/-- A write to host memory. -/
def Dev.hostWrite (d : Dev) (a : Nat) (l : List Byte) : Dev :=
  { d with hq := { d.hq with host := Tab.setAll 0 d.hq.host (cellsAt a l) } }

/-- The host has changed its memory. -/
def Dev.hostChange (d : Dev) (c : HostChange) : Dev :=
  { d with hq := { d.hq with host := Tab.setAll 0 d.hq.host c.writes, hostErr := c.errs } }

/-! ### Emissions -/

/-- Something leaves the block. -/
def Dev.emit (d : Dev) (e : Emit) : Dev := { d with out := e :: d.out }

/-! ### MSI-X (R175) -/

/-- A vector is masked: MSI-X off, or the vector control of its entry (masked after reset).
DESIGN CHOICE and DEDUCED (log entry 12). -/
def Dev.msixMasked (d : Dev) (v : Nat) : Bool :=
  !d.hq.msixOn || !d.hq.pcieUp || Tab.get 1 d.hq.msixTab (4 * v + 3) % 2 = 1

/-- A completion comes during a hold-off. -/
def Holdoff.wait (h : Holdoff) : Holdoff :=
  match h with
  | .holding t => .waiting t
  | h => h

/-- A vector in the hold-off waits for its end; otherwise its message is sent, or made pending while masked, and the
hold-off begins. DESIGN CHOICE and DEDUCED (log entry 12). -/
def Dev.msix (d : Dev) (v : Nat) : Dev :=
  { d with
    out := if Tab.get Holdoff.idle d.hq.holdoff v = .idle && !d.msixMasked v then .msix v :: d.out else d.out
    hq := { d.hq with
      pba := if Tab.get Holdoff.idle d.hq.holdoff v = .idle && d.msixMasked v then Tab.set false d.hq.pba v true
             else d.hq.pba
      holdoff :=
        if Tab.get Holdoff.idle d.hq.holdoff v = .idle then
          (if d.fld Reg.HQ_IRQ_HOLDOFF.HOLDOFF = 0 then d.hq.holdoff else Tab.set .idle d.hq.holdoff v (.holding d.clk))
        else Tab.set .idle d.hq.holdoff v (Tab.get Holdoff.idle d.hq.holdoff v).wait } }

/-! ### Flags and states -/

/-- The code of a device state (R443). -/
def DevState.code : DevState → Nat
  | .reset => 0 | .boot => 1 | .recovery => 2 | .ready => 3 | .running => 4 | .quiesced => 5 | .halted => 6

/-- The state code of an optical port: 0 DOWN, 1 TRAINING, 2 UP, 3 CAL, 4 DEGRADED, 5 FAILED. -/
def Dev.portSt (d : Dev) (p : Nat) : Nat := d.fld (Reg.OPT_PORT_STATUS.STATE p)

/-- Bundles of a die-to-die link: 16 of a tower link, 5 of an engine link (R17). -/
def bundlesOf (link : Nat) : Nat := if link < 8 then 16 else 5

/-- A cartridge slot shines on its ports: ONLINE, FADING or RETIRING (R235). -/
def Dev.slotLit (d : Dev) (s : Nat) : Bool :=
  let st := d.fld (Reg.LIM_STATE.STATE s)
  st = 2 || st = 4 || st = 5

/-- The feed that a port has selected comes from a slot that shines: its home slot, or the spare of its home group (R229). -/
def Dev.feedLit (d : Dev) (p : Nat) : Bool :=
  if d.on (Reg.OPT_PORT_STATUS.FEED p) then
    Tab.get 0 d.lim.group (p % 8 / 4) = p % 8 + 1 && d.slotLit (8 + p % 8 / 4)
  else d.slotLit (p % 8)

/-- Some port is without its laser feed (R7): its loss has been seen, or, once firmware runs, its slot does not shine. -/
def Dev.feedsMissing (d : Dev) : Bool := d.feedLost != 0 || (d.up && (List.range 48).any (fun p => !d.feedLit p))

/-- Update cores in service. -/
def Dev.updCoresUp (d : Dev) : Nat := popCount 64 (d.fld Reg.UPD_CORES.IN_SERVICE)

/-- The DEGRADED flag of R7: a logical core LOST or RETIRED, a port DEGRADED or FAILED, fewer than 60 update cores, a
port without its laser feed, a bundle out of service (R25), or a core kept on a site that was to be migrated (R149, R166). -/
def Dev.degraded (d : Dev) : Bool :=
  (List.range 192).any d.coreGone || (List.range 48).any (fun p => 4 ≤ d.portSt p) || d.updCoresUp < 60 ||
    d.feedsMissing || d.bundleOut != 0 || d.shortSites != 0

/-- The REPLACE_REQUESTED flag: a reason bit is set (R375). -/
def Dev.replaceReq (d : Dev) : Bool := d.fld Reg.FLT_REASON.REASONS != 0

/-! ### Fault records (R380 to R383) -/

/-- A fault record before it is written: class, code, subject (none for the device itself), unit, the detail bytes from
byte 13 on, and the detail bytes that go into continuations. -/
structure FaultRec where
  cls     : Nat
  code    : Nat
  subject : Option Nat
  unit    : Nat
  detail  : List Byte
  cont    : List Byte
  deriving DecidableEq, Repr

/-- A fault record with no continuation. -/
def FaultRec.mk1 (cls code unit : Nat) (detail : List Byte) : FaultRec := ⟨cls, code, none, unit, detail, []⟩

/-- Continuations that a number of further detail bytes needs, 24 in each. -/
def FaultRec.conts (r : FaultRec) : Nat := ceilDiv r.cont.length 24

/-- The device's own flat ID. -/
def Dev.selfId (d : Dev) : Nat := d.fld Reg.FAB_SELF.FLAT_ID

/-- The flat ID a record concerns. -/
def Dev.subjectOf (d : Dev) (r : FaultRec) : Nat := r.subject.getD d.selfId

/-- The 32 bytes of a record (R380), flags and state as they are after the event. -/
def Dev.recHead (d : Dev) (r : FaultRec) : List Byte :=
  leBytes 1 r.cls ++ leBytes 1 r.code ++
    leBytes 1 (r.conts % 8 + 8 * flag d.degraded + 16 * flag d.replaceReq) ++ leBytes 1 d.st.code ++
    leBytes 4 d.flt.seq ++ leBytes 2 (d.fld Reg.FLT_REASON.REASONS) ++ leBytes 2 (d.subjectOf r) ++
    leBytes 1 r.unit ++ padTo 11 r.detail ++ leBytes 8 d.now

/-- Continuation i of a record (R381), i from 1. -/
def Dev.recCont (d : Dev) (r : FaultRec) (i : Nat) : List Byte :=
  [0xFF] ++ leBytes 1 i ++ [0, 0] ++ leBytes 4 d.flt.seq ++ slice r.cont (24 * (i - 1)) 24

/-- A record with its continuations, 32 bytes each. -/
def Dev.recEntries (d : Dev) (r : FaultRec) : List (List Byte) :=
  d.recHead r :: (List.range r.conts).map (fun i => d.recCont r (i + 1))

/-- Entry n of the host log at FLT_LOG_BASE (R383). -/
def Dev.logAddr (d : Dev) (n : Nat) : Nat := midwayBase + 0x4000 * d.fld Reg.FLT_LOG_BASE.BASE + 32 * (n % 512)

/-- The writes of log entries from entry n on. -/
def Dev.logCells (d : Dev) (n : Nat) : List (List Byte) → List Host.Cell
  | [] => []
  | e :: r => cellsAt (d.logAddr n) e ++ d.logCells (n + 1) r

/-- A notice about a flat ID is held, or the suspect table has an entry for it (R388).
DESIGN CHOICE and DEDUCED (log entry 27). -/
def Dev.suspected (d : Dev) (x : Nat) : Bool :=
  d.flt.notices.any (fun n => n.1 = x) || d.flt.suspects.any (fun e => e.2.id = x)

/-- The record is kept back from the management queue (R388): it concerns a suspected flat ID and is no suspect report. -/
def Dev.keptBack (d : Dev) (r : FaultRec) : Bool :=
  !(r.cls = 7 && (r.code = 4 || r.code = 5)) &&
    (d.suspected (d.subjectOf r) ||
      (r.cls = 5 && d.on (Reg.OPT_PEER.VALID r.unit) && d.suspected (d.fld (Reg.OPT_PEER.FLAT_ID r.unit))))

/-- Entries of a list of queued records: a record and its continuations. -/
def entriesOf (q : List (Nat × RecBytes)) : Nat := q.foldl (fun n r => n + r.2.length / 32) 0

/-- The management queue with a record added; when it is full the oldest goes (R391). -/
def queueAdd (q : List (Nat × RecBytes)) (r : Nat × RecBytes) : List (Nat × RecBytes) :=
  if entriesOf q + r.2.length / 32 ≤ 4096 then q ++ [r] else q.drop 1 ++ [r]

/-- Records dropped from a full management queue. -/
def queueDrops (q : List (Nat × RecBytes)) (r : Nat × RecBytes) : Nat :=
  if entriesOf q + r.2.length / 32 ≤ 4096 then 0 else entriesOf (q.take 1)

/-- What is written of a fault record: the host log, the counters, the management queue. No record is written in RESET. -/
def Dev.logRecord (d : Dev) (r : FaultRec) : Dev :=
  let es := d.recEntries r
  let head := d.fld Reg.FLT_LOG_HEAD.COUNT
  let q := (d.flt.seq, es.flatten)
  { d with
    mem := Tab.setAll 0 d.mem (d.logCells head es)
    regs := Tab.set 0 (Tab.set 0 (Tab.set 0 d.regs Reg.FLT_LOG_HEAD.COUNT.key ((head + es.length) % 2 ^ 32))
        Reg.GLB_STATE_CHANGE.RECORD.key 1) Reg.FLT_MGMT_STATUS.DROPPED.key
        (if d.keptBack r then d.fld Reg.FLT_MGMT_STATUS.DROPPED
         else satTo 0xFFFF (d.fld Reg.FLT_MGMT_STATUS.DROPPED + queueDrops d.flt.queue q))
    flt := { d.flt with
      seq := (d.flt.seq + 1) % 2 ^ 32
      queue := if d.keptBack r then d.flt.queue else queueAdd d.flt.queue q
      logged := (q :: d.flt.logged).take 512 } }

/-! ### Report messages of the management port (R389 to R391) -/

/-- The header of a message (R390): its type and number; the number moves on. -/
def Dev.mgmtHead (d : Dev) (ty seq : Nat) : List Byte :=
  leBytes 1 ty ++ [1] ++ leBytes 2 d.selfId ++ leBytes 4 seq ++ leBytes 8 (Config.deviceId % 2 ^ 64)

/-- A message goes out with its tag (R390). -/
def Dev.mgmtOut (d : Dev) (l : List Byte) : Dev := d.emit (.mgmt (l ++ hmac d.boot.mgmtKey l))

/-- A report message goes out, or goes out again. -/
def Dev.sendReport (d : Dev) (r : Report) : Dev :=
  d.mgmtOut (d.mgmtHead 1 r.msgSeq ++ (r.recs.map (·.2)).flatten)

/-- Queued records go out while the link is up, at most 40 a message and 8 messages unacknowledged (R391).
DESIGN CHOICE and DEDUCED (log entry 28). -/
def Dev.pumpReports : Nat → Dev → Dev
  | 0, d => d
  | n + 1, d =>
    if d.on Reg.FLT_MGMT_STATUS.LINK_UP && !d.flt.queue.isEmpty && d.flt.unacked.length < 8 then
      let r : Report := ⟨d.flt.msgSeq, d.flt.queue.take 40, d.clk⟩
      Dev.pumpReports n (({ d with flt := { d.flt with
        queue := d.flt.queue.drop 40, unacked := d.flt.unacked ++ [r], msgSeq := (d.flt.msgSeq + 1) % 2 ^ 32 } } : Dev).sendReport r)
    else d

/-- Writing a fault record, sending vector 0 and reporting it (R383, R391). -/
def Dev.record (d : Dev) (r : FaultRec) : Dev :=
  if d.st = .reset then d else Dev.pumpReports 8 ((d.logRecord r).msix 0)

/-- The DEGRADED flag is announced when it has changed: GLB_STATE_CHANGE.FLAGS and vector 0 (R175). -/
def Dev.refreshFlags (d : Dev) : Dev :=
  if d.degraded = d.degradedSeen then d
  else (({ d with degradedSeen := d.degraded } : Dev).setFld Reg.GLB_STATE_CHANGE.FLAGS 1).msix 0

/-- Setting a reason bit (R376): nothing when it is set already. -/
def Dev.setReason (d : Dev) (i : Nat) : Dev :=
  if bit (d.fld Reg.FLT_REASON.REASONS) i then d
  else (((d.setFldBit Reg.FLT_REASON.REASONS i true).setFld Reg.GLB_STATE_CHANGE.FLAGS 1).record
    (.mk1 0x0D 0x01 i []))

/-- Clearing a reason bit (R376). -/
def Dev.clearReason (d : Dev) (i : Nat) : Dev :=
  if bit (d.fld Reg.FLT_REASON.REASONS) i then
    (((d.setFldBit Reg.FLT_REASON.REASONS i false).setFld Reg.GLB_STATE_CHANGE.FLAGS 1).record
      (.mk1 0x0D 0x02 i []))
  else d

/-- A change of the device state: GLB_STATE_CHANGE.STATE and vector 0 (R175). -/
def Dev.setState (d : Dev) (st : DevState) : Dev :=
  (({ d with st := st } : Dev).setFld Reg.GLB_STATE_CHANGE.STATE 1).msix 0

/-- Entry to HALTED: every LM_EN low (R230), with its record after the record of its cause (R6, code 0x01/0x04): cause 1 root PLL, 2 strap,
3 rail, 4 thermal trip; the SEQ of the cause's record, all ones for none. -/
def Dev.enterHalted (d : Dev) (cause seq : Nat) : Dev :=
  (({ d with pins := { d.pins with lmEn := 0 } } : Dev).setState .halted).record (.mk1 0x01 0x04 0xFF
    (leBytes 1 cause ++ leBytes 4 seq ++ leBytes 2 (if cause = 3 then d.fld Reg.DBG_RAIL_FAULT.RAIL else 0)))

/-- A change of a logical core's state, with its record (R378, code 0x03/0x02): new state, old site, new site. -/
def Dev.setCoreSt (d : Dev) (core st oldSite newSite : Nat) : Dev :=
  ((d.setFld (Reg.TWR_CORE.STATE core) st).record
    (.mk1 0x03 0x02 core (leBytes 1 st ++ leBytes 1 oldSite ++ leBytes 1 newSite))).refreshFlags

/-- The physical site that serves a logical core. -/
def Dev.siteOf (d : Dev) (core : Nat) : Nat := d.fld (Reg.TWR_CORE.SITE core)

/-- A logical core becomes LOST, unless it is LOST or RETIRED already. -/
def Dev.loseCore (d : Dev) (core : Nat) : Dev :=
  if d.coreGone core then d else d.setCoreSt core 2 (d.siteOf core) 0x1F

/-! ### Event counters (R184) -/

/-- A counter's value. -/
def Dev.evtGet (d : Dev) (i : Nat) : Nat := Tab.get 0 d.evt i

/-- A little-endian field of a descriptor: its first byte and its length in bytes. -/
def Desc.num (j : Desc) (a n : Nat) : Nat := leAt j.bytes a n

/-- Bits of one byte of a descriptor. -/
def Desc.fb (j : Desc) (a lo w : Nat) : Nat := bits (leAt j.bytes a 1) lo w

/-- A ring pair. -/
def Dev.ring (d : Dev) (r : Nat) : Ring := Tab.get Ring.init d.hq.rings r

/-- The descriptor at the head of a ring. -/
def Dev.head? (d : Dev) (r : Nat) : Option Desc := (d.ring r).fetched.head?

/-- A wait of a descriptor is met: counter ≥ value, unsigned (R180). -/
def Dev.waitMet (d : Dev) (en : Bool) (i v : Nat) : Bool := !en || v ≤ d.evtGet i

/-- Wait 0 is met. -/
def Dev.wait0Met (d : Dev) (j : Desc) : Bool := d.waitMet (j.fb 1 0 1 = 1) (j.num 2 2) (j.num 4 4)

/-- Wait 1 is met. -/
def Dev.wait1Met (d : Dev) (j : Desc) : Bool := d.waitMet (j.fb 1 1 1 = 1) (j.num 8 2) (j.num 12 4)

/-- Both waits are met. -/
def Dev.waitsMet (d : Dev) (j : Desc) : Bool := d.wait0Met j && d.wait1Met j

/-- The next descriptor of a core request ring is placed: its doorbell counter exceeds its index (R317). -/
def Dev.corePlaced (d : Dev) (r : Nat) : Bool :=
  d.fld (Reg.MFB_RING_POS.STARTED r) < d.evtGet (d.fld (Reg.MFB_RING_CFG.DB_EVENT r))

/-- The counters are changed; a ring whose head has its waits met by that notes the time, and so does a core ring whose next
descriptor is placed by that (R197 to R199, R317). -/
def Dev.putEvt (d : Dev) (t : Tab Nat) : Dev :=
  let e : Dev := { d with evt := t }
  { e with
    mfb := { d.mfb with ringSince := (List.range 16).foldl (fun m r =>
      if e.corePlaced r && !d.corePlaced r then Tab.set 0 m r d.clk else m) d.mfb.ringSince }
    met := (List.range 16).foldl (fun m r =>
      match d.head? r with
      | none => m
      | some j => if !e.waitsMet j then Tab.set 0 m r 0 else if d.waitsMet j then m else Tab.set 0 m r (d.clk + 1)) d.met }

/-- Since when the head of a ring has had its waits met: the time a counter met them, or that from which it heads its ring. -/
def Dev.metAt (d : Dev) (r : Nat) : Nat :=
  max (Tab.get 0 d.met r - 1) (match d.head? r with | some j => j.since | none => 0)

/-- A counter set to a value. -/
def Dev.evtSet (d : Dev) (i v : Nat) : Dev := d.putEvt (Tab.set 0 d.evt i (v % 2 ^ 32))

/-- An addition to a counter by a descriptor, a SIGNAL or a notification: modulo 2^32, counted in EVT_SIGNALS. -/
def Dev.evtAdd (d : Dev) (i n : Nat) : Dev := (d.evtSet i (d.evtGet i + n)).bump Reg.EVT_SIGNALS.COUNT 1

/-! ### Packets (R255) -/

/-- The 16 header bytes of a packet. -/
def pktHeader (p : Packet) : List Byte :=
  leBytes 1 (p.cls % 4 + 4 * flag p.dl + 8 * flag p.ord + 16 * flag p.mcast + 32 * flag p.viaTree) ++
    leBytes 1 p.op ++ leBytes 2 p.dst ++ leBytes 2 p.src ++ leBytes 2 (p.payload.length % 8192) ++
    leBytes 5 p.da ++ leBytes 1 p.hops ++ leBytes 2 p.tag

/-- A packet's bytes. -/
def pktBytes (p : Packet) : List Byte := pktHeader p ++ p.payload

/-- The packet that bytes hold; none for a non-zero reserved field or a LEN above 4,096 (R255). -/
def pktParse (l : List Byte) : Option Packet :=
  let b0 := leAt l 0 1
  let len := leAt l 6 2
  if b0 / 64 = 0 && len ≤ 4096 then
    some ⟨b0 % 4, bit b0 2, bit b0 3, bit b0 4, bit b0 5, leAt l 1 1, leAt l 2 2, leAt l 4 2, leAt l 8 5, leAt l 13 1,
      leAt l 14 2, slice l 16 len⟩
  else none

/-- The hop limit a source sets: at least 96 (R255). -/
def Dev.hopLimit (d : Dev) : Nat := max 96 (d.fld Reg.FAB_CFG.HOP_LIMIT)

/-- A packet made by this device. -/
def Dev.mkPkt (d : Dev) (cls : Nat) (ord : Bool) (op dst da tag : Nat) (payload : List Byte) : Packet :=
  ⟨cls, false, ord, false, false, op, dst, d.selfId, da, d.hopLimit, tag, payload⟩

/-- A packet handed to the router; a device whose flat ID is 0xFFFF sends none (R244). -/
def Dev.send (d : Dev) (p : Packet) : Dev :=
  { d with fab := { d.fab with
      arrived := if d.selfId = 0xFFFF then d.fab.arrived else d.fab.arrived ++ [(none, p)] } }

/-- Two packets of one flow of one class (R258). -/
def sameFlow (p q : Packet) : Bool := p.src = q.src && p.cls = q.cls && p.dst = q.dst

/-- A delivered packet can be taken: it is the first of its flow in the inbox. DESIGN CHOICE and DEDUCED (log entry 26). -/
def Dev.canTake (d : Dev) (p : Packet) : Bool := d.fab.inbox.find? (sameFlow p) = some p

/-- A delivered packet is taken. -/
def Dev.take (d : Dev) (p : Packet) : Dev := { d with fab := { d.fab with inbox := d.fab.inbox.erase p } }

end Sys2Proof.Machine
end

