-- ==== Sys2Proof/Machine/HostOps.lean ====
section
/-! DEFINITION. Rings, descriptors, checks and completions (R176 to R191, R196, R197, R449): the shared operations of every descriptor command. -/

namespace Sys2Proof.Machine

/-! ### Status codes (R190) and completion detail (R188) -/

/-- A status's code. -/
def Status.code : Status → Nat
  | .done => 0x00 | .doneNote => 0x01 | .badOpcode => 0x10 | .badField => 0x11 | .lengthExceeds => 0x12
  | .countExceeds => 0x13 | .stateConflict => 0x14 | .noResource => 0x15 | .poisoned => 0x20 | .peerLost => 0x21
  | .indeterminate => 0x22 | .timeout => 0x23 | .stateLost => 0x30 | .replayExhausted => 0x31 | .deviceFault => 0x3F

/-- A status's rank, 1 the highest; 0 for a status that never combines. -/
def Status.rank : Status → Nat
  | .done => 10 | .doneNote => 9 | .badField => 8 | .indeterminate => 7 | .timeout => 6 | .replayExhausted => 5
  | .poisoned => 4 | .peerLost => 3 | .stateLost => 2 | .deviceFault => 1
  | _ => 0

/-- DONE or DONE_NOTE. -/
def Status.good (s : Status) : Bool := s = .done || s = .doneNote

/-- No detail. -/
def Detail.none : Detail := ⟨0, 0xFF, 0xFF, 0xFFFF, 0xFFFF, 0⟩

/-- The offending field's first byte. -/
def Detail.field (b : Nat) : Detail := { Detail.none with fieldByte := b }

/-- A value in AUX. -/
def Detail.auxed (n : Nat) : Detail := { Detail.none with aux := n }

/-- An outcome without detail. -/
def Ending.plain (s : Status) : Ending := ⟨s, Detail.none⟩

/-- BAD_FIELD that names a byte. -/
def Ending.bad (b : Nat) : Ending := ⟨.badField, Detail.field b⟩

/-! ### Descriptor fields (R180) -/

/-- OPC. -/
def Desc.opc (j : Desc) : Nat := j.num 0 1

/-- A descriptor's key: its ring and its ring index. -/
def Desc.key (j : Desc) : Nat × Nat := (j.ring, j.sub)

/-- The region index of a REF. -/
def Desc.refIdx (j : Desc) (a : Nat) : Nat := j.num a 2

/-- The offset of a REF. -/
def Desc.refOff (j : Desc) (a : Nat) : Nat := j.num (a + 2) 6

/-! ### Rings -/

/-- A ring pair changed. -/
def Dev.setRing (d : Dev) (r : Nat) (x : Ring) : Dev :=
  { d with hq := { d.hq with rings := Tab.set Ring.init d.hq.rings r x } }

/-- Entries of a ring: 2^LOG2_SIZE, LOG2_SIZE from 6 to 16. -/
def ringSize (log : Nat) : Nat := 2 ^ clampNat 6 16 log

/-- A ring pair is in use (R176). -/
def Dev.ringOn (d : Dev) (r : Nat) : Bool := d.on Reg.HQ_CTRL.ENABLE && bit (d.fld Reg.HQ_CTRL.RING_EN) r && d.locked

/-- HQ_POLL_MIN as it acts: values below 10 act as 10. -/
def Dev.pollMin (d : Dev) : Nat := max 10 (d.fld Reg.HQ_POLL_MIN.INTERVAL)

/-- HQ_POLL_MAX as it acts: values below HQ_POLL_MIN act as it. -/
def Dev.pollMax (d : Dev) : Nat := max d.pollMin (d.fld Reg.HQ_POLL_MAX.INTERVAL)

/-- Ring polling and record writing go on: the lock in force with ENABLE set, the link up in D0 with Bus Master Enable
(R174, R446). -/
def Dev.polls (d : Dev) : Bool := d.locked && d.on Reg.HQ_CTRL.ENABLE && d.hq.pcieUp && d.hq.busMaster

/-- A ring's MSI-X vector; 0 acts as 1. -/
def Dev.ringVector (d : Dev) (r : Nat) : Nat := max 1 (d.fld (Reg.HQ_CQ_CFG.VECTOR r))

/-- A descriptor started and not complete. -/
def Dev.desc? (d : Dev) (k : Nat × Nat) : Option Desc := (d.ring k.1).started.find? (fun j => j.sub = k.2)

/-- Descriptors started and not complete, all rings. -/
def Dev.inFlight (d : Dev) : Nat := d.hq.rings.foldl (fun n e => n + e.2.started.length) 0 + d.mfb.descs.length

/-! ### Completion records (R185, R188) -/

/-- The completion ring has room for a record. -/
def Dev.cqRoom (d : Dev) (r : Nat) : Bool :=
  ((d.ring r).cqTail + 2 ^ 32 - (d.ring r).cqHead) % 2 ^ 32 < ringSize (d.fld (Reg.HQ_CQ_CFG.LOG2_SIZE r))

/-- The record of a completion, PHASE clear. -/
def Dev.cplBytes (d : Dev) (j : Desc) (e : Ending) : List Byte :=
  leBytes 1 e.st.code ++ leBytes 1 j.ring ++ leBytes 1 j.opc ++ [0] ++ leBytes 4 j.sub ++ slice j.bytes 20 4 ++
    leBytes 1 e.det.note ++ leBytes 1 e.det.lcore ++ leBytes 1 e.det.fieldByte ++ [0] ++ leBytes 2 e.det.pos ++
    leBytes 2 e.det.vinstr ++ leBytes 4 e.det.aux ++ leBytes 8 d.now

/-- The phase bit of the next record: 1 on the first pass, flipping on each wrap. -/
def Dev.phase (d : Dev) (r : Nat) : Nat :=
  1 - (d.ring r).cqTail / ringSize (d.fld (Reg.HQ_CQ_CFG.LOG2_SIZE r)) % 2

/-- Writing a record into its completion ring, then its message (R185 steps 2 and 3). -/
def Dev.writeCpl (d : Dev) (r : Nat) (h : HeldRec) : Dev :=
  let a := d.fld (Reg.HQ_CQ_BASE.ADDR r) / 0x1000 * 0x1000 +
    32 * ((d.ring r).cqTail % ringSize (d.fld (Reg.HQ_CQ_CFG.LOG2_SIZE r)))
  let b := h.bytes.take 1 ++ leBytes 1 (leAt h.bytes 1 1 + 128 * d.phase r) ++ h.bytes.drop 2
  let d := (d.hostWrite a b).setRing r { d.ring r with cqTail := ((d.ring r).cqTail + 1) % 2 ^ 32 }
  let d := ({ d with hq := { d.hq with interval := d.pollMin } } : Dev).bump Reg.HQ_DESC_DONE.COUNT 1
  if h.irq then d.msix (d.ringVector r) else d

/-- Held records are written while there is room (R174, R182). -/
def Dev.flushHeld (r : Nat) : Nat → Dev → Dev
  | 0, d => d
  | k + 1, d =>
    match (d.ring r).held with
    | [] => d
    | h :: rest => if d.cqRoom r then Dev.flushHeld r k ((d.setRing r { d.ring r with held := rest }).writeCpl r h) else d

/-- The record of a completion is written, or held when the ring is full or the host cannot be reached. -/
def Dev.putCpl (d : Dev) (r : Nat) (h : HeldRec) : Dev :=
  if d.polls && d.cqRoom r && (d.ring r).held.isEmpty then d.writeCpl r h
  else d.setRing r { d.ring r with held := (d.ring r).held ++ [h] }

/-- The signal of a completion (R185 step 1). -/
def Dev.signal (d : Dev) (j : Desc) (st : Status) : Dev :=
  if j.fb 1 2 1 = 1 && (st.good || j.fb 1 3 1 = 1) then d.evtAdd (j.num 10 2) (j.num 16 4) else d

/-- Completion of a descriptor: counter, record, message, in that order (R185). -/
def Dev.finish (d : Dev) (j : Desc) (e : Ending) : Dev :=
  let d := d.signal j e.st
  let d := d.setRing j.ring { d.ring j.ring with started := (d.ring j.ring).started.filter (fun x => x.sub != j.sub) }
  d.putCpl j.ring ⟨d.cplBytes j e, j.fb 1 4 1 = 1⟩

/-- Completion of the descriptor with a key; nothing when it is not in flight. -/
def Dev.finishKey (d : Dev) (k : Nat × Nat) (e : Ending) : Dev :=
  match d.desc? k with
  | some j => d.finish j e
  | none => d

/-- The step in progress is marked failed where a cause of R361 holds; the mark stays until the step ends. -/
def Dev.markStep (d : Dev) (on : Bool) : Dev := { d with stp := { d.stp with failed := d.stp.failed || on } }

/-- A RUN or COLL of the step completes: any status but DONE and DONE_NOTE marks the step failed (R361).
DEDUCED (log entry 42). -/
def Dev.finishStep (d : Dev) (k : Nat × Nat) (e : Ending) : Dev :=
  (d.markStep !e.st.good).finishKey k e

/-- The PCIe controller and its configuration space are reset, the link is down and polling stops (R174, R425). -/
def Dev.pcieReset (d : Dev) : Dev :=
  { d with hq := { d.hq with pcieUp := false, busMaster := false, msixOn := false, pcie := PcieSetup.init, msixTab := [], pba := [] } }

/-! ### Starting a descriptor (R182, R196, R197) -/

/-- The descriptor is serialising (R197), QUIESCE left out. -/
def Dev.serial (d : Dev) (j : Desc) : Bool :=
  [0xC1, 0xB0, 0xB1, 0x80, 0xD2].contains j.opc || (j.opc = 0x60 && d.st = .ready)

/-- A serialising descriptor runs. -/
def Dev.serialRuns (d : Dev) : Bool := d.hq.rings.any (fun e => e.2.started.any d.serial)

/-- Of the heads of two rings that of r has had its waits met first; at the same time the lower ring's goes first (R198). -/
def Dev.metBefore (d : Dev) (r q : Nat) : Bool := d.metAt r < d.metAt q || (d.metAt r = d.metAt q && r < q)

/-- A serialising descriptor of another ring heads its ring with its waits met and goes first: against a serialising
descriptor only one that did so before (R197, R198). -/
def Dev.serialAhead (d : Dev) (j : Desc) : Bool :=
  (List.range 16).any (fun r =>
    match d.head? r with
    | some x => r != j.ring && d.serial x && d.waitsMet x && (!d.serial j || d.metBefore r j.ring)
    | none => false)

/-- The limits of R182 leave room for one more started descriptor of the ring. -/
def Dev.startRoom (d : Dev) (r : Nat) : Bool :=
  (d.ring r).started.length < 64 && d.inFlight < 1024 &&
    ((d.ring r).held.isEmpty || (d.ring r).held.length + (d.ring r).started.length < 64)

/-- A QUIESCE that holds back the descriptor: a second QUIESCE, or any once the step has reached its boundary. -/
def Dev.quiesceHolds (d : Dev) (j : Desc) : Bool :=
  d.stp.quiesce.isSome && (j.opc = 0xC0 || d.stp.phase = .none)

/-- A RUN or COLL waits for a step that is open (R359, R368). -/
def Dev.stepHolds (d : Dev) (j : Desc) : Bool :=
  (j.opc = 0x10 || j.opc = 0x30) && d.st = .running && d.stp.phase != .open

/-- The descriptor at the head of a ring starts now (R182, R197). -/
def Dev.starts (d : Dev) (j : Desc) : Bool :=
  d.up && d.ringOn j.ring && d.waitsMet j && d.startRoom j.ring && !d.serialRuns && !d.serialAhead j &&
    !(d.serial j && (d.inFlight != 0)) && !d.quiesceHolds j && !d.stepHolds j &&
    !(j.opc = 0xD2 && d.on Reg.SEC_FUSE.ADVANCE_PENDING)

/-- The head of a ring is a descriptor of the kind asked for, and it starts now. -/
def Dev.descDue (d : Dev) (r : Nat) (p : Desc → Bool) : Bool :=
  match d.head? r with
  | some j => j.ring = r && p j && d.starts j
  | none => false

/-- The head of a ring leaves the fetched ones for the started ones; the next one heads the ring from now on. -/
def Dev.popHead (d : Dev) (r : Nat) : Dev :=
  match (d.ring r).fetched with
  | [] => d
  | j :: rest =>
    ({ d with met := Tab.set 0 d.met r 0 } : Dev).setRing r { d.ring r with
      fetched := match rest with
        | [] => []
        | n :: more => { n with since := d.clk } :: more
      started := (d.ring r).started ++ [j] }

/-- A descriptor that its checks refuse completes; a RUN or COLL refused in the step marks it failed (R183, R361).
DEDUCED (log entry 42). -/
def Dev.refuse (d : Dev) (j : Desc) (e : Ending) : Dev :=
  if (j.opc = 0x10 || j.opc = 0x30) && d.st = .running then
    (d.markStep true).finish j e
  else d.finish j e

/-- Starting the head of a ring: a failed check completes it with no effect (R183), otherwise it runs. -/
def Dev.startDesc (d : Dev) (r : Nat) (chk : Dev → Desc → Option Ending) (go : Dev → Desc → Dev) : Dev :=
  match d.head? r with
  | none => d
  | some j =>
    match chk d j with
    | some e => (d.popHead r).refuse j e
    | none => go (d.popHead r) j

/-! ### Step gaps (R368) -/

/-- An action joins those deferred to the next step gap. DESIGN CHOICE and DEDUCED (log entry 33). -/
def Dev.deferGap (d : Dev) (g : GapAct) : Dev :=
  if d.stp.gapActs.contains g then d else { d with stp := { d.stp with gapActs := d.stp.gapActs ++ [g] } }

/-! ### The checks of R183 -/

/-- The first check that fails. -/
def firstFail : List (Option Ending) → Option Ending
  | [] => none
  | some e :: _ => some e
  | none :: r => firstFail r

/-- A check that fails when the condition holds. -/
def failIf (c : Bool) (e : Ending) : Option Ending := if c then some e else none

/-- A BAD_FIELD check that names a byte. -/
def badIf (c : Bool) (b : Nat) : Option Ending := failIf c (Ending.bad b)

/-- The lowest byte that holds a bit outside the fields an opcode has: header bits always belong, byte 1 [7:5] never.
Fields are (byte, low bit, width). -/
def Desc.reservedByte (j : Desc) (fields : List (Nat × Nat × Nat)) : Option Nat :=
  let used := fields.foldl (fun m f => m ||| ((2 ^ f.2.2 - 1) <<< (8 * f.1 + f.2.1))) (2 ^ 192 - 1 - (7 <<< 13))
  let rest := leNat (padTo 64 j.bytes) &&& ((2 ^ 512 - 1) ^^^ used)
  (List.range 64).find? (fun b => bits rest (8 * b) 8 != 0)

/-- A non-zero reserved field is refused (R10). -/
def Desc.reserved (j : Desc) (fields : List (Nat × Nat × Nat)) : Option Ending :=
  (j.reservedByte fields).map Ending.bad

/-- The opcode is accepted in the listed states only (R196); AUX holds the device state. -/
def Dev.stateCheck (d : Dev) (l : List DevState) : Option Ending :=
  failIf (!d.inSt l) ⟨.stateConflict, Detail.auxed d.st.code⟩

/-- STATE_CONFLICT for an entry in use. -/
def Dev.conflict (d : Dev) : Ending := ⟨.stateConflict, Detail.auxed d.st.code⟩

/-- A REF names a usable entry with the access needed (R186). -/
def Dev.refOk (d : Dev) (i : Nat) (rd wr : Bool) : Bool :=
  i < 1024 && d.on (Reg.HQ_REGION_LEN.VALID i) && (!rd || d.on (Reg.HQ_REGION_LEN.RD i)) &&
    (!wr || d.on (Reg.HQ_REGION_LEN.WR i))

/-- BAD_FIELD for a REF whose region index is invalid or lacks the access. -/
def Dev.refCheck (d : Dev) (j : Desc) (a : Nat) (rd wr : Bool) : Option Ending :=
  badIf (!d.refOk (j.refIdx a) rd wr) a

/-- The region check of R187: offset + length, without wrap, within the region. -/
def Dev.lenCheck (d : Dev) (j : Desc) (a n : Nat) : Option Ending :=
  failIf (d.fld (Reg.HQ_REGION_LEN.LEN (j.refIdx a)) < j.refOff a + n)
    ⟨.lengthExceeds, { Detail.field a with aux := j.refIdx a }⟩

/-- A region is device memory. -/
def Dev.refDev (d : Dev) (i : Nat) : Bool := d.on (Reg.HQ_REGION_LEN.DEVICE i)

/-- The first address a REF names. -/
def Dev.refAddr (d : Dev) (i off : Nat) : Nat :=
  if d.refDev i then d.fld (Reg.HQ_REGION_BASE.BASE i) % 2 ^ 40 + off else d.fld (Reg.HQ_REGION_BASE.BASE i) + off

/-- Bytes that a REF names, from host or device memory. -/
def Dev.refRead (d : Dev) (i off n : Nat) : List Byte :=
  if d.refDev i then d.read (d.refAddr i off) n else d.hostRead (d.refAddr i off) n

end Sys2Proof.Machine
end

