-- ==== Sys2Proof/Machine/Fab.lean ====
section
/-! DEFINITION. Fabric routing (R244 to R262): coordinates, the route, credits, link blocks sent, lost destinations. -/

namespace Sys2Proof.Machine

/-! ### Coordinates (R248, R249) -/

/-- Coordinate a (0 X, 1 Y, 2 Z) of this device. -/
def Dev.here (d : Dev) (a : Nat) : Nat :=
  d.fld (if a = 0 then Reg.FAB_COORD.X else if a = 1 then Reg.FAB_COORD.Y else Reg.FAB_COORD.Z)

/-- The hall size in an axis; 0 acts as 1, above 32 as 32. -/
def Dev.dim (d : Dev) (a : Nat) : Nat :=
  clampNat 1 32 (d.fld (if a = 0 then Reg.FAB_TORUS_DIM.DX else if a = 1 then Reg.FAB_TORUS_DIM.DY else Reg.FAB_TORUS_DIM.DZ))

/-- The job block's base in an axis. -/
def Dev.blockBase (d : Dev) (a : Nat) : Nat :=
  d.fld (if a = 0 then Reg.FAB_BLOCK_BASE.X else if a = 1 then Reg.FAB_BLOCK_BASE.Y else Reg.FAB_BLOCK_BASE.Z)

/-- The job block's size in an axis. -/
def Dev.blockSize (d : Dev) (a : Nat) : Nat :=
  d.fld (if a = 0 then Reg.FAB_BLOCK_SIZE.SX else if a = 1 then Reg.FAB_BLOCK_SIZE.SY else Reg.FAB_BLOCK_SIZE.SZ)

/-- The block holds the whole ring of the axis. -/
def Dev.fullAxis (d : Dev) (a : Nat) : Bool := d.blockSize a = d.dim a

/-- One of the two cases of R249 holds for a box in an axis. -/
def boxAxisOk (base size dim : Nat) : Bool := size = dim || (size < dim && 0 < size && base + size ≤ dim)

/-- A box holds a coordinate in an axis: any of a whole ring, or base ≤ c < base + size. -/
def boxHolds (base size dim c : Nat) : Bool := if size = dim then c < dim else base ≤ c && c < base + size

/-- The job block is valid (R249). -/
def Dev.blockOk (d : Dev) : Bool :=
  [0, 1, 2].all (fun a => boxAxisOk (d.blockBase a) (d.blockSize a) (d.dim a) &&
    boxHolds (d.blockBase a) (d.blockSize a) (d.dim a) (d.here a))

/-- The job block holds a point. -/
def Dev.inBlock (d : Dev) (c : Nat → Nat) : Bool :=
  [0, 1, 2].all (fun a => boxHolds (d.blockBase a) (d.blockSize a) (d.dim a) (c a))

/-- Axis a of a routing entry's coordinates. -/
def Dev.entryAt (d : Dev) (i a : Nat) : Nat :=
  d.fld (if a = 0 then Reg.FAB_ROUTE.X i else if a = 1 then Reg.FAB_ROUTE.Y i else Reg.FAB_ROUTE.Z i)

/-- A routing entry's KIND: 0 none, 1 torus, 2 tree, 3 self. -/
def Dev.kind (d : Dev) (i : Nat) : Nat := d.fld (Reg.FAB_ROUTE.KIND i)

/-- A routing entry as its 64-bit register. -/
def Dev.entryWord (d : Dev) (i : Nat) : Nat :=
  d.kind i + 4 * d.entryAt i 0 + 128 * d.entryAt i 1 + 4096 * d.entryAt i 2 +
    2 ^ 17 * d.fld (Reg.FAB_ROUTE.JOB i) + 2 ^ 18 * d.fld (Reg.FAB_ROUTE.LOST i) + 2 ^ 19 * d.fld (Reg.FAB_ROUTE.MOVED i)

/-- The memory-fabric domain's base and size in an axis (R313). -/
def Dev.domBase (d : Dev) (a : Nat) : Nat :=
  d.fld (if a = 0 then Reg.MFB_DOMAIN_BASE.X else if a = 1 then Reg.MFB_DOMAIN_BASE.Y else Reg.MFB_DOMAIN_BASE.Z)

/-- The domain's size in an axis. -/
def Dev.domSize (d : Dev) (a : Nat) : Nat :=
  d.fld (if a = 0 then Reg.MFB_DOMAIN_SIZE.SX else if a = 1 then Reg.MFB_DOMAIN_SIZE.SY else Reg.MFB_DOMAIN_SIZE.SZ)

/-- The domain is valid: a box by R249, within the job block, holding this device, of at most 64 coordinates (R313). -/
def Dev.domainOk (d : Dev) : Bool :=
  d.blockOk && d.domSize 0 * d.domSize 1 * d.domSize 2 ≤ 64 &&
    [0, 1, 2].all (fun a => boxAxisOk (d.domBase a) (d.domSize a) (d.dim a) &&
      boxHolds (d.domBase a) (d.domSize a) (d.dim a) (d.here a) &&
      (d.fullAxis a || (d.blockBase a ≤ d.domBase a && d.domBase a + d.domSize a ≤ d.blockBase a + d.blockSize a)))

/-- A destination is inside the rack (R313): KIND torus with its coordinates in the domain; with DOMAIN_ERR, this
device alone. -/
def Dev.inRack (d : Dev) (i : Nat) : Bool :=
  i = d.selfId || (d.kind i = 1 && !d.on Reg.MFB_STATUS.DOMAIN_ERR &&
    [0, 1, 2].all (fun a => boxHolds (d.domBase a) (d.domSize a) (d.dim a) (d.entryAt i a)))

/-! ### Ports in service (R251) -/

/-- An optical port. -/
def Dev.port (d : Dev) (p : Nat) : Port := Tab.get Port.init d.opt.ports p

/-- An optical port changed. -/
def Dev.setPort (d : Dev) (p : Nat) (x : Port) : Dev :=
  { d with opt := { d.opt with ports := Tab.set Port.init d.opt.ports p x } }

/-- A port is in service for routing: UP, CAL or DEGRADED, not withdrawn, its coordinates agreeing (R250, R251). -/
def Dev.inService (d : Dev) (p : Nat) : Bool :=
  2 ≤ d.portSt p && d.portSt p ≤ 4 && !(d.port p).withdrawn && !bit (d.fld Reg.FAB_COORD_ERR.PORT) p

/-- The port that disciplines fabric time: PARENT, or ALT while PARENT is not in service (R371). -/
def Dev.timePort (d : Dev) : Option Nat :=
  [d.fld Reg.STP_TIME_CFG.PARENT, d.fld Reg.STP_TIME_CFG.ALT].find? (fun p => p < 36 && d.inService p)

/-- What the ports in service do to the time state: none left, HOLDOVER; one back, LOCKING (R371). -/
def Dev.timeCheck (d : Dev) : Dev :=
  let t := d.fld Reg.STP_STATUS.TIME_STATE
  if d.on Reg.STP_TIME_CFG.ROOT || t = 0 then d
  else if d.timePort.isNone then d.setFld Reg.STP_STATUS.TIME_STATE 3
  else if t = 3 then
    ({ d with stp := { d.stp with inRun := 0, outRun := 0 } } : Dev).setFld Reg.STP_STATUS.TIME_STATE 1
  else d

/-- The ports of a direction in service, ascending; a direction has six ports. -/
def Dev.dirPorts (d : Dev) (dir : Nat) : List Nat :=
  ((List.range 6).map (fun i => 6 * dir + i)).filter d.inService

/-- The tree ports in service, ascending. -/
def Dev.treePorts (d : Dev) : List Nat := ((List.range 12).map (fun i => 36 + i)).filter d.inService

/-- The direction (0 X+, 1 X−, 2 Y+, 3 Y−, 4 Z+, 5 Z−) of the next hop in an axis, none at the coordinate (R251): a
sub-range goes straight, a full axis the shorter way, a tie to +. -/
def Dev.stepDir (d : Dev) (a b : Nat) : Option Nat :=
  if d.here a = b then none
  else if !d.fullAxis a then some (if d.here a < b then 2 * a else 2 * a + 1)
  else some (if 2 * ((b + d.dim a - d.here a) % d.dim a) ≤ d.dim a then 2 * a else 2 * a + 1)

/-- The hop of a direction crosses the wrap link of its axis (R248). -/
def Dev.wraps (d : Dev) (dir : Nat) : Bool :=
  if dir % 2 = 0 then d.here (dir / 2) + 1 = d.dim (dir / 2) else d.here (dir / 2) = 0

/-! ### Credits and port choice (R253, R257) -/

/-- The virtual channel of a packet: 2 · class + DL. -/
def pktVc (p : Packet) : Nat := 2 * p.cls + flag p.dl

/-- Link blocks of a packet (R207). -/
def pktBlocks (p : Packet) : Nat := ceilDiv (16 + p.payload.length) 244

/-- Reserved blocks left of a virtual channel: 128 less those spent. -/
def Credits.left (c : Credits) (v : Nat) : Nat := 128 - Tab.get 0 c.reserved v

/-- Blocks the sender can pay on a channel: the reserved ones left, then shared ones within the class's 1,024. -/
def Credits.avail (c : Credits) (v : Nat) : Nat :=
  c.left v + min c.shared (1024 - Tab.get 0 c.classShared (v / 2))

/-- Paying one block on channel v (R257). -/
def Credits.pay (c : Credits) (v : Nat) : Credits :=
  if 0 < c.left v then { c with reserved := Tab.set 0 c.reserved v (Tab.get 0 c.reserved v + 1) }
  else { c with
    shared := c.shared - 1
    fromShared := Tab.set 0 c.fromShared v (Tab.get 0 c.fromShared v + 1)
    classShared := Tab.set 0 c.classShared (v / 2) (Tab.get 0 c.classShared (v / 2) + 1) }

/-- k credits returned for channel v: first to the shared pool, then to the reserved blocks (R257). -/
def Credits.give (c : Credits) (v k : Nat) : Credits :=
  let r := min k (Tab.get 0 c.fromShared v)
  { reserved := Tab.set 0 c.reserved v (Tab.get 0 c.reserved v - (k - r))
    shared := c.shared + r
    fromShared := Tab.set 0 c.fromShared v (Tab.get 0 c.fromShared v - r)
    classShared := Tab.set 0 c.classShared (v / 2) (Tab.get 0 c.classShared (v / 2) - r) }

/-- The hash of an ordered packet: SRC + 3 · DST + 5 · class (R253). -/
def flowHash (p : Packet) : Nat := p.src + 3 * p.dst + 5 * p.cls

/-- The port among those listed whose sender holds the most credits of a channel, the lowest on a tie.
DESIGN CHOICE and DEDUCED (log entry 26). -/
def Dev.richest (d : Dev) (v : Nat) : List Nat → Option Nat
  | [] => none
  | p :: r =>
    match d.richest v r with
    | none => some p
    | some q => if (d.port q).credits.avail v ≤ (d.port p).credits.avail v then some p else some q

/-- The port a packet takes among those listed (R253): the packet as it leaves, whose DL names its virtual channel. -/
def Dev.pick (d : Dev) (l : List Nat) (p : Packet) : Option Nat :=
  if p.ord then l[flowHash p % l.length]? else d.richest (pktVc p) l

/-! ### The wire: levels, scrambling, alignment units, placement (R203 to R205) -/

/-- The PAM4 level of a bit pair, by Gray code (R203). -/
def gray (n : Nat) : Nat := if n = 3 then 2 else if n = 2 then 3 else n

/-- The bit pairs of a unit in the order of its symbols: pair i of byte j is symbol 4j + i. -/
def bitPairs (u : List Byte) : List Nat := (u.map (fun b => (List.range 4).map (fun i => bits b.toNat (2 * i) 2))).flatten

/-- One bit of the PRBS31 sequence x^31 + x^28 + 1: the bit, and the state after it. -/
def prbsBit (s : Nat) : Nat × Nat :=
  let b := Nat.xor (bits s 30 1) (bits s 27 1)
  (b, (2 * s + b) % 2 ^ 31)

/-- n symbols of a lane's scrambling sequence, two bits in each, the first bit the more significant; and the state after
them. DESIGN CHOICE (log entry 25). -/
def prbsPairs : Nat → Nat → List Nat × Nat
  | 0, s => ([], s)
  | n + 1, s =>
    let a := prbsBit s
    let b := prbsBit a.2
    let r := prbsPairs n b.2
    ((2 * a.1 + b.1) :: r.1, r.2)

/-- The state of lane n's sequence k data beats after an alignment beat; it restarts from 0x1000 + n (R203). -/
def prbsState (n : Nat) : Nat → Nat
  | 0 => 0x1000 + n
  | k + 1 => (prbsPairs 64 (prbsState n k)).2

/-- The levels in which lane n sends a unit in the k-th data beat after an alignment beat (R203). -/
def laneLevels (n k : Nat) (u : List Byte) : List Nat :=
  (List.zipWith Nat.xor (bitPairs u) (prbsPairs 64 (prbsState n k)).1).map gray

/-- The lane of a transmit slot, and the lane it moves to while both carry it (R215). -/
def Dev.slotLanes (d : Dev) (p s : Nat) : List Nat :=
  d.fld (Reg.OPT_MAP.TX_SLOT_LANE p s) :: ((d.port p).txMoves.filter (fun m => m.slot = s)).map (·.new)

/-- The active slots of a port's transmit direction, ascending. -/
def Dev.activeSlots (d : Dev) (p : Nat) : List Nat :=
  (List.range 16).filter (fun s => d.fld (Reg.OPT_MAP.TX_SLOT_LANE p s) < 18)

/-- Stream unit q over n active slots: its data beat and its slot (R205). -/
def unitPlace (act : List Nat) (q : Nat) : Nat × Nat := (q / act.length, act.getD (q % act.length) 0)

/-- The sixteen units of the b-th block since link start, as they go out (R205). -/
def Dev.blockUnits (d : Dev) (p : Nat) (bytes : List Byte) : List LaneUnit :=
  (List.range 16).map (fun i =>
    let e := unitPlace (d.activeSlots p) (16 * (d.port p).txBlocks + i)
    ⟨e.1, e.2, (d.slotLanes p e.2).map (fun n => (n, laneLevels n ((e.1 : Int) - (d.port p).txAlign).toNat (slice bytes (16 * i) 16)))⟩)

/-- Data beats of a port's transmit direction, as its blocks fill them. -/
def Dev.txBeats (d : Dev) (p : Nat) : Nat :=
  if (d.activeSlots p).isEmpty then 0 else ceilDiv (16 * (d.port p).txBlocks) (d.activeSlots p).length

/-- A transmit slot gets a lane. Where the active slots change, stream units are counted anew over them, and the scrambling
goes on. DESIGN CHOICE (log entry 25). -/
def Dev.setTxLane (d : Dev) (p s lane : Nat) : Dev :=
  let was := d.activeSlots p
  let beats := d.txBeats p
  let d := d.setFld (Reg.OPT_MAP.TX_SLOT_LANE p s) lane
  if d.activeSlots p = was then d
  else d.setPort p { d.port p with txBlocks := 0, txAlign := (d.port p).txAlign - beats }

/-- The slot that a transmit lane carries, 0xFF for a spare. -/
def Dev.txSlotOf (d : Dev) (p n : Nat) : Nat := ((List.range 16).find? (fun s => (d.slotLanes p s).contains n)).getD 0xFF

/-- The alignment unit of a transmit lane (R204). -/
def Dev.alignUnit (d : Dev) (p n : Nat) : List Byte :=
  [0x4D, 0x41, 0x52, 0x4B] ++ leBytes 1 n ++ leBytes 1 (d.txSlotOf p n) ++ leBytes 2 (d.port p).acount ++ List.replicate 8 0x5A

/-- An alignment beat goes out on all 18 lanes; the scrambling sequences restart after it (R203, R204). -/
def Dev.sendAlign (d : Dev) (p : Nat) : Dev :=
  let x := d.port p
  (d.setPort p { x with
    acount := (x.acount + 1) % 65536
    txAlign := d.txBeats p }).emit
    (.align p x.acount ((List.range 18).map (d.alignUnit p)))

/-! ### Link blocks (R206, R207) -/

/-- The present ACK of a port: the number before the next expected one. -/
def Port.ack (x : Port) : Nat := (x.rxNext + 65535) % 65536

/-- The virtual channel whose credits are returned next, and how many, at most 15. -/
def Port.credit (x : Port) : Nat × Nat :=
  match x.owed with
  | [] => (0, 0)
  | (v, k) :: _ => (v, min 15 k)

/-- The 256 bytes of a link block sent now (R206): TYPE, VC, SOP, EOP and SEQ as given, the port's ACK, one NAK report
and one credit return. -/
def Port.blockBytes (x : Port) (ty vc : Nat) (sop eop : Bool) (seq : Nat) (body : List Byte) : List Byte :=
  let h := leBytes 1 (ty + 8 * vc + 64 * flag sop + 128 * flag eop) ++ leBytes 2 seq ++ leBytes 2 x.ack ++
    leBytes 2 (x.naks.headD 0) ++ leBytes 1 (x.credit.1 + 8 * x.credit.2 + 128 * flag (!x.naks.isEmpty))
  let b := h ++ padTo 244 body
  b ++ leBytes 4 (crc32 b)

/-- The port after a block has gone: its NAK report and its credits are given. -/
def Port.afterBlock (x : Port) : Port :=
  { x with
    naks := x.naks.drop 1, owed := Tab.set 0 x.owed x.credit.1 (Tab.get 0 x.owed x.credit.1 - x.credit.2)
    txBlocks := x.txBlocks + 1 }

/-- A block leaves a port: what it carries besides its body is taken from the port, and its units are placed on the lanes
(R205). -/
def Dev.sendBlock (d : Dev) (p ty vc : Nat) (sop eop : Bool) (seq : Nat) (body : List Byte) : Dev :=
  let b := (d.port p).blockBytes ty vc sop eop seq body
  (d.setPort p (d.port p).afterBlock).emit (.block p b (d.blockUnits p b))

/-- A control block (R224): subtype in byte 8, body from byte 9. -/
def Dev.sendCtl (d : Dev) (p sub : Nat) (body : List Byte) : Dev :=
  d.sendBlock p 2 0 false false 0 (leBytes 1 sub ++ body)

/-- A control block that asks for an answer: sent now, and again until it is answered. -/
def Dev.askCtl (d : Dev) (p sub : Nat) (body : List Byte) : Dev :=
  let d := d.sendCtl p sub body
  d.setPort p { d.port p with ctl := (d.port p).ctl ++ [⟨sub, body, 1, d.clk⟩] }

/-- The data blocks of a packet from byte offset a on, k of them left. -/
def Dev.sendPktBlocks (p : Nat) (q : Queued) (l : List Byte) (total : Nat) : Nat → Dev → Dev
  | 0, d => d
  | k + 1, d =>
    let i := total - (k + 1)
    let vc := pktVc q.pkt
    let body := slice l (244 * i) 244
    let s := (d.port p).txSeq
    let d := (d.sendBlock p 0 vc (i = 0) (k = 0) s body)
    let x := d.port p
    let d := d.setPort p { x with
      txSeq := (s + 1) % 65536
      replay := x.replay ++ [⟨s, i = 0, k = 0, vc, body, 1, if i = 0 then some q else none, d.clk⟩]
      credits := x.credits.pay vc }
    Dev.sendPktBlocks p q l total k d

/-- The other ports of a port's direction, or the other tree ports. -/
def siblings (p : Nat) : List Nat :=
  (if p < 36 then (List.range 6).map (fun i => 6 * (p / 6) + i) else (List.range 12).map (fun i => 36 + i)).filter (· != p)

/-- A packet must leave before another: both ordered, of one flow, and routed earlier (R258). -/
def Queued.before (e q : Queued) : Bool :=
  e.n < q.n && e.orig.ord && q.orig.ord && e.orig.mcast = q.orig.mcast && sameFlow e.orig q.orig

/-- The packets whose blocks a list holds, as they were queued. -/
def queuedOf (l : List BlkBuf) : List Queued := l.filterMap (·.from?)

/-- The packets that a port holds and has not seen acknowledged: those that wait, those sent, and those kept after a
failure (R222). -/
def Port.holds (x : Port) : List Queued :=
  x.txq ++ queuedOf x.replay ++ (match x.recovery with
    | some r => queuedOf r.replay
    | none => [])

/-- An earlier packet of the flow is still held by another port of the direction, or taken back and not routed again: the
flow moves only when its old port has been drained (R258). -/
def Dev.flowHeld (d : Dev) (p : Nat) (q : Queued) : Bool :=
  q.orig.ord && ((siblings p).any (fun r => (d.port r).holds.any (fun e => e.before q)) ||
    d.fab.again.any (fun a => a.n < q.n && a.pkt.ord && a.pkt.mcast = q.orig.mcast && sameFlow a.pkt q.orig))

/-- A waiting packet can start on a port: the port sends, all its blocks can be paid, the replay buffer has room, no
earlier packet of its channel waits, and its flow's earlier packets are past (R207, R209, R257, R258). -/
def Dev.canStart (d : Dev) (p : Nat) (q : Queued) : Bool :=
  2 ≤ d.portSt p && d.portSt p ≤ 4 && !(d.port p).withdrawn &&
    pktBlocks q.pkt ≤ (d.port p).credits.avail (pktVc q.pkt) && (d.port p).replay.length + pktBlocks q.pkt ≤ 4096 &&
    ((d.port p).txq.find? (fun e => pktVc e.pkt = pktVc q.pkt)) = some q && !d.flowHeld p q

/-- The order of R258 at an output among packets that are ready: C3, then C1, then C0 and C2 in turn; the last packet of
the two was of C2 when `alt` is set. -/
def firstOut {α : Type} (cls : α → Nat) (alt : Bool) (l : List α) : Option α :=
  let first := fun c => l.find? (fun k => cls k = c)
  (first 3).or ((first 1).or (if alt then (first 0).or (first 2) else (first 2).or (first 0)))

/-- What the turn of C0 and C2 is after a packet of a class has gone. -/
def altAfter (alt : Bool) (cls : Nat) : Bool := if cls = 2 then true else if cls = 0 then false else alt

/-- The next packet of a port (R258). -/
def Dev.nextOut (d : Dev) (p : Nat) : Option Queued :=
  firstOut (fun q : Queued => q.pkt.cls) (d.port p).altC2 ((d.port p).txq.filter (d.canStart p))

/-- Packets start on a port as long as one can; one that leaves for want of a torus port counts then (R252). -/
def Dev.pumpN (p : Nat) : Nat → Dev → Dev
  | 0, d => d
  | n + 1, d =>
    match d.nextOut p with
    | none => d
    | some q =>
      let x := d.port p
      let d := d.setPort p { x with txq := x.txq.erase q, altC2 := altAfter x.altC2 q.pkt.cls }
      let d := if q.fallback then d.bump Reg.FAB_TREE_FALLBACK.COUNT 1 else d
      Dev.pumpN p n (Dev.sendPktBlocks p q (pktBytes q.pkt) (pktBlocks q.pkt) (pktBlocks q.pkt) d)

/-- Packets that can start on a port do. -/
def Dev.pump (d : Dev) (p : Nat) : Dev := Dev.pumpN p (d.port p).txq.length d

/-- Packets that waited for another port of the direction to be drained start where they can. -/
def Dev.pumpAll (d : Dev) (p : Nat) : Dev := (p :: siblings p).foldl Dev.pump d

/-- A packet among those that wait, in the order of routing. -/
def insertQueued (q : Queued) : List Queued → List Queued
  | [] => [q]
  | e :: r => if q.n < e.n then q :: e :: r else e :: insertQueued q r

/-- A packet joins a port's queue, and starts when it can. -/
def Dev.enqueue (d : Dev) (p : Nat) (q : Queued) : Dev :=
  (d.setPort p { d.port p with txq := insertQueued q (d.port p).txq }).pump p

/-! ### The route (R251, R252, R254, R256, R260) -/

/-- The axis of a torus port's direction. -/
def portAxis (p : Nat) : Nat := p / 12

/-- HOPS of a packet as it leaves: a device that forwards decrements it, the source sends what it set (R255). -/
def hopsOut (src : Option Nat) (p : Packet) : Nat := if src.isSome then p.hops - 1 else p.hops

/-- A packet as it leaves in a torus direction: HOPS, and DL by R256. -/
def Dev.torusHop (d : Dev) (src : Option Nat) (dir : Nat) (p : Packet) : Packet :=
  let keep := match src with
    | some r => r < 36 && portAxis r = dir / 2 && p.dl
    | none => false
  { p with hops := hopsOut src p, dl := d.fullAxis (dir / 2) && (keep || d.wraps dir) }

/-- A packet as it leaves over the tree: HOPS, DL clear, VIA_TREE set (R255, R256). -/
def treeHop (src : Option Nat) (p : Packet) : Packet := { p with hops := hopsOut src p, dl := false, viaTree := true }

/-- A packet leaves by a port, as `out`; one that would leave with HOPS 0 is dropped (R255).
DESIGN CHOICE and DEDUCED (log entry 26). -/
def Dev.leave (d : Dev) (n : Nat) (src : Option Nat) (q : Nat) (p out : Packet) (fallback : Bool) : Dev :=
  if out.hops = 0 then d.bumpSat Reg.FAB_DROPS.HOP_LIMIT 1 else d.enqueue q ⟨n, src, p, out, fallback⟩

/-- A packet goes to the tree: on a tree port in service, or it waits for one (R252). -/
def Dev.toTree (d : Dev) (n : Nat) (src : Option Nat) (p : Packet) (fallback : Bool) : Dev :=
  match d.pick d.treePorts (treeHop src p) with
  | none => { d with fab := { d.fab with treeWait := d.fab.treeWait ++ [⟨n, src, p, d.clk, fallback⟩] } }
  | some q => d.leave n src q p (treeHop src p) fallback

/-- A packet is delivered to the unit its CLASS and OP name. -/
def Dev.deliver (d : Dev) (p : Packet) : Dev := { d with fab := { d.fab with inbox := d.fab.inbox ++ [p] } }

/-- The neighbour behind a port is LOST: the entry of the flat ID that its peer gave. -/
def Dev.peerIsLost (d : Dev) (p : Nat) : Bool :=
  d.on (Reg.OPT_PEER.VALID p) && d.on (Reg.FAB_ROUTE.LOST (d.fld (Reg.OPT_PEER.FLAT_ID p)))

/-- One copy of a line multicast goes on in a direction (R260); with no port in service, or towards a LOST neighbour, it is
cut (R266). -/
def Dev.lineCopy (d : Dev) (n : Nat) (src : Option Nat) (p : Packet) : Dev :=
  let dir := 2 * (p.dst % 4) + bits p.dst 2 1
  let out := d.torusHop src dir p
  match d.pick (d.dirPorts dir) out with
  | none => d.bumpSat Reg.FAB_MCAST.CUT 1
  | some q => if d.peerIsLost q then d.bumpSat Reg.FAB_MCAST.CUT 1 else d.leave n src q p out false

/-- A received line multicast: delivered here, and sent on while its count is above 0 after the decrement (R260). -/
def Dev.lineArrive (d : Dev) (n : Nat) (src : Option Nat) (p : Packet) : Dev :=
  let k := bits p.dst 3 5 - 1
  let d := d.deliver p
  if k = 0 then d else d.lineCopy n src { p with dst := p.dst % 8 + 8 * k }

/-- A packet is routed: it is counted, and its place in the order of routing is the next. -/
def Dev.numbered (d : Dev) (f : Nat → Dev → Dev) : Dev :=
  f d.fab.count (({ d with fab := { d.fab with count := d.fab.count + 1 } } : Dev).bump Reg.FAB_PKTS.COUNT 1)

/-- The counts of a line multicast in the + and − directions (R260). -/
def Dev.lineCounts (d : Dev) (a : Nat) : Nat × Nat :=
  if d.fullAxis a then (d.dim a / 2, ceilDiv (d.dim a) 2 - 1)
  else (d.blockBase a + d.blockSize a - 1 - d.here a, d.here a - d.blockBase a)

/-- One copy of a line multicast from here; none with a count of 0. -/
def Dev.lineOut (d : Dev) (p : Packet) (code count : Nat) : Dev :=
  if count = 0 then d else d.numbered (fun n d => d.lineCopy n none { p with mcast := true, dst := code + 8 * count })

/-- A line multicast from here along an axis: two copies, none where the count is 0 (R259, R260); a device whose flat ID is
0xFFFF sends none (R244). -/
def Dev.lineSend (d : Dev) (a : Nat) (p : Packet) : Dev :=
  let c := d.lineCounts a
  if d.selfId = 0xFFFF || (c.1 = 0 && c.2 = 0) then d
  else ((d.bumpSat Reg.FAB_MCAST.ORIGINATED 1).lineOut p a c.1).lineOut p (a + 4) c.2

/-! ### Suspects (R384 to R388) -/

/-- FLT_CFG.HOLD_S; 0 acts as 1. -/
def Dev.holdTime (d : Dev) : Nat := sec (max 1 (d.fld Reg.FLT_CFG.HOLD_S))

/-- The table index of a suspect. -/
def Dev.suspectAt (d : Dev) (x : Nat) : Option Nat := (d.flt.suspects.find? (fun e => e.2.id = x)).map (·.1)

/-- A suspect that fills unused entries of the table. -/
def Suspect.none : Suspect := ⟨0, 0, false, 0, 0, false, 0xFF, 0⟩

/-- An entry of the suspect table is written. -/
def Dev.putSuspect (d : Dev) (i : Nat) (e : Suspect) : Dev :=
  { d with flt := { d.flt with suspects := Tab.set Suspect.none d.flt.suspects i e } }

/-- The non-origin entry whose last sighting is oldest. -/
def oldestSuspect : List (Nat × Suspect) → Option (Nat × Suspect)
  | [] => .none
  | e :: r =>
    match oldestSuspect r with
    | .none => if e.2.origin then .none else some e
    | some q => if e.2.origin || q.2.last < e.2.last then some q else some e

/-- The table index a new suspect takes: a free one, or that of the non-origin entry seen longest ago (R384). -/
def Dev.suspectRoom (d : Dev) : Option Nat :=
  ((List.range 64).find? (fun i => !d.flt.suspects.any (fun e => e.1 = i))).or ((oldestSuspect d.flt.suspects).map (·.1))

/-- A notice about X is held. -/
def Dev.holdsNotice (d : Dev) (x : Nat) : Bool := d.flt.notices.any (fun n => n.1 = x)

/-- An origin entry for X is held. -/
def Dev.isOrigin (d : Dev) (x : Nat) : Bool := d.flt.suspects.any (fun e => e.2.id = x && e.2.origin)

/-- A report about a suspect: code 4 at first, code 5 for a count update (R387). -/
def Dev.suspectReport (d : Dev) (code : Nat) (e : Suspect) : Dev :=
  d.record ⟨7, code, some e.id, (if code = 4 then e.port else 0xFF), leBytes 1 e.cause ++ [0] ++ leBytes 4 e.count, []⟩

/-- A suspect notice along an axis of the block (R385). -/
def Dev.noticeLine (d : Dev) (stage : Nat) (body : List Byte) : Dev :=
  if d.selfId = 0xFFFF then d
  else d.lineSend stage (d.mkPkt 3 true 0x40 0 0 0 (slice body 0 3 ++ leBytes 1 stage ++ slice body 4 12))

/-- An origin sends its notice along X, Y and Z (R385). -/
def Dev.sendNotice (d : Dev) (x cause : Nat) : Dev :=
  let b := leBytes 2 x ++ leBytes 1 cause ++ [0] ++ leBytes 2 d.selfId ++ [0, 0] ++ leBytes 8 d.now
  ((d.noticeLine 0 b).noticeLine 1 b).noticeLine 2 b

/-- A sighting of a flat ID, with its cause and the port concerned, 0xFF for none (R384 to R387).
DESIGN CHOICE and DEDUCED (log entry 27). -/
def Dev.sight (d : Dev) (x cause port : Nat) : Dev :=
  let held := d.holdsNotice x || d.isOrigin x
  match d.suspectAt x with
  | some i =>
    let e := Tab.get Suspect.none d.flt.suspects i
    let e : Suspect := { e with count := satTo 0xFFFFFFFF (e.count + 1), last := d.clk, grown := true, origin := e.origin || !held }
    let d := d.putSuspect i e
    if held then d
    else
      let d := (d.putSuspect i { e with grown := false, told := d.clk }).suspectReport 4 e
      if cause ≤ 2 then d.sendNotice x cause else d
  | .none =>
    match d.suspectRoom with
    | .none => d
    | some i =>
      let e : Suspect := ⟨x, cause, !held, 1, d.clk, false, port, d.clk⟩
      let d := d.putSuspect i e
      if held then d
      else
        let d := d.suspectReport 4 e
        if cause ≤ 2 then d.sendNotice x cause else d

/-- A mirror write that this device has sent waits for its acknowledgement, for a vault. -/
def Dev.mirrorOpen (d : Dev) (c : Nat) : Bool :=
  d.mfb.ops.any (fun o => o.origin = .mirror c && o.pkts.any (fun k => k.sent && !k.acked))

/-- The route to the partner changes without keeping order: further mirror writes wait (R258, R321). -/
def Dev.holdMirrors (d : Dev) : Dev :=
  { d with mfb := { d.mfb with mirrorHold := (List.range 192).filter d.mirrorOpen } }

/-- A mirror write of this device takes its torus hop, or falls back to the tree (R258, R321). -/
def Dev.mirrorWay (d : Dev) (p : Packet) (tree : Bool) : Dev :=
  if p.src = d.selfId && p.cls = 0 && p.op = 5 && d.mfb.mirrorTree != tree then
    (let d : Dev := { d with mfb := { d.mfb with mirrorTree := tree } }
     if tree then d.holdMirrors else d)
  else d

/-- The unicast route of a packet (R251), src its arrival port, n its place in the order of routing. -/
def Dev.routeUni (d : Dev) (n : Nat) (src : Option Nat) (p : Packet) : Dev :=
  let e := p.dst
  if e = 0xFFFF || d.kind e = 0 then d.bumpSat Reg.FAB_DROPS.NO_ROUTE 1
  else if d.on (Reg.FAB_ROUTE.LOST e) then (d.bumpSat Reg.FAB_DROPS.LOST_DST 1).sight e 3 0xFF
  else if d.kind e = 3 then d.deliver p
  else if d.kind e = 2 || d.on Reg.FAB_STATUS.BLOCK_ERR || !d.inBlock (d.entryAt e) then d.toTree n src p false
  else if p.src = d.selfId && p.cls ≤ 1 && !d.inRack e then d.toTree n src p false
  else match [0, 1, 2].findSome? (fun a => d.stepDir a (d.entryAt e a)) with
    | none => d.bumpSat Reg.FAB_DROPS.NO_ROUTE 1
    | some dir =>
      match d.pick (d.dirPorts dir) (d.torusHop src dir p) with
      | some q => (d.mirrorWay p false).leave n src q p (d.torusHop src dir p) false
      | none => (d.mirrorWay p true).toTree n src p true

/-- The operations the chapters set for each class; every other OP is reserved (R255). -/
def opKnown (cls op : Nat) : Bool :=
  if cls = 0 then 1 ≤ op && op ≤ 7
  else if cls = 1 then 1 ≤ op && op ≤ 4
  else if cls = 2 then [0x10, 0x11, 0x12, 0x50, 0x51, 0x52, 0x53, 0x54, 0x55].contains op
  else [0x01, 0x02, 0x03, 0x20, 0x21, 0x22, 0x23, 0x30, 0x31, 0x40].contains op

/-- A line code that no source makes: a reserved field, axis 3, or no device to reach (R259). -/
def lineBad (code : Nat) : Bool := bits code 3 5 = 0 || code % 4 = 3 || 256 ≤ code

/-- The router's decision for a packet arrived whole from a port, or made here (R251, R254). -/
def Dev.route (d : Dev) (src : Option Nat) (p : Packet) : Dev :=
  if d.selfId = 0xFFFF then d
  else d.numbered (fun n d =>
    if !opKnown p.cls p.op then d.bumpSat Reg.FAB_DROPS.NO_ROUTE 1
    else if src.any (36 ≤ ·) then
      (if !p.mcast && p.dst = d.selfId then d.deliver p else d.bumpSat Reg.FAB_DROPS.MISROUTED 1)
    else if p.mcast then (if lineBad p.dst then d.bumpSat Reg.FAB_DROPS.NO_ROUTE 1 else d.lineArrive n src p)
    else d.routeUni n src p)

/-- Packets waiting for a tree port leave as soon as one is in service, oldest first (R252). -/
def Dev.releaseTree (d : Dev) : Dev :=
  if d.treePorts.isEmpty then d
  else
    let w := d.fab.treeWait
    w.foldl (fun d t => d.toTree t.n t.src t.pkt t.fallback) ({ d with fab := { d.fab with treeWait := [] } } : Dev)

/-- A packet taken back among others, in the order of routing. -/
def insertAgain (a : Again) : List Again → List Again
  | [] => [a]
  | e :: r => if a.n < e.n then a :: e :: r else e :: insertAgain a r

/-- Queued packets are taken back to be routed again, ahead of later ones. -/
def Dev.takeBack (d : Dev) (l : List Queued) : Dev :=
  { d with fab := { d.fab with again := l.foldl (fun t q => insertAgain ⟨q.n, q.src, q.orig⟩ t) d.fab.again } }

/-- Packets are handed to the router ahead of those that have arrived. -/
def Dev.reroute (d : Dev) (l : List (Option Nat × Packet)) : Dev :=
  { d with fab := { d.fab with arrived := l ++ d.fab.arrived } }

/-- A packet taken back is routed again: a line copy in its direction, any other by its route; it keeps its place in the
order of routing. -/
def Dev.routeAgain (d : Dev) (a : Again) : Dev :=
  let d := d.bump Reg.FAB_PKTS.COUNT 1
  if a.pkt.mcast then d.lineCopy a.n a.src a.pkt else d.routeUni a.n a.src a.pkt

/-! ### Changes of the routing table (R246, R261, R262) -/

/-- A change of a routing entry, with its fault record (code 0x07/0x01). -/
def Dev.changeEntry (d : Dev) (i : Nat) (f : Dev → Dev) : Dev :=
  let new := f d
  new.record ⟨7, 1, some i, 0xFF, leBytes 8 (d.entryWord i), leBytes 8 (new.entryWord i)⟩

/-- Packets for a flat ID that wait in queues are discarded and counted (R262). -/
def Dev.dropFor (d : Dev) (i : Nat) : Dev :=
  let gone := fun p : Packet => !p.mcast && p.dst = i
  let n := (d.fab.arrived.filter (fun e => gone e.2)).length + (d.fab.again.filter (fun a => gone a.pkt)).length +
    (d.fab.treeWait.filter (fun t => gone t.pkt)).length +
    d.opt.ports.foldl (fun n e => n + (e.2.txq.filter (fun q => gone q.orig)).length) 0
  let d := { d with
    fab := { d.fab with
      arrived := d.fab.arrived.filter (fun e => !gone e.2)
      again := d.fab.again.filter (fun a => !gone a.pkt)
      treeWait := d.fab.treeWait.filter (fun t => !gone t.pkt) }
    opt := { d.opt with ports := d.opt.ports.map (fun (e : Nat × Port) =>
      (e.1, { e.2 with txq := e.2.txq.filter (fun q => !gone q.orig) })) } }
  (List.range n).foldl (fun d _ => d.sight i 3 0xFF) (d.bumpSat Reg.FAB_DROPS.LOST_DST n)

/-- LOST of a routing entry set or cleared (R261). -/
def Dev.markLost (d : Dev) (i : Nat) (b : Bool) : Dev :=
  if i = 0xFFFF || d.on (Reg.FAB_ROUTE.LOST i) = b then d
  else
    let d := d.changeEntry i (fun d => d.setOn (Reg.FAB_ROUTE.LOST i) b)
    if b then (d.bump Reg.FAB_LOST.ENTRIES 1).dropFor i
    else d.setFld Reg.FAB_LOST.ENTRIES (d.fld Reg.FAB_LOST.ENTRIES - 1)

/-! ### The checks made at lock (R247, R249, R250, R313) -/

/-- Flat IDs whose routing entry has KIND self; entry 0xFFFF names no device (R244, R245). -/
def Dev.selfEntries (d : Dev) : List Nat :=
  ((d.regs.filter (fun e => 64 * 0x800000 ≤ e.1 && e.1 < 64 * 0x880000 && e.1 % 512 = 0 && e.2 % 4 = 3)).map
    (fun e => (e.1 - 64 * 0x800000) / 512)).filter (· != 0xFFFF)

/-- The self check (R247): the table is mended, each change recorded. -/
def Dev.selfCheck (d : Dev) : Dev :=
  let own := d.selfId
  if own = 0xFFFF then d
  else
    let others := d.selfEntries.filter (· != own)
    if d.kind own = 3 && others.isEmpty then d
    else
      let d := d.setFld Reg.FAB_STATUS.SELF_ERR 1
      let d := if d.kind own = 3 then d else d.changeEntry own (fun d => d.setFld (Reg.FAB_ROUTE.KIND own) 3)
      others.foldl (fun d i => d.changeEntry i (fun d => d.setFld (Reg.FAB_ROUTE.KIND i) 0)) d

/-- The neighbour coordinate in a direction's axis (R248). -/
def Dev.neighbour (d : Dev) (dir : Nat) : Nat :=
  if dir % 2 = 0 then (d.here (dir / 2) + 1) % d.dim (dir / 2)
  else (d.here (dir / 2) + d.dim (dir / 2) - 1) % d.dim (dir / 2)

/-- The peer coordinates of a port agree with R248 in its direction. -/
def Dev.coordOk (d : Dev) (p : Nat) (xyz : Nat × Nat × Nat) : Bool :=
  let c := fun a => if a = 0 then xyz.1 else if a = 1 then xyz.2.1 else xyz.2.2
  [0, 1, 2].all (fun a => c a = (if a = p / 12 then d.neighbour (p / 6) else d.here a))

/-- The coordinate check of one torus port (R250): made at lock and after every training. -/
def Dev.coordCheck (d : Dev) (p : Nat) : Dev :=
  if 36 ≤ p || !d.on (Reg.OPT_PEER.VALID p) then d
  else
    let bad := !d.coordOk p (Tab.get (0, 0, 0) d.peerCoord p)
    let was := bit (d.fld Reg.FAB_COORD_ERR.PORT) p
    let d := (d.setFldBit Reg.FAB_COORD_ERR.PORT p bad).timeCheck
    if bad && !was then
      d.record ⟨5, 1, some (d.fld (Reg.OPT_PEER.FLAT_ID p)), p,
        leBytes 1 (d.portSt p) ++ leBytes 1 (d.fld (Reg.OPT_PORT_STATUS.CAUSE p)), []⟩
    else d

/-- The checks made at lock (R446 step 2). -/
def Dev.lockChecks (d : Dev) : Dev :=
  let d := d.selfCheck
  let d := d.setOn Reg.FAB_STATUS.BLOCK_ERR (!d.blockOk)
  let d := (List.range 36).foldl Dev.coordCheck d
  d.setOn Reg.MFB_STATUS.DOMAIN_ERR (!d.domainOk)

end Sys2Proof.Machine
end

