-- ==== Sys2Proof/Machine/MfbOps.lean ====
section
/-! DEFINITION. The source side of the memory fabric: packets, windows, acknowledgements, cache lines; and mirrored writes to device memory (R161, R316 to R322, R325, R326, R331). -/

namespace Sys2Proof.Machine

/-! ### Packets of an operation (R319) -/

/-- MOP of a mirror write, which no descriptor names. -/
def mopMirror : Nat := 0

/-- MOP of a notify packet, which no descriptor names. -/
def mopNotify : Nat := 7

/-- A packet not yet sent. -/
def freshPkt (da len : Nat) (payload : List Byte) : MfbPkt := ⟨da, len, payload, false, 0, 0, false, true⟩

/-- MOP is an atomic. -/
def mopAtomic (m : Nat) : Bool := 0x10 ≤ m && m ≤ 0x17

/-- MOP is a reduction. -/
def mopReduce (m : Nat) : Bool := 0x20 ≤ m && m ≤ 0x23

/-- MOP reads. -/
def mopGet (m : Nat) : Bool := m = 1 || m = 2

/-- The largest number of data bytes in a packet: 4,096, and 4,092 beside the 4 leading bytes of a reduction.
DESIGN CHOICE (log entry 31). -/
def mopChunk (m : Nat) : Nat := if mopReduce m then 4092 else 4096

/-- [a, a + n) cut at every 4 KiB boundary and at the largest packet: (address, length), k pieces at most. -/
def cutRange (big : Nat) : Nat → Nat → Nat → List (Nat × Nat)
  | 0, _, _ => []
  | k + 1, a, n =>
    if n = 0 then []
    else
      let m := min (min big n) (4096 - a % 4096)
      (a, m) :: cutRange big k (a + m) (n - m)

/-- The pieces of an operation. -/
def opPieces (mop a n : Nat) : List (Nat × Nat) := cutRange (mopChunk mop) (n / 2048 + 3) a n

/-- The pieces of an operation as packets not yet sent, with the data they carry. -/
def opPkts (mop remote : Nat) (data : List Byte) (n : Nat) : List MfbPkt :=
  (opPieces mop remote n).map (fun p => freshPkt p.1 p.2 (if data.isEmpty then [] else slice data (p.1 - remote) p.2))

/-- OP of an operation's request packets. -/
def mopPktOp (m : Nat) : Nat :=
  if mopGet m then 1 else if m = 3 then 2 else if mopAtomic m then 3 else if mopReduce m then 4 else if m = 0 then 5 else if m = 7 then 7 else 6

/-- The payload of a request packet (R319, R327). -/
def reqPayload (o : MfbOp) (k : MfbPkt) : List Byte :=
  if mopGet o.mop then leBytes 4 k.len
  else if mopAtomic o.mop then
    leBytes 1 o.mop ++ leBytes 1 o.len ++ leBytes 1 o.tries ++ zeros 5 ++ leBytes 8 o.operand ++ leBytes 8 o.compare ++
      leBytes 8 o.issued
  else if mopReduce o.mop then leBytes 1 o.mop ++ zeros 3 ++ k.payload
  else k.payload

/-! ### Windows (R331) -/

/-- MFB_CFG.WINDOW; 0 acts as 1. -/
def Dev.maxWindow (d : Dev) : Nat := max 1 (d.fld Reg.MFB_CFG.WINDOW)

/-- The window towards a home that has none of its own yet. -/
def Dev.newWindow (d : Dev) : MfbWindow := ⟨d.maxWindow, false, 0⟩

/-- The window towards a home. -/
def Dev.window (d : Dev) (home : Nat) : MfbWindow := Tab.get d.newWindow d.mfb.windows home

/-- The flat ID whose routing entry has KIND torus and these coordinates; 0xFFFF for none. -/
def Dev.idAt (d : Dev) (c : Nat → Nat) : Nat :=
  ((d.regs.find? (fun e =>
    let i := (e.1 - 64 * 0x800000) / 512
    64 * 0x800000 ≤ e.1 && e.1 < 64 * 0x880000 && e.1 % 512 = 0 && i != 0xFFFF && (d.kind i = 1) &&
      [0, 1, 2].all (fun a => d.entryAt i a = c a))).map (fun e => (e.1 - 64 * 0x800000) / 512)).getD 0xFFFF

/-- The members of this device's line along an axis that a line multicast reaches, + direction first, nearest first (R260,
R322). -/
def Dev.lineMembers (d : Dev) (a : Nat) : List Nat :=
  let c := d.lineCounts a
  let at' := fun (x : Nat) => d.idAt (fun b => if b = a then x else d.here b)
  (List.range c.1).map (fun i => at' ((d.here a + i + 1) % d.dim a)) ++
    (List.range c.2).map (fun i => at' ((d.here a + d.dim a - i - 1) % d.dim a))

/-- The homes of an operation: for PUT_LINE the members of the line that the table names. -/
def Dev.homesOf (d : Dev) (o : MfbOp) : List Nat :=
  if o.mop = 4 then (d.lineMembers o.home).filter (· != 0xFFFF) else [o.home]

/-- A packet of an operation sent and not answered by a home. -/
def MfbOp.openAt (o : MfbOp) (home : Nat) (k : MfbPkt) : Bool :=
  k.sent && (if o.mop = 4 then !o.acks.contains (home, k.da) else !k.acked)

/-- Requests to a home sent and not answered. -/
def Dev.outTo (d : Dev) (home : Nat) : Nat :=
  d.mfb.ops.foldl (fun n o => if (d.homesOf o).contains home then n + (o.pkts.filter (o.openAt home)).length else n) 0

/-- The window towards a home has room. -/
def Dev.homeRoom (d : Dev) (home : Nat) : Bool := d.outTo home < (d.window home).size

/-- An operation changed, by its number. -/
def Dev.modOp (d : Dev) (id : Nat) (f : MfbOp → MfbOp) : Dev :=
  { d with mfb := { d.mfb with ops := d.mfb.ops.map (fun o => if o.id = id then f o else o) } }

/-- The packet of an operation at an address changed. -/
def MfbOp.modPkt (o : MfbOp) (da : Nat) (f : MfbPkt → MfbPkt) : MfbOp :=
  { o with pkts := o.pkts.map (fun k => if k.da = da then f k else k) }

/-- One request packet is sent; ISSUED is the time of an operation's first send, which an atomic's sequence number keeps. -/
def Dev.sendReq (d : Dev) (o : MfbOp) (k : MfbPkt) : Dev :=
  let first := o.pkts.all (fun k => !k.sent)
  let o : MfbOp := if first then { o with issued := d.now } else o
  let p := d.mkPkt 0 true (mopPktOp o.mop) o.home k.da o.tag (reqPayload o k)
  let d : Dev := if first && mopAtomic o.mop then { d with mfb := { d.mfb with seqTime := Tab.set 0 d.mfb.seqTime o.tag (d.clk + 1) } }
    else d
  let d := if o.mop = 4 then d.lineSend o.home p else d.send p
  d.modOp o.id (fun x => { x.modPkt k.da (fun k => { k with sent := true, sentAt := d.clk, firstAt := if k.sent then k.firstAt else d.clk }) with
    issued := o.issued })

/-- A mirror write that waits until those sent before a change of the route are acknowledged (R321). -/
def Dev.mirrorHeld (d : Dev) (o : MfbOp) : Bool :=
  match o.origin with
  | .mirror c => d.mfb.mirrorHold.contains c && d.mirrorOpen c
  | _ => false

/-- The first unsent packet to a home that may go: one of PUT_LINE needs room in the window of every member (R331). -/
def Dev.nextReq (d : Dev) (home : Nat) : Option (MfbOp × MfbPkt) :=
  d.mfb.ops.findSome? (fun o =>
    if (d.homesOf o).contains home && !d.mirrorHeld o && (d.homesOf o).all d.homeRoom then
      (o.pkts.find? (fun k => !k.sent)).map (fun k => (o, k))
    else none)

/-- Packets to a home go as long as its window has room. -/
def Dev.pumpHomeN (home : Nat) : Nat → Dev → Dev
  | 0, d => d
  | n + 1, d =>
    match d.nextReq home with
    | none => d
    | some (o, k) => Dev.pumpHomeN home n (d.sendReq o k)

/-- Packets to a home go as long as its window has room. -/
def Dev.pumpHome (d : Dev) (home : Nat) : Dev :=
  Dev.pumpHomeN home 256 { d with mfb := { d.mfb with mirrorHold := d.mfb.mirrorHold.filter d.mirrorOpen } }

/-- Packets to the homes of an operation go as long as their windows have room. -/
def Dev.pumpOp (d : Dev) (o : MfbOp) : Dev := (d.homesOf o).foldl Dev.pumpHome d

/-! ### The remote line cache (R325, R326) -/

/-- The set of a line. -/
def rlcSet (id line : Nat) : Nat := (line % 65536) ^^^ (id % 65536)

/-- The bytes of a cached line. -/
def Dev.rlcFind (d : Dev) (id line : Nat) : Option (List Byte) :=
  ((Tab.get [] d.mfb.rlc (rlcSet id line)).find? (fun l => l.id = id && l.line = line)).map (·.bytes)

/-- A set changed. -/
def Dev.rlcSetTo (d : Dev) (i : Nat) (l : List RlcLine) : Dev :=
  { d with mfb := { d.mfb with rlc := Tab.set [] d.mfb.rlc i l } }

/-- A line becomes its set's most recently used one; the sixteenth line before it goes. -/
def Dev.rlcPut (d : Dev) (l : RlcLine) : Dev :=
  let i := rlcSet l.id l.line
  d.rlcSetTo i ((l :: (Tab.get [] d.mfb.rlc i).filter (fun x => !(x.id = l.id && x.line = l.line))).take 16)

/-- Cached lines that meet a condition are dropped, and fills in flight that meet it are not installed (R326, R332). -/
def Dev.rlcDrop (d : Dev) (p : Nat → Nat → Bool) : Dev :=
  { d with mfb := { d.mfb with
      rlc := (d.mfb.rlc.map (fun (e : Nat × List RlcLine) => (e.1, e.2.filter (fun l => !p l.id l.line)))).filter (fun e => !e.2.isEmpty)
      ops := d.mfb.ops.map (fun o =>
        if o.mop = 2 then { o with pkts := o.pkts.map (fun k => if p o.home (k.da / 64) then { k with install := false } else k) }
        else o) } }

/-- Lines of a flat ID that meet [a, a + n) are dropped. -/
def Dev.rlcDropRange (d : Dev) (id a n : Nat) : Dev :=
  d.rlcDrop (fun i l => i = id && overlaps (64 * l) 64 a n)

/-- Every line is dropped. -/
def Dev.rlcDropAll (d : Dev) : Dev := d.rlcDrop (fun _ _ => true)

/-! ### Starting and ending an operation -/

/-- Cached lines that a write of this device touches are dropped at issue (R326). -/
def Dev.rlcWrite (d : Dev) (o : MfbOp) : Dev :=
  if o.mop = 4 then (d.lineMembers o.home).foldl (fun d x => d.rlcDropRange x o.remote o.len) d
  else if o.mop = 3 || mopAtomic o.mop || mopReduce o.mop then d.rlcDropRange o.home o.remote o.len
  else d

/-- An operation joins those in flight, and its packets go as the window allows. -/
def Dev.startOp (d : Dev) (o : MfbOp) : Dev :=
  let o := { o with id := d.mfb.nextId, start := d.clk }
  let d := d.rlcWrite o
  ({ d with mfb := { d.mfb with ops := d.mfb.ops ++ [o], nextId := d.mfb.nextId + 1 } } : Dev).pumpOp o

/-- A new transaction tag. -/
def Dev.takeTag (d : Dev) : Dev := { d with mfb := { d.mfb with nextTag := (d.mfb.nextTag + 1) % 65536 } }

/-- An operation that the source issues now; the tag of an atomic is its sequence number. -/
def Dev.issueOp (d : Dev) (mop : Nat) (origin : MfbOrigin) (home remote len : Nat) (loc : Bool × Nat) (notify : Option Nat)
    (pkts : List MfbPkt) : Dev :=
  let o : MfbOp := ⟨0, mop, origin, home, d.mfb.nextTag, remote, len, loc.1, loc.2, notify, pkts, d.now, d.clk, 0, 0, 0, []⟩
  d.takeTag.startOp o

/-- An operation leaves those in flight. -/
def Dev.dropOp (d : Dev) (id : Nat) : Dev :=
  { d with mfb := { d.mfb with ops := d.mfb.ops.filter (fun o => o.id != id) } }

/-- A member of the line has acknowledged every packet of a PUT_LINE. -/
def MfbOp.ackedBy (o : MfbOp) (x : Nat) : Bool := o.pkts.all (fun k => o.acks.contains (x, k.da))

/-- The notify packets of an operation that asks for them, with its tag: to its home, or to each member of the line that has
acknowledged (R319, R320). -/
def Dev.sendNotify (d : Dev) (o : MfbOp) : Dev :=
  match o.notify with
  | none => d
  | some e =>
    let upto := if o.mop = 4 then (d.homesOf o).filter o.ackedBy else [o.home]
    upto.foldl (fun d x => d.startOp { o with
      mop := mopNotify, origin := .notify, home := x, remote := 0, len := 2, notify := none, acks := []
      pkts := [freshPkt 0 2 (leBytes 2 e)] }) d

/-- The operation that a response answers: its home, its tag, and an address it has asked about. -/
def Dev.opOf (d : Dev) (atomic : Bool) (src tag da : Nat) : Option MfbOp :=
  d.mfb.ops.find? (fun o => o.tag = tag && mopAtomic o.mop = atomic && (o.mop = 4 || o.home = src) &&
    o.pkts.any (fun k => k.sent && k.da = da))

/-! ### Mirrored ranges (R160, R161) -/

/-- The mirrored range of a logical core: vault offset and length; a range past the end of the vault ends there. -/
def Dev.mirrorRange (d : Dev) (core : Nat) : Nat × Nat :=
  let b := 4096 * d.fld (Reg.VLT_MIRROR_SRC.BASE core)
  (b, min (4096 * min 262144 (d.fld (Reg.VLT_MIRROR_SRC.PAGES core))) (0x100000000 - b))

/-- The partner's address of a vault offset in the mirrored range. -/
def Dev.mirrorDst (d : Dev) (core off : Nat) : Nat :=
  d.fld (Reg.VLT_MIRROR_DST.DA core) / 4096 * 4096 + (off - (d.mirrorRange core).1)

/-- Mirror writes are sent: mirroring on, and the mirror OK or in RESYNC. -/
def Dev.mirrors (d : Dev) : Bool :=
  d.locked && d.on Reg.VLT_MIRROR_PEER.ENABLE &&
    (d.fld Reg.VLT_MIRROR_PEER.STATE = 1 || d.fld Reg.VLT_MIRROR_PEER.STATE = 3)

/-- The parts of [a, a + n) outside units poisoned there, whose list rises: what can be read of it. -/
def cutPoison : List Nat → Nat → Nat → List (Nat × Nat)
  | [], a, n => if n = 0 then [] else [(a, n)]
  | p :: r, a, n =>
    if n = 0 || !overlaps p (poisonUnit p) a n then cutPoison r a n
    else (if a < p then [(a, p - a)] else []) ++ cutPoison r (p + poisonUnit p) (a + n - (p + poisonUnit p))

/-- What of a write to [a, a + n) lies in mirrored ranges and can be read, vault by vault (R161). -/
def Dev.mirrorParts (d : Dev) (a n : Nat) : List (Nat × Nat) :=
  (((List.range 192).filter (fun c => n != 0 && overlaps (vaultBase c) 0x100000000 a n)).map (fun c =>
    let r := d.mirrorRange c
    let lo := max a (vaultBase c + r.1)
    let hi := min (a + n) (vaultBase c + r.1 + r.2)
    if lo < hi then cutPoison (d.poison.map (·.1)) lo (hi - lo) else [])).flatten

/-- One ordered store to the partner of a part of a logical core's mirrored range (R161). -/
def Dev.mirrorSend (d : Dev) (a n : Nat) : Dev :=
  let c := a / 0x100000000
  let dst := d.mirrorDst c (a % 0x100000000)
  d.issueOp mopMirror (.mirror c) (d.fld Reg.VLT_MIRROR_PEER.FLAT_ID) dst n (true, a) none (opPkts mopMirror dst (d.read a n) n)


/-- Mirror writes issued and not acknowledged: what a fence waits for (R161). -/
def Dev.mirrorOut (d : Dev) : Nat :=
  (d.mfb.ops.filter (fun o => match o.origin with | .mirror _ => true | _ => false)).length

/-- The mirror leaves OK during an export: cores with units that hold sectors fetched from the buddy and are not verified
are lost, and their unit ends go again with the mark of unrestorable bytes (R397). -/
def Dev.handoverBuddyLost (d : Dev) : Dev :=
  match d.flt.handover with
  | none => d
  | some h =>
    let d : Dev := { d with flt := { d.flt with handover := some { h with
      lost := h.buddy.foldl (fun m e => setBit m e.2.1 true) h.lost, buddy := [] } } }
    h.buddy.foldl (fun d e => d.send (d.mkPkt 2 true 0x53 h.peer 0 0 (leBytes 4 e.1 ++ leBytes 4 e.2.2 ++ [1]))) d

/-- A change of the mirror's state, with its fault record (R162, code 0x04/0x04). -/
def Dev.setMirror (d : Dev) (st : Nat) : Dev :=
  let d := if st = 1 then d else d.handoverBuddyLost
  (d.setFld Reg.VLT_MIRROR_PEER.STATE st).record
    ⟨4, 4, some (d.fld Reg.VLT_MIRROR_PEER.FLAT_ID), 0xFF, leBytes 1 st, []⟩

/-- The partner is lost: the mirror becomes BROKEN for all ranges, and its writes end (R162). -/
def Dev.breakMirror (d : Dev) : Dev :=
  let d := { d with mfb := { d.mfb with
    mirrorHold := [], ops := d.mfb.ops.filter (fun o => match o.origin with | .mirror _ => false | _ => true) } }
  if d.mirrors then d.setMirror 2 else d

/-! ### Reach, and the writes of this device's agents (R161, R245, R322) -/

/-- A flat ID that no entry makes reachable: KIND none, or 0xFFFF, which names no device (R244, R245). -/
def Dev.noRoute (d : Dev) (i : Nat) : Bool := i = 0xFFFF || d.kind i = 0

/-- A remote device that no operation can reach: no route, or LOST (R245, R261). DESIGN CHOICE (log entry 31). -/
def Dev.peerGone (d : Dev) (i : Nat) : Bool := d.noRoute i || d.on (Reg.FAB_ROUTE.LOST i)

/-- What a write to [a, a + n) sends to the partner; a partner that cannot be reached breaks the mirror (R161, R162, R322). -/
def Dev.mirror (d : Dev) (a n : Nat) : Dev :=
  if !d.mirrors then d
  else
    let l := d.mirrorParts a n
    if l.isEmpty then d
    else if d.peerGone (d.fld Reg.VLT_MIRROR_PEER.FLAT_ID) then d.breakMirror
    else l.foldl (fun d p => d.mirrorSend p.1 p.2) d

/-- The first device address of the update area (R302). -/
def Dev.updArea (d : Dev) : Nat := midwayBase + 0x1000000 * d.fld Reg.UPD_AREA.BASE

/-- A write of an agent to [a, a + n): from lock on it has no effect on the copy of the live table (R302). -/
def Dev.besideLive (d : Dev) (a n : Nat) (f : Dev → Nat → Nat → Dev) : Dev :=
  let lo := d.updArea + 0x1000
  let hi := d.updArea + 0x2000
  if d.locked && overlaps a n lo 0x1000 then
    let d := if a < lo then f d a (lo - a) else d
    if hi < a + n then f d hi (a + n - hi) else d
  else f d a n

/-- A write of bytes by any agent of this device: it takes effect, and a mirrored range sends it on.
DESIGN CHOICE (log entry 14). -/
def Dev.store (d : Dev) (a : Nat) (l : List Byte) : Dev :=
  d.besideLive a l.length (fun d x n => (d.write x (slice l (x - a) n)).mirror x n)

/-- A copy by any agent of this device. -/
def Dev.storeCopy (d : Dev) (src dst n : Nat) : Dev :=
  d.besideLive dst n (fun d x n => (d.copy (src + (x - dst)) x n).mirror x n)

/-- Zeros written by an agent of this device. -/
def Dev.storeZero (d : Dev) (a n : Nat) : Dev := d.besideLive a n (fun d x n => (d.zero x n).mirror x n)

/-- Bytes the spec does not state, written by an agent of this device. DESIGN CHOICE (log entry 5). -/
def Dev.storeFree (d : Dev) (a n : Nat) : Dev := d.besideLive a n (fun d x n => (d.scramble x n).mirror x n)

/-- Writing bytes where a REF names. -/
def Dev.refWrite (d : Dev) (i off : Nat) (l : List Byte) : Dev :=
  if d.refDev i then d.store (d.refAddr i off) l else d.hostWrite (d.refAddr i off) l

end Sys2Proof.Machine
end

