-- ==== Sys2Proof/Machine/OptOps.lean ====
section
/-! DEFINITION. Optical ports (R200 to R228): states, lanes and slots, link blocks, failure and training, as shared operations. -/

namespace Sys2Proof.Machine

/-- A port number. -/
def portOk (p : Nat) : Bool := p < 48

/-- A port changed by a function. -/
def Dev.modPort (d : Dev) (p : Nat) (f : Port → Port) : Dev := d.setPort p (f (d.port p))

/-- A port that carries blocks: UP, CAL or DEGRADED. -/
def Dev.carries (d : Dev) (p : Nat) : Bool := 2 ≤ d.portSt p && d.portSt p ≤ 4

/-- The engine of a port. -/
def engineOf (p : Nat) : Nat := p / 4

/-- The engine's follower PLL is locked and a bundle of its die-to-die link is in service (R33, R223). -/
def Dev.engineUp (d : Dev) (p : Nat) : Bool :=
  bit (d.fld Reg.CLK_STATUS.ENG_LOCK) (engineOf p) && d.fld (Reg.D2D_LINK_STATUS.BUNDLE_UP (8 + engineOf p)) != 0

/-! ### Lanes and slots (R202, R213) -/

/-- The receive lane of a slot, 0x1F for a vacant one. -/
def Dev.rxLane (d : Dev) (p s : Nat) : Nat := d.fld (Reg.OPT_MAP.RX_SLOT_LANE p s)

/-- The transmit lane of a slot. -/
def Dev.txLane (d : Dev) (p s : Nat) : Nat := d.fld (Reg.OPT_MAP.TX_SLOT_LANE p s)

/-- Slots that have a lane in the receive direction. -/
def Dev.rxSlots (d : Dev) (p : Nat) : Nat := ((List.range 16).filter (fun s => d.rxLane p s < 18)).length

/-- Slots that have a lane in the transmit direction. -/
def Dev.txSlots (d : Dev) (p : Nat) : Nat := ((List.range 16).filter (fun s => d.txLane p s < 18)).length

/-- The port's slot count: the smaller of its two directions. -/
def Dev.slots (d : Dev) (p : Nat) : Nat := min (d.rxSlots p) (d.txSlots p)

/-- The slot that a receive lane carries. -/
def Dev.slotOf (d : Dev) (p lane : Nat) : Option Nat := (List.range 16).find? (fun s => d.rxLane p s = lane)

/-- A receive lane has failed. -/
def Dev.rxFailed (d : Dev) (p lane : Nat) : Bool := bit (d.fld (Reg.OPT_LANE_STATE.RX_FAILED p)) lane

/-- A margin sweep holds a receive lane. -/
def Dev.laneSwept (d : Dev) (p lane : Nat) : Bool := d.opt.marginJobs.any (fun j => j.busy.contains (p, lane))

/-- The free spare lanes of the receive direction, ascending; none before the first training has chosen lanes. -/
def Dev.rxSpares (d : Dev) (p : Nat) : List Nat :=
  (List.range 18).filter (fun n => (d.port p).everUp && (d.slotOf p n).isNone && !d.rxFailed p n && d.fld (Reg.OPT_LANE_STATE.RX_CAL p) != n &&
    !bit (d.port p).ringLost n && !(d.port p).rxMoves.any (fun m => m.new = n) && !d.laneSwept p n)

/-- The spare lanes of the transmit direction, as far as its moves show them, ascending. -/
def Dev.txSpares (d : Dev) (p : Nat) : List Nat :=
  (List.range 18).filter (fun n => (d.port p).everUp && !((List.range 16).any (fun s => d.txLane p s = n)) && !bit (d.port p).txFailed n &&
    d.fld (Reg.OPT_LANE_STATE.TX_CAL p) != n && !(d.port p).txMoves.any (fun m => m.new = n))

/-- A lane calibration runs in either direction. -/
def Dev.laneCalRuns (d : Dev) (p : Nat) : Bool :=
  d.fld (Reg.OPT_LANE_STATE.RX_CAL p) != 0x1F || d.fld (Reg.OPT_LANE_STATE.TX_CAL p) != 0x1F

/-- Lanes of a direction (0 receive, 1 transmit) have failed where `old` had before: when both spares have, that kind of
spare is used up, with its record (code 0x05/0x03; R214, R375). -/
def Dev.laneReason (d : Dev) (p dir old new : Nat) : Dev :=
  if popCount 18 old < 2 && 2 ≤ popCount 18 new then (d.record (.mk1 5 3 p (leBytes 1 dir))).setReason 4 else d

/-! ### Port states (R213) -/

/-- A port enters a state; DOWN and FAILED keep their cause. A change sets OPT_PORT_CHANGE and, but for UP and CAL in
turn, writes its fault record (code 0x05/0x01). -/
def Dev.setPortSt (d : Dev) (p st cause : Nat) : Dev :=
  let old := d.portSt p
  let d := (d.setFld (Reg.OPT_PORT_STATUS.STATE p) st).timeCheck
  let d := if st = 0 || st = 5 then d.setFld (Reg.OPT_PORT_STATUS.CAUSE p) cause else d
  if old = st then d
  else
    let d := d.setFldBit Reg.OPT_PORT_CHANGE.PORT p true
    let d := if (old = 2 && st = 3) || (old = 3 && st = 2) then d
      else d.record (.mk1 5 1 p (leBytes 1 st ++ leBytes 1 (d.fld (Reg.OPT_PORT_STATUS.CAUSE p))))
    d.refreshFlags

/-- The packets of a port's queue that have not started are taken back, to be routed again. -/
def Dev.emptyQueue (d : Dev) (p : Nat) : Dev :=
  let q := (d.port p).txq
  (d.modPort p (fun x => { x with txq := [] })).takeBack q

/-- The link recovery notice of R222: the port's number and the SEQ of the last block delivered. -/
def Dev.recoveryNotice (d : Dev) (p : Nat) : Dev :=
  if d.on (Reg.OPT_PEER.VALID p) then
    d.send (d.mkPkt 3 true 1 (d.fld (Reg.OPT_PEER.FLAT_ID p)) 0 0 (leBytes 1 p ++ leBytes 2 (d.port p).lastWhole ++ [0]))
  else d

/-! ### Margin jobs (R227) -/

/-- The margin jobs of ports changed. -/
def Dev.modOptMargin (d : Dev) (f : SweepJob → SweepJob) : Dev :=
  { d with opt := { d.opt with marginJobs := d.opt.marginJobs.map f } }

/-- The record of a lane (R227). -/
def Dev.laneRecord (d : Dev) (p lane role slot : Nat) (x : Option LaneSweep) : List Byte :=
  leBytes 1 p ++ leBytes 1 (lane + 32 * role) ++ leBytes 1 slot ++
    leBytes 1 (d.fld Reg.TGT_STATUS.POWER_BAND + 16 * d.fld Reg.TGT_STATUS.MIDWAY_BAND) ++
    (match x with
     | some x => leBytes 1 x.eyeW ++ [0] ++ leBytes 2 x.eyeLo ++ leBytes 2 x.eyeMid ++ leBytes 2 x.eyeHi ++
         leBytes 2 x.rxPower ++ leBytes 2 x.omargin
     | none => zeros 12)

/-- A record of an optical MARGIN is written: ports ascending among those named, 18 lanes in each. -/
def Dev.putLane (d : Dev) (k : Nat × Nat) (p lane : Nat) (l : List Byte) : Dev :=
  match d.desc? k with
  | some j => d.refWrite (j.refIdx 50) (j.refOff 50 + 288 * popCount p (j.num 26 24) + 16 * lane) l
  | none => d

/-- Margin jobs with nothing left complete DONE. -/
def Dev.closeOptMargins (d : Dev) : Dev :=
  let done := d.opt.marginJobs.filter (fun j => j.busy.isEmpty && j.left.isEmpty)
  let d := { d with opt := { d.opt with marginJobs := d.opt.marginJobs.filter (fun j => !(j.busy.isEmpty && j.left.isEmpty)) } }
  done.foldl (fun d j => d.finishKey j.desc (Ending.plain .done)) d

/-- The lanes of a port that a margin job has not swept are reported not swept (R228). -/
def Dev.marginGone (d : Dev) (p : Nat) : Dev :=
  let d := d.opt.marginJobs.foldl (fun d j =>
    ((j.busy ++ j.left).filter (fun e => e.1 = p)).foldl (fun d e =>
      d.putLane j.desc p e.2 (d.laneRecord p e.2 3 ((d.slotOf p e.2).getD 0x1F) none)) d) d
  (d.modOptMargin (fun j => { j with busy := j.busy.filter (fun e => e.1 != p), left := j.left.filter (fun e => e.1 != p) })).closeOptMargins

/-! ### Calibration jobs (R220) -/

/-- Calibration jobs with nothing left complete DONE. -/
def Dev.closeOptCals (d : Dev) : Dev :=
  let done := d.opt.calJobs.filter (fun j => j.busy.isEmpty && j.left.isEmpty)
  let d := { d with opt := { d.opt with calJobs := d.opt.calJobs.filter (fun j => !(j.busy.isEmpty && j.left.isEmpty)) } }
  done.foldl (fun d j => d.finishKey j.desc (Ending.plain .done)) d

/-- A port's calibration has ended: jobs that waited for it go on. -/
def Dev.calEnded (d : Dev) (p : Nat) : Dev :=
  ({ d with opt := { d.opt with calJobs := d.opt.calJobs.map (fun j => { j with busy := j.busy.filter (fun e => e.1 != p) }) } } : Dev).closeOptCals

/-! ### Failure (R222, R223) -/

/-- What a port holds besides its replay buffer is cleared: moves, reports, partial packets, control blocks, lane
calibrations. -/
def Dev.clearLink (d : Dev) (p : Nat) : Dev :=
  let d := d.modPort p (fun x => { x with
    reorder := [], naks := [], partialBytes := [], partialBlocks := 0, owed := [], ctl := [], rxMoves := [], txMoves := []
    waitMoves := [], align := [], ident := false })
  let d := d.modPort p (fun x => { x with alignErrs := [], txBlocks := 0, txAlign := 0 })
  (d.setFld (Reg.OPT_LANE_STATE.RX_CAL p) 0x1F).setFld (Reg.OPT_LANE_STATE.TX_CAL p) 0x1F

/-- A port stops carrying: its blocks are kept until the peer's notice, its own notice goes, and its queue is taken back;
packets of a flow with blocks kept wait for those (R258). `keep` is false for an engine that cannot be reached: its blocks
are lost (R222, R223). DESIGN CHOICE (log entry 25). -/
def Dev.holdPackets (d : Dev) (p : Nat) (keep : Bool) : Dev :=
  let x := d.port p
  if d.carries p then
    let d := d.recoveryNotice p
    let d := d.modPort p (fun y => { y with
      replay := []
      recovery := if keep && d.on (Reg.OPT_PEER.VALID p) then some ⟨d.clk, d.fld (Reg.OPT_PEER.FLAT_ID p), x.replay⟩ else none })
    d.emptyQueue p
  else d

/-- A port enters FAILED (R213, R222). -/
def Dev.failPort (d : Dev) (p cause : Nat) : Dev :=
  let d := d.holdPackets p (cause != 7 || !d.on (Reg.OPT_PORT_STATUS.ENG_LINK p))
  let d := d.clearLink p
  let d := d.modPort p (fun x => { x with since := d.clk, withdrawn := false, calibrating := false, miswire := false })
  let d := if d.on (Reg.OPT_PEER.VALID p) then d.sight (d.fld (Reg.OPT_PEER.FLAT_ID p)) 1 p else d
  let d := d.setPortSt p 5 cause
  (d.marginGone p).calEnded p

/-- The last bundle of an engine's link is out of service: its four ports fail until reset, each with its record (R26,
R223). -/
def Dev.engineLost (d : Dev) (e : Nat) : Dev :=
  (List.range 4).foldl (fun d k =>
    let p := 4 * e + k
    let d := d.setFld (Reg.OPT_PORT_STATUS.ENG_LINK p) 1
    if d.portSt p = 5 then (d.setFld (Reg.OPT_PORT_STATUS.CAUSE p) 7).record (.mk1 5 1 p [5, 7]) else d.failPort p 7) d

/-- A port goes DOWN because its engine's follower PLL lost lock (R33, R213); one whose engine's link is lost stays FAILED
until reset (R223). -/
def Dev.portDown (d : Dev) (p : Nat) : Dev :=
  if d.portSt p = 0 || (d.portSt p = 5 && d.on (Reg.OPT_PORT_STATUS.ENG_LINK p)) then d
  else
    let d := (d.holdPackets p true).clearLink p
    let d := d.modPort p (fun x => { x with since := d.clk, withdrawn := false, calibrating := false, miswire := false })
    (((d.setFld (Reg.OPT_PORT_STATUS.ENG_LINK p) 0).setPortSt p 0 7).marginGone p).calEnded p

/-! ### Slot counts -/

/-- The slots of a port have changed: below 12 it fails, below 16 it is DEGRADED, at 16 it is UP or CAL again (R213). -/
def Dev.slotsChanged (d : Dev) (p : Nat) : Dev :=
  if !d.carries p then d
  else if d.slots p < 12 then d.failPort p 4
  else if d.slots p < 16 then d.setPortSt p 4 0
  else if d.portSt p = 4 then d.setPortSt p 2 0
  else d.setPortSt p (if d.laneCalRuns p then 3 else 2) 0

/-! ### Moves of slots (R215, R216) -/

/-- A move is asked for: its LANE_MOVE goes, and again until answered. -/
def Dev.startMove (d : Dev) (p : Nat) (m : SlotMove) : Dev :=
  (d.modPort p (fun x => { x with rxMoves := x.rxMoves ++ [m] })).askCtl p 2
    (leBytes 1 m.slot ++ leBytes 1 m.old ++ leBytes 1 m.new ++ leBytes 1 m.reason)

/-- A slot loses its lane, and the peer is told so by a LANE_MOVE to no lane. DESIGN CHOICE (log entry 25). -/
def Dev.vacate (d : Dev) (p s : Nat) : Dev :=
  let old := d.rxLane p s
  (d.setFld (Reg.OPT_MAP.RX_SLOT_LANE p s) 0x1F).askCtl p 2 (leBytes 1 s ++ leBytes 1 old ++ [0x1F, 0])

/-- A slot whose lane has failed finds no spare: a running lane calibration is abandoned, and the slot is vacant (R213,
R228). -/
def Dev.leaveVacant (d : Dev) (p s : Nat) : Dev :=
  let c := d.fld (Reg.OPT_LANE_STATE.RX_CAL p)
  let d := if c = 0x1F then d
    else (d.setFld (Reg.OPT_LANE_STATE.RX_CAL p) 0x1F).modPort p (fun x => { x with ringLost := setBit x.ringLost c true })
  (d.vacate p s).slotsChanged p

/-- A waiting move among others, in ascending slot order (R215). -/
def insertMove (m : SlotMove) (l : List SlotMove) : List SlotMove :=
  l.filter (fun x => x.slot < m.slot) ++ [m] ++ l.filter (fun x => m.slot < x.slot)

/-- A slot whose lane has failed takes a free spare: at once while `room` allows, otherwise behind the moves in progress;
without a spare that no other waiting move takes, the slot is vacant (R215, R228). -/
def Dev.moveOff (d : Dev) (p s lane : Nat) (room : Bool) : Dev :=
  match (d.rxSpares p)[(d.port p).waitMoves.length]? with
  | some n =>
    if room && (d.port p).rxMoves.length < 2 then d.startMove p ⟨s, lane, n, 0, none⟩
    else d.modPort p (fun x => { x with waitMoves := insertMove ⟨s, lane, 0x1F, 0, none⟩ x.waitMoves })
  | none => d.leaveVacant p s

/-- A receive lane is marked failed (R214). -/
def Dev.markLane (d : Dev) (p lane : Nat) : Dev :=
  if d.rxFailed p lane then d
  else
    let old := d.fld (Reg.OPT_LANE_STATE.RX_FAILED p)
    let d := (d.setFldBit (Reg.OPT_LANE_STATE.RX_FAILED p) lane true).bumpSat (Reg.OPT_ERR.LANE_FAILS p) 1
    d.laneReason p 0 old (d.fld (Reg.OPT_LANE_STATE.RX_FAILED p))

/-- A move of a slot is under way or waits. -/
def Port.moving? (x : Port) (s : Nat) : Bool := x.rxMoves.any (fun m => m.slot = s) || x.waitMoves.any (fun m => m.slot = s)

/-- Receive lanes fail together (R214): their slots move in ascending slot order, two at a time, behind moves that are
already in progress (R215, R228). -/
def Dev.lanesFail (d : Dev) (p : Nat) (l : List Nat) : Dev :=
  let new := l.filter (fun n => !d.rxFailed p n)
  let room := (d.port p).rxMoves.isEmpty
  let d := new.foldl (fun d n => d.markLane p n) d
  ((List.range 16).filter (fun s => new.contains (d.rxLane p s))).foldl (fun d s =>
    if d.carries p && !(d.port p).moving? s then d.moveOff p s (d.rxLane p s) room else d) d

/-- A spare takes a vacant slot, if there is one (R216). -/
def Dev.fillVacant (d : Dev) (p : Nat) : Dev :=
  match (List.range 16).find? (fun s => d.rxLane p s = 0x1F && !(d.port p).rxMoves.any (fun m => m.slot = s) &&
      !(d.port p).ctl.any (fun c => c.sub = 2 && leAt c.body 0 1 = s)), (d.rxSpares p).head? with
  | some s, some n => if (d.port p).rxMoves.length < 2 then d.startMove p ⟨s, 0x1F, n, 2, none⟩ else d
  | _, _ => d

/-- A waiting move starts with the first free spare; with none the slot is vacant. -/
def Dev.moveNow (d : Dev) (p : Nat) (m : SlotMove) : Dev :=
  match (d.rxSpares p).head? with
  | some n => d.startMove p { m with new := n }
  | none => d.leaveVacant p m.slot

/-- Waiting moves of a receive direction start, two at a time in ascending slot order; with none left a spare takes a
vacant slot (R215, R216). -/
def Dev.nextMove (d : Dev) (p : Nat) : Dev :=
  if (d.port p).waitMoves.isEmpty then d.fillVacant p
  else (d.port p).waitMoves.foldl (fun d m =>
    if d.carries p && (d.port p).rxMoves.length < 2 then
      (d.modPort p (fun x => { x with waitMoves := x.waitMoves.filter (fun y => y.slot != m.slot) })).moveNow p m
    else d) d

/-- The next lane of a port is taken up by a margin job: a data lane behind a free spare, a spare or a failed lane as it
is; a data lane without a free spare, and any lane of a port that does not carry, is reported not swept; a lane in a
calibration or a move waits for it (R227). -/
def Dev.marginTake (k : Nat × Nat) (p : Nat) : Nat → Dev → Dev
  | 0, d => d
  | n + 1, d =>
    match d.opt.marginJobs.find? (fun j => j.desc = k) with
    | none => d
    | some j =>
      if j.busy.any (fun e => e.1 = p) then d
      else
        match j.left.find? (fun e => e.1 = p) with
        | none => d
        | some e =>
          let x := d.port p
          let take := fun (d : Dev) (role slot : Nat) => d.modOptMargin (fun i =>
            if i.desc = k then { i with left := i.left.erase e, busy := i.busy ++ [e],
                                        recs := Tab.set [] i.recs (32 * p + e.2) (leBytes 1 role ++ leBytes 1 slot) }
            else i)
          let skip := fun (d : Dev) => (d.putLane k p e.2 (d.laneRecord p e.2 3 ((d.slotOf p e.2).getD 0x1F) none)).modOptMargin
            (fun i => if i.desc = k then { i with left := i.left.erase e } else i)
          if !d.carries p then Dev.marginTake k p n (skip d)
          else
            match d.slotOf p e.2 with
            | some sl =>
              (match (d.rxSpares p).head? with
               | some sp => if x.rxMoves.length < 2 && !x.moving? sl then (take d 0 sl).startMove p ⟨sl, e.2, sp, 1, none⟩ else d
               | none => Dev.marginTake k p n (skip d))
            | none =>
              if d.fld (Reg.OPT_LANE_STATE.RX_CAL p) = e.2 || x.rxMoves.any (fun m => m.new = e.2) then d
              else take d (if d.rxFailed p e.2 then 2 else 1) 0x1F

/-- A move, a lane calibration, a sweep or a relock has ended: waiting moves and margin sweeps of the port go on. -/
def Dev.laneFree (d : Dev) (p : Nat) : Dev :=
  if d.carries p then
    let d := d.nextMove p
    (d.opt.marginJobs.foldl (fun d j => Dev.marginTake j.desc p 18 d) d).closeOptMargins
  else d

/-- A lane calibration starts on a lane that carries no slot (R219). -/
def Dev.startLaneCal (d : Dev) (p lane : Nat) : Dev :=
  ((d.setFld (Reg.OPT_LANE_STATE.RX_CAL p) lane).sendCtl p 6 (leBytes 1 lane ++ [0])).slotsChanged p

/-! ### Training (R211 to R213) -/

/-- The body of this device's IDENT on a port (R224). -/
def Dev.identBody (d : Dev) (p : Nat) : List Byte :=
  leBytes 2 d.selfId ++ leBytes 1 p ++ [0] ++ leBytes 1 (d.here 0) ++ leBytes 1 (d.here 1) ++ leBytes 1 (d.here 2)

/-- A port's training starts; its identity phase sends IDENT. -/
def Dev.startTraining (d : Dev) (p : Nat) : Dev :=
  let d := (d.clearLink p).modPort p (fun x => { x with since := d.clk })
  (d.setPortSt p 1 0).sendCtl p 1 (d.identBody p)

/-- The other feed of a port: the slot that gives it shines. -/
def Dev.otherFeedLit (d : Dev) (p : Nat) : Bool :=
  (d.setFld (Reg.OPT_PORT_STATUS.FEED p) (1 - d.fld (Reg.OPT_PORT_STATUS.FEED p))).feedLit p

/-- A training fails; on a feed just moved to, the port returns to the feed before while that is still lit, and is moved
again at the next gap (R213, R239). DESIGN CHOICE (log entry 25). -/
def Dev.trainFails (d : Dev) (p cause : Nat) : Dev :=
  let d := d.bumpSat Reg.OPT_TRAINS.FAILED 1
  let back := (d.port p).moving && d.otherFeedLit p
  let d := (d.clearLink p).modPort p (fun x => { x with
    since := d.clk, withdrawn := false, calibrating := false, moving := x.moving && !back, lightLost := x.lightLost || cause = 1 })
  let d := if back then (d.setFld (Reg.OPT_PORT_STATUS.FEED p) (1 - d.fld (Reg.OPT_PORT_STATUS.FEED p))).deferGap (.feedMove p) else d
  let d := if (d.port p).everUp then (d.bumpSat (Reg.OPT_PORT_STATUS.TRIES p) 1).setPortSt p 5 cause else d.setPortSt p 0 cause
  d.calEnded p

/-- A port that has FAILED is named by a request or sees light again: its tries are cleared and it trains (R213). -/
def Dev.tryAgain (d : Dev) (p : Nat) : Dev := (d.setFld (Reg.OPT_PORT_STATUS.TRIES p) 0).startTraining p

/-! ### Port calibration (R220) -/

/-- Every sibling of a port is UP or CAL and not withdrawn (R220). -/
def Dev.siblingsUp (d : Dev) (p : Nat) : Bool :=
  (siblings p).all (fun q => (d.portSt q = 2 || d.portSt q = 3) && !(d.port q).withdrawn)

/-- A port calibration of a port can start: it carries, and its siblings stand in for it (R220). -/
def Dev.canCal (d : Dev) (p : Nat) : Bool := d.carries p && !(d.port p).withdrawn && d.siblingsUp p

/-- A port is withdrawn from routing for calibration or a feed move: lane calibrations are abandoned, packets not started
go to its siblings, where ordered ones wait until it is drained (R258), and the peer is told to train as well. -/
def Dev.withdraw (d : Dev) (p : Nat) : Dev :=
  let d := ((d.setFld (Reg.OPT_LANE_STATE.RX_CAL p) 0x1F).modPort p (fun x => { x with withdrawn := true })).timeCheck
  (d.slotsChanged p).sendCtl p 7 [0] |>.emptyQueue p

/-- A port calibration starts; a move to its other feed that the port awaits is made in it (R243). -/
def Dev.startPortCal (d : Dev) (p : Nat) : Dev :=
  (d.modPort p (fun x => { x with moveDue := d.stp.gapActs.contains (.feedMove p) })).withdraw p

/-- Work of calibration requests on ports that can start now. -/
def Dev.pumpPortCals (d : Dev) : Dev :=
  d.opt.calJobs.foldl (fun d j => j.left.foldl (fun d e =>
    let p := e.1
    let move := fun (d : Dev) (b : Bool) => ({ d with opt := { d.opt with calJobs := d.opt.calJobs.map (fun i =>
      if i.desc = j.desc then { i with left := i.left.erase e, busy := if b then i.busy ++ [e] else i.busy } else i) } } : Dev)
    if d.portSt p = 1 then move d true
    else if d.portSt p = 5 then (if d.on (Reg.OPT_PORT_STATUS.ENG_LINK p) then move d false else (move d true).tryAgain p)
    else if d.portSt p = 0 then move d false
    else if (d.port p).withdrawn then move d true
    else if d.canCal p then (move d true).startPortCal p
    else d) d) d |>.closeOptCals

/-! ### Power steps (R218) -/

/-- A power step is announced to the engines, with a predicted ΔT that the spec gives no formula for: a free value.
DESIGN CHOICE (log entry 5). -/
def Dev.announce (d : Dev) : Dev :=
  let r := sext 16 d.free
  ({ d.draw with opt := { d.opt with rise := r } } : Dev).emit (.announce r)

/-- The feed-forward offset of a ring's heater: −ΔT times its fused shift coefficient; ring r of port p, receive rings
first (R218). -/
def Dev.heaterOffset (d : Dev) (p r : Nat) : Int := -d.opt.rise * Config.ringShift (36 * p + r)

end Sys2Proof.Machine
end

