-- ==== Sys2Proof/Machine/LimOps.lean ====
section
/-! DEFINITION. Limelight cartridges (R229 to R243): slot states, switch-over and port moves, as shared operations. -/

namespace Sys2Proof.Machine

/-- Cartridge state changed. -/
def Dev.modLim (d : Dev) (f : Lim → Lim) : Dev := { d with lim := f d.lim }

/-- The cartridge of a slot. -/
def Dev.slot (d : Dev) (s : Nat) : Slot := Tab.get Slot.init d.lim.slots s

/-- The cartridge of a slot changed. -/
def Dev.modSlot (d : Dev) (s : Nat) (f : Slot → Slot) : Dev := d.modLim (fun l => { l with slots := Tab.mod Slot.init l.slots s f })

/-- The state of a slot: 0 EMPTY, 1 WARMING, 2 ONLINE, 3 STANDBY, 4 FADING, 5 RETIRING, 6 RETIRED (R235). -/
def Dev.slotSt (d : Dev) (s : Nat) : Nat := d.fld (Reg.LIM_STATE.STATE s)

/-- A slot enters a state, with its record (code 0x06/0x01); outside FADING there is no prediction (R234), and the feeds a
slot gives count for DEGRADED (R7). -/
def Dev.setSlotSt (d : Dev) (s st cause : Nat) : Dev :=
  if d.slotSt s = st then d
  else
    let d := ((d.setFld (Reg.LIM_STATE.STATE s) st).setFld (Reg.LIM_STATE.CAUSE s) cause).record
      (.mk1 6 1 s (leBytes 1 st ++ leBytes 1 cause))
    (if st = 4 then d else d.setFld (Reg.LIM_FADE.PREDICT_H s) 0xFFFF).refreshFlags

/-- The time a slot has emitted since the last accounting (R233). -/
def Dev.emission (d : Dev) (s : Nat) : Nat :=
  (d.slot s).emitted + (if bit d.pins.lmEn s then d.clk - (d.slot s).emitAt else 0)

/-- LM_EN of a slot; the time it emits is kept. -/
def Dev.setLmEn (d : Dev) (s : Nat) (b : Bool) : Dev :=
  if bit d.pins.lmEn s = b then d
  else
    let d := d.modSlot s (fun x => { x with emitted := d.emission s, emitAt := d.clk })
    { d with pins := { d.pins with lmEn := setBit d.pins.lmEn s b } }

/-- The ports of a home group, ascending (R229). -/
def groupPorts (k : Nat) : List Nat := (List.range 6).map (fun i => k + 8 * i)

/-- A port is on its backup feed. -/
def Dev.onBackup (d : Dev) (p : Nat) : Bool := d.on (Reg.OPT_PORT_STATUS.FEED p)

/-- The spare slot of a home group (R229). -/
def spareOf (k : Nat) : Nat := 8 + k / 4

/-- The home groups that a spare slot can serve (R229). -/
def spareGroups (s : Nat) : List Nat := (List.range 4).map (fun i => 4 * (s - 8) + i)

/-- The home group that a spare slot is brought in for. -/
def Dev.spareGroup (d : Dev) (s : Nat) : Option Nat :=
  match Tab.get 0 d.lim.group (s - 8) with
  | 0 => none
  | k + 1 => some k

/-- The spare of a group stands ready on its backup feeds. -/
def Dev.backupLit (d : Dev) (k : Nat) : Bool :=
  d.spareGroup (spareOf k) = some k && Tab.get false d.lim.confirmed (k / 4) && d.slotLit (spareOf k)

/-! ### Reasons (R236) -/

/-- The cartridge reason of a home slot (R236). -/
def Dev.wantHome (d : Dev) (k : Nat) : Dev :=
  (d.modLim (fun l => { l with wantHome := setBit l.wantHome k true })).setReason 5

/-- The spare-cartridge reason of a spare slot (R236). -/
def Dev.wantSpare (d : Dev) (s : Nat) : Dev :=
  (d.modLim (fun l => { l with wantSpare := setBit l.wantSpare (s - 8) true })).setReason 6

/-- A cartridge that passes its check stands in a slot: what was set for that slot clears (R236). -/
def Dev.slotFilled (d : Dev) (s : Nat) : Dev :=
  if s < 8 then
    let d := d.modLim (fun l => { l with wantHome := setBit l.wantHome s false })
    if d.lim.wantHome = 0 then d.clearReason 5 else d
  else
    let d := d.modLim (fun l => { l with wantSpare := setBit l.wantSpare (s - 8) false })
    if d.lim.wantSpare = 0 then d.clearReason 6 else d

/-- A home slot EMPTY while its ports lack feed sets its reason (R236). -/
def Dev.emptyCheck (d : Dev) (k : Nat) : Dev :=
  if d.slotSt k = 0 && (groupPorts k).any (fun p => !d.feedLit p) then d.wantHome k else d

/-! ### Enabling (R230) -/

/-- Every cartridge that stands in a slot has been checked. -/
def Dev.cartsChecked (d : Dev) : Bool :=
  (List.range 10).all (fun s => !bit d.pins.lmPresent s || (d.slot s).code != 0)

/-- Cartridges that warm are enabled; in BOOT only once every check is complete (R230). -/
def Dev.lightUp (d : Dev) : Dev :=
  if d.st = .boot && !d.cartsChecked then d
  else (List.range 10).foldl (fun d s => if d.slotSt s = 1 then d.setLmEn s true else d) d

/-- A slot enters WARMING. -/
def Dev.warm (d : Dev) (s : Nat) : Dev :=
  ((d.modSlot s (fun x => { x with since := d.clk })).setSlotSt s 1 0).lightUp

/-! ### Switch-over (R236 to R238) -/

/-- SPARE_LIMELIGHT descriptors of a home slot complete. -/
def Dev.limDone (d : Dev) (k : Nat) (e : Ending) : Dev :=
  let done := d.lim.jobs.filter (fun j => j.2 = k)
  done.foldl (fun d j => d.finishKey j.1 e) (d.modLim (fun l => { l with jobs := l.jobs.filter (fun j => j.2 != k) }))

/-- The select of a spare may be set to a group: it is so already, or no port is on that spare's backup feed (R237). -/
def Dev.selFree (d : Dev) (s k : Nat) : Bool :=
  bits d.pins.lmSwSel (2 * (s - 8)) 2 = k % 4 || !(spareGroups s).any (fun g => (groupPorts g).any d.onBackup)

/-- The spare of a home group can be brought in (R236, R237). -/
def Dev.spareFree (d : Dev) (k : Nat) : Bool :=
  d.slotSt (spareOf k) = 3 && (d.spareGroup (spareOf k)).isNone && !bit (d.fld Reg.LIM_SW.FAULT) k && d.selFree (spareOf k) k

/-- Switch-over of a home group begins: the select of its spare is set (R237, R238). A spare that is EMPTY, RETIRED or
feeds another group sets its reason (R236). -/
def Dev.switchStart (d : Dev) (k : Nat) : Dev :=
  let s := spareOf k
  if d.spareGroup s = some k then d.modLim (fun l => { l with dropped := Tab.set false l.dropped (s - 8) false })
  else if d.slotSt s = 0 || d.slotSt s = 6 || (d.spareGroup s).isSome then d.wantSpare s
  else if !d.spareFree k then d
  else
    let d := d.bumpSat Reg.LIM_EVENTS.SWITCHOVERS 1
    let sel := setBits d.pins.lmSwSel (2 * (s - 8)) 2 (k % 4)
    let d := ({ d with pins := { d.pins with lmSwSel := sel } } : Dev).setFld Reg.LIM_SW.SEL sel
    d.modLim (fun l => { l with
      group := Tab.set 0 l.group (s - 8) (k + 1), selAt := Tab.set 0 l.selAt (s - 8) d.clk
      confirmed := Tab.set false l.confirmed (s - 8) false, dropped := Tab.set false l.dropped (s - 8) false
      need := setBit l.need k false })

/-- A spare can be brought in: the lowest group that has lost its light and waits for it is served.
DESIGN CHOICE and DEDUCED (log entry 37). -/
def Dev.spareReady (d : Dev) (s : Nat) : Dev :=
  match (spareGroups s).find? (fun k => bit d.lim.need k && d.spareFree k) with
  | some k => d.switchStart k
  | none => d

/-- Switch-over of a group that has lost its light: at once, or as soon as a spare can be brought in (R241).
DESIGN CHOICE and DEDUCED (log entry 37). -/
def Dev.relight (d : Dev) (k : Nat) : Dev :=
  let d := d.switchStart k
  if d.spareGroup (spareOf k) = some k then d else d.modLim (fun l => { l with need := setBit l.need k true })

/-- A spare serves no group any more. -/
def Dev.unassign (d : Dev) (s : Nat) : Dev :=
  d.modLim (fun l => { l with
    group := Tab.set 0 l.group (s - 8) 0, confirmed := Tab.set false l.confirmed (s - 8) false
    dropped := Tab.set false l.dropped (s - 8) false })

/-- A spare is free again: its light off, STANDBY; one that still warms goes on to ONLINE first (R235, R240).
DESIGN CHOICE and DEDUCED (log entry 37). -/
def Dev.releaseSpare (d : Dev) (k : Nat) : Dev :=
  let s := spareOf k
  if d.spareGroup s != some k then d
  else if d.slotSt s = 1 then d.modLim (fun l => { l with dropped := Tab.set false l.dropped (s - 8) true })
  else (((d.setLmEn s false).setSlotSt s 3 0).unassign s).spareReady s

/-! ### Moves (R239 to R243) -/

/-- Feed moves that ports of a group await are dropped, and a withdrawn one is only calibrated. -/
def Dev.dropMoves (d : Dev) (k : Nat) : Dev :=
  let d := { d with stp := { d.stp with gapActs := d.stp.gapActs.filter (fun a => !(groupPorts k).any (fun p => a = .feedMove p)) } }
  (groupPorts k).foldl (fun d p => d.modPort p (fun x => { x with moveDue := false })) d

/-- A group's moves are complete: all its ports are on the feed they were to move to, and none still trains there: the home
slot retires, or the spare goes back to STANDBY (R235, R240, R242). -/
def Dev.movesDone (d : Dev) (k : Nat) : Dev :=
  if (groupPorts k).any (fun p => (d.port p).moving || d.onBackup p != bit d.lim.toBackup k) then d
  else if bit d.lim.toBackup k then
    let d := if d.slotSt k = 5 then ((d.setLmEn k false).setSlotSt k 6 0).wantHome k else d
    d.limDone k (Ending.plain .done)
  else if Tab.get false d.lim.confirmed (k / 4) then d.releaseSpare k
  else d

/-- A port has moved (R239, R240); what R241 does is not such a move. -/
def Dev.moveMade (d : Dev) (p : Nat) : Dev :=
  (if bit d.lim.toBackup (p % 8) && !d.slotLit (p % 8) then d else d.bumpSat Reg.LIM_EVENTS.MOVES 1).movesDone (p % 8)

/-- A port takes its other feed. -/
def Dev.flipFeed (d : Dev) (p : Nat) : Dev := d.setFld (Reg.OPT_PORT_STATUS.FEED p) (1 - d.fld (Reg.OPT_PORT_STATUS.FEED p))

/-- A port that has FAILED, and may train again (R223). -/
def Dev.failedPort (d : Dev) (p : Nat) : Bool := d.portSt p = 5 && !d.on (Reg.OPT_PORT_STATUS.ENG_LINK p)

/-- The ports of a group that are on a dead home feed take the backup feed, without a step gap; those that have FAILED train
on it as soon as they see light (R241, R243). -/
def Dev.takeBackup (d : Dev) (k : Nat) : Dev :=
  let d := (d.dropMoves k).modLim (fun l => { l with toBackup := setBit l.toBackup k true })
  let d := ((groupPorts k).filter (fun p => !d.onBackup p)).foldl (fun d p =>
    (d.flipFeed p).modPort p (fun x => { x with moving := d.failedPort p || d.portSt p = 1 })) d
  d.movesDone k

/-- Light stands on the backup feeds of a group: a home slot that still shines is RETIRING and its ports move one per gap;
otherwise they take the backup feed at once (R238, R239, R241). -/
def Dev.confirmBackup (d : Dev) (k : Nat) : Dev :=
  let d := d.modLim (fun l => { l with confirmed := Tab.set false l.confirmed (k / 4) true, toBackup := setBit l.toBackup k true })
  if d.slotLit k then
    (((groupPorts k).filter (fun p => !d.onBackup p)).foldl (fun d p => d.deferGap (.feedMove p)) (d.setSlotSt k 5 0)).movesDone k
  else d.takeBackup k

/-- The ports of a group that its slot stops feeding lose their feed (R241). -/
def Dev.feedsLost (d : Dev) (l : List Nat) : Dev :=
  l.foldl (fun d p =>
    let d := { d with feedLost := setBit d.feedLost p true }
    if d.carries p then d.failPort p 5 else if d.portSt p = 1 then d.trainFails p 5 else d.refreshFlags) d

/-- The ports a slot feeds. -/
def Dev.fedPorts (d : Dev) (s : Nat) : List Nat :=
  if s < 8 then (groupPorts s).filter (fun p => !d.onBackup p)
  else match d.spareGroup s with
    | some k => (groupPorts k).filter d.onBackup
    | none => []

/-- A spare gives up its group: what had not moved stays on the home feed, and what had moved waits for a spare (R241,
R243). -/
def Dev.spareLost (d : Dev) (s k : Nat) : Dev :=
  let d := ((d.unassign s).dropMoves k).modLim (fun l => { l with toBackup := setBit l.toBackup k false })
  let d := if (groupPorts k).any d.onBackup || !d.slotLit k then d.modLim (fun l => { l with need := setBit l.need k true }) else d
  ((d.wantSpare s).emptyCheck k).limDone k (Ending.plain .noResource)

/-- A cartridge stops feeding its ports without warning: its slot enters a state, the ports fail, the spare is brought in at
once (R235, R236, R241, R243). -/
def Dev.stopFeeding (d : Dev) (s st cause : Nat) : Dev :=
  let ports := d.fedPorts s
  let fed := d.slotLit s && !ports.isEmpty
  let group := if s < 8 then none else d.spareGroup s
  let d := (d.setLmEn s false).setSlotSt s st cause
  let d := match group with
    | some k => d.spareLost s k
    | none => d
  let d := if fed then (d.bumpSat Reg.LIM_EVENTS.SUDDEN 1).feedsLost ports else d
  if s < 8 then
    let d := if st = 6 then d.wantHome s else d.emptyCheck s
    if fed then (if d.backupLit s then d.takeBackup s else d.relight s) else d
  else d

/-- A home cartridge is ONLINE: ports on the backup feed return, one per gap, and moves to the spare stop (R240, R243); a
SPARE_LIMELIGHT under way ends, as its spare serves the slot no more. DESIGN CHOICE and DEDUCED (log entry 37). -/
def Dev.homeOnline (d : Dev) (k : Nat) : Dev :=
  let d := (d.dropMoves k).modLim (fun l => { l with toBackup := setBit l.toBackup k false, need := setBit l.need k false })
  let d := d.limDone k (Ending.plain .noResource)
  let l := (groupPorts k).filter d.onBackup
  if l.isEmpty then d.releaseSpare k else l.foldl (fun d p => d.deferGap (.feedMove p)) d

end Sys2Proof.Machine
end

