-- ==== Sys2Proof/Machine/Convert.lean ====
section
/-! DEFINITION. Number formats, their packing, block scales, and output conversion with its counts (R61 to R75, R87, R88). -/

namespace Sys2Proof.Machine

/-- The float layout of a format code (R61). -/
def fmtFloat : Nat → Option FFmt
  | 0 => some ⟨8, 23, 127, true⟩
  | 1 => some ⟨8, 10, 127, true⟩
  | 2 => some ⟨8, 7, 127, true⟩
  | 3 => some ⟨5, 10, 15, true⟩
  | 4 => some ⟨4, 3, 7, false⟩
  | 5 => some ⟨5, 2, 15, true⟩
  | 6 => some ⟨3, 2, 3, false⟩
  | 7 => some ⟨2, 3, 1, false⟩
  | 8 => some ⟨2, 1, 1, false⟩
  | _ => none

/-- Bits of one element in memory (R61, R62): an FP19 value stands in a 32-bit container. -/
def fmtBits : Nat → Nat
  | 0 => 32 | 1 => 32 | 2 => 16 | 3 => 16 | 4 => 8 | 5 => 8 | 6 => 6 | 7 => 6 | 8 => 4 | 9 => 8 | 0xA => 8 | 0xB => 4
  | 0xC => 4 | 0xD => 8 | 0xE => 32 | _ => 0

/-- Formats that may be block-scaled (R66). -/
def fmtScaled (f : Nat) : Bool := 4 ≤ f && f ≤ 8

/-- Bytes that n elements of a format occupy: FP6 in whole groups of four, 4-bit formats in whole bytes (R62). -/
def fmtBytes (f n : Nat) : Nat :=
  if fmtBits f = 6 then 3 * ceilDiv n 4 else ceilDiv (fmtBits f * n) 8

/-- Element i of a packed vector that starts at the head of the bytes. -/
def unpackAt (f : Nat) (l : List Byte) (i : Nat) : Nat :=
  let b := fmtBits f
  if b = 6 then bits (leAt l (3 * (i / 4)) 3) (6 * (i % 4)) 6
  else if b = 4 then bits (leAt l (i / 2) 1) (4 * (i % 2)) 4
  else leAt l (b / 8 * i) (b / 8)

/-- A vector of element patterns packed into bytes (R62). -/
def packAll (f : Nat) (l : List Nat) : List Byte :=
  leBytes (fmtBytes f l.length)
    (((List.range l.length).zip l).foldl (fun n p => n + (p.2 % 2 ^ fmtBits f) * 2 ^ (fmtBits f * p.1)) 0)

/-- The value of an element pattern: floats widened exactly, FP8-E4M3's NaN, FP19 read above its low part, integers
exact, UINT8 less its zero point (R61, R63, R64, R70). Codes of codebook formats have no value of their own. -/
def fmtValue (f zp w : Nat) : Val :=
  if f = 1 then (⟨8, 10, 127, true⟩ : FFmt).decode (w / 2 ^ 13 % 2 ^ 19)
  else if f = 4 && w % 128 = 127 then .nan
  else match fmtFloat f with
    | some ff => ff.decode w
    | none =>
      if f = 9 then .ofInt (sext 8 w)
      else if f = 0xA then .ofInt ((w % 256 : Nat) - (zp : Int))
      else if f = 0xB then .ofInt (sext 4 w)
      else .ofInt (sext 32 w)

/-- The value of an E8M0 scale byte as an exponent; none for NaN (R65). -/
def scaleExp (s : Nat) : Option Int := if s = 0xFF then none else some ((s : Int) - 127)

/-- A scaled element: NaN under a NaN scale, otherwise exactly 2^(s − 127) times (R65, R67). -/
def scaled (s : Nat) (v : Val) : Val :=
  match scaleExp s with
  | none => .nan
  | some k => v.scale k

/-- The largest finite magnitude of a target as n · 2^q (R61). -/
def fmtMax : Nat → Nat × Int
  | 0 => (2 ^ 24 - 1, 104) | 1 => (2 ^ 11 - 1, 117) | 2 => (2 ^ 8 - 1, 120) | 3 => (2047, 5) | 4 => (14, 5)
  | 5 => (7, 13) | 6 => (7, 2) | 7 => (15, -1) | 8 => (3, 1) | _ => (0, 0)

/-- emax of R75. -/
def fmtEmax : Nat → Int
  | 4 => 8 | 5 => 15 | 6 => 4 | 7 => 2 | 8 => 2 | _ => 0

/-- The canonical NaN pattern of a float target; FP6 and FP4 have none and give +0 (R74). -/
def fmtNaN : Nat → Nat
  | 0 => 0x7FC00000 | 1 => 0x7FC00000 | 2 => 0x7FC0 | 3 => 0x7E00 | 4 => 0x7F | 5 => 0x7E | _ => 0

/-- The least and largest integer of an integer target, zero point apart. -/
def intRange : Nat → Int × Int
  | 9 => (-128, 127) | 0xB => (-8, 7) | 0xA => (0, 255) | _ => (-2147483648, 2147483647)

/-- What the conversion of one element counts (R87, R88). -/
structure ConvOut where
  code : Nat
  ovf : Bool
  sat : Bool
  unf : Bool
  sub : Bool
  nonfin : Bool
  deriving DecidableEq, Repr

/-- The parameters of R71 that one conversion carries, E of R72 step 3 already formed. -/
structure ConvPar where
  fmt : Nat
  rnd : Nat
  sat : Bool
  e : Int
  bscale : Bool
  zp : Nat
  deriving DecidableEq, Repr

/-- The rounding mode of a code: 0 RNE, 1 RTZ, 2 SR with the word given. -/
def rndOf (code word : Nat) : Rnd := if code = 1 then .rtz else if code = 2 then .sr word else .rne

/-- A pattern in memory: an FP19 value in its container (R63). -/
def inContainer (f w : Nat) : Nat := if f = 1 then w * 2 ^ 13 else w

/-- A finite magnitude rounded onto a float target that it does not overflow. -/
def floatRound (ff : FFmt) (r : Rnd) (m : Nat) (e : Int) : Nat :=
  let p := roundMag r ff.mb ff.qmin m e
  ff.encodeMag p.1 p.2

/-- A float target: infinities, overflow and rounding of a finite t (R73, R74). A block-scaled element whose source is not
finite is 0 under any scale byte. DESIGN CHOICE and DEDUCED (log entry 20). -/
def convFloat (c : ConvPar) (ff : FFmt) (r : Rnd) (t : Val) : ConvOut :=
  let mx := fmtMax c.fmt
  let maxCode := ff.encodeMag mx.1 mx.2
  if c.bscale && !t.finite then ⟨0, false, false, false, false, true⟩
  else match t with
  | .nan => ⟨inContainer c.fmt (if c.fmt = 1 then 0x7FC00000 / 2 ^ 13 else fmtNaN c.fmt), false, false, false, false, true⟩
  | .inf n =>
    ⟨inContainer c.fmt (if ff.special then ff.infBits n else ff.signBit n + maxCode), false, false, false, false, true⟩
  | .fin m e z =>
    if m = 0 then ⟨inContainer c.fmt (ff.signBit z), false, false, false, false, false⟩
    else
      let neg := m < 0
      if Val.lt (.fin mx.1 mx.2 false) (.fin m.natAbs e false) then
        (if c.bscale then ⟨inContainer c.fmt (ff.signBit neg + maxCode), false, true, false, false, false⟩
         else ⟨inContainer c.fmt (if c.sat || !ff.special then ff.signBit neg + maxCode else ff.infBits neg),
           true, false, false, false, false⟩)
      else
        let w := floatRound ff r m.natAbs e
        ⟨inContainer c.fmt (ff.signBit neg + w), false, false, w = 0, w != 0 && w < 2 ^ ff.mb, false⟩

/-- An integer target (R73, R74): UINT8 has its zero point added after rounding. -/
def convInt (c : ConvPar) (r : Rnd) (t : Val) : ConvOut :=
  let rg := intRange c.fmt
  let w := fmtBits c.fmt
  match t with
  | .nan => ⟨if c.fmt = 0xA then c.zp else 0, false, false, false, false, true⟩
  | .inf n => ⟨wrapInt w (if n then rg.1 else rg.2), false, false, false, false, true⟩
  | .fin m e z =>
    let s := if c.fmt = 0xA then Val.add (.fin m e z) (.ofInt c.zp) else .fin m e z
    if Val.lt s (.ofInt rg.1) then ⟨wrapInt w rg.1, true, false, false, false, false⟩
    else if Val.lt (.ofInt rg.2) s then ⟨wrapInt w rg.2, true, false, false, false, false⟩
    else
      let mag := if m.natAbs = 0 then 0
        else if 0 ≤ e then m.natAbs * 2 ^ e.toNat
        else
          let sft := (-e).toNat
          let lo := m.natAbs / 2 ^ sft
          let rem := m.natAbs % 2 ^ sft
          let up := match r with
            | .rne => 2 ^ sft < 2 * rem || (2 * rem = 2 ^ sft && lo % 2 = 1)
            | .rtz => false
            | .sr wd => rem * 2 ^ 32 / 2 ^ sft != 0 && wd < rem * 2 ^ 32 / 2 ^ sft
          if up then lo + 1 else lo
      let i : Int := if m < 0 then -(mag : Int) else mag
      ⟨wrapInt w (if c.fmt = 0xA then i + c.zp else i), false, false, m != 0 && mag = 0, false, false⟩

/-- Conversion of t, all of R72 steps 1 to 4 done (R72 steps 5 and 6). -/
def convert (c : ConvPar) (r : Rnd) (t : Val) : ConvOut :=
  match fmtFloat c.fmt with
  | some ff => convFloat c ff r t
  | none => convInt c r t

/-- A float copied bit for bit: FP32 to FP32 with E = 0 and no multiplier (R72).
DESIGN CHOICE and DEDUCED (log entry 20). -/
def copyFp32 (w : Nat) : ConvOut :=
  ⟨w % 2 ^ 32, false, false, false, bits w 23 8 = 0 && bits w 0 23 != 0, bits w 23 8 = 0xFF⟩

/-- The larger of two magnitudes. -/
def Val.maxAbs (a b : Val) : Val := if Val.lt a b.abs then b.abs else a

/-- The statistic byte of a block after step 3 (R87). -/
def statByte (l : List Val) : Nat :=
  if l.any (fun v => !v.finite) then 0xFF
  else match l.foldl Val.maxAbs (.fin 0 0 false) with
    | .fin m e _ => if m = 0 || log2Mag m.natAbs e < -126 then 0 else (min (log2Mag m.natAbs e + 127) 254).toNat
    | _ => 0xFF

/-- The scale byte of a block after step 3 (R75). -/
def blockScale (f : Nat) (l : List Val) : Nat :=
  if l.any (fun v => !v.finite) then 0xFF
  else match l.foldl Val.maxAbs (.fin 0 0 false) with
    | .fin m e _ =>
      if m = 0 then 127
      else let k := log2Mag m.natAbs e + 127 - fmtEmax f
        if k < 0 then 0 else if 254 < k then 254 else k.toNat
    | _ => 0xFF

/-- A block converted under BSCALE: its scale byte and its elements; words are the generator words (R72, R75). -/
def convBlock (c : ConvPar) (l : List (Val × Rnd)) : Nat × List ConvOut :=
  let s := blockScale c.fmt (l.map (·.1))
  if s = 0xFF then (s, l.map (fun p => ⟨0, false, false, false, false, !p.1.finite⟩))
  else (s, l.map (fun p => convert c p.2 (p.1.scale (127 - s))))

/-- A parameter set that R71 refuses: a reserved or codebook target, RND 0b11, BSCALE for a format that has none, a zero
point for a target other than UINT8. -/
def convBad (fmt rnd : Nat) (bscale : Bool) (zp : Nat) : Bool :=
  fmt = 0xC || fmt = 0xD || 0xF ≤ fmt || rnd = 3 || (bscale && !fmtScaled fmt) || (zp != 0 && fmt != 0xA)

end Sys2Proof.Machine
end

