-- ==== Sys2Proof/Machine/Regs.lean ====
section
/-! DEFINITION. Writes of BAR0 registers under the access codes and the lock (R9, R10, R440, R441, R447), and the set-up lock itself (R444 to R446). -/

namespace Sys2Proof.Machine

/-- A field of register idx of an array; the site of a logical core resets to its local index.
DESIGN CHOICE and PRESUMED (log entry 3). -/
def RegRow.field (r : RegRow) (idx : Nat) (f : Field) : Field :=
  { f with off := r.base + idx * r.stride, reset := if f.off = 0x50000 && f.lo = 0 then idx % 24 else f.reset }

/-- The register at an offset: its row and its index (R440); none for an offset that no register occupies. -/
def findReg (off : Nat) : Option (RegRow × Nat) :=
  (Reg.rows.find? (fun r => r.base ≤ off &&
    (if r.stride = 0 then off = r.base else (off - r.base) % r.stride = 0 && (off - r.base) / r.stride < r.count))).map
    (fun r => (r, if r.stride = 0 then 0 else (off - r.base) / r.stride))

/-- The block at an offset answers in the present state (R407, R441). -/
def Dev.answers (d : Dev) (off : Nat) : Bool :=
  match d.st with
  | .reset => false
  | .boot | .recovery => off < 0x10000 || (0x100000 ≤ off && off < 0x110000)
  | _ => true

/-- A write of one field by its access code (R9, R447). -/
def Dev.writeField (d : Dev) (f : Field) (v : Nat) : Dev :=
  let x := bits v f.lo f.w
  match f.acc with
  | .ro => d
  | .wo => d
  | .rw => d.setFld f x
  | .rwl => if d.locked then d else d.setFld f x
  | .w1c => d.setFld f (d.fld f &&& ((2 ^ f.w - 1) ^^^ x))
  | .w1s => d.setFld f (d.fld f ||| x)

/-- The generator word that ARR_SR_TEST_OUT shows for the test inputs (R77): of the key as it stands at the last write of a test
register, so a later write of ARR_SR_KEY leaves it, and 0 before the first. DESIGN CHOICE and DEDUCED (log entry 20). -/
def Dev.srTest (d : Dev) : Dev :=
  d.setFld Reg.ARR_SR_TEST_OUT.WORD
    (srWord (d.fld Reg.ARR_SR_KEY.KEY) (d.fld Reg.ARR_SR_TEST_B.STEP) (d.fld Reg.ARR_SR_TEST_B.TENSOR)
      (d.fld Reg.ARR_SR_TEST_A.USE) (d.fld Reg.ARR_SR_TEST_A.ELEM))

/-- A write of EVT_DATA: the selected counter is set atomically, before lock (R184, R447). -/
def Dev.evtData (d : Dev) (v : Nat) : Dev :=
  if d.locked then d.bumpSat Reg.GLB_LOCK_CHECK.IGNORED 1
  else d.evtSet (d.fld Reg.EVT_SEL.INDEX) v

/-- A write of a whole register: every field by its code; after lock a write that meets an RWL field is counted.
DESIGN CHOICE and DEDUCED (log entry 8). -/
def Dev.writeReg (d : Dev) (r : RegRow) (idx v : Nat) : Dev :=
  if r.base = 0x20004 then d.evtData v
  else if r.base = 0x100060 && d.st != .recovery then d
  else
    let d := (r.fields.map (r.field idx)).foldl (fun d f => d.writeField f v) d
    let d := if d.locked && r.fields.any (fun f => f.acc = .rwl) then d.bumpSat Reg.GLB_LOCK_CHECK.IGNORED 1 else d
    if r.base = 0x70408 || r.base = 0x70410 then d.srTest else d

/-- A 32-bit write: a 64-bit register ignores it (R9). -/
def Dev.write32 (d : Dev) (off v : Nat) : Dev :=
  match findReg off with
  | some (r, i) => if r.wide then d else d.writeReg r i (v % 2 ^ 32)
  | none => d

/-- An aligned 64-bit write: a 64-bit register whole, or the two 32-bit registers that it covers (R9). -/
def Dev.write64 (d : Dev) (off v : Nat) : Dev :=
  match findReg off with
  | some (r, i) =>
    if r.wide then d.writeReg r i (v % 2 ^ 64) else (d.writeReg r i (v % 2 ^ 32)).write32 (off + 4) (v / 2 ^ 32)
  | none => d.write32 (off + 4) (v / 2 ^ 32)

/-! ### The set-up lock (R444 to R446) -/

/-- The lock key. -/
def lockKey : Nat := 0x4C4F434B

/-- Bytes of a core request ring: 96 · 2^LOG2_SIZE, LOG2_SIZE from 4 to 12 (R445). -/
def Dev.coreRingBytes (d : Dev) (r : Nat) : Nat := 96 * 2 ^ clampNat 4 12 (d.fld (Reg.MFB_RING_CFG.LOG2_SIZE r))

/-- The first address of a core request ring; bits [11:0] ignored. -/
def Dev.coreRingBase (d : Dev) (r : Nat) : Nat := d.fld (Reg.MFB_RING_BASE.DA r) / 0x1000 * 0x1000

/-- The enabled core request rings. -/
def Dev.coreRings (d : Dev) : List Nat := (List.range 16).filter (fun r => d.on (Reg.MFB_RING_CFG.ENABLE r))

/-- The undo area's first address. -/
def Dev.undoBase (d : Dev) : Nat := d.fld Reg.UPD_UNDO_BASE.DA / 0x1000 * 0x1000

/-- The Midway SRAM areas of R445: (area, first device address, bytes). -/
def Dev.lockAreas (d : Dev) : List (Nat × Nat × Nat) :=
  [(0, midwayBase + 0x2000000 * d.fld Reg.CAR_STAGE_BASE.BASE, 0x2000000),
   (1, midwayBase + 0x1000000 * d.fld Reg.UPD_AREA.BASE, 0x1000000),
   (2, midwayBase + 0x4000000 * d.fld Reg.MFB_RLC.BASE, 0x4000000)] ++
  (if d.on Reg.TGT_CFG.LOG_EN then [(3, midwayBase + 0x1000 * d.fld Reg.TGT_LOG_BASE.BASE, 0x1000)] else []) ++
  [(4, midwayBase + 0x4000 * d.fld Reg.FLT_LOG_BASE.BASE, 0x4000),
   (5, midwayBase + 0x1000000 * d.fld Reg.SEC_STAGE_BASE.BASE, 0x1000000)] ++
  (if midwayBase ≤ d.undoBase && d.undoBase < midwayBase + midwaySize then
    [(6, d.undoBase, d.fld Reg.UPD_UNDO_LEN.LEN)] else []) ++
  d.coreRings.map (fun r => (7, d.coreRingBase r, d.coreRingBytes r))

/-- Areas of a list that one area overlaps, as a mask of both. -/
def areaHits (a : Nat × Nat × Nat) : List (Nat × Nat × Nat) → Nat
  | [] => 0
  | b :: r =>
    (if overlaps a.2.1 a.2.2 b.2.1 b.2.2 then (2 ^ a.1 ||| 2 ^ b.1) else 0) ||| areaHits a r

/-- Every overlap of a list of areas, as the mask AREAS shows. -/
def areaMask : List (Nat × Nat × Nat) → Nat
  | [] => 0
  | a :: r => areaHits a r ||| areaMask r

/-- An enabled core request ring does not lie wholly within Midway SRAM (R445). -/
def Dev.ringOutside (d : Dev) : Bool :=
  d.coreRings.any (fun r => d.coreRingBase r < midwayBase || midwayBase + midwaySize < d.coreRingBase r + d.coreRingBytes r)

/-- AREAS of a lock request. -/
def Dev.lockMask (d : Dev) : Nat := areaMask d.lockAreas ||| (if d.ringOutside then 128 else 0)

/-- The update area is zeroed at lock; the live table, the counters and the freeze map begin anew (R302, R446 step 3). -/
def Dev.zeroUpdArea (d : Dev) : Dev :=
  let d := d.zero (midwayBase + 0x1000000 * d.fld Reg.UPD_AREA.BASE) 0x1000000
  { d with uLive := [], uUnf := [], uOvf := [], upd := { d.upd with cUnf := [], cOvf := [], frozen := [] } }

/-- A lock request that passes takes effect in the order of R446. -/
def Dev.lockNow (d : Dev) : Dev :=
  let d := (d.setFld Reg.GLB_LOCK_CHECK.REFUSED 0).setFld Reg.GLB_LOCK_CHECK.AREAS 0
  let d := { d with locked := true }
  let d := d.lockChecks
  let d := d.zeroUpdArea
  let d := if d.on Reg.VLT_MIRROR_PEER.ENABLE then d.setFld Reg.VLT_MIRROR_PEER.STATE 1 else d
  let d := d.setFld Reg.GLB_LOCK_TIME.TIME d.now
  { d with hq := { d.hq with interval := d.pollMin } }

/-- A lock request (R444, R445): refused with the areas that meet named, or it takes effect. -/
def Dev.lockRequest (d : Dev) : Dev :=
  if d.lockMask = 0 then d.lockNow
  else (d.setFld Reg.GLB_LOCK_CHECK.REFUSED 1).setFld Reg.GLB_LOCK_CHECK.AREAS d.lockMask

end Sys2Proof.Machine
end

