-- ==== Sys2Proof/Machine/Boot.lean ====
section
/-! DEFINITION. Reset, boot, identity checks, Acts, recovery and fuses (R5, R16, R23, R400 to R416, R425, R429 to R431, R439). -/

namespace Sys2Proof.Machine

/-! ### Flash (R400) -/

/-- n bytes of flash; an unlisted byte is erased. -/
def Dev.flashRead (d : Dev) (a n : Nat) : List Byte := (List.range n).map (fun i => Tab.get 0xFF d.flash (a + i))

/-- Bytes written to flash. -/
def Dev.flashWrite (d : Dev) (a : Nat) (l : List Byte) : Dev := { d with flash := Tab.setAll 0xFF d.flash (cellsAt a l) }

/-- Bytes of flash erased. -/
def Dev.flashErase (d : Dev) (a n : Nat) : Dev := { d with flash := Tab.clear d.flash a n }

/-- A flash write that power loss, a trip or a reset interrupts (R420): firmware keeps its header with the body erased,
so the next BOOT fails its body digest; an Act copy is left invalid. DESIGN CHOICE and DEDUCED (log entries 10 and 11). -/
def Dev.interruptFlash (d : Dev) : Dev :=
  match d.boot.flashJob with
  | none => d
  | some j =>
    let d := { d with boot := { d.boot with flashJob := none } }
    match j.act with
    | some _ => d.flashErase j.addr 4096
    | none => (d.flashErase 0 0x1000000).flashWrite 0 (j.data.take 1024)

/-! ### Entering RESET and HALTED -/

/-- The device enters RESET (R429): everything as after reset but what outlives it: fuses, flash, input pins, the host's
memory, and SEC_ACT_NEXT while main power stays on (R415). DESIGN CHOICE (log entry 4). -/
def Dev.enterReset (d : Dev) (power : Bool) : Dev :=
  let d := d.interruptFlash
  let z := { Dev.init with
    fuses := d.fuses, flash := d.flash, fresh := d.fresh, out := d.out, vlt := Vlt.ofFuses d.fuses.rows
    hq := { HQ.init with host := d.hq.host, hostErr := d.hq.hostErr }
    pins := { Pins.init with pwrgood := d.pins.pwrgood, resetN := d.pins.resetN, perstN := d.pins.perstN,
                             profile := d.pins.profile, lmPresent := d.pins.lmPresent, trstN := d.pins.trstN, jtag := d.pins.jtag } }
  if power then (z.setFld Reg.SEC_ACT_NEXT.ACT (d.fld Reg.SEC_ACT_NEXT.ACT)).setFld Reg.SEC_ACT_NEXT.VALID
    (d.fld Reg.SEC_ACT_NEXT.VALID)
  else z

/-- The thermal trip (R344, R432): every LM_EN low, a record (code 0x0A/0x02), HALTED with its record. A trip of the
device's own model pulls THERMTRIP_N low. -/
def Dev.trip (d : Dev) (unit : Nat) (pin : Bool) (hottest : Nat) : Dev :=
  let d := d.interruptFlash
  let d := { d with pins := { d.pins with lmEn := 0, thermtripOut := d.pins.thermtripOut || !pin } }
  let seq := d.flt.seq
  (d.record (.mk1 0x0A 0x02 unit (leBytes 1 (flag pin) ++ leBytes 1 hottest))).enterHalted 4 seq

/-! ### The image checks (R404, R405) -/

/-- Reserved bytes of the image header are zero (R404). -/
def hdrReservedZero (h : List Byte) : Bool :=
  leAt h 6 1 < 4 && leAt h 7 1 < 2 && leAt h 12 1 < 64 && leAt h 13 3 = 0 && leAt h 24 8 = 0 &&
    (slice h 452 188).all (· == 0)

/-- The format check of the header: MAGIC, FORMAT, reserved fields, BODY_LEN, ENTRY and EXPONENT. -/
def hdrFormatOk (h : List Byte) : Bool :=
  slice h 0 4 = [0x43, 0x5A, 0x46, 0x57] && leAt h 4 2 = 1 && hdrReservedZero h && 1 ≤ leAt h 8 4 &&
    leAt h 8 4 ≤ 12582912 && leAt h 20 4 < leAt h 8 4 && leAt h 448 4 = 65537

/-- The cause of R403 that an image's header and body give, 0 when every check of R405 passes. -/
def Dev.imageCause (d : Dev) (h body : List Byte) : Nat :=
  if !hdrFormatOk h then 1
  else if sha256 (slice h 64 388) != Config.keyHash (leAt h 6 1) then 2
  else if bit d.fuses.revoked (leAt h 6 1) then 3
  else if !pssVerify (slice h 64 384) 65537 (slice h 640 384) (slice h 0 640) then 4
  else if sha256 (body.take (leAt h 8 4)) != slice h 32 32 then 5
  else if leAt h 12 1 < d.fuses.svn then 6
  else 0

/-! ### Acts (R411 to R416) -/

/-- The flash offset of copy c of Act a. -/
def actAddr (a c : Nat) : Nat := 0x1000000 + 0x2000 * a + 0x1000 * c

/-- A stored copy's management key, when the copy is valid (R413): the key unwraps with the storage key, and the tag
verifies under it. -/
def actKey (r : List Byte) : Option (List Byte) :=
  match keyUnwrap Config.storageKey (slice r 56 40) with
  | some k => if hmac k (slice r 0 4064) = slice r 4064 32 then some k else none
  | none => none

/-- A copy of an Act that is valid. -/
def Dev.actCopy (d : Dev) (a c : Nat) : Option (List Byte) :=
  let r := d.flashRead (actAddr a c) 4096
  if (actKey r).isSome then some r else none

/-- The Act in force: the valid copy with the larger GENERATION. -/
def Dev.actInForce (d : Dev) (a : Nat) : Option (List Byte) :=
  match d.actCopy a 0, d.actCopy a 1 with
  | some x, some y => if leAt x 8 4 < leAt y 8 4 then some y else some x
  | some x, none => some x
  | none, y => y

/-- Preset j of an Act record: offset, WIDE, value, and the reserved bits. -/
def presetOf (r : List Byte) (j : Nat) : Nat × Bool × Nat :=
  (leAt r (128 + 12 * j) 3, bit (leAt r (131 + 12 * j) 1) 7, leAt r (132 + 12 * j) 8)

/-- The mask of the RWL bits of a register. -/
def rwlMask (r : RegRow) : Nat :=
  (r.fields.filter (fun f => f.acc = .rwl)).foldl (fun m f => m ||| ((2 ^ f.w - 1) <<< f.lo)) 0

/-- A 32-bit preset value fits the RWL fields of the register at an offset. -/
def presetFits (off v : Nat) (wide : Bool) : Bool :=
  match findReg off with
  | some (r, _) => r.wide = wide && rwlMask r != 0 && v &&& rwlMask r = v
  | none => v = 0

/-- A preset meets R416. -/
def presetOk (r : List Byte) (j : Nat) : Bool :=
  let p := presetOf r j
  bits (leAt r (131 + 12 * j) 1) 0 7 = 0 && p.1 != 0x0C &&
    (if p.2.1 then
      p.1 % 8 = 0 &&
        (match findReg p.1 with
         | some (g, _) => if g.wide then presetFits p.1 p.2.2 true
             else presetFits p.1 (p.2.2 % 2 ^ 32) false && p.1 + 4 != 0x0C && presetFits (p.1 + 4) (p.2.2 / 2 ^ 32) false
         | none => false)
     else p.1 % 4 = 0 && p.2.2 < 2 ^ 32 && presetFits p.1 p.2.2 false && (findReg p.1).isSome)

/-- The format check of an Act record: MAGIC, ACT, reserved fields, PRESETS (R411, R414). -/
def actFormatOk (r : List Byte) : Bool :=
  slice r 0 4 = [0x43, 0x5A, 0x41, 0x43] && leAt r 4 1 < 4 && leAt r 5 1 < 2 && leAt r 6 2 = 0 && leAt r 18 2 = 0 &&
    leAt r 96 2 ≤ 320 && (slice r 98 30).all (· == 0) && (slice r 3968 96).all (· == 0)

/-- The key under which a new record of an Act is sealed: its present key, or 32 zero bytes (R412). -/
def Dev.sealKey (d : Dev) (a : Nat) : List Byte :=
  match d.actInForce a with
  | some r => (actKey r).getD (zeros 32)
  | none => zeros 32

/-- The largest GENERATION among the valid copies of an Act; none without one. -/
def Dev.actGen (d : Dev) (a : Nat) : Option Nat := (d.actInForce a).map (fun r => leAt r 8 4)

/-- The cause of R403 that a committed Act record gives, 0 when every check of R414 passes. -/
def Dev.actCause (d : Dev) (r : List Byte) : Nat :=
  if !actFormatOk r then 1
  else if leAt r 8 4 ≤ (d.actGen (leAt r 4 1)).getD 0 then 7
  else match keyUnwrap (d.sealKey (leAt r 4 1)) (slice r 56 40) with
    | none => 8
    | some _ =>
      if hmac (d.sealKey (leAt r 4 1)) (slice r 0 4064) != slice r 4064 32 then 8
      else if (List.range (leAt r 96 2)).all (presetOk r) then 0 else 9

/-- A committed record sealed for flash (R413): the key wrapped again under the storage key, the tag under the new key. -/
def Dev.actSeal (d : Dev) (r : List Byte) : List Byte :=
  let k := (keyUnwrap (d.sealKey (leAt r 4 1)) (slice r 56 40)).getD (zeros 32)
  let b := slice r 0 56 ++ keyWrap Config.storageKey k ++ slice r 96 3968
  b ++ hmac k b

/-- The copy a new record replaces: one that is invalid, else the older (R414). -/
def Dev.actTarget (d : Dev) (a : Nat) : Nat :=
  match d.actCopy a 0, d.actCopy a 1 with
  | none, _ => 0
  | some _, none => 1
  | some x, some y => if leAt x 8 4 ≤ leAt y 8 4 then 0 else 1

/-- The Act is chosen, read and checked, and the management port starts with it (R401, R415). -/
def Dev.loadAct (d : Dev) (pins : Nat) : Dev :=
  let sel := d.on Reg.SEC_ACT_NEXT.VALID
  let a := if sel then d.fld Reg.SEC_ACT_NEXT.ACT else pins
  let r := d.actInForce a
  let d := { d with boot := { d.boot with act := r, mgmtKey := (r.bind actKey).getD [] } }
  let d := (((d.setFld Reg.SEC_STATUS.ACT a).setOn Reg.SEC_STATUS.ACT_VALID r.isSome).setOn Reg.SEC_STATUS.ACT_FROM_SELECT sel)
  let d := (d.setFld Reg.GLB_ACT.ACT a).setOn Reg.GLB_ACT.VALID r.isSome
  (List.range 4).foldl (fun d a => d.setFld (Reg.SEC_ACT_GEN.GENERATION a) ((d.actGen a).getD 0)) d

/-- The management port is on: an Act in force with MGMT_EN. -/
def Dev.mgmtOn (d : Dev) : Bool :=
  match d.boot.act with
  | some r => bit (leAt r 5 1) 0
  | none => false

/-! ### ROM start (R16, R401, R430) -/

/-- The Midway's strap word and the tower straps are as R15 gives them: none, or the UNIT byte of the record and the word of
the first that is not. R382 gives UNIT as a tower port; the Midway's own strap has none, and 0xFF stands for it.
DESIGN CHOICE and DEDUCED (log entry 10). -/
def strapFault (r : RomInputs) : Option (Nat × Nat) :=
  if r.hubWord % 2 = 0 then some (0xFF, r.hubWord)
  else ((List.range 8).find? (fun t => r.towerWords.getD t 0 != 2 * t)).map (fun t => (t, r.towerWords.getD t 0))

/-- D2D_STRAP as read. -/
def Dev.showStraps (d : Dev) (r : RomInputs) : Dev :=
  ((d.setFld Reg.D2D_STRAP.HUB r.hubWord).setFld Reg.D2D_STRAP.POS (r.hubWord / 2)).setFld Reg.D2D_STRAP.TWR_POS
    ((List.range 8).foldl (fun n t => n + (r.towerWords.getD t 0 / 2 % 8) * 8 ^ t) 0)

/-- The checks of ROM start: straps, then rails; either halts the device (R6, R16, R430).
DESIGN CHOICE and DEDUCED (log entry 10). -/
def Dev.romChecks (d : Dev) (r : RomInputs) : Dev :=
  match strapFault r with
  | some (port, word) =>
    let seq := d.flt.seq
    (d.record (.mk1 0x01 0x01 port (leBytes 1 word))).enterHalted 2 seq
  | none =>
    if r.railsBad = 0 then { d with boot := { d.boot with phase := .rom } }
    else (d.setFld Reg.DBG_RAIL_FAULT.RAIL r.railsBad).enterHalted 3 0xFFFFFFFF

/-- The device leaves RESET for BOOT and runs the ROM start phase (R401, R429). -/
def Dev.romStart (d : Dev) (r : RomInputs) : Dev :=
  let d := { d with
    st := .boot
    pins := { d.pins with profile := r.profile, flDriven := true, avsRuns := true, lanesRun := true }
    boot := { d.boot with phase := .waitRoot, pulse := false }
    flt := { d.flt with session := d.free % 2 ^ 32 }
    hq := { d.hq with pcieUp := d.pins.perstN }
    fresh := d.fresh + 1 }
  let d := (d.setFld Reg.SEC_ACT_NEXT.PINS r.profile).loadAct r.profile
  if r.rootLock then ((d.setFld Reg.CLK_STATUS.ROOT_LOCK 1).showStraps r).romChecks r else d

/-- RESET_RELEASE: PWRGOOD and RESET_N are both high (R429). -/
def execResetRelease (r : RomInputs) (s : State) : Host.Outcome State Fault Refusal :=
  s.run (r.towerWords.length = 8 && r.profile < 4 && r.railsBad < 2 ^ 16) (s.dev.st = .reset && !s.dev.boot.pulse)
    (fun d => ({ d with pins := { d.pins with pwrgood := true, resetN := true } } : Dev).romStart r)

/-- RESET_N_ASSERT: the device enters RESET (R429). -/
def execResetNAssert (s : State) : Host.Outcome State Fault Refusal :=
  s.run true true (fun d => ({ d with pins := { d.pins with resetN := false } } : Dev).enterReset d.pins.pwrgood)

/-- A fuse advance that power loss interrupts: the fused version lies between the old value and the image's SVN, and of the
revocation fuses due some may be blown; which is a free value (R406, R420). DESIGN CHOICE and DEDUCED (log entry 10). -/
def Dev.cutAdvance (d : Dev) : Dev :=
  if d.on Reg.SEC_FUSE.ADVANCE_PENDING then
    let h := d.boot.header
    let below := if bit (leAt h 7 1) 0 then 2 ^ leAt h 6 1 - 1 else 0
    let e := d.draw
    { e.draw with fuses := { d.fuses with
      svn := d.fuses.svn + d.free % (leAt h 12 1 - d.fuses.svn + 1)
      revoked := d.fuses.revoked ||| (below &&& e.free) } }
  else d

/-- PWRGOOD_FALL: within 1 µs the device enters RESET; main power goes (R431), so SEC_ACT_NEXT is lost.
DESIGN CHOICE and DEDUCED (log entry 10). -/
def execPwrgoodFall (s : State) : Host.Outcome State Fault Refusal :=
  s.run true true (fun d => ({ d.cutAdvance with pins := { d.pins with pwrgood := false } } : Dev).enterReset false)

/-- PERST_N_ASSERT: only the PCIe controller and configuration space are reset (R425). -/
def execPerstNAssert (s : State) : Host.Outcome State Fault Refusal :=
  s.run true true (fun d => ({ d with pins := { d.pins with perstN := false } } : Dev).pcieReset)

/-- PERST_N_RELEASE: the PCIe link restarts (R439); in RESET it stays down. -/
def execPerstNRelease (s : State) : Host.Outcome State Fault Refusal :=
  s.run true true (fun d => { d with
    pins := { d.pins with perstN := true }
    hq := { d.hq with pcieUp := d.st != .reset } })

/-- ROOT_PLL_LOCK_TIMEOUT: no root lock 2 ms after reset release halts the device (R402). -/
def execRootPllLockTimeout (s : State) : Host.Outcome State Fault Refusal :=
  s.run true (s.dev.st = .boot && s.dev.boot.phase = .waitRoot && ms 2 ≤ s.dev.clk) (fun d => d.enterHalted 1 0xFFFFFFFF)

/-! ### The image (R401, R402, R405) -/

/-- Entry to RECOVERY with a cause (R402): every LM_EN stays low. -/
def Dev.enterRecovery (d : Dev) (cause : Nat) : Dev :=
  (({ d with pins := { d.pins with lmEn := 0 } } : Dev).setFld Reg.SEC_STATUS.BOOT_CAUSE cause).setState .recovery

/-- What an accepted image shows. -/
def Dev.imageAccepted (d : Dev) (h : List Byte) : Dev :=
  let adv := d.fuses.svn < leAt h 12 1 ||
    (bit (leAt h 7 1) 0 && (List.range (leAt h 6 1)).any (fun s => !bit d.fuses.revoked s))
  let d := { d with boot := { d.boot with phase := .image, header := h, advance := adv } }
  let d := (((d.setFld Reg.SEC_STATUS.IMAGE_OK 1).setFld Reg.SEC_STATUS.KEY_SLOT (leAt h 6 1)).setFld Reg.SEC_STATUS.SVN
    (leAt h 12 1)).setFld Reg.SEC_BUILD.BUILD (leAt h 16 4)
  (List.range 8).foldl (fun d i => d.setFld (Reg.SEC_IMAGE_DIGEST.DIGEST i) (leAt (sha256 h) (4 * i) 4)) d

/-- The cause the image in flash gives: a failed flash read, or the checks of R405. -/
def Dev.flashCause (d : Dev) (readErr : Bool) : Nat :=
  if readErr then 0xC
  else
    let h := d.flashRead 0 1024
    d.imageCause h (if hdrFormatOk h then d.flashRead 1024 (leAt h 8 4) else [])

/-- IMAGE_LOADED: header and body have been read and are checked; a second failure in succession enters RECOVERY
(R402, R405). -/
def execImageLoaded (readErr : Bool) (s : State) : Host.Outcome State Fault Refusal :=
  s.run true (s.dev.st = .boot && s.dev.boot.phase = .rom) (fun d =>
    if d.flashCause readErr = 0 then d.imageAccepted (d.flashRead 0 1024)
    else if d.boot.fails = 0 then { d with boot := { d.boot with fails := 1 } }
    else d.enterRecovery (d.flashCause readErr))

/-! ### Firmware start (R23, R26, R401) -/

/-- Lanes 0 to 67 that are not fused bad. -/
def Dev.goodLanes (d : Dev) (i : Nat) : List Nat :=
  (List.range 68).filter (fun n => !bit (Tab.get 0 d.fuses.badLanes i) n)

/-- Lane selection of a bundle (R23): of the lanes that pass, in order of falling eye width, the first 64 carry data.
D2D_LANE_MAP shows the four that do not and how many of them are bad; at four the reason is set (R26). -/
def Dev.selectLanes (d : Dev) (l b : Nat) (passing : List Nat) : Dev :=
  let pass := passing.filter (fun n => (d.goodLanes (16 * l + b)).contains n)
  let data := pass.take 64
  let idle := (List.range 68).filter (fun n => !data.contains n)
  let bad := 68 - pass.length
  let d := (((d.setFld (Reg.D2D_LANE_MAP.SPARE0 l b) (idle.getD 0 0)).setFld (Reg.D2D_LANE_MAP.SPARE1 l b)
    (idle.getD 1 0)).setFld (Reg.D2D_LANE_MAP.SPARE2 l b) (idle.getD 2 0)).setFld (Reg.D2D_LANE_MAP.SPARE3 l b) (idle.getD 3 0)
  let d := d.setFld (Reg.D2D_LANE_MAP.BAD_COUNT l b) (min 4 bad)
  if 4 ≤ bad then d.setReason 3 else d

/-- The bundles of a link: (link, bundle). -/
def linkBundles (l : Nat) : List (Nat × Nat) := (List.range (bundlesOf l)).map (fun b => (l, b))

/-- Every bundle of the package. -/
def allBundles : List (Nat × Nat) := ((List.range 20).map linkBundles).flatten

/-- The passing lanes that firmware start reports of a bundle; a bundle not listed passes on every good lane. -/
def Dev.passingOf (d : Dev) (res : List (Nat × LaneResult)) (i : Nat) : List Nat :=
  match res.find? (fun e => e.1 = i) with
  | some e => e.2.passing
  | none => d.goodLanes i

/-- A link with no bundle in service is lost: its tower's cores become LOST, or its engine's ports FAILED with cause
engine (R26, R223). -/
def Dev.linkLost (d : Dev) (l : Nat) : Dev :=
  if l < 8 then (List.range 24).foldl (fun d i => d.loseCore (24 * l + i)) d
  else (List.range 4).foldl (fun d k =>
    let p := 4 * (l - 8) + k
    let d := ((d.setFld (Reg.OPT_PORT_STATUS.STATE p) 5).setFld (Reg.OPT_PORT_STATUS.CAUSE p) 7).setFld (Reg.OPT_PORT_STATUS.ENG_LINK p) 1
    let d := d.setFldBit Reg.OPT_PORT_CHANGE.PORT p true
    (d.record (.mk1 5 1 p [5, 7])).refreshFlags) d

/-- A bundle at start: in service with 64 passing lanes, otherwise down (R23). -/
def Dev.startBundle (res : List (Nat × LaneResult)) (d : Dev) (e : Nat × Nat) : Dev :=
  let pass := d.passingOf res (16 * e.1 + e.2)
  let n := (pass.filter (fun x => (d.goodLanes (16 * e.1 + e.2)).contains x)).length
  let d := d.selectLanes e.1 e.2 pass
  if 64 ≤ n then d.setFldBit (Reg.D2D_LINK_STATUS.BUNDLE_UP e.1) e.2 true
  else (({ d with bundleOut := setBit d.bundleOut e.1 true } : Dev).setFldBit Reg.D2D_BUNDLE_DOWN.LINK e.1 true).record
    (.mk1 2 1 e.1 (leBytes 1 e.2))

/-- FIRMWARE_START_DONE: follower PLLs locked, lanes chosen, vaults zeroed, the core map and the update cores up
(R23, R153, R401); the fused voltage of VDD_MID is written once, and P0 is commanded before any core clock runs (R426, R428).
DESIGN CHOICE and DEDUCED (log entries 4 and 10). -/
def execFirmwareStartDone (res : List (Nat × LaneResult)) (s : State) : Host.Outcome State Fault Refusal :=
  s.run (res.all (fun e => e.1 < 320)) (s.dev.st = .boot && s.dev.boot.phase = .image) (fun d =>
    let d := ({ d with boot := { d.boot with phase := .firmware } } : Dev).emit .avsMid
    let d := ((d.emit (.avs 0)).setFld Reg.CLK_STATUS.TWR_LOCK 0xFF).setFld Reg.CLK_STATUS.ENG_LOCK 0xFFF
    let d := { d with mem := Tab.clear d.mem 0 0xC000000000, evt := [] }
    let d := allBundles.foldl (Dev.startBundle res) d
    let d := (List.range 20).foldl (fun d l => if d.fld (Reg.D2D_LINK_STATUS.BUNDLE_UP l) = 0 then d.linkLost l else d) d
    d.refreshFlags)

/-! ### Finish and the watchdog (R401, R402, R416) -/

/-- One preset written as an ordinary register write. -/
def Dev.applyPreset (d : Dev) (p : Nat × Bool × Nat) : Dev := if p.2.1 then d.write64 p.1 p.2.2 else d.write32 p.1 p.2.2

/-- The presets of the Act in force, in record order (R416). -/
def Dev.applyPresets (d : Dev) : Dev :=
  match d.boot.act with
  | none => d
  | some r =>
    ((List.range (leAt r 96 2)).foldl (fun d j => d.applyPreset (presetOf r j)) d).setFld Reg.GLB_ACT.PRESETS (leAt r 96 2)

/-- BOOT_FINISH: fabric time 0, presets applied, the time since reset release shown, READY, vector 0; the fuse advance is pending when the image asks for
one (R401, R406). -/
def execBootFinish (s : State) : Host.Outcome State Fault Refusal :=
  s.run true (s.dev.st = .boot && s.dev.boot.phase = .firmware) (fun d =>
    let d := { d with stp := { d.stp with time := 0, frac := 0 }, mfb := { d.mfb with since := 0 } }
    let d := d.applyPresets
    let d := d.setFld Reg.SEC_BOOT_MS.MS (d.clk / ms 1)
    let d := d.setOn Reg.SEC_FUSE.ADVANCE_PENDING d.boot.advance
    (((List.range 8).foldl Dev.emptyCheck (d.setState .ready)).lightUp).refreshFlags)

/-- BOOT_WATCHDOG: not READY 10 s after reset release (R402). -/
def execBootWatchdog (s : State) : Host.Outcome State Fault Refusal :=
  s.run true (s.dev.st = .boot && sec 10 ≤ s.dev.clk) (fun d => d.enterRecovery 0xB)

/-- FUSE_ADVANCE: the security-version fuses and any revocation fuses are blown (R406). -/
def execFuseAdvance (s : State) : Host.Outcome State Fault Refusal :=
  s.run true (s.dev.up && s.dev.on Reg.SEC_FUSE.ADVANCE_PENDING) (fun d =>
    let h := d.boot.header
    let below := if bit (leAt h 7 1) 0 then 2 ^ leAt h 6 1 - 1 else 0
    ({ d with
      fuses := { d.fuses with svn := max d.fuses.svn (leAt h 12 1), revoked := d.fuses.revoked ||| below }
      boot := { d.boot with advance := false } } : Dev).setFld Reg.SEC_FUSE.ADVANCE_PENDING 0)

/-! ### Recovery (R407, R408) -/

/-- The image that the driver wrote to Midway SRAM offset 0. -/
def Dev.rcvHeader (d : Dev) : List Byte := d.read midwayBase 1024

/-- The cause recovery programming finds: the checks of R405, and SEC_RCV_LEN = 1,024 + BODY_LEN (R408). -/
def Dev.rcvCause (d : Dev) : Nat :=
  let h := d.rcvHeader
  if d.fld Reg.SEC_RCV_LEN.LEN != 1024 + leAt h 8 4 then 1
  else d.imageCause h (if hdrFormatOk h then d.read (midwayBase + 1024) (leAt h 8 4) else [])

/-- A program command is taken: RECOVERY, and no programming in progress. -/
def Dev.rcvReady (d : Dev) : Bool := d.st = .recovery && d.fld Reg.SEC_RCV_CTRL.STATUS != 1

/-- Recovery programming: the image is checked, and written to flash when it passes. -/
def Dev.rcvProgram (d : Dev) : Dev :=
  let c := d.rcvCause
  let d := d.setFld Reg.SEC_COMMIT.CAUSE c
  if c = 0 then
    ({ d with boot := { d.boot with rcvJob := true
                                    flashJob := some ⟨0, d.read midwayBase (d.fld Reg.SEC_RCV_LEN.LEN), none, none⟩ } } : Dev).setFld
      Reg.SEC_RCV_CTRL.STATUS 1
  else d.setFld Reg.SEC_RCV_CTRL.STATUS 3

/-- RCV_PROGRAM: a write of program to SEC_RCV_CTRL.CMD; ignored while busy and outside RECOVERY (R408). -/
def execRcvProgram (s : State) : Host.Outcome State Fault Refusal :=
  s.run true s.dev.rcvReady Dev.rcvProgram

/-- RCV_FLASH_DONE: the write and its read-back end, well or after 3 tries not; then the firmware area is invalid
(R408, R410). DESIGN CHOICE and DEDUCED (log entry 10). -/
def execRcvFlashDone (ok : Bool) (s : State) : Host.Outcome State Fault Refusal :=
  s.run true (s.dev.st = .recovery && s.dev.boot.rcvJob && s.dev.boot.flashJob.isSome) (fun d =>
    match d.boot.flashJob with
    | none => d
    | some j =>
      if ok then
        (({ d with boot := { d.boot with rcvJob := false, flashJob := none } } : Dev).flashWrite j.addr j.data).setFld
          Reg.SEC_RCV_CTRL.STATUS 2
      else
        ((({ d with boot := { d.boot with rcvJob := false, flashJob := none } } : Dev).flashErase 0 1024).setFld
          Reg.SEC_RCV_CTRL.STATUS 4).setFld Reg.SEC_COMMIT.CAUSE 0xA)

/-- RCV_RESET: a write of reset to SEC_RCV_CTRL.CMD: the device enters RESET (R408). -/
def execRcvReset (s : State) : Host.Outcome State Fault Refusal :=
  s.run true (s.dev.st = .recovery) (fun d =>
    let z := d.enterReset true
    { z with boot := { z.boot with pulse := true } })

/-- INTERNAL_RESET_PULSE_END: the 1 ms pulse ends with both pins high (R429). -/
def execInternalResetPulseEnd (r : RomInputs) (s : State) : Host.Outcome State Fault Refusal :=
  s.run (r.towerWords.length = 8 && r.profile < 4 && r.railsBad < 2 ^ 16)
    (s.dev.st = .reset && s.dev.boot.pulse && s.dev.pins.pwrgood && s.dev.pins.resetN) (fun d => d.romStart r)

end Sys2Proof.Machine
end

