-- ==== Sys2Proof/Machine/TileOps.lean ====
section
/-! DEFINITION. Tile programs: operation fields, read and write sets, and the RUN check (R90, R94, R95, R97, R99 to R110). -/

namespace Sys2Proof.Machine

/-! ### Operation fields (R99 to R110) -/

/-- A little-endian field of an operation. -/
def opNum (l : List Byte) (a n : Nat) : Nat := leAt l a n

/-- Bits of an operation, from byte a on. -/
def opBits (l : List Byte) (a lo w : Nat) : Nat := bits (leAt l a 4) lo w

/-- OPC of an operation. -/
def opCode (l : List Byte) : Nat := opNum l 0 1

/-- The operation codes of R99. -/
def opDefined (c : Nat) : Bool := [0x01, 0x02, 0x03, 0x04, 0x10, 0x20, 0x21, 0x22, 0x30, 0x31, 0x32, 0x38, 0x3F].contains c

/-- The unit of an operation (R96): 0 WL, 1 ST, 2 DR, 3 VU, 4 to 7 the data-movement channels, 8 none. -/
def opUnit (l : List Byte) : Nat :=
  match opCode l with
  | 0x01 => 0 | 0x02 => 0 | 0x03 => 1 | 0x04 => 2 | 0x10 => 3
  | 0x20 => 4 + opBits l 1 0 2 | 0x21 => 4 + opBits l 1 0 2 | 0x22 => 4 + opBits l 1 0 2
  | _ => 8

/-- Queue depth of a unit (R96). -/
def unitDepth (u : Nat) : Nat := if u = 1 then 2 else if u < 4 then 4 else 8

/-- The packing factor that PACK codes; 1 in F19 (R100). -/
def packOf (p : Nat) : Nat := if p = 2 then 2 else if p = 3 then 4 else 1

/-! W_LOAD -/

/-- FMT. -/
def wlFmt (l : List Byte) : Nat := opBits l 1 0 4
/-- f. -/
def wlF (l : List Byte) : Nat := packOf (opBits l 1 4 2)
/-- SCALED. -/
def wlScaled (l : List Byte) : Bool := bit (opNum l 1 1) 6
/-- CB_SLOT. -/
def wlSlot (l : List Byte) : Nat := opBits l 1 7 1
/-- ZP. -/
def wlZp (l : List Byte) : Nat := opNum l 2 1
/-- K. -/
def wlK (l : List Byte) : Nat := opNum l 3 1 + 1
/-- N. -/
def wlN (l : List Byte) : Nat := opBits l 4 0 6 + 1
/-- SRC. -/
def wlSrc (l : List Byte) : Nat := opNum l 8 4
/-- SRC_STRIDE. -/
def wlStride (l : List Byte) : Nat := opNum l 12 4
/-- SCALE. -/
def wlScale (l : List Byte) : Nat := opNum l 16 4
/-- Cell rows read. -/
def wlRows (l : List Byte) : Nat := ceilDiv (wlK l) (wlF l)
/-- Bytes of one cell row. -/
def wlRowBytes (l : List Byte) : Nat := fmtBytes (wlFmt l) (wlN l * wlF l)

/-! STREAM -/

/-- ACT_FMT. -/
def stFmt (l : List Byte) : Nat := opBits l 1 0 4
/-- SWITCH. -/
def stSwitch (l : List Byte) : Bool := bit (opNum l 1 1) 4
/-- ACC_SR. -/
def stSr (l : List Byte) : Bool := bit (opNum l 1 1) 5
/-- SCALED. -/
def stScaled (l : List Byte) : Bool := bit (opNum l 1 1) 6
/-- CB_SLOT. -/
def stSlot (l : List Byte) : Nat := opBits l 1 7 1
/-- ZP. -/
def stZp (l : List Byte) : Nat := opNum l 2 1
/-- K. -/
def stK (l : List Byte) : Nat := opNum l 3 1 + 1
/-- M. -/
def stM (l : List Byte) : Nat := opBits l 4 0 14 + 1
/-- ACC_SEL. -/
def stSel (l : List Byte) : Nat := opBits l 4 14 2
/-- IN_ROW. -/
def stIn (l : List Byte) : Nat := opBits l 6 0 12
/-- OUT_ROW. -/
def stOut (l : List Byte) : Nat := opBits l 8 0 12
/-- ACC_TAG. -/
def stTag (l : List Byte) : Nat := opNum l 10 3
/-- KB. -/
def stKb (l : List Byte) : Nat := opNum l 14 2
/-- ACT. -/
def stAct (l : List Byte) : Nat := opNum l 16 4
/-- ACT_STRIDE. -/
def stStride (l : List Byte) : Nat := opNum l 20 4
/-- ASCALE. -/
def stScale (l : List Byte) : Nat := opNum l 24 4
/-- ACC_BASE. -/
def stBase (l : List Byte) : Nat := opNum l 28 4
/-- The output region: false A, true B. -/
def stToB (l : List Byte) : Bool := stSel l = 1 || stSel l = 2
/-- The pass has an input region, the other one. -/
def stHasIn (l : List Byte) : Bool := 2 ≤ stSel l
/-- Local rows of array a. -/
def stRowsOf (l : List Byte) (a : Nat) : Nat := (stM l + 3 - a) / 4

/-! DRAIN -/

/-- SRC_SEL. -/
def drB (l : List Byte) : Bool := bit (opNum l 1 1) 0
/-- REPLAY. -/
def drReplay (l : List Byte) : Bool := bit (opNum l 1 1) 1
/-- SRC_INT. -/
def drInt (l : List Byte) : Bool := bit (opNum l 1 1) 2
/-- ARRAYS, as a list. -/
def drArrays (l : List Byte) : List Nat := onesOf 4 (opNum l 2 1)
/-- ROW. -/
def drRow (l : List Byte) : Nat := opBits l 4 0 12
/-- ROWS. -/
def drRows (l : List Byte) : Nat := opBits l 6 0 13
/-- DST. -/
def drDst (l : List Byte) : Nat := opNum l 8 4
/-- DST_STRIDE. -/
def drStride (l : List Byte) : Nat := opNum l 12 4
/-- CONV. -/
def drConv (l : List Byte) : Nat := opNum l 16 4
/-- SUMMARY. -/
def drSummary (l : List Byte) : Nat := opNum l 20 4
/-- ELEM_BASE. -/
def drElem (l : List Byte) : Nat := opNum l 24 6
/-- The pass rows a DRAIN converts, ascending: 4 (j − ROW) + a. -/
def drPassRows (l : List Byte) : List Nat :=
  ((List.range (drRows l)).map (fun j => (drArrays l).map (fun a => 4 * j + a))).flatten

/-! Conversion record (R104) -/

/-- OUT_FMT. -/
def cvFmt (r : List Byte) : Nat := opBits r 0 0 4
/-- RND. -/
def cvRnd (r : List Byte) : Nat := opBits r 0 4 2
/-- SAT. -/
def cvSat (r : List Byte) : Bool := bit (opNum r 0 1) 6
/-- GRAD. -/
def cvGrad (r : List Byte) : Bool := bit (opNum r 0 1) 7
/-- OSC. -/
def cvOsc (r : List Byte) : Int := sext 8 (opNum r 1 1)
/-- ZP_OUT. -/
def cvZp (r : List Byte) : Nat := opNum r 2 1
/-- COLMUL. -/
def cvColmul (r : List Byte) : Bool := bit (opNum r 3 1) 0
/-- BSCALE. -/
def cvBscale (r : List Byte) : Bool := bit (opNum r 3 1) 1
/-- STATS. -/
def cvStats (r : List Byte) : Bool := bit (opNum r 3 1) 2
/-- LAYER. -/
def cvLayer (r : List Byte) : Nat := opBits r 4 0 12
/-- TENSOR. -/
def cvTensor (r : List Byte) : Nat := opNum r 6 3
/-- ROW_STRIDE. -/
def cvStride (r : List Byte) : Nat := opNum r 12 4
/-- MUL_ADDR. -/
def cvMul (r : List Byte) : Nat := opNum r 16 4
/-- BSCALE_ADDR. -/
def cvScaleAt (r : List Byte) : Nat := opNum r 20 4
/-- STATS_ADDR. -/
def cvStatsAt (r : List Byte) : Nat := opNum r 24 4

/-! ### Places (R11, R49, R90) -/

/-- The device address of an SRAM offset of a core. -/
def sramAt (core off : Nat) : Nat := sramBase core + off

/-- The device address of accumulator row r of region A (or B) of array a. -/
def accRow (core : Nat) (b : Bool) (a r : Nat) : Nat :=
  sramAt core (0x1000000 + 0x200000 * a + (if b then 0x100000 else 0) + 256 * r)

/-- [off, off + n) lies in the populated SRAM; an offset that is named is, whether or not a byte at it is used (R90). -/
def sramOk (off n : Nat) : Bool := off + max 1 n ≤ sramSize

/-- rows rows of n bytes, stride apart, lie in the populated SRAM. -/
def sramRowsOk (off stride rows n : Nat) : Bool := sramOk (off + (rows - 1) * stride) n && rows != 0

/-! ### Read and write sets (R97)

A set is a list of ranges of device addresses; weight shadow registers and codebook slots stand above the address map. -/

/-- A range: first address and length. -/
abbrev Rng := Nat × Nat

/-- The place of a core's shadow registers. -/
def shadowLoc : Rng := (0x20000000000, 64)

/-- The place of codebook slot i. -/
def slotLoc (i : Nat) : Rng := (0x20000001000 + 64 * i, 64)

/-- The bounding range of rows; empty rows touch nothing. -/
def rowsRng (base stride rows n : Nat) : Rng := (base, if n = 0 then 0 else (rows - 1) * stride + n)

/-- Rows of n bytes, one range each. -/
def rowsOf (base stride rows n : Nat) : List Rng := (List.range rows).map (fun i => (base + i * stride, n))

/-- A range rounded out to 64-byte lines. -/
def lines64 (r : Rng) : Rng := (r.1 / 64 * 64, ceilDiv (r.1 + r.2) 64 * 64 - r.1 / 64 * 64)

/-- Two ranges share a line. -/
def rngMeet (r s : Rng) : Bool :=
  r.2 != 0 && s.2 != 0 && overlaps (lines64 r).1 (lines64 r).2 (lines64 s).1 (lines64 s).2

/-- Two sets share a line. -/
def setsMeet (a b : List Rng) : Bool := a.any (fun r => b.any (rngMeet r))

/-- A device-address range of a core's own SRAM or vault; others are not tracked. -/
def tracked (core : Nat) (r : Rng) : List Rng :=
  if (vaultBase core ≤ r.1 + r.2 && r.1 < vaultBase core + 0x100000000) || (sramBase core ≤ r.1 + r.2 && r.1 < sramBase core + sramSize)
  then [r] else []

/-- What a W_LOAD reads. -/
def wlReads (core : Nat) (l : List Byte) : List Rng :=
  [rowsRng (sramAt core (wlSrc l)) (wlStride l) (wlRows l) (wlRowBytes l)] ++
    (if wlScaled l then [(sramAt core (wlScale l), wlN l * 2 * wlF l)] else []) ++
    (if wlFmt l = 0xC || wlFmt l = 0xD then [slotLoc (wlSlot l)] else [])

/-- The accumulator rows of a pass: those it writes (out) or reads. -/
def stRows (core : Nat) (l : List Byte) (out : Bool) : List Rng :=
  (List.range 4).map (fun a =>
    (accRow core (if out then stToB l else !stToB l) a (if out then stOut l else stIn l), 256 * stRowsOf l a))

/-- What a STREAM reads; wl is the W_LOAD of its tile. -/
def stReads (core : Nat) (l wl : List Byte) : List Rng :=
  [rowsRng (sramAt core (stAct l)) (stStride l) (stM l) (fmtBytes (stFmt l) (stK l))] ++
    (if stScaled l then [(sramAt core (stScale l), stM l * 2 * wlF wl)] else []) ++
    (if stHasIn l then stRows core l false else []) ++
    (if stFmt l = 0xC || stFmt l = 0xD then [slotLoc (2 + stSlot l)] else []) ++
    (if wl.isEmpty then [] else wlReads core wl)

/-- The accumulator rows of a DRAIN. -/
def drSource (core : Nat) (l : List Byte) : List Rng :=
  (drArrays l).map (fun a => (accRow core (drB l) a (drRow l), 256 * drRows l))

/-- What a DRAIN reads; r is its conversion record when it has been read. -/
def drReads (core : Nat) (l r : List Byte) : List Rng :=
  drSource core l ++ [(sramAt core (drConv l), 64)] ++
    (if !r.isEmpty && cvColmul r then [(sramAt core (cvMul r), 256)] else [])

/-- Least and one past the largest pass row of a DRAIN. -/
def drSpan (l : List Byte) : Nat × Nat :=
  ((drArrays l).headD 0, 4 * (drRows l - 1) + (drArrays l).getLastD 0 + 1)

/-- Bytes of one converted row. -/
def drRowBytes (r : List Byte) : Nat := fmtBytes (cvFmt r) 64

/-- A DRAIN writes a summary. -/
def drSums (l r : List Byte) : Bool := drReplay l || cvStats r

/-- The ranges a DRAIN writes under its record. -/
def drWrites (core : Nat) (l r : List Byte) : List Rng :=
  let s := drSpan l
  [rowsRng (sramAt core (drDst l) + s.1 * drStride l) (drStride l) (s.2 - s.1) (drRowBytes r)] ++
    (if cvBscale r then [(sramAt core (cvScaleAt r) + 2 * s.1, 2 * (s.2 - s.1))] else []) ++
    (if cvStats r then [(sramAt core (cvStatsAt r) + 2 * s.1, 2 * (s.2 - s.1))] else []) ++
    (if drSums l r then [(sramAt core (drSummary l), 32)] else [])

/-- ESIZE in bytes. -/
def gaSize (l : List Byte) : Nat := 32 * 2 ^ opBits l 1 2 2

/-- LEN of MOVE and XFER, COUNT of GATHER. -/
def dmLen (l : List Byte) : Nat := opNum l 4 4
/-- Bytes 8 to 12 as a device address. -/
def dmA (l : List Byte) : Nat := opNum l 8 5
/-- Bytes 13 to 17 as a device address. -/
def dmB (l : List Byte) : Nat := opNum l 13 5
/-- Rows of a MOVE. -/
def mvRows (l : List Byte) : Nat := opNum l 2 2 + 1
/-- SRC_STRIDE, or DST of a GATHER. -/
def dmC (l : List Byte) : Nat := opNum l 20 4
/-- DST_STRIDE, or TSTRIDE of a GATHER. -/
def dmD (l : List Byte) : Nat := opNum l 24 4
/-- An XFER get. -/
def xfGet (l : List Byte) : Bool := bit (opNum l 1 1) 2
/-- NOTIFY of an XFER. -/
def xfNotify (l : List Byte) : Bool := bit (opNum l 1 1) 3

/-- The read set of an operation; wl is the W_LOAD of a STREAM's tile, r the record of a DRAIN. -/
def readSet (core : Nat) (l wl r : List Byte) : List Rng :=
  match opCode l with
  | 0x01 => wlReads core l
  | 0x02 => [(sramAt core (opNum l 8 4), (if opBits l 1 3 1 = 1 then 256 else 16) * (if opBits l 1 2 1 = 1 then 1 else 2))]
  | 0x03 => stReads core l wl
  | 0x04 => drReads core l r
  | 0x10 => [(sramAt core (opNum l 4 4), 4 * opNum l 2 2), (sramAt core (opNum l 8 4), opNum l 12 4),
      (sramAt core (opNum l 16 4), opNum l 20 4)]
  | 0x20 => tracked core (rowsRng (dmA l) (dmC l) (mvRows l) (dmLen l))
  | 0x21 => [(sramAt core (opNum l 8 4), 4 * dmLen l), (vaultBase core, 0x100000000)]
  | 0x22 => if xfGet l then [] else tracked core (dmA l, dmLen l)
  | _ => []

/-- The write set of an operation: a DRAIN whose record has not been read writes the whole SRAM (R104). -/
def writeSet (core : Nat) (l r : List Byte) : List Rng :=
  match opCode l with
  | 0x01 => [shadowLoc]
  | 0x02 => [slotLoc (opBits l 1 0 2)]
  | 0x03 => stRows core l true
  | 0x04 => if r.isEmpty then [(sramBase core, sramSize)] else drWrites core l r
  | 0x10 => [(sramAt core (opNum l 24 4), opNum l 28 4)]
  | 0x20 => tracked core (rowsRng (dmB l) (dmD l) (mvRows l) (dmLen l))
  | 0x21 => [(sramAt core (dmC l), dmLen l * gaSize l)]
  | 0x22 => if xfGet l then tracked core (dmA l, dmLen l) else []
  | _ => []

/-! ### The RUN check (R95) -/

/-- The bits of an operation that carry fields, as (byte, low bit, width). -/
def opFields (c : Nat) : List (Nat × Nat × Nat) :=
  match c with
  | 0x01 => [(0, 0, 32), (4, 0, 6), (8, 0, 96)]
  | 0x02 => [(0, 0, 12), (8, 0, 32)]
  | 0x03 => [(0, 0, 60), (8, 0, 12), (10, 0, 24), (14, 0, 144)]
  | 0x04 => [(0, 0, 11), (2, 0, 4), (4, 0, 12), (6, 0, 13), (8, 0, 176)]
  | 0x10 => [(0, 0, 8), (2, 0, 240)]
  | 0x20 => [(0, 0, 10), (2, 0, 128), (20, 0, 64)]
  | 0x21 => [(0, 0, 12), (4, 0, 64), (13, 0, 40), (20, 0, 64)]
  | 0x22 => [(0, 0, 12), (2, 0, 144)]
  | 0x30 => [(0, 0, 8), (2, 0, 48)]
  | 0x31 => [(0, 0, 8), (2, 0, 24), (8, 0, 32)]
  | 0x32 => [(0, 0, 9), (2, 0, 8)]
  | 0x38 => [(0, 0, 12)]
  | _ => [(0, 0, 8)]

/-- No reserved bit of an operation is set. -/
def opReservedOk (l : List Byte) : Bool :=
  let used := (opFields (opCode l)).foldl (fun m f => m ||| ((2 ^ f.2.2 - 1) <<< (8 * f.1 + f.2.1))) 0
  leNat (padTo 32 l) &&& ((2 ^ 256 - 1) ^^^ used) = 0

/-- The class of an array operand (R38): 0 F16, 1 F19, 2 F8, 3 F4, 4 I8, 5 I4; none for other formats. A codebook
operand has the class of its table's entries. -/
def opClass (f entry : Nat) : Option Nat :=
  match f with
  | 1 => some 1 | 2 => some 0 | 3 => some 0 | 4 => some 2 | 5 => some 2 | 6 => some 2 | 7 => some 2 | 8 => some 3
  | 9 => some 4 | 0xA => some 4 | 0xB => some 5
  | 0xC => some (if entry = 1 then 2 else 0) | 0xD => some (if entry = 1 then 2 else 0)
  | _ => none

/-- PACK of a pair of classes (R39): 0 F19, 1, 2 for f = 2, 3 for f = 4; none for an illegal pair. -/
def pairPack (a b : Nat) : Option Nat :=
  if (a < 4) != (b < 4) then none
  else if a = 1 || b = 1 then some 0
  else
    let f := fun c => if c = 0 then 1 else if c = 2 || c = 4 then 2 else 3
    some (min (f a) (f b))

/-- What the check carries from operation to operation: the tables of the slots as (entry, count), W_LOADs not yet paired
with the entry type of their table, the W_LOAD of the tile in use, whether a segment is open, whether a step barrier has
been met, and the SCOPE 0 barriers met. -/
structure ChkSt where
  slots : List (Option (Nat × Nat))
  loads : List (List Byte × Nat)
  tile : Option (List Byte × Nat)
  switched : Bool
  seg : Bool
  step : Bool
  bars : List Nat
  deriving DecidableEq, Repr

/-- The check before the first operation. -/
def ChkSt.init : ChkSt := ⟨[none, none, none, none], [], none, false, false, false, []⟩

/-- An operand's own checks: a format that the arrays take, a table of its count in its slot, scales and zero point. -/
def operandOk (s : ChkSt) (fmt slot zp : Nat) (scaled : Bool) : Bool :=
  (opClass fmt 0).isSome && (!scaled || fmtScaled fmt) && (zp = 0 || fmt = 0xA) &&
    (match fmt with
     | 0xC => (match s.slots.getD slot none with | some t => t.2 = 0 | none => false)
     | 0xD => (match s.slots.getD slot none with | some t => t.2 = 1 | none => false)
     | _ => true)

/-- The entry type of a slot's table. -/
def slotEntry (s : ChkSt) (slot : Nat) : Nat :=
  match s.slots.getD slot none with
  | some t => t.1
  | none => 0

/-- W_LOAD: R41, R66, R68, R70, R90. -/
def chkWLoad (s : ChkSt) (l : List Byte) : Option ChkSt :=
  if operandOk s (wlFmt l) (wlSlot l) (wlZp l) (wlScaled l) && wlK l ≤ 64 * wlF l &&
      sramRowsOk (wlSrc l) (wlStride l) (wlRows l) (wlRowBytes l) &&
      sramOk (wlScale l) (if wlScaled l then wlN l * 2 * wlF l else 0)
  then some { s with loads := s.loads ++ [(l, slotEntry s (wlSlot l))] } else none

/-- CB_LOAD. -/
def chkCbLoad (s : ChkSt) (l : List Byte) : Option ChkSt :=
  if sramOk (opNum l 8 4) ((if opBits l 1 3 1 = 1 then 256 else 16) * (if opBits l 1 2 1 = 1 then 1 else 2)) then
    some { s with slots := s.slots.set (opBits l 1 0 2) (some (opBits l 1 2 1, opBits l 1 3 1)) }
  else none

/-- The pairing of a STREAM with the W_LOAD of its tile (R39, R100); a switching STREAM left without one passes here. Its
scale bytes lie in SRAM, two a row when there is no tile. -/
def pairOk (s : ChkSt) (l : List Byte) (t : Option (List Byte × Nat)) : Bool :=
  match t with
  | none => sramOk (stScale l) (if stScaled l then stM l * 2 else 0)
  | some (w, e) =>
    (match opClass (wlFmt w) e, opClass (stFmt l) (slotEntry s (2 + stSlot l)) with
     | some a, some b => pairPack a b = some (opBits w 1 4 2)
     | _, _ => false) && stK l ≤ 64 * wlF w &&
      sramOk (stScale l) (if stScaled l then stM l * 2 * wlF w else 0) && (opBits w 1 4 2 != 0 || stM l ≤ 8192)

/-- STREAM: R39, R41, R46, R66, R68, R70, R90, R102. -/
def chkStream (s : ChkSt) (l : List Byte) : Option ChkSt :=
  let t := if stSwitch l then s.loads.head? else s.tile
  if operandOk s (stFmt l) (2 + stSlot l) (stZp l) (stScaled l) && (stSwitch l || s.switched) && pairOk s l t &&
      stOut l + ceilDiv (stM l) 4 ≤ 4096 && (!stHasIn l || stIn l + ceilDiv (stM l) 4 ≤ 4096) &&
      sramRowsOk (stAct l) (stStride l) (stM l) (fmtBytes (stFmt l) (stK l))
  then some { s with
    loads := if stSwitch l then s.loads.drop 1 else s.loads
    tile := t
    switched := s.switched || stSwitch l }
  else none

/-- DRAIN: R81, R90, R95, R103, R104. -/
def chkDrain (s : ChkSt) (l : List Byte) : Option ChkSt :=
  if !(drArrays l).isEmpty && 1 ≤ drRows l && drRow l + drRows l ≤ 4096 && drConv l % 64 = 0 && sramOk (drConv l) 64 &&
      sramOk (drSummary l) 32 && (!drReplay l || s.seg) && sramOk (drDst l + ((drSpan l).2 - 1) * drStride l) 1
  then some s else none

/-- VEC: its ranges lie in SRAM, the base of one that is not declared too (R90). -/
def chkVec (s : ChkSt) (l : List Byte) : Option ChkSt :=
  let ok := fun a => sramOk (opNum l a 4) (opNum l (a + 4) 4)
  if 1 ≤ opNum l 2 2 && sramOk (opNum l 4 4) (4 * opNum l 2 2) && ok 8 && ok 16 && ok 24 then some s else none

/-- Every row of a MOVE is populated memory; a LEN of 0 touches none (R106). -/
def moveRowsOk (base stride rows n : Nat) : Bool :=
  n = 0 || (List.range rows).all (fun i => memRange (base + i * stride) n)

/-- Every row of a MOVE lies in the core's own SRAM. -/
def moveToSram (core : Nat) (l : List Byte) : Bool :=
  sramBase core ≤ dmB l && dmB l + (mvRows l - 1) * dmD l + dmLen l ≤ sramBase core + sramSize

/-- MOVE (R81, R106). -/
def chkMove (core : Nat) (s : ChkSt) (l : List Byte) : Option ChkSt :=
  if dmA l % 4 = 0 && dmB l % 4 = 0 && dmLen l % 4 = 0 && (mvRows l = 1 || (dmC l % 4 = 0 && dmD l % 4 = 0)) &&
      moveRowsOk (dmA l) (dmC l) (mvRows l) (dmLen l) && moveRowsOk (dmB l) (dmD l) (mvRows l) (dmLen l) &&
      (!s.seg || moveToSram core l)
  then some s else none

/-- GATHER (R106, R145). -/
def chkGather (core : Nat) (s : ChkSt) (l : List Byte) : Option ChkSt :=
  if dmLen l ≤ 1048576 && dmB l / 0x100000000 = core && dmB l % 32 = 0 && dmD l % 32 = 0 && sramOk (opNum l 8 4) (4 * dmLen l) &&
      sramOk (dmC l) (dmLen l * gaSize l)
  then some s else none

/-- [a, a + n) lies in the core's own SRAM or own vault. -/
def ownRange (core a n : Nat) : Bool :=
  (vaultBase core ≤ a && a + n ≤ vaultBase core + 0x100000000) || (sramBase core ≤ a && a + n ≤ sramBase core + sramSize)

/-- XFER (R81, R106). -/
def chkXfer (core : Nat) (s : ChkSt) (l : List Byte) : Option ChkSt :=
  if dmA l % 4 = 0 && dmB l % 4 = 0 && dmLen l % 4 = 0 && ownRange core (dmA l) (dmLen l) && !(xfGet l && xfNotify l) && !s.seg
  then some s else none

/-- BARRIER (R81, R109). -/
def chkBarrier (s : ChkSt) (l : List Byte) : Option ChkSt :=
  if s.seg then none
  else if bit (opNum l 1 1) 0 then (if s.step || opNum l 2 1 != 0 then none else some { s with step := true })
  else some { s with bars := opNum l 2 1 :: s.bars }

/-- One operation of the check; none when it fails. Only END may follow a step barrier. -/
def chkOp (core : Nat) (s : ChkSt) (l : List Byte) : Option ChkSt :=
  if !opDefined (opCode l) || !opReservedOk l || (s.step && opCode l != 0x3F) then none
  else match opCode l with
    | 0x01 => chkWLoad s l
    | 0x02 => chkCbLoad s l
    | 0x03 => chkStream s l
    | 0x04 => chkDrain s l
    | 0x10 => chkVec s l
    | 0x20 => chkMove core s l
    | 0x21 => chkGather core s l
    | 0x22 => chkXfer core s l
    | 0x31 => if s.seg then none else some s
    | 0x32 => chkBarrier s l
    | 0x38 => if 1 ≤ opBits l 1 0 4 && opBits l 1 0 4 ≤ 8 then some { s with seg := true } else none
    | 0x3F => some { s with seg := false }
    | _ => some s

/-- Operations of a program from position p on: the first that fails, or the check's state at the end. -/
def chkOps (core : Nat) (ops : Nat → List Byte) : Nat → Nat → ChkSt → Nat ⊕ ChkSt
  | 0, _, s => .inr s
  | k + 1, p, s =>
    match chkOp core s (ops p) with
    | none => .inl p
    | some s' => chkOps core ops k (p + 1) s'

/-- The 32 bytes of a program's header. -/
def Dev.progHdr (d : Dev) (core hdr : Nat) : List Byte := d.read (sramAt core hdr) 32

/-- The 32 bytes of operation p. -/
def Dev.progOp (d : Dev) (core hdr p : Nat) : List Byte := d.read (sramAt core (hdr + 32 + 32 * p)) 32

/-- OPS of a program. -/
def Dev.progOps (d : Dev) (core hdr : Nat) : Nat := leAt (d.progHdr core hdr) 4 4

/-- NO_PREEMPT of a program. -/
def Dev.noPreempt (d : Dev) (core hdr : Nat) : Bool := bit (leAt (d.progHdr core hdr) 1 1) 0

/-- The header of a program passes (R94, R95). -/
def hdrOk (core off : Nat) (h : List Byte) : Bool :=
  off % 32 = 0 && leAt h 0 1 = 0x7F && leAt h 1 1 < 2 && leAt h 2 2 = 0 && 1 ≤ leAt h 4 4 && leAt h 4 4 ≤ 65535 &&
    off + 32 + 32 * leAt h 4 4 ≤ 0x1000000 && leAt h 8 4 % 64 = 0 && leAt h 12 4 % 64 = 0 &&
    sramOk (leAt h 8 4) (leAt h 12 4) && leAt h 16 5 % 4096 = 0 && (slice h 21 11).all (· == 0) &&
    (bit (leAt h 1 1) 0 || (leAt h 16 5 / 0x100000000 = core && leAt h 16 5 % 0x100000000 + 4096 + leAt h 12 4 ≤ 0x100000000))

/-- The check of one core's program: the position that fails (0xFFFF for the header), or the SCOPE 0 barriers it holds. -/
def Dev.checkProg (d : Dev) (core hdr : Nat) : Nat ⊕ List Nat :=
  if !sramOk hdr 32 || !hdrOk core hdr (d.progHdr core hdr) then .inl 0xFFFF
  else match chkOps core (d.progOp core hdr) (d.progOps core hdr) 0 ChkSt.init with
    | .inl p => .inl p
    | .inr s => .inr s.bars

/-- The same number of SCOPE 0 barriers for each BAR_ID in two programs (R109). -/
def barsAgree (a b : List Nat) : Bool := (a ++ b).all (fun i => a.count i = b.count i)

/-- The first core, ascending, whose program fails, and where. Of programs that disagree on SCOPE 0 barriers it is the first
core that disagrees with the lowest core's, at 0xFFFF: R109 names no core and no position.
DESIGN CHOICE and DEDUCED (log entry 18). -/
def Dev.checkRun (d : Dev) (prog : Tab Nat) : Option (Nat × Nat) :=
  let rs := prog.map (fun e => (e.1, d.checkProg e.1 e.2))
  match rs.findSome? (fun e => match e.2 with | .inl p => some (e.1, p) | .inr _ => none) with
  | some x => some x
  | none =>
    let bars := rs.map (fun e => (e.1, match e.2 with | .inl _ => [] | .inr b => b))
    match bars with
    | [] => none
    | b :: _ => (bars.find? (fun e => !barsAgree b.2 e.2)).map (fun e => (e.1, 0xFFFF))

end Sys2Proof.Machine
end

