-- ==== Sys2Proof/Machine/Cores.lean ====
section
/-! DEFINITION. Logical cores and RUNs: hazards and starts, stops, the end of a RUN, the grant of cores, passes and drains, memory faults and migration requests (R35 to R60, R72 to R89, R93, R96 to R115, R166, R199). -/

namespace Sys2Proof.Machine

/-! ### Access -/

/-- A logical core. -/
def Dev.core (d : Dev) (c : Nat) : Core := Tab.get Core.init d.cores c

/-- A logical core changed. -/
def Dev.setCore (d : Dev) (c : Nat) (x : Core) : Dev := { d with cores := Tab.set Core.init d.cores c x }

/-- A logical core changed by a function. -/
def Dev.modCore (d : Dev) (c : Nat) (f : Core → Core) : Dev := d.setCore c (f (d.core c))

/-- A RUN by its descriptor's key. -/
def Dev.run? (d : Dev) (k : Nat × Nat) : Option Run := d.runs.find? (fun r => r.key = k)

/-- A RUN changed. -/
def Dev.modRun (d : Dev) (k : Nat × Nat) (f : Run → Run) : Dev :=
  { d with runs := d.runs.map (fun r => if r.key = k then f r else r) }

/-- The RUN that holds a core. -/
def Dev.ownerRun (d : Dev) (c : Nat) : Option Run := (d.core c).owner.bind d.run?

/-- A change of the RUN that holds a core. -/
def Dev.modOwner (d : Dev) (c : Nat) (f : Run → Run) : Dev :=
  match (d.core c).owner with
  | some k => d.modRun k f
  | none => d

/-- The RUN that holds a core is stopping. -/
def Dev.stopping (d : Dev) (c : Nat) : Bool := (d.ownerRun c).any (·.stopping)

/-- The operation at a position. -/
def Core.op? (x : Core) (pos : Nat) : Option OpRec := x.ops.find? (fun o => o.pos = pos)

/-- The operation at a position changed. -/
def Core.setOp (x : Core) (pos : Nat) (f : OpRec → OpRec) : Core :=
  { x with ops := x.ops.map (fun o => if o.pos = pos then f o else o) }

/-- The operation at a position leaves the core. -/
def Core.dropOp (x : Core) (pos : Nat) : Core := { x with ops := x.ops.filter (fun o => o.pos != pos) }

/-- An operation put at its program position. -/
def insertOp (o : OpRec) : List OpRec → List OpRec
  | [] => [o]
  | p :: r => if o.pos < p.pos then o :: p :: r else p :: insertOp o r

/-- The operation that SEQ dispatches next, as its 32 bytes. -/
def Dev.nextOp (d : Dev) (c : Nat) : List Byte := d.progOp c (d.core c).hdr (d.core c).next

/-- The core's program has passed its last operation, so that an END acts now (R110). -/
def Dev.pastEnd (d : Dev) (c : Nat) : Bool := d.progOps c (d.core c).hdr ≤ (d.core c).next

/-- The follower PLL of a core's tower is locked, so its core clock runs (R31, R33). -/
def Dev.towerClock (d : Dev) (c : Nat) : Bool := bit (d.fld Reg.CLK_STATUS.TWR_LOCK) (c / 24)

/-- Dispatch goes on: the program runs, no pre-emption request waits, the RUN does not stop. -/
def Dev.dispatches (d : Dev) (c : Nat) : Bool :=
  d.st = .running && d.towerClock c && (d.core c).phase = .running && !(d.core c).preempt && !d.stopping c

/-- Dispatch stands at an operation of a code. -/
def Dev.atOp (d : Dev) (c code : Nat) : Bool :=
  d.dispatches c && !d.pastEnd c && opCode (d.nextOp c) = code && (d.firstPoison (sramAt c ((d.core c).hdr + 32 + 32 * (d.core c).next)) 32).isNone

/-! ### Outcomes of a stopped core (R111, R136, R188) -/

/-- An outcome at a program position. -/
def Ending.at (st : Status) (c pos aux : Nat) : Ending := ⟨st, ⟨0, c, 0xFF, pos, 0xFFFF, aux⟩⟩

/-- The better ranked of two outcomes; on a tie the first. -/
def betterEnd (a b : Ending) : Ending := if b.st.rank < a.st.rank then b else a

/-! ### Migration requests (R166, R378) -/

/-- The tower of a logical core. -/
def towerOf (c : Nat) : Nat := c / 24

/-- A migration of R166, waiting or running; a core being brought back from LOST is none (R378). -/
def Migr.moves (m : Migr) : Bool := m.phase != .zero

/-- TWR_MIG as the migrations asked for show it. -/
def Dev.showMigs (d : Dev) (t : Nat) : Dev :=
  (d.setFldBit Reg.TWR_MIG.ACTIVE t (d.migs.any (fun m => towerOf m.core = t && m.moves && m.phase != .waiting))).setFldBit
    Reg.TWR_MIG.QUEUED t (d.migs.any (fun m => towerOf m.core = t && m.phase = .waiting))

/-- A request whose turn finds no spare site: a second array fault loses the core, any other cause leaves it ACTIVE and
DEGRADED; the core-site reason is set (R166). DESIGN CHOICE and DEDUCED (log entry 23). -/
def Dev.noSpareSite (d : Dev) (c : Nat) (cause : MigCause) (desc : Option (Nat × Nat)) : Dev :=
  let d :=
    if cause = .arrayFault then d.loseCore c
    else
      let d : Dev := { d with shortSites := setBit d.shortSites c true }
      (if d.coreSt c = 1 then d.setCoreSt c 0 (d.siteOf c) (d.siteOf c) else d).refreshFlags
  let d := d.setReason 0
  match desc with
  | some k => d.finishKey k ⟨.noResource, Detail.none⟩
  | none => d

/-- A migration is asked for: with a spare site in reserve, or a migration of the tower running or waiting, the core is
MIGRATING from now on; otherwise the request ends at once (R166, R378). -/
def Dev.askMigration (d : Dev) (c : Nat) (cause : MigCause) (desc : Option (Nat × Nat)) : Dev :=
  if d.coreSt c != 0 then d
  else if d.migs.any (fun m => towerOf m.core = towerOf c && m.moves) || d.fld (Reg.TWR_SPARE_SITES.SPARE (towerOf c)) != 0 then
    let d : Dev := { d with migs := d.migs ++ [⟨c, cause, desc, .waiting, 0x1F, d.clk, 0, []⟩] }
    (d.setCoreSt c 1 (d.siteOf c) 0x1F).showMigs (towerOf c)
  else d.noSpareSite c cause desc

/-! ### Memory faults of a core (R93, R151, R377) -/

/-- The fault record of a read that fails at an address: vault sector or SRAM line; the reader's code is 0 for a tile
operation, 1 for a pass, 2 for another agent. DESIGN CHOICE and DEDUCED (log entry 17). -/
def memRecord (a reader : Nat) : FaultRec :=
  match regionOf a with
  | .vault c off => .mk1 4 1 c (leBytes 4 off ++ [0])
  | .sram c off => .mk1 4 5 c (leBytes 4 off ++ leBytes 1 reader)
  | _ => .mk1 4 5 0xF0 (leBytes 4 (a - midwayBase) ++ leBytes 1 reader)

/-- A failed read writes its record; an uncorrectable vault read is counted (R151). -/
def Dev.memFault (d : Dev) (a reader : Nat) : Dev :=
  (if a < 0xC000000000 then d.bumpSat Reg.VLT_UE.UE 1 else d).record (memRecord a reader)

/-- The bank and the row of an SRAM address (R90): its key in the table of redundancy rows, and the row.
DESIGN CHOICE and DEDUCED (log entries 17 and 41). -/
def sramRow (a : Nat) : Nat × Nat :=
  match regionOf a with
  | .sram c off =>
    if off < 0x1000000 then (4096 * c + bits off 6 6, bits off 12 12)
    else (4096 * c + 64 + 4 * ((off - 0x1000000) / 0x100000) + bits off 6 2, bits off 8 12)
  | _ => (4096 * 0xF0 + (a - midwayBase) / 0x40000, (a - midwayBase) % 0x40000 / 64)

/-- What an access finds in SRAM: uncorrectable half-lines are rewritten with a poison marker, hard errors are marked for
the next step gap (R93, R377). DESIGN CHOICE and DEDUCED (log entry 17). -/
def Dev.meetEcc (d : Dev) (e : Ecc) : Dev :=
  let inSram := fun a => 0xE000000000 ≤ a && memRange a 1
  let d := (e.ue.filter inSram).foldl (fun d a => d.setPoison a) d
  let acts := (e.hard.filter inSram).map (fun a => GapAct.sramRow ((sramRow a).1 / 4096) ((sramRow a).1 % 4096) (sramRow a).2)
  { d with stp := { d.stp with gapActs := acts.foldl (fun l g => if l.contains g then l else l ++ [g]) d.stp.gapActs } }

/-- The first poisoned unit in a list of ranges. -/
def Dev.poisonOf (d : Dev) (l : List Rng) : Option Nat :=
  l.findSome? (fun r => if r.2 = 0 then none else d.firstPoison r.1 r.2)

/-! ### Stopping a program, ending a RUN (R111, R199) -/

/-- The cores of a RUN, ascending. -/
def Run.cores (r : Run) : List Nat := onesOf 192 r.mask

/-- A core of a RUN: as saved, or as it is. -/
def Dev.coreIn (d : Dev) (r : Run) (c : Nat) : Core :=
  match r.saved.find? (fun e => e.1 = c) with
  | some e => e.2
  | none => d.core c

/-- An operation that a stop leaves on its core: one that has started, and one that a fault replay issues again (R58, R111). -/
def OpRec.lasts (o : OpRec) : Bool := (o.started && !o.overflowed) || o.again

/-- A core has ended, stopped with nothing left to run, or is saved while its RUN stops (R115). -/
def Dev.coreDone (d : Dev) (r : Run) (c : Nat) : Bool :=
  if (r.saved.find? (fun e => e.1 = c)).isSome then r.stopping
  else (d.core c).owner = some r.key && ((d.core c).phase = .ended || (d.core c).phase = .stopped) &&
    (d.core c).ops.all (fun o => !o.lasts)

/-- The outcome of a RUN whose cores are all done: the highest-ranked, of the lowest core among equals; else the lowest
note that applies (R111, R190, R191). -/
def Dev.runOutcome (d : Dev) (r : Run) : Ending :=
  match r.ends with
  | e :: rest => rest.foldl (fun a b => betterEnd a b.2) e.2
  | [] =>
    if r.sat != 0 then ⟨.doneNote, { Detail.auxed r.sat with note := 1 }⟩
    else if r.replays != 0 then ⟨.doneNote, { Detail.auxed r.replays with note := 4 }⟩
    else if d.stp.timed then ⟨.doneNote, { Detail.auxed d.stp.cfg.step with note := 5 }⟩
    else Ending.plain .done

/-- The outcomes of a RUN with one more of a core: of two of one core the higher-ranked stays (R111). -/
def Run.endsWith (r : Run) (c : Nat) (e : Ending) : Tab Ending :=
  Tab.set (Ending.plain .done) r.ends c
    (match r.ends.find? (fun p => p.1 = c) with
     | some p => betterEnd p.2 e
     | none => e)

/-- The cores that a RUN holds become free. -/
def Dev.freeCores (d : Dev) (r : Run) : Dev :=
  r.cores.foldl (fun d c => if (d.core c).owner = some r.key then d.setCore c Core.init else d) d

/-! ### Granting cores (R46, R68, R168, R199) -/

/-- A RUN waits for cores: all of them before it has acquired them, then those on which it is saved. -/
def Run.needs (r : Run) : List Nat := if r.acquired then r.saved.map (·.1) else r.cores

/-- A RUN goes before another in the order of R199. -/
def Run.before (r q : Run) : Bool :=
  q.prio < r.prio || (r.prio = q.prio && (r.met < q.met || (r.met = q.met && r.key.1 < q.key.1)))

/-- Insertion into the waiting order. -/
def insertRun (r : Run) : List Run → List Run
  | [] => [r]
  | q :: t => if q.before r then q :: insertRun r t else r :: q :: t

/-- The waiting RUNs in the order of R199. -/
def Dev.waiting (d : Dev) : List Run :=
  (d.runs.filter (fun r => !r.needs.isEmpty && !r.stopping)).foldl (fun l r => insertRun r l) []

/-- A RUN gets its cores: a new one starts its check on cleared cores, a pre-empted one begins its restore. -/
def Dev.grant (d : Dev) (r : Run) : Dev :=
  if r.acquired then
    r.saved.foldl (fun d e => d.setCore e.1 { Core.init with owner := some r.key, hdr := e.2.hdr, phase := .restoring }) d
  else
    let d := r.cores.foldl (fun d c =>
      d.setCore c { Core.init with owner := some r.key, hdr := Tab.get 0 r.prog c, phase := .checking }) d
    d.modRun r.key (fun r => { r with acquired := true })

/-- The waiting RUNs get what is free and not kept for an earlier one. -/
def Dev.grantList : List Run → List Nat → Dev → Dev
  | [], _, d => d
  | r :: rest, kept, d =>
    let ok := r.needs.all (fun c => (d.core c).owner.isNone && !kept.contains c && d.coreSt c = 0)
    Dev.grantList rest (kept ++ r.needs) (if ok then d.grant r else d)

/-- A QUIESCE whose step has reached its boundary completes once no core migrates: the device is QUIESCED and no barrier
record is sent again (R168, R364, R367). DESIGN CHOICE and DEDUCED (log entry 33). -/
def Dev.quiesceNow (d : Dev) : Dev :=
  match d.stp.quiesce with
  | none => d
  | some k =>
    if d.st = .running && d.stp.phase = .none && d.migs.isEmpty then
      (({ d with stp := { d.stp with quiesce := none, sends := [] } } : Dev).setState .quiesced).finishKey k (Ending.plain .done)
    else d

/-- Free cores go to the RUNs that wait for them. -/
def Dev.grantRuns (d : Dev) : Dev := Dev.grantList d.waiting [] d

/-- A RUN completes: its cores are free, its record goes out, and waiting RUNs get their cores. -/
def Dev.finishRun (d : Dev) (r : Run) (e : Ending) : Dev :=
  let d := d.freeCores r
  let d : Dev := { d with runs := d.runs.filter (fun q => q.key != r.key) }
  let d := if e.st = .replayExhausted then d.bumpSat Reg.ARR_REPLAY_EXHAUSTED.COUNT 1 else d
  (d.finishStep r.key e).grantRuns

/-- A RUN all of whose cores are done completes. -/
def Dev.checkRunEnd (d : Dev) (k : Nat × Nat) : Dev :=
  match d.run? k with
  | some r => if r.acquired && r.cores.all (d.coreDone r) then d.finishRun r (d.runOutcome r) else d
  | none => d

/-- The RUN that holds a core completes when all its cores are done. -/
def Dev.checkOwnerEnd (d : Dev) (c : Nat) : Dev :=
  match (d.core c).owner with
  | some k => d.checkRunEnd k
  | none => d

/-- A core stops its program: nothing of it starts any more, the other cores of its RUN stop at their next boundary. The
outcome is none for a core that stops because another did; of two outcomes of one core the higher-ranked stays. -/
def Dev.haltCore (d : Dev) (c : Nat) (e : Option Ending) : Dev :=
  match (d.core c).owner with
  | none => d
  | some k =>
    let d := d.modCore c (fun x => { x with
      phase := .stopped, signals := [], preempt := false, replayDue := false, overs := []
      ops := x.ops.filter OpRec.lasts })
    let d : Dev := if (d.core c).ops.any (fun o => opCode o.bytes = 0x10) then d
      else { d with vec := Tab.set VecCtx.init d.vec c VecCtx.init }
    let d := d.modRun k (fun r => { r with
      stopping := true
      ends := match e with
        | some e => r.endsWith c e
        | none => r.ends })
    d.checkRunEnd k

/-- A core stops with an outcome. -/
def Dev.stopCore (d : Dev) (c : Nat) (e : Ending) : Dev := d.haltCore c (some e)

/-- The operation at a position stops the program: it does nothing further. -/
def Dev.stopOp (d : Dev) (c pos : Nat) (e : Ending) : Dev := (d.modCore c (·.dropOp pos)).stopCore c e

/-- A memory fault of the operation at a position (R93): its record, then the stop with DEVICE_FAULT. -/
def Dev.stopMem (d : Dev) (c pos a reader : Nat) : Dev :=
  (d.memFault a reader).stopOp c pos (Ending.at .deviceFault c pos d.flt.seq)

/-- The operation at a position is complete. -/
def Dev.opDone (d : Dev) (c pos : Nat) : Dev :=
  ((d.modCore c (·.dropOp pos)).bump Reg.ARR_SEQ_OPS.COUNT 1).checkOwnerEnd c

/-! ### Hazards and starts (R45, R48, R50, R69, R82, R96, R97, R113) -/

/-- The tiles that switching STREAMs will swap in, in order: the shadow's, then those of W_LOADs not yet complete. -/
def Core.supply (x : Core) : List (List Byte) :=
  (match x.shadow with | some t => [t.op] | none => []) ++ (x.ops.filter (fun o => opCode o.bytes = 1)).map (·.bytes)

/-- Switching STREAMs before a position that have not started. -/
def Core.switchesBefore (x : Core) (pos : Nat) : Nat :=
  (x.ops.filter (fun o => opCode o.bytes = 3 && o.sw && !o.started && o.pos < pos)).length

/-- The W_LOAD of the tile that a STREAM uses; empty when there is none. -/
def Core.tileOf (x : Core) (o : OpRec) : List Byte :=
  match o.tile with
  | some t => t.op
  | none =>
    let n := x.switchesBefore o.pos
    if o.sw then x.supply.getD n []
    else if n = 0 then (match x.active with | some t => t.op | none => [])
    else x.supply.getD (n - 1) []

/-- What an operation of a core reads. -/
def Core.readsOf (x : Core) (c : Nat) (o : OpRec) : List Rng :=
  readSet c o.bytes (if opCode o.bytes = 3 then x.tileOf o else []) o.conv

/-- What an operation of a core writes. -/
def Core.writesOf (c : Nat) (o : OpRec) : List Rng := writeSet c o.bytes o.conv

/-- An earlier operation that is not complete holds this one (R97). -/
def Core.held (x : Core) (c : Nat) (o : OpRec) : Bool :=
  x.ops.any (fun e => e.pos < o.pos &&
    (setsMeet (Core.writesOf c e) (x.readsOf c o ++ Core.writesOf c o) || setsMeet (x.readsOf c e) (Core.writesOf c o)))

/-- An operation is the first of its unit that has not started, and the unit can carry it. -/
def Core.unitFree (x : Core) (o : OpRec) : Bool :=
  (x.ops.find? (fun e => opUnit e.bytes = opUnit o.bytes && !e.started)).map (·.pos) = some o.pos &&
    (opUnit o.bytes = 1 || 4 ≤ opUnit o.bytes ||
      x.ops.all (fun e => opUnit e.bytes != opUnit o.bytes || !e.started || e.overflowed))

/-- Operations of the core may start in its present phase; those of a fault replay also on a stopped core.
DESIGN CHOICE and DEDUCED (log entry 18). -/
def Core.live (x : Core) : Bool :=
  match x.phase with
  | .running => true
  | .waitEvent _ _ => true
  | .ending => true
  | _ => false

/-- The operation at a position can start now. -/
def Dev.canStart? (d : Dev) (c pos : Nat) : Option OpRec :=
  let x := d.core c
  match x.op? pos with
  | none => none
  | some o =>
    if d.towerClock c && (x.live || (o.again && x.phase = .stopped)) && !o.started && (!x.preempt || o.again) &&
        (!d.stopping c || o.again) && x.unitFree o && !x.held c o then some o else none

/-- An operation with a code at a position can start now. -/
def Dev.startable (d : Dev) (c pos code : Nat) : Bool :=
  match d.canStart? c pos with
  | some o => opCode o.bytes = code
  | none => false

/-- The started operation at a position, of a code. -/
def Dev.startedOp (d : Dev) (c pos code : Nat) : Option OpRec :=
  match (d.core c).op? pos with
  | some o => if d.towerClock c && o.started && !o.overflowed && opCode o.bytes = code then some o else none
  | none => none

/-! ### Tiles and passes (R35, R37, R40, R42, R49, R67, R68, R80) -/

/-- The value of code v of a codebook table. -/
def cbValue (t : CbTable) (v : Nat) : Val :=
  if t.entry = 0 then fmtValue 2 0 (leAt t.bytes (2 * v) 2) else fmtValue 4 0 (leAt t.bytes v 1)

/-- The value of an element of an array operand. -/
def operandVal (slots : List (Option CbTable)) (fmt slot zp w : Nat) : Val :=
  if fmt = 0xC || fmt = 0xD then
    (match slots.getD slot none with
     | some t => cbValue t w
     | none => .fin 0 0 false)
  else fmtValue fmt zp w

/-- Weight W[k][n] of a W_LOAD, its scale applied. -/
def Dev.weightAt (d : Dev) (c : Nat) (l : List Byte) (k n : Nat) : Val :=
  let f := wlF l
  let row := d.read (sramAt c (wlSrc l + k / f * wlStride l)) (wlRowBytes l)
  let v := operandVal (d.core c).slots (wlFmt l) (wlSlot l) (wlZp l) (unpackAt (wlFmt l) row (n * f + k % f))
  if wlScaled l then scaled (d.peek (sramAt c (wlScale l + n * (2 * f) + k / 32))).toNat v else v

/-- The tile that a W_LOAD loads. -/
def Dev.tileFrom (d : Dev) (c pos : Nat) (l : List Byte) : Tile :=
  ⟨pos, l, (List.range (wlK l)).map (fun k => (List.range (wlN l)).map (fun n => d.weightAt c l k n))⟩

/-- An exact zero. -/
def zeroVal : Val := .fin 0 0 false

/-- Activation row m of a STREAM as the feeder gives it. -/
def Dev.actRow (d : Dev) (c f : Nat) (l : List Byte) (m : Nat) : List Val :=
  let row := d.read (sramAt c (stAct l + m * stStride l)) (fmtBytes (stFmt l) (stK l))
  (List.range (stK l)).map (fun k =>
    let v := operandVal (d.core c).slots (stFmt l) (2 + stSlot l) (stZp l) (unpackAt (stFmt l) row k)
    if stScaled l then scaled (d.peek (sramAt c (stScale l + m * (2 * f) + k / 32))).toNat v else v)

/-- The exact products of cell row r in column n. -/
def cellProducts (t : Tile) (f : Nat) (acts : List Val) (r n : Nat) : List Val :=
  (List.range f).map (fun i => Val.mul (acts.getD (f * r + i) zeroVal) ((t.rows.getD (f * r + i) []).getD n zeroVal))

/-- The rounding of an addition of a pass (R80). -/
def Dev.passRnd (d : Dev) (l : List Byte) (use m n : Nat) : Rnd :=
  if stSr l then
    .sr (srWord (d.fld Reg.ARR_SR_KEY.KEY) d.stp.cfg.step (stTag l) use ((stBase l + 64 * m + n) % 2 ^ 32 + 2 ^ 32 * stKb l))
  else .rne

/-- A value as a list of numbers, one list for each value. -/
def Val.key : Val → List Int
  | .nan => [0]
  | .inf n => [1, flag n]
  | .fin m e z => [2, m, e, flag z]

/-- The NaN that cell row r, or 64 for the accumulate unit, gives for its operands: equal operands give equal bits.
DESIGN CHOICE (log entry 5). -/
def sumNaN (r : Nat) (ops : List Val) : Nat := arrayNaN (Config.freeNaN r (ops.map Val.key).flatten)

/-- A float column sum with its input: 64 cell additions, then the accumulate unit's. -/
def Dev.floatSum (d : Dev) (l : List Byte) (t : Tile) (acts : List Val) (m n inp : Nat) : Nat :=
  let s := (List.range 64).foldl (fun s r =>
    let ops := fp32 s :: cellProducts t (wlF t.op) acts r n
    toFp32 (sumNaN r ops) (d.passRnd l (0x80 + r) m n) (Val.sum ops)) 0
  toFp32 (sumNaN 64 [fp32 s, fp32 inp]) (d.passRnd l 0xC0 m n) (Val.add (fp32 s) (fp32 inp))

/-- The integer that an exact integer value is. -/
def Val.toInt : Val → Int
  | .fin m e _ => if 0 ≤ e then m * 2 ^ e.toNat else m / 2 ^ (-e).toNat
  | _ => 0

/-- An integer column sum with its input, before saturation. -/
def intSum (t : Tile) (acts : List Val) (n inp : Nat) : Int :=
  ((List.range 64).foldl (fun s r => s + ((cellProducts t (wlF t.op) acts r n).foldl (fun a v => a + v.toInt) 0)) (0 : Int)) +
    sext 32 inp

/-- The pass is of an integer class. -/
def passInt (l : List Byte) : Bool := 9 ≤ stFmt l && stFmt l ≤ 0xB

/-- The device address of pass row m in the output (or input) region. -/
def passRowAt (c : Nat) (l : List Byte) (out : Bool) (m : Nat) : Nat :=
  accRow c (if out then stToB l else !stToB l) (m % 4) ((if out then stOut l else stIn l) + m / 4)

/-- Row m of a pass: its entries, and whether it is marked saturated. -/
def Dev.passRow (d : Dev) (c : Nat) (l : List Byte) (t : Tile) (m : Nat) : List Nat × Bool :=
  let acts := d.actRow c (wlF t.op) l m
  let src := passRowAt c l false m
  let inp := fun n => if stHasIn l then d.readLE (src + 4 * n) 4 else 0
  let marked := stHasIn l && Tab.get false d.satRows src
  if passInt l then
    let sums := (List.range (wlN t.op)).map (fun n => intSum t acts n (inp n))
    let overs := fun (i : Int) => decide (i < -2147483648) || decide (2147483647 < i)
    (sums.map (fun i => wrapInt 32 (if i < -2147483648 then -2147483648 else if 2147483647 < i then 2147483647 else i)),
      marked || sums.any overs)
  else ((List.range (wlN t.op)).map (fun n => d.floatSum l t acts m n (inp n)), marked)

/-- A row of a pass is written. -/
def Dev.putPassRow (c : Nat) (l : List Byte) (d : Dev) (e : Nat × List Nat × Bool) : Dev :=
  let a := passRowAt c l true e.1
  let d := d.write a ((e.2.1.map (leBytes 4)).flatten)
  if e.2.2 then { d with satRows := Tab.set false d.satRows a true } else d

/-- The output rows of a pass become visible together (R50, R55). -/
def Dev.passOutput (d : Dev) (c : Nat) (l : List Byte) (t : Tile) : Dev :=
  ((List.range (stM l)).map (fun m => (m, d.passRow c l t m))).foldl (Dev.putPassRow c l) d

/-- What a pass writes: N entries of each of its output rows, so that unused columns keep theirs (R42). -/
def passPuts (c : Nat) (l : List Byte) (t : Tile) : List Rng :=
  (List.range (stM l)).map (fun m => (passRowAt c l true m, 4 * wlN t.op))

/-- Injection cycles of a pass (R43). -/
def passSlots (l wl : List Byte) : Nat := ceilDiv (stM l) 4 * (if opBits wl 1 4 2 = 0 then 2 else 1)

/-- The output rows of a pass that is discarded are left undefined (R55). -/
def Dev.scrambleSet (d : Dev) (l : List Rng) : Dev :=
  (l.filter (fun r => memRange r.1 (max 1 r.2))).foldl (fun d r => d.scramble r.1 r.2) d

/-! ### Drains (R72 to R75, R82, R87, R88, R103, R104) -/

/-- The update exponent of a layer (R89). -/
def Dev.updExp (d : Dev) (layer : Nat) : Int := sext 8 (Tab.get 0 d.uLive layer)

/-- What a conversion counts for its layer under GRAD (R303). DESIGN CHOICE and DEDUCED (log entry 19). -/
def Dev.gradCount (d : Dev) (layer unf ovf : Nat) : Dev :=
  { d with
    uUnf := Tab.set 0 d.uUnf layer (satTo 0xFFFFFFFF (Tab.get 0 d.uUnf layer + unf))
    uOvf := Tab.set 0 d.uOvf layer (satTo 0xFFFFFFFF (Tab.get 0 d.uOvf layer + ovf)) }

/-- A reserved bit of a conversion record is set. -/
def convReserved (r : List Byte) : Bool :=
  opBits r 3 3 5 != 0 || opBits r 4 12 4 != 0 || opNum r 9 3 != 0 || !(slice r 28 36).all (· == 0)

/-- A range that a record puts in use leaves the populated SRAM. -/
def convOutside (l r : List Byte) : Bool :=
  (cvColmul r && !sramOk (cvMul r) 256) || (cvBscale r && !sramOk (cvScaleAt r) (2 * (drSpan l).2)) ||
    (cvStats r && !sramOk (cvStatsAt r) (2 * (drSpan l).2)) ||
    !sramOk (drDst l + ((drSpan l).2 - 1) * drStride l) (drRowBytes r)

/-- A conversion record that stops the program when its drain starts (R71, R104). -/
def convRefused (l r : List Byte) : Bool :=
  convBad (cvFmt r) (cvRnd r) (cvBscale r) (cvZp r) || convReserved r || convOutside l r

/-- E of a drain with lowering k (R72). -/
def Dev.drainExp (d : Dev) (r : List Byte) (k : Nat) : Int :=
  cvOsc r - (k : Int) + (if cvGrad r then d.updExp (cvLayer r) else 0)

/-- What a drain makes of one pass row: its codes, its two scale bytes, its two statistic bytes, and what it counts. -/
structure DrainRow where
  m : Nat
  codes : List Nat
  scales : List Nat
  stats : List Nat
  outs : List ConvOut
  deriving DecidableEq, Repr

/-- t of column n after step 3 of R72. -/
def Dev.drainVal (d : Dev) (c : Nat) (l r : List Byte) (e : Int) (row n : Nat) : Val :=
  let w := d.readLE (row + 4 * n) 4
  let a := if drInt l then Val.ofInt (sext 32 w) else fp32 w
  (if cvColmul r then Val.mul a (fp32 (d.readLE (sramAt c (cvMul r) + 4 * n) 4)) else a).scale e

/-- The rounding of column n of pass row m. -/
def Dev.drainRnd (d : Dev) (l r : List Byte) (m n : Nat) : Rnd :=
  rndOf (if cvGrad r then 2 else cvRnd r)
    (srWord (d.fld Reg.ARR_SR_KEY.KEY) d.stp.cfg.step (cvTensor r) 0 ((drElem l + m * cvStride r + n) % 2 ^ 48))

/-- One pass row of a drain (m = 4 (j − ROW) + a). What is not finite is judged after step 3, so a finite source that its
column's multiplier takes out of the finite numbers counts with the non-finite ones (R87, R88).
DESIGN CHOICE and DEDUCED (log entry 19). -/
def Dev.drainRow (d : Dev) (c : Nat) (l r : List Byte) (k m : Nat) : DrainRow :=
  let e := d.drainExp r k
  let row := accRow c (drB l) (m % 4) (drRow l + m / 4)
  let t := fun n => d.drainVal c l r e row n
  let par : ConvPar := ⟨cvFmt r, if cvGrad r then 2 else cvRnd r, cvSat r, e, cvBscale r, cvZp r⟩
  let blocks := (List.range 2).map (fun b => (List.range 32).map (fun i => (t (32 * b + i), d.drainRnd l r m (32 * b + i))))
  let conv := blocks.map (convBlock par)
  let outs := if cvBscale r then (conv.map (·.2)).flatten
    else (List.range 64).map (fun n =>
      if cvFmt r = 0 && e = 0 && !cvColmul r && !drInt l then copyFp32 (d.readLE (row + 4 * n) 4)
      else convert par (d.drainRnd l r m n) (t n))
  ⟨m, outs.map (·.code), conv.map (·.1), blocks.map (fun b => statByte (b.map (·.1))), outs⟩

/-- Every row of a drain. -/
def Dev.drainRows (d : Dev) (c : Nat) (l r : List Byte) (k : Nat) : List DrainRow :=
  (drPassRows l).map (d.drainRow c l r k)

/-- How many conversions of a drain meet a condition. -/
def countOuts (rows : List DrainRow) (p : ConvOut → Bool) : Nat :=
  rows.foldl (fun n r => n + (r.outs.filter p).length) 0

/-- A source row of a drain is marked saturated. -/
def Dev.drainSat (d : Dev) (c : Nat) (l : List Byte) : Bool :=
  (drPassRows l).any (fun m => Tab.get false d.satRows (accRow c (drB l) (m % 4) (drRow l + m / 4)))

/-- E_APPLIED: E clamped to a signed byte. -/
def clampE (e : Int) : Nat := wrapInt 8 (if e < -128 then -128 else if 127 < e then 127 else e)

/-- The 32-byte summary of R88. -/
def drainSummary (rows : List DrainRow) (e : Int) (attempts : Nat) (sat : Bool) : List Byte :=
  leBytes 4 (countOuts rows (·.ovf)) ++ leBytes 4 (countOuts rows (·.sat)) ++ leBytes 4 (countOuts rows (·.unf)) ++
    leBytes 4 (countOuts rows (·.sub)) ++ leBytes 4 (countOuts rows (·.nonfin)) ++
    leBytes 1 (rows.foldl (fun n r => r.stats.foldl max n) 0) ++ leBytes 1 (clampE e) ++
    leBytes 1 (attempts % 4 + 4 * flag sat) ++ [0] ++ leBytes 4 (countOuts rows (fun _ => true)) ++ zeros 4

/-- One row of a drain is written: its elements, scale bytes and statistic bytes. -/
def Dev.putDrainRow (c : Nat) (l r : List Byte) (d : Dev) (x : DrainRow) : Dev :=
  let d := d.write (sramAt c (drDst l + x.m * drStride l)) (packAll (cvFmt r) x.codes)
  let d := if cvBscale r then d.write (sramAt c (cvScaleAt r + 2 * x.m)) ((x.scales.map (leBytes 1)).flatten) else d
  if cvStats r then d.write (sramAt c (cvStatsAt r + 2 * x.m)) ((x.stats.map (leBytes 1)).flatten) else d

/-- The writes of a drain, as ranges. -/
def drainPuts (c : Nat) (l r : List Byte) : List Rng :=
  (drPassRows l).map (fun m => (sramAt c (drDst l + m * drStride l), drRowBytes r)) ++
    (if cvBscale r then (drPassRows l).map (fun m => (sramAt c (cvScaleAt r + 2 * m), 2)) else []) ++
    (if cvStats r then (drPassRows l).map (fun m => (sramAt c (cvStatsAt r + 2 * m), 2)) else []) ++
    (if drSums l r then [(sramAt c (drSummary l), 32)] else [])

/-- The first poisoned half-line of SRAM that a list of writes covers only in part (R93). -/
def Dev.partOf (d : Dev) (l : List Rng) : Option Nat :=
  l.findSome? (fun r =>
    ((healPoison d.poison r.1 r.2).find? (fun p => 0xC000000000 ≤ p.1 && overlaps p.1 (poisonUnit p.1) r.1 r.2)).map (·.1))

/-- The outputs of a drain become visible. -/
def Dev.drainOutput (d : Dev) (c : Nat) (l r : List Byte) (rows : List DrainRow) (e : Int) (attempts : Nat) (sat : Bool) : Dev :=
  let d := rows.foldl (Dev.putDrainRow c l r) d
  if drSums l r then d.write (sramAt c (drSummary l)) (drainSummary rows e attempts sat) else d

/-! ### Replays (R58, R59, R83 to R86) -/

/-- Units of a core's replay budget left in this step (R85). -/
def Dev.budgetLeft (d : Dev) (c : Nat) : Nat := d.stp.cfg.budget - Tab.get 0 d.budgetUsed c

/-- One unit of a core's replay budget is taken, and its RUN has one replay more. -/
def Dev.takeBudget (d : Dev) (c : Nat) : Dev :=
  ({ d with budgetUsed := Tab.set 0 d.budgetUsed c (Tab.get 0 d.budgetUsed c + 1) } : Dev).modOwner c
    (fun r => { r with replays := r.replays + 1 })

/-- Passes of a core in flight, in program order. -/
def Core.passes (x : Core) : List OpRec := x.ops.filter (fun o => o.started && opCode o.bytes = 3)

/-- A core without its passes in flight. -/
def Core.dropPasses (x : Core) : Core := { x with ops := x.ops.filter (fun o => !(o.started && opCode o.bytes = 3)) }

/-- A discarded pass issued again: its STREAM, with its W_LOAD before it when its tile is not the one before it. -/
def reissue (prev : Option Tile) : List OpRec → List OpRec
  | [] => []
  | o :: r =>
    let again : OpRec := { o with started := false, tile := none, again := true, sw := prev.isNone || prev.map (·.pos) != o.tile.map (·.pos) }
    match o.tile with
    | none => again :: reissue prev r
    | some t =>
      if again.sw then ⟨t.pos, t.op, false, [], none, false, true, false⟩ :: again :: reissue o.tile r
      else again :: reissue o.tile r

/-- The shadow's tile is discarded: its W_LOAD is to be issued again (R56, R58). -/
def Core.dropShadow (x : Core) (again : Bool) : Core :=
  match x.shadow with
  | none => x
  | some t => { x with shadow := none, ops := insertOp ⟨t.pos, t.op, false, [], none, false, again, false⟩ x.ops }

/-- Operations of a list each put at its program position. -/
def insertOps (l : List OpRec) (ops : List OpRec) : List OpRec := l.foldl (fun ops o => insertOp o ops) ops

/-- A W_LOAD of the segment under way whose tile is discarded goes back to its unit. -/
def Core.resetLoads (x : Core) : Core :=
  { x with ops := x.ops.map (fun o => if opCode o.bytes = 1 && o.started then { o with started := false, tile := none } else o) }

/-- The fault replay of the passes in flight (R58): they and any tile not consumed are issued again. -/
def Core.faultReplay (x : Core) : Core :=
  let l := reissue none x.passes
  let y := x.dropPasses.resetLoads.dropShadow false
  let z : Core := { y with ops := insertOps l y.ops }
  if z.phase = .stopped then { z with ops := z.ops.filter OpRec.lasts } else z

/-- What a started operation that is abandoned leaves undefined: the entries a pass would have written, and otherwise its
write set (R42, R55, R83). -/
def Core.undone (c : Nat) (o : OpRec) : List Rng :=
  match opCode o.bytes, o.tile with
  | 0x03, some t => passPuts c o.bytes t
  | _, _ => Core.writesOf c o

/-- The passes of a core in flight are discarded, their outputs undefined (R55).
DESIGN CHOICE and DEDUCED (log entry 19). -/
def Dev.discardPasses (d : Dev) (c : Nat) : Dev := (d.core c).passes.foldl (fun d o => d.scrambleSet (Core.undone c o)) d

/-- A pass that met poison: it and every pass in flight with it are discarded and not replayed, and the program stops
(R58 step 1, R93). -/
def Dev.passPoison (d : Dev) (c pos a : Nat) : Dev :=
  ((d.discardPasses c).modCore c Core.dropPasses).stopMem c pos a 1

/-- A fault's marks: record, counters, cause (R57 to R59). Whether it is a second fault is in the record. Faults of two arrays
in one cycle are one fault with both arrays' bits and one cause, for LAST_CAUSE is one field (R60). DESIGN CHOICE (log entry
19). DESIGN CHOICE and DEDUCED (log entry 19). -/
def Dev.markFault (d : Dev) (c cause arrays : Nat) (second : Bool) : Dev :=
  let d := ((d.bumpSat Reg.ARR_FAULTS.FAULTS 1).setFldBit Reg.ARR_FAULT_TOWER.TOWER (towerOf c) true).bumpSat
    (Reg.ARR_CORE_FAULT.TOTAL c) 1
  let d := ((d.setFld (Reg.ARR_CORE_FAULT.LAST_CAUSE c) cause).setFld (Reg.ARR_CORE_FAULT.ARRAYS c) arrays).setFld
    (Reg.ARR_CORE_FAULT.PENDING c) 1
  let d : Dev := { d with cleanPasses := Tab.set 0 d.cleanPasses c 0 }
  let d := if second then d.bumpSat Reg.ARR_FAULTS.RETIRED 1 else d
  d.record (.mk1 3 1 c (leBytes 1 cause ++ leBytes 1 arrays ++ leBytes 1 (flag second)))

/-- The passes in flight were issued after a drain of the segment that has overflowed (R86). -/
def Core.afterOverflow (x : Core) : Bool :=
  !x.overs.isEmpty && x.passes.all (fun o => x.overs.any (fun p => p < o.pos))

/-- The replay of a first fault: it waits for the overflow replay that is due, takes a budget unit, or stops the program
(R58, R86). A fault after an overflow verdict with passes in flight from before and after the overflowing drain is an ordinary
fault. DESIGN CHOICE and DEDUCED (log entry 19). -/
def Dev.replayFault (d : Dev) (c : Nat) : Dev :=
  let x := d.core c
  if x.afterOverflow then d.setCore c x.dropPasses
  else if d.budgetLeft c = 0 then
    (d.setCore c x.dropPasses).stopCore c (Ending.at .replayExhausted c ((x.passes.map (·.pos)).headD 0xFFFF) 0)
  else (d.modCore c Core.faultReplay).takeBudget c

/-- A RUN whose mask holds a lost core: its lowest such core. -/
def Dev.lostIn (d : Dev) (r : Run) : Option Nat := r.cores.find? d.coreGone

/-- STATE_LOST that names a core. -/
def Ending.lost (c : Nat) : Ending := ⟨.stateLost, { Detail.none with lcore := c }⟩

/-- RUNs that name a lost core: one that holds its cores stops on it, one that waits completes STATE_LOST (R168, R199). -/
def Dev.failRun (d : Dev) (k : Nat × Nat) : Dev :=
  match d.run? k with
  | none => d
  | some r =>
    match d.lostIn r with
    | none => d
    | some c =>
      if !r.acquired then d.finishRun r (Ending.lost c)
      else if (d.core c).owner = some k && (d.core c).phase != .ended && (d.core c).phase != .stopped then
        (d.modCore c (fun x => { x with ops := [] })).stopCore c (Ending.lost c)
      else if (r.saved.find? (fun e => e.1 = c)).isSome then
        (d.modRun k (fun r => { r with stopping := true, ends := r.endsWith c (Ending.lost c) })).checkRunEnd k
      else d

/-- Every RUN that names a lost core is ended so. -/
def Dev.failRuns (d : Dev) : Dev := (d.runs.map (·.key)).foldl Dev.failRun d

/-! ### Lists that a descriptor names (R183) -/

/-- The bytes of a list that a REF names are read: an error of device memory completes the descriptor with DEVICE_FAULT
and its fault record, a host error with BAD_FIELD that names the REF. -/
def Dev.withList (d : Dev) (j : Desc) (a n : Nat) (go : Dev → List Byte → Dev) : Dev :=
  let i := j.refIdx a
  let p := d.refAddr i (j.refOff a)
  if d.refDev i then
    (match d.readErr p n with
     | some (.poisoned x) => (d.memFault x 2).finish j ⟨.deviceFault, Detail.auxed d.flt.seq⟩
     | some (.lostCore c) => d.finish j (Ending.lost c)
     | some .unpopulated => d.finish j (Ending.bad a)
     | none => go d (d.read p n))
  else if d.hostErrIn p n then d.finish j (Ending.bad a)
  else go d (d.hostRead p n)

/-- A second fault retires the core, which marks the step of its RUN failed (R361): it is MIGRATING, or LOST, before its program
stops, so that no waiting RUN gets it (R59, R166, R168). -/
def Dev.retireCore (d : Dev) (c : Nat) (e : Ending) : Dev :=
  let d := d.markStep (d.runs.any (fun r => r.acquired && r.cores.contains c))
  (((d.modCore c (fun x => { x.dropPasses with ops := x.dropPasses.ops.filter (fun o => !o.again) })).askMigration c .arrayFault
    none).stopCore c e).failRuns

/-- An array fault of a core (R58, R59): the first is replayed, the second retires the core. -/
def Dev.arrayFault (d : Dev) (c cause arrays : Nat) : Dev :=
  let second := d.on (Reg.ARR_CORE_FAULT.PENDING c)
  let seq := d.flt.seq
  let d := (d.markFault c cause arrays second).discardPasses c
  if second then d.retireCore c (Ending.at .deviceFault c (((d.core c).passes.map (·.pos)).headD 0xFFFF) seq)
  else if (d.core c).passes.isEmpty then d
  else d.replayFault c

end Sys2Proof.Machine
end

