-- ==== Sys2Proof/Machine/Elem.lean ====
section
/-! DEFINITION. binary32 operations with their IEEE 754 flags, and the correctly rounded elementary functions of R124 and R125. -/

namespace Sys2Proof.Machine

/-! ### Flags of R118 -/

/-- [0] invalid. -/
def flInvalid : Nat := 1
/-- [1] division by zero. -/
def flDivZero : Nat := 2
/-- [2] overflow. -/
def flOverflow : Nat := 4
/-- [3] underflow. -/
def flUnderflow : Nat := 8
/-- [4] inexact. -/
def flInexact : Nat := 16

/-- A result and the flags it raises. -/
abbrev FpRes := Nat × Nat

/-- A signalling NaN. -/
def isSNaN (w : Nat) : Bool := bits w 23 8 = 0xFF && bits w 0 23 != 0 && !bit w 22

/-- A NaN. -/
def isNaN (w : Nat) : Bool := bits w 23 8 = 0xFF && bits w 0 23 != 0

/-- Invalid for a signalling NaN among the operands. -/
def snanFlag (l : List Nat) : Nat := if l.any isSNaN then flInvalid else 0

/-- The exact magnitude m · 2^e lies below the smallest normal number, before or after rounding as the part has it. -/
def tinyMag (m : Nat) (e : Int) : Bool :=
  if Config.tinyAfter then
    let p := roundMag .rne 23 (-400) m e
    Val.lt (.fin p.1 p.2 false) (.fin 1 (-126) false)
  else Val.lt (.fin m e false) (.fin 1 (-126) false)

/-- An exact number rounded to binary32, nearest even, with the flags of the rounding. -/
def roundFlags (v : Val) : FpRes :=
  let w := toFp32 canonNaN .rne v
  match v with
  | .fin m e _ =>
    if m = 0 then (w, 0)
    else if bits w 23 8 = 0xFF then (w, flOverflow + flInexact)
    else if Val.eqv (fp32 w) v then (w, 0)
    else (w, flInexact + (if tinyMag m.natAbs e then flUnderflow else 0))
  | _ => (w, 0)

/-- An operation on binary32 operands whose exact result is given; a NaN that no operand brought is invalid. -/
def fpOp (ops : List Nat) (v : Val) : FpRes :=
  if ops.any isNaN then (canonNaN, snanFlag ops)
  else match v with
    | .nan => (canonNaN, flInvalid)
    | _ => roundFlags v

/-- FADD. -/
def fAdd (a b : Nat) : FpRes := fpOp [a, b] (Val.add (fp32 a) (fp32 b))

/-- FSUB. -/
def fSub (a b : Nat) : FpRes := fpOp [a, b] (Val.add (fp32 a) (fp32 b).negate)

/-- FMUL. -/
def fMul (a b : Nat) : FpRes := fpOp [a, b] (Val.mul (fp32 a) (fp32 b))

/-- a · b + d: infinity times zero is invalid even with a NaN d. -/
def fFmaVal (ops : List Nat) (p d : Val) : FpRes :=
  if p = .nan && !(ops.take 2).any isNaN then (canonNaN, flInvalid) else fpOp ops (Val.add p d)

/-- FMA. -/
def fFma (a b d : Nat) : FpRes := fFmaVal [a, b, d] (Val.mul (fp32 a) (fp32 b)) (fp32 d)

/-- FNMA: d − a · b. -/
def fFnma (a b d : Nat) : FpRes := fFmaVal [a, b, d] (Val.mul (fp32 a) (fp32 b)).negate (fp32 d)

/-- a is below b, −0 below +0. -/
def fBelow (a b : Nat) : Bool :=
  Val.lt (fp32 a) (fp32 b) || (Val.eqv (fp32 a) (fp32 b) && bit a 31 && !bit b 31)

/-- FMIN. -/
def fMin (a b : Nat) : FpRes := if isNaN a || isNaN b then (canonNaN, snanFlag [a, b]) else (if fBelow b a then b else a, 0)

/-- FMAX. -/
def fMax (a b : Nat) : FpRes := if isNaN a || isNaN b then (canonNaN, snanFlag [a, b]) else (if fBelow a b then b else a, 0)

/-- FABS: no flag. -/
def fAbs (a : Nat) : Nat := if isNaN a then canonNaN else a % 2 ^ 31

/-- FNEG: no flag. -/
def fNeg (a : Nat) : Nat := if isNaN a then canonNaN else (if bit a 31 then a % 2 ^ 31 else a % 2 ^ 31 + 2 ^ 31)

/-! ### Quotients and roots, with an odd last bit for what is cut off -/

/-- q · 2^e when exact, otherwise a value strictly between q and q + 1 on that grid. -/
def sticky (q : Nat) (exact : Bool) (e : Int) (neg : Bool) : Val :=
  let m : Int := (2 * q + (if exact then 0 else 1) : Nat)
  .fin (if neg then -m else m) (e - 1) neg

/-- The quotient of two magnitudes to 80 bits and more. -/
def quotVal (m : Nat) (e : Int) (m' : Nat) (e' : Int) (neg : Bool) : Val :=
  let n := m * 2 ^ 200
  sticky (n / m') (n % m' = 0) (e - e' - 200) neg

/-- FDIV. -/
def fDiv (a b : Nat) : FpRes :=
  if isNaN a || isNaN b then (canonNaN, snanFlag [a, b])
  else
    let neg := bit a 31 != bit b 31
    match fp32 a, fp32 b with
    | .inf _, .inf _ => (canonNaN, flInvalid)
    | .inf _, _ => (fp32F.infBits neg, 0)
    | _, .inf _ => (fp32F.signBit neg, 0)
    | .fin m e _, .fin m' e' _ =>
      if m' = 0 then (if m = 0 then (canonNaN, flInvalid) else (fp32F.infBits neg, flDivZero))
      else if m = 0 then (fp32F.signBit neg, 0)
      else roundFlags (quotVal m.natAbs e m'.natAbs e' neg)
    | _, _ => (canonNaN, 0)

/-- FRCP: 1 / a. -/
def fRcp (a : Nat) : FpRes := fDiv 0x3F800000 a

/-- Newton steps from above towards the integer square root. -/
def isqrtLoop : Nat → Nat → Nat → Nat
  | 0, _, x => x
  | k + 1, n, x =>
    let y := (x + n / x) / 2
    if y < x then isqrtLoop k n y else x

/-- The integer square root, from a start at or above it. -/
def isqrtFrom (n start : Nat) : Nat := if n = 0 then 0 else isqrtLoop (2 * Nat.log2 n + 4) n start

/-- The integer square root. -/
def isqrt (n : Nat) : Nat := isqrtFrom n (2 ^ (Nat.log2 n / 2 + 1))

/-- FSQRT. -/
def fSqrt (a : Nat) : FpRes :=
  if isNaN a then (canonNaN, snanFlag [a])
  else match fp32 a with
    | .inf n => if n then (canonNaN, flInvalid) else (a, 0)
    | .fin m e _ =>
      if m = 0 then (a, 0)
      else if m < 0 then (canonNaN, flInvalid)
      else
        let odd := e % 2 = 1
        let n := m.natAbs * 2 ^ (if odd then 161 else 160)
        let e2 := if odd then e - 161 else e - 160
        let r := isqrt n
        roundFlags (sticky r (r * r = n) (e2 / 2) false)
    | .nan => (canonNaN, 0)

/-- FRSQRT: 1 / √a. -/
def fRsqrt (a : Nat) : FpRes :=
  if isNaN a then (canonNaN, snanFlag [a])
  else match fp32 a with
    | .inf n => if n then (canonNaN, flInvalid) else (0, 0)
    | .fin m e _ =>
      if m = 0 then (fp32F.infBits (bit a 31), flDivZero)
      else if m < 0 then (canonNaN, flInvalid)
      else
        let odd := e % 2 = 1
        let mm := m.natAbs * (if odd then 2 else 1)
        let ee := if odd then e - 1 else e
        let n := 2 ^ 240 / mm
        let r := isqrt n
        roundFlags (sticky r (r * r * mm = 2 ^ 240) (-120 - ee / 2) false)
    | .nan => (canonNaN, 0)

/-! ### FEXP2 and FLOG2

Both work in fixed point far beyond the precision at which a binary32 midpoint can be missed: the exact results are
irrational unless they are powers of two, so no tie arises. -/

/-- Fraction bits of the fixed point. -/
def fixBits : Nat := 320

/-- 2 to the fraction whose bits, highest first, are those of f below bit n: c is 2^(2^−i) of the bit last used, acc the
product so far. -/
def exp2Loop (f : Nat) : Nat → Nat → Nat → Nat
  | 0, _, acc => acc
  | n + 1, c, acc =>
    let c' := isqrtFrom (c * 2 ^ fixBits) c
    exp2Loop f n c' (if bit f n then acc * c' / 2 ^ fixBits else acc)

/-- FEXP2: 2^a. -/
def fExp2 (a : Nat) : FpRes :=
  if isNaN a then (canonNaN, snanFlag [a])
  else match fp32 a with
    | .inf n => if n then (0, 0) else (a, 0)
    | .fin m e _ =>
      if m = 0 then (0x3F800000, 0)
      else if Val.lt (.fin 200 0 false) (fp32 a) then (0x7F800000, flOverflow + flInexact)
      else if Val.lt (fp32 a) (.fin (-200) 0 false) then (0, flUnderflow + flInexact)
      else if 0 ≤ e then roundFlags (.fin 1 (m * 2 ^ e.toNat) false)
      else
        let s := (-e).toNat
        let ip : Int := m / (2 ^ s : Nat)
        let fr := (m % (2 ^ s : Nat)).toNat
        if fr = 0 then roundFlags (.fin 1 ip false)
        else roundFlags (sticky (exp2Loop fr s (2 * 2 ^ fixBits) (2 ^ fixBits)) false (ip - fixBits) false)
    | .nan => (canonNaN, 0)

/-- The binary digits of log2 of x / 2^fixBits in [1, 2), n of them. -/
def log2Loop : Nat → Nat → Nat → Nat
  | 0, _, acc => acc
  | n + 1, x, acc =>
    let y := x * x / 2 ^ fixBits
    if 2 ^ (fixBits + 1) ≤ y then log2Loop n (y / 2) (2 * acc + 1) else log2Loop n y (2 * acc)

/-- FLOG2: log2 a. -/
def fLog2 (a : Nat) : FpRes :=
  if isNaN a then (canonNaN, snanFlag [a])
  else match fp32 a with
    | .inf n => if n then (canonNaN, flInvalid) else (a, 0)
    | .fin m e _ =>
      if m = 0 then (0xFF800000, flDivZero)
      else if m < 0 then (canonNaN, flInvalid)
      else
        let k := Nat.log2 m.natAbs
        let top : Int := e + k
        if m.natAbs = 2 ^ k then roundFlags (.fin top 0 false)
        else
          let x := m.natAbs * 2 ^ (fixBits - k)
          let v : Int := top * 2 ^ 112 + (log2Loop 112 x 0 : Nat)
          roundFlags (.fin (2 * v + 1) (-113) false)
    | .nan => (canonNaN, 0)

/-- FSCALEB: a · 2^b, rounded once. -/
def fScaleb (a b : Nat) : FpRes :=
  match fp32 a with
  | .fin m e z => if m = 0 then (a, 0) else roundFlags ((Val.fin m e z).scale (max (-400) (min 400 (sext 32 b))))
  | .inf _ => (a, 0)
  | .nan => (canonNaN, snanFlag [a])

/-- FEXPO: ⌊log2 |a|⌋ as INT32, with the invalid flag that IEEE 754 gives logB for zero, infinity and NaN. -/
def fExpo (a : Nat) : FpRes :=
  match fp32 a with
  | .fin m e _ => if m = 0 then (0x80000000, flInvalid) else (wrapInt 32 (log2Mag m.natAbs e), 0)
  | _ => (0x7FFFFFFF, flInvalid)

end Sys2Proof.Machine
end

