-- ==== Sys2Proof/Machine/CarBase.lean ====
section
/-! DEFINITION. Carousel: rounds, segments and chunks, wire conversion, packets, notices and the end of a collective (R267 to R290). -/

namespace Sys2Proof.Machine

/-! ### Groups and collectives -/

/-- A group's members in rank order; none for an undefined entry. -/
def Dev.group (d : Dev) (g : Nat) : List Nat := Tab.get [] d.car.groups g

/-- The position of a flat ID in a list (R268). -/
def rankIn (x : Nat) (l : List Nat) : Nat := l.findIdx (· = x)

/-- A collective by its descriptor's key. -/
def Dev.coll? (d : Dev) (k : Nat × Nat) : Option Coll := d.car.colls.find? (fun c => c.key = k)

/-- A collective changed. -/
def Dev.modColl (d : Dev) (k : Nat × Nat) (f : Coll → Coll) : Dev :=
  { d with car := { d.car with colls := d.car.colls.map (fun c => if c.key = k then f c else c) } }

/-- The flags of byte 56. -/
def Coll.update (c : Coll) : Bool := bit c.flags 1
/-- GRAD. -/
def Coll.grad (c : Coll) : Bool := bit c.flags 2
/-- All-reduce, reduce-scatter or reduce. -/
def Coll.reducing (c : Coll) : Bool := c.kind ≤ 1 || c.kind = 4
/-- Members. -/
def Coll.n (c : Coll) : Nat := c.members.length

/-- The watchdog interval W (R289). -/
def Dev.watchdog (d : Dev) : Nat := ms d.tgt.polWatch

/-! ### Rounds (R278 to R280) -/

/-- p, the largest power of two not above n. -/
def pOf (n : Nat) : Nat := 2 ^ Nat.log2 n

/-- V(q): segment q, then q + p where there is one. -/
def vSegs (n q : Nat) : List Nat := if q + pOf n < n then [q, q + pOf n] else [q]

/-- The segments of V(j) for w values of j from lo on. -/
def vRange (n lo w : Nat) : List Nat := ((List.range w).map (fun i => vSegs n (lo + i))).flatten

/-- What a rank sends in a round, and to whom (R279); `own` for all-gather and the exchange, where a fold carries the
rank's own contribution alone. -/
def sendOf (own : Bool) (n code q : Nat) : Option (Nat × List Nat) :=
  let p := pOf n
  let m := Nat.log2 n
  if code = 0 then (if p ≤ q then some (q - p, if own then [q] else List.range n) else none)
  else if code = 0x40 then (if q + p < n && q < p then some (q + p, [q + p]) else none)
  else if code = 0xC0 then (if q + p < n && q < p then some (q + p, List.range n) else none)
  else if p ≤ q then none
  else if code < 0x40 then
    (if m < code then none
     else
      let w := p / 2 ^ code
      let mate := q ^^^ w
      some (mate, vRange n (mate / w * w) w))
  else if code < 0x80 then
    (let w := p / 2 ^ (code - 0x60 + 1)
     if m ≤ code - 0x60 || q % (2 * w) != 0 then none else some (q + w, vRange n (q + w) w))
  else if code < 0xA0 then
    (let w := 2 ^ (code - 0x80)
     if m ≤ code - 0x80 then none else some (q ^^^ w, vRange n (q / w * w) w))
  else
    (let w := 2 ^ (code - 0xA0)
     if m ≤ code - 0xA0 || q % (2 * w) != w then none else some (q - w, vRange n q w))

/-- The ranks that could send to a rank in some round. -/
def senders (n q : Nat) : List Nat :=
  ((List.range (Nat.log2 n)).map (fun k => [q ^^^ 2 ^ k, q - 2 ^ k, q + 2 ^ k])).flatten ++ [q + pOf n, q - pOf n]

/-- Who sends to a rank in a round, and what. -/
def recvOf (own : Bool) (n code q : Nat) : Option (Nat × List Nat) :=
  (senders n q).findSome? (fun s =>
    if n ≤ s || s = q then none
    else match sendOf own n code s with
      | some e => if e.1 = q then some (s, e.2) else none
      | none => none)

/-- Rounds numbered from a base. -/
def roundsFrom (base n : Nat) : List Nat := (List.range (Nat.log2 n)).map (fun k => base + k)

/-- The rounds of a kind in order, 0 all-reduce, 1 reduce-scatter, 2 all-gather and the exchange, 3 broadcast, 4 reduce
(R275, R280). -/
def roundsOf (kind n : Nat) : List Nat :=
  let extra := pOf n != n
  let fold := if extra then [0] else []
  let last := if extra then [0xC0] else []
  if kind = 0 then fold ++ roundsFrom 1 n ++ roundsFrom 0x80 n ++ last
  else if kind = 1 then fold ++ roundsFrom 1 n ++ (if extra then [0x40] else [])
  else if kind = 3 then roundsFrom 0x60 n ++ roundsFrom 0x80 n ++ last
  else if kind = 4 then fold ++ roundsFrom 1 n ++ roundsFrom 0xA0 n
  else fold ++ roundsFrom 0x80 n ++ last

/-- The partners to whom a notice is relayed (R288): the fold partner and those at every doubling distance. -/
def relayTo (n q : Nat) : List Nat :=
  if pOf n ≤ q then [q - pOf n]
  else ((List.range (Nat.log2 n)).map (fun k => q ^^^ 2 ^ k)) ++ (if q + pOf n < n then [q + pOf n] else [])

/-! ### Segments and chunks (R278, R284) -/

/-- S of R278. -/
def segSize (count n : Nat) : Nat := 32 * ceilDiv count (32 * n)

/-- COUNT of a rank, from the exchange. -/
def Coll.countOf (c : Coll) (r : Nat) : Nat := (Tab.get (0, 0, 0) c.recs r).1

/-- The count that lays out the buffer: rank 0's for a broadcast. -/
def Coll.total (c : Coll) : Nat := if c.kind = 3 then c.countOf 0 else c.count

/-- First element and number of elements of a segment. -/
def Coll.segAt (c : Coll) (s : Nat) : Nat × Nat :=
  if c.kind = 2 then (((List.range s).map c.countOf).sum, c.countOf s)
  else
    let z := segSize c.total c.n
    (min (s * z) c.total, min ((s + 1) * z) c.total - min (s * z) c.total)

/-- Bytes of a chunk (R284). -/
def Dev.chunkBytes (d : Dev) : Nat := match d.fld Reg.CAR_CFG.CHUNK with
  | 0 => 0x4000 | 1 => 0x8000 | _ => 0x10000

/-- The n bytes of a segment from byte a on cut into chunks. -/
def cutSeg (size s a n : Nat) : List Chunk :=
  (List.range (ceilDiv n size)).map (fun i => ⟨s, a + size * i, min size (n - size * i)⟩)

/-- Bytes of a transfer from chunk i to the end of its segment. -/
def segLeft (l : List Chunk) (i : Nat) : Nat :=
  match l.drop i with
  | [] => 0
  | k :: r => ((k :: r).takeWhile (fun x => x.seg = k.seg)).foldl (fun n x => n + x.len) 0

/-- Chunk i of a transfer is len bytes long: its sender cuts the rest of the segment so. -/
def recut (l : List Chunk) (i len : Nat) : List Chunk :=
  match l.drop i with
  | [] => l
  | k :: r =>
    if k.len = len then l
    else l.take i ++ cutSeg len k.seg k.off (segLeft l i) ++ r.dropWhile (fun x => x.seg = k.seg)

/-- A segment of a transfer takes the cutting given (R284, R285). DEDUCED (log entry 29). -/
def OutXfer.follow (o : OutXfer) (s : Nat) (cs : List Chunk) : OutXfer :=
  if o.chunks.any (fun x => x.seg = s) then
    { o with chunks := o.chunks.takeWhile (fun x => x.seg != s) ++ cs ++
        (o.chunks.dropWhile (fun x => x.seg != s)).dropWhile (fun x => x.seg = s) }
  else o

/-! ### Values and wire conversion (R281, R282) -/

/-- Two values combined: sum, maximum or minimum, of FP32 or INT32. -/
def combine (rop : Nat) (int : Bool) (a b : Nat) : Nat :=
  if int then
    (if rop = 0 then (a + b) % 2 ^ 32
     else if (if rop = 1 then sext 32 a < sext 32 b else sext 32 b < sext 32 a) then b else a)
  else if rop = 0 then fpAdd canonNaN a b
  else if rop = 1 then (fMax a b).1
  else (fMin a b).1

/-- Elements of a format as values of work: FP32 or INT32; a scale byte for each 32 elements where there is one. -/
def widen (f : Nat) (l scales : List Byte) (n : Nat) : List Nat :=
  (List.range n).map (fun i =>
    let w := unpackAt f l i
    if f = 0 || f = 0xE then w % 2 ^ 32
    else
      let v := fmtValue f 0 w
      toFp32 canonNaN .rne (if scales.isEmpty then v else scaled (leAt scales (i / 32) 1) v))

/-- The conversions of a run of values that begins at element e of the buffer; code is rank + 1 on the wire, 0 for
DATA_FMT. -/
def Coll.convRun (c : Coll) (key code e : Nat) (ws : List Nat) : List (Val × Rnd) :=
  ws.mapIdx (fun i w =>
    (fp32 w, rndOf (if c.grad then 2 else 0) (srWord key c.step (c.tag % 2 ^ 24) 2 (e + i + 2 ^ 32 * code))))

/-- A list in runs of 32. -/
def by32 {α : Type} : Nat → List α → List (List α)
  | 0, _ => []
  | k + 1, l => if l.isEmpty then [] else l.take 32 :: by32 k (l.drop 32)

/-- Values converted to a format: packed bytes, scale bytes of an FP8 format on the wire, overflows, non-finite sources. -/
def Coll.encode (c : Coll) (key fmt code e : Nat) (ws : List Nat) : List Byte × List Byte × Nat × Nat :=
  if fmt = 0xE then (packAll fmt ws, [], 0, 0)
  else if fmt = 0 then
    (let os := ws.map copyFp32
     (packAll fmt (os.map (·.code)), [], 0, (os.filter (·.nonfin)).length))
  else
    let par : ConvPar := ⟨fmt, if c.grad then 2 else 0, false, 0, fmtScaled fmt, 0⟩
    let run := c.convRun key code e ws
    if fmtScaled fmt then
      (let bs := (by32 run.length run).map (convBlock par)
       let os := (bs.map (·.2)).flatten
       (packAll fmt (os.map (·.code)), (bs.map (fun b => BitVec.ofNat 8 b.1)), (os.filter (·.ovf)).length,
         (os.filter (·.nonfin)).length))
    else
      let os := run.map (fun p => convert par p.2 p.1)
      (packAll fmt (os.map (·.code)), [], (os.filter (·.ovf)).length, (os.filter (·.nonfin)).length)

/-- What conversions count in CAR_CONV. -/
def Dev.carConv (d : Dev) (ovf nonfin : Nat) : Dev := (d.bumpSat Reg.CAR_CONV.OVF ovf).bumpSat Reg.CAR_CONV.NONFINITE nonfin

/-! ### The end of a collective (R287 to R291) -/

/-- Bytes of RECV that a collective's buffers cover (R272). -/
def Coll.recvRanges (c : Coll) : List (Nat × Nat) :=
  c.recv.map (fun b => (b.1, if c.reducing then 4 * b.2 else fmtBytes c.dfmt b.2))

/-- A collective ends: its slot is free, its counters move, its record goes; after any end but a good one all of RECV is
undefined (R272, R273). -/
def Dev.finishColl (d : Dev) (c : Coll) (e : Ending) : Dev :=
  let d := if e.st.good then d else d.scrambleSet c.recvRanges
  let d : Dev := { d with car := { d.car with
    colls := d.car.colls.filter (fun x => x.key != c.key)
    done := c.tag :: d.car.done
    sends := if e.st.good || e.st = .badField || e.st = .countExceeds then d.car.sends
      else d.car.sends.filter (fun x => x.key != c.key) } }
  let d : Dev := { d with upd := { d.upd with
    next := d.upd.next.filter (fun x => x.2.map (·.key) != some c.key) } }
  let d := d.bump Reg.CAR_COLLS.COUNT 1
  let d := match e.st with
    | .poisoned => d.bumpSat Reg.CAR_OUTCOMES.POISONED 1
    | .timeout => d.bumpSat Reg.CAR_OUTCOMES.TIMEOUT 1
    | .peerLost => d.bumpSat Reg.CAR_OUTCOMES.PEER_LOST 1
    | _ => d
  d.finishStep c.key e

/-- A notice has been seen in this step: its OP and payload. -/
def Dev.noteSeen (d : Dev) (op : Nat) (body : List Byte) : Dev :=
  { d with car := { d.car with seen := (op, body) :: d.car.seen.filter (· != (op, body)) } }

/-- A notice goes to the partners of every round (R288). -/
def Dev.relay (d : Dev) (members : List Nat) (op : Nat) (body : List Byte) : Dev :=
  if members.contains d.selfId then
    (relayTo members.length (rankIn d.selfId members)).foldl (fun d q => d.send (d.mkPkt 3 true op (members.getD q 0xFFFF) 0 0 body)) d
  else d

/-- This member poisons a collective: its notices, the step marked, and its end (R288). -/
def Dev.poisonColl (d : Dev) (c : Coll) (round chunk : Nat) (e : Ending) : Dev :=
  let body := leBytes 4 c.tag ++ leBytes 2 c.group ++ leBytes 2 d.selfId ++ leBytes 1 round ++ [0, 0, 0] ++ leBytes 4 chunk
  let d := (d.noteSeen 0x22 body).relay c.members 0x22 body
  (d.markStep true).finishColl c e

/-- This member ends a collective with an abort notice: cause 0 timeout, 1 peer lost (R289, R290). -/
def Dev.abortColl (d : Dev) (c : Coll) (cause x : Nat) (e : Ending) : Dev :=
  let body := leBytes 4 c.tag ++ leBytes 2 c.group ++ leBytes 1 cause ++ [0] ++ leBytes 2 x
  ((d.noteSeen 0x23 body).relay c.members 0x23 body).finishColl c e

/-- A member that cannot be reached ends the collective (R290), with a sighting of it (R384). -/
def Dev.collPeerLost (d : Dev) (c : Coll) (x : Nat) : Dev :=
  (d.sight x 4 0xFF).abortColl c 1 x ⟨.peerLost, Detail.auxed x⟩

/-- The routing entry of another flat ID has this device's own coordinates: R251 discards a packet for it. -/
def Dev.entryHere (d : Dev) (x : Nat) : Bool :=
  d.kind x = 1 && !d.on Reg.FAB_STATUS.BLOCK_ERR && d.inBlock (d.entryAt x) &&
    [0, 1, 2].all (fun a => (d.stepDir a (d.entryAt x a)).isNone)

/-- A flat ID cannot be reached: its entry is LOST or has KIND none, or a packet for it finds no next hop (R251, R290). -/
def Dev.unreachable (d : Dev) (x : Nat) : Bool :=
  x = 0xFFFF || d.on (Reg.FAB_ROUTE.LOST x) || d.kind x = 0 || d.entryHere x

/-- A packet of a collective that still runs goes; a member that cannot be reached ends the collective (R290). -/
def Dev.carSend (d : Dev) (k : Nat × Nat) (p : Packet) : Dev :=
  match d.coll? k with
  | some c => if d.unreachable p.dst then (d.send p).collPeerLost c p.dst else d.send p
  | none => d

/-- Every collective with a lost member ends (R290). DESIGN CHOICE (log entry 29). -/
def Dev.collsLost (d : Dev) (x : Nat) : Dev :=
  (d.car.colls.filter (fun c => c.members.contains x)).foldl (fun d c => d.collPeerLost c x) d

/-- A read of a collective's own buffers fails: the reader's outcome is DEVICE_FAULT and the collective is poisoned (R288,
R291). -/
def Dev.collFault (d : Dev) (c : Coll) (a : Nat) : Dev :=
  let e : Ending := ⟨.deviceFault, Detail.auxed d.flt.seq⟩
  (d.memFault a 2).poisonColl c 0 0 e

/-- Bytes of RECV that hold the partials of n elements from e on: element e at byte 4e of the buffers (R272). -/
def partialsAt : List (Nat × Nat) → Nat → Nat → List (Nat × Nat)
  | [], _, _ => []
  | b :: r, e, n =>
    (if e < b.2 then [(b.1 + 4 * e, 4 * min n (b.2 - e))] else []) ++ partialsAt r (e - b.2) (n - (b.2 - e))

/-- The first n bytes of a list of ranges. -/
def firstBytes : List (Nat × Nat) → Nat → List (Nat × Nat)
  | [], _ => []
  | r :: l, n => if n = 0 then [] else (r.1, min n r.2) :: firstBytes l (n - r.2)

/-- The first unit in a list of ranges that cannot be read: poisoned, or of a lost core. -/
def Dev.badRange (d : Dev) (l : List (Nat × Nat)) : Option Nat :=
  l.findSome? (fun r =>
    match d.readErr r.1 r.2 with
    | some (.poisoned a) => some a
    | some _ => some r.1
    | none => none)

end Sys2Proof.Machine
end

