-- ==== Sys2Proof/Machine/Vec.lean ====
section
/-! DEFINITION. The vector instruction set (R116 to R136) as a function of a context and what it reads around it. -/

namespace Sys2Proof.Machine

/-! ### Decoding (R121, R122) -/

/-- OP. -/
def vOp (w : Nat) : Nat := bits w 26 6
/-- D. -/
def vD (w : Nat) : Nat := bits w 21 5
/-- A. -/
def vA (w : Nat) : Nat := bits w 16 5
/-- B. -/
def vB (w : Nat) : Nat := bits w 11 5
/-- PR. -/
def vPr (w : Nat) : Nat := bits w 8 3
/-- BS. -/
def vBs (w : Nat) : Nat := bits w 7 1
/-- FN. -/
def vFn (w : Nat) : Nat := bits w 0 7
/-- FMT of format M. -/
def vFmt (w : Nat) : Nat := bits w 4 4
/-- IMM or OFF. -/
def vImm (w : Nat) : Nat := bits w 0 16

/-- OP and FN are defined (R122, R125 to R132, R135). -/
def vecDefined (w : Nat) : Bool :=
  let f := vFn w
  match vOp w with
  | 0x00 => true
  | 0x01 => f ≤ 0x11
  | 0x02 => f ≤ 0x13
  | 0x03 => f < 0x20 && bits f 3 2 != 3 && bits f 0 3 != 7 && !(bits f 0 3 = 6 && bits f 3 2 != 0)
  | 0x04 => f ≤ 6
  | 0x05 => bits f 3 3 = 0 && bits f 0 3 != 7
  | 0x06 => bits f 0 6 ≤ 2
  | 0x07 => f ≤ 2
  | 0x08 => f ≤ 7
  | 0x20 => f ≤ 0xC
  | op => (0x10 ≤ op && op ≤ 0x14) || (0x18 ≤ op && op ≤ 0x1C) || (0x21 ≤ op && op ≤ 0x27) || (0x30 ≤ op && op ≤ 0x34)

/-- Functions of VFP that take one operand. -/
def vfpUnary (f : Nat) : Bool := [7, 8, 0xA, 0xB, 0xC, 0xD, 0xE, 0xF, 0x11].contains f

/-- Functions of VINT that leave B unused; IOTA leaves A unused as well. -/
def vintUnary (f : Nat) : Bool := [0xB, 0x11, 0x12, 0x13].contains f

/-- B is v0 with BS = 0. -/
def vNoB (w : Nat) : Bool := vB w = 0 && vBs w = 0

/-- Every field that the instruction leaves unused is zero (R121). -/
def vecFieldsOk (bscale : Bool) (w : Nat) : Bool :=
  let f := vFn w
  match vOp w with
  | 0x00 => bits w 0 26 = 0
  | 0x01 => !vfpUnary f || vNoB w
  | 0x02 => (!vintUnary f || vNoB w) && (f != 0x12 || vA w = 0)
  | 0x03 => vD w < 8
  | 0x04 => (match f with
      | 0 => true
      | 1 => vBs w = 1
      | 2 => true
      | 3 => vNoB w
      | 4 => vBs w = 1 && vPr w = 0
      | 5 => vBs w = 1
      | _ => vBs w = 1)
  | 0x05 => vNoB w
  | 0x06 => (bscale && bits f 0 6 != 2) || vNoB w
  | 0x07 => f = 1 || vNoB w
  | 0x08 => vPr w = 0 && vBs w = 0 && (f = 7 || vD w < 8) &&
      (match f with
      | 0 => vA w < 8 && vB w < 8
      | 1 => vA w < 8 && vB w < 8
      | 2 => vA w < 8 && vB w < 8
      | 3 => vA w < 8 && vB w = 0
      | 4 => vA w = 0 && vB w = 0
      | 5 => vA w = 0 && vB w = 0
      | 6 => vB w = 0
      | _ => vA w < 8 && vB w = 0)
  | 0x10 => vB w = 0 && bits w 0 8 = 0
  | 0x11 => bits w 0 8 = 0
  | 0x12 => bits w 0 8 = 0
  | 0x13 => vB w = 0 && bits w 0 4 = 0
  | 0x14 => vB w = 0 && bits w 0 8 = 0
  | 0x18 => vB w = 0 && bits w 0 8 = 0
  | 0x19 => bits w 0 8 = 0
  | 0x1A => bits w 0 8 = 0
  | 0x1B => vB w = 0 && bits w 0 4 = 0
  | 0x1C => vB w = 0 && bits w 0 8 = 0
  | 0x20 => vBs w = 0 && vPr w = 0
  | 0x22 => vA w = 0
  | 0x26 => vD w = 0 && vImm w < 16
  | 0x27 => vA w = 0 && vImm w < 16
  | 0x34 => vD w = 0 && vA w = 0
  | _ => true

/-! ### Registers (R117, R118) -/

/-- What a context is: 256 lanes of a core or 64 of an update core, its unit number, and what its control registers and
conversions read: step, generator key, update exponent by layer. -/
structure VecEnv where
  lanes : Nat
  upd : Bool
  unit : Nat
  step : Nat
  key : Nat
  deriving DecidableEq, Repr

/-- s[i]. -/
def VecCtx.sr (x : VecCtx) (i : Nat) : Word := if i = 0 then 0 else x.s.getD i 0

/-- Writing s[i]; s0 ignores it. -/
def VecCtx.setS (x : VecCtx) (i : Nat) (w : Word) : VecCtx := if i = 0 then x else { x with s := x.s.set i w }

/-- Lane l of v[i]. -/
def VecCtx.lane (x : VecCtx) (i l : Nat) : Word := (x.v.getD i []).getD l 0

/-- Bit l of p[i]; p0 reads as all ones. -/
def VecCtx.pr (x : VecCtx) (i l : Nat) : Bool := i = 0 || bit (x.p.getD i 0) l

/-- p[i] as a number. -/
def VecCtx.prWord (x : VecCtx) (lanes i : Nat) : Nat := if i = 0 then 2 ^ lanes - 1 else x.p.getD i 0

/-- Writing p[i]; p0 ignores it. -/
def VecCtx.setP (x : VecCtx) (i n : Nat) : VecCtx := if i = 0 then x else { x with p := x.p.set i n }

/-- c[i] as a number. -/
def VecCtx.cr (x : VecCtx) (i : Nat) : Nat := (x.c.getD i 0).toNat

/-- Writing c[i]. -/
def VecCtx.setC (x : VecCtx) (i n : Nat) : VecCtx := { x with c := x.c.set i (BitVec.ofNat 32 n) }

/-- Adding to a counter of c5 to c9, which saturate. -/
def VecCtx.addC (x : VecCtx) (i n : Nat) : VecCtx := x.setC i (satTo 0xFFFFFFFF (x.cr i + n))

/-- Raising sticky flags. -/
def VecCtx.raise (x : VecCtx) (fl : Nat) : VecCtx := x.setC 11 (x.cr 11 ||| fl)

/-- A vector destination: active lanes take f's value, the rest keep theirs (R123). -/
def VecCtx.setV (x : VecCtx) (lanes d : Nat) (act : Nat → Bool) (f : Nat → Word) : VecCtx :=
  { x with v := x.v.set d ((List.range lanes).map (fun l => if act l then f l else x.lane d l)) }

/-- A control register as MFC reads it. -/
def readCtl (e : VecEnv) (x : VecCtx) (i : Nat) : Nat :=
  if i = 12 then e.step else if i = 13 then e.lanes else if i = 14 then e.unit else if i = 15 then 0 else x.cr i

/-- The writable bits of a control register. -/
def ctlMask (i : Nat) : Nat :=
  if i = 0 then 0x1FFFFFFF else if i = 1 then 0xFFF else if i = 2 then 0xFFFFFF else if i = 4 then 0xFFFF
  else if i = 10 then 0xFF else if i = 11 then 0x1F else if i < 10 then 0xFFFFFFFF else 0

/-- MTC: read-only and reserved registers ignore it, and so do c2 to c4 of an update core (R116). -/
def writeCtl (e : VecEnv) (x : VecCtx) (i n : Nat) : VecCtx :=
  if 12 ≤ i || (e.upd && 2 ≤ i && i ≤ 4) then x else x.setC i (n &&& ctlMask i)

/-! ### Outcomes -/

/-- Why an instruction stops the program (R136). -/
inductive VecStop where
  | undefined | field | param | misaligned | range
  | poison (off : Nat)
  deriving DecidableEq, Repr

/-- What an instruction does: the context after it, the bytes it stores in order, what a gradient conversion adds to the
counters of its layer (R303), or the condition that stops it. -/
structure VecOut where
  ctx : VecCtx
  stores : List (Nat × Byte)
  unf : Nat
  ovf : Nat
  /-- Non-finite sources of an output conversion. -/
  nonfin : Nat
  stop : Option VecStop
  deriving DecidableEq, Repr

/-- An instruction that changes registers only. -/
def VecOut.regs (x : VecCtx) : VecOut := ⟨x, [], 0, 0, 0, none⟩

/-- A stop. -/
def VecOut.stopped (x : VecCtx) (r : VecStop) : VecOut := ⟨x, [], 0, 0, 0, some r⟩

/-! ### Arithmetic (R125 to R130) -/

/-- Operand B of lane l: s[B] with BS = 1. -/
def VecCtx.opB (x : VecCtx) (w l : Nat) : Word := if vBs w = 1 then x.sr (vB w) else x.lane (vB w) l

/-- One lane of VFP. -/
def vfpLane (f a b d : Nat) : FpRes :=
  match f with
  | 0 => fAdd a b
  | 1 => fSub a b
  | 2 => fMul a b
  | 3 => fFma a b d
  | 4 => fFnma a b d
  | 5 => fMin a b
  | 6 => fMax a b
  | 7 => (fAbs a, 0)
  | 8 => (fNeg a, 0)
  | 9 => fDiv a b
  | 0xA => fSqrt a
  | 0xB => fRsqrt a
  | 0xC => fRcp a
  | 0xD => fExp2 a
  | 0xE => fLog2 a
  | 0xF => (a, 0)
  | 0x10 => fScaleb a b
  | _ => fExpo a

/-- The result of VFP in a lane. -/
def vfpAt (x : VecCtx) (w l : Nat) : FpRes :=
  vfpLane (vFn w) (x.lane (vA w) l).toNat (x.opB w l).toNat (x.lane (vD w) l).toNat

/-- VFP. -/
def vfp (lanes : Nat) (x : VecCtx) (w : Nat) : VecCtx :=
  let act := x.pr (vPr w)
  let rs := (List.range lanes).map (vfpAt x w)
  let fl := ((List.range lanes).zip rs).foldl (fun n p => if act p.1 then n ||| p.2.2 else n) 0
  (x.setV lanes (vD w) act (fun l => BitVec.ofNat 32 (rs.getD l (0, 0)).1)).raise fl

/-- A signed sum brought into the INT32 range. -/
def satInt32 (i : Int) : Word :=
  BitVec.ofInt 32 (if i < -2147483648 then -2147483648 else if 2147483647 < i then 2147483647 else i)

/-- One lane of VINT; l is the lane number. -/
def vintLane (f l : Nat) (a b d : Word) : Word :=
  match f with
  | 0 => a + b
  | 1 => a - b
  | 2 => a * b
  | 3 => a * b + d
  | 4 => if b.slt a then b else a
  | 5 => if a.slt b then b else a
  | 6 => if b < a then b else a
  | 7 => if a < b then b else a
  | 8 => a &&& b
  | 9 => a ||| b
  | 0xA => a ^^^ b
  | 0xB => ~~~a
  | 0xC => a <<< (b.toNat % 32)
  | 0xD => a >>> (b.toNat % 32)
  | 0xE => a.sshiftRight (b.toNat % 32)
  | 0xF => satInt32 (a.toInt + b.toInt)
  | 0x10 => satInt32 (a.toInt - b.toInt)
  | 0x11 => satInt32 (a.toInt.natAbs : Int)
  | 0x12 => BitVec.ofNat 32 l
  | _ => a

/-- VINT. -/
def vint (lanes : Nat) (x : VecCtx) (w : Nat) : VecCtx :=
  x.setV lanes (vD w) (x.pr (vPr w))
    (fun l => vintLane (vFn w) l (x.lane (vA w) l) (x.opB w l) (x.lane (vD w) l))

/-- The condition of VCMP on two lanes, given whether a < b, a = b and whether they are unordered. -/
def cmpCond (c : Nat) (lt eq un : Bool) : Bool :=
  match c with
  | 0 => !un && eq
  | 1 => un || !eq
  | 2 => !un && lt
  | 3 => !un && (lt || eq)
  | 4 => !un && !lt && !eq
  | 5 => !un && !lt
  | _ => un

/-- VCMP in one lane. -/
def cmpLane (f : Nat) (a b : Word) : Bool :=
  match bits f 3 2 with
  | 0 => cmpCond (bits f 0 3) (Val.lt (fp32 a.toNat) (fp32 b.toNat)) (Val.eqv (fp32 a.toNat) (fp32 b.toNat))
      (isNaN a.toNat || isNaN b.toNat)
  | 1 => cmpCond (bits f 0 3) (a.slt b) (a = b) false
  | _ => cmpCond (bits f 0 3) (a < b) (a = b) false

/-- A predicate word from a function of the lane. -/
def predOf (lanes : Nat) (f : Nat → Bool) : Nat := (List.range lanes).foldl (fun n l => if f l then n + 2 ^ l else n) 0

/-- VCMP. -/
def vcmp (lanes : Nat) (x : VecCtx) (w : Nat) : VecCtx :=
  x.setP (vD w % 8) (predOf lanes (fun l =>
    if x.pr (vPr w) l then cmpLane (vFn w) (x.lane (vA w) l) (x.opB w l) else x.pr (vD w % 8) l))

/-- VPRED. -/
def vpred (lanes : Nat) (x : VecCtx) (w : Nat) : VecCtx :=
  let a := x.prWord lanes (vA w % 8)
  let b := x.prWord lanes (vB w % 8)
  match vFn w with
  | 0 => x.setP (vD w) (a &&& b)
  | 1 => x.setP (vD w) (a ||| b)
  | 2 => x.setP (vD w) (a ^^^ b)
  | 3 => x.setP (vD w) ((2 ^ lanes - 1) ^^^ a)
  | 4 => x.setP (vD w) (2 ^ lanes - 1)
  | 5 => x.setP (vD w) 0
  | 6 => x.setP (vD w) (predOf lanes (fun l => l < (x.sr (vA w)).toNat))
  | _ => x.setS (vD w) (BitVec.ofNat 32 (popCount lanes a))

/-- VPERM. -/
def vperm (lanes : Nat) (x : VecCtx) (w : Nat) : VecCtx :=
  let act := x.pr (vPr w)
  let sb := (x.sr (vB w)).toNat
  match vFn w with
  | 0 => x.setV lanes (vD w) act (fun l => x.lane (vA w) ((x.opB w l).toNat % lanes))
  | 1 => x.setV lanes (vD w) act (fun l => x.lane (vA w) ((l + sb) % lanes))
  | 2 => x.setV lanes (vD w) (fun _ => true) (fun l => if act l then x.lane (vA w) l else x.opB w l)
  | 3 => x.setV lanes (vD w) act (fun _ => x.sr (vA w))
  | 4 => x.setS (vD w) (x.lane (vA w) (sb % lanes))
  | 5 => x.setV lanes (vD w) (fun l => l = sb % lanes && act l) (fun _ => x.sr (vA w))
  | _ => x.setV lanes (vD w) act (fun l => x.lane (vA w) (32 * (l / 32) + sb % 32))

/-- The value of an inactive lane in a reduction (R130). -/
def redIdent : Nat → Nat
  | 0 => 0x80000000 | 1 => 0xFF800000 | 2 => 0x7F800000 | 3 => 0 | 4 => 0 | 5 => 0x80000000 | _ => 0x7FFFFFFF

/-- One combination of a reduction. -/
def redOp (f a b : Nat) : FpRes :=
  match f with
  | 0 => fAdd a b
  | 1 => fMax a b
  | 2 => fMin a b
  | 3 => fMax a b
  | 4 => ((a + b) % 2 ^ 32, 0)
  | 5 => (if (BitVec.ofNat 32 a).slt (BitVec.ofNat 32 b) then b else a, 0)
  | _ => (if (BitVec.ofNat 32 b).slt (BitVec.ofNat 32 a) then b else a, 0)

/-- One level of the fixed tree: neighbours combined; flags gathered. -/
def redLevel (f : Nat) : List FpRes → List FpRes
  | a :: b :: r => (let c := redOp f a.1 b.1; (c.1, a.2 ||| b.2 ||| c.2)) :: redLevel f r
  | l => l

/-- The fixed tree of R130, k levels. -/
def redTree (f : Nat) : Nat → List FpRes → List FpRes
  | 0, l => l
  | k + 1, l => redTree f k (redLevel f l)

/-- The reduction of a list whose length is a power of two. -/
def reduce (f : Nat) (l : List Nat) : FpRes := (redTree f (Nat.log2 l.length) (l.map (fun a => (a, 0)))).headD (0, 0)

/-- A lane as a reduction takes it: its value, its magnitude for FMAXABS, or the identity when inactive. -/
def redLane (x : VecCtx) (w f l : Nat) : Nat :=
  if x.pr (vPr w) l then (let a := (x.lane (vA w) l).toNat; if f = 3 then fAbs a else a) else redIdent f

/-- VRED. -/
def vred (lanes : Nat) (x : VecCtx) (w : Nat) : VecCtx :=
  let f := bits (vFn w) 0 3
  if bit (vFn w) 6 then
    let rs := (List.range (lanes / 32)).map (fun k => reduce f ((List.range 32).map (fun i => redLane x w f (32 * k + i))))
    (x.setV lanes (vD w) (x.pr (vPr w)) (fun l => BitVec.ofNat 32 (rs.getD (l / 32) (0, 0)).1)).raise
      (rs.foldl (fun n r => n ||| r.2) 0)
  else
    let r := reduce f ((List.range lanes).map (redLane x w f))
    (x.setS (vD w) (BitVec.ofNat 32 r.1)).raise r.2

/-! ### Conversions and block scales (R131, R132) -/

/-- OUT_FMT of CX_CONV. -/
def VecCtx.outFmt (x : VecCtx) : Nat := bits (x.cr 0) 0 4
/-- GRAD. -/
def VecCtx.grad (x : VecCtx) : Bool := bit (x.cr 0) 7
/-- BSCALE. -/
def VecCtx.bscale (x : VecCtx) : Bool := bit (x.cr 0) 28
/-- IN_FMT. -/
def VecCtx.inFmt (x : VecCtx) : Nat := bits (x.cr 0) 24 4
/-- The element index base. -/
def VecCtx.eidx (x : VecCtx) : Nat := x.cr 3 + 2 ^ 32 * (x.cr 4 % 65536)

/-- E of R72 step 3 in this context: OSC, and u of the layer under GRAD. -/
def VecCtx.expo (x : VecCtx) (u : Int) : Int := sext 8 (bits (x.cr 0) 8 8) + (if x.grad then u else 0)

/-- The conversion's parameters. -/
def VecCtx.par (x : VecCtx) (u : Int) : ConvPar :=
  ⟨x.outFmt, if x.grad then 2 else bits (x.cr 0) 4 2, bit (x.cr 0) 6, x.expo u, x.bscale, bits (x.cr 0) 16 8⟩

/-- The source of a conversion: an FP32 or INT32 lane. -/
def convSrc (int : Bool) (a : Nat) : Val := if int then .ofInt (sext 32 a) else fp32 a

/-- t of a lane after step 3. -/
def VecCtx.step3 (x : VecCtx) (u : Int) (int : Bool) (a : Nat) : Val := (convSrc int a).scale (x.expo u)

/-- The statistic byte or scale byte of block k from its active lanes. -/
def blockOf (lanes : Nat) (act : Nat → Bool) (t : Nat → Val) (k : Nat) : List Val :=
  ((List.range lanes).filter (fun l => l / 32 = k && act l)).map t

/-- Blocks with an active lane. -/
def blocksIn (lanes : Nat) (act : Nat → Bool) : List Nat :=
  (List.range (lanes / 32)).filter (fun k => (List.range lanes).any (fun l => l / 32 = k && act l))

/-- c10 raised to the largest statistic byte (R131). -/
def VecCtx.raiseAmax (x : VecCtx) (lanes : Nat) (act : Nat → Bool) (t : Nat → Val) : VecCtx :=
  x.setC 10 ((blocksIn lanes act).foldl (fun n k => max n (statByte (blockOf lanes act t k))) (x.cr 10 % 256))

/-- One lane of CVT.OUT or CVT.OUTI. -/
def cvtLane (e : VecEnv) (u : Int) (x : VecCtx) (w : Nat) (int : Bool) (l : Nat) : ConvOut :=
  let a := (x.lane (vA w) l).toNat
  let c := x.par u
  let word := srWord e.key e.step (x.cr 2 % 2 ^ 24) (if e.upd then 4 else 1) ((x.eidx + l) % 2 ^ 48)
  let t := x.step3 u int a
  if x.bscale then
    (match scaleExp ((x.opB w l).toNat % 256) with
     | none => ⟨0, false, false, false, false, !t.finite⟩
     | some k => convert c (rndOf c.rnd word) (t.scale (-k)))
  else if !int && c.fmt = 0 && c.e = 0 then copyFp32 a
  else convert c (rndOf c.rnd word) t

/-- The index base after an INC conversion. -/
def VecCtx.incEidx (x : VecCtx) (lanes : Nat) : VecCtx :=
  (x.setC 3 ((x.eidx + lanes) % 2 ^ 32)).setC 4 ((x.eidx + lanes) / 2 ^ 32 % 65536)

/-- How many of the active lanes' results meet a condition. -/
def countOut (lanes : Nat) (act : Nat → Bool) (rs : List ConvOut) (f : ConvOut → Bool) : Nat :=
  ((List.range lanes).filter (fun l => act l && f (rs.getD l ⟨0, false, false, false, false, false⟩))).length

/-- VCVT: CVT.OUT, CVT.OUTI and CVT.IN, with INC. -/
def vcvt (e : VecEnv) (u : Int) (x : VecCtx) (w : Nat) : VecOut :=
  let act := x.pr (vPr w)
  let inc := bit (vFn w) 6
  if bits (vFn w) 0 6 = 2 then
    let f := x.inFmt
    let x' := x.setV e.lanes (vD w) act (fun l =>
      let v := fmtValue f 0 (x.lane (vA w) l).toNat
      BitVec.ofNat 32 (match fmtFloat f, v with
        | none, .fin m _ _ => wrapInt 32 m
        | _, v => toFp32 canonNaN .rne v))
    .regs (if inc then x'.incEidx e.lanes else x')
  else
    let int := bits (vFn w) 0 6 = 1
    let rs := (List.range e.lanes).map (cvtLane e u x w int)
    let n := countOut e.lanes act rs
    let x1 := x.setV e.lanes (vD w) act (fun l => BitVec.ofNat 32 (rs.getD l ⟨0, false, false, false, false, false⟩).code)
    let x2 := ((((x1.addC 5 (n (·.ovf))).addC 6 (n (·.unf))).addC 7 (n (·.sub))).addC 8 (n (·.nonfin))).addC 9 (n (·.sat))
    let x3 := x2.raiseAmax e.lanes act (fun l => x.step3 u int (x.lane (vA w) l).toNat)
    ⟨if inc then x3.incEidx e.lanes else x3, [], if x.grad then n (·.unf) else 0,
      if x.grad then n (·.ovf) + n (·.nonfin) else 0, n (·.nonfin), none⟩

/-- A parameter that stops VCVT or BSC (R131, R132). -/
def cvtBad (x : VecCtx) (w : Nat) : Bool :=
  match vOp w with
  | 6 => if bits (vFn w) 0 6 = 2 then x.inFmt = 0xC || x.inFmt = 0xD || x.inFmt = 0xF
         else convBad x.outFmt (bits (x.cr 0) 4 2) x.bscale (bits (x.cr 0) 16 8)
  | 7 => vFn w = 0 && !fmtScaled x.outFmt
  | 0x13 => vFmt w = 0xC || vFmt w = 0xD || vFmt w = 0xF
  | 0x1B => vFmt w = 0xC || vFmt w = 0xD || vFmt w = 0xF
  | _ => false

/-- VSCL: BSC, UNSCALE and BSTAT. -/
def vscl (lanes : Nat) (u : Int) (x : VecCtx) (w : Nat) : VecCtx :=
  let act := x.pr (vPr w)
  let t := fun l => x.step3 u false (x.lane (vA w) l).toNat
  match vFn w with
  | 0 => x.setV lanes (vD w) act (fun l => BitVec.ofNat 32 (blockScale x.outFmt (blockOf lanes act t (l / 32))))
  | 1 =>
    let rs := (List.range lanes).map (fun l =>
      let a := (x.lane (vA w) l).toNat
      match scaleExp ((x.opB w l).toNat % 256) with
      | none => (canonNaN, snanFlag [a])
      | some k => fScaleb a (wrapInt 32 k))
    let fl := ((List.range lanes).zip rs).foldl (fun n p => if act p.1 then n ||| p.2.2 else n) 0
    (x.setV lanes (vD w) act (fun l => BitVec.ofNat 32 (rs.getD l (0, 0)).1)).raise fl
  | _ =>
    (x.setV lanes (vD w) act (fun l => BitVec.ofNat 32 (statByte (blockOf lanes act t (l / 32))))).raiseAmax lanes act t

/-! ### Memory (R133, R134) -/

/-- Sign-extended IMM as a 32-bit word. -/
def immWord (w : Nat) : Word := BitVec.ofInt 32 (sext 16 (vImm w))

/-- The bytes (first offset, length) that an element of a packed vector of a format touches: whole groups of FP6. -/
def packSpan (f base l : Nat) : Nat × Nat :=
  if fmtBits f = 6 then ((base + (6 * l) / 8) % 2 ^ 32, if 6 * l % 8 = 0 || 6 * l % 8 = 2 then 1 else 2)
  else if fmtBits f = 4 then ((base + l / 2) % 2 ^ 32, 1)
  else ((base + fmtBits f / 8 * l) % 2 ^ 32, fmtBits f / 8)

/-- The bytes lane l of a memory instruction touches; none for a lane that touches none. -/
def laneSpan (x : VecCtx) (w l : Nat) : Option (Nat × Nat) :=
  let a := (x.sr (vA w)).toNat
  match vOp w with
  | 0x10 => some ((a + 4 * l) % 2 ^ 32, 4)
  | 0x11 => some ((a + l * (x.sr (vB w)).toNat) % 2 ^ 32, 4)
  | 0x12 => some ((a + (x.lane (vB w) l).toNat) % 2 ^ 32, 4)
  | 0x13 => some (packSpan (vFmt w) a l)
  | 0x14 => some ((a + l / 32) % 2 ^ 32, 1)
  | 0x18 => some ((a + 4 * l) % 2 ^ 32, 4)
  | 0x19 => some ((a + l * (x.sr (vB w)).toNat) % 2 ^ 32, 4)
  | 0x1A => some ((a + (x.lane (vB w) l).toNat) % 2 ^ 32, 4)
  | 0x1B => some (packSpan (vFmt w) a l)
  | 0x1C => if l % 32 = 0 then some ((a + l / 32) % 2 ^ 32, 1) else none
  | _ => none

/-- Every span that the active lanes, or SLD and SST, touch. -/
def memSpans (lanes : Nat) (x : VecCtx) (w : Nat) : List (Nat × Nat) :=
  if vOp w = 0x24 || vOp w = 0x25 then [((x.sr (vA w) + immWord w).toNat, 4)]
  else ((List.range lanes).filter (x.pr (vPr w))).filterMap (laneSpan x w)

/-- The instruction stores. -/
def vecStores (w : Nat) : Bool := (0x18 ≤ vOp w && vOp w ≤ 0x1C) || vOp w = 0x25

/-- The alignment of a format's vector address. -/
def fmtAlign (f : Nat) : Nat := if fmtBits f = 32 then 4 else if fmtBits f = 16 then 2 else 1

/-- A misaligned access (R134). -/
def vecMisaligned (lanes : Nat) (x : VecCtx) (w : Nat) : Bool :=
  match vOp w with
  | 0x13 => (List.range lanes).any (x.pr (vPr w)) && (x.sr (vA w)).toNat % fmtAlign (vFmt w) != 0
  | 0x1B => (List.range lanes).any (x.pr (vPr w)) && (x.sr (vA w)).toNat % fmtAlign (vFmt w) != 0
  | 0x14 => false
  | 0x1C => false
  | _ => (memSpans lanes x w).any (fun p => p.1 % 4 != 0)

/-- A span lies within a range. -/
def inRange (r p : Nat × Nat) : Bool := r.1 ≤ p.1 && p.1 + p.2 ≤ r.1 + r.2

/-- An access outside the ranges (R105, R134; R299 for an update core). -/
def vecOutside (e : VecEnv) (x : VecCtx) (w : Nat) : Bool :=
  (memSpans e.lanes x w).any (fun p =>
    if e.upd then !inRange (0, 0x4000) p
    else if vecStores w then !inRange x.wr p
    else !(inRange x.rd0 p || inRange x.rd1 p || inRange x.wr p))

/-- A lane's loaded value: load gives a byte of memory by offset. -/
def loadLane (load : Nat → Byte) (x : VecCtx) (w l : Nat) : Word :=
  match laneSpan x w l with
  | none => 0
  | some p =>
    let n := leNat ((List.range p.2).map (fun i => load (p.1 + i)))
    if vOp w = 0x13 then
      let f := vFmt w
      let code := if fmtBits f = 6 then bits n (6 * l % 8) 6 else if fmtBits f = 4 then bits n (4 * (l % 2)) 4 else n
      BitVec.ofNat 32 (match fmtFloat f, fmtValue f 0 code with
        | none, .fin m _ _ => wrapInt 32 m
        | _, v => toFp32 canonNaN .rne v)
    else BitVec.ofNat 32 n

/-- Bits stored into an element of a format: FP19 in its container with its low part zero. -/
def storeCode (f : Nat) (v : Nat) : Nat := if f = 1 then v / 2 ^ 13 * 2 ^ 13 else v % 2 ^ fmtBits f

/-- The bytes lane l stores over the bytes m that stand there. -/
def storeLane (x : VecCtx) (w : Nat) (m : List (Nat × Byte)) (load : Nat → Byte) (l : Nat) : List (Nat × Byte) :=
  match laneSpan x w l with
  | none => m
  | some p =>
    let v := (x.lane (vD w) l).toNat
    let cur := leNat ((List.range p.2).map (fun i => ((m.find? (fun q => q.1 = p.1 + i)).map (·.2)).getD (load (p.1 + i))))
    let new :=
      if vOp w = 0x1B then
        (let f := vFmt w
         if fmtBits f = 6 then setBits cur (6 * l % 8) 6 v
         else if fmtBits f = 4 then setBits cur (4 * (l % 2)) 4 v
         else storeCode f v)
      else v
    (List.range p.2).foldl (fun m i => (p.1 + i, BitVec.ofNat 8 (new / 256 ^ i)) :: m) m

/-- A load. -/
def vload (lanes : Nat) (load : Nat → Byte) (x : VecCtx) (w : Nat) : VecCtx :=
  x.setV lanes (vD w) (x.pr (vPr w)) (loadLane load x w)

/-- A store: the bytes in order, the last for an address prevailing. -/
def vstore (lanes : Nat) (load : Nat → Byte) (x : VecCtx) (w : Nat) : List (Nat × Byte) :=
  (((List.range lanes).filter (x.pr (vPr w))).foldl (fun m l => storeLane x w m load l) []).reverse

/-! ### Scalar instructions (R135) -/

/-- SALU. -/
def salu (f : Nat) (a b : Word) : Word :=
  match f with
  | 0 => a + b
  | 1 => a - b
  | 2 => a * b
  | 3 => a &&& b
  | 4 => a ||| b
  | 5 => a ^^^ b
  | 6 => a <<< (b.toNat % 32)
  | 7 => a >>> (b.toNat % 32)
  | 8 => a.sshiftRight (b.toNat % 32)
  | 9 => if a.slt b then 1 else 0
  | 0xA => if a < b then 1 else 0
  | 0xB => if b.slt a then b else a
  | _ => if a.slt b then b else a

/-- A branch is taken. -/
def branchTaken (op : Nat) (a b : Word) : Bool :=
  match op with
  | 0x30 => a = b
  | 0x31 => a != b
  | 0x32 => a.slt b
  | 0x33 => a < b
  | _ => true

/-- The position of a branch's target: PC + OFF; none outside the code. -/
def VecCtx.target (x : VecCtx) (w : Nat) : Option Nat :=
  let t : Int := (x.pc : Int) + sext 16 (vImm w)
  if 0 ≤ t && t < x.count then some t.toNat else none

/-- The next position; the code ends when it leaves the COUNT instructions. -/
def VecCtx.goto (x : VecCtx) (t : Option Nat) : VecCtx :=
  match t with
  | some n => if n < x.count then { x with pc := n } else { x with pc := n, run := false, ended := true }
  | none => { x with run := false, ended := true }

/-- After an instruction that is no branch. -/
def VecCtx.advance (x : VecCtx) : VecCtx := x.goto (some (x.pc + 1))

/-! ### One instruction -/

/-- The first condition of R136 that an instruction meets, poison and the limit left to its caller.
DESIGN CHOICE and DEDUCED (log entry 21). -/
def vecStopOf (e : VecEnv) (x : VecCtx) (w : Nat) : Option VecStop :=
  if !vecDefined w then some .undefined
  else if !vecFieldsOk x.bscale w then some .field
  else if cvtBad x w then some .param
  else if vecMisaligned e.lanes x w then some .misaligned
  else if vecOutside e x w then some .range
  else none

/-- The effect of an instruction that nothing stops, its position aside. -/
def vecEffect (e : VecEnv) (u : Int) (load : Nat → Byte) (x : VecCtx) (w : Nat) : VecOut :=
  match vOp w with
  | 0x01 => .regs (vfp e.lanes x w)
  | 0x02 => .regs (vint e.lanes x w)
  | 0x03 => .regs (vcmp e.lanes x w)
  | 0x04 => .regs (vperm e.lanes x w)
  | 0x05 => .regs (vred e.lanes x w)
  | 0x06 => vcvt e u x w
  | 0x07 => .regs (vscl e.lanes u x w)
  | 0x08 => .regs (vpred e.lanes x w)
  | 0x10 => .regs (vload e.lanes load x w)
  | 0x11 => .regs (vload e.lanes load x w)
  | 0x12 => .regs (vload e.lanes load x w)
  | 0x13 => .regs (vload e.lanes load x w)
  | 0x14 => .regs (vload e.lanes load x w)
  | 0x18 => ⟨x, vstore e.lanes load x w, 0, 0, 0, none⟩
  | 0x19 => ⟨x, vstore e.lanes load x w, 0, 0, 0, none⟩
  | 0x1A => ⟨x, vstore e.lanes load x w, 0, 0, 0, none⟩
  | 0x1B => ⟨x, vstore e.lanes load x w, 0, 0, 0, none⟩
  | 0x1C => ⟨x, vstore e.lanes load x w, 0, 0, 0, none⟩
  | 0x20 => .regs (x.setS (vD w) (salu (vFn w) (x.sr (vA w)) (x.sr (vB w))))
  | 0x21 => .regs (x.setS (vD w) (x.sr (vA w) + immWord w))
  | 0x22 => .regs (x.setS (vD w) (BitVec.ofNat 32 (vImm w * 65536)))
  | 0x23 => .regs (x.setS (vD w) (x.sr (vA w) ||| BitVec.ofNat 32 (vImm w)))
  | 0x24 =>
    let a := (x.sr (vA w) + immWord w).toNat
    .regs (x.setS (vD w) (BitVec.ofNat 32 (leNat ((List.range 4).map (fun i => load (a + i))))))
  | 0x25 =>
    let a := (x.sr (vA w) + immWord w).toNat
    ⟨x, (List.range 4).map (fun i => (a + i, BitVec.ofNat 8 ((x.sr (vD w)).toNat / 256 ^ i))), 0, 0, 0, none⟩
  | 0x26 => .regs (writeCtl e x (vImm w % 16) (x.sr (vA w)).toNat)
  | 0x27 => .regs (x.setS (vD w) (BitVec.ofNat 32 (readCtl e x (vImm w % 16))))
  | _ => .regs x

/-- Where the code goes after an instruction. -/
def vecNext (x before : VecCtx) (w : Nat) : VecCtx :=
  if vOp w = 0 then { x with run := false, ended := true }
  else if 0x30 ≤ vOp w then
    (if branchTaken (vOp w) (before.sr (vD w)) (before.sr (vA w)) then x.goto (before.target w) else x.advance)
  else x.advance

/-- One instruction that nothing stops. -/
def vecStep (e : VecEnv) (u : Int) (load : Nat → Byte) (x : VecCtx) (w : Nat) : VecOut :=
  let o := vecEffect e u load x w
  { o with ctx := { vecNext o.ctx x w with executed := x.executed + 1 } }

/-- The registers of R119, run from instruction 0. -/
def VecCtx.start (lanes code count pos : Nat) (rd0 rd1 wr : Nat × Nat) : VecCtx where
  run := true
  ended := false
  code := code
  count := count
  pos := pos
  pc := 0
  executed := 0
  s := List.replicate 32 0
  v := List.replicate 32 (List.replicate lanes 0)
  p := List.replicate 8 (2 ^ lanes - 1)
  c := List.replicate 16 0
  rd0 := rd0
  rd1 := rd1
  wr := wr
  mem := []

end Sys2Proof.Machine
end

