-- ==== Sys2Proof/Machine/UpdOps.lean ====
section
/-! DEFINITION. The update engine: bindings and their arrays, the freeze map, loading and finishing an update block, undo records, retirement of update cores (R292 to R311). -/

namespace Sys2Proof.Machine

/-! ### Bindings (R292, R296, R304, R306) -/

/-- Update blocks of a number of parameters. -/
def blocksOf (n : Nat) : Nat := ceilDiv n 256

/-- Update blocks of a binding. -/
def Binding.blocks (b : Binding) : Nat := blocksOf b.count

/-- Cp: the padded count. -/
def Binding.cp (b : Binding) : Nat := 256 * b.blocks

/-- Scale bytes of a block. -/
def blockScales (fmt : Nat) : Nat := if fmtScaled fmt then 8 else 0

/-- Narrow and scale bytes of a block, as Carousel carries them (R297). -/
def Binding.backLen (b : Binding) : Nat := fmtBytes b.fmt 256 + blockScales b.fmt

/-- Bytes of the narrow array. -/
def narrowSize (fmt cp : Nat) : Nat := fmtBytes fmt cp + (if fmtScaled fmt then cp / 32 else 0)

/-- The narrow bytes of block i. -/
def Binding.narrowAt (b : Binding) (i : Nat) : Nat := b.narrow + fmtBytes b.fmt 256 * i

/-- The scale bytes of block i. -/
def Binding.scaleAt (b : Binding) (i : Nat) : Nat := b.narrow + fmtBytes b.fmt b.cp + 8 * i

/-- The master values of block i. -/
def Binding.masterAt (b : Binding) (i : Nat) : Nat := b.master + 1024 * i

/-- State slot j of block i. -/
def Binding.stateAt (b : Binding) (j i : Nat) : Nat := b.state + 4 * b.cp * j + 1024 * i

/-- The narrow bytes and scale bytes of a block, as ranges. -/
def Binding.narrowRanges (b : Binding) (i : Nat) : List (Nat × Nat) :=
  [(b.narrowAt i, fmtBytes b.fmt 256), (b.scaleAt i, blockScales b.fmt)]

/-- Everything the owner reads of a block. -/
def Binding.ranges (b : Binding) (i : Nat) : List (Nat × Nat) :=
  (b.masterAt i, 1024) :: (List.range b.slots).map (fun j => (b.stateAt j i, 1024)) ++ b.narrowRanges i

/-- Bytes of an owner's undo record, padded (R305). -/
def Binding.recordSize (b : Binding) : Nat := 32 * ceilDiv (32 + 1024 + 1024 * b.slots + b.backLen) 32

/-- A binding by its tensor. -/
def bindOf (l : List Binding) (t : Nat) : Option Binding := l.find? (fun b => b.tensor = t)

/-- Bindings in force. -/
def Dev.bind? (d : Dev) (t : Nat) : Option Binding := bindOf d.upd.binds t

/-- The layer group of a layer, in ascending tensor order (R296). -/
def Dev.layerGroup (d : Dev) (layer : Nat) : List Binding := d.upd.binds.filter (fun b => b.layer = layer)

/-- The binding and the block within it that block k of a buffer is. -/
def blockIn : List Binding → Nat → Option (Binding × Nat)
  | [], _ => none
  | b :: r, k => if k < b.blocks then some (b, k) else blockIn r (k - b.blocks)

/-- The binding and block that block k of a collective's buffer is. -/
def Dev.collBlock (d : Dev) (c : Coll) (k : Nat) : Option (Binding × Nat) := blockIn (d.layerGroup c.layer) k

/-- Block i of a binding is frozen. -/
def Dev.isFrozen (d : Dev) (b : Binding) (i : Nat) : Bool := Tab.get false d.upd.frozen (b.pos + i)

/-- Frozen blocks of a collective's buffer. -/
def Dev.frozenIn (d : Dev) (c : Coll) : Nat :=
  (d.layerGroup c.layer).foldl (fun n b => n + ((List.range b.blocks).filter (d.isFrozen b)).length) 0

/-- Insertion of a binding by its tensor. -/
def insertBind (b : Binding) : List Binding → List Binding
  | [] => [b]
  | q :: r => if b.tensor < q.tensor then b :: q :: r else q :: insertBind b r

/-- UPD_STEPS.DAMAGED follows the bindings. -/
def Dev.countDamaged (d : Dev) : Dev := d.setFld Reg.UPD_STEPS.DAMAGED (d.upd.binds.filter (·.damaged)).length

/-- A binding is removed, and its freeze-map bits are released. -/
def Dev.unbind (d : Dev) (t : Nat) : Dev :=
  match d.bind? t with
  | none => d
  | some b =>
    ({ d with upd := { d.upd with
        binds := d.upd.binds.filter (fun q => q.tensor != t)
        frozen := Tab.clear d.upd.frozen b.pos b.blocks } } : Dev).countDamaged

/-- A binding comes into force, every block thawed; it replaces one of the same tensor (R293). -/
def Dev.putBind (d : Dev) (b : Binding) : Dev :=
  let d := d.unbind b.tensor
  { d with upd := { d.upd with
      binds := insertBind b d.upd.binds
      frozen := Tab.clear d.upd.frozen b.pos b.blocks } }

/-- Blocks of a tensor are frozen or thawed (R304). DESIGN CHOICE (log entry 30). -/
def Dev.freeze (d : Dev) (t first n : Nat) (on : Bool) : Dev :=
  match d.bind? t with
  | none => d
  | some b =>
    { d with upd := { d.upd with
        frozen := (List.range n).foldl (fun f i => if first + i < b.blocks then Tab.set false f (b.pos + first + i) on else f)
          d.upd.frozen } }

/-- Bindings in force and staged. -/
def Dev.allBinds (d : Dev) : List Binding :=
  d.upd.binds ++ d.upd.staged.filterMap (fun s => match s with | .bind _ b => some b | _ => none)

/-- UPD_UNDO_NEED (R306). -/
def undoNeed (l : List Binding) : Nat := l.foldl (fun n b => n + b.blocks * b.recordSize) 0

/-- A range lies wholly within one vault of a core of a state, or within Midway SRAM. -/
def placed (okCore : Nat → Bool) (a n : Nat) : Bool :=
  match regionOf a with
  | .vault c o => okCore c && o + n ≤ 0x100000000
  | .midway o => o + n ≤ midwaySize
  | _ => false

/-- The undo area keeps the placement rule of R306. -/
def Dev.undoPlaced (d : Dev) : Bool := placed (fun _ => true) d.undoBase (d.fld Reg.UPD_UNDO_LEN.LEN)

/-- The lowest run of n freeze-map bits that no binding of a list has (R304). DESIGN CHOICE (log entry 30). -/
def freezeRun (l : List Binding) (n : Nat) : Option Nat :=
  let ok := fun p => p + n ≤ 2 ^ 26 && l.all (fun b => !overlaps b.pos b.blocks p n)
  ((0 :: l.map (fun b => b.pos + b.blocks)).filter ok).min?

/-! ### Update exponents and narrow copies (R298, R300) -/

/-- A gradient times 2^−u, in FP32 (R298 step 1). DESIGN CHOICE (log entry 30). -/
def gradTimes (u : Int) (g : Nat) : Nat := toFp32 canonNaN .rne ((fp32 g).scale (-u))

/-- A value that is not a zero. -/
def nonZero32 (g : Nat) : Bool := g % 2 ^ 31 != 0

/-- The narrow codes of a block from its master values, with the scale byte and what the conversions count (R300). -/
def Dev.narrowOf (d : Dev) (b : Binding) (i : Nat) (ws : List Nat) : List Byte × List ConvOut :=
  let key := d.fld Reg.ARR_SR_KEY.KEY
  let par : ConvPar := ⟨b.fmt, 2, true, 0, fmtScaled b.fmt, 0⟩
  let vs := ws.mapIdx (fun e w => (fp32 w, rndOf 2 (srWord key d.stp.cfg.step b.tensor 3 (256 * i + e))))
  if b.fmt = 0 then
    (let os := ws.map copyFp32
     (packAll 0 (os.map (·.code)), os))
  else if fmtScaled b.fmt then
    (let r := convBlock par vs
     (packAll b.fmt (r.2.map (·.code)) ++ List.replicate 8 (BitVec.ofNat 8 r.1), r.2))
  else
    (let os := vs.map (fun p => convert par p.2 p.1)
     (packAll b.fmt (os.map (·.code)), os))

/-- The narrow bytes and scale bytes of a block as they stand. -/
def Dev.narrowBytes (d : Dev) (b : Binding) (i : Nat) : List Byte :=
  d.read (b.narrowAt i) (fmtBytes b.fmt 256) ++ d.read (b.scaleAt i) (blockScales b.fmt)

/-- The narrow bytes and scale bytes of a block are written. -/
def Dev.putNarrow (d : Dev) (b : Binding) (i : Nat) (l : List Byte) : Dev :=
  let d := d.store (b.narrowAt i) (l.take (fmtBytes b.fmt 256))
  if fmtScaled b.fmt then d.store (b.scaleAt i) (slice l (fmtBytes b.fmt 256) 8) else d

/-! ### Undo records (R305) -/

/-- An undo record with its padding. -/
def undoRecord (owner : Bool) (b : Binding) (i step : Nat) (payload : List Byte) : List Byte :=
  let r := leBytes 1 (if owner then 1 else 2) ++ leBytes 1 b.slots ++ leBytes 1 b.fmt ++ [0] ++ leBytes 3 b.tensor ++ [0] ++
    leBytes 4 i ++ leBytes 4 step ++ leBytes 4 payload.length ++ leBytes 4 (crc32c payload) ++ zeros 8 ++ payload
  padTo (32 * ceilDiv r.length 32) r

/-- The undo record of a block is written, unless the step has written the block before. -/
def Dev.writeUndo (d : Dev) (b : Binding) (i : Nat) (owner : Bool) : Dev :=
  if d.upd.undo.any (fun r => r.tensor = b.tensor && r.block = i) then d
  else
    let old := if owner then
        d.read (b.masterAt i) 1024 ++ ((List.range b.slots).map (fun j => d.read (b.stateAt j i) 1024)).flatten
      else []
    let rec' := undoRecord owner b i d.stp.cfg.step (old ++ d.narrowBytes b i)
    let off := d.fld Reg.UPD_UNDO_USED.BYTES
    let d := d.store (d.undoBase + off) rec'
    ({ d with upd := { d.upd with undo := d.upd.undo ++ [⟨off, b.tensor, i⟩] } } : Dev).bump Reg.UPD_UNDO_USED.BYTES rec'.length

/-! ### Errors of a collective that updates (R310) -/

/-- The first error that reads of a list of ranges meet. -/
def Dev.rangeErr (d : Dev) (l : List (Nat × Nat)) : Option MemErr := l.findSome? (fun r => d.readErr r.1 r.2)

/-- An array of a block cannot be read: the collective is poisoned, DEVICE_FAULT here for an uncorrectable read,
STATE_LOST for a lost core. -/
def Dev.blockErr (d : Dev) (c : Coll) (e : MemErr) : Dev :=
  match e with
  | .poisoned a => d.collFault c a
  | .lostCore k => d.poisonColl c 0 0 (Ending.lost k)
  | .unpopulated => d.poisonColl c 0 0 (Ending.plain .stateLost)

/-! ### Blocks on update cores (R298, R299) -/

/-- An update core is in service. -/
def Dev.updIn (d : Dev) (k : Nat) : Bool := bit (d.fld Reg.UPD_CORES.IN_SERVICE) k

/-- The segments that a member of a collective owns (R278). -/
def Coll.owned (c : Coll) : List Nat := if c.rank < pOf c.n then vSegs c.n c.rank else []

/-- Blocks of the buffer in a segment. -/
def Coll.segBlocks (c : Coll) (s : Nat) : List Nat :=
  (List.range ((c.segAt s).2 / 256)).map (fun i => (c.segAt s).1 / 256 + i)

/-- Blocks of the buffer that a member owns, in the order of its segments. -/
def Coll.ownBlocks (c : Coll) : List Nat := (c.owned.map c.segBlocks).flatten

/-- The state of a block on its owner. -/
def Coll.blk (c : Coll) (k : Nat) : BlkSt := Tab.get .fresh c.blocks k

/-- The bytes of a run of blocks that have come back, up to the first that has not. -/
def Coll.backBytes (c : Coll) : List Nat → List Byte
  | [] => []
  | k :: r =>
    match c.blk k with
    | .back l => l ++ c.backBytes r
    | _ => []

/-- A block has come back: the data of its segment grows (R297). -/
def Coll.blockBack (c : Coll) (k : Nat) (l : List Byte) : Coll :=
  let c : Coll := { c with blocks := Tab.set .fresh c.blocks k (.back l) }
  { c with segs := c.owned.foldl (fun t s => Tab.set [] t s (c.backBytes (c.segBlocks s))) c.segs }

/-- The block information of R299. -/
def Dev.blockInfo (d : Dev) (c : Coll) (b : Binding) (i : Nat) : List Byte :=
  padTo 64 (leBytes 4 b.tensor ++ leBytes 4 i ++ leBytes 8 (256 * i) ++ leBytes 4 d.stp.cfg.step ++ leBytes 2 b.layer ++
    leBytes 1 (wrapInt 8 (d.updExp b.layer)) ++ [0] ++ leBytes 4 c.tag)

/-- The working memory of a block (R299). -/
def Dev.blockMem (d : Dev) (c : Coll) (b : Binding) (i k : Nat) : List Byte :=
  let g := ((c.vals.drop (256 * k)).take 256).map (fun v => leBytes 4 (gradTimes (d.updExp b.layer) v))
  let s := (List.range 4).map (fun j => if j < b.slots then d.read (b.stateAt j i) 1024 else zeros 1024)
  g.flatten ++ d.read (b.masterAt i) 1024 ++ s.flatten ++ padTo 256 (Tab.get [] c.hyper b.tensor) ++ d.blockInfo c b i

/-- The context of a block: the program from its first instruction, its registers by R119 and R298. -/
def Dev.blockCtx (d : Dev) (c : Coll) (b : Binding) (i k : Nat) : VecCtx :=
  let x := VecCtx.start 64 (midwayBase + b.progOff + 32) b.progLen 0xFFFF (0, 0) (0, 0) (0, 0)
  let x := (((x.setC 1 b.layer).setC 2 b.tensor).setC 3 (256 * i % 2 ^ 32)).setC 4 (256 * i / 2 ^ 32)
  { x with mem := (cellsAt 0 (d.blockMem c b i k)).filter (fun e => e.2 != 0) }

/-- An update core drops what it runs. -/
def Dev.clearRun (d : Dev) (k : Nat) : Dev :=
  { d with
    vec := Tab.set VecCtx.init d.vec (192 + k) VecCtx.init
    upd := { d.upd with running := Tab.set none d.upd.running k none } }

/-- An update core starts a block: loading it may fail, and counts what the update exponent makes zero (R298, R310).
DESIGN CHOICE (log entry 30). -/
def Dev.startBlock (d : Dev) (k : Nat) (j : BlkJob) : Dev :=
  match d.coll? j.key with
  | none => d.clearRun k
  | some c =>
    match d.collBlock c j.block with
    | none => d.clearRun k
    | some (b, i) =>
      match d.rangeErr (partialsAt c.recv (256 * j.block) 256 ++ b.ranges i) with
      | some e => (d.clearRun k).blockErr c e
      | none =>
        let u := d.updExp b.layer
        let gs := (c.vals.drop (256 * j.block)).take 256
        let unf := (gs.filter (fun g => nonZero32 g && !nonZero32 (gradTimes u g))).length
        let d := d.gradCount b.layer unf 0
        { d with
          vec := Tab.set VecCtx.init d.vec (192 + k) (d.blockCtx c b i j.block)
          upd := { d.upd with running := Tab.set none d.upd.running k (some j) } }

/-- A free update core starts the block that waits loaded on it. -/
def Dev.nextBlock (d : Dev) (k : Nat) : Dev :=
  match Tab.get none d.upd.next k with
  | none => d
  | some j => ({ d with upd := { d.upd with next := Tab.set none d.upd.next k none } } : Dev).startBlock k j

/-- A block goes to an update core: it runs at once, or waits loaded. -/
def Dev.giveBlock (d : Dev) (k : Nat) (c : Coll) (n : Nat) : Dev :=
  let d := d.modColl c.key (fun c => { c with blocks := Tab.set .fresh c.blocks n .out })
  if (Tab.get none d.upd.running k).isNone then d.startBlock k ⟨c.key, n⟩
  else { d with upd := { d.upd with next := Tab.set none d.upd.next k (some ⟨c.key, n⟩) } }

/-- Master values or a state slot in the working memory of a context. -/
def VecCtx.words (x : VecCtx) (off : Nat) : List Byte := (List.range 1024).map (fun i => Tab.get 0 x.mem (off + i))

/-- The update of a block is written: undo record, master, state, narrow copy (R298 steps 4 and 5). -/
def Dev.writeBlock (d : Dev) (c : Coll) (x : VecCtx) (b : Binding) (i n : Nat) : Dev :=
  let d := d.writeUndo b i true
  let w := x.words 0x400
  let d := d.store (b.masterAt i) w
  let d := (List.range b.slots).foldl (fun d j => d.store (b.stateAt j i) (x.words (0x800 + 0x400 * j))) d
  let r := d.narrowOf b i ((List.range 256).map (fun e => leAt w (4 * e) 4))
  let d := d.putNarrow b i r.1
  let d := (d.bumpSat Reg.UPD_CONV.OVF (r.2.filter (·.ovf)).length).bumpSat Reg.UPD_CONV.NONFINITE (r.2.filter (·.nonfin)).length
  (d.bump Reg.UPD_BLOCKS.COUNT 1).modColl c.key (fun c => c.blockBack n r.1)

/-- A frozen block returns its narrow bytes as they stand (R304). -/
def Dev.returnFrozen (d : Dev) (c : Coll) (b : Binding) (i n : Nat) : Dev :=
  match d.rangeErr (b.narrowRanges i) with
  | some e => d.blockErr c e
  | none => (d.bump Reg.UPD_FROZEN.COUNT 1).modColl c.key (fun c => c.blockBack n (d.narrowBytes b i))

/-- A received block is written at its place, with a narrow-only undo record (R297, R305). -/
def Dev.takeBlock (d : Dev) (c : Coll) (n : Nat) (l : List Byte) : Dev :=
  match d.collBlock c n with
  | none => d
  | some (b, i) =>
    match d.rangeErr (b.narrowRanges i) with
    | some e => d.blockErr c e
    | none => (d.writeUndo b i false).putNarrow b i l

/-- An update program stops: the collective is poisoned, with the instruction's number (R310). -/
def Dev.blockStop (d : Dev) (k : Nat) (st : Status) (pc : Nat) : Dev :=
  let d := d.bumpSat Reg.UPD_FAULTS.STOPS 1
  match (Tab.get none d.upd.running k).bind (fun j => d.coll? j.key) with
  | none => (d.clearRun k).nextBlock k
  | some c => (((d.clearRun k).poisonColl c 0 0 ⟨st, { Detail.none with vinstr := pc }⟩)).nextBlock k

/-- A block goes back to be dispatched again, with an error more (R310). -/
def Dev.blockAgain (d : Dev) (j : BlkJob) (errs : Nat) : Dev :=
  d.modColl j.key (fun c => { c with
    blocks := Tab.set .fresh c.blocks j.block .fresh
    faults := Tab.set 0 c.faults j.block (Tab.get 0 c.faults j.block + errs) })

/-- An update core leaves service until reset; the fourth sets its reason (R311). -/
def Dev.retireUpd (d : Dev) (k : Nat) : Dev :=
  let d := (d.setFldBit Reg.UPD_CORES.IN_SERVICE k false).bump Reg.UPD_FAULTS.RETIRED 1
  let d : Dev := { d with upd := { d.upd with retireSeq := d.flt.seq } }
  let d := d.record (.mk1 9 2 k (leBytes 1 d.updCoresUp))
  let d := if d.fld Reg.UPD_FAULTS.RETIRED = 4 then d.setReason 7 else d
  d.refreshFlags

/-- No update core remains: every collective that updates completes with DEVICE_FAULT (R311).
DESIGN CHOICE (log entry 30). -/
def Dev.noUpdCores (d : Dev) : Dev :=
  if d.updCoresUp = 0 then
    (d.car.colls.filter (·.update)).foldl (fun d c => d.poisonColl c 0 0 ⟨.deviceFault, Detail.auxed d.upd.retireSeq⟩) d
  else d

/-- An error in an update core (R310): its blocks are dispatched again, the core is retired; the second error of a block
poisons the collective. -/
def Dev.updFault (d : Dev) (k : Nat) : Dev :=
  let run := Tab.get none d.upd.running k
  let wait := Tab.get none d.upd.next k
  let d := ((d.bumpSat Reg.UPD_FAULTS.CORE_FAULTS 1).clearRun k).retireUpd k
  let d : Dev := { d with upd := { d.upd with next := Tab.set none d.upd.next k none } }
  let d := match wait with | some j => d.blockAgain j 0 | none => d
  let d := match run with
    | none => d
    | some j =>
      let d := d.blockAgain j 1
      match d.coll? j.key with
      | none => d
      | some c => if 2 ≤ Tab.get 0 c.faults j.block then d.poisonColl c 0 0 ⟨.deviceFault, Detail.auxed d.upd.retireSeq⟩ else d
  d.noUpdCores

end Sys2Proof.Machine
end

