-- ==== Sys2Proof/Machine/CarOps.lean ====
section
/-! DEFINITION. Carousel at work: the count exchange, the data phase with its chunks and grants, and the good end of a collective (R275 to R287). -/

namespace Sys2Proof.Machine

/-! ### The count exchange (R275 to R277) -/

/-- The digest of R275. -/
def Coll.digest (c : Coll) : Nat :=
  crc32c (leBytes 1 (c.kind + 16 * c.rop) ++ leBytes 1 (c.dfmt + 16 * c.wfmt) ++ leBytes 4 c.tag ++
    leBytes 1 (c.flags / 2 * 2) ++ [0] ++ leBytes 2 c.layer ++ [0, 0] ++ leBytes 4 c.n ++
    leBytes 4 (crc32c ((c.members.map (leBytes 2)).flatten)))

/-- Numbers in ascending order. -/
def sortNat (l : List Nat) : List Nat :=
  l.foldr (fun a r => r.takeWhile (· < a) ++ a :: r.dropWhile (· < a)) []

/-- Consecutive ranks in runs of at most 340: first rank and number. -/
def rankRuns : List Nat → List (Nat × Nat)
  | [] => []
  | r :: rest =>
    match rankRuns rest with
    | (f, n) :: t => if f = r + 1 && n < 340 then (r, n + 1) :: t else (r, 1) :: (f, n) :: t
    | [] => [(r, 1)]

/-- The payload of an exchange packet (R276). -/
def Coll.exPayload (c : Coll) (code first n : Nat) : List Byte :=
  leBytes 4 c.tag ++ leBytes 2 c.group ++ leBytes 1 code ++ [0] ++ leBytes 4 first ++ leBytes 4 n ++
    ((List.range n).map (fun i =>
      let r := Tab.get (0, 0, 0) c.recs (first + i)
      leBytes 4 r.1 ++ leBytes 4 r.2.1 ++ leBytes 4 r.2.2)).flatten

/-- A round of the exchange is sent: each of its packets waits for its acknowledgement. -/
def Dev.exSend (d : Dev) (c : Coll) (code q : Nat) (ranks : List Nat) : Dev :=
  let d := d.modColl c.key (fun c => { c with sentRounds := code :: c.sentRounds })
  (rankRuns (sortNat ranks)).foldl (fun d r =>
    let p := d.mkPkt 3 true 0x20 (c.members.getD q 0xFFFF) 0 (c.tag % 65536) (c.exPayload code r.1 r.2)
    let d : Dev := { d with car := { d.car with sends := d.car.sends ++ [⟨c.key, p.dst, p, d.clk⟩] } }
    d.carSend c.key p) d

/-- The records of a round of the exchange have all come. -/
def Coll.roundIn (c : Coll) (code : Nat) : Bool :=
  match recvOf true c.n code c.rank with
  | none => true
  | some e => e.2.all (fun r => c.got.contains (code, r))

/-- The next round that can be sent: every earlier round's records are here. -/
def Coll.nextRound (c : Coll) : Option (Nat × Nat × List Nat) :=
  let rs := roundsOf 2 c.n
  ((List.range rs.length).findSome? (fun i =>
    let code := rs.getD i 0
    match sendOf true c.n code c.rank with
    | none => none
    | some e => if !c.sentRounds.contains code && (rs.take i).all c.roundIn then some (code, e) else none))

/-- Rounds are sent as long as one can be. -/
def Dev.exPump (k : Nat × Nat) : Nat → Dev → Dev
  | 0, d => d
  | n + 1, d =>
    match d.coll? k with
    | none => d
    | some c =>
      match c.nextRound with
      | none => d
      | some e => Dev.exPump k n (d.exSend c e.1 e.2.1 e.2.2)

/-- Every round has been sent and received. -/
def Coll.exDone (c : Coll) : Bool :=
  (roundsOf 2 c.n).all (fun code => c.roundIn code &&
    (c.sentRounds.contains code || (sendOf true c.n code c.rank).isNone))

/-- A received record; of two that differ, one with another digest than this member's is kept. -/
def Coll.putRec (c : Coll) (code rank : Nat) (r : Nat × Nat × Nat) : Coll :=
  let had := c.recs.any (fun e => e.1 = rank)
  let keep := had && (Tab.get (0, 0, 0) c.recs rank).2.2 != c.digest
  { c with
    recs := if keep then c.recs else Tab.insert (Tab.erase c.recs rank) rank r
    got := if c.got.contains (code, rank) then c.got else (code, rank) :: c.got }

/-- The records of an exchange packet from the partner of its round are merged. -/
def Coll.mergeRecs (c : Coll) (p : Packet) : Coll :=
  let code := leAt p.payload 6 1
  let first := leAt p.payload 8 4
  match recvOf true c.n code c.rank with
  | none => c
  | some e =>
    if (roundsOf 2 c.n).contains code && c.members.getD e.1 0xFFFF = p.src then
      (List.range (min 340 (leAt p.payload 12 4))).foldl (fun c i =>
        if e.2.contains (first + i) then
          c.putRec code (first + i) (leAt p.payload (16 + 12 * i) 4, leAt p.payload (20 + 12 * i) 4, leAt p.payload (24 + 12 * i) 4)
        else c) c
    else c

/-- The result count of a member (R277). -/
def Coll.resultCount (c : Coll) (r : Nat) : Nat :=
  if c.kind = 0 then c.count
  else if c.kind = 1 then (c.segAt r).2
  else if c.kind = 2 then ((List.range c.n).map c.countOf).sum
  else if c.kind = 3 then c.countOf 0
  else if r = 0 then c.countOf 0 else 0

/-- The checks of R277; an end, or none when the data phase begins. -/
def Coll.exVerdict (c : Coll) : Option Ending :=
  let rs := List.range c.n
  let rec' := fun r => Tab.get (0, 0, 0) c.recs r
  if rs.any (fun r => (rec' r).2.2 != c.digest) then some (Ending.bad 26)
  else if c.reducing && rs.any (fun r => c.countOf r != c.count) then some (Ending.bad 48)
  else if rs.any (fun r => (rec' r).2.1 < c.resultCount r) then some ⟨.countExceeds, Detail.auxed c.group⟩
  else if rs.all (fun r => c.resultCount r = 0) then some (Ending.plain .done)
  else none

/-! ### Transfers (R279, R280, R284) -/

/-- Data of a round crosses in WIRE_FMT: the fold and halving of the reducing kinds. -/
def Coll.wired (c : Coll) (code : Nat) : Bool := c.reducing && code < 0x40

/-- Bytes of a segment as a round carries it. -/
def Dev.segLen (d : Dev) (c : Coll) (code s : Nat) : Nat :=
  if c.wired code then fmtBytes c.wfmt (c.segAt s).2
  else if c.update then
    (c.segBlocks s).foldl (fun n k => n + (match d.collBlock c k with | some e => e.1.backLen | none => 0)) 0
  else fmtBytes c.dfmt (c.segAt s).2

/-- The chunks of a transfer. -/
def Dev.chunksOf (d : Dev) (c : Coll) (code : Nat) (segs : List Nat) : List Chunk :=
  (segs.map (fun s => cutSeg d.chunkBytes s 0 (d.segLen c code s))).flatten

/-- Bytes before chunk i of a transfer. -/
def offBefore (l : List Chunk) (i : Nat) : Nat := (l.take i).foldl (fun n k => n + k.len) 0

/-- The transfers that come in to a member. -/
def Dev.insOf (d : Dev) (c : Coll) : List InXfer :=
  (roundsOf c.kind c.n).filterMap (fun code =>
    (recvOf (c.kind = 2) c.n code c.rank).map (fun e => ⟨code, e.1, d.chunksOf c code e.2, 0, 0, [], []⟩))

/-- The transfers that go out; a limit granted before the data phase stands. -/
def Dev.outsOf (d : Dev) (c : Coll) : List OutXfer :=
  (roundsOf c.kind c.n).filterMap (fun code =>
    (sendOf (c.kind = 2) c.n code c.rank).map (fun e =>
      let l := d.chunksOf c code e.2
      let early := ((c.outs.find? (fun o => o.round = code && o.dst = e.1)).map (·.upto)).getD 0
      ⟨code, e.1, l, early, 0, l.isEmpty⟩))

/-- First element and number of elements of a chunk of the reduce phase. -/
def Coll.chunkElems (c : Coll) (k : Chunk) : Nat × Nat :=
  let w := fmtBits c.wfmt / 8
  ((c.segAt k.seg).1 + k.off / w, k.len / w)

/-- A combination of some of the elements, in a round before the code given, is still to come. -/
def Coll.awaits (c : Coll) (code a n : Nat) : Bool :=
  c.ins.any (fun x => c.wired x.round && x.round < code &&
    (x.chunks.drop x.consumed).any (fun k => overlaps (c.chunkElems k).1 (c.chunkElems k).2 a n))

/-- A chunk can be sent: its elements have had their combinations, or its bytes are final here (R286). -/
def Coll.chunkReady (c : Coll) (code : Nat) (k : Chunk) : Bool :=
  if c.wired code then !c.awaits code (c.chunkElems k).1 (c.chunkElems k).2
  else k.off + k.len ≤ (Tab.get [] c.segs k.seg).length

/-- The data bytes and scale bytes of a chunk, and what its conversion counts. -/
def Coll.chunkData (c : Coll) (key code : Nat) (k : Chunk) : List Byte × List Byte × Nat × Nat :=
  if c.wired code then
    c.encode key c.wfmt (c.rank + 1) (c.chunkElems k).1 ((c.vals.drop (c.chunkElems k).1).take (c.chunkElems k).2)
  else (slice (Tab.get [] c.segs k.seg) k.off k.len, [], 0, 0)

/-- Data packets of at most 4,096 bytes: offset within the chunk, and payload. -/
def dataPieces (l : List Byte) : List (Nat × List Byte) :=
  (List.range (ceilDiv l.length 4096)).map (fun i => (4096 * i, (l.drop (4096 * i)).take 4096))

/-- The payload of a chunk end (R285). -/
def chunkEndBody (tag code num : Nat) (data scales : List Byte) : List Byte :=
  leBytes 4 tag ++ leBytes 1 code ++ leBytes 1 (if scales.isEmpty then 0 else 1) ++ [0, 0] ++ leBytes 4 num ++
    leBytes 4 (crc32c (data ++ scales)) ++ scales

/-- A chunk is sent: its data packets, then its end. -/
def Dev.sendChunk (d : Dev) (c : Coll) (o : OutXfer) (k : Chunk) : Dev :=
  let r := c.chunkData (d.fld Reg.ARR_SR_KEY.KEY) o.round k
  let base := offBefore o.chunks o.sent
  let dst := c.members.getD o.dst 0xFFFF
  let d := (d.carConv r.2.2.1 r.2.2.2).bump Reg.CAR_BYTES_OUT.COUNT (r.1.length + r.2.1.length)
  let d := d.modColl c.key (fun c => { c with
    outs := c.outs.map (fun x => if x.round = o.round then { x with sent := x.sent + 1 } else x) })
  let d := (dataPieces r.1).foldl (fun d p =>
    d.carSend c.key (d.mkPkt 2 true 0x10 dst (o.round * 2 ^ 32 + base + p.1) (c.tag % 65536) p.2)) d
  d.carSend c.key (d.mkPkt 2 true 0x11 dst 0 (c.tag % 65536) (chunkEndBody c.tag o.round o.sent r.1 r.2.1))

/-- A grant to the sender of a transfer (R286). -/
def Dev.sendGrant (d : Dev) (c : Coll) (x : InXfer) (upto : Nat) : Dev :=
  d.carSend c.key (d.mkPkt 2 true 0x12 (c.members.getD x.src 0xFFFF) 0 (c.tag % 65536)
    (leBytes 4 c.tag ++ leBytes 1 x.round ++ [0, 0, 0] ++ leBytes 4 upto))

/-- A transfer that comes in, changed. -/
def Coll.modIn (c : Coll) (code : Nat) (f : InXfer → InXfer) : Coll :=
  { c with ins := c.ins.map (fun x => if x.round = code then f x else x) }

/-- The window of R286: CAR_CFG.WINDOW, 0 acts as 1, above 16 as 16. -/
def Dev.carWindow (d : Dev) : Nat := clampNat 1 16 (d.fld Reg.CAR_CFG.WINDOW)

/-- Chunks granted and not consumed. -/
def Coll.granted (c : Coll) : Nat := c.ins.foldl (fun n x => n + (min x.granted x.chunks.length - x.consumed)) 0

/-- Partials of n elements from e on are read from RECV: one that cannot be read ends the collective (R288). -/
def Dev.withPartials (d : Dev) (c : Coll) (e n : Nat) (f : Dev) : Dev :=
  match d.badRange (partialsAt c.recv e n) with
  | some a => d.collFault c a
  | none => f

/-! ### Consuming a chunk (R281, R286, R297) -/

/-- A chunk that has come whole can be consumed: earlier rounds' combinations of its elements are made. -/
def Coll.consumable (c : Coll) (x : InXfer) : Bool :=
  match x.whole, (x.chunks.drop x.consumed).head? with
  | _ :: _, some k => if c.wired x.round then !c.awaits x.round (c.chunkElems k).1 (c.chunkElems k).2 else c.conv
  | _, _ => false

/-- Values from element a on combined with incoming ones. -/
def Coll.combineAt (c : Coll) (a : Nat) (l : List Nat) : Coll :=
  { c with vals := c.vals.take a ++ List.zipWith (combine c.rop (c.dfmt = 0xE)) ((c.vals.drop a).take l.length) l ++
      c.vals.drop (a + l.length) }

/-- Blocks of a segment with the byte at which each begins. -/
def Dev.blockSpans (d : Dev) (c : Coll) : Nat → List Nat → List (Nat × Nat × Nat)
  | _, [] => []
  | a, k :: r =>
    let n := match d.collBlock c k with | some e => e.1.backLen | none => 0
    (k, a, n) :: d.blockSpans c (a + n) r

/-- The blocks that bytes [off, off + len) of a segment complete are written (R297). -/
def Dev.takeBlocks (d : Dev) (c : Coll) (s off len : Nat) (seg : List Byte) : Dev :=
  (d.blockSpans c 0 (c.segBlocks s)).foldl (fun d b =>
    if off < b.2.1 + b.2.2 && b.2.1 + b.2.2 ≤ off + len then
      (match d.coll? c.key with
       | some c => d.takeBlock c b.1 (slice seg b.2.1 b.2.2)
       | none => d)
    else d) d

/-- The first chunk of a transfer is taken: combined, or written or handed on; the last one is granted finally. -/
def Dev.takeChunk (d : Dev) (c : Coll) (x : InXfer) : Dev :=
  match x.whole, (x.chunks.drop x.consumed).head? with
  | sc :: rest, some k =>
    let data := x.bytes.take k.len
    let x' : InXfer := { x with consumed := x.consumed + 1, bytes := x.bytes.drop k.len, whole := rest }
    let d := (d.bump Reg.CAR_BYTES_IN.COUNT (k.len + sc.length)).modColl c.key (fun c => c.modIn x.round (fun _ => x'))
    let d :=
      if c.wired x.round then
        d.modColl c.key (fun c => c.combineAt (c.chunkElems k).1 (widen c.wfmt data sc (c.chunkElems k).2))
      else
        let seg := Tab.get [] c.segs k.seg ++ data
        let d := d.modColl c.key (fun c => { c with segs := Tab.set [] c.segs k.seg seg })
        if c.update then d.takeBlocks c k.seg k.off k.len seg else d
    if x'.consumed = x'.chunks.length then d.sendGrant c x' x'.consumed else d
  | _, _ => d

/-- The first chunk of a transfer is consumed, once the partials it meets have been read. -/
def Dev.consume (d : Dev) (c : Coll) (x : InXfer) : Dev :=
  match (x.chunks.drop x.consumed).head? with
  | some k =>
    if c.wired x.round then d.withPartials c (c.chunkElems k).1 (c.chunkElems k).2 (d.takeChunk c x) else d.takeChunk c x
  | none => d

/-- A chunk is sent, once the partials it is made of have been read. -/
def Dev.readAndSend (d : Dev) (c : Coll) (o : OutXfer) (k : Chunk) : Dev :=
  if c.wired o.round then d.withPartials c (c.chunkElems k).1 (c.chunkElems k).2 (d.sendChunk c o k) else d.sendChunk c o k

/-! ### Finished segments and blocks (R280, R298, R304) -/

/-- Every combination of the segments that a member owns is made. -/
def Coll.reduced (c : Coll) : Bool := c.owned.all (fun s => !c.awaits 0x40 (c.segAt s).1 (c.segAt s).2)

/-- The owner converts its finished segments to DATA_FMT. -/
def Dev.convertSegs (d : Dev) (c : Coll) : Dev :=
  let key := d.fld Reg.ARR_SR_KEY.KEY
  let d := d.modColl c.key (fun c => { c with conv := true })
  c.owned.foldl (fun d s =>
    let r := c.encode key c.dfmt 0 (c.segAt s).1 ((c.vals.drop (c.segAt s).1).take (c.segAt s).2)
    (d.carConv r.2.2.1 r.2.2.2).modColl c.key (fun c => { c with segs := Tab.set [] c.segs s r.1 })) d

/-- The owner reads and converts its finished segments. -/
def Dev.convertOwn (d : Dev) (c : Coll) : Dev :=
  match d.badRange ((c.owned.map (fun s => partialsAt c.recv (c.segAt s).1 (c.segAt s).2)).flatten) with
  | some a => d.collFault c a
  | none => d.convertSegs c

/-- A block of the buffer that its owner has not dispatched, with every halving addition made (R298). -/
def Coll.blockDue (c : Coll) (k : Nat) : Bool := c.blk k = .fresh && !c.awaits 0x40 (256 * k) 256

/-- The lowest ready block that is, or is not, frozen. -/
def Dev.dueBlock (d : Dev) (c : Coll) (frozen : Bool) : Option (Nat × Binding × Nat) :=
  if !(c.update && c.data) then none
  else (sortNat c.ownBlocks).findSome? (fun k =>
    match d.collBlock c k with
    | some (b, i) => if c.blockDue k && d.isFrozen b i = frozen then some (k, b, i) else none
    | none => none)

/-! ### The end of a good collective (R272, R287) -/

/-- The result elements, packed in DATA_FMT. -/
def Coll.result (c : Coll) : List Byte :=
  if c.update then []
  else if c.kind = 1 then Tab.get [] c.segs c.rank
  else if c.kind = 4 && c.rank != 0 then []
  else ((List.range c.n).map (Tab.get [] c.segs)).flatten

/-- Packed elements written over buffers, in order. -/
def Dev.putBufs (f : Nat) : List (Nat × Nat) → List Byte → Dev → Dev
  | [], _, d => d
  | b :: r, l, d =>
    let n := fmtBytes f b.2
    let here := l.take n
    Dev.putBufs f r (l.drop n) (if here.isEmpty then d else d.store b.1 here)

/-- Every transfer has ended, every own segment is converted, every block has come back. -/
def Coll.overs (c : Coll) : Bool :=
  c.data && c.conv && c.outs.all (·.final) && c.ins.all (fun x => x.consumed = x.chunks.length) &&
    (!c.update || c.ownBlocks.all (fun k => match c.blk k with | .back _ => true | _ => false))

/-- A collective completes with its results visible. -/
def Dev.collDone (d : Dev) (c : Coll) : Dev :=
  match d.badRange (firstBytes c.recvRanges c.result.length) with
  | some a => d.collFault c a
  | none =>
    let d := d.scrambleSet c.recvRanges
    let d := Dev.putBufs c.dfmt c.recv c.result d
    let f := if c.update then d.frozenIn c else 0
    d.finishColl c (if f = 0 then Ending.plain .done else ⟨.doneNote, { Detail.auxed f with note := 2 }⟩)

/-! ### The data phase -/

/-- One thing that a collective can do now; none when it waits. -/
def Dev.collAct (d : Dev) (c : Coll) : Option Dev :=
  match c.ins.find? c.consumable with
  | some x => some (d.consume c x)
  | none =>
    if !c.conv && c.reduced then some (d.convertOwn c)
    else match d.dueBlock c true with
      | some (k, b, i) => some (d.returnFrozen c b i k)
      | none =>
        let room := c.granted < d.carWindow
        match c.ins.find? (fun x => room && x.granted < x.chunks.length && (c.wired x.round || c.conv)) with
        | some x =>
          let d := d.modColl c.key (fun c => c.modIn x.round (fun x => { x with granted := x.granted + 1 }))
          some (d.sendGrant c x (x.granted + 1))
        | none =>
          match c.outs.find? (fun o => o.sent < o.upto && (match (o.chunks.drop o.sent).head? with
            | some k => c.chunkReady o.round k
            | none => false)) with
          | some o =>
            (match (o.chunks.drop o.sent).head? with
             | some k => some (d.readAndSend c o k)
             | none => none)
          | none => if c.overs then some (d.collDone c) else none

/-- A collective does what it can. -/
def Dev.collPump (k : Nat × Nat) : Nat → Dev → Dev
  | 0, d => d
  | n + 1, d =>
    match d.coll? k with
    | none => d
    | some c =>
      if !c.data then d
      else match d.collAct c with
        | some d => Dev.collPump k n d
        | none => d

/-- Things that a collective can still do, at most. -/
def Coll.work (c : Coll) : Nat :=
  2 * (c.ins.foldl (fun n x => n + x.chunks.length) 0) + c.outs.foldl (fun n o => n + o.chunks.length) 0 +
    c.ownBlocks.length + 4

/-- A collective does everything it can. -/
def Dev.pumpColl (d : Dev) (k : Nat × Nat) : Dev :=
  match d.coll? k with
  | some c => Dev.collPump k c.work d
  | none => d

/-- The ranges that a member's SEND holds. -/
def Coll.sendRanges (c : Coll) : List (Nat × Nat) :=
  if c.kind = 3 && c.rank != 0 then [] else c.send.map (fun b => (b.1, fmtBytes c.dfmt b.2))

/-- The data phase begins: SEND is read, RECV is undefined from now on, transfers are laid out (R272, R281). -/
def Dev.startData (d : Dev) (c : Coll) : Dev :=
  match d.badRange c.sendRanges with
  | some a => d.collFault c a
  | none =>
    let data := (c.sendRanges.map (fun r => d.read r.1 r.2)).flatten
    let own := fun s => slice data (fmtBytes c.dfmt (c.segAt s).1) (fmtBytes c.dfmt (c.segAt s).2)
    let d := d.scrambleSet c.recvRanges
    let d := d.modColl c.key (fun c => { c with
      data := true
      conv := !c.reducing || c.update
      vals := if c.reducing then widen c.dfmt data [] c.count else []
      segs := if c.reducing then []
        else if c.kind = 2 then Tab.set [] [] c.rank data
        else if c.rank = 0 then (List.range c.n).foldl (fun t s => Tab.set [] t s (own s)) [] else []
      ins := d.insOf c
      outs := d.outsOf c })
    d.pumpColl c.key

/-- The exchange goes on, and ends when it can (R277). -/
def Dev.exStep (d : Dev) (k : Nat × Nat) : Dev :=
  let d := match d.coll? k with
    | some c => Dev.exPump k (roundsOf 2 c.n).length d
    | none => d
  match d.coll? k with
  | none => d
  | some c =>
    if c.data || !c.exDone then d
    else match c.exVerdict with
      | none => d.startData c
      | some e => if e.st.good then d.finishColl c e else (d.bumpSat Reg.CAR_OUTCOMES.EXCHANGE 1).finishColl c e

/-- A collective takes a slot and starts its exchange (R273, R275). -/
def Dev.takeSlot (d : Dev) (c : Coll) (slot : Nat) : Dev :=
  (d.modColl c.key (fun c => { c with slot := some slot, last := d.clk })).exStep c.key

/-- The lowest free slot. -/
def Dev.freeSlot (d : Dev) : Option Nat :=
  (List.range 16).find? (fun i => !d.car.colls.any (fun c => c.slot = some i))

/-- The collective that takes the next slot: the first in the queue. -/
def Dev.nextQueued (d : Dev) : Option Coll := d.car.colls.find? (fun c => c.slot.isNone)

end Sys2Proof.Machine
end

