-- ==== Sys2Proof/Machine/Host.lean ====
section
/-! DEFINITION. The host interface: doorbells, descriptors that need no other chapter, MSI-X, the PCIe link, and the RUN descriptor (R171 to R192, R196 to R199, R449). -/

namespace Sys2Proof.Machine

/-- A ring's number. -/
def ringOk (r : Nat) : Bool := r < 16

/-! ### Doorbells (R177 to R179) -/

/-- A tail is valid: not behind the head, at most the ring's size ahead of it (R177). -/
def Dev.tailOk (d : Dev) (r t : Nat) : Bool :=
  (t + 2 ^ 32 - (d.ring r).head) % 2 ^ 32 ≤ ringSize (d.fld (Reg.HQ_SQ_CFG.LOG2_SIZE r))

/-- A tail and a head of completion records are read (R177); an invalid tail is counted once. -/
def Dev.readDoorbell (d : Dev) (r tail cq : Nat) : Dev :=
  let x := d.ring r
  if d.tailOk r tail then d.setRing r { x with tail := tail, lastBad := none, cqHead := cq }
  else if x.lastBad = some tail then d.setRing r { x with cqHead := cq }
  else (d.setRing r { x with lastBad := some tail, cqHead := cq }).bumpSat (Reg.HQ_RING_STATUS.BAD_TAIL r) 1

/-- The host address of submission entry i of a ring. -/
def Dev.sqAddr (d : Dev) (r i : Nat) : Nat :=
  d.fld (Reg.HQ_SQ_BASE.ADDR r) / 0x1000 * 0x1000 + 64 * (i % ringSize (d.fld (Reg.HQ_SQ_CFG.LOG2_SIZE r)))

/-- Descriptors are fetched up to the tail, at most n; a host error ends the fetch.
DESIGN CHOICE and DEDUCED (log entry 12). -/
def Dev.fetch (r : Nat) : Nat → Dev → Dev
  | 0, d => d
  | n + 1, d =>
    let x := d.ring r
    if x.head = x.tail || d.hostErrIn (d.sqAddr r x.head) 64 then d
    else
      let j : Desc := ⟨r, x.head, d.hostRead (d.sqAddr r x.head) 64, d.clk⟩
      Dev.fetch r n (d.setRing r { x with fetched := x.fetched ++ [j], head := (x.head + 1) % 2 ^ 32 })

/-- The rings in use. -/
def Dev.ringsOn (d : Dev) : List Nat := (List.range 16).filter d.ringOn

/-- The 64 bytes of the status line (R179). -/
def Dev.statusLine (d : Dev) : List Byte := ((List.range 16).map (fun r => leBytes 4 (d.ring r).head)).flatten

/-- One read of the doorbell area: tails and heads, fetches, the status line, held records, the next interval (R178,
R179, R182). DESIGN CHOICE and DEDUCED (log entry 12). -/
def Dev.poll (d : Dev) : Dev :=
  let a := d.fld Reg.HQ_DB_ADDR.ADDR / 128 * 128
  let l := d.hostRead a 128
  let old := d.ringsOn.map d.ring
  let d := if d.hostErrIn a 128 then d
    else d.ringsOn.foldl (fun d r => d.readDoorbell r (leAt l (4 * r) 4) (leAt l (64 + 4 * r) 4)) d
  let moved := (d.ringsOn.map d.ring).zip old |>.any (fun e => e.1.tail != e.2.tail || e.1.cqHead != e.2.cqHead)
  let d := d.ringsOn.foldl (fun d r => Dev.fetch r (16 - (d.ring r).fetched.length) d) d
  let d := if (d.ringsOn.map d.ring).zip old |>.any (fun e => e.1.head != e.2.head) then
    d.hostWrite (d.fld Reg.HQ_STATUS_ADDR.ADDR / 64 * 64) d.statusLine else d
  let d : Dev := { d with hq := { d.hq with interval := if moved then d.pollMin else min (2 * d.hq.interval) d.pollMax } }
  d.ringsOn.foldl (fun d r => Dev.flushHeld r 64 d) d

/-- DOORBELL_POLL: the device reads the doorbell area as the host has it now (R178). -/
def execDoorbellPoll (c : HostChange) (s : State) : Host.Outcome State Fault Refusal :=
  s.run true (s.dev.up && s.dev.polls) (fun d => (d.hostChange c).poll)

/-! ### Waiting and undefined descriptors -/

/-- The opcodes of R181. -/
def opcDefined (o : Nat) : Bool :=
  [0x01, 0x02, 0x10, 0x20, 0x30, 0x31, 0x40, 0x50, 0x51, 0x60, 0x70, 0x71, 0x80, 0x90, 0xA0, 0xA1, 0xB0, 0xB1, 0xC0,
    0xC1, 0xD0, 0xD1, 0xD2, 0xE0].contains o

/-- DESC_UNDEFINED: the head of a ring has an undefined opcode (R183 step 1). -/
def execDescUndefined (r : Nat) (s : State) : Host.Outcome State Fault Refusal :=
  s.run (ringOk r) (s.dev.descDue r (fun j => !opcDefined j.opc)) (fun d =>
    d.startDesc r (fun _ _ => some (Ending.plain .badOpcode)) (fun d _ => d))

/-- The head of a ring has waited for its events as long as HQ_WAIT_LIMIT allows (R198).
DESIGN CHOICE and DEDUCED (log entry 12). -/
def Dev.waitOver (d : Dev) (r : Nat) : Bool :=
  match d.head? r with
  | some j => !d.waitsMet j && d.fld Reg.HQ_WAIT_LIMIT.MS != 0 && ms (d.fld Reg.HQ_WAIT_LIMIT.MS) ≤ d.clk - j.since
  | none => false

/-- The end of a descriptor whose waits stay unmet: AUX names the unmet counter (R198). -/
def Dev.waitEnding (d : Dev) (j : Desc) : Ending := ⟨.timeout, Detail.auxed (if d.wait0Met j then j.num 8 2 else j.num 2 2)⟩

/-! ### MSI-X and the PCIe link (R174, R175) -/

/-- A message waits for the end of the hold-off. -/
def Holdoff.waits (h : Holdoff) : Bool :=
  match h with
  | .waiting _ => true
  | _ => false

/-- The hold-off of a vector has lasted HQ_IRQ_HOLDOFF, in units of 100 ns. -/
def Dev.holdoffOver (d : Dev) (v : Nat) : Bool :=
  match Tab.get Holdoff.idle d.hq.holdoff v with
  | .idle => false
  | .holding t => t + 80 * d.fld Reg.HQ_IRQ_HOLDOFF.HOLDOFF ≤ d.clk
  | .waiting t => t + 80 * d.fld Reg.HQ_IRQ_HOLDOFF.HOLDOFF ≤ d.clk

/-- IRQ_HOLDOFF_EXPIRE: the hold-off of a vector ends, and completions that waited share one message (R175). -/
def execIrqHoldoffExpire (v : Nat) (s : State) : Host.Outcome State Fault Refusal :=
  s.run (v < 256) (s.dev.holdoffOver v) (fun d =>
    let waited : Bool := (Tab.get Holdoff.idle d.hq.holdoff v).waits
    let d : Dev := { d with hq := { d.hq with holdoff := Tab.set .idle d.hq.holdoff v .idle } }
    if waited then d.msix v else d)

/-- A pending message goes once its vector is no longer masked. -/
def Dev.sendPending (d : Dev) (v : Nat) : Dev :=
  if Tab.get false d.hq.pba v && !d.msixMasked v then
    ({ d with hq := { d.hq with pba := Tab.set false d.hq.pba v false } } : Dev).msix v
  else d

/-- MSIX_TABLE_WRITE: a double word of the MSI-X table is written; bits [31:1] of a vector control are reserved. -/
def execMsixTableWrite (dw v : Nat) (s : State) : Host.Outcome State Fault Refusal :=
  s.run (dw < 1024 && v < 2 ^ 32) s.dev.hq.pcieUp (fun d =>
    let x := if dw % 4 = 3 then v % 2 else if dw % 4 = 0 then v / 4 * 4 else v
    let d : Dev := { d with hq := { d.hq with msixTab := Tab.set (if dw % 4 = 3 then 1 else 0) d.hq.msixTab dw x } }
    d.sendPending (dw / 4))

/-- PCIE_LINK_RESET: hot reset, link disable, link down or D3hot (R174). -/
def execPcieLinkReset (s : State) : Host.Outcome State Fault Refusal :=
  s.run true s.dev.hq.pcieUp (fun d => d.pcieReset)

/-- The capabilities of the function (R171). -/
inductive PciCap where
  | pciExpress | powerManagement | msix | resizableBar | advancedErrors | serialNumber
  deriving DecidableEq, Repr

/-- What the function reports of itself in configuration space (R171, R172): class code, Device ID, Vendor ID, capabilities,
serial number, the largest payload and read request it takes, tag bits, reads outstanding, log2 of the least and the largest
BAR2 size, and what the host has set. -/
structure PciFunction where
  classCode : Nat
  deviceId : Nat
  vendorId : Nat
  caps : List PciCap
  serial : Nat
  maxPayload : Nat
  maxRead : Nat
  tagBits : Nat
  reads : Nat
  bar2Min : Nat
  bar2Max : Nat
  set : PcieSetup
  deriving DecidableEq, Repr

/-- The function as the host finds it (R171, R172). No command of the table reads configuration space. The spec names no
Vendor ID. DESIGN CHOICE and PRESUMED (log entry 15). -/
def Dev.pciFunction (d : Dev) : PciFunction :=
  ⟨0x1200, 0x0C28, Config.vendorId, [.pciExpress, .powerManagement, .msix, .resizableBar, .advancedErrors, .serialNumber],
    Config.deviceId % 2 ^ 64, 512, 4096, 14, 1024, 30, 40, d.hq.pcie⟩

/-- A setting of configuration space that the function and the base specification allow: BAR2 of 1 GiB to 1 TiB, payloads up
to 512 bytes, read requests up to 4,096, x8 down to x1 (R171, R172). -/
def pcieSetupOk (c : PcieSetup) : Bool :=
  30 ≤ c.bar2 && c.bar2 ≤ 40 && [128, 256, 512].contains c.mps && [128, 256, 512, 1024, 2048, 4096].contains c.mrrs &&
    1 ≤ c.gen && c.gen ≤ 7 && [1, 2, 4, 8].contains c.lanes

/-- PCIE_D0_RETURN: the function is in D0 with Bus Master Enable set, with or without MSI-X enabled, configuration space set
and the link trained; held records are written first (R171, R172, R174). -/
def execPcieD0Return (msix : Bool) (c : PcieSetup) (s : State) : Host.Outcome State Fault Refusal :=
  s.run (pcieSetupOk c) (s.dev.st != .reset && s.dev.pins.perstN) (fun d =>
    let d : Dev := { d with hq := { d.hq with pcieUp := true, busMaster := true, msixOn := msix, pcie := c } }
    let d := if d.polls then (List.range 16).foldl (fun d r => Dev.flushHeld r 64 d) d else d
    (List.range 256).foldl Dev.sendPending d)

/-! ### NOP and EVENT (R184, R192) -/

/-- NOP. -/
def execNop (r : Nat) (s : State) : Host.Outcome State Fault Refusal :=
  s.run (ringOk r) (s.dev.descDue r (fun j => j.opc = 0x01)) (fun d =>
    d.startDesc r (fun d j => firstFail [j.reserved [], d.stateCheck [.ready, .running, .quiesced]])
      (fun d j => d.finish j (Ending.plain .done)))

/-- The checks that every EVENT shares. -/
def Dev.eventCheck (d : Dev) (j : Desc) : Option Ending :=
  let read := j.fb 24 0 2 = 2
  firstFail [j.reserved [(24, 0, 2), (26, 0, 16), (28, 0, 32), (32, 0, 64)], badIf (j.fb 24 0 2 = 3) 24,
    if read then d.refCheck j 32 false true else none, d.stateCheck [.ready, .running, .quiesced],
    if read then d.lenCheck j 32 4 else none]

/-- The descriptor is an EVENT with this EOP. DESIGN CHOICE (log entry 16). -/
def isEvent (e : Nat) (j : Desc) : Bool := j.opc = 0x02 && (j.fb 24 0 2 = e || (e = 2 && j.fb 24 0 2 = 3))

/-- EVENT_ADD. -/
def execEventAdd (r : Nat) (s : State) : Host.Outcome State Fault Refusal :=
  s.run (ringOk r) (s.dev.descDue r (isEvent 0)) (fun d =>
    d.startDesc r Dev.eventCheck (fun d j => (d.evtAdd (j.num 26 2) (j.num 28 4)).finish j (Ending.plain .done)))

/-- EVENT_SET. -/
def execEventSet (r : Nat) (s : State) : Host.Outcome State Fault Refusal :=
  s.run (ringOk r) (s.dev.descDue r (isEvent 1)) (fun d =>
    d.startDesc r Dev.eventCheck (fun d j =>
      ((d.evtSet (j.num 26 2) (j.num 28 4)).bump Reg.EVT_SIGNALS.COUNT 1).finish j (Ending.plain .done)))

/-- The result of a descriptor is written where a REF names: device memory that cannot be written ends it. -/
def Dev.putResult (d : Dev) (j : Desc) (a : Nat) (l : List Byte) (go : Dev → Dev) : Dev :=
  let i := j.refIdx a
  let p := d.refAddr i (j.refOff a)
  if d.refDev i then
    (match d.accErr p l.length with
     | some (.lostCore c) => d.finish j (Ending.lost c)
     | some _ => d.finish j (Ending.bad a)
     | none => go (d.store p l))
  else go (d.hostWrite p l)

/-- EVENT_READ: the counter's value goes to DST; EOP 3 is refused (R192, R449). DESIGN CHOICE (log entry 16). -/
def execEventRead (r : Nat) (s : State) : Host.Outcome State Fault Refusal :=
  s.run (ringOk r) (s.dev.descDue r (isEvent 2)) (fun d =>
    d.startDesc r Dev.eventCheck (fun d j =>
      d.putResult j 32 (leBytes 4 (d.evtGet (j.num 26 2))) (fun d => d.finish j (Ending.plain .done))))

/-! ### RUN (R168, R192, R199) -/

/-- CORE_MASK. -/
def Desc.mask192 (j : Desc) : Nat := j.num 24 24

/-- PROG_TABLE lies in Midway SRAM or a vault with its 768 bytes. -/
def progTableOk (a : Nat) : Bool :=
  match regionOf a with
  | .vault _ o => o + 768 ≤ 0x100000000
  | .midway o => o + 768 ≤ midwaySize
  | _ => false

/-- The checks of RUN. -/
def Dev.runDescCheck (d : Dev) (j : Desc) : Option Ending :=
  firstFail [j.reserved [(24, 0, 192), (48, 0, 32), (52, 0, 40)], badIf (j.mask192 = 0) 24,
    badIf (j.num 52 5 != 0 && !progTableOk (j.num 52 5)) 52, d.stateCheck [.running],
    ((onesOf 192 j.mask192).find? d.coreGone).map Ending.lost]

/-- The header offset of each core that a RUN names. -/
def Dev.progOffsets (d : Dev) (j : Desc) : Tab Nat :=
  (onesOf 192 j.mask192).foldl
    (fun t c => Tab.set 0 t c (if j.num 52 5 = 0 then j.num 48 4 else d.readLE (j.num 52 5 + 4 * c) 4)) []

/-- A RUN joins those that wait for cores, and gets them when it can; met is the time its waits were met (R199). -/
def Dev.startRun (met : Nat) (d : Dev) (j : Desc) : Dev :=
  match (if j.num 52 5 = 0 then none else d.readErr (j.num 52 5) 768) with
  | some (.poisoned a) => (d.memFault a 2).finishStep j.key ⟨.deviceFault, Detail.auxed d.flt.seq⟩
  | some (.lostCore c) => d.finishStep j.key (Ending.lost c)
  | some .unpopulated => d.finishStep j.key (Ending.bad 52)
  | none =>
    let r : Run := ⟨j.key, j.mask192, d.progOffsets j, d.fld (Reg.HQ_SQ_CFG.PRIO j.ring), met, false, false, false, [], 0, 0,
      [], []⟩
    ({ d with runs := d.runs ++ [r] } : Dev).grantRuns

/-- RUN: the descriptor starts and waits for its cores (R192, R199). -/
def execRun (r : Nat) (s : State) : Host.Outcome State Fault Refusal :=
  s.run (ringOk r) (s.dev.descDue r (fun j => j.opc = 0x10)) (fun d =>
    d.startDesc r Dev.runDescCheck (Dev.startRun (d.metAt r)))

end Sys2Proof.Machine
end

