-- ==== Sys2Proof/Machine/Carousel.lean ====
section
/-! DEFINITION. The commands of Carousel: COLL and COLL_GROUP descriptors, slots, the exchange, chunks and grants, notices, watchdog (R267 to R291). -/

namespace Sys2Proof.Machine

/-! ### The checks of a COLL (R183, R269, R270, R296) -/

/-- KIND. -/
def Desc.kind (j : Desc) : Nat := j.fb 26 0 4
/-- ROP. -/
def Desc.rop (j : Desc) : Nat := j.fb 26 4 4
/-- DATA_FMT. -/
def Desc.dfmt (j : Desc) : Nat := j.fb 27 0 4
/-- WIRE_FMT. -/
def Desc.wfmt (j : Desc) : Nat := j.fb 27 4 4
/-- A reducing kind. -/
def Desc.reducing (j : Desc) : Bool := j.kind ≤ 1 || j.kind = 4
/-- FUSED. -/
def Desc.fused (j : Desc) : Bool := j.fb 56 0 1 = 1

/-- The members of the group that a COLL names. -/
def Dev.collMembers (d : Dev) (j : Desc) : List Nat := d.group (j.num 24 2)

/-- A broadcast's member that sends nothing: SEND and COUNT are ignored (R269). -/
def Dev.ignoresSend (d : Dev) (j : Desc) : Bool := j.kind = 3 && rankIn d.selfId (d.collMembers j) != 0

/-- Formats allowed by R270. -/
def fmtsOk (reducing : Bool) (f w : Nat) : Bool :=
  if reducing then (f ≤ 3 && w ≤ 5) || (f = 0xE && w = 0xE) else f != 0xF && w = f

/-- An integer DATA_FMT. -/
def intFmt (f : Nat) : Bool := f = 0xE || (9 ≤ f && f ≤ 0xB)

/-- A REF of a COLL names device memory with the access needed, a fusion list memory that can be read. -/
def Dev.collRefBad (d : Dev) (j : Desc) (a : Nat) (rd wr : Bool) : Bool :=
  if j.fused then !d.refOk (j.refIdx a) true false
  else !d.refOk (j.refIdx a) rd wr || !d.refDev (j.refIdx a)

/-- Bytes of RECV that are checked for a number of elements (R272). -/
def Desc.recvBytes (j : Desc) (n : Nat) : Nat := if j.reducing then 4 * n else fmtBytes j.dfmt n

/-- Elements that the region check of an unfused RECV covers. -/
def Desc.recvElems (j : Desc) : Nat := if j.reducing then j.num 48 4 else j.num 52 4

/-- The checks of a COLL before its lists are read. -/
def Dev.collCheck (d : Dev) (j : Desc) : Option Ending :=
  let skip := d.ignoresSend j
  let upd := j.fb 56 1 1 = 1
  let layer := d.layerGroup (j.num 57 2)
  let cp := layer.foldl (fun n b => n + b.cp) 0
  let n := (d.collMembers j).length
  let odd := fun a => j.dfmt < 0xF && fmtBits j.dfmt < 8 && j.num a 4 % 4 != 0
  firstFail [
    j.reserved [(24, 0, 10), (26, 0, 8), (27, 0, 8), (28, 0, 32), (32, 0, 64), (40, 0, 64), (48, 0, 32), (52, 0, 32),
      (56, 0, 3), (57, 0, 12)],
    badIf (!(d.collMembers j).contains d.selfId) 24,
    badIf (4 < j.kind || 2 < j.rop || (!j.reducing && j.rop != 0)) 26,
    badIf (!fmtsOk j.reducing j.dfmt j.wfmt) 27,
    badIf (d.car.colls.any (fun c => c.tag % 65536 = j.num 28 2)) 28,
    badIf (!skip && d.collRefBad j 32 true false) 32,
    badIf (d.collRefBad j 40 j.reducing true) 40,
    badIf (!skip && odd 48) 48,
    badIf (odd 52) 52,
    badIf (upd && (j.kind != 0 || j.rop != 0 || intFmt j.dfmt)) 56,
    badIf (j.fb 56 2 1 = 1 && intFmt j.dfmt) 56,
    badIf (upd && layer.isEmpty) 57,
    badIf (upd && (j.num 48 4 != cp || j.num 48 4 % (256 * n) != 0)) 48,
    d.stateCheck [.running],
    if j.fused || skip then none else d.lenCheck j 32 (fmtBytes j.dfmt (j.num 48 4)),
    if j.fused then none else d.lenCheck j 40 (j.recvBytes j.recvElems)]

/-! ### Fusion lists (R271) -/

/-- What reading a list gives: its entries, or how the descriptor ends. -/
abbrev ListRes := (Dev → Dev) ⊕ List (List Byte)

/-- The region check of a list's entry (R183 step 4, R271); an entry whose REF names no region fails later. -/
def Dev.fusionLen (d : Dev) (j : Desc) (a : Nat) (send : Bool) (e : List Byte) : Option Ending :=
  let i := leAt e 0 2
  let bytes := if send then fmtBytes j.dfmt (leAt e 8 4) else j.recvBytes (leAt e 8 4)
  failIf (d.refOk i false false && d.fld (Reg.HQ_REGION_LEN.LEN i) < leAt e 2 6 + bytes)
    ⟨.lengthExceeds, { Detail.field a with aux := i }⟩

/-- An entry of a list whose content breaks R269 to R271 (R183 step 5). -/
def Dev.fusionBad (d : Dev) (j : Desc) (send : Bool) (e : List Byte) : Bool :=
  !(slice e 12 4).all (· = 0) || !d.refOk (leAt e 0 2) (send || j.reducing) (!send) || !d.refDev (leAt e 0 2) ||
    (fmtBits j.dfmt < 8 && leAt e 8 4 % 4 != 0)

/-- The buffer of a list's entry: its first address and its elements. -/
def Dev.fusionBuf (d : Dev) (e : List Byte) : Nat × Nat := (d.refAddr (leAt e 0 2) (leAt e 2 6), leAt e 8 4)

/-- A fusion list is read entry by entry, k entries left, from offset off of its REF. DESIGN CHOICE (log entry 29). -/
def Dev.readFusion (d : Dev) (j : Desc) (a : Nat) (send : Bool) : Nat → Nat → List (List Byte) → ListRes
  | 0, _, acc => .inr acc
  | k + 1, off, acc =>
    let i := j.refIdx a
    let p := d.refAddr i (j.refOff a + off)
    if d.fld (Reg.HQ_REGION_LEN.LEN i) < j.refOff a + off + 16 then
      .inl (fun d => d.refuse j ⟨.lengthExceeds, { Detail.field a with aux := i }⟩)
    else
      let err : Option (Dev → Dev) :=
        if d.refDev i then
          (match d.readErr p 16 with
           | some (.poisoned x) => some (fun d => (d.memFault x 2).refuse j ⟨.deviceFault, Detail.auxed d.flt.seq⟩)
           | some (.lostCore c) => some (fun d => d.refuse j (Ending.lost c))
           | some .unpopulated => some (fun d => d.refuse j (Ending.bad a))
           | none => none)
        else if d.hostErrIn p 16 then some (fun d => d.refuse j (Ending.bad a)) else none
      match err with
      | some f => .inl f
      | none =>
        let e := d.refRead i (j.refOff a + off) 16
        if leAt e 8 4 = 0 then .inr acc
        else match d.fusionLen j a send e with
          | some x => .inl (fun d => d.refuse j x)
          | none => d.readFusion j a send k (off + 16) (acc ++ [e])

/-- The fusion list that a REF names; none is read for a buffer, nor where SEND is ignored. -/
def Dev.collList (d : Dev) (j : Desc) (a : Nat) (send : Bool) : ListRes :=
  if !j.fused || (send && d.ignoresSend j) then .inr [] else d.readFusion j a send 64 0 []

/-- A list holds at least one entry, every entry is good, and their elements are n in all (R271). -/
def Dev.listOk (d : Dev) (j : Desc) (send : Bool) (n : Nat) (l : List (List Byte)) : Bool :=
  !j.fused || (send && d.ignoresSend j) ||
    (!l.isEmpty && !l.any (d.fusionBad j send) && (l.map (fun e => leAt e 8 4)).sum = n)

/-- The buffers of a REF, by its list or as the one buffer of n elements (R272). -/
def Dev.collBufs (d : Dev) (j : Desc) (a : Nat) (send : Bool) (n : Nat) (l : List (List Byte)) : List (Nat × Nat) :=
  if send && d.ignoresSend j then []
  else if j.fused then l.map d.fusionBuf
  else [(d.refAddr (j.refIdx a) (j.refOff a), n)]

/-! ### Posting (R269, R290, R309, R311) -/

/-- The collective that a descriptor posts. -/
def Dev.collOf (d : Dev) (j : Desc) (send recv : List (Nat × Nat)) : Coll where
  key := j.key
  group := j.num 24 2
  kind := j.kind
  rop := j.rop
  dfmt := j.dfmt
  wfmt := j.wfmt
  tag := j.num 28 4
  count := j.num 48 4
  cap := j.num 52 4
  flags := j.num 56 1
  layer := j.num 57 2
  members := d.collMembers j
  rank := rankIn d.selfId (d.collMembers j)
  send := send
  recv := recv
  step := d.stp.cfg.step
  slot := none
  last := d.clk
  recs := []
  got := []
  sentRounds := []
  data := false
  vals := []
  segs := []
  conv := false
  ins := []
  outs := []
  blocks := []
  hyper := []
  faults := []

/-- The end that a held notice carries. -/
def noticeEnd (p : Packet) : Ending :=
  let tag := leAt p.payload 0 4
  if p.op = 0x22 then ⟨.poisoned, Detail.auxed tag⟩
  else if leAt p.payload 6 1 = 0 then ⟨.timeout, Detail.auxed tag⟩
  else ⟨.peerLost, Detail.auxed (leAt p.payload 8 2)⟩

/-- The packet is a notice for a tag. -/
def noticeFor (tag : Nat) (p : Packet) : Bool := (p.op = 0x22 || p.op = 0x23) && leAt p.payload 0 4 = tag

/-- The hyperparameter blocks of a layer group are read (R299). -/
def Dev.readHyper (d : Dev) (c : Coll) : Coll :=
  { c with hyper := (d.layerGroup c.layer).foldl (fun t b => Tab.set [] t b.tensor (d.read (midwayBase + b.hyperOff) 256)) [] }

/-- A hyperparameter block that cannot be read. -/
def Dev.hyperErr (d : Dev) (c : Coll) : Option MemErr :=
  d.rangeErr ((d.layerGroup c.layer).map (fun b => (midwayBase + b.hyperOff, 256)))

/-- A COLL that passes its checks is posted: exchange packets held for it are merged, and it waits for a slot, unless a held
notice, a lost member, a damaged binding or the lack of an update core ends it at once (R276, R290, R291). -/
def Dev.post (d : Dev) (c : Coll) : Dev :=
  let xchg := fun (p : Packet) => p.op = 0x20 && leAt p.payload 0 4 = c.tag
  let held := (d.car.early.map (·.pkt)).filter (fun p => xchg p || noticeFor c.tag p)
  let c : Coll := { c with recs := Tab.insert [] c.rank (c.count, c.cap, c.digest) }
  let c := (held.filter xchg).foldl Coll.mergeRecs c
  let d : Dev := { d with car := { d.car with
    colls := d.car.colls ++ [c]
    done := d.car.done.filter (· != c.tag)
    early := d.car.early.filter (fun e => !held.contains e.pkt) } }
  match (held.filter (fun p => !xchg p)).map noticeEnd, c.members.find? (fun x => d.on (Reg.FAB_ROUTE.LOST x)) with
  | e :: rest, _ => d.finishColl c (rest.foldl betterEnd e)
  | [], some x => d.collPeerLost c x
  | [], none =>
    if !c.update then d
    else if (d.layerGroup c.layer).any (·.damaged) then d.abortColl c 0 0xFFFF (Ending.plain .stateLost)
    else if d.updCoresUp = 0 then d.finishColl c ⟨.deviceFault, Detail.auxed d.upd.retireSeq⟩
    else match d.hyperErr c with
      | some e => d.blockErr c e
      | none => d.modColl c.key d.readHyper

/-- The buffers of a COLL are known: it is refused when they overlap or are no memory, and posted otherwise. -/
def Dev.postBufs (d : Dev) (j : Desc) (send recv : List (Nat × Nat)) : Dev :=
  let c := d.collOf j send recv
  if c.sendRanges.any (fun r => r.2 != 0 && !memRange r.1 r.2) then d.refuse j (Ending.bad 32)
  else if c.recvRanges.any (fun r => r.2 != 0 && !memRange r.1 r.2) then d.refuse j (Ending.bad 40)
  else if c.sendRanges.any (fun s => c.recvRanges.any (fun r => overlaps s.1 s.2 r.1 r.2)) then d.refuse j (Ending.bad 40)
  else d.post c

/-- A COLL that passes its first checks reads its lists, whose entries are region-checked as they are read and then judged by
their content (R183 steps 4 and 5). -/
def Dev.startColl (d : Dev) (j : Desc) : Dev :=
  match d.collList j 32 true, d.collList j 40 false with
  | .inl f, _ => f d
  | _, .inl f => f d
  | .inr send, .inr recv =>
    if !d.listOk j true (j.num 48 4) send then d.refuse j (Ending.bad 32)
    else if !d.listOk j false (j.num 52 4) recv then d.refuse j (Ending.bad 40)
    else d.postBufs j (d.collBufs j 32 true (j.num 48 4) send) (d.collBufs j 40 false j.recvElems recv)

/-- The head of a ring is a COLL of a kind. -/
def Dev.collDue (d : Dev) (r : Nat) (p : Nat → Bool) : Bool := d.descDue r (fun j => j.opc = 0x30 && p j.kind)

/-- COLL_ALL_REDUCE. DESIGN CHOICE (log entry 29). -/
def execCollAllReduce (r : Nat) (s : State) : Host.Outcome State Fault Refusal :=
  s.run (ringOk r) (s.dev.collDue r (· = 0)) (fun d => d.startDesc r Dev.collCheck Dev.startColl)

/-- COLL_REDUCE_SCATTER. -/
def execCollReduceScatter (r : Nat) (s : State) : Host.Outcome State Fault Refusal :=
  s.run (ringOk r) (s.dev.collDue r (· = 1)) (fun d => d.startDesc r Dev.collCheck Dev.startColl)

/-- COLL_ALL_GATHER. -/
def execCollAllGather (r : Nat) (s : State) : Host.Outcome State Fault Refusal :=
  s.run (ringOk r) (s.dev.collDue r (· = 2)) (fun d => d.startDesc r Dev.collCheck Dev.startColl)

/-- COLL_BROADCAST. -/
def execCollBroadcast (r : Nat) (s : State) : Host.Outcome State Fault Refusal :=
  s.run (ringOk r) (s.dev.collDue r (· = 3)) (fun d => d.startDesc r Dev.collCheck Dev.startColl)

/-- COLL_REDUCE; a KIND above 4 is refused here. -/
def execCollReduce (r : Nat) (s : State) : Host.Outcome State Fault Refusal :=
  s.run (ringOk r) (s.dev.collDue r (4 ≤ ·)) (fun d => d.startDesc r Dev.collCheck Dev.startColl)

/-! ### Groups (R192, R267) -/

/-- Flat IDs of member storage in use, one entry left out. -/
def Dev.groupUsed (d : Dev) (but : Nat) : Nat :=
  d.car.groups.foldl (fun n e => if e.1 = but then n else n + e.2.length) 0

/-- A group is in use: by a collective, or as BAR_GROUP of a STEP_CFG in force or to come (R192). -/
def Dev.groupBusy (d : Dev) (g : Nat) : Bool :=
  d.car.colls.any (fun c => c.group = g) || (d.stp.phase != .none && d.stp.cfg.group = g) || d.stp.next.any (·.group = g)

/-- DELETE. -/
def Desc.deletes (j : Desc) : Bool := j.fb 26 0 1 = 1

/-- The checks of COLL_GROUP. -/
def Dev.groupCheck (d : Dev) (j : Desc) : Option Ending :=
  firstFail [j.reserved [(24, 0, 10), (26, 0, 1), (28, 0, 32), (32, 0, 64)],
    badIf (!j.deletes && (j.num 28 4 = 0 || 32768 < j.num 28 4)) 28,
    if j.deletes then none else d.refCheck j 32 true false,
    d.stateCheck [.ready, .running, .quiesced],
    failIf (d.groupBusy (j.num 24 2)) d.conflict,
    if j.deletes then none else d.lenCheck j 32 (2 * j.num 28 4)]

/-- A group entry gets its members; an empty list deletes it. -/
def Dev.setGroup (d : Dev) (g : Nat) (l : List Nat) : Dev :=
  { d with car := { d.car with groups := Tab.set [] d.car.groups g l } }

/-- A COLL_GROUP that passes its checks reads its list (R192, R267). -/
def Dev.startGroup (d : Dev) (j : Desc) : Dev :=
  if j.deletes then (d.setGroup (j.num 24 2) []).finish j (Ending.plain .done)
  else d.withList j 32 (2 * j.num 28 4) (fun d l =>
    let ids := (List.range (j.num 28 4)).map (fun i => leAt l (2 * i) 2)
    if ids.count d.selfId != 1 then d.finish j (Ending.bad 32)
    else if 1048576 < d.groupUsed (j.num 24 2) + ids.length then d.finish j (Ending.plain .noResource)
    else (d.setGroup (j.num 24 2) ids).finish j (Ending.plain .done))

/-- COLL_GROUP: a group is defined. DESIGN CHOICE (log entry 29). -/
def execCollGroup (r : Nat) (s : State) : Host.Outcome State Fault Refusal :=
  s.run (ringOk r) (s.dev.descDue r (fun j => j.opc = 0x31 && !j.deletes)) (fun d => d.startDesc r Dev.groupCheck Dev.startGroup)

/-- COLL_GROUP_DELETE: a group is deleted. -/
def execCollGroupDelete (r : Nat) (s : State) : Host.Outcome State Fault Refusal :=
  s.run (ringOk r) (s.dev.descDue r (fun j => j.opc = 0x31 && j.deletes)) (fun d => d.startDesc r Dev.groupCheck Dev.startGroup)

/-! ### Slots and the exchange (R273, R276) -/

/-- COLL_SLOT_ASSIGN: the first collective in the queue takes the lowest free slot. -/
def execCollSlotAssign (s : State) : Host.Outcome State Fault Refusal :=
  s.run true (s.dev.up && s.dev.freeSlot.isSome && s.dev.nextQueued.isSome) (fun d =>
    match d.freeSlot, d.nextQueued with
    | some i, some c => d.takeSlot c i
    | _, _ => d)

/-- The collective with a tag. -/
def Dev.collTag (d : Dev) (tag : Nat) : Option Coll := d.car.colls.find? (fun c => c.tag = tag)

/-- The collective whose low tag bits and member a data packet names. -/
def Dev.collLow (d : Dev) (low : Nat) : Option Coll := d.car.colls.find? (fun c => c.tag % 65536 = low && c.slot.isSome)

/-- A collective has made progress (R289). -/
def Dev.progress (d : Dev) (c : Coll) : Dev := d.modColl c.key (fun c => { c with last := d.clk })

/-- A packet is held in the early-arrival table. -/
def Dev.holdEarly (d : Dev) (p : Packet) : Dev := { d with car := { d.car with early := d.car.early ++ [⟨p, d.clk⟩] } }

/-- The early-arrival table has room (R276). -/
def Dev.earlyRoom (d : Dev) : Bool := d.car.early.length < 256

/-- The acknowledgement of an exchange packet. -/
def Dev.exAck (d : Dev) (p : Packet) : Dev :=
  d.send (d.mkPkt 3 true 0x21 p.src 0 p.tag (slice p.payload 0 4 ++ slice p.payload 6 1 ++ [0, 0, 0] ++ slice p.payload 8 4))

/-- An exchange packet: merged by a collective that is posted, held for one that is not there yet (R276). -/
def Dev.exArrive (d : Dev) (p : Packet) : Dev :=
  let tag := leAt p.payload 0 4
  match d.collTag tag with
  | some c =>
    let d := ((d.exAck p).progress c).modColl c.key (fun c => if c.data then c else c.mergeRecs p)
    if c.slot.isSome then d.exStep c.key else d
  | none =>
    if d.car.done.contains tag || d.car.early.any (fun e => e.pkt.src = p.src && e.pkt.payload = p.payload) then d.exAck p
    else if d.earlyRoom then (d.holdEarly p).exAck p
    else d.bumpSat Reg.CAR_EARLY.DROPPED 1

/-- The packet p of a class and operation has been delivered and can be taken. -/
def Dev.takes (d : Dev) (p : Packet) (cls op : Nat) : Bool := d.live && d.canTake p && p.cls = cls && p.op = op

/-- EXCHANGE_PACKET. -/
def execExchangePacket (p : Packet) (s : State) : Host.Outcome State Fault Refusal :=
  s.run true (s.dev.takes p 3 0x20) (fun d => (d.take p).exArrive p)

/-- The acknowledgement answers a packet that waits. -/
def answers (p : Packet) (x : ExSend) : Bool :=
  x.dst = p.src && slice x.pkt.payload 0 4 = slice p.payload 0 4 && slice x.pkt.payload 6 1 = slice p.payload 4 1 &&
    slice x.pkt.payload 8 4 = slice p.payload 8 4

/-- EXCHANGE_ACK. -/
def execExchangeAck (p : Packet) (s : State) : Host.Outcome State Fault Refusal :=
  s.run true (s.dev.takes p 3 0x21) (fun d =>
    let d := d.take p
    let d : Dev := { d with car := { d.car with sends := d.car.sends.filter (fun x => !answers p x) } }
    match d.collTag (leAt p.payload 0 4) with
    | some c => d.progress c
    | none => d)

/-- An exchange packet has waited 20 µs for its acknowledgement. -/
def Dev.exDue (d : Dev) (x : ExSend) : Bool := x.at' + us 20 ≤ d.clk

/-- EXCHANGE_RESEND: every exchange packet unacknowledged for 20 µs is sent again (R276). -/
def execExchangeResend (s : State) : Host.Outcome State Fault Refusal :=
  s.run true (s.dev.live && s.dev.car.sends.any s.dev.exDue) (fun d =>
    let l := d.car.sends.filter d.exDue
    let d : Dev := { d with car := { d.car with sends := d.car.sends.map (fun x => if d.exDue x then { x with at' := d.clk } else x) } }
    l.foldl (fun d x =>
      match d.coll? x.key with
      | some _ => d.carSend x.key x.pkt
      | none => d.send x.pkt) d)

/-! ### Chunks and grants (R284 to R286) -/

/-- The transfer that a packet from a member belongs to, in the data phase. -/
def Coll.inFrom (c : Coll) (code src : Nat) : Option InXfer :=
  if c.data then c.ins.find? (fun x => x.round = code && c.members.getD x.src 0xFFFF = src) else none

/-- Bytes of a transfer that have come. -/
def InXfer.got (x : InXfer) : Nat := offBefore x.chunks x.consumed + x.bytes.length

/-- The chunk that comes in now. -/
def InXfer.now (x : InXfer) : Nat := x.consumed + x.whole.length

/-- The byte up to which data can come: to the end of the segment of a granted chunk. -/
def InXfer.limit (x : InXfer) : Nat :=
  if x.now < x.granted then offBefore x.chunks x.now + segLeft x.chunks x.now else x.got

/-- CAROUSEL_DATA: bytes of a chunk arrive in order; a packet of no transfer here is discarded. -/
def execCarouselData (p : Packet) (s : State) : Host.Outcome State Fault Refusal :=
  s.run true (s.dev.takes p 2 0x10) (fun d =>
    let d := d.take p
    match d.collLow p.tag with
    | none => d
    | some c =>
      match c.inFrom (bits p.da 32 8) p.src with
      | none => d
      | some x =>
        if p.da % 2 ^ 32 = x.got && x.got + p.payload.length ≤ x.limit then
          (d.modColl c.key (fun c => c.modIn x.round (fun x => { x with bytes := x.bytes ++ p.payload }))).progress c
        else d.progress c)

/-- A chunk's CRC fails: counted, recorded, the collective poisoned (R288). -/
def Dev.crcFail (d : Dev) (c : Coll) (code chunk : Nat) : Dev :=
  let d := d.bumpSat Reg.CAR_CHECK.CRC_FAIL 1
  let d := d.record (.mk1 8 2 (c.slot.getD 0xFF) (leBytes 4 c.tag ++ leBytes 1 code ++ leBytes 4 chunk))
  d.poisonColl c code chunk ⟨.poisoned, Detail.auxed c.tag⟩

/-- An adder of the reducer shows a residue error: counted, the collective poisoned (R288). No record kind names it. -/
def Dev.adderFail (d : Dev) (c : Coll) (code chunk : Nat) : Dev :=
  (d.bumpSat Reg.CAR_CHECK.ADDER 1).poisonColl c code chunk ⟨.poisoned, Detail.auxed c.tag⟩

/-- The bytes of a transfer's next chunk that has not come whole. -/
def InXfer.nextBytes (x : InXfer) : List Byte :=
  let before := offBefore x.chunks x.now - offBefore x.chunks x.consumed
  x.bytes.drop before

/-- A chunk has come whole: its length shows how its sender cuts, and its segment is forwarded in that cutting (R284). -/
def Coll.chunkIn (c : Coll) (x : InXfer) (scales : List Byte) : Coll :=
  let cs := recut x.chunks x.now x.nextBytes.length
  let s := match (x.chunks.drop x.now).head? with | some k => k.seg | none => 0
  let c := c.modIn x.round (fun x => { x with chunks := cs, whole := x.whole ++ [scales] })
  if c.wired x.round then c
  else { c with outs := c.outs.map (fun o => if c.wired o.round then o else o.follow s (cs.filter (fun k => k.seg = s))) }

/-- CHUNK_END: the chunk is checked once, and combined, written or handed on as soon as it can be (R285 to R288).
`adder`: an adder shows a residue error while the reducer takes this chunk. -/
def execChunkEnd (p : Packet) (adder : Bool) (s : State) : Host.Outcome State Fault Refusal :=
  s.run true (s.dev.takes p 2 0x11) (fun d =>
    let d := d.take p
    match d.collTag (leAt p.payload 0 4) with
    | none => d
    | some c =>
      let code := leAt p.payload 4 1
      let num := leAt p.payload 8 4
      let scales := if bit (leAt p.payload 5 1) 0 then p.payload.drop 16 else []
      match c.inFrom code p.src with
      | none => d
      | some x =>
        let d := d.progress c
        if num != x.now || x.granted ≤ num then d
        else if crc32c (x.nextBytes ++ scales) != leAt p.payload 12 4 || x.nextBytes.isEmpty ||
            segLeft x.chunks num < x.nextBytes.length then d.crcFail c code num
        else if adder && c.wired code then d.adderFail c code num
        else (d.modColl c.key (fun c => c.chunkIn x scales)).pumpColl c.key)

/-- A grant reaches a transfer: one of the transfer's chunk count after every chunk is sent is the final one (R286). -/
def OutXfer.grant (o : OutXfer) (upto : Nat) : OutXfer :=
  { o with final := o.final || (upto = o.chunks.length && o.sent = upto), upto := max o.upto upto }

/-- A grant that comes before the data phase is kept for it. -/
def Coll.earlyGrant (c : Coll) (code dst upto : Nat) : Coll :=
  { c with outs := ⟨code, dst, [], upto, 0, false⟩ :: c.outs.filter (fun o => !(o.round = code && o.dst = dst)) }

/-- GRANT: chunks below UPTO may be sent (R286); the collective may complete (R287). -/
def execGrant (p : Packet) (s : State) : Host.Outcome State Fault Refusal :=
  s.run true (s.dev.takes p 2 0x12) (fun d =>
    let d := d.take p
    match d.collTag (leAt p.payload 0 4) with
    | none => d
    | some c =>
      let code := leAt p.payload 4 1
      let upto := leAt p.payload 8 4
      let dst := rankIn p.src c.members
      if c.slot.isNone then d
      else
        let d := d.progress c
        if c.data then
          (d.modColl c.key (fun c => { c with
            outs := c.outs.map (fun o => if o.round = code && o.dst = dst then o.grant upto else o) })).pumpColl c.key
        else d.modColl c.key (fun c => c.earlyGrant code dst upto))

/-! ### Notices, watchdog, early entries (R288 to R290) -/

/-- A notice is relayed: by the collective, or by the group it names when the collective is not here. -/
def Dev.relayNotice (d : Dev) (p : Packet) : Dev :=
  let d := d.noteSeen p.op p.payload
  match d.collTag (leAt p.payload 0 4) with
  | some c => d.relay c.members p.op p.payload
  | none => d.relay (d.group (leAt p.payload 4 2)) p.op p.payload

/-- A notice ends its collective, or is held for it. -/
def Dev.applyNotice (d : Dev) (p : Packet) : Dev :=
  let tag := leAt p.payload 0 4
  match d.collTag tag with
  | some c =>
    let d := if p.op = 0x23 && leAt p.payload 6 1 = 1 then d.sight (leAt p.payload 8 2) 5 0xFF else d
    d.finishColl c (noticeEnd p)
  | none => if d.car.done.contains tag || !d.earlyRoom then d else d.holdEarly p

/-- POISON_NOTICE: relayed at first, the step marked failed, the collective ended (R288, R291). -/
def execPoisonNotice (p : Packet) (s : State) : Host.Outcome State Fault Refusal :=
  s.run true (s.dev.takes p 3 0x22) (fun d =>
    let d := d.take p
    if d.car.seen.contains (0x22, p.payload) then d
    else
      let d := d.relayNotice p
      (d.markStep (d.st = .running)).applyNotice p)

/-- ABORT_NOTICE (R290). -/
def execAbortNotice (p : Packet) (s : State) : Host.Outcome State Fault Refusal :=
  s.run true (s.dev.takes p 3 0x23) (fun d =>
    let d := d.take p
    if d.car.seen.contains (0x23, p.payload) then d else (d.relayNotice p).applyNotice p)

/-- A collective's watchdog has run out (R289). -/
def Dev.watchdogOver (d : Dev) (c : Coll) : Bool := c.last + d.watchdog ≤ d.clk

/-- The record of a collective's timeout, with the tags of the slots and of the queue (R289). -/
def Dev.timeoutRecord (d : Dev) (c : Coll) : FaultRec :=
  let slots := (List.range 16).filterMap (fun i => d.car.colls.find? (fun x => x.slot = some i))
  let waits := (d.car.colls.filter (fun x => x.slot.isNone)).take 16
  ⟨8, 1, none, c.slot.getD 0xFF, leBytes 4 c.tag ++ leBytes 1 slots.length ++ leBytes 1 waits.length,
    ((slots ++ waits).map (fun x => leBytes 4 x.tag)).flatten⟩

/-- COLL_WATCHDOG: the collective of the descriptor at an index of a ring has made no progress for W. -/
def execCollWatchdog (r sub : Nat) (s : State) : Host.Outcome State Fault Refusal :=
  s.run (ringOk r) (s.dev.up && (s.dev.coll? (r, sub)).any s.dev.watchdogOver) (fun d =>
    match d.coll? (r, sub) with
    | none => d
    | some c => (d.record (d.timeoutRecord c)).abortColl c 0 0xFFFF ⟨.timeout, Detail.auxed c.tag⟩)

/-- EARLY_ENTRY_EXPIRE: entries held for 2 W leave the table (R290). -/
def execEarlyEntryExpire (s : State) : Host.Outcome State Fault Refusal :=
  s.run true (s.dev.up && s.dev.car.early.any (fun e => e.time + 2 * s.dev.watchdog ≤ s.dev.clk)) (fun d =>
    { d with car := { d.car with early := d.car.early.filter (fun e => !(e.time + 2 * d.watchdog ≤ d.clk)) } })

end Sys2Proof.Machine
end

