-- ==== Sys2Proof/Machine/Seq.lean ====
section
/-! DEFINITION. The tile sequencer, the arrays and data movement: the commands of chapters 2 and 4, pre-emption apart (R35 to R60, R81 to R111). -/

namespace Sys2Proof.Machine

/-- A logical core's number. -/
def coreOk (c : Nat) : Bool := c < 192

/-! ### The RUN check and dispatch -/

/-- The check of a RUN ends: its cores start, or it completes BAD_FIELD (R95). -/
def Dev.runChecked (d : Dev) (r : Run) : Dev :=
  match d.checkRun r.prog with
  | some (c, pos) => d.finishRun r ⟨.badField, { Detail.none with lcore := c, pos := pos }⟩
  | none =>
    r.cores.foldl (fun d c => d.modCore c (fun x => { x with phase := .running }))
      (d.modRun r.key (fun r => { r with checked := true }))

/-- RUN_CHECK_DONE: the check of the RUN with the ring and index given ends (R95). -/
def execRunCheckDone (ring sub : Nat) (s : State) : Host.Outcome State Fault Refusal :=
  s.run (ring < 16) (s.dev.up && (s.dev.run? (ring, sub)).any (fun r => r.acquired && !r.checked)) (fun d =>
    match d.run? (ring, sub) with
    | some r => d.runChecked r
    | none => d)

/-- The queue of an operation's unit has room (R96). -/
def Core.queueRoom (x : Core) (l : List Byte) : Bool :=
  (x.ops.filter (fun o => !o.started && opUnit o.bytes = opUnit l)).length < unitDepth (opUnit l)

/-- An operation as it is dispatched. -/
def newOp (pos : Nat) (l : List Byte) : OpRec := ⟨pos, l, false, [], none, opCode l = 3 && stSwitch l, false, false⟩

/-- Dispatch of the next unit operation. A poisoned fetch, or an operation code that the check had not seen, stops the
program (R93, R95). -/
def Dev.dispatchNext (d : Dev) (c : Nat) : Dev :=
  let x := d.core c
  let a := sramAt c (x.hdr + 32 + 32 * x.next)
  match d.firstPoison a 32 with
  | some p => d.stopMem c x.next p 0
  | none =>
    let l := d.nextOp c
    if !opDefined (opCode l) then d.stopOp c x.next (Ending.at .badField c x.next 0)
    else d.setCore c { x with ops := insertOp (newOp x.next l) x.ops, next := x.next + 1 }

/-- SEQ_DISPATCH is due: dispatch goes on, and stands at an operation of a unit whose queue has room, or at one that
cannot be read or is undefined. -/
def Dev.dispatchDue (d : Dev) (c : Nat) : Bool :=
  let x := d.core c
  let l := d.nextOp c
  d.dispatches c && !d.pastEnd c &&
    ((d.firstPoison (sramAt c (x.hdr + 32 + 32 * x.next)) 32).isSome || !opDefined (opCode l) ||
      (opUnit l < 8 && x.queueRoom l))

/-- SEQ_DISPATCH (R96). -/
def execSeqDispatch (c : Nat) (e : Ecc) (s : State) : Host.Outcome State Fault Refusal :=
  s.run (coreOk c) ((s.dev.meetEcc e).dispatchDue c) (fun d => (d.meetEcc e).dispatchNext c)

/-! ### Starts -/

/-- What every start counts (R91, R97). -/
def Dev.countStart (d : Dev) (t : Start) : Dev :=
  ((d.bump Reg.ARR_SEQ_HOLD.CYCLES t.hold).bump Reg.ARR_BANK_CONFLICT.COUNT t.conflict).meetEcc t.ecc

/-- The start of the operation at a position: a poisoned line among its reads stops the program (R93), otherwise it goes. -/
def Dev.startOpAt (d : Dev) (c pos : Nat) (t : Start) (reader : Nat) (reads : OpRec → List Rng) (go : Dev → OpRec → Dev) : Dev :=
  let d := d.countStart t
  match (d.core c).op? pos with
  | none => d
  | some o =>
    match d.poisonOf (reads o) with
    | some p => d.stopMem c pos p reader
    | none => go d o

/-- A start command: due when an operation of the code stands at the position and can start. -/
def State.startCmd (s : State) (c pos code : Nat) (f : Dev → Dev) : Host.Outcome State Fault Refusal :=
  s.run (coreOk c) (s.dev.st = .running && s.dev.startable c pos code) f

/-- A completion command: due when the started operation of the code stands at the position. -/
def State.endCmd (s : State) (c pos code : Nat) (f : Dev → OpRec → Dev) : Host.Outcome State Fault Refusal :=
  s.run (coreOk c) (s.dev.up && (s.dev.startedOp c pos code).isSome) (fun d =>
    match d.startedOp c pos code with
    | some o => f d o
    | none => d)

/-- An operation has started. -/
def Dev.begun (d : Dev) (c pos : Nat) (f : OpRec → OpRec) : Dev :=
  d.modCore c (·.setOp pos (fun o => f { o with started := true }))

/-- The SRAM that a W_LOAD reads, row by row. -/
def wlSram (c : Nat) (l : List Byte) : List Rng :=
  rowsOf (sramAt c (wlSrc l)) (wlStride l) (wlRows l) (wlRowBytes l) ++
    (if wlScaled l then [(sramAt c (wlScale l), wlN l * 2 * wlF l)] else [])

/-- W_LOAD: the tile is read and its hops begin; one waits while a tile in the shadow is not consumed (R40, R45, R48). -/
def execWLoad (c pos : Nat) (t : Start) (s : State) : Host.Outcome State Fault Refusal :=
  s.run (coreOk c) (s.dev.st = .running && s.dev.startable c pos 0x01 && (s.dev.core c).shadow.isNone) (fun d =>
    d.startOpAt c pos t 0 (fun o => wlSram c o.bytes) (fun d o =>
      d.begun c pos (fun q => { q with tile := some (d.tileFrom c pos o.bytes) })))

/-- W_LOAD_COMPLETE: the shadow registers hold the tile (R45). -/
def execWLoadComplete (c pos : Nat) (s : State) : Host.Outcome State Fault Refusal :=
  s.endCmd c pos 0x01 (fun d o => (d.modCore c (fun x => { x with shadow := o.tile })).opDone c pos)

/-- The bytes of a codebook table. -/
def cbBytes (l : List Byte) : Nat := (if opBits l 1 3 1 = 1 then 256 else 16) * (if opBits l 1 2 1 = 1 then 1 else 2)

/-- CB_LOAD: the table is read (R69, R101). -/
def execCbLoad (c pos : Nat) (t : Start) (s : State) : Host.Outcome State Fault Refusal :=
  s.startCmd c pos 0x02 (fun d =>
    d.startOpAt c pos t 0 (fun o => [(sramAt c (opNum o.bytes 8 4), cbBytes o.bytes)]) (fun d o =>
      d.begun c pos (fun q => { q with conv := d.read (sramAt c (opNum o.bytes 8 4)) (cbBytes o.bytes) })))

/-- CB_LOAD_COMPLETE: the slot holds the table (R69). -/
def execCbLoadComplete (c pos : Nat) (s : State) : Host.Outcome State Fault Refusal :=
  s.endCmd c pos 0x02 (fun d o =>
    (d.modCore c (fun x => { x with
      slots := x.slots.set (opBits o.bytes 1 0 2)
        (some ⟨opBits o.bytes 1 2 1, if opBits o.bytes 1 3 1 = 1 then 256 else 16, o.conv⟩) })).opDone c pos)

/-! ### Passes -/

/-- A switching STREAM has no tile to switch to (R48). -/
def Core.nothingToSwitch (x : Core) (o : OpRec) : Bool :=
  o.sw && x.shadow.isNone && x.ops.all (fun e => opCode e.bytes != 1 || o.pos < e.pos)

/-- The SRAM that a pass reads, row by row: activation rows, scale bytes, input rows; wl is the W_LOAD of its tile. -/
def passSram (c : Nat) (l wl : List Byte) : List Rng :=
  rowsOf (sramAt c (stAct l)) (stStride l) (stM l) (fmtBytes (stFmt l) (stK l)) ++
    (if stScaled l then [(sramAt c (stScale l), stM l * 2 * wlF wl)] else []) ++ (if stHasIn l then stRows c l false else [])

/-- A STREAM injects: its token swaps the shadow's tile in (R43, R46). -/
def Dev.inject (d : Dev) (c pos : Nat) (o : OpRec) : Dev :=
  let x := d.core c
  let t := if o.sw then x.shadow else x.active
  let y := x.setOp pos (fun o => { o with started := true, tile := t })
  d.setCore c { y with active := t, shadow := if o.sw then none else x.shadow }

/-- A STREAM that can start: one with nothing to switch to stops the program, poison among its reads discards the passes in
flight, otherwise it injects (R46, R48, R93). -/
def Dev.startStream (d : Dev) (c pos : Nat) (t : Start) : Dev :=
  let d := d.countStart t
  match (d.core c).op? pos with
  | none => d
  | some o =>
    if (d.core c).nothingToSwitch o then d.stopOp c pos (Ending.at .badField c pos 0)
    else
      match d.poisonOf (passSram c o.bytes ((d.core c).tileOf o)) with
      | some p => d.passPoison c pos p
      | none => d.inject c pos o

/-- STREAM: its first injection; a switching one waits for the shadow, or stops when nothing has been loaded (R46 to R48).
DESIGN CHOICE and DEDUCED (log entry 19). -/
def execStream (c pos : Nat) (t : Start) (s : State) : Host.Outcome State Fault Refusal :=
  s.run (coreOk c)
    (s.dev.st = .running && s.dev.startable c pos 0x03 &&
      (((s.dev.core c).op? pos).any (fun o => !o.sw || (s.dev.core c).shadow.isSome || (s.dev.core c).nothingToSwitch o)))
    (fun d => d.startStream c pos t)

/-- The end of a pass: its rows are written and counted. A line found poisoned meanwhile discards it and the passes in flight
with it (R93). Its data slots are counted here, so those of a discarded pass are not: ARR_INJECT_CYCLES names every slot that
carried data, ARR_PASSES only passes not discarded. DESIGN CHOICE and DEDUCED (log entries 18 and 19). -/
def Dev.endPass (d : Dev) (c pos : Nat) (o : OpRec) (t : Tile) : Dev :=
  match d.poisonOf (passSram c o.bytes t.op) with
  | some p => d.passPoison c pos p
  | none =>
    match d.partOf (passPuts c o.bytes t) with
    | some p => d.passPoison c pos p
    | none =>
      let d := d.passOutput c o.bytes t
      let d := (d.bump Reg.ARR_PASSES.COUNT 1).bump Reg.ARR_INJECT_CYCLES.COUNT (ceilDiv (stM o.bytes) 4)
      let d : Dev := if d.on (Reg.ARR_CORE_FAULT.PENDING c) then
          { d with cleanPasses := Tab.set 0 d.cleanPasses c (Tab.get 0 d.cleanPasses c + 1) }
        else d
      d.opDone c pos

/-- PASS_END: the oldest pass in flight ends and its rows become visible together (R43, R50).
DESIGN CHOICE (log entry 7). -/
def execPassEnd (c pos : Nat) (p : PassTiming) (s : State) : Host.Outcome State Fault Refusal :=
  s.run (coreOk c)
    (s.dev.up && (s.dev.startedOp c pos 0x03).isSome && (s.dev.core c).passes.head?.map (·.pos) = some pos) (fun d =>
    let d := ((d.bump Reg.ARR_SHADOW_WAIT.COUNT p.wait).bump Reg.ARR_BUBBLE_SLOTS.COUNT p.bubble).bump
      Reg.ARR_FEED_STARVE.COUNT p.starve
    match d.startedOp c pos 0x03 with
    | some o =>
      (match o.tile with
       | some t => d.endPass c pos o t
       | none => d)
    | none => d)

/-- 2^FAULT_WINDOW, the exponent held to 10 to 30 (R59). -/
def Dev.faultWindow (d : Dev) : Nat := 2 ^ clampNat 10 30 (d.fld Reg.ARR_CFG.FAULT_WINDOW)

/-- FAULT_COUNT_CLEAR: enough passes in a row have ended without a fault (R59). -/
def execFaultCountClear (c : Nat) (s : State) : Host.Outcome State Fault Refusal :=
  s.run (coreOk c)
    (s.dev.up && s.dev.on (Reg.ARR_CORE_FAULT.PENDING c) && s.dev.faultWindow ≤ Tab.get 0 s.dev.cleanPasses c) (fun d =>
    ({ d with cleanPasses := Tab.set 0 d.cleanPasses c 0 } : Dev).setFld (Reg.ARR_CORE_FAULT.PENDING c) 0)

/-- BUBBLE_WINDOW_START: the core applies the ratio in force from this window on (R53). -/
def execBubbleWindowStart (c : Nat) (s : State) : Host.Outcome State Fault Refusal :=
  s.run (coreOk c) s.dev.up (fun d => { d with ratio := Tab.set 0 d.ratio c (d.fld Reg.ARR_STATUS.BUBBLE) })

/-- A parity or residue error in a core's vector unit stops the program at the instruction under way and counts as a fault of
R59; a second one retires the core (R136). LAST_CAUSE and ARRAYS name no vector unit: they read 0.
DESIGN CHOICE and DEDUCED (log entry 19). -/
def Dev.vecUnitFault (d : Dev) (c : Nat) : Dev :=
  let v := Tab.get VecCtx.init d.vec c
  let second := d.on (Reg.ARR_CORE_FAULT.PENDING c)
  let e : Ending := ⟨.deviceFault, ⟨0, c, 0xFF, v.pos, v.pc, d.flt.seq⟩⟩
  let d := (d.markFault c 0 0 second).bumpSat Reg.ARR_VEC_STOPS.FAULT 1
  let d : Dev := { d with vec := Tab.set VecCtx.init d.vec c VecCtx.init }
  if second then ((d.discardPasses c).modCore c (·.dropOp v.pos)).retireCore c e else d.stopOp c v.pos e

/-- A core's vector unit runs code. -/
def Dev.vecBusy (d : Dev) (c : Nat) : Bool := (Tab.get VecCtx.init d.vec c).run

/-- A cause and the arrays of a fault: causes 1 to 5 of LAST_CAUSE with an array, or neither for the vector unit (R57, R136). -/
def faultOk (cause arrays : Nat) : Bool := (1 ≤ cause && cause ≤ 5 && 1 ≤ arrays && arrays < 16) || (cause = 0 && arrays = 0)

/-- ARRAY_FAULT: an array of a core detects a fault while a pass is in flight (R57 to R60), or, with no array named, the vector
unit does while it runs code (R136). A weight register whose parity is wrong while no pass is in flight and no vector code
runs does nothing yet: what R58 discards and replays is a pass. DESIGN CHOICE and DEDUCED (log entry 19). -/
def execArrayFault (c cause arrays : Nat) (s : State) : Host.Outcome State Fault Refusal :=
  s.run (coreOk c && faultOk cause arrays)
    (s.dev.up && (if arrays = 0 then s.dev.vecBusy c else !(s.dev.core c).passes.isEmpty))
    (fun d => if arrays = 0 then d.vecUnitFault c else d.arrayFault c cause arrays)

/-! ### Drains -/

/-- CONV_RECORD_READ is due: nothing earlier still writes the record (R104). -/
def Dev.convReadable (d : Dev) (c pos : Nat) : Bool :=
  let x := d.core c
  match x.op? pos with
  | some o =>
    opCode o.bytes = 4 && !o.started && o.conv.isEmpty && x.live &&
      x.ops.all (fun e => !(e.pos < pos && setsMeet (Core.writesOf c e) [(sramAt c (drConv o.bytes), 64)]))
  | none => false

/-- The conversion record as it is read. -/
def Dev.convOf (d : Dev) (c : Nat) (o : OpRec) : List Byte :=
  if o.conv.isEmpty then d.read (sramAt c (drConv o.bytes)) 64 else o.conv

/-- CONV_RECORD_READ (R104). -/
def execConvRecordRead (c pos : Nat) (s : State) : Host.Outcome State Fault Refusal :=
  s.run (coreOk c) (s.dev.st = .running && s.dev.convReadable c pos) (fun d =>
    match (d.core c).op? pos with
    | none => d
    | some o =>
      match d.firstPoison (sramAt c (drConv o.bytes)) 64 with
      | some p => d.stopMem c pos p 0
      | none => d.modCore c (·.setOp pos (fun q => { q with conv := d.convOf c o })))

/-- DRAIN: the record is checked and the conversion begins (R103, R104). -/
def execDrain (c pos : Nat) (t : Start) (s : State) : Host.Outcome State Fault Refusal :=
  s.startCmd c pos 0x04 (fun d =>
    d.startOpAt c pos t 0
      (fun o => drSource c o.bytes ++ (if o.conv.isEmpty then [(sramAt c (drConv o.bytes), 64)] else [])) (fun d o =>
        let r := d.convOf c o
        if convRefused o.bytes r then d.stopOp c pos (Ending.at .badField c pos 0)
        else
          match d.poisonOf (if cvColmul r then [(sramAt c (cvMul r), 256)] else []) with
          | some p => d.stopMem c pos p 0
          | none => d.begun c pos (fun q => { q with conv := r })))

/-- A drain's outputs become visible with overflowed values: counted, noted (R84). -/
def Dev.countSaturated (d : Dev) (c : Nat) : Dev :=
  (d.bump Reg.ARR_OVF_SATURATED.COUNT 1).modOwner c (fun r => { r with sat := r.sat + 1 })

/-- The operations of a core from a position on are abandoned: what they would have written is undefined (R83). -/
def Dev.abandon (d : Dev) (c m : Nat) : Dev :=
  let gone := (d.core c).ops.filter (fun o => m < o.pos && (o.started || o.overflowed))
  let d := gone.foldl (fun d o => d.scrambleSet (Core.undone c o)) d
  let d : Dev := { d with vec := if gone.any (fun o => opCode o.bytes = 0x10) then Tab.set VecCtx.init d.vec c VecCtx.init else d.vec }
  d.modCore c (fun x => { x with ops := x.ops.filter (fun o => o.pos ≤ m) })

/-- A core whose budget is used up stops; the outputs of its segment that are not visible stay so (R84). -/
def Dev.exhausted (d : Dev) (c pos : Nat) : Dev :=
  (match (d.core c).mark with
   | some m => d.abandon c m
   | none => d).stopOp c pos (Ending.at .replayExhausted c pos 0)

/-- What a drain's verdict leads to (R82, R84), sat for a saturated source, over for a range overflow. On a core that has
stopped meanwhile no replay follows and the outputs stay invisible. DESIGN CHOICE and DEDUCED (log entry 19). -/
def Dev.drainVerdict (d : Dev) (c pos : Nat) (o : OpRec) (rows : List DrainRow) (e : Int) (sat overs : Bool) : Dev :=
  let x := d.core c
  let l := o.bytes
  if drReplay l && overs && !sat && x.attempts < 2 then
    (if d.budgetLeft c = 0 then d.exhausted c pos
     else if x.phase = .stopped then ((d.scrambleSet (Core.writesOf c o)).modCore c (·.dropOp pos)).checkOwnerEnd c
     else d.setCore c { (x.setOp pos (fun o => { o with overflowed := true })) with overs := x.overs ++ [pos], replayDue := true })
  else
    let d := d.drainOutput c l o.conv rows e x.attempts sat
    (if sat || overs then d.countSaturated c else d).opDone c pos

/-- The end of a drain: its rows are converted and its verdict falls. DESIGN CHOICE and DEDUCED (log entry 19). -/
def Dev.endDrain (d : Dev) (c pos : Nat) (o : OpRec) : Dev :=
  let l := o.bytes
  let r := o.conv
  match d.partOf (drainPuts c l r) with
  | some p => d.stopMem c pos p 0
  | none =>
    let k := if drReplay l then Tab.get 0 (d.core c).lower pos else 0
    let rows := d.drainRows c l r k
    let sat := d.drainSat c l
    let overs := countOuts rows (·.ovf) != 0
    let d := d.bump Reg.ARR_NONFINITE.COUNT (countOuts rows (·.nonfin))
    let d := if cvGrad r then d.gradCount (cvLayer r) (countOuts rows (·.unf)) (countOuts rows (fun o => o.ovf || o.nonfin)) else d
    let d := if sat || overs then d.bump Reg.ARR_OVF_EVENTS.COUNT 1 else d
    d.drainVerdict c pos o rows (d.drainExp r k) sat overs

/-- DRAIN_END (R82, R84, R87, R88). -/
def execDrainEnd (c pos : Nat) (s : State) : Host.Outcome State Fault Refusal :=
  s.endCmd c pos 0x04 (fun d o => d.endDrain c pos o)

/-- The segment as a replay takes it up again (R83): its operations abandoned, k lowered, the shadow's tile kept when its
W_LOAD lies before the mark. -/
def Core.replaySegment (x : Core) (m : Nat) : Core :=
  { x with
    ops := x.ops.filter (fun o => o.pos < m)
    next := m + 1
    attempts := x.attempts + 1
    lower := x.overs.foldl (fun t p => Tab.set 0 t p (Tab.get 0 t p + x.delta)) x.lower
    overs := []
    replayDue := false
    shadow := match x.shadow with
      | some t => if t.pos < m then some t else none
      | none => none
    phase := match x.phase with
      | .ending => .running
      | .waitEvent _ _ => .running
      | p => p }

/-- A replay segment is abandoned and issued again, or the budget is used up (R83, R86). -/
def Dev.overflowReplay (d : Dev) (c : Nat) : Dev :=
  let x := d.core c
  match x.mark with
  | none => d
  | some m =>
    if d.budgetLeft c = 0 then d.exhausted c (x.overs.headD 0xFFFF)
    else (((d.abandon c m).modCore c (·.replaySegment m)).takeBudget c).bump Reg.ARR_OVF_REPLAYS.COUNT 1

/-- OVERFLOW_REPLAY: four cycles after an overflow verdict (R83). -/
def execOverflowReplay (c : Nat) (s : State) : Host.Outcome State Fault Refusal :=
  s.run (coreOk c) (s.dev.up && (s.dev.core c).replayDue && (s.dev.core c).live) (fun d => d.overflowReplay c)

/-! ### Vector code -/

/-- VEC: the vector code starts with the registers of R119 (R105). -/
def execVec (c pos : Nat) (t : Start) (s : State) : Host.Outcome State Fault Refusal :=
  s.startCmd c pos 0x10 (fun d =>
    d.startOpAt c pos t 0 (fun _ => []) (fun d o =>
      let l := o.bytes
      let x := VecCtx.start 256 (sramAt c (opNum l 4 4)) (opNum l 2 2) pos (opNum l 8 4, opNum l 12 4) (opNum l 16 4, opNum l 20 4)
        (opNum l 24 4, opNum l 28 4)
      ({ d with vec := Tab.set VecCtx.init d.vec c x } : Dev).begun c pos id))

/-- VEC_END: the code has ended and its stores are written (R97, R105). -/
def execVecEnd (c pos : Nat) (s : State) : Host.Outcome State Fault Refusal :=
  s.run (coreOk c)
    (s.dev.up && (s.dev.startedOp c pos 0x10).isSome && (Tab.get VecCtx.init s.dev.vec c).ended) (fun d =>
    ({ d with vec := Tab.set VecCtx.init d.vec c VecCtx.init } : Dev).opDone c pos)

/-! ### Data movement -/

/-- Rows of a MOVE as (source, destination). -/
def moveRows (l : List Byte) : List (Nat × Nat) :=
  if dmLen l = 0 then [] else (List.range (mvRows l)).map (fun i => (dmA l + i * dmC l, dmB l + i * dmD l))

/-- The stop that an access of an operation meets: a lost core, or poison. -/
def Dev.opAccess (d : Dev) (c pos : Nat) (reads writes : List Rng) (go : Dev → Dev) : Dev :=
  match (reads ++ writes).findSome? (fun r => (coresOf r.1 (max 1 r.2)).find? d.coreGone) with
  | some _ => d.stopOp c pos (Ending.at .stateLost c pos 0)
  | none =>
    match d.poisonOf reads with
    | some p => d.stopMem c pos p 0
    | none =>
      match d.partOf writes with
      | some p => d.stopMem c pos p 0
      | none => go d

/-- The source rows of a MOVE. -/
def moveReads (l : List Byte) : List Rng := (moveRows l).map (fun p => (p.1, dmLen l))

/-- The destination rows of a MOVE. -/
def moveWrites (l : List Byte) : List Rng := (moveRows l).map (fun p => (p.2, dmLen l))

/-- MOVE (R106). -/
def execMove (c pos : Nat) (t : Start) (s : State) : Host.Outcome State Fault Refusal :=
  s.startCmd c pos 0x20 (fun d =>
    d.startOpAt c pos t 0 (fun _ => []) (fun d o =>
      d.opAccess c pos (moveReads o.bytes) (moveWrites o.bytes) (fun d => d.begun c pos id)))

/-- MOVE_COMPLETE: the rows are at their destination (R97, R106). DESIGN CHOICE and DEDUCED (log entry 18). -/
def execMoveComplete (c pos : Nat) (s : State) : Host.Outcome State Fault Refusal :=
  s.endCmd c pos 0x20 (fun d o =>
    d.opAccess c pos (moveReads o.bytes) (moveWrites o.bytes) (fun d =>
      ((moveRows o.bytes).foldl (fun d p => d.storeCopy p.1 p.2 (dmLen o.bytes)) d).opDone c pos))

/-- GATHER (R106, R145). -/
def execGather (c pos : Nat) (t : Start) (s : State) : Host.Outcome State Fault Refusal :=
  s.startCmd c pos 0x21 (fun d =>
    d.startOpAt c pos t 0 (fun o => [(sramAt c (opNum o.bytes 8 4), 4 * dmLen o.bytes)]) (fun d _ => d.begun c pos id))

/-- The vault offset of element i of a GATHER. -/
def Dev.gatherFrom (d : Dev) (c : Nat) (l : List Byte) (i : Nat) : Nat :=
  dmB l % 2 ^ 32 + d.readLE (sramAt c (opNum l 8 4 + 4 * i)) 4 * dmD l

/-- Elements of a GATHER from i on, k left: one that would leave the vault stops the program with the elements above it
undefined, a poisoned one stops it with a memory fault (R106). -/
def Dev.gatherFromN (c pos : Nat) (l : List Byte) : Nat → Nat → Dev → Dev
  | 0, _, d => d.opDone c pos
  | k + 1, i, d =>
    let off := d.gatherFrom c l i
    let n := gaSize l
    if 0x100000000 < off + n then
      (if k = 0 then d else d.scramble (sramAt c (dmC l + (i + 1) * n)) (k * n)).stopOp c pos (Ending.at .badField c pos i)
    else
      match d.firstPoison (vaultBase c + off) n with
      | some p => d.stopMem c pos p 0
      | none =>
        match d.partOf [(sramAt c (dmC l + i * n), n)] with
        | some p => d.stopMem c pos p 0
        | none => Dev.gatherFromN c pos l k (i + 1) (d.copy (vaultBase c + off) (sramAt c (dmC l + i * n)) n)

/-- GATHER_COMPLETE: the elements are written, in order (R97, R106). DESIGN CHOICE and DEDUCED (log entry 18). -/
def execGatherComplete (c pos : Nat) (s : State) : Host.Outcome State Fault Refusal :=
  s.endCmd c pos 0x21 (fun d o => Dev.gatherFromN c pos o.bytes (dmLen o.bytes) 0 d)

/-- FLAT_ID of an XFER. -/
def xfHome (l : List Byte) : Nat := opNum l 2 2

/-- An XFER becomes a memory-fabric store or load (R106). DESIGN CHOICE and DEDUCED (log entry 18). -/
def Dev.startXfer (d : Dev) (c pos : Nat) (l : List Byte) : Dev :=
  let mop := if xfGet l then 1 else 3
  let data := if xfGet l then [] else d.read (dmA l) (dmLen l)
  (d.begun c pos id).issueOp mop (.xfer c pos) (xfHome l) (dmB l) (dmLen l) (true, dmA l)
    (if xfNotify l then some (opNum l 18 2) else none) (opPkts mop (dmB l) data (dmLen l))

/-- XFER: a flat ID that no entry makes reachable stops the program with BAD_FIELD, a LOST device with PEER_LOST; an empty one
touches nothing and completes (R106, R245). -/
def execXfer (c pos : Nat) (t : Start) (s : State) : Host.Outcome State Fault Refusal :=
  s.startCmd c pos 0x22 (fun d =>
    d.startOpAt c pos t 0 (fun _ => []) (fun d o =>
      let l := o.bytes
      if d.noRoute (xfHome l) then d.stopOp c pos (Ending.at .badField c pos (xfHome l))
      else if dmLen l != 0 && d.peerGone (xfHome l) then
        (d.sight (xfHome l) 4 0xFF).stopOp c pos (Ending.at .peerLost c pos (xfHome l))
      else
        d.opAccess c pos (if xfGet l then [] else [(dmA l, dmLen l)]) (if xfGet l then [(dmA l, dmLen l)] else [])
          (fun d => d.startXfer c pos l)))

/-- The memory-fabric operation of an XFER. -/
def Dev.xferOp (d : Dev) (c pos : Nat) : Option MfbOp := d.mfb.ops.find? (fun o => o.origin = .xfer c pos)

/-- XFER_COMPLETE: every byte is acknowledged or written; the notify goes when asked for (R97, R320). -/
def execXferComplete (c pos : Nat) (s : State) : Host.Outcome State Fault Refusal :=
  s.run (coreOk c)
    (s.dev.up && (s.dev.startedOp c pos 0x22).isSome && (s.dev.xferOp c pos).any (fun o => o.pkts.all (·.acked))) (fun d =>
    match d.xferOp c pos with
    | none => d
    | some o =>
      (((d.dropOp o.id).bump Reg.MFB_OPS.COUNT 1).sendNotify o).opDone c pos)

/-! ### Events and barriers -/

/-- The next operation is passed. -/
def Dev.passNext (d : Dev) (c : Nat) : Dev := d.modCore c (fun x => { x with next := x.next + 1, phase := .running })

/-- WAIT: passed at once when the counter has reached the value, otherwise dispatch is held (R107). -/
def execWait (c : Nat) (s : State) : Host.Outcome State Fault Refusal :=
  s.run (coreOk c) (s.dev.atOp c 0x30) (fun d =>
    let l := d.nextOp c
    if opNum l 4 4 ≤ d.evtGet (opNum l 2 2) then (d.passNext c).bump Reg.ARR_SEQ_OPS.COUNT 1
    else d.modCore c (fun x => { x with phase := .waitEvent (opNum l 2 2) (opNum l 4 4), since := d.clk }))

/-- A core waits at a WAIT whose counter has reached its value. -/
def Dev.eventMet (d : Dev) (c : Nat) : Bool :=
  match (d.core c).phase with
  | .waitEvent i v => v ≤ d.evtGet i && !(d.core c).preempt && !d.stopping c
  | _ => false

/-- WAIT_MET: dispatch resumes (R107). -/
def execWaitMet (c : Nat) (s : State) : Host.Outcome State Fault Refusal :=
  s.run (coreOk c) (s.dev.up && s.dev.eventMet c) (fun d => (d.passNext c).bump Reg.ARR_SEQ_OPS.COUNT 1)

/-- The counter or the barrier that a core waits for. -/
def Core.waitsFor (x : Core) : Option Nat :=
  match x.phase with
  | .waitEvent i _ => some i
  | .barrier id _ => some id
  | _ => none

/-- A WAIT or a SCOPE 0 barrier has held dispatch beyond WAIT_LIMIT (R111). -/
def Dev.waitExpired (d : Dev) (c : Nat) : Bool :=
  (d.core c).waitsFor.isSome && !d.eventMet c && ms (max 1 (d.fld Reg.ARR_SEQ_CFG.WAIT_LIMIT)) < d.clk - (d.core c).since

/-- WAIT_TIMEOUT: the program stops with TIMEOUT (R111). -/
def execWaitTimeout (c : Nat) (s : State) : Host.Outcome State Fault Refusal :=
  s.run (coreOk c) (s.dev.up && s.dev.waitExpired c) (fun d =>
    d.stopCore c (Ending.at .timeout c (d.core c).next ((d.core c).waitsFor.getD 0)))

/-- A core of a stopping RUN that has not stopped, at a pass boundary. -/
def Dev.stopsNow (d : Dev) (c : Nat) : Bool :=
  d.stopping c && (d.core c).passes.isEmpty && (d.core c).ops.all (fun o => !o.again) &&
    (match (d.core c).phase with
     | .idle => false
     | .ended => false
     | .stopped => false
     | .saving => false
     | _ => true)

/-- CORE_STOP_AT_BOUNDARY (R111). -/
def execCoreStopAtBoundary (c : Nat) (s : State) : Host.Outcome State Fault Refusal :=
  s.run (coreOk c) (s.dev.up && s.dev.stopsNow c) (fun d => d.haltCore c none)

/-- A SIGNAL fires (R108). -/
def Dev.fire (d : Dev) (l : List Byte) : Dev := (d.evtAdd (opNum l 2 2) (opNum l 8 4)).bump Reg.ARR_SEQ_OPS.COUNT 1

/-- SIGNAL: it enters the signal queue, or fires at dispatch when it has no fence and nothing stands before it (R108). -/
def execSignal (c : Nat) (s : State) : Host.Outcome State Fault Refusal :=
  s.run (coreOk c) (s.dev.atOp c 0x31 && (s.dev.core c).signals.length < 8) (fun d =>
    let l := d.nextOp c
    let x := d.core c
    if opNum l 4 1 = 0 && x.signals.isEmpty then (d.passNext c).fire l
    else (d.setCore c { x with signals := x.signals ++ [newOp x.next l] }).passNext c)

/-- The fence of a SIGNAL is met: every earlier operation of the units it names is complete. -/
def Core.fenceMet (x : Core) (g : OpRec) : Bool :=
  x.ops.all (fun o => !(o.pos < g.pos && bit (opNum g.bytes 4 1) (opUnit o.bytes)))

/-- SIGNAL_FIRE: the oldest SIGNAL whose fence is met fires (R108). -/
def execSignalFire (c : Nat) (s : State) : Host.Outcome State Fault Refusal :=
  s.run (coreOk c) (s.dev.up && (match (s.dev.core c).signals with | g :: _ => (s.dev.core c).fenceMet g | [] => false)) (fun d =>
    match (d.core c).signals with
    | [] => d
    | g :: rest => (d.modCore c (fun x => { x with signals := rest })).fire g.bytes)

/-- Every unit is empty and every SIGNAL has fired. -/
def Core.fenced (x : Core) : Bool := x.ops.isEmpty && x.signals.isEmpty

/-- BARRIER: with its fence met the core arrives, and dispatch is held (R109). -/
def execBarrier (c : Nat) (s : State) : Host.Outcome State Fault Refusal :=
  s.run (coreOk c) (s.dev.atOp c 0x32 && (s.dev.core c).fenced) (fun d =>
    let l := d.nextOp c
    d.modCore c (fun x =>
      if bit (opNum l 1 1) 0 then { x with phase := .stepBarrier, since := d.clk }
      else
        let id := opNum l 2 1
        let n := Tab.get 0 x.arrivals id
        { x with phase := .barrier id n, since := d.clk, arrivals := Tab.set 0 x.arrivals id (n + 1) }))

/-- Every core of a RUN has arrived at the next instance of a barrier. -/
def Dev.barrierFull (d : Dev) (r : Run) (id : Nat) : Bool :=
  r.cores.all (fun c => Tab.get 0 r.released id < Tab.get 0 (d.coreIn r c).arrivals id)

/-- A core that waits at the released instance goes on. -/
def Core.released (x : Core) (id n : Nat) : Core :=
  if x.phase = .barrier id n then { x with phase := .running, next := x.next + 1 } else x

/-- LOCAL_BARRIER_RELEASE: the last core of the RUN has arrived (R109); a pre-empted core passes on resume (R115). -/
def execLocalBarrierRelease (ring sub id : Nat) (s : State) : Host.Outcome State Fault Refusal :=
  s.run (ring < 16 && id < 256) (s.dev.up && (s.dev.run? (ring, sub)).any (fun r => r.checked && !r.stopping && s.dev.barrierFull r id)) (fun d =>
    match d.run? (ring, sub) with
    | none => d
    | some r =>
      let n := Tab.get 0 r.released id
      let d := r.cores.foldl (fun d c => if (d.core c).owner = some r.key then d.modCore c (·.released id n) else d) d
      (d.modRun r.key (fun r => { r with released := Tab.set 0 r.released id (n + 1) })).bump Reg.ARR_SEQ_OPS.COUNT r.cores.length)

/-- A REPLAY drain of the current segment has no verdict, or its overflow replay is due (R110). -/
def Core.verdictOpen (x : Core) : Bool :=
  x.replayDue || !x.overs.isEmpty ||
    (match x.mark with
     | some m => x.ops.any (fun o => m < o.pos && opCode o.bytes = 4 && drReplay o.bytes)
     | none => false)

/-- REPLAY_MARK: a segment opens (R81, R110). -/
def execReplayMark (c : Nat) (s : State) : Host.Outcome State Fault Refusal :=
  s.run (coreOk c) (s.dev.atOp c 0x38 && !(s.dev.core c).verdictOpen) (fun d =>
    let l := d.nextOp c
    ((d.modCore c (fun x => { x with
      mark := some x.next, delta := opBits l 1 0 4, attempts := 0, lower := [], overs := [], replayDue := false })).passNext c).bump
      Reg.ARR_SEQ_OPS.COUNT 1)

/-- END, written or at the program's end: no further dispatch, the fence applies (R110). -/
def execEndOp (c : Nat) (s : State) : Host.Outcome State Fault Refusal :=
  s.run (coreOk c) ((s.dev.atOp c 0x3F || (s.dev.dispatches c && s.dev.pastEnd c)) && !(s.dev.core c).verdictOpen) (fun d =>
    d.modCore c (fun x => { x with phase := .ending }))

/-- PROGRAM_COMPLETE: the END fence is met; the RUN completes once all its cores have ended (R110). -/
def execProgramComplete (c : Nat) (s : State) : Host.Outcome State Fault Refusal :=
  s.run (coreOk c) (s.dev.up && (s.dev.core c).phase = .ending && (s.dev.core c).fenced) (fun d =>
    ((d.modCore c (fun x => { x with phase := .ended })).bump Reg.ARR_SEQ_OPS.COUNT 1).checkOwnerEnd c)

end Sys2Proof.Machine
end

