-- ==== Sys2Proof/Machine/Preempt.lean ====
section
/-! DEFINITION. Pre-emption: request, save, restore (R56, R60, R113 to R115, R199). -/

namespace Sys2Proof.Machine

/-- A RUN of higher priority waits for a core, none of its cores lost or migrating (R168, R199). -/
def Dev.wanted (d : Dev) (c : Nat) (q : Run) : Bool :=
  d.waiting.any (fun r => q.prio < r.prio && r.needs.contains c && r.cores.all (fun k => d.coreSt k = 0))

/-- A pre-emption request is due on a core: its program may be pre-empted, and it has not ended. -/
def Dev.preemptDue (d : Dev) (c : Nat) : Bool :=
  let x := d.core c
  match d.ownerRun c with
  | none => false
  | some q =>
    q.checked && !q.stopping && !x.preempt && !d.noPreempt c x.hdr && d.wanted c q &&
      (match x.phase with
       | .idle => false
       | .checking => false
       | .ended => false
       | .stopped => false
       | .saving => false
       | _ => true)

/-- PREEMPT_REQUEST: dispatch stops, started operations run on (R113). -/
def execPreemptRequest (c : Nat) (s : State) : Host.Outcome State Fault Refusal :=
  s.run (coreOk c) (s.dev.up && s.dev.preemptDue c) (fun d => d.modCore c (fun x => { x with preempt := true }))

/-- A core is at the boundary where it saves: nothing is started, no replay is due or under way, every SIGNAL whose fence
is met has fired; one that has arrived at the step barrier waits for its release (R113, R115). -/
def Core.savable (x : Core) : Bool :=
  x.preempt && !x.replayDue && x.ops.all (fun o => (!o.started || o.overflowed) && !o.again) &&
    (match x.signals with
     | g :: _ => !x.fenceMet g
     | [] => true) &&
    (match x.phase with
     | .running => true
     | .waitEvent _ _ => true
     | .barrier _ _ => true
     | .ending => true
     | _ => false)

/-- What the save record holds: a tile not consumed is discarded and its W_LOAD put at its position; a WAIT is the saved
dispatch position (R56, R113, R115). -/
def Core.toSave (x : Core) : Core :=
  let y := x.dropShadow false
  { y with
    preempt := false
    phase := match y.phase with
      | .waitEvent _ _ => .running
      | p => p }

/-- SAVE_BASE, SAVE_LEN and SAVE_AREA of a core's program. -/
def Dev.saveArea (d : Dev) (c : Nat) : Nat × Nat × Nat :=
  let h := d.progHdr c (d.core c).hdr
  (leAt h 8 4, leAt h 12 4, leAt h 16 5)

/-- PREEMPT_SAVE: the record is formed; the wait from the request to the boundary is given (R56, R113).
DESIGN CHOICE (log entry 39). -/
def execPreemptSave (c cycles : Nat) (s : State) : Host.Outcome State Fault Refusal :=
  s.run (coreOk c) (s.dev.up && (s.dev.core c).savable) (fun d =>
    let x := d.core c
    let a := d.saveArea c
    let d := d.modOwner c (fun r => { r with saved := Tab.set Core.init r.saved c { x.toSave with area := a } })
    let d := d.setFld Reg.ARR_PREEMPT_MAX.CYCLES (max (d.fld Reg.ARR_PREEMPT_MAX.CYCLES) (satTo 0xFFFFFF cycles))
    d.setCore c { x with phase := .saving, area := a })

/-- A copy that keeps poison; a mirrored destination sends on what of it can be read. -/
def Dev.copyKept (d : Dev) (src dst n : Nat) : Dev :=
  ((d.poison.filter (fun p => overlaps p.1 (poisonUnit p.1) src n)).foldl (fun m p => m.setPoison (dst + (max p.1 src - src)))
    (d.copy src dst n)).mirror dst n

/-- PREEMPT_SAVE_DONE: record and window are in the save area, the core is free for the RUN that waits (R113, R199). The
record's bytes have no layout in the spec: its 4 KiB are free, its content stands in the RUN.
DESIGN CHOICE (log entry 39). -/
def execPreemptSaveDone (c micros : Nat) (s : State) : Host.Outcome State Fault Refusal :=
  s.run (coreOk c) (s.dev.up && (s.dev.core c).phase = .saving) (fun d =>
    let w := (d.core c).area
    let d := d.storeFree w.2.2 4096
    let d := if w.2.1 = 0 then d else d.copyKept (sramAt c w.1) (w.2.2 + 4096) w.2.1
    let d := d.bumpSat Reg.ARR_PREEMPTS.SAVES 1
    let d := d.setFld Reg.ARR_SAVE_MAX.SAVE_US (max (d.fld Reg.ARR_SAVE_MAX.SAVE_US) (satTo 0xFFFF micros))
    let k := (d.core c).owner
    let d := (d.setCore c Core.init).grantRuns
    match k with
    | some k => d.checkRunEnd k
    | none => d)

/-- The save record of a core that is being restored. -/
def Dev.savedCore (d : Dev) (c : Nat) : Option Core :=
  (d.ownerRun c).bind (fun r => (r.saved.find? (fun e => e.1 = c)).map (·.2))

/-- The save window of a saved core is read back; the rest of its SRAM is undefined (R113, R114). -/
def Dev.readBack (d : Dev) (c : Nat) (x : Core) : Dev :=
  let w := x.area
  let y := d.core c
  let d := (d.scramble (sramAt c 0) w.1).scramble (sramAt c (w.1 + w.2.1)) (sramSize - (w.1 + w.2.1))
  let d := if w.2.1 = 0 then d else d.copyKept (w.2.2 + 4096) (sramAt c w.1) w.2.1
  d.setCore c { Core.init with owner := y.owner, hdr := x.hdr, phase := .reloading, preempt := y.preempt }

/-- PREEMPT_RESTORE: the cores are free again; window and record are read (R114). DESIGN CHOICE (log entry 39). -/
def execPreemptRestore (c : Nat) (s : State) : Host.Outcome State Fault Refusal :=
  s.run (coreOk c) (s.dev.up && (s.dev.core c).phase = .restoring && (s.dev.savedCore c).isSome) (fun d =>
    match d.savedCore c with
    | some x => d.readBack c x
    | none => d)

/-- A barrier released during the pre-emption is passed (R115). -/
def Core.passReleased (x : Core) (r : Run) : Core :=
  match x.phase with
  | .barrier id n => if n < Tab.get 0 r.released id then { x with phase := .running, next := x.next + 1 } else x
  | _ => x

/-- The active tile is loaded again from its W_LOAD, as the program holds it now (R114). -/
def Dev.reloadActive (d : Dev) (c : Nat) : Dev :=
  let x := d.core c
  match x.active with
  | none => d
  | some t =>
    let l := d.progOp c x.hdr t.pos
    match d.poisonOf (wlSram c l) with
    | some p => d.stopMem c t.pos p 0
    | none => d.setCore c { x with active := some (d.tileFrom c t.pos l) }

/-- PREEMPT_RESTORE_DONE: the saved operations are dispatched again and dispatch goes on (R114). -/
def execPreemptRestoreDone (c micros : Nat) (s : State) : Host.Outcome State Fault Refusal :=
  s.run (coreOk c) (s.dev.up && (s.dev.core c).phase = .reloading && (s.dev.savedCore c).isSome) (fun d =>
    match d.ownerRun c, d.savedCore c with
    | some r, some x =>
      let y := d.core c
      let d := d.setCore c ({ x with owner := y.owner, preempt := y.preempt } : Core)
      let d := d.modCore c (·.passReleased r)
      let d := d.modRun r.key (fun r => { r with saved := Tab.erase r.saved c })
      let d := d.bumpSat Reg.ARR_PREEMPTS.RESUMES 1
      let d := d.setFld Reg.ARR_SAVE_MAX.RESTORE_US (max (d.fld Reg.ARR_SAVE_MAX.RESTORE_US) (satTo 0xFFFF micros))
      (d.reloadActive c).grantRuns
    | _, _ => d)

end Sys2Proof.Machine
end

