-- ==== Sys2Proof/Machine/Vault.lean ====
section
/-! DEFINITION. Vault memory: access and its errors, sparing, pipes, scrub, refresh, mirror, migration, and the descriptors that name vaults or cores (R139 to R170, R374 to R379). -/

namespace Sys2Proof.Machine

/-! ### Places (R141) -/

/-- The column of a logical core: 28 · tower + site. -/
def Dev.column (d : Dev) (c : Nat) : Nat := 28 * towerOf c + d.siteOf c

/-- Layer of a vault offset. -/
def vLayer (x : Nat) : Nat := bits x 11 4 ^^^ bits x 23 4
/-- Bank. -/
def vBank (x : Nat) : Nat := bits x 15 4 ^^^ bits x 19 4
/-- Row. -/
def vRow (x : Nat) : Nat := bits x 19 13

/-- The key of a bank of a column; bank 16 is the slice's spare bank. -/
def bankKey (col layer bank : Nat) : Nat := 512 * col + 32 * layer + bank

/-- A bank's number: a column, a layer, one of 17 banks. -/
def bankOk (bk : Nat) : Bool := bk < 512 * 224 && bk % 32 ≤ 16

/-- The bank that stands for a bank of a column: the spare bank of its slice once that has taken its place (R158). -/
def Dev.bankIn (d : Dev) (col layer bank : Nat) : Nat :=
  let bk := bankKey col layer bank
  if Tab.get 0 d.vlt.slices (bk / 32) = bank + 1 && !d.vlt.copies.any (fun e => e.2 = bk) then bankKey col layer 16 else bk

/-- The bank and row of a vault offset of a logical core. -/
def Dev.bankOf (d : Dev) (c x : Nat) : Nat × Nat := (d.bankIn (d.column c) (vLayer x) (vBank x), vRow x)

/-! ### Rows, banks, pipes (R149, R157 to R159) -/

/-- The vaults changed. -/
def Dev.modVlt (d : Dev) (f : Vlt → Vlt) : Dev := { d with vlt := f d.vlt }

/-- A migration for a pipe or a bank: at the next step gap in RUNNING, at once otherwise (R149, R159).
DESIGN CHOICE and DEDUCED (log entry 23). -/
def Dev.askAtGap (d : Dev) (c : Nat) (cause : MigCause) : Dev :=
  if d.st = .running then d.deferGap (.migration c (if cause = .pipe then 1 else 2)) else (d.askMigration c cause none).failRuns

/-- A bank must be spared: its slice's spare bank takes a copy of it, or that kind of spare is used up and the vault's core
migrates; a spare column (core 0xFF) has none that could (R158, R159). -/
def Dev.spareBank (d : Dev) (c bk : Nat) : Dev :=
  if d.vlt.copies.any (fun e => e.2 = bk) then d
  else if Tab.get 0 d.vlt.slices (bk / 32) != 0 then
    (if coreOk c then (d.setReason 1).askAtGap c .bank else d.setReason 1)
  else d.modVlt (fun v => { v with copies := v.copies ++ [(c, bk)], slices := Tab.set 0 v.slices (bk / 32) (bk % 32 + 1) })

/-- The lowest spare row of a bank that is not in use. -/
def Dev.freeRow (d : Dev) (bk : Nat) : Option Nat := (List.range 32).find? (fun i => !bit (Tab.get 0 d.vlt.rowsUsed bk) i)

/-- A row is spared, anew when it stands on a spare row already: an unused spare row of its bank takes it, its repair is fused
in the background, and its corrected errors count from zero; with none left the bank is spared (R157, R158). -/
def Dev.spareRow (d : Dev) (c bk row : Nat) : Dev :=
  match d.freeRow bk with
  | some i =>
    (d.modVlt (fun v => { v with
      rowsUsed := Tab.set 0 v.rowsUsed bk (setBit (Tab.get 0 v.rowsUsed bk) i true)
      rowCe := Tab.set 0 v.rowCe (8192 * bk + row) 0
      unfused := v.unfused.filter (fun e => !(e.1 = bk && e.2.1 = row)) ++ [(bk, row, i)] })).bumpSat Reg.VLT_SPARES_USED.ROWS 1
  | none => d.spareBank c bk

/-- A row has had an uncorrectable read: it is spared, and at four distinct rows so is the bank (R157, R158). -/
def Dev.ueRow (d : Dev) (c bk row : Nat) : Dev :=
  let d := d.spareRow c bk row
  let l := Tab.get [] d.vlt.ueRows bk
  let l := if l.contains row then l else row :: l
  let d := d.modVlt (fun v => { v with ueRows := Tab.set [] v.ueRows bk l })
  if 4 ≤ l.length then d.spareBank c bk else d

/-- Failed transfers of pipes, in order: counted, retrained at once after eight in a row, at the next gap when those of the
last second exceed the rate of VLT_CFG (R149). DESIGN CHOICE and DEDUCED (log entry 22). -/
def Dev.pipeFail (d : Dev) (c p : Nat) : Dev :=
  let key := 32 * d.column c + p
  let n := Tab.get 0 d.vlt.fails key + 1
  let w := d.clk :: (Tab.get [] d.vlt.secFails key).filter (fun t => d.clk - t < sec 1)
  let d := d.modVlt (fun v => { v with
    fails := Tab.set 0 v.fails key n
    secFails := Tab.set [] v.secFails key w })
  if 8 ≤ n then d.modVlt (fun v => { v with retrain := if v.retrain.contains (c, p) then v.retrain else v.retrain ++ [(c, p)] })
  else if d.fld Reg.VLT_CFG.PIPE_RATE < w.length then d.deferGap (.pipeRetrain c p)
  else d

/-- A pipe has served a transfer. -/
def Dev.pipeGood (d : Dev) (c p : Nat) : Dev :=
  d.modVlt (fun v => { v with fails := Tab.set 0 v.fails (32 * d.column c + p) 0 })

/-- The attempts of a transfer: those that failed, and the pipe that served it unless all four did. Every retry counts, the
last of four failed attempts has none (R148). -/
def Dev.attempts (d : Dev) (c : Nat) (failed : List Nat) (pipe : Nat) : Dev :=
  let d := (failed.foldl (fun d p => d.pipeFail c p) d).bump Reg.VLT_CRC_RETRY.COUNT (min failed.length 3)
  if 4 ≤ failed.length then d else d.pipeGood c pipe

/-- The transfers of an access over the pipes. -/
def Dev.pipeTraffic (d : Dev) (c : Nat) (e : VaultErr) : Dev := d.attempts c e.failed e.pipe

/-- The attempts of one transfer: at most four fail, each retry on a different pipe (R148). -/
def attemptsOk (failed : List Nat) (pipe : Nat) : Bool :=
  failed.length ≤ 4 && (failed ++ [pipe]).all (· < 20) && decide (if 4 ≤ failed.length then failed else failed ++ [pipe]).Nodup

/-- The operands of a vault error that stand for something (R148, R150, R151). -/
def vaultErrOk (c : Nat) (e : VaultErr) : Bool :=
  attemptsOk e.failed e.pipe && e.allFail = decide (e.failed.length = 4) && e.sector % 64 = 0 && vaultBase c ≤ e.sector &&
    e.sector < vaultBase (c + 1)

/-- The attempts on a spare row, made only after four have failed on the row. -/
def againOk (e : VaultErr) (again : List Nat) : Bool := attemptsOk again e.pipe && (again.isEmpty || e.allFail)

/-! ### Reads and writes (R142, R148, R150, R151, R168, R169) -/

/-- A vault address lies in a mirrored range whose mirror is OK, its partner can be reached, and the partner holds it: not so
a poisoned sector that the last full copy could not send (R151, R160, R169). DESIGN CHOICE and DEDUCED (log entry 22). -/
def Dev.mirrorHolds (d : Dev) (a : Nat) : Bool :=
  match regionOf a with
  | .vault c x =>
    d.locked && d.on Reg.VLT_MIRROR_PEER.ENABLE && d.fld Reg.VLT_MIRROR_PEER.STATE = 1 &&
      !d.peerGone (d.fld Reg.VLT_MIRROR_PEER.FLAT_ID) &&
      (d.mirrorRange c).1 ≤ x && x < (d.mirrorRange c).1 + (d.mirrorRange c).2 &&
      !(d.vlt.stale.contains (a / 64 * 64) && d.poisonIn (a / 64 * 64) 64)
  | _ => false

/-- An uncorrectable read of a sector: with the mirror OK it is fetched from the buddy, which holds it as last written;
otherwise it is poisoned. Either way its row is spared (R151, R161). -/
def Dev.sectorLost (d : Dev) (c a : Nat) : Dev :=
  let off := a % 0x100000000
  let b := d.bankOf c off
  let held := d.mirrorHolds a
  let d := d.bumpSat Reg.VLT_UE.UE 1
  let d := if held then d.bumpSat Reg.VLT_UE.BUDDY 1 else d.setPoison a
  (d.ueRow c b.1 b.2).record (.mk1 4 1 c (leBytes 4 off ++ leBytes 1 (flag held)))

/-- What a read's checks find in a sector: corrected errors are counted and written back, one present again spares the
row, an uncorrectable one (lost) loses the sector. -/
def Dev.sectorRead (d : Dev) (c : Nat) (e : VaultErr) (lost : Bool) : Dev :=
  let b := d.bankOf c (e.sector % 0x100000000)
  let d := d.bump Reg.VLT_CE.COUNT e.ce
  if lost then d.sectorLost c e.sector else if e.hard then d.spareRow c b.1 b.2 else d

/-- A read meets a sector poisoned before: with the mirror OK it is fetched from the buddy and stands there again, otherwise
the read fails; either way it counts and writes its record (R151). -/
def Dev.poisonRead (d : Dev) (a : Nat) : Dev :=
  if d.mirrorHolds a then
    let d : Dev := { d with poison := d.poison.filter (fun e => e.1 != a) }
    ((d.bumpSat Reg.VLT_UE.UE 1).bumpSat Reg.VLT_UE.BUDDY 1).record
      (.mk1 4 1 (a / 0x100000000) (leBytes 4 (a % 0x100000000) ++ leBytes 1 1))
  else d.memFault a 2

/-- The poisoned units that meet [a, a + n). -/
def Dev.poisonedIn (d : Dev) (a n : Nat) : List Nat := (d.poison.map (·.1)).filter (fun p => overlaps p (poisonUnit p) a n)

/-- A fetch from the buddy waits for the mirror fence: one of the sectors would be fetched while mirror writes are out (R161). -/
def Dev.fenceHolds (d : Dev) (l : List Nat) : Bool := d.mirrorOut != 0 && l.any d.mirrorHolds

/-- VAULT_READ: a request of up to 256 bytes at a vault offset; a sector to be fetched from the buddy waits for the mirror
fence (R142, R150, R151, R161, R169). DESIGN CHOICE and DEDUCED (log entry 22). -/
def execVaultRead (c off len : Nat) (e : VaultErr) (s : State) : Host.Outcome State Fault Refusal :=
  s.run (coreOk c && 1 ≤ len && len ≤ 256 && off + len ≤ 0x100000000 && vaultErrOk c e)
    (s.dev.live && !s.dev.fenceHolds (s.dev.poisonedIn (vaultBase c + off) len ++ (if e.ue || e.allFail then [e.sector] else [])))
    (fun d =>
    let a := vaultBase c + off
    if d.coreGone c then d.emit (.readData (zeros len) true)
    else
      let old := (d.poisonedIn a len).filter (fun p => !((e.ue || e.allFail) && p = e.sector))
      let d := old.foldl Dev.poisonRead ((d.pipeTraffic c e).sectorRead c e (e.ue || e.allFail))
      d.emit (if d.poisonIn a len then .readData (zeros len) true else .readData (d.read a len) false))

/-- A write of [off, off + n) of a vault covers only part of a 16-byte unit of the sector at offset s, which it reads (R142). -/
def readsSector (off n s : Nat) : Bool :=
  (off % 16 != 0 && off / 64 * 64 = s) || ((off + n) % 16 != 0 && (off + n) / 64 * 64 = s)

/-- VAULT_WRITE: the bytes are visible from now on, and go to the mirror; a write of part of a 16-byte unit reads its sector
first, with all that a read finds; a write that fails four times spares its row, and the bank when the attempts on the spare
row (again) fail too (R142, R148, R150, R161). DESIGN CHOICE and DEDUCED (log entry 22). -/
def execVaultWrite (c off : Nat) (data : List Byte) (e : VaultErr) (again : List Nat) (s : State) :
    Host.Outcome State Fault Refusal :=
  s.run (coreOk c && 1 ≤ data.length && data.length ≤ 256 && off + data.length ≤ 0x100000000 && vaultErrOk c e && againOk e again)
    (s.dev.live && !(e.ue && readsSector off data.length (e.sector % 0x100000000) && s.dev.fenceHolds [e.sector])) (fun d =>
    if d.coreGone c then d
    else
      let b := d.bankOf c (e.sector % 0x100000000)
      let d := if readsSector off data.length (e.sector % 0x100000000) then d.sectorRead c e e.ue else d
      let d := d.pipeTraffic c e
      let d := if e.allFail then (d.spareRow c b.1 b.2).attempts c again e.pipe else d
      let d := if 4 ≤ again.length then d.spareBank c b.1 else d
      d.store (vaultBase c + off) data)

/-- ROW_REPAIR_FUSED: the repair of a row stands in the fuses (R157). DESIGN CHOICE (log entry 41). -/
def execRowRepairFused (bk row : Nat) (s : State) : Host.Outcome State Fault Refusal :=
  s.run (bankOk bk && row < 8192)
    (s.dev.up && s.dev.vlt.unfused.any (fun e => e.1 = bk && e.2.1 = row)) (fun d =>
    match d.vlt.unfused.find? (fun e => e.1 = bk && e.2.1 = row) with
    | none => d
    | some e =>
      let d := d.modVlt (fun v => { v with unfused := v.unfused.erase e })
      { d with fuses := { d.fuses with rows := Tab.set 0 d.fuses.rows (32 * bk + e.2.2) (row + 1) } })

/-- BANK_SPARE_DONE: the copy ends and the bank is remapped: from now on the slice's spare bank stands for it, with spare rows
of its own (R158). A spare column's copy names core 0xFF. -/
def execBankSpareDone (c bk : Nat) (s : State) : Host.Outcome State Fault Refusal :=
  s.run ((coreOk c || c = 0xFF) && bankOk bk) (s.dev.up && s.dev.vlt.copies.contains (c, bk)) (fun d =>
    ((d.modVlt (fun v => { v with copies := v.copies.erase (c, bk) })).bumpSat Reg.VLT_SPARES_USED.BANKS 1).record
      (.mk1 4 2 c (leBytes 1 (bk / 32 % 16) ++ leBytes 1 (bk % 32))))

/-- REFRESH_DUE: the next eight of a bank's 8,224 rows are refreshed, in cyclic order; a bank is one of a column's, spare
columns and spare banks included (R154). DESIGN CHOICE (log entry 7). -/
def execRefreshDue (col layer bank : Nat) (s : State) : Host.Outcome State Fault Refusal :=
  s.run (col < 224 && layer < 16 && bank < 17) s.dev.live (fun d =>
    let k := bankKey col layer bank
    d.modVlt (fun v => { v with refresh := Tab.set 0 v.refresh k ((Tab.get 0 v.refresh k + 8) % 8224) }))

/-- The logical core on a site, none for a spare site. -/
def Dev.coreAt (d : Dev) (t site : Nat) : Option Nat :=
  ((List.range 24).map (fun i => 24 * t + i)).find? (fun c => d.siteOf c = site && !d.coreGone c)

/-- A site is in service or in reserve. -/
def Dev.siteUsed (d : Dev) (t site : Nat) : Bool :=
  (d.coreAt t site).isSome || bit (d.fld (Reg.TWR_SPARE_SITES.SPARE t)) site

/-- Scrub of the sector at a column's pointer (R152): corrected errors count for its row, which is spared at the limit;
after the last sector a pass is complete. -/
def Dev.scrubSector (d : Dev) (t site ce : Nat) (hard ue : Bool) : Dev :=
  let col := 28 * t + site
  let n := Tab.get 0 d.vlt.scrub col
  let off := 64 * n
  let c := (d.coreAt t site).getD 0xFF
  let bk := d.bankIn col (vLayer off) (vBank off)
  let row := vRow off
  let cnt := Tab.get 0 d.vlt.rowCe (8192 * bk + row) + ce
  let d := d.bump Reg.VLT_CE.COUNT ce
  let d := d.modVlt (fun v => { v with rowCe := Tab.set 0 v.rowCe (8192 * bk + row) cnt })
  let d :=
    if ue then (match d.coreAt t site with
      | some c => d.sectorLost c (vaultBase c + off)
      | none => ((d.bumpSat Reg.VLT_UE.UE 1).ueRow c bk row).record (.mk1 4 1 c (leBytes 4 off ++ [0])))
    else if hard || (ce != 0 && max 1 (d.fld Reg.VLT_CFG.ROW_CE_LIMIT) ≤ cnt) then d.spareRow c bk row
    else d
  let d := if !ue && coreOk c && d.poisonIn (vaultBase c + off) 64 then d.poisonRead (vaultBase c + off) else d
  if n + 1 < 2 ^ 26 then d.modVlt (fun v => { v with scrub := Tab.set 0 v.scrub col (n + 1) })
  else (d.modVlt (fun v => { v with
    scrub := Tab.set 0 v.scrub col 0
    rowCe := v.rowCe.filter (fun e => e.1 / (8192 * 512) != col) })).bump Reg.VLT_SCRUB_PASS.COUNT 1

/-- The sector at a column's scrub pointer would be fetched from the buddy, and the fence holds it (R161). -/
def Dev.scrubWaits (d : Dev) (t site : Nat) (ue : Bool) : Bool :=
  match d.coreAt t site with
  | none => false
  | some c =>
    let a := vaultBase c + 64 * Tab.get 0 d.vlt.scrub (28 * t + site)
    (ue || d.poisonIn a 64) && d.fenceHolds [a]

/-- PATROL_SCRUB: the next sector of a column is read; ce corrected errors, hard, uncorrectable (R152).
DESIGN CHOICE (log entry 7). -/
def execPatrolScrub (t site ce : Nat) (hard ue : Bool) (s : State) : Host.Outcome State Fault Refusal :=
  s.run (t < 8 && site < 28) (s.dev.live && s.dev.siteUsed t site && !s.dev.scrubWaits t site ue)
    (fun d => d.scrubSector t site ce hard ue)

/-! ### Losing a core (R26, R33, R149, R169, R170) -/

/-- A migration's end: its record, VLT_MIG_LAST (R167, R169); result 1 ACTIVE, 2 LOST. -/
def Dev.migrationEnd (d : Dev) (m : Migr) (result : Nat) : Dev :=
  let dur := satTo 0xFFFFFF ((d.clk - m.since) / 800)
  let d := (((d.setFld Reg.VLT_MIG_LAST.DURATION_US dur).setFld Reg.VLT_MIG_LAST.RESULT result).setFld
    Reg.VLT_MIG_LAST.LOGICAL m.core).setFld Reg.VLT_MIG_LAST.BUDDY_SECTORS m.buddy
  d.record (.mk1 3 3 m.core (leBytes 1 result ++ leBytes 3 dur ++ leBytes 3 m.buddy))

/-- A site goes back to reserve. -/
def Dev.returnSite (d : Dev) (t site : Nat) : Dev :=
  let d := d.setFldBit (Reg.TWR_SPARE_SITES.SPARE t) site true
  d.setFld (Reg.TWR_SPARE_SITES.COUNT t) (popCount 28 (d.fld (Reg.TWR_SPARE_SITES.SPARE t)))

/-- A site leaves the reserve. -/
def Dev.takeSite (d : Dev) (t site : Nat) : Dev :=
  let d := d.setFldBit (Reg.TWR_SPARE_SITES.SPARE t) site false
  d.setFld (Reg.TWR_SPARE_SITES.COUNT t) (popCount 28 (d.fld (Reg.TWR_SPARE_SITES.SPARE t)))

/-- A site is retired. -/
def Dev.retireSite (d : Dev) (t site : Nat) : Dev := d.setFldBit (Reg.TWR_RETIRED_SITES.RETIRED t) site true

/-- A migration leaves the list. -/
def Dev.dropMig (d : Dev) (c : Nat) : Dev :=
  ({ d with migs := d.migs.filter (fun m => m.core != c) } : Dev).showMigs (towerOf c)

/-- The checks of a HANDOVER_EXPORT (R396, R398). -/
def Dev.exportCheck (d : Dev) (j : Desc) : Option Ending :=
  firstFail [j.reserved [(24, 0, 16)], d.stateCheck [.quiesced], failIf d.flt.exported d.conflict]

/-- The checks of a HANDOVER_IMPORT (R396). -/
def Dev.importCheck (d : Dev) (j : Desc) : Option Ending :=
  firstFail [j.reserved [(24, 0, 16), (26, 0, 16)], d.stateCheck [.ready]]

/-- HANDOVER_EXPORTs and HANDOVER_IMPORTs that wait for a migration complete STATE_LOST when it aborts (R168, R169). -/
def Dev.dropHandovers (d : Dev) (c : Nat) : Dev :=
  (List.range 16).foldl (fun d r =>
    if d.descDue r (fun j => j.opc = 0xB0 || j.opc = 0xB1) then
      d.startDesc r (fun d j => if j.opc = 0xB0 then d.exportCheck j else d.importCheck j) (fun d j => d.finish j (Ending.lost c))
    else d) d

/-- A migration aborts (R169): the core is LOST, its source site retired, the target back in reserve, and what waited on
it completes STATE_LOST. -/
def Dev.abortMig (d : Dev) (m : Migr) : Dev :=
  let t := towerOf m.core
  let d := if d.coreGone m.core then d else d.setCoreSt m.core 2 (d.siteOf m.core) 0x1F
  let d := if m.phase = .waiting || m.phase = .zero then d else d.retireSite t (d.siteOf m.core)
  let d := if m.target = 0x1F then d else d.returnSite t m.target
  let d := (d.setFld (Reg.TWR_CORE.TARGET m.core) 0x1F).dropMig m.core
  let d := match m.desc with
    | some k => d.finishKey k (Ending.lost m.core)
    | none => d
  ((d.migrationEnd m 2).dropHandovers m.core).failRuns.quiesceNow

/-- A logical core becomes LOST: a migration of it aborts, RUNs that name it end (R26, R33, R149). -/
def Dev.coreLost (d : Dev) (c : Nat) : Dev :=
  match d.migs.find? (fun m => m.core = c) with
  | some m => d.abortMig m
  | none => if d.coreGone c then d else (d.loseCore c).failRuns

/-- Every logical core of a tower becomes LOST. -/
def Dev.towerLost (d : Dev) (t : Nat) : Dev := (List.range 24).foldl (fun d i => d.coreLost (24 * t + i)) d

/-- The buddy is lost, or the mirror leaves OK: migrations that fetched from it abort unless verified (R169). -/
def Dev.fetchLost (d : Dev) : Dev := (d.migs.filter (fun m => m.buddy != 0)).foldl Dev.abortMig d

/-- A mirror write has failed: the mirror is BROKEN, and migrations that fetched from the buddy abort (R162, R169). -/
def Dev.buddyLost (d : Dev) : Dev := d.breakMirror.fetchLost

/-! ### Pipes (R149, R156, R163 to R165) -/

/-- The band of a tower's DRAM. -/
def Dev.towerBand (d : Dev) (t : Nat) : Nat := bits (d.fld Reg.VLT_BAND.BAND) (2 * t) 2

/-- A pipe is in service. -/
def Dev.pipeUp (d : Dev) (c p : Nat) : Bool := bit (d.fld (Reg.VLT_PIPES.UP c)) p

/-- A pipe goes out of service until reset (R149). -/
def Dev.pipeOut (d : Dev) (c p : Nat) : Dev :=
  let d := (d.setFldBit (Reg.VLT_PIPES.UP c) p false).bumpSat Reg.VLT_SPARES_USED.PIPES_OUT 1
  let d := d.setFld (Reg.TWR_CORE.PIPES c) (popCount 20 (d.fld (Reg.VLT_PIPES.UP c)))
  let d := d.record (.mk1 4 3 c (leBytes 1 p))
  if d.fld (Reg.TWR_CORE.PIPES c) < 10 then d.coreLost c
  else if d.coreSt c = 0 then d.askAtGap c .pipe
  else d

/-- The next pipe of a job's vault is taken up after one is done. -/
def SweepJob.advance (j : SweepJob) (c p : Nat) : SweepJob :=
  if !j.busy.contains (c, p) then j
  else
    let busy := j.busy.erase (c, p)
    match j.left.find? (fun e => e.1 = c) with
    | none => { j with busy := busy }
    | some e => { j with busy := busy ++ [e], left := j.left.erase e }

/-- A job over (unit, sub-unit) pairs, one of each unit taken up at once. -/
def SweepJob.begin (k : Nat × Nat) (l : List (Nat × Nat)) : SweepJob :=
  let first := l.foldl (fun acc e => if acc.any (fun x => x.1 = e.1) then acc else acc ++ [e]) []
  ⟨k, l.filter (fun e => !first.contains e), first, []⟩

/-- Calibration jobs with nothing left complete DONE. -/
def Dev.closeVaultCals (d : Dev) : Dev :=
  let done := d.vlt.calJobs.filter (fun j => j.busy.isEmpty && j.left.isEmpty)
  let d := d.modVlt (fun v => { v with calJobs := v.calJobs.filter (fun j => !(j.busy.isEmpty && j.left.isEmpty)) })
  done.foldl (fun d j => d.finishKey j.desc (Ending.plain .done)) d

/-- Pipes that jobs have taken up are under retrain. -/
def Dev.feedRetrains (d : Dev) : Dev :=
  d.modVlt (fun v => { v with retrain :=
    (v.calJobs.map (·.busy)).flatten.foldl (fun l e => if l.contains e then l else l ++ [e]) v.retrain })

/-- A pipe's receiver set of the tower's present band is trained in the present power band (R156, R165). -/
def Dev.trainSet (d : Dev) (c p : Nat) : Dev :=
  let k := 4 * (32 * d.column c + p) + d.towerBand (towerOf c)
  d.modVlt (fun v => { v with sets := Tab.set 0 v.sets k (d.fld Reg.TGT_STATUS.POWER_BAND + 1) })

/-- PIPE_RETRAIN_DONE: the pipe serves again with a fresh receiver set, or goes out of service (R149, R156, R165). -/
def execPipeRetrainDone (c p : Nat) (ok : Bool) (s : State) : Host.Outcome State Fault Refusal :=
  s.run (coreOk c && p < 20) (s.dev.up && s.dev.vlt.retrain.contains (c, p)) (fun d =>
    let d := d.modVlt (fun v => { v with
      retrain := v.retrain.erase (c, p)
      fails := Tab.set 0 v.fails (32 * d.column c + p) 0
      secFails := Tab.set [] v.secFails (32 * d.column c + p) []
      calJobs := v.calJobs.map (fun j => j.advance c p) })
    let d := if d.coreGone c then d else if ok then d.trainSet c p else d.pipeOut c p
    d.feedRetrains.closeVaultCals)

/-! ### Descriptors -/

/-- MASK of CAL_REQ and MARGIN. -/
def Desc.mask (j : Desc) : Nat := j.num 26 24

/-- The cores a mask names that serve. DESIGN CHOICE and DEDUCED (log entry 22). -/
def Dev.namedCores (d : Dev) (j : Desc) : List Nat := (onesOf 192 j.mask).filter (fun c => !d.coreGone c)

/-- A named core is MIGRATING. -/
def Dev.namedMigrating (d : Dev) (j : Desc) : Bool := (onesOf 192 j.mask).any (fun c => d.coreSt c = 1)

/-- A CAL_REQ for vault pipes starts its retrains (R165). -/
def Dev.calVaultGo (d : Dev) (j : Desc) : Dev :=
  let l := ((d.namedCores j).map (fun c => ((List.range 20).filter (d.pipeUp c)).map (fun p => (c, p)))).flatten
  (d.modVlt (fun v => { v with calJobs := v.calJobs ++ [SweepJob.begin j.key l] })).feedRetrains.closeVaultCals

/-- Work of a CAL_REQ or a SPARE_CORE: in RUNNING it waits for the next step gap, otherwise it starts now (R196). -/
def Dev.atGap (d : Dev) (j : Desc) (go : Dev → Desc → Dev) : Dev :=
  if d.st = .running && d.stp.phase != .gap then d.deferGap (.calReq j.ring j.sub) else go d j

/-- CAL_REQ_VAULT (R165). -/
def execCalReqVault (r : Nat) (s : State) : Host.Outcome State Fault Refusal :=
  s.run (r < 16) (s.dev.descDue r (fun j => j.opc = 0x90 && j.num 24 1 = 2)) (fun d =>
    d.startDesc r
      (fun d j => firstFail [j.reserved [(24, 0, 8), (26, 0, 192)], d.stateCheck [.ready, .running, .quiesced],
        failIf (d.namedMigrating j) d.conflict])
      (fun d j => d.atGap j Dev.calVaultGo))

/-- The checks of a MARGIN: fields, count of the kind, result buffer, state (R183, R194). -/
def Dev.marginCheck (d : Dev) (j : Desc) (units need : Nat) (more : List (Option Ending)) : Option Ending :=
  firstFail ([j.reserved [(24, 0, 8), (26, 0, 192), (50, 0, 64), (58, 0, 32)], badIf (2 ^ units ≤ j.mask) 26,
    d.refCheck j 50 false true, badIf (j.num 58 4 < need) 58, d.stateCheck [.ready, .quiesced]] ++ more ++
    [d.lenCheck j 50 (j.num 58 4)])

/-- MARGIN_VAULT (R163, R164). -/
def execMarginVault (r : Nat) (s : State) : Host.Outcome State Fault Refusal :=
  s.run (r < 16) (s.dev.descDue r (fun j => j.opc = 0xE0 && j.num 24 1 = 0)) (fun d =>
    d.startDesc r
      (fun d j => d.marginCheck j 192 (320 * popCount 192 j.mask)
        [failIf (d.namedMigrating j) d.conflict, ((onesOf 192 j.mask).find? d.coreGone).map Ending.lost])
      (fun d j =>
        if j.mask = 0 then d.finish j (Ending.plain .done)
        else d.modVlt (fun v => { v with marginJobs := v.marginJobs ++
          [SweepJob.begin j.key (((onesOf 192 j.mask).map (fun c => (List.range 20).map (fun p => (c, p)))).flatten)] })))

/-- Some bank of a logical core's vault has an unused spare row. -/
def Dev.rowsLeft (d : Dev) (c : Nat) : Bool :=
  (List.range 256).any (fun i => (d.freeRow (d.bankIn (d.column c) (i / 16) (i % 16))).isSome)

/-- The DRAM timing margins of a vault under sweep: as its first pipe's reading gives them, the same in every record, and 0xFF
when no bank has an unused spare row (R163, R164). DESIGN CHOICE and DEDUCED (log entry 22). -/
def Dev.sweepTiming (d : Dev) (c p : Nat) (x : PipeSweep) : Nat × Nat × Nat :=
  if p != 0 then Tab.get (0, 0, 0) d.vlt.timing c
  else if d.rowsLeft c then (x.trcd, x.trp, x.twr)
  else (0xFF, 0xFF, 0xFF)

/-- The 16-byte record of a pipe's sweep (R164). -/
def Dev.pipeRecord (d : Dev) (c p : Nat) (x : PipeSweep) (t : Nat × Nat × Nat) : List Byte :=
  leBytes 1 (p % 32) ++ leBytes 1 (d.towerBand (towerOf c) + 4 * d.fld Reg.TGT_STATUS.POWER_BAND) ++
    leBytes 1 x.eyeWRd ++ leBytes 1 x.eyeWWr ++ leBytes 2 x.eyeHRd ++ leBytes 2 x.eyeHWr ++ leBytes 1 t.1 ++
    leBytes 1 t.2.1 ++ leBytes 1 t.2.2 ++ [0] ++ leBytes 4 x.errNominal

/-- The place of a unit among those a mask names. -/
def maskRank (mask u : Nat) : Nat := popCount u mask

/-- A record of a MARGIN is written into its result buffer. -/
def Dev.putRecord (d : Dev) (k : Nat × Nat) (f : Desc → Nat) (l : List Byte) : Dev :=
  match d.desc? k with
  | some j => d.refWrite (j.refIdx 50) (j.refOff 50 + f j) l
  | none => d

/-- Margin jobs of vaults with nothing left complete DONE. -/
def Dev.closeVaultMargins (d : Dev) : Dev :=
  let done := d.vlt.marginJobs.filter (fun j => j.busy.isEmpty && j.left.isEmpty)
  let d := d.modVlt (fun v => { v with marginJobs := v.marginJobs.filter (fun j => !(j.busy.isEmpty && j.left.isEmpty)) })
  done.foldl (fun d j => d.finishKey j.desc (Ending.plain .done)) d

/-- VAULT_MARGIN_PIPE_DONE: the pipe's record is written and the next pipe is taken out of use (R163, R164). -/
def execVaultMarginPipeDone (c p : Nat) (x : PipeSweep) (s : State) : Host.Outcome State Fault Refusal :=
  s.run (coreOk c && p < 20) (s.dev.up && s.dev.vlt.marginJobs.any (fun j => j.busy.contains (c, p))) (fun d =>
    match d.vlt.marginJobs.find? (fun j => j.busy.contains (c, p)) with
    | none => d
    | some w =>
      let t := d.sweepTiming c p x
      let d := d.modVlt (fun v => { v with timing := Tab.set (0, 0, 0) v.timing c t })
      let d := d.putRecord w.desc (fun j => 320 * maskRank j.mask c + 16 * p) (d.pipeRecord c p x t)
      (d.modVlt (fun v => { v with marginJobs := v.marginJobs.map (fun j => if j.desc = w.desc then j.advance c p else j) })).closeVaultMargins)

/-! ### The mirror (R162) -/

/-- The poisoned sectors of the mirrored ranges. -/
def Dev.mirrorPoison (d : Dev) : List Nat :=
  ((List.range 192).map (fun c => d.poisonedIn (vaultBase c + (d.mirrorRange c).1) (d.mirrorRange c).2)).flatten

/-- A full resync copy starts: every mirrored range is sent in full, but for sectors that cannot be read: each is a failed read,
and the partner does not hold it (R151, R162). DESIGN CHOICE and DEDUCED (log entry 22). -/
def Dev.startResync (d : Dev) : Dev :=
  let bad := d.mirrorPoison
  let d := bad.foldl (fun d a => d.memFault a 2) ((d.setMirror 3).modVlt (fun v => { v with stale := bad }))
  (List.range 192).foldl (fun d c => d.mirror (vaultBase c + (d.mirrorRange c).1) (d.mirrorRange c).2) d

/-- MIRROR_RESYNC_DONE: every byte of the copy is acknowledged and the mirror is OK (R162). -/
def execMirrorResyncDone (s : State) : Host.Outcome State Fault Refusal :=
  s.run true (s.dev.up && s.dev.fld Reg.VLT_MIRROR_PEER.STATE = 3 && s.dev.mirrorOut = 0) (fun d => d.setMirror 1)

/-! ### Migration (R166 to R170) -/

/-- The migration of a tower in a phase. -/
def Dev.migIn (d : Dev) (t : Nat) (p : MigPhase) : Option Migr := d.migs.find? (fun m => towerOf m.core = t && m.phase = p)

/-- A migration of a tower runs. -/
def Dev.migRuns (d : Dev) (t : Nat) : Bool :=
  d.migs.any (fun m => towerOf m.core = t && (m.phase = .init || m.phase = .copy || m.phase = .verify))

/-- A migration changed. -/
def Dev.modMig (d : Dev) (c : Nat) (f : Migr → Migr) : Dev :=
  { d with migs := d.migs.map (fun m => if m.core = c then f m else m) }

/-- The lowest spare site of a tower. -/
def Dev.lowSpare (d : Dev) (t : Nat) : Option Nat := (onesOf 28 (d.fld (Reg.TWR_SPARE_SITES.SPARE t))).head?

/-- A migration's turn: it takes the lowest spare site, or ends without one; a bank copy of the core is abandoned (R158,
R166, R167). DESIGN CHOICE and DEDUCED (log entry 23). -/
def Dev.migTurn (d : Dev) (m : Migr) : Dev :=
  let t := towerOf m.core
  match d.lowSpare t with
  | none => ((d.dropMig m.core).noSpareSite m.core m.cause m.desc).failRuns.grantRuns.quiesceNow
  | some site =>
    let d := (d.takeSite t site).setFld (Reg.TWR_CORE.TARGET m.core) site
    let d := d.modVlt (fun v => { v with copies := v.copies.filter (fun e => e.1 != m.core) })
    (d.modMig m.core (fun m => { m with phase := .init, target := site, since := d.clk })).showMigs t

/-- MIGRATION_START: the turn of the oldest waiting migration of a tower (R166). -/
def execMigrationStart (t : Nat) (s : State) : Host.Outcome State Fault Refusal :=
  s.run (t < 8) (s.dev.up && !s.dev.migRuns t && (s.dev.migIn t .waiting).isSome) (fun d =>
    match d.migIn t .waiting with
    | some m => d.migTurn m
    | none => d)

/-- MIGRATION_INIT_DONE: the target's SRAM is initialised and the copy begins (R167). -/
def execMigrationInitDone (t : Nat) (s : State) : Host.Outcome State Fault Refusal :=
  s.run (t < 8) (s.dev.up && (s.dev.migIn t .init).isSome) (fun d =>
    match d.migIn t .init with
    | some m => d.modMig m.core (fun m => { m with phase := .copy })
    | none => d)

/-- The poisoned units of a logical core's vault and SRAM. -/
def Dev.corePoison (d : Dev) (c : Nat) : List Nat := (d.poison.map (·.1)).filter (fun a => coreOfAddr a = some c)

/-- The units of a copy that cannot be read at the source: those found now, and those poisoned and not fetched already. -/
def Dev.unreadable (d : Dev) (m : Migr) (bad : List Nat) : List Nat :=
  (((bad.filter (fun a => coreOfAddr a = some m.core)).map (fun a => a - a % poisonUnit a)) ++ d.corePoison m.core).eraseDups.filter
    (fun a => !m.fetch.contains a)

/-- A copy's reads wait for the fence: every sector that cannot be read is one to fetch, and mirror writes are out (R161). -/
def Dev.copyWaits (d : Dev) (m : Migr) (bad : List Nat) : Bool :=
  d.mirrorOut != 0 && !(d.unreadable m bad).isEmpty && (d.unreadable m bad).all d.mirrorHolds

/-- What a copy meets: each unit that cannot be read is counted and recorded; sectors that the buddy holds are fetched for the
target, anything else aborts the migration. The source stays as it is until the cut-over (R151, R167, R169). -/
def Dev.copied (d : Dev) (m : Migr) (bad : List Nat) (go : Dev → Dev) : Dev :=
  let l := d.unreadable m bad
  let known := d.corePoison m.core
  let all := l.all d.mirrorHolds
  let d := l.foldl (fun d a =>
    if d.mirrorHolds a then
      (d.bumpSat Reg.VLT_UE.UE 1).record (.mk1 4 1 m.core (leBytes 4 (a % 0x100000000) ++ leBytes 1 (flag all)))
    else if known.contains a then d.memFault a 2
    else (d.setPoison a).memFault a 2) d
  if all then
    go ((d.bumpSat Reg.VLT_UE.BUDDY l.length).modMig m.core (fun m => { m with buddy := m.buddy + l.length, fetch := m.fetch ++ l }))
  else d.abortMig m

/-- MIGRATION_COPY_DONE: sectors that cannot be read at the source are fetched from the buddy after a fence; one that
cannot be restored aborts the migration. bad lists those found now (R167, R169).
DESIGN CHOICE and DEDUCED (log entry 23). -/
def execMigrationCopyDone (t : Nat) (bad : List Nat) (s : State) : Host.Outcome State Fault Refusal :=
  s.run (t < 8) (s.dev.up && (s.dev.migIn t .copy).any (fun m => !s.dev.copyWaits m bad)) (fun d =>
    match d.migIn t .copy with
    | none => d
    | some m => d.copied m bad (fun d => d.modMig m.core (fun m => { m with phase := .verify })))

/-- The cut-over (R59, R167): the core is ACTIVE on the target, the source site is retired, and the sectors fetched from the
buddy stand on the target. -/
def Dev.cutOver (d : Dev) (m : Migr) : Dev :=
  let t := towerOf m.core
  let old := d.siteOf m.core
  let d : Dev := { d with poison := d.poison.filter (fun e => !m.fetch.contains e.1) }
  let d := (((d.setFld (Reg.TWR_CORE.SITE m.core) m.target).setFld (Reg.TWR_CORE.TARGET m.core) 0x1F).bumpSat
    (Reg.TWR_CORE.MIGRATIONS m.core) 1).retireSite t old
  let d := (d.setFld (Reg.VLT_PIPES.UP m.core) 0xFFFFF).setFld (Reg.TWR_CORE.PIPES m.core) 20
  let d : Dev := { d with
    cleanPasses := Tab.set 0 d.cleanPasses m.core 0
    shortSites := setBit d.shortSites m.core false }
  let d := (d.setFld (Reg.ARR_CORE_FAULT.PENDING m.core) 0).dropMig m.core
  let d := (d.setCoreSt m.core 0 old m.target).migrationEnd m 1
  let d := match m.desc with
    | some k => d.finishKey k (Ending.plain .done)
    | none => d
  d.grantRuns.quiesceNow

/-- A second mismatch of a unit: the target is retired, the migration restarts on the next spare site or ends (R170). -/
def Dev.targetFailed (d : Dev) (m : Migr) : Dev :=
  let d := (d.retireSite (towerOf m.core) m.target).setFld (Reg.TWR_CORE.TARGET m.core) 0x1F
  d.migTurn { m with target := 0x1F }

/-- MIGRATION_VERIFY_DONE: cut-over, unless a unit has not matched twice; bad lists units that a repeated copy could not read,
which are fetched or abort the migration as in the copy (R167, R169, R170). DESIGN CHOICE and DEDUCED (log entry 23). -/
def execMigrationVerifyDone (t : Nat) (mismatch : Bool) (bad : List Nat) (s : State) : Host.Outcome State Fault Refusal :=
  s.run (t < 8)
    (s.dev.up && (s.dev.migIn t .verify).any (fun m => bad.isEmpty || !s.dev.copyWaits m bad)) (fun d =>
    match d.migIn t .verify with
    | none => d
    | some m =>
      let go : Dev → Dev := fun d =>
        match d.migIn t .verify with
        | some m => if mismatch then d.targetFailed m else d.cutOver m
        | none => d
      if bad.isEmpty then go d else d.copied m bad go)

/-- A LOST core is brought back on a spare site, or retired when there is none or its tower's link is out (R378, R379). -/
def Dev.revive (d : Dev) (c : Nat) (k : Nat × Nat) : Dev :=
  let t := towerOf c
  let d := d.retireSite t (d.siteOf c)
  match (if d.fld (Reg.D2D_LINK_STATUS.BUNDLE_UP t) = 0 then none else d.lowSpare t) with
  | none => (d.setCoreSt c 3 (d.siteOf c) 0x1F).finishKey k ⟨.noResource, Detail.none⟩
  | some site =>
    let d := (d.takeSite t site).setFld (Reg.TWR_CORE.TARGET c) site
    let d : Dev := { d with migs := d.migs ++ [⟨c, .spareCore, some k, .zero, site, d.clk, 0, []⟩] }
    (d.setCoreSt c 1 (d.siteOf c) site).showMigs t

/-- What SPARE_CORE does when its work starts (R379). -/
def Dev.spareCoreGo (d : Dev) (j : Desc) : Dev :=
  let c := j.num 24 1
  match d.coreSt c with
  | 0 => (d.askMigration c .spareCore (some j.key)).failRuns
  | 1 => d.finish j d.conflict
  | 2 => d.revive c j.key
  | _ => d.finish j ⟨.noResource, Detail.none⟩

/-- SPARE_CORE (R379). -/
def execSpareCore (r : Nat) (s : State) : Host.Outcome State Fault Refusal :=
  s.run (r < 16) (s.dev.descDue r (fun j => j.opc = 0xA0)) (fun d =>
    d.startDesc r
      (fun d j => firstFail [j.reserved [(24, 0, 8)], badIf (191 < j.num 24 1) 24, d.stateCheck [.ready, .running, .quiesced],
        failIf (d.coreSt (j.num 24 1) = 1) d.conflict, failIf (d.coreSt (j.num 24 1) = 3) ⟨.noResource, Detail.none⟩])
      (fun d j => d.atGap j Dev.spareCoreGo))

/-- SPARE_ZERO_DONE: the site brought in is zeroed and the core ACTIVE, its vault and SRAM reading as zero (R59, R378). -/
def execSpareZeroDone (c : Nat) (s : State) : Host.Outcome State Fault Refusal :=
  s.run (coreOk c) (s.dev.up && s.dev.migs.any (fun m => m.core = c && m.phase = .zero)) (fun d =>
    match d.migs.find? (fun m => m.core = c && m.phase = .zero) with
    | none => d
    | some m =>
      let old := d.siteOf c
      let d := (d.storeZero (vaultBase c) 0x100000000).zero (sramAt c 0) sramSize
      let d := ((d.setFld (Reg.TWR_CORE.SITE c) m.target).setFld (Reg.TWR_CORE.TARGET c) 0x1F).setFld (Reg.ARR_CORE_FAULT.PENDING c) 0
      let d := (d.setFld (Reg.VLT_PIPES.UP c) 0xFFFFF).setFld (Reg.TWR_CORE.PIPES c) 20
      let d : Dev := { d with cleanPasses := Tab.set 0 d.cleanPasses c 0, shortSites := setBit d.shortSites c false }
      let d := (d.dropMig c).setCoreSt c 0 old m.target
      (match m.desc with
       | some k => d.finishKey k (Ending.plain .done)
       | none => d).grantRuns.quiesceNow)

end Sys2Proof.Machine
end

