-- ==== Sys2Proof/Machine/Opt.lean ====
section
/-! DEFINITION. Optical ports: link blocks, control blocks, training, lanes, calibration and margin (R206 to R228). -/

namespace Sys2Proof.Machine

/-! ### Link blocks (R206 to R209) -/

/-- A link block with good CRC. -/
def blkGood (b : List Byte) : Bool := crc32 (slice b 0 252) = leAt b 252 4

/-- TYPE of a link block. -/
def blkType (b : List Byte) : Nat := bits (leAt b 0 1) 0 3

/-- A number is at or before another in sequence, modulo 2^16. -/
def seqLe (a b : Nat) : Bool := (b + 65536 - a) % 65536 < 32768

/-- The length of the longest run of whole units at the front of a list all of whose parts are acknowledged. -/
def wholePrefix {α : Type} (acked last : α → Bool) : List α → Nat → Nat → Nat
  | [], _, best => best
  | b :: r, i, best => if acked b then wholePrefix acked last r (i + 1) (if last b then i + 1 else best) else best

/-- Acknowledged blocks leave the replay buffer, packet by packet. -/
def Port.acked (x : Port) (a : Nat) : Port :=
  if seqLe x.txAck a then
    { x with txAck := a, replay := x.replay.drop (wholePrefix (fun b : BlkBuf => seqLe b.seq a) (fun b : BlkBuf => b.eop) x.replay 0 0) }
  else x

/-- The data blocks not acknowledged. -/
def Port.unacked (x : Port) : List BlkBuf := x.replay.filter (fun b => !seqLe b.seq x.txAck)

/-- OPT_LANE_CFG.RESEND_FAIL as it acts. -/
def Dev.resendLimit (d : Dev) : Nat := max 2 (d.fld Reg.OPT_LANE_CFG.RESEND_FAIL)

/-- A block of the replay buffer is sent again; at the limit the port fails (R209). -/
def Dev.resendBlock (d : Dev) (p : Nat) (b : BlkBuf) : Dev :=
  if !d.carries p then d
  else if d.resendLimit ≤ b.sends then d.failPort p 6
  else
    let d := (d.sendBlock p 0 b.vc b.sop b.eop b.seq b.body).bump Reg.OPT_RESENDS.COUNT 1
    d.modPort p (fun x => { x with replay := x.replay.map (fun c => if c.seq = b.seq then { c with sends := c.sends + 1, at' := d.clk } else c) })

/-- What the header of a good block brings: an acknowledgement, one report, credits. -/
def Dev.blkHeader (d : Dev) (p : Nat) (b : List Byte) : Dev :=
  let h := leAt b 7 1
  let d := d.modPort p (fun x => { x.acked (leAt b 3 2) with credits := x.credits.give (bits h 0 3) (bits h 3 4) })
  let d := if bit h 7 then
      (match (d.port p).unacked.find? (fun c => c.seq = leAt b 5 2) with
       | some c => d.resendBlock p c
       | none => d)
    else d
  if d.carries p then d.pumpAll p else d

/-- Blocks in SEQ order are delivered: a packet goes to the router when its last block has come, and its blocks leave the
buffer (R208, R257). -/
def Dev.rxDeliver (p : Nat) : Nat → Dev → Dev
  | 0, d => d
  | k + 1, d =>
    let x := d.port p
    let b := Tab.get [] x.reorder x.rxNext
    if b.isEmpty then d
    else
      let h := leAt b 0 1
      let vc := bits h 3 3
      let body := (if bit h 6 then [] else x.partialBytes) ++ slice b 8 244
      let n := (if bit h 6 then 0 else x.partialBlocks) + 1
      let y := { x with reorder := Tab.erase x.reorder x.rxNext, rxNext := (x.rxNext + 1) % 65536 }
      if bit h 7 then
        let d := d.setPort p { y with
          partialBytes := [], partialBlocks := 0, lastWhole := x.rxNext
          owed := Tab.set 0 x.owed vc (Tab.get 0 x.owed vc + n) }
        Dev.rxDeliver p k (match pktParse body with
          | some q => { d with fab := { d.fab with arrived := d.fab.arrived ++ [(some p, q)] } }
          | none => d.bumpSat Reg.FAB_DROPS.NO_ROUTE 1)
      else Dev.rxDeliver p k (d.setPort p { y with partialBytes := body, partialBlocks := n })

/-- The numbers from a up to b, not b itself, modulo 2^16. -/
def seqRange (a b : Nat) : List Nat := (List.range ((b + 65536 - a) % 65536)).map (fun i => (a + i) % 65536)

/-- A good data block within the window: a gap is reported once, and what is in order is delivered (R208). -/
def Dev.rxData (d : Dev) (p : Nat) (b : List Byte) : Dev :=
  let x := d.port p
  let s := leAt b 1 2
  let d := d.bump Reg.OPT_BLOCKS.COUNT 1
  if 4096 ≤ (s + 65536 - x.rxNext) % 65536 then d
  else
    let ahead := (s + 65536 - x.rxHigh) % 65536 < 4096
    let d := d.setPort p { x with
      reorder := Tab.set [] x.reorder s b
      naks := if ahead then x.naks ++ seqRange x.rxHigh s else x.naks
      rxHigh := if ahead then (s + 1) % 65536 else x.rxHigh }
    Dev.rxDeliver p 4096 d

/-- Idle blocks carry the ACK, the reports and the credits that are due (R207, R208, R257). -/
def Dev.answerN (p : Nat) : Nat → Dev → Dev
  | 0, d => d
  | k + 1, d =>
    let d := d.sendBlock p 1 0 false false 0 []
    if (d.port p).naks.isEmpty && (d.port p).owed.isEmpty then d else Dev.answerN p k d

/-- What is due goes out in idle blocks. -/
def Dev.answer (d : Dev) (p : Nat) : Dev :=
  Dev.answerN p ((d.port p).naks.length + (d.port p).owed.foldl (fun n e => n + ceilDiv e.2 15) 0 + 1) d

/-- LINK_BLOCK_RECEIVE: a data or idle block arrives (R206 to R209); a control block is its own command. -/
def execLinkBlockReceive (p : Nat) (b : List Byte) (s : State) : Host.Outcome State Fault Refusal :=
  s.run (portOk p && b.length = 256) (s.dev.live && s.dev.carries p && !(blkGood b && blkType b = 2)) (fun d =>
    if !blkGood b then d.bumpSat (Reg.OPT_ERR.CRC_FAIL p) 1
    else if blkType b = 0 then
      let d := (d.blkHeader p b).rxData p b
      if d.carries p then d.answer p else d
    else if blkType b = 1 then d.blkHeader p b
    else d)

/-- OPT_CFG.RESEND_US as it acts. -/
def Dev.resendTime (d : Dev) : Nat := us (max 2 (d.fld Reg.OPT_CFG.RESEND_US))

/-- A block has waited RESEND_US since its last sending and ACK has not passed it (R209). -/
def Dev.resendDue (d : Dev) (p : Nat) : Bool := (d.port p).unacked.any (fun b => b.at' + d.resendTime ≤ d.clk)

/-- RESEND_TIMER: ACK has not passed a block within RESEND_US: every unacknowledged block is sent again (R209). -/
def execResendTimer (p : Nat) (s : State) : Host.Outcome State Fault Refusal :=
  s.run (portOk p) (s.dev.live && s.dev.carries p && s.dev.resendDue p)
    (fun d => (d.port p).unacked.foldl (fun d b => d.resendBlock p b) d)

/-! ### Alignment beats (R204, R214) -/

/-- Bit errors in the 96 bits of an alignment unit's fixed bytes (R204). -/
def unitErrs (u : List Byte) : Nat :=
  (List.zipWith (fun a b : Byte => popCount 8 (a ^^^ b).toNat) (slice u 0 4 ++ slice u 8 8)
    ([0x4D, 0x41, 0x52, 0x4B] ++ List.replicate 8 0x5A)).foldl (· + ·) 0

/-- An alignment unit without bit errors. -/
def unitOk (u : List Byte) : Bool := unitErrs u = 0

/-- The history of a lane with one more unit: bit 0 the newest of 16. -/
def alignNext (h : Nat) (err : Bool) : Nat := (2 * h + flag err) % 65536

/-- The lanes whose last 16 units hold ALIGN_ERR errors or more. -/
def Dev.alignBad (d : Dev) (p : Nat) : List Nat :=
  (List.range 18).filter (fun n => !d.rxFailed p n && d.fld (Reg.OPT_LANE_STATE.RX_CAL p) != n &&
    max 1 (d.fld Reg.OPT_LANE_CFG.ALIGN_ERR) ≤ popCount 16 (Tab.get 0 (d.port p).align n))

/-- ALIGNMENT_BEAT: each lane's unit is compared, its bit errors counted, lanes at the limit fail; the equaliser sets of the
present temperature band are applied; this end sends its own beat (R203, R204, R214, R218). -/
def execAlignmentBeat (p : Nat) (units : List (List Byte)) (s : State) : Host.Outcome State Fault Refusal :=
  s.run (portOk p && units.length = 18 && units.all (fun u => u.length = 16)) (s.dev.live && s.dev.carries p) (fun d =>
    let x := d.port p
    let count := match units.find? unitOk with
      | some u => leAt u 6 2
      | none => (x.rxAcount + 1) % 65536
    let hist := (List.range 18).foldl (fun t n => Tab.set 0 t n (alignNext (Tab.get 0 t n) (!unitOk (units.getD n [])))) x.align
    let errs := (List.range 18).foldl (fun t n => Tab.set 0 t n (Tab.get 0 t n + unitErrs (units.getD n []))) x.alignErrs
    let d := d.setPort p { x with
      align := hist, alignErrs := errs, rxAcount := count, eqBand := d.fld Reg.TGT_STATUS.MIDWAY_BAND }
    let d := d.sendAlign p
    d.lanesFail p (d.alignBad p))

/-! ### Control blocks (R212, R215, R224 to R226) -/

/-- A control block of a subtype, with good CRC. -/
def ctlIs (b : List Byte) (sub : Nat) : Bool := b.length = 256 && blkGood b && blkType b = 2 && leAt b 8 1 = sub

/-- LANE_MOVE: at the transmitter; the slot goes on both lanes, and the answer names A (R215). New lane 0x1F takes the slot's
lane away. DESIGN CHOICE (log entry 25). -/
def execLaneMove (p : Nat) (b : List Byte) (s : State) : Host.Outcome State Fault Refusal :=
  s.run (portOk p) (s.dev.live && s.dev.carries p && ctlIs b 2 && leAt b 9 1 < 16 && (leAt b 11 1 < 18 || leAt b 11 1 = 0x1F)) (fun d =>
    let d := d.blkHeader p b
    let slot := leAt b 9 1
    let old := leAt b 10 1
    let new := leAt b 11 1
    let d := if leAt b 12 1 = 0 then
        (d.modPort p (fun x => { x with txFailed := setBit x.txFailed old true })).laneReason p 1 (d.port p).txFailed
          (setBit (d.port p).txFailed old true)
      else if leAt b 12 1 = 2 then d.modPort p (fun x => { x with txFailed := setBit x.txFailed new false })
      else d
    if new = 0x1F then
      let d := d.modPort p (fun x => { x with txMoves := x.txMoves.filter (fun m => m.slot != slot) })
      ((d.setTxLane p slot 0x1F).sendCtl p 3 (leBytes 1 slot ++ leBytes 2 (((d.port p).acount + 1) % 65536))).slotsChanged p
    else match (d.port p).txMoves.find? (fun m => m.slot = slot && m.new = new) with
    | some m => d.sendCtl p 3 (leBytes 1 slot ++ leBytes 2 (m.at?.getD 0))
    | none =>
      let a := ((d.port p).acount + 1) % 65536
      (d.modPort p (fun x => { x with txMoves := x.txMoves.filter (fun m => m.slot != slot) ++ [⟨slot, old, new, leAt b 12 1, some a⟩] })).sendCtl
        p 3 (leBytes 1 slot ++ leBytes 2 a))

/-- LANE_MOVE_ACK: at the receiver; the move switches after alignment beat A (R215). -/
def execLaneMoveAck (p : Nat) (b : List Byte) (s : State) : Host.Outcome State Fault Refusal :=
  s.run (portOk p) (s.dev.live && s.dev.carries p && ctlIs b 3) (fun d =>
    (d.blkHeader p b).modPort p (fun x => { x with
      ctl := x.ctl.filter (fun c => !(c.sub = 2 && leAt c.body 0 1 = leAt b 9 1))
      rxMoves := x.rxMoves.map (fun m => if m.slot = leAt b 9 1 then { m with at? := some (leAt b 10 2) } else m) }))

/-- The move of a slot in a direction that has its count. -/
def Dev.moveReady (d : Dev) (p : Nat) (rx : Bool) (slot : Nat) : Option SlotMove :=
  let x := d.port p
  (if rx then x.rxMoves else x.txMoves).find? (fun m => m.slot = slot && (match m.at? with
    | some a => if rx then seqLe a x.rxAcount else seqLe (a + 1) x.acount
    | none => false))

/-- The receiver's end of a switch: the new lane carries the slot, or is left at once if it has failed meanwhile; the old one
is failed or goes to calibration (R215). -/
def Dev.rxSwitch (d : Dev) (p : Nat) (m : SlotMove) : Dev :=
  let d := d.setFld (Reg.OPT_MAP.RX_SLOT_LANE p m.slot) m.new
  let d := d.modPort p (fun x => { x with rxMoves := x.rxMoves.filter (fun y => y.slot != m.slot) })
  let d := if d.rxFailed p m.new then d.moveOff p m.slot m.new true else d
  let d := if m.reason = 1 && !d.laneSwept p m.old && d.fld (Reg.OPT_LANE_STATE.RX_CAL p) = 0x1F then d.startLaneCal p m.old
    else d.slotsChanged p
  d.laneFree p

/-- LANE_MOVE_SWITCH: after alignment beat A both ends use the new lane (R215). -/
def execLaneMoveSwitch (p : Nat) (rx : Bool) (slot : Nat) (s : State) : Host.Outcome State Fault Refusal :=
  s.run (portOk p && slot < 16) (s.dev.live && s.dev.carries p && (s.dev.moveReady p rx slot).isSome) (fun d =>
    match d.moveReady p rx slot with
    | none => d
    | some m =>
      if rx then d.rxSwitch p m
      else
        ((d.setTxLane p slot m.new).modPort p
          (fun x => { x with txMoves := x.txMoves.filter (fun y => y.slot != slot) })).slotsChanged p)

/-- The peer that an IDENT names is one the port accepts (R212). -/
def identOk (p : Nat) (b : List Byte) : Bool :=
  let q := leAt b 11 1 % 64
  if p < 36 then leAt b 12 1 % 2 = 0 && q < 36 && q / 6 = Nat.xor (p / 6) 1 && q % 6 = p % 6 else leAt b 12 1 % 2 = 1

/-- IDENT: checked for peer type, direction and index (R212). -/
def execIdent (p : Nat) (b : List Byte) (s : State) : Host.Outcome State Fault Refusal :=
  s.run (portOk p) (s.dev.live && s.dev.portSt p = 1 && ctlIs b 1) (fun d =>
    let q := leAt b 11 1 % 64
    let d := ((d.setFld (Reg.OPT_PEER.FLAT_ID p) (leAt b 9 2)).setFld (Reg.OPT_PEER.PORT p) q).setFld (Reg.OPT_PEER.SWITCH p) (leAt b 12 1 % 2)
    let d := d.setOn (Reg.OPT_PEER.VALID p) (identOk p b)
    if identOk p b then
      ({ d with peerCoord := Tab.set (0, 0, 0) d.peerCoord p (leAt b 13 1, leAt b 14 1, leAt b 15 1) } : Dev).modPort p
        (fun x => { x with ident := true })
    else
      let d := (d.clearLink p).modPort p (fun x => { x with since := d.clk, miswire := true, withdrawn := false, calibrating := false })
      let d := ((d.bumpSat Reg.OPT_TRAINS.FAILED 1).setPortSt p 0 3).record ⟨5, 2, some (leAt b 9 2), p, [0, 0] ++ leBytes 1 q, []⟩
      d.calEnded p)

/-- MARGIN_REPORT: the peer's receive margin is this port's transmit margin (R226). -/
def execMarginReport (p : Nat) (b : List Byte) (s : State) : Host.Outcome State Fault Refusal :=
  s.run (portOk p) (s.dev.live && s.dev.carries p && ctlIs b 5)
    (fun d => (d.blkHeader p b).setFld (Reg.OPT_MARGIN.TX p) (leAt b 9 2))

/-- CAL_LANE: the transmitter starts or ends the calibration of a lane (R224). -/
def execCalLane (p : Nat) (b : List Byte) (s : State) : Host.Outcome State Fault Refusal :=
  s.run (portOk p) (s.dev.live && s.dev.carries p && ctlIs b 6 && leAt b 9 1 < 18) (fun d =>
    ((d.blkHeader p b).setFld (Reg.OPT_LANE_STATE.TX_CAL p) (if leAt b 10 1 = 0 then leAt b 9 1 else 0x1F)).slotsChanged p)

/-- RETRAIN: the peer trains the port again: planned with cause none, when this end drains and trains as well; after a
failure with the failure's cause (R224). -/
def execRetrain (p : Nat) (b : List Byte) (s : State) : Host.Outcome State Fault Refusal :=
  s.run (portOk p) (s.dev.live && s.dev.carries p && ctlIs b 7) (fun d =>
    let d := d.blkHeader p b
    if !d.carries p then d
    else if leAt b 9 1 % 8 = 0 then
      ((d.setFld (Reg.OPT_LANE_STATE.RX_CAL p) 0x1F).modPort p (fun x => { x with withdrawn := true })).timeCheck.slotsChanged p |>.emptyQueue p
    else d.failPort p (leAt b 9 1 % 8))

/-- A control block has waited 1 µs for its answer. -/
def Dev.ctlDue (d : Dev) (c : CtlBuf) : Bool := c.at' + us 1 ≤ d.clk

/-- CONTROL_RESEND_TIMER: an unanswered control block is sent again; after 16 sends the port fails (R224). -/
def execControlResendTimer (p : Nat) (s : State) : Host.Outcome State Fault Refusal :=
  s.run (portOk p) (s.dev.live && s.dev.carries p && (s.dev.port p).ctl.any s.dev.ctlDue) (fun d =>
    if (d.port p).ctl.any (fun c => d.ctlDue c && 16 ≤ c.sends) then d.failPort p 6
    else
      let e := ((d.port p).ctl.filter d.ctlDue).foldl (fun d c => d.sendCtl p c.sub c.body) d
      e.modPort p (fun x => { x with
        ctl := x.ctl.map (fun c => if d.ctlDue c then { c with sends := c.sends + 1, at' := d.clk } else c) }))

/-! ### Light, training, failures (R211 to R214) -/

/-- A retry after a failed training is still to come (R213). -/
def Dev.retryWaits (d : Dev) (p : Nat) : Bool :=
  d.portSt p = 0 && [1, 2, 5].contains (d.fld (Reg.OPT_PORT_STATUS.CAUSE p)) && d.clk < (d.port p).since + ms 10

/-- Light and feed may start a training (R213). -/
def Dev.lightStarts (d : Dev) (p : Nat) : Bool :=
  d.engineUp p && ((d.portSt p = 0 && !(d.port p).miswire && !d.retryWaits p) ||
    (d.portSt p = 5 && !d.on (Reg.OPT_PORT_STATUS.ENG_LINK p) && ((d.port p).lightLost || bit d.feedLost p)))

/-- The feed of a port is present or lost. DESIGN CHOICE (log entry 25). -/
def Dev.setFeedLost (d : Dev) (p : Nat) (b : Bool) : Dev :=
  ({ d with feedLost := setBit d.feedLost p b } : Dev).refreshFlags

/-- LIGHT_DETECTED: light and feed are present on a DOWN or FAILED port (R213). -/
def execLightDetected (p : Nat) (s : State) : Host.Outcome State Fault Refusal :=
  s.run (portOk p) (s.dev.live && s.dev.lightStarts p) (fun d =>
    let d := (d.setFeedLost p false).modPort p (fun x => { x with lightLost := false })
    if d.portSt p = 5 then d.tryAgain p else d.startTraining p)

/-- LOSS_OF_LIGHT: the feed is lost, or received power falls below loss of signal on the lanes named: they fail; a training
fails when there is light on none (R213, R214). -/
def execLossOfLight (p : Nat) (feed : Bool) (lanes : List Nat) (s : State) : Host.Outcome State Fault Refusal :=
  s.run (portOk p && lanes.all (· < 18)) s.dev.live (fun d =>
    let dark := (List.range 18).all lanes.contains
    let d := if feed then d.setFeedLost p true else d
    let d := if dark then d.modPort p (fun x => { x with lightLost := true }) else d
    if d.carries p then (if feed then d.failPort p 5 else d.lanesFail p lanes)
    else if d.portSt p = 1 && (feed || dark) then d.trainFails p (if feed then 5 else 1)
    else d)

/-- A training's result: at least 12 lanes pass each way, no lane named twice. -/
def trainOk (r : TrainResult) : Bool :=
  r.rx.all (· < 18) && r.tx.all (· < 18) && 12 ≤ r.rx.length && 12 ≤ r.tx.length &&
    decide r.rx.Nodup && decide r.tx.Nodup

/-- The maps after a training: the chosen lanes carry the slots in ascending lane order (R202, R211). -/
def Dev.setMaps (d : Dev) (p : Nat) (r : TrainResult) : Dev :=
  let rx := (List.range 18).filter (fun n => (r.rx.take 16).contains n)
  let tx := (List.range 18).filter (fun n => (r.tx.take 16).contains n)
  (List.range 16).foldl (fun d i => (d.setFld (Reg.OPT_MAP.RX_SLOT_LANE p i) (rx.getD i 0x1F)).setFld
    (Reg.OPT_MAP.TX_SLOT_LANE p i) (tx.getD i 0x1F)) d

/-- The lanes that a list does not name, as bits. -/
def lanesBut (l : List Nat) : Nat := (List.range 18).foldl (fun m n => setBit m n (!l.contains n)) 0

/-- A training completes: maps, fresh sequence numbers and credits, its calibration record, the equaliser sets of its
temperature band; the port has light and feed, and is offered to routing (R211, R213, R218, R221, R250, R261). -/
def Dev.trainDone (d : Dev) (p : Nat) (r : TrainResult) : Dev :=
  let failed := lanesBut r.rx
  let oldRx := d.fld (Reg.OPT_LANE_STATE.RX_FAILED p)
  let oldTx := (d.port p).txFailed
  let band := d.fld Reg.TGT_STATUS.MIDWAY_BAND
  let d := { d with feedLost := setBit d.feedLost p false }
  let d := (d.setMaps p r).setFld (Reg.OPT_LANE_STATE.RX_FAILED p) failed
  let d := (d.setFld (Reg.OPT_PORT_STATUS.TRIES p) 0).bumpSat Reg.OPT_TRAINS.DONE 1
  let d := (d.setFld (Reg.OPT_CAL_REC.POWER_BAND p) (d.fld Reg.TGT_STATUS.POWER_BAND)).setFld (Reg.OPT_CAL_REC.TEMP_C p)
    (d.fld Reg.TGT_MIDWAY.ENGINE)
  let d := d.modPort p (fun x => { x with
    everUp := true, withdrawn := false, calDue := false, calibrating := false, txSeq := 1, txAck := 0, altC2 := false
    replay := [], credits := Credits.init, rxNext := 1, rxHigh := 1, reorder := [], naks := [], partialBytes := []
    partialBlocks := 0, lastWhole := 0, owed := [], align := [], alignErrs := [], txBlocks := 0, txAlign := 0
    ringLost := 0, txRingLost := 0, txFailed := lanesBut r.tx, timeSeen := false, trained := d.clk
    eqSets := Tab.set 0 x.eqSets band (d.fld Reg.TGT_STATUS.POWER_BAND + 1), eqBand := band })
  let d := (d.laneReason p 0 oldRx failed).laneReason p 1 oldTx (lanesBut r.tx)
  let d := d.markLost (d.fld (Reg.OPT_PEER.FLAT_ID p)) false
  let d := d.setPortSt p (if d.slots p = 16 then 2 else 4) 0
  let d := (d.coordCheck p).releaseTree
  let d := (d.pumpAll p).calEnded p
  let d := if (d.port p).moving then (d.modPort p (fun x => { x with moving := false })).moveMade p else d
  if d.st = .running then d else d.pumpPortCals

/-- TRAINING_COMPLETE (R211, R213). -/
def execTrainingComplete (p : Nat) (r : TrainResult) (s : State) : Host.Outcome State Fault Refusal :=
  s.run (portOk p && trainOk r) (s.dev.live && s.dev.portSt p = 1 && (s.dev.port p).ident) (fun d => d.trainDone p r)

/-- TRAINING_PHASE_TIMEOUT: a phase exceeds its limit; in the light phase no light has been found (R211, R213). -/
def execTrainingPhaseTimeout (p : Nat) (light : Bool) (s : State) : Host.Outcome State Fault Refusal :=
  s.run (portOk p) (s.dev.live && s.dev.portSt p = 1) (fun d =>
    let d := d.trainFails p (if light then 1 else 2)
    if d.st = .running then d else d.pumpPortCals)

/-- TRAINING_RETRY_TIMER: 10 ms after a failure, while tries remain (R213). -/
def execTrainingRetryTimer (p : Nat) (s : State) : Host.Outcome State Fault Refusal :=
  s.run (portOk p) (s.dev.live && s.dev.engineUp p && (s.dev.port p).since + ms 10 ≤ s.dev.clk &&
    ((s.dev.portSt p = 0 && [1, 2, 5].contains (s.dev.fld (Reg.OPT_PORT_STATUS.CAUSE p))) ||
      (s.dev.portSt p = 5 && !s.dev.on (Reg.OPT_PORT_STATUS.ENG_LINK p) &&
        s.dev.fld (Reg.OPT_PORT_STATUS.TRIES p) < max 1 (s.dev.fld Reg.OPT_CFG.TRAIN_TRIES))))
    (fun d => d.startTraining p)

/-- MISWIRE_HOLD_EXPIRE: DOWN for 1 s after a miswire (R212). -/
def execMiswireHoldExpire (p : Nat) (s : State) : Host.Outcome State Fault Refusal :=
  s.run (portOk p) (s.dev.live && s.dev.portSt p = 0 && (s.dev.port p).miswire && (s.dev.port p).since + sec 1 ≤ s.dev.clk)
    (fun d => d.modPort p (fun x => { x with miswire := false }))

/-! ### Lane calibration and rings (R216 to R219) -/

/-- A lane of a port may be calibrated now. -/
def Dev.laneCalFree (d : Dev) (p : Nat) : Bool :=
  d.carries p && !(d.port p).withdrawn && d.fld (Reg.OPT_LANE_STATE.RX_CAL p) = 0x1F &&
    !(d.port p).rxMoves.any (fun m => m.reason = 1) && d.fld Reg.OPT_CFG.CAL_PERIOD_S != 0

/-- LANE_CAL_DUE: the next lane in ascending order is moved behind a spare and calibrated; a spare or a failed lane is
calibrated where it is; with no free spare no data lane is (R216, R219). DESIGN CHOICE (log entry 25). -/
def execLaneCalDue (p : Nat) (s : State) : Host.Outcome State Fault Refusal :=
  s.run (portOk p) (s.dev.live && s.dev.laneCalFree p) (fun d =>
    let lane := (d.port p).calRx
    let d := d.modPort p (fun x => { x with calRx := (lane + 1) % 18 })
    match d.slotOf p lane with
    | some sl =>
      (match (d.rxSpares p).head? with
       | some n => if (d.port p).rxMoves.length < 2 && !(d.port p).rxMoves.any (fun m => m.slot = sl) then d.startMove p ⟨sl, lane, n, 1, none⟩ else d
       | none => d)
    | none => if (d.port p).rxMoves.any (fun m => m.new = lane) || d.laneSwept p lane then d else d.startLaneCal p lane)

/-- LANE_CAL_DONE: the lane becomes a spare; a failed lane that passes takes a vacant slot at once (R216, R219). -/
def execLaneCalDone (p : Nat) (pass : Bool) (s : State) : Host.Outcome State Fault Refusal :=
  s.run (portOk p) (s.dev.live && s.dev.carries p && s.dev.fld (Reg.OPT_LANE_STATE.RX_CAL p) != 0x1F) (fun d =>
    let lane := d.fld (Reg.OPT_LANE_STATE.RX_CAL p)
    let d := d.setFld (Reg.OPT_LANE_STATE.RX_CAL p) 0x1F
    let d := if pass then
        (d.setFldBit (Reg.OPT_LANE_STATE.RX_FAILED p) lane false).modPort p (fun x => { x with
          align := Tab.set 0 x.align lane 0, ringLost := setBit x.ringLost lane false })
      else d
    ((d.sendCtl p 6 (leBytes 1 lane ++ [1])).slotsChanged p).laneFree p)

/-- Lanes named, as bits set besides those of a mask. -/
def withLanes (m : Nat) (l : List Nat) : Nat := l.foldl (fun m n => setBit m n true) m

/-- RING_LOCK_LOSS: rings leave their capture range in one alignment interval; receive rings' lanes fail together (R217,
R228). -/
def execRingLockLoss (p : Nat) (rx : Bool) (lanes : List Nat) (s : State) : Host.Outcome State Fault Refusal :=
  s.run (portOk p && lanes.all (· < 18)) (s.dev.live && s.dev.carries p) (fun d =>
    if rx then (d.modPort p (fun x => { x with ringLost := withLanes x.ringLost lanes })).lanesFail p lanes
    else d.modPort p (fun x => { x with txRingLost := withLanes x.txRingLost lanes }))

/-- RING_RELOCK: a ring relocks on its line; a lane that has not failed takes a vacant slot (R217, R228). -/
def execRingRelock (p : Nat) (rx : Bool) (lane : Nat) (s : State) : Host.Outcome State Fault Refusal :=
  s.run (portOk p && lane < 18)
    (s.dev.live && s.dev.carries p && bit (if rx then (s.dev.port p).ringLost else (s.dev.port p).txRingLost) lane) (fun d =>
    if rx then
      let d := d.modPort p (fun x => { x with ringLost := setBit x.ringLost lane false })
      if d.rxFailed p lane then d else d.laneFree p
    else d.modPort p (fun x => { x with txRingLost := setBit x.txRingLost lane false }))

/-! ### Port calibration (R220) -/

/-- A port calibration is due: PORT_CAL_H hours after the last training (0: none on time), or more than one power band away
from the band of the calibration record (R220). -/
def Dev.portCalTimed (d : Dev) (p : Nat) : Bool :=
  let h := d.fld Reg.OPT_CFG.PORT_CAL_H
  let band := d.fld Reg.TGT_STATUS.POWER_BAND
  let old := d.fld (Reg.OPT_CAL_REC.POWER_BAND p)
  (h != 0 && (d.port p).trained + sec (3600 * h) ≤ d.clk) || old + 1 < band || band + 1 < old

/-- PORT_CAL_DUE: a port calibration falls due on time or on a change of power band; it waits for a step gap (R220). -/
def execPortCalDue (p : Nat) (s : State) : Host.Outcome State Fault Refusal :=
  s.run (portOk p) (s.dev.live && s.dev.carries p && !(s.dev.port p).calDue && s.dev.portCalTimed p)
    (fun d => (d.modPort p (fun x => { x with calDue := true })).deferGap (.portCal p))

/-- PORT_CAL_DRAINED: every block of the withdrawn port is acknowledged; a feed move switches the feed, and the full
training begins (R220, R239). -/
def execPortCalDrained (p : Nat) (s : State) : Host.Outcome State Fault Refusal :=
  s.run (portOk p) (s.dev.live && s.dev.carries p && (s.dev.port p).withdrawn && (s.dev.port p).unacked.isEmpty) (fun d =>
    let move := (d.port p).moveDue && d.onBackup p != bit d.lim.toBackup (p % 8)
    let d := if move then d.flipFeed p else d
    (d.modPort p (fun x => { x with moveDue := false, moving := move, calibrating := true, replay := [] })).startTraining p)

/-- The work of a CAL_REQ for ports (R220). -/
def Dev.calOptGo (d : Dev) (j : Desc) : Dev :=
  ({ d with opt := { d.opt with calJobs := d.opt.calJobs ++ [⟨j.key, (onesOf 48 j.mask).map (fun p => (p, 0)), [], []⟩] } } : Dev).pumpPortCals

/-- CAL_REQ_OPTICAL: a port calibration of each named port (R220). -/
def execCalReqOptical (r : Nat) (s : State) : Host.Outcome State Fault Refusal :=
  s.run (r < 16) (s.dev.descDue r (fun j => j.opc = 0x90 && j.num 24 1 = 0)) (fun d =>
    d.startDesc r
      (fun d j => firstFail [j.reserved [(24, 0, 8), (26, 0, 192)], badIf (2 ^ 48 ≤ j.mask) 26,
        d.stateCheck [.ready, .running, .quiesced]])
      (fun d j => d.atGap j Dev.calOptGo))

/-! ### Times and margins (R225 to R227) -/

/-- The present stamp, in 1/256 of 1.25 ns. -/
def Dev.stamp (d : Dev) : Nat := 256 * d.stp.time + d.stp.frac

/-- A stamp as 8 bytes and its fraction. -/
def stampBytes (n : Nat) : List Byte := leBytes 8 (n / 256) ++ leBytes 1 n

/-- TIME_BLOCK_SEND: the 10 µs timer sends a TIME block (R225). -/
def execTimeBlockSend (p : Nat) (s : State) : Host.Outcome State Fault Refusal :=
  s.run (portOk p) (s.dev.live && s.dev.carries p) (fun d =>
    d.sendCtl p 4 (stampBytes d.stamp ++ stampBytes (d.port p).echoTx ++ stampBytes (d.port p).echoRx))

/-- The smallest of signed 16-bit numbers, as 16 bits. -/
def minSigned (l : List Nat) : Nat :=
  match l with
  | [] => 0
  | a :: r => r.foldl (fun m n => if sext 16 n < sext 16 m then n else m) a

/-- MARGIN_ESTIMATE: the receive margin is the smallest over the active lanes, and the peer is told (R226). -/
def execMarginEstimate (p : Nat) (lanes : List Nat) (s : State) : Host.Outcome State Fault Refusal :=
  s.run (portOk p && lanes.length = 18 && lanes.all (· < 65536)) (s.dev.live && s.dev.carries p) (fun d =>
    let m := minSigned (((List.range 18).filter (fun n => (d.slotOf p n).isSome)).map (fun n => lanes.getD n 0))
    (d.setFld (Reg.OPT_MARGIN.RX p) m).sendCtl p 5 (leBytes 2 m))

/-- MARGIN_OPTICAL (R227). -/
def execMarginOptical (r : Nat) (s : State) : Host.Outcome State Fault Refusal :=
  s.run (r < 16) (s.dev.descDue r (fun j => j.opc = 0xE0 && j.num 24 1 = 1)) (fun d =>
    d.startDesc r
      (fun d j => d.marginCheck j 48 (288 * popCount 48 j.mask) [])
      (fun d j =>
        let ports := onesOf 48 j.mask
        let d := { d with opt := { d.opt with marginJobs := d.opt.marginJobs ++
          [⟨j.key, (ports.map (fun p => (List.range 18).map (fun n => (p, n)))).flatten, [], []⟩] } }
        (ports.foldl (fun d p => Dev.marginTake j.key p 18 d) d).closeOptMargins))

/-- OPT_MARGIN_LANE_DONE: the sweep of a lane ends; its record is written and the next lane is taken up (R227).
DESIGN CHOICE (log entry 25). -/
def execOptMarginLaneDone (p lane : Nat) (x : LaneSweep) (s : State) : Host.Outcome State Fault Refusal :=
  s.run (portOk p && lane < 18)
    (s.dev.up && s.dev.opt.marginJobs.any (fun j => j.busy.contains (p, lane)) && (s.dev.slotOf p lane).isNone) (fun d =>
    match d.opt.marginJobs.find? (fun j => j.busy.contains (p, lane)) with
    | none => d
    | some j =>
      let m := Tab.get [] j.recs (32 * p + lane)
      let d := d.putLane j.desc p lane (d.laneRecord p lane (leAt m 0 1) (leAt m 1 1) (some x))
      let d := d.modOptMargin (fun i => if i.desc = j.desc then { i with busy := i.busy.erase (p, lane) } else i)
      d.laneFree p)

/-! ### The peer's recovery notice (R222) -/

/-- The port that a recovery notice concerns: the one whose peer is its source on the port it names.
DESIGN CHOICE (log entry 25). -/
def Dev.noticePort (d : Dev) (p : Packet) : Option Nat :=
  (List.range 48).find? (fun q => d.on (Reg.OPT_PEER.VALID q) && d.fld (Reg.OPT_PEER.FLAT_ID q) = p.src &&
    d.fld (Reg.OPT_PEER.PORT q) = leAt p.payload 0 1 && (d.port q).recovery.isSome)

/-- LINK_RECOVERY_NOTICE: every packet with a block after the notice's SEQ goes again from its first block, ahead of later
packets of its flow; the rest is discarded (R222). -/
def execLinkRecoveryNotice (p : Packet) (s : State) : Host.Outcome State Fault Refusal :=
  s.run true (s.dev.live && s.dev.canTake p && p.cls = 3 && p.op = 1) (fun d =>
    let d := d.take p
    match d.noticePort p with
    | none => d
    | some q =>
      match (d.port q).recovery with
      | none => d
      | some w =>
        let done := wholePrefix (fun b : BlkBuf => seqLe b.seq (leAt p.payload 1 2)) (fun b : BlkBuf => b.eop) w.replay 0 0
        ((d.modPort q (fun x => { x with recovery := none })).takeBack (queuedOf (w.replay.drop done))).pumpAll q)

end Sys2Proof.Machine
end

