-- ==== Sys2Proof/Machine/D2d.lean ====
section
/-! DEFINITION. Die-to-die links (R17 to R30) and clocks (R31 to R34). -/

namespace Sys2Proof.Machine

/-! ### Bundles -/

/-- A link and one of its bundles. -/
def bundleOk (l b : Nat) : Bool := l < 20 && b < bundlesOf l

/-- The index of a bundle. -/
def bundleIdx (l b : Nat) : Nat := 16 * l + b

/-- One direction of a bundle. -/
def Dev.bundle (d : Dev) (l b dir : Nat) : Bundle := Tab.get Bundle.init d.d2d.bundles (2 * bundleIdx l b + dir)

/-- One direction of a bundle changed. -/
def Dev.modBundle (d : Dev) (l b dir : Nat) (f : Bundle → Bundle) : Dev :=
  { d with d2d := { d.d2d with bundles := Tab.mod Bundle.init d.d2d.bundles (2 * bundleIdx l b + dir) f } }

/-- A bundle as a whole. -/
def Dev.ctl (d : Dev) (l b : Nat) : BundleCtl := Tab.get BundleCtl.init d.d2d.ctl (bundleIdx l b)

/-- A bundle as a whole changed. -/
def Dev.modCtl (d : Dev) (l b : Nat) (f : BundleCtl → BundleCtl) : Dev :=
  { d with d2d := { d.d2d with ctl := Tab.mod BundleCtl.init d.d2d.ctl (bundleIdx l b) f } }

/-- Bundles in service of a link. -/
def Dev.upMask (d : Dev) (l : Nat) : Nat := d.fld (Reg.D2D_LINK_STATUS.BUNDLE_UP l)

/-- A bundle is in service. -/
def Dev.bundleUp (d : Dev) (l b : Nat) : Bool := bit (d.upMask l) b

/-- A bundle is held: in retrain or under a margin sweep. -/
def Dev.bundleHeld (d : Dev) (l b : Nat) : Bool := (d.ctl l b).retraining || (d.ctl l b).sweeping

/-- Held bundles of a link. -/
def Dev.heldCount (d : Dev) (l : Nat) : Nat := ((List.range (bundlesOf l)).filter (d.bundleHeld l)).length

/-- The follower PLL of a link's die is locked: its flows run (R33). -/
def Dev.linkLocked (d : Dev) (l : Nat) : Bool :=
  if l < 8 then bit (d.fld Reg.CLK_STATUS.TWR_LOCK) l else bit (d.fld Reg.CLK_STATUS.ENG_LOCK) (l - 8)

/-- The bundle of a link that applies its set of the new band now: the lowest that is due and not in retrain (R27). -/
def Dev.bandBundle (d : Dev) (l : Nat) : Option Nat :=
  (onesOf 16 (d.upMask l)).find? (fun b => (d.ctl l b).bandDue && !d.bundleHeld l b)

/-- A bundle moves flits: in service, not held, and not idle while it applies a band set. -/
def Dev.bundleRuns (d : Dev) (l b : Nat) : Bool :=
  d.live && d.linkLocked l && d.bundleUp l b && !d.bundleHeld l b && d.bandBundle l != some b

/-! ### Units (R19) -/

/-- A unit of the die at the far end of a link: a tower's core sites, quad DMAs and control, or an engine's ports. -/
def dieUnit (l u : Nat) : Bool :=
  if l < 8 then u < 0x1C || (0x20 ≤ u && u ≤ 0x26) || u = 0x30 else 0x40 ≤ u && u ≤ 0x43

/-- A unit of the Midway. -/
def midwayUnit (u : Nat) : Bool := 0x80 ≤ u && u ≤ 0x86

/-- The sending and the receiving unit of a packet stand at the two ends of the link; direction 0 is toward the Midway. -/
def unitsOk (l dir src dst : Nat) : Bool :=
  if dir = 0 then dieUnit l src && midwayUnit dst else midwayUnit src && dieUnit l dst

/-- The next bundle up from b, ascending and cyclic. -/
def nextUp (mask n : Nat) : Nat → Nat → Nat
  | 0, b => b
  | k + 1, b => if bit mask b then b else nextUp mask n k ((b + 1) % n)

/-- The bundle of a flow key (R19). -/
def bundleFor (src dst cls mask n : Nat) : Nat := nextUp mask n n ((src + 3 * dst + 5 * cls) % n)

/-! ### Flits (R18) -/

/-- The 128 bytes of a flit: payload, VC, SOP, EOP, TYPE, NAK, SEQ, ACK, one credit return. -/
def flitBytes (body : List Byte) (vc : Nat) (sop eop : Bool) (ty : Nat) (nak : Bool) (seq ack cvc cn : Nat) : List Byte :=
  let b := padTo 120 body ++ leBytes 1 (vc + 8 * flag sop + 16 * flag eop + 32 * ty + 128 * flag nak) ++ leBytes 1 seq ++
    leBytes 1 ack ++ leBytes 1 (cvc + 8 * cn)
  b ++ leBytes 4 (crc32c b)

/-- A flit with good CRC. -/
def flitGood (b : List Byte) : Bool := crc32c (slice b 0 124) = leAt b 124 4

/-- TYPE of a flit. -/
def flitType (b : List Byte) : Nat := bits (leAt b 120 1) 5 2

/-- What the present flit of a direction carries for the other one: NAK, ACK and a credit return. -/
def Bundle.crd (x : Bundle) : Nat × Nat :=
  match x.owed with
  | [] => (0, 0)
  | (v, k) :: _ => (v, min 15 k)

/-- A flit leaves in a direction, with what the receiver of the other direction has to say; the credits it carries are on
their way. -/
def Dev.sendFlit (d : Dev) (l b dir ty vc : Nat) (sop eop : Bool) (seq : Nat) (body : List Byte) : Dev :=
  let o := d.bundle l b (1 - dir)
  let c := if ty = 3 then (0, 0) else o.crd
  (d.modBundle l b (1 - dir) (fun x => { x with
    owed := Tab.set 0 x.owed c.1 (Tab.get 0 x.owed c.1 - c.2), crdOut := x.crdOut ++ [c] })).emit
    (.flit l b dir (flitBytes body vc sop eop ty o.nak seq o.rxLast c.1 c.2))

/-- The oldest flit on its way has come: credits of a discarded one are owed again (R22). DESIGN CHOICE (log entry 24). -/
def Bundle.crdCome (x : Bundle) (good : Bool) : Bundle :=
  match x.crdOut with
  | [] => x
  | c :: r => { x with crdOut := r, owed := if good then x.owed else Tab.set 0 x.owed c.1 (Tab.get 0 x.owed c.1 + c.2) }

/-- No flit is on its way any more: the credits of all that left are owed again. -/
def Bundle.crdBack (x : Bundle) : Bundle :=
  { x with crdOut := [], owed := x.crdOut.foldl (fun t c => Tab.set 0 t c.1 (Tab.get 0 t c.1 + c.2)) x.owed }

/-- A flit of the replay buffer is sent. -/
def Dev.sendBuf (d : Dev) (l b dir : Nat) (f : FlitBuf) : Dev := d.sendFlit l b dir 0 f.vc f.sop f.eop f.seq f.body

/-! ### Starting packets (R19, R21, R25) -/

/-- Flits of a packet. -/
def pktFlits (p : Packet) : Nat := ceilDiv (16 + p.payload.length) 120

/-- The bundle of a packet now. -/
def Dev.bundleOf (d : Dev) (l src dst : Nat) (p : Packet) : Nat := bundleFor src dst p.cls (d.upMask l) (bundlesOf l)

/-- A flow was on a bundle when the bundle went out of service, so that it was remapped from it (R25). -/
def Dev.remapped (d : Dev) (l f src dst : Nat) (p : Packet) : Bool :=
  bundleFor src dst p.cls (setBit (d.ctl l f).failMask f true) (bundlesOf l) = f

/-- The flow of a packet was remapped from a failed bundle whose recovery is not over. -/
def Dev.remapHeld (d : Dev) (l dir src dst : Nat) (p : Packet) : Bool :=
  (List.range (bundlesOf l)).any (fun f => Tab.get 0 (d.ctl l f).txHold dir != 0 && d.remapped l f src dst p)

/-- The flow of a packet was remapped from a failed bundle whose recovery flit has not come. -/
def Dev.noticeDue (d : Dev) (l dir src dst : Nat) (p : Packet) : Bool :=
  (List.range (bundlesOf l)).any (fun f => Tab.get 0 (d.ctl l f).txHold dir != 0 && !Tab.get false (d.ctl l f).noticed dir &&
    d.remapped l f src dst p)

/-- The sender holds credits for all flits of a packet, and room to keep them. -/
def Dev.flitsFit (d : Dev) (l b dir : Nat) (p : Packet) : Bool :=
  Tab.get 0 (d.bundle l b dir).spent (pktVc p) + pktFlits p ≤ 48 && (d.bundle l b dir).replay.length + pktFlits p ≤ 96

/-- The flits of a packet go, k of them left. -/
def Dev.sendFlits (l b dir src dst vc : Nat) (again : Option Nat) (bytes : List Byte) (total : Nat) : Nat → Dev → Dev
  | 0, d => d
  | k + 1, d =>
    let i := total - (k + 1)
    let s := (d.bundle l b dir).txSeq
    let f : FlitBuf := ⟨s, vc, i = 0, k = 0, slice bytes (120 * i) 120, src, dst, again, d.clk⟩
    let d := (d.sendBuf l b dir f).modBundle l b dir (fun x => { x with
      txSeq := (s + 1) % 256, replay := x.replay ++ [f], spent := Tab.set 0 x.spent vc (Tab.get 0 x.spent vc + 1) })
    Dev.sendFlits l b dir src dst vc again bytes total k d

/-- A packet starts on a bundle. -/
def Dev.startPkt (d : Dev) (l b dir src dst : Nat) (p : Packet) (again : Option Nat) : Dev :=
  Dev.sendFlits l b dir src dst (pktVc p) again (pktBytes p) (pktFlits p) (pktFlits p) d

/-- A packet held for a failed bundle waits behind another: one of the same failed bundle, or one of its own flow. -/
def heldBehind (f : Nat) (u : UnitPkt) (e : Nat × UnitPkt) : Bool :=
  e.1 = f || (e.2.src = u.src && e.2.dst = u.dst && e.2.pkt.cls = u.pkt.cls)

/-- Packets of failed bundles go again in order, as credits allow; those of a flow whose new bundle has failed in turn wait
for that bundle's recovery flit (R25). The list kept is what still waits. -/
def Dev.pumpHeld (l dir : Nat) : List (Nat × UnitPkt) → List (Nat × UnitPkt) → Dev → Dev × List (Nat × UnitPkt)
  | [], kept, d => (d, kept)
  | (f, u) :: r, kept, d =>
    let b := d.bundleOf l u.src u.dst u.pkt
    if kept.any (heldBehind f u) || d.noticeDue l dir u.src u.dst u.pkt || !d.bundleRuns l b || !d.flitsFit l b dir u.pkt then
      Dev.pumpHeld l dir r (kept ++ [(f, u)]) d
    else Dev.pumpHeld l dir r kept (d.startPkt l b dir u.src u.dst u.pkt (some f))

/-- The packets ready at the outputs of a direction that have not started. -/
def Dev.readyPkts (d : Dev) (l dir : Nat) : List UnitPkt := Tab.get [] d.d2d.ready (2 * l + dir)

/-- A packet can start on its flow's bundle now (R19, R21, R25). -/
def Dev.unitFits (d : Dev) (l dir : Nat) (u : UnitPkt) : Bool :=
  let b := d.bundleOf l u.src u.dst u.pkt
  d.bundleRuns l b && !d.remapHeld l dir u.src u.dst u.pkt && d.flitsFit l b dir u.pkt

/-- A packet starts on its flow's bundle; the turn of C0 and C2 is kept. -/
def Dev.startUnit (d : Dev) (l dir : Nat) (u : UnitPkt) : Dev :=
  let b := d.bundleOf l u.src u.dst u.pkt
  (d.modBundle l b dir (fun x => { x with altC2 := altAfter x.altC2 u.pkt.cls })).startPkt l b dir u.src u.dst u.pkt none

/-- The next ready packet of a bundle (R258): the first of its virtual channel there, by the order of the classes. -/
def Dev.nextReady (d : Dev) (l dir b : Nat) : Option UnitPkt :=
  let mine := (d.readyPkts l dir).filter (fun u => d.bundleOf l u.src u.dst u.pkt = b)
  firstOut (fun u : UnitPkt => u.pkt.cls) (d.bundle l b dir).altC2
    (mine.filter (fun u => d.unitFits l dir u && mine.find? (fun e => pktVc e.pkt = pktVc u.pkt) = some u))

/-- Ready packets start on a bundle as long as one can. -/
def Dev.pumpBundle (l dir b : Nat) : Nat → Dev → Dev
  | 0, d => d
  | n + 1, d =>
    match d.nextReady l dir b with
    | none => d
    | some u => Dev.pumpBundle l dir b n (({ d with d2d := { d.d2d with
        ready := Tab.set [] d.d2d.ready (2 * l + dir) ((d.readyPkts l dir).erase u) } } : Dev).startUnit l dir u)

/-- Ready packets of a direction start where they can. -/
def Dev.pumpReady (d : Dev) (l dir : Nat) : Dev :=
  (List.range (bundlesOf l)).foldl (fun d b => Dev.pumpBundle l dir b (d.readyPkts l dir).length d) d

/-- What waits in a direction of a link goes as far as it can; a failed bundle with none left holds no flow any more. -/
def Dev.pumpDir (d : Dev) (l dir : Nat) : Dev :=
  let x := Dev.pumpHeld l dir (Tab.get [] d.d2d.held (2 * l + dir)) [] d
  let d : Dev := { x.1 with d2d := { x.1.d2d with held := Tab.set [] x.1.d2d.held (2 * l + dir) x.2 } }
  let d := (List.range (bundlesOf l)).foldl (fun d f =>
    if Tab.get false (d.ctl l f).noticed dir && x.2.all (fun e => e.1 != f) then
      d.modCtl l f (fun c => { c with txHold := Tab.set 0 c.txHold dir 0, noticed := Tab.set false c.noticed dir false })
    else d) d
  d.pumpReady l dir

/-- D2D_PACKET_START: a packet is ready at a unit's output: it starts on its flow's bundle, once the sender holds credits for
all its flits and no other goes before it (R19, R21, R258). -/
def execD2dPacketStart (l dir src dst : Nat) (p : Packet) (s : State) : Host.Outcome State Fault Refusal :=
  s.run (l < 20 && dir < 2 && unitsOk l dir src dst && p.cls < 4 && p.payload.length ≤ 4096)
    (s.dev.live && s.dev.linkLocked l && s.dev.upMask l != 0) (fun d =>
    if (d.readyPkts l dir).isEmpty && d.unitFits l dir ⟨src, dst, p⟩ then d.startUnit l dir ⟨src, dst, p⟩
    else ({ d with d2d := { d.d2d with
      ready := Tab.set [] d.d2d.ready (2 * l + dir) (d.readyPkts l dir ++ [⟨src, dst, p⟩]) } } : Dev).pumpReady l dir)

/-! ### Retrains and margin sweeps (R24, R29, R30) -/

/-- Calibration jobs with nothing left complete DONE. -/
def Dev.closeD2dCals (d : Dev) : Dev :=
  let done := d.d2d.calJobs.filter (fun j => j.busy.isEmpty && j.left.isEmpty)
  let d : Dev := { d with d2d := { d.d2d with calJobs := d.d2d.calJobs.filter (fun j => !(j.busy.isEmpty && j.left.isEmpty)) } }
  done.foldl (fun d j => d.finishKey j.desc (Ending.plain .done)) d

/-- Margin jobs with nothing left complete DONE. -/
def Dev.closeD2dMargins (d : Dev) : Dev :=
  let done := d.d2d.marginJobs.filter (fun j => j.busy.isEmpty && j.left.isEmpty)
  let d : Dev := { d with d2d := { d.d2d with marginJobs := d.d2d.marginJobs.filter (fun j => !(j.busy.isEmpty && j.left.isEmpty)) } }
  done.foldl (fun d j => d.finishKey j.desc (Ending.plain .done)) d

/-- A bundle enters its retrain. -/
def Dev.beginRetrain (d : Dev) (l b : Nat) : Dev :=
  ((d.modCtl l b (fun c => { c with retraining := true })).bumpSat (Reg.D2D_ERR_CNT.RETRAINS l b) 1)

/-- A bundle is to be retrained: now, or when one of the link's two places is free (R24). -/
def Dev.askRetrain (d : Dev) (l b : Nat) : Dev :=
  if !d.bundleUp l b || d.bundleHeld l b || d.d2d.queue.contains (l, b) then d
  else if d.heldCount l < 2 then d.beginRetrain l b
  else { d with d2d := { d.d2d with queue := d.d2d.queue ++ [(l, b)] } }

/-- The offset of a bundle's record among the links a mask names: 256 bytes of each tower link, 80 of each engine link. -/
def d2dOffset (mask l b : Nat) : Nat :=
  ((onesOf 20 mask).filter (· < l)).foldl (fun n x => n + 16 * bundlesOf x) 0 + 16 * b

/-- A record of a die-to-die MARGIN is written. -/
def Dev.putBundle (d : Dev) (k : Nat × Nat) (l b : Nat) (bytes : List Byte) : Dev :=
  match d.desc? k with
  | some j => d.refWrite (j.refIdx 50) (j.refOff 50 + d2dOffset (j.num 26 24) l b) bytes
  | none => d

/-- The temperature band of a link: of its tower, or of the Midway (R27). -/
def Dev.linkBand (d : Dev) (l : Nat) : Nat :=
  if l < 8 then d.fld (Reg.TGT_TEMP.BAND l) else d.fld Reg.TGT_STATUS.MIDWAY_BAND

/-- The record of a bundle's sweep (R29); none for a bundle out of service. -/
def Dev.bundleRecord (d : Dev) (l b : Nat) (x : Option D2DSweep) : List Byte :=
  match x with
  | none => leBytes 1 l ++ leBytes 1 (b + 16) ++ zeros 14
  | some x =>
    leBytes 1 l ++ leBytes 1 b ++ leBytes 1 (d.linkBand l + 4 * d.fld Reg.TGT_STATUS.POWER_BAND) ++ [0] ++ leBytes 1 x.eyeWTo ++
      leBytes 1 x.eyeWFrom ++ leBytes 2 x.eyeHTo ++ leBytes 2 x.eyeHFrom ++ leBytes 1 (x.worstTo % 128) ++
      leBytes 1 (x.worstFrom % 128) ++ leBytes 4 x.errNominal

/-- A margin job's next bundle of a link is held; a bundle out of service is reported not swept. -/
def Dev.sweepNext (k : Nat × Nat) (l : Nat) : Nat → Dev → Dev
  | 0, d => d
  | n + 1, d =>
    match d.d2d.marginJobs.find? (fun j => j.desc = k) with
    | none => d
    | some j =>
      if j.busy.any (fun e => e.1 = l) || 2 ≤ d.heldCount l then d
      else
        match j.left.find? (fun e => e.1 = l) with
        | none => d
        | some e =>
          let up := d.bundleUp l e.2
          if up && d.bundleHeld l e.2 then d
          else
            let d : Dev := { d with d2d := { d.d2d with marginJobs := d.d2d.marginJobs.map (fun i => if i.desc = k then
              { i with left := i.left.erase e, busy := if up then i.busy ++ [e] else i.busy } else i) } }
            if up then d.modCtl l e.2 (fun c => { c with sweeping := true })
            else Dev.sweepNext k l n (d.putBundle k l e.2 (d.bundleRecord l e.2 none))

/-- The free places of a link are taken: by retrains that wait, then by calibration jobs, then by sweeps.
DESIGN CHOICE (log entry 24). -/
def Dev.fillPlaces (d : Dev) (l : Nat) : Dev :=
  let wait := d.d2d.queue.filter (fun e => e.1 = l)
  let d := wait.foldl (fun d e =>
    if d.heldCount l < 2 then
      let d : Dev := { d with d2d := { d.d2d with queue := d.d2d.queue.erase e } }
      if d.bundleUp l e.2 && !d.bundleHeld l e.2 then d.beginRetrain l e.2 else d
    else d) d
  let d := d.d2d.calJobs.foldl (fun d j => (j.left.filter (fun e => e.1 = l)).foldl (fun d e =>
    if d.heldCount l < 2 || !d.bundleUp l e.2 then
      let up := d.bundleUp l e.2
      let d : Dev := { d with d2d := { d.d2d with calJobs := d.d2d.calJobs.map (fun i => if i.desc = j.desc then
        { i with left := i.left.erase e, busy := if up then i.busy ++ [e] else i.busy } else i) } }
      if up && !d.bundleHeld l e.2 then d.beginRetrain l e.2 else d
    else d) d) d
  let d := d.d2d.marginJobs.foldl (fun d j => Dev.sweepNext j.desc l 17 d) d
  d.closeD2dCals.closeD2dMargins

/-! ### Out of service (R25, R26) -/

/-- The packets of a failed bundle's replay buffer, in order. -/
def heldPkts (f : Nat) : List Byte → List FlitBuf → List (Nat × UnitPkt)
  | _, [] => []
  | acc, b :: r =>
    let acc := (if b.sop then [] else acc) ++ b.body
    if b.eop then
      (match pktParse acc with
       | some p => (f, ⟨b.src, b.dst, p⟩) :: heldPkts f [] r
       | none => heldPkts f [] r)
    else heldPkts f acc r

/-- The lowest bundle of a link in service. -/
def Dev.lowBundle (d : Dev) (l : Nat) : Nat := ((onesOf 16 (d.upMask l)).head?).getD 0

/-- The recovery flit of a failed bundle's receiver (R25): it travels against the direction it recovers; while the lowest
bundle in service moves no flits, none goes. DESIGN CHOICE (log entry 24). -/
def Dev.recoveryFlit (d : Dev) (l f dir : Nat) : Dev :=
  let x := d.bundle l f dir
  if d.bundleRuns l (d.lowBundle l) then
    d.sendFlit l (d.lowBundle l) (1 - dir) 3 0 false false 0 (leBytes 1 f ++ leBytes 1 x.last ++ leBytes 1 (flag x.any))
  else d

/-- Packets that the Midway holds for the far end of a link: those of failed bundles, those that no bundle has had
acknowledged whole, and those that have not started. -/
def Dev.linkPkts (d : Dev) (l : Nat) : List Packet :=
  ((Tab.get [] d.d2d.held (2 * l + 1)) ++
    ((List.range (bundlesOf l)).map (fun b => heldPkts b [] (d.bundle l b 1).replay)).flatten).map (fun e => e.2.pkt) ++
    (d.readyPkts l 1).map (·.pkt)

/-- What a lost link held is held no more. -/
def Dev.emptyLink (d : Dev) (l : Nat) : Dev :=
  let d : Dev := { d with d2d := { d.d2d with
    held := Tab.set [] (Tab.set [] d.d2d.held (2 * l) []) (2 * l + 1) []
    ready := Tab.set [] (Tab.set [] d.d2d.ready (2 * l) []) (2 * l + 1) [] } }
  (List.range (bundlesOf l)).foldl (fun d b =>
    [0, 1].foldl (fun d dir => d.modBundle l b dir (fun x => { x with replay := [] })) d) d

/-- A link with no bundle that works is lost (R26); the packets held in the Midway for an engine are routed again (R223).
DESIGN CHOICE (log entry 24). -/
def Dev.linkGone (d : Dev) (l : Nat) : Dev :=
  if l < 8 then (d.emptyLink l).towerLost l
  else
    ((d.emptyLink l).engineLost (l - 8)).reroute ((d.linkPkts l).map (fun p => (none, p)))

/-- A bundle leaves BUNDLE_UP, with its record. -/
def Dev.clearUp (d : Dev) (l b : Nat) : Dev :=
  let d := (d.setFldBit (Reg.D2D_LINK_STATUS.BUNDLE_UP l) b false).setFldBit Reg.D2D_BUNDLE_DOWN.LINK l true
  let d := d.modCtl l b (fun c => { c with retraining := false, sweeping := false })
  (({ d with bundleOut := setBit d.bundleOut l true } : Dev).record (.mk1 2 1 l (leBytes 1 b))).refreshFlags

/-- A bundle goes out of service until reset: receivers drop partial packets and send recovery flits, senders hold the
remapped flows; with the last bundle the link is lost (R25, R26). -/
def Dev.bundleGone (d : Dev) (l b : Nat) : Dev :=
  let d := d.clearUp l b
  if d.upMask l = 0 then d.linkGone l
  else
    let d := [0, 1].foldl (fun d dir => d.modBundle l b dir (fun x => { x with partialBytes := [], partialFlits := 0 })) d
    let d := d.modCtl l b (fun c => { c with
      rxRecover := [(0, d.clk + 1), (1, d.clk + 1)], txHold := [(0, d.clk + 1), (1, d.clk + 1)], failMask := d.upMask l })
    [0, 1].foldl (fun d dir => d.recoveryFlit l b dir) d

/-- Jobs end their work on a bundle that goes out of service: a calibration counts it as done (R30), a sweep is not made
(R29). -/
def Dev.dropBundle (d : Dev) (l b : Nat) : Dev :=
  let d := d.d2d.marginJobs.foldl (fun d j =>
    if j.busy.contains (l, b) then d.putBundle j.desc l b (d.bundleRecord l b none) else d) d
  let f := fun (j : SweepJob) => { j with busy := j.busy.erase (l, b) }
  { d with d2d := { d.d2d with calJobs := d.d2d.calJobs.map f, marginJobs := d.d2d.marginJobs.map f } }

/-- Every bundle of a link that is left goes out of service: the link is lost (R25, R26), and the jobs that waited for its
bundles go on without them. -/
def Dev.linkFails (d : Dev) (l : Nat) : Dev :=
  (((onesOf 16 (d.upMask l)).foldl (fun d b => (d.clearUp l b).dropBundle l b) d).linkGone l).fillPlaces l

/-! ### Receiving (R20 to R22) -/

/-- A number is at or before another in sequence, modulo 2^8. -/
def flitLe (a b : Nat) : Bool := (b + 256 - a) % 256 < 128

/-- Acknowledged flits leave the replay buffer, packet by packet. -/
def Bundle.acked (x : Bundle) (a : Nat) : Bundle :=
  if flitLe x.txAck a then
    { x with txAck := a, replay := x.replay.drop (wholePrefix (fun f : FlitBuf => flitLe f.seq a) (fun f : FlitBuf => f.eop) x.replay 0 0) }
  else x

/-- The flits not acknowledged. -/
def Bundle.unacked (x : Bundle) : List FlitBuf := x.replay.filter (fun f => !flitLe f.seq x.txAck)

/-- D2D_CTRL.RETRY_LIMIT as it acts. -/
def Dev.retryLimit (d : Dev) : Nat := max 1 (d.fld Reg.D2D_CTRL.RETRY_LIMIT)

/-- The unacknowledged flits are sent again now. -/
def Dev.restamp (d : Dev) (l b dir : Nat) : Dev :=
  d.modBundle l b dir (fun x => { x with replay := x.replay.map (fun f => if flitLe f.seq x.txAck then f else { f with at' := d.clk }) })

/-- A re-send episode: every flit from ACK + 1 goes again, it is counted, and above the rate a retrain is due at the next
step gap (R22, R24). -/
def Dev.resendFlits (d : Dev) (l b dir : Nat) : Dev :=
  let d := d.bumpSat (Reg.D2D_ERR_CNT.RETRIES l b) 1
  let d := d.modCtl l b (fun c => { c with retries := lastSecond d.clk (d.clk :: c.retries) })
  let d := if d.fld Reg.D2D_CTRL.RATE_LIMIT < (d.ctl l b).retries.length then d.deferGap (.d2dRetrain l b) else d
  (d.bundle l b dir).unacked.foldl (fun d f => d.sendBuf l b dir f) (d.restamp l b dir)

/-- What a good flit brings the sender of the other direction: an acknowledgement, credits, a NAK. -/
def Dev.flitHeader (d : Dev) (l b dir : Nat) (f : List Byte) : Dev :=
  let o := 1 - dir
  let c := leAt f 123 1
  let d := d.modBundle l b o (fun x =>
    let y := (x.crdCome true).acked (leAt f 122 1)
    { y with spent := Tab.set 0 y.spent (bits c 0 3) (Tab.get 0 y.spent (bits c 0 3) - bits c 3 4) })
  let d := if bit (leAt f 120 1) 7 && !(d.bundle l b o).unacked.isEmpty then d.resendFlits l b o else d
  d.pumpDir l o

/-- Idle flits carry the ACK, the NAK and the credits that are due. -/
def Dev.answerFlits (l b dir : Nat) : Nat → Dev → Dev
  | 0, d => d
  | k + 1, d =>
    let d := d.sendFlit l b (1 - dir) 1 0 false false 0 []
    if (d.bundle l b dir).owed.isEmpty then d else Dev.answerFlits l b dir k d

/-- A packet has come whole: it is delivered, its flits leave the buffer. -/
def Dev.flitDeliver (d : Dev) (l b dir vc seq : Nat) (bytes : List Byte) (n : Nat) : Dev :=
  let d := d.modBundle l b dir (fun x => { x with
    partialBytes := [], partialFlits := 0, last := seq, any := true
    owed := Tab.set 0 x.owed vc (Tab.get 0 x.owed vc + n) })
  match pktParse bytes with
  | some p => d.emit (.unitPkt l dir p)
  | none => d.bumpSat Reg.FAB_DROPS.NO_ROUTE 1

/-- A data flit with SEQ = ACK + 1 is taken; a re-sent one ends its bundle's recovery flits (R22, R25). -/
def Dev.takeFlit (d : Dev) (l b dir : Nat) (f : List Byte) : Dev :=
  let h := leAt f 120 1
  let s := leAt f 121 1
  let from_ := ((d.bundle l b dir).replay.find? (fun x => x.seq = s)).bind (·.again)
  let d := match from_ with
    | some g => d.modCtl l g (fun c => { c with rxRecover := Tab.set 0 c.rxRecover dir 0 })
    | none => d
  let x := d.bundle l b dir
  let body := (if bit h 3 then [] else x.partialBytes) ++ slice f 0 120
  let n := (if bit h 3 then 0 else x.partialFlits) + 1
  let d := d.modBundle l b dir (fun x => { x with rxLast := s, nak := false, failRun := 0, partialBytes := body, partialFlits := n })
  if bit h 4 then d.flitDeliver l b dir (bits h 0 3) s body n else d

/-- A data flit fails its CRC: NAK is asked; the awaited flit at the limit of failed sends makes the bundle retrain
(R22, R24). -/
def Dev.dataFails (d : Dev) (l b dir : Nat) (f : List Byte) : Dev :=
  let x := d.bundle l b dir
  let n := if leAt f 121 1 = (x.rxLast + 1) % 256 then x.failRun + 1 else x.failRun
  if d.retryLimit ≤ n then (d.modBundle l b dir (fun x => { x with nak := true, failRun := 0 })).askRetrain l b
  else d.modBundle l b dir (fun x => { x with nak := true, failRun := n })

/-- A flit fails its CRC: it is discarded, and the credits it carried are owed again; a data flit's failure is answered
with NAK (R22). TYPE and SEQ are taken as they came. DESIGN CHOICE (log entry 24). -/
def Dev.flitFails (d : Dev) (l b dir : Nat) (f : List Byte) : Dev :=
  let d := d.modBundle l b (1 - dir) (fun x => x.crdCome false)
  if flitType f = 0 then
    let d := d.dataFails l b dir f
    if d.bundleHeld l b then d else Dev.answerFlits l b dir 8 d
  else d

/-- D2D_FLIT_RECEIVE: a flit is received, checked, acknowledged and credited (R18, R20 to R22); a recovery flit is its own
command. A retrain request starts a retrain; the block sends none, since the spec says nowhere when one goes.
DESIGN CHOICE (log entry 24). -/
def execD2dFlitReceive (l b dir : Nat) (f : List Byte) (s : State) : Host.Outcome State Fault Refusal :=
  s.run (bundleOk l b && dir < 2 && f.length = 128) (s.dev.bundleRuns l b && !(flitGood f && flitType f = 3)) (fun d =>
    if !flitGood f then d.flitFails l b dir f
    else
      let d := d.flitHeader l b dir f
      if flitType f = 0 then
        Dev.answerFlits l b dir 8 (if leAt f 121 1 = ((d.bundle l b dir).rxLast + 1) % 256 then d.takeFlit l b dir f else d)
      else if flitType f = 2 then d.askRetrain l b
      else d)

/-- 256 ns, 205 cycles, have passed since the oldest unacknowledged flit was sent (R22). -/
def Dev.replayOver (d : Dev) (l b dir : Nat) : Bool :=
  (d.bundle l b dir).unacked.head?.any (fun f => f.at' + 205 ≤ d.clk)

/-- D2D_REPLAY_TIMEOUT: no acknowledgement 256 ns after the oldest unacknowledged flit (R22). -/
def execD2dReplayTimeout (l b dir : Nat) (s : State) : Host.Outcome State Fault Refusal :=
  s.run (bundleOk l b && dir < 2) (s.dev.bundleRuns l b && s.dev.replayOver l b dir)
    (fun d => d.resendFlits l b dir)

/-! ### Ends of retrains and recoveries -/

/-- A bundle returns from its retrain: a band change that waited is applied as the last step (R27), a CAL_REQ's retrain
trains the set of the present band afresh (R30), and what was not acknowledged goes again (R24). -/
def Dev.retrained (d : Dev) (l b : Nat) (cal : Bool) : Dev :=
  let band := d.linkBand l
  let pw := d.fld Reg.TGT_STATUS.POWER_BAND
  let d := d.modCtl l b (fun c => { c with
    retraining := false, bandDue := false
    applied := if c.bandDue || cal then band else c.applied
    sets := if cal then Tab.set 0 c.sets band (pw + 1) else c.sets })
  let d := [0, 1].foldl (fun d dir => d.modBundle l b dir Bundle.crdBack) d
  [0, 1].foldl (fun d dir =>
    ((d.bundle l b dir).unacked.foldl (fun d f => d.sendBuf l b dir f) (d.restamp l b dir)).pumpDir l dir) d

/-- D2D_RETRAIN_DONE: with 64 passing lanes the bundle resumes and re-sends what was not acknowledged; otherwise it goes
out of service (R24, R25, R27, R30). -/
def execD2dRetrainDone (l b : Nat) (res : LaneResult) (s : State) : Host.Outcome State Fault Refusal :=
  s.run (bundleOk l b && res.passing.all (· < 68) && decide res.passing.Nodup) (s.dev.live && s.dev.linkLocked l && (s.dev.ctl l b).retraining) (fun d =>
    let pass := res.passing.filter (fun n => (d.goodLanes (bundleIdx l b)).contains n)
    let d := d.selectLanes l b pass
    let cal := d.d2d.calJobs.any (fun j => j.busy.contains (l, b))
    let d : Dev := { d with d2d := { d.d2d with calJobs := d.d2d.calJobs.map (fun j => { j with busy := j.busy.erase (l, b) }) } }
    let d := if 64 ≤ pass.length then d.retrained l b cal else d.bundleGone l b
    d.fillPlaces l)

/-- D2D_RECOVERY_FLIT_SEND: the receiver sends the recovery flit again, for up to 100 µs (R25). -/
def execD2dRecoveryFlitSend (l b dir : Nat) (s : State) : Host.Outcome State Fault Refusal :=
  s.run (bundleOk l b && dir < 2)
    (s.dev.live && s.dev.linkLocked l && s.dev.upMask l != 0 && Tab.get 0 (s.dev.ctl l b).rxRecover dir != 0 &&
      s.dev.clk + 1 ≤ Tab.get 0 (s.dev.ctl l b).rxRecover dir + us 100)
    (fun d => d.recoveryFlit l b dir)

/-- D2D_RECOVERY_FLIT_RECEIVE: the sender discards packets already delivered and sends the rest again on new bundles, ahead
of what waits of bundles that failed before and was to go on this one (R20, R25). -/
def execD2dRecoveryFlitReceive (l dir : Nat) (f : List Byte) (s : State) : Host.Outcome State Fault Refusal :=
  s.run (l < 20 && dir < 2 && f.length = 128)
    (s.dev.bundleRuns l (s.dev.lowBundle l) && flitGood f && flitType f = 3 && leAt f 0 1 < bundlesOf l) (fun d =>
    let g := leAt f 0 1
    let o := 1 - dir
    let d := d.modBundle l (d.lowBundle l) o (fun x => (x.crdCome true).acked (leAt f 122 1))
    if Tab.get 0 (d.ctl l g).txHold o = 0 || Tab.get false (d.ctl l g).noticed o then d
    else
      let x := d.bundle l g o
      let done := if bit (leAt f 2 1) 0 then
          wholePrefix (fun y : FlitBuf => flitLe y.seq (leAt f 1 1)) (fun y : FlitBuf => y.eop) x.replay 0 0
        else 0
      let d := d.modBundle l g o (fun x => { x with replay := [] })
      let d := d.modCtl l g (fun c => { c with noticed := Tab.set false c.noticed o true })
      let w := heldPkts g [] (x.replay.drop done) ++ Tab.get [] d.d2d.held (2 * l + o)
      let d : Dev := { d with d2d := { d.d2d with held := Tab.set [] d.d2d.held (2 * l + o) w } }
      d.pumpDir l o)

/-- D2D_RECOVERY_TIMEOUT: no good recovery flit within 100 µs: the link is lost (R25, R26). -/
def execD2dRecoveryTimeout (l b dir : Nat) (s : State) : Host.Outcome State Fault Refusal :=
  s.run (bundleOk l b && dir < 2)
    (s.dev.live && s.dev.upMask l != 0 && Tab.get 0 (s.dev.ctl l b).txHold dir != 0 && !Tab.get false (s.dev.ctl l b).noticed dir &&
      Tab.get 0 (s.dev.ctl l b).txHold dir + us 100 ≤ s.dev.clk + 1)
    (fun d => d.linkFails l)

/-! ### Bands (R27) -/

/-- The band of a link has changed: every bundle in service is to apply its set (R27). -/
def Dev.bandChanged (d : Dev) (l : Nat) : Dev :=
  (onesOf 16 (d.upMask l)).foldl (fun d b => d.modCtl l b (fun c => { c with bandDue := true })) d

/-- A bundle has applied its set of the link's band; its transmitters go on. -/
def Dev.bandApplied (d : Dev) (l b : Nat) : Dev :=
  [0, 1].foldl (fun d dir => d.pumpDir l dir)
    (d.modCtl l b (fun c => { c with bandDue := false, applied := d.linkBand l }))

/-- D2D_BAND_SET_DONE: a bundle has applied its set for the new band, and the next one begins (R27). -/
def execD2dBandSetDone (l b : Nat) (s : State) : Host.Outcome State Fault Refusal :=
  s.run (bundleOk l b) (s.dev.live && s.dev.bandBundle l = some b) (fun d => d.bandApplied l b)

/-! ### Descriptors (R29, R30) -/

/-- The work of a CAL_REQ for die-to-die links (R30). -/
def Dev.calD2dGo (d : Dev) (j : Desc) : Dev :=
  let l := ((onesOf 20 j.mask).map (fun l => (onesOf 16 (d.upMask l)).map (fun b => (l, b)))).flatten
  let d : Dev := { d with d2d := { d.d2d with calJobs := d.d2d.calJobs ++ [⟨j.key, l, [], []⟩] } }
  (onesOf 20 j.mask).foldl Dev.fillPlaces d.closeD2dCals

/-- CAL_REQ_D2D: every bundle in service of each named link retrains, two at a time (R30). -/
def execCalReqD2d (r : Nat) (s : State) : Host.Outcome State Fault Refusal :=
  s.run (r < 16) (s.dev.descDue r (fun j => j.opc = 0x90 && j.num 24 1 = 1)) (fun d =>
    d.startDesc r
      (fun d j => firstFail [j.reserved [(24, 0, 8), (26, 0, 192)], badIf (2 ^ 20 ≤ j.mask) 26,
        d.stateCheck [.ready, .running, .quiesced]])
      (fun d j => d.atGap j Dev.calD2dGo))

/-- Bytes of records of the links a mask names. -/
def d2dNeed (mask : Nat) : Nat := (onesOf 20 mask).foldl (fun n l => n + 16 * bundlesOf l) 0

/-- MARGIN_D2D: each named link is swept one bundle at a time, links in parallel (R29); a KIND that is none of R194's is
refused here. DESIGN CHOICE (log entry 16). -/
def execMarginD2d (r : Nat) (s : State) : Host.Outcome State Fault Refusal :=
  s.run (r < 16) (s.dev.descDue r (fun j => j.opc = 0xE0 && 2 ≤ j.num 24 1)) (fun d =>
    d.startDesc r
      (fun d j => firstFail [badIf (j.num 24 1 != 2) 24, d.marginCheck j 20 (d2dNeed j.mask) []])
      (fun d j =>
        let l := ((onesOf 20 j.mask).map (fun l => (List.range (bundlesOf l)).map (fun b => (l, b)))).flatten
        let d : Dev := { d with d2d := { d.d2d with marginJobs := d.d2d.marginJobs ++ [⟨j.key, l, [], []⟩] } }
        (onesOf 20 j.mask).foldl Dev.fillPlaces d.closeD2dMargins))

/-- D2D_MARGIN_BUNDLE_DONE: the sweep of a bundle ends; its record is written, it returns through a retrain, and the next
bundle is held (R29). -/
def execD2dMarginBundleDone (l b : Nat) (x : D2DSweep) (s : State) : Host.Outcome State Fault Refusal :=
  s.run (bundleOk l b) (s.dev.live && s.dev.d2d.marginJobs.any (fun j => j.busy.contains (l, b))) (fun d =>
    match d.d2d.marginJobs.find? (fun j => j.busy.contains (l, b)) with
    | none => d
    | some j =>
      let d := d.putBundle j.desc l b (d.bundleRecord l b (some x))
      let d : Dev := { d with d2d := { d.d2d with marginJobs := d.d2d.marginJobs.map (fun i =>
        if i.desc = j.desc then { i with busy := i.busy.erase (l, b) } else i) } }
      ((d.modCtl l b (fun c => { c with sweeping := false })).beginRetrain l b).fillPlaces l)

/-! ### Clocks (R31 to R34) -/

/-- A PLL's unit in fault records: tower t, engine 0x10 + e, root 0xFF. -/
def pllUnit (k : Nat) : Nat := if k < 8 then k else if k < 20 then 0x10 + (k - 8) else 0xFF

/-- The record of a PLL's lock loss (code 0x01/0x02). -/
def Dev.pllRecord (d : Dev) (k : Nat) (ok : Bool) : Dev := d.record (.mk1 1 2 (pllUnit k) (leBytes 1 (flag ok)))

/-- A follower PLL's loss of lock is still without its record (R33). -/
def Dev.lossOpen (d : Dev) (k : Nat) : Bool := bit d.pllOpen k

/-- The record of a follower's loss, once it is known whether the PLL relocked in time. -/
def Dev.lossRecord (d : Dev) (k : Nat) (ok : Bool) : Dev :=
  if d.lossOpen k then ({ d with pllOpen := setBit d.pllOpen k false } : Dev).pllRecord k ok else d

/-- The passes that a tower's loss of lock discarded are replayed as after a fault of all four arrays (R33).
DESIGN CHOICE and DEDUCED (log entry 19). -/
def Dev.relockTower (d : Dev) (k : Nat) : Dev :=
  (List.range 24).foldl (fun d i =>
    let c := 24 * k + i
    if (d.core c).passes.isEmpty || d.coreGone c then d else d.arrayFault c 6 0xF) d

/-- PLL_LOCK_LOSS: PLL k loses lock: 0 to 7 a tower's, 8 to 19 an engine's, 20 the root's (R33). -/
def execPllLockLoss (k : Nat) (s : State) : Host.Outcome State Fault Refusal :=
  s.run (k < 21)
    (s.dev.inSt [.boot, .recovery, .ready, .running, .quiesced] &&
      (if k = 20 then s.dev.on Reg.CLK_STATUS.ROOT_LOCK else s.dev.linkLocked k)) (fun d =>
    if k = 20 then
      let d := ((d.setFld Reg.CLK_STATUS.ROOT_LOCK 0).setFld Reg.CLK_LOCK_LOSS.ROOT 1).interruptFlash
      let seq := d.flt.seq
      (d.pllRecord k false).enterHalted 1 seq
    else if k < 8 then
      let d := (({ d with pllOpen := setBit d.pllOpen k true } : Dev).setFldBit Reg.CLK_STATUS.TWR_LOCK k false).setFldBit
        Reg.CLK_LOCK_LOSS.TWR k true
      (List.range 24).foldl (fun d i =>
        if (d.core (24 * k + i)).passes.isEmpty then d else d.discardPasses (24 * k + i)) d
    else
      let d := (({ d with pllOpen := setBit d.pllOpen k true } : Dev).setFldBit Reg.CLK_STATUS.ENG_LOCK (k - 8) false).setFldBit
        Reg.CLK_LOCK_LOSS.ENG (k - 8) true
      (List.range 4).foldl (fun d i => d.portDown (4 * (k - 8) + i)) d)

/-- PLL_RELOCK: a follower PLL relocks: its loss gets its record, discarded passes are replayed as after a fault, or the
engine's ports may train again (R33). A relock after the 100 µs brings the lock back and writes no second record; outside
the states in which the dies run only the record and the lock follow. -/
def execPllRelock (k : Nat) (s : State) : Host.Outcome State Fault Refusal :=
  s.run (k < 20)
    (s.dev.st != .reset && !s.dev.linkLocked k && (s.dev.lossOpen k || s.dev.boot.phase = .firmware)) (fun d =>
    let d := d.lossRecord k true
    if k < 8 then
      let d := d.setFldBit Reg.CLK_STATUS.TWR_LOCK k true
      if d.live then d.relockTower k else d
    else d.setFldBit Reg.CLK_STATUS.ENG_LOCK (k - 8) true)

/-- The four ports of an engine whose follower PLL has not relocked in time enter FAILED with cause engine (R33, R223). -/
def Dev.engineUnlocked (d : Dev) (e : Nat) : Dev :=
  (List.range 4).foldl (fun d i =>
    let p := 4 * e + i
    if d.portSt p = 5 then d else (d.setFld (Reg.OPT_PORT_STATUS.ENG_LINK p) 0).failPort p 7) d

/-- PLL_RELOCK_TIMEOUT: a follower PLL has not relocked within 100 µs (R33). -/
def execPllRelockTimeout (k : Nat) (s : State) : Host.Outcome State Fault Refusal :=
  s.run (k < 20) (s.dev.st != .reset && !s.dev.linkLocked k && s.dev.lossOpen k) (fun d =>
    let d := d.lossRecord k false
    if !d.live then d else if k < 8 then d.towerLost k else d.engineUnlocked (k - 8))

/-- The size of a reference deviation, in 0.1 ppm. -/
def refDev (dev : Nat) : Nat := (sext 16 dev).natAbs

/-- REF_CHECK: the millisecond measurement; at 10 deviations in a row above the tolerance a record is written and
ALERT_N is asserted (R34, R357). -/
def execRefCheck (dev : Nat) (s : State) : Host.Outcome State Fault Refusal :=
  s.run (dev < 65536) (s.dev.live && s.dev.on Reg.CLK_STATUS.ROOT_LOCK) (fun d =>
    let d := d.setFld Reg.CLK_REF_DEV.DEV dev
    let overs := d.fld Reg.CLK_REF_TOL.TOL < refDev dev
    let n := if overs then d.refRun + 1 else 0
    let d : Dev := { d with refRun := n }
    let d := d.setOn Reg.TGT_ALERT.REF_DEV (10 ≤ n)
    if n = 10 then d.record (.mk1 1 3 0xFF (leBytes 2 dev)) else d)

end Sys2Proof.Machine
end

