-- ==== Sys2Proof/Machine/Update.lean ====
section
/-! DEFINITION. The commands of the update engine: bindings and freezes, blocks on update cores; and what commit and rollback do to it (R292 to R312). -/

namespace Sys2Proof.Machine

/-! ### UPD_BIND (R193, R293, R294, R295) -/

/-- TENSOR. -/
def Desc.tensor (j : Desc) : Nat := j.num 24 3
/-- NARROW_FMT. -/
def Desc.nfmt (j : Desc) : Nat := j.fb 27 0 4
/-- UNBIND. -/
def Desc.unbinds (j : Desc) : Bool := j.fb 27 4 1 = 1

/-- The bindings as they will be once the staged descriptors are applied. -/
def Dev.effBinds (d : Dev) : List Binding :=
  d.upd.staged.foldl (fun l s =>
    match s with
    | .bind _ b => insertBind b (l.filter (fun q => q.tensor != b.tensor))
    | .unbind _ t => l.filter (fun q => q.tensor != t)
    | .freeze _ _ _ _ _ => l) d.upd.binds

/-- Bindings that a new one of a tensor stands beside: a replaced one counts on until the replacement takes effect. -/
def Dev.besides (d : Dev) (t : Nat) : List Binding :=
  if d.st = .running then d.allBinds else d.allBinds.filter (fun b => b.tensor != t)

/-- An array lies wholly within one vault of an ACTIVE core, or within Midway SRAM (R293). -/
def Dev.arrayOk (d : Dev) (a n : Nat) : Bool := n = 0 || placed (fun c => d.coreSt c = 0) a n

/-- The binding that a descriptor and a program header make. -/
def Desc.binding (j : Desc) (h : List Byte) (pos : Nat) : Binding :=
  ⟨j.tensor, j.nfmt, j.num 28 5, j.num 33 5, j.num 38 5, j.num 44 4, j.num 48 4, j.num 52 2, j.num 54 2, leAt h 1 1,
    leAt h 4 4, pos, false⟩

/-- A program header keeps R294. -/
def updHdrOk (h : List Byte) : Bool :=
  leAt h 0 1 = 0x55 && leAt h 1 1 ≤ 4 && leAt h 2 2 = 0 && leAt h 4 4 % 64 = 0 && leAt h 4 4 + 256 ≤ midwaySize &&
    (slice h 8 24).all (· = 0)

/-- The padded count of a UPD_BIND. -/
def Desc.cp (j : Desc) : Nat := 256 * blocksOf (j.num 44 4)

/-- The checks of UPD_BIND before its program header is read. -/
def Dev.bindCheck (d : Dev) (j : Desc) : Option Ending :=
  if j.unbinds then
    firstFail [j.reserved [(24, 0, 24), (27, 0, 5), (28, 0, 40), (33, 0, 40), (38, 0, 40), (44, 0, 32), (48, 0, 32),
        (52, 0, 16), (54, 0, 16)],
      badIf ((bindOf d.effBinds j.tensor).isNone) 24, d.stateCheck [.ready, .running, .quiesced]]
  else
    firstFail [j.reserved [(24, 0, 24), (27, 0, 5), (28, 0, 40), (33, 0, 40), (38, 0, 40), (44, 0, 32), (48, 0, 32),
        (52, 0, 16), (54, 0, 12)],
      badIf (8 < j.nfmt) 27,
      badIf (j.num 28 5 % 64 != 0 || !d.arrayOk (j.num 28 5) (4 * j.cp)) 28,
      badIf (j.num 33 5 % 64 != 0) 33,
      badIf (j.num 38 5 % 64 != 0 || !d.arrayOk (j.num 38 5) (narrowSize j.nfmt j.cp)) 38,
      badIf (j.num 44 4 = 0 || 2 ^ 31 < j.num 44 4) 44,
      badIf (j.num 52 2 = 0) 52,
      badIf (midwaySize < j.num 48 4 + 32 + 4 * j.num 52 2) 48,
      d.stateCheck [.ready, .running, .quiesced]]

/-- A descriptor is staged, to take effect and complete at the end of the step (R295). -/
def Dev.stage (d : Dev) (x : Staged) : Dev := { d with upd := { d.upd with staged := d.upd.staged ++ [x] } }

/-- A binding that has its resources comes into force, or is staged. -/
def Dev.bindNow (d : Dev) (j : Desc) (b : Binding) : Dev :=
  if d.st = .running then d.stage (.bind j.key b) else (d.putBind b).finish j (Ending.plain .done)

/-- The checks of UPD_BIND that need the header, then its resources (R183 steps 5 and 6). -/
def Dev.bindHdr (d : Dev) (j : Desc) (h : List Byte) : Dev :=
  let b := j.binding h 0
  if !updHdrOk h then d.finish j (Ending.bad 48)
  else if !d.arrayOk (j.num 33 5) (4 * b.slots * j.cp) then d.finish j (Ending.bad 33)
  else
    let others := d.besides j.tensor
    match freezeRun others b.blocks with
    | none => d.finish j (Ending.plain .noResource)
    | some p =>
      if 4096 ≤ d.allBinds.length || !d.undoPlaced || d.fld Reg.UPD_UNDO_LEN.LEN < undoNeed (b :: others) then
        d.finish j (Ending.plain .noResource)
      else d.bindNow j { b with pos := p }

/-- A UPD_BIND that passes its first checks. -/
def Dev.startBind (d : Dev) (j : Desc) : Dev :=
  if j.unbinds then
    (if d.st = .running then d.stage (.unbind j.key j.tensor) else (d.unbind j.tensor).finish j (Ending.plain .done))
  else
    match d.readErr (midwayBase + j.num 48 4) 32 with
    | some (.poisoned a) => (d.memFault a 2).finish j ⟨.deviceFault, Detail.auxed d.flt.seq⟩
    | some _ => d.finish j (Ending.bad 48)
    | none => d.bindHdr j (d.read (midwayBase + j.num 48 4) 32)

/-- Room for one more staged descriptor, where one is needed (R295). -/
def Dev.stageRoom (d : Dev) : Bool := d.st != .running || d.upd.staged.length < 64

/-- UPD_BIND. DESIGN CHOICE (log entry 30). -/
def execUpdBind (r : Nat) (s : State) : Host.Outcome State Fault Refusal :=
  s.run (ringOk r) (s.dev.stageRoom && s.dev.descDue r (fun j => j.opc = 0x50 && !j.unbinds)) (fun d =>
    d.startDesc r Dev.bindCheck Dev.startBind)

/-- UPD_UNBIND. -/
def execUpdUnbind (r : Nat) (s : State) : Host.Outcome State Fault Refusal :=
  s.run (ringOk r) (s.dev.stageRoom && s.dev.descDue r (fun j => j.opc = 0x50 && j.unbinds)) (fun d =>
    d.startDesc r Dev.bindCheck Dev.startBind)

/-! ### UPD_FREEZE (R193, R304) -/

/-- FREEZE. -/
def Desc.freezes (j : Desc) : Bool := j.fb 27 0 1 = 1

/-- The checks of UPD_FREEZE. -/
def Dev.freezeCheck (d : Dev) (j : Desc) : Option Ending :=
  firstFail [j.reserved [(24, 0, 24), (27, 0, 1), (28, 0, 32), (32, 0, 32)],
    badIf ((bindOf d.effBinds j.tensor).isNone) 24,
    badIf ((bindOf d.effBinds j.tensor).any (fun b => b.blocks < j.num 28 4 + j.num 32 4)) 28,
    d.stateCheck [.ready, .running, .quiesced]]

/-- A UPD_FREEZE that passes its checks. -/
def Dev.startFreeze (d : Dev) (j : Desc) : Dev :=
  if d.st = .running then d.stage (.freeze j.key j.tensor (j.num 28 4) (j.num 32 4) j.freezes)
  else (d.freeze j.tensor (j.num 28 4) (j.num 32 4) j.freezes).finish j (Ending.plain .done)

/-- UPD_FREEZE. -/
def execUpdFreeze (r : Nat) (s : State) : Host.Outcome State Fault Refusal :=
  s.run (ringOk r) (s.dev.stageRoom && s.dev.descDue r (fun j => j.opc = 0x51 && j.freezes)) (fun d =>
    d.startDesc r Dev.freezeCheck Dev.startFreeze)

/-- UPD_THAW. -/
def execUpdThaw (r : Nat) (s : State) : Host.Outcome State Fault Refusal :=
  s.run (ringOk r) (s.dev.stageRoom && s.dev.descDue r (fun j => j.opc = 0x51 && !j.freezes)) (fun d =>
    d.startDesc r Dev.freezeCheck Dev.startFreeze)

/-! ### Blocks (R298, R310) -/

/-- The block that is dispatched next: of the lowest slot that has a ready one. -/
def Dev.nextDue (d : Dev) : Option (Coll × Nat) :=
  (List.range 16).findSome? (fun i =>
    (d.car.colls.find? (fun c => c.slot = some i)).bind (fun c => (d.dueBlock c false).map (fun e => (c, e.1))))

/-- An update core can hold one more block. -/
def Dev.updRoom (d : Dev) (k : Nat) : Bool :=
  d.updIn k && ((Tab.get none d.upd.running k).isNone || (Tab.get none d.upd.next k).isNone)

/-- BLOCK_DISPATCH: the next ready block goes to an update core. -/
def execBlockDispatch (k : Nat) (s : State) : Host.Outcome State Fault Refusal :=
  s.run (k < 64) (s.dev.up && s.dev.updRoom k && s.dev.nextDue.isSome) (fun d =>
    match d.nextDue with
    | some e => d.giveBlock k e.1 e.2
    | none => d)

/-- The block that an update core has run is written and handed on, and the core goes on with its next one. -/
def Dev.endBlock (d : Dev) (k : Nat) : Dev :=
  match Tab.get none d.upd.running k with
  | none => d
  | some j =>
    let x := Tab.get VecCtx.init d.vec (192 + k)
    let d := d.clearRun k
    let d := match d.coll? j.key with
      | none => d
      | some c =>
        match d.collBlock c j.block with
        | none => d
        | some (b, i) =>
          match d.rangeErr (b.ranges i) with
          | some e => d.blockErr c e
          | none => d.writeBlock c x b i j.block
    (d.nextBlock k).pumpColl j.key

/-- UPDATE_BLOCK_END: the program of an update core has ended, or an error of the core is found while it runs (R298, R310). -/
def execUpdateBlockEnd (k : Nat) (fault : Bool) (s : State) : Host.Outcome State Fault Refusal :=
  s.run (k < 64) (s.dev.up && (Tab.get none s.dev.upd.running k).isSome &&
      (fault || (Tab.get VecCtx.init s.dev.vec (192 + k)).ended)) (fun d =>
    if fault then d.updFault k else d.endBlock k)

/-! ### The end of a step (R303, R307 to R309) -/

/-- A copy in the update area: zeros, and what is not zero. -/
def Dev.putCopy (d : Dev) (a n : Nat) (cells : List Host.Cell) : Dev := cells.foldl (fun d c => d.write c.1 [c.2]) (d.zero a n)

/-- The cells of counters: 8 bytes a layer, UNF then OVF. -/
def counterCells (a : Nat) (unf ovf : Tab Nat) : List Host.Cell :=
  (unf.map (fun e => cellsAt (a + 8 * e.1) (leBytes 4 e.2))).flatten ++
    (ovf.map (fun e => cellsAt (a + 8 * e.1 + 4) (leBytes 4 e.2))).flatten

/-- The bytes of the freeze map that are not zero. -/
def frozenCells (a : Nat) (t : Tab Bool) : List Host.Cell :=
  (t.foldl (fun (m : Tab Nat) e => Tab.set 0 m (e.1 / 8) (Tab.get 0 m (e.1 / 8) ||| 2 ^ (e.1 % 8))) []).map
    (fun e => (a + e.1, BitVec.ofNat 8 e.2))

/-- The copies of R302 are refreshed. -/
def Dev.refreshCopies (d : Dev) : Dev :=
  let a := d.updArea
  let d := d.putCopy (a + 0x1000) 0x1000 (d.uLive.map (fun e => (a + 0x1000 + e.1, BitVec.ofNat 8 e.2)))
  let d := d.putCopy (a + 0x2000) 0x8000 (counterCells (a + 0x2000) d.uUnf d.uOvf)
  let d := d.putCopy (a + 0xA000) 0x8000 (counterCells (a + 0xA000) d.upd.cUnf d.upd.cOvf)
  d.putCopy (a + 0x800000) 0x800000 (frozenCells (a + 0x800000) d.upd.frozen)

/-- The staging table as the scheduler has written it. -/
def Dev.stagingTable (d : Dev) : Tab Nat :=
  (Tab.within d.mem d.updArea 4096).map (fun e => (e.1 - d.updArea, e.2.toNat))

/-- The staged descriptors take effect and complete, in start order (R295). -/
def Dev.applyStaged (d : Dev) : Dev :=
  let l := d.upd.staged
  l.foldl (fun d x =>
    match x with
    | .bind k b => (d.putBind b).finishKey k (Ending.plain .done)
    | .unbind k t => (d.unbind t).finishKey k (Ending.plain .done)
    | .freeze k t first n on => (d.freeze t first n on).finishKey k (Ending.plain .done))
    ({ d with upd := { d.upd with staged := [] } } : Dev)

/-- The records of the step are discarded. -/
def Dev.dropUndo (d : Dev) : Dev := ({ d with upd := { d.upd with undo := [] } } : Dev).setFld Reg.UPD_UNDO_USED.BYTES 0

/-- Steps 3 to 5 of a commit (R307). -/
def Dev.updCommit (d : Dev) : Dev :=
  let d := d.dropUndo
  let d : Dev := { d with
    uLive := d.stagingTable
    uUnf := []
    uOvf := []
    upd := { d.upd with cUnf := d.uUnf, cOvf := d.uOvf, phase := .idle } }
  (d.refreshCopies.applyStaged).bump Reg.UPD_STEPS.COMMITS 1

/-- A block that cannot be restored marks its binding DAMAGED, and so the step failed (R309, R361, record 0x09/0x01). -/
def Dev.damage (d : Dev) (r : UndoRec) : Dev :=
  let d : Dev := { d.markStep true with upd := { d.upd with
    binds := d.upd.binds.map (fun b => if b.tensor = r.tensor then { b with damaged := true } else b) } }
  ((d.countDamaged).bumpSat Reg.UPD_FAULTS.UNDO_ERR 1).record (.mk1 9 1 0xFF (leBytes 3 r.tensor ++ leBytes 4 r.block))

/-- One undo record is restored (R308 step 2). -/
def Dev.restore (d : Dev) (r : UndoRec) : Dev :=
  match d.bind? r.tensor with
  | none => d
  | some b =>
    let a := d.undoBase + r.off
    let owner := d.readLE a 1 % 4 = 1
    let n := (if owner then 1024 + 1024 * b.slots else 0) + b.backLen
    let rs := if owner then b.ranges r.block else b.narrowRanges r.block
    let l := d.read (a + 32) n
    if (d.readErr a (32 + n)).isSome || rs.any (fun x => (d.accErr x.1 x.2).isSome) || d.readLE (a + 16) 4 != n ||
        crc32c l != d.readLE (a + 20) 4 then d.damage r
    else if owner then
      let d := d.store (b.masterAt r.block) (l.take 1024)
      let d := (List.range b.slots).foldl (fun d j => d.store (b.stateAt j r.block) (slice l (1024 + 1024 * j) 1024)) d
      d.putNarrow b r.block (l.drop (1024 + 1024 * b.slots))
    else d.putNarrow b r.block l

/-- A rollback begins: blocks not yet writing are discarded, every record of the step is restored (R308 steps 1 and 2). -/
def Dev.updRestore (d : Dev) : Dev :=
  let d := (List.range 64).foldl Dev.clearRun d
  let d : Dev := { d with upd := { d.upd with next := [], phase := .rolling } }
  d.upd.undo.foldl Dev.restore d

/-- A rollback ends (R308 steps 3 and 4). -/
def Dev.updRollback (d : Dev) : Dev :=
  let d := d.dropUndo
  let d : Dev := { d with uUnf := [], uOvf := [], upd := { d.upd with phase := .idle } }
  (d.refreshCopies.applyStaged).bumpSat Reg.UPD_STEPS.ROLLBACKS 1

/-- Every block of the step has been written: no update core runs or holds one. -/
def Dev.blocksIdle (d : Dev) : Bool := d.upd.running.isEmpty && d.upd.next.isEmpty

end Sys2Proof.Machine
end

