-- ==== Sys2Proof/Machine/VecCmd.lean ====
section
/-! DEFINITION. Vector instructions executed, one command for each major opcode, on a core's vector unit (context L) or an update core (context 192 + c) (R116 to R136). -/

namespace Sys2Proof.Machine

/-- A vector context's number. -/
def ctxOk (x : Nat) : Bool := x < 256

/-- A vector context. -/
def Dev.ctx (d : Dev) (x : Nat) : VecCtx := Tab.get VecCtx.init d.vec x

/-- A vector context changed. -/
def Dev.setCtx (d : Dev) (x : Nat) (v : VecCtx) : Dev := { d with vec := Tab.set VecCtx.init d.vec x v }

/-- The context belongs to an update core. -/
def isUpd (x : Nat) : Bool := 192 ≤ x

/-- What a context is (R116). -/
def Dev.vecEnv (d : Dev) (x : Nat) : VecEnv :=
  ⟨if isUpd x then 64 else 256, isUpd x, if isUpd x then x - 192 else x, d.stp.cfg.step, d.fld Reg.ARR_SR_KEY.KEY⟩

/-- The address of the next instruction. -/
def VecCtx.fetchAt (v : VecCtx) : Nat := v.code + 4 * v.pc

/-- The next instruction (R121). -/
def Dev.vecWord (d : Dev) (x : Nat) : Nat := d.readLE (d.ctx x).fetchAt 4

/-- The instruction limit of R120. -/
def Dev.vecLimit (d : Dev) (x : Nat) : Nat :=
  2 ^ (if isUpd x then clampNat 12 24 (d.fld Reg.UPD_CFG.LIMIT_EXP) else clampNat 16 30 (d.fld Reg.ARR_VEC_CFG.LIMIT_EXP))

/-- Vector code runs in a context. -/
def Dev.vecRuns (d : Dev) (x : Nat) : Bool := d.up && (d.ctx x).run && (isUpd x || d.towerClock x)

/-- The limit has been reached by the instructions before this one. -/
def Dev.vecSpent (d : Dev) (x : Nat) : Bool := d.vecLimit x ≤ (d.ctx x).executed

/-- The next instruction of a context has an opcode and is this command's to execute: it is defined or cannot be fetched, and
a BAD_FIELD of its own comes before the limit (R136). DESIGN CHOICE and DEDUCED (log entry 21). -/
def Dev.vecDue (d : Dev) (x op : Nat) : Bool :=
  let w := d.vecWord x
  d.vecRuns x && vOp w = op && vecDefined w && (!d.vecSpent x || (vecStopOf (d.vecEnv x) (d.ctx x) w).isSome)

/-- A core's program stops on a vector instruction, or an update program does (R136, R310). -/
def Dev.vecStop (d : Dev) (x : Nat) (st : Status) (aux : Nat) : Dev :=
  let v := d.ctx x
  if isUpd x then d.blockStop (x - 192) st v.pc
  else (d.setCtx x VecCtx.init).stopOp x v.pos ⟨st, ⟨0, x, 0xFF, v.pos, v.pc, aux⟩⟩

/-- A BAD_FIELD stop, counted. -/
def Dev.vecRefuse (d : Dev) (x : Nat) (r : VecStop) : Dev :=
  if isUpd x then d.vecStop x .badField 0
  else
    let d := d.bumpSat Reg.ARR_VEC_STOPS.FIELD 1
    (if r = .misaligned || r = .range then d.bumpSat Reg.ARR_VEC_STOPS.RANGE 1 else d).vecStop x .badField 0

/-- An uncorrectable read of a vector unit: its record, then the stop with DEVICE_FAULT; an update core's collective is
poisoned. -/
def Dev.vecFault (d : Dev) (x a : Nat) : Dev :=
  if isUpd x then
    (match (Tab.get none d.upd.running (x - 192)).bind (fun j => d.coll? j.key) with
     | some c => ((d.clearRun (x - 192)).collFault c a).nextBlock (x - 192)
     | none => d.clearRun (x - 192))
  else ((d.bumpSat Reg.ARR_VEC_STOPS.FAULT 1).memFault a 0).vecStop x .deviceFault d.flt.seq

/-- The addresses that stored bytes have: an update core's stay offsets of its working memory. -/
def storeCells (x : Nat) (l : List (Nat × Byte)) : List Host.Cell := l.map (fun e => (sramAt x e.1, e.2))

/-- The first poisoned unit that stored bytes cover only in part. DESIGN CHOICE and DEDUCED (log entry 21). -/
def Dev.storePart (d : Dev) (l : List Host.Cell) : Option Nat :=
  (d.poison.find? (fun p =>
    l.any (fun c => p.1 ≤ c.1 && c.1 < p.1 + poisonUnit p.1) &&
      !(List.range (poisonUnit p.1)).all (fun i => l.any (fun c => c.1 = p.1 + i)))).map (·.1)

/-- Stored bytes are written. -/
def Dev.vecWrite (d : Dev) (l : List Host.Cell) : Dev :=
  { d with
    mem := Tab.setAll 0 d.mem l
    poison := d.poison.filter (fun p => !l.any (fun c => p.1 ≤ c.1 && c.1 < p.1 + poisonUnit p.1))
    satRows := d.satRows.filter (fun r => !l.any (fun c => r.1 ≤ c.1 && c.1 < r.1 + 256)) }

/-- Memory as a context's loads see it, by offset. -/
def Dev.vecLoad (d : Dev) (x : Nat) : Nat → Byte :=
  if isUpd x then fun o => Tab.get 0 (d.ctx x).mem o else fun o => d.peek (sramAt x o)

/-- The first poisoned unit that an instruction's loads meet. -/
def Dev.loadPoison (d : Dev) (x w : Nat) : Option Nat :=
  if isUpd x || vecStores w then none
  else (memSpans 256 (d.ctx x) w).findSome? (fun p => d.firstPoison (sramAt x p.1) p.2)

/-- What an instruction does is put into the device. -/
def Dev.vecApply (d : Dev) (x : Nat) (o : VecOut) : Dev :=
  let layer := (d.ctx x).cr 1 % 4096
  if isUpd x then
    (d.gradCount layer o.unf o.ovf).setCtx x { o.ctx with mem := Tab.setAll 0 o.ctx.mem o.stores }
  else
    match d.storePart (storeCells x o.stores) with
    | some a => d.vecFault x a
    | none =>
      ((((d.gradCount layer o.unf o.ovf).setCtx x o.ctx).vecWrite (storeCells x o.stores)).bump Reg.ARR_VEC_INSTR.COUNT 1).bump
        Reg.ARR_NONFINITE.COUNT o.nonfin

/-- One instruction of a context (R120, R136). DESIGN CHOICE and DEDUCED (log entry 21). -/
def Dev.vecExec (d : Dev) (x : Nat) (e : Ecc) : Dev :=
  let w := d.vecWord x
  match d.firstPoison (d.ctx x).fetchAt 4 with
  | some a => d.vecFault x a
  | none =>
    match vecStopOf (d.vecEnv x) (d.ctx x) w with
    | some r => d.vecRefuse x r
    | none =>
      let d := if isUpd x then d else d.meetEcc e
      match d.loadPoison x w with
      | some a => d.vecFault x a
      | none =>
        let o := vecStep (d.vecEnv x) (d.updExp ((d.ctx x).cr 1 % 4096)) (d.vecLoad x) (d.ctx x) w
        match o.stop with
        | some r => d.vecRefuse x r
        | none => d.vecApply x o

/-- No error found in SRAM. -/
def noEcc : Ecc := ⟨[], []⟩

/-- A vector command that reads no SRAM. -/
def State.vecCmd (s : State) (x op : Nat) : Host.Outcome State Fault Refusal :=
  s.run (ctxOk x) (s.dev.vecDue x op) (fun d => d.vecExec x noEcc)

/-- A vector command that loads. -/
def State.vecLoadCmd (s : State) (x op : Nat) (e : Ecc) : Host.Outcome State Fault Refusal :=
  s.run (ctxOk x) (s.dev.vecDue x op) (fun d => d.vecExec x e)

/-- HALT: the code ends (R122). -/
def execHalt (x : Nat) (s : State) : Host.Outcome State Fault Refusal := s.vecCmd x 0x00

/-- VFP: FP32 arithmetic (R125). -/
def execVfp (x : Nat) (s : State) : Host.Outcome State Fault Refusal := s.vecCmd x 0x01

/-- VINT: INT32 arithmetic and logic (R126). -/
def execVint (x : Nat) (s : State) : Host.Outcome State Fault Refusal := s.vecCmd x 0x02

/-- VCMP: comparison into a predicate (R127). -/
def execVcmp (x : Nat) (s : State) : Host.Outcome State Fault Refusal := s.vecCmd x 0x03

/-- VPERM: permutes and lane moves (R129). -/
def execVperm (x : Nat) (s : State) : Host.Outcome State Fault Refusal := s.vecCmd x 0x04

/-- VRED: reduction by the fixed tree (R130). -/
def execVred (x : Nat) (s : State) : Host.Outcome State Fault Refusal := s.vecCmd x 0x05

/-- VCVT: conversion by R72 (R131). -/
def execVcvt (x : Nat) (s : State) : Host.Outcome State Fault Refusal := s.vecCmd x 0x06

/-- VSCL: BSC, UNSCALE and BSTAT (R132). -/
def execVscl (x : Nat) (s : State) : Host.Outcome State Fault Refusal := s.vecCmd x 0x07

/-- VPRED: predicate logic (R128). -/
def execVpred (x : Nat) (s : State) : Host.Outcome State Fault Refusal := s.vecCmd x 0x08

/-- VLD: contiguous load (R133). -/
def execVld (x : Nat) (e : Ecc) (s : State) : Host.Outcome State Fault Refusal := s.vecLoadCmd x 0x10 e

/-- VLDS: strided load (R133). -/
def execVlds (x : Nat) (e : Ecc) (s : State) : Host.Outcome State Fault Refusal := s.vecLoadCmd x 0x11 e

/-- VLDX: indexed load (R133). -/
def execVldx (x : Nat) (e : Ecc) (s : State) : Host.Outcome State Fault Refusal := s.vecLoadCmd x 0x12 e

/-- VLDW: packed narrow load, widened (R133). -/
def execVldw (x : Nat) (e : Ecc) (s : State) : Host.Outcome State Fault Refusal := s.vecLoadCmd x 0x13 e

/-- VLDB: block byte load (R133). -/
def execVldb (x : Nat) (e : Ecc) (s : State) : Host.Outcome State Fault Refusal := s.vecLoadCmd x 0x14 e

/-- VST: contiguous store (R133). -/
def execVst (x : Nat) (s : State) : Host.Outcome State Fault Refusal := s.vecCmd x 0x18

/-- VSTS: strided store (R133). -/
def execVsts (x : Nat) (s : State) : Host.Outcome State Fault Refusal := s.vecCmd x 0x19

/-- VSTX: indexed store (R133). -/
def execVstx (x : Nat) (s : State) : Host.Outcome State Fault Refusal := s.vecCmd x 0x1A

/-- VSTN: packed narrow store (R133). -/
def execVstn (x : Nat) (s : State) : Host.Outcome State Fault Refusal := s.vecCmd x 0x1B

/-- VSTB: block byte store (R133). -/
def execVstb (x : Nat) (s : State) : Host.Outcome State Fault Refusal := s.vecCmd x 0x1C

/-- SALU: scalar arithmetic (R135). -/
def execSalu (x : Nat) (s : State) : Host.Outcome State Fault Refusal := s.vecCmd x 0x20

/-- SADDI (R135). -/
def execSaddi (x : Nat) (s : State) : Host.Outcome State Fault Refusal := s.vecCmd x 0x21

/-- SLUI (R135). -/
def execSlui (x : Nat) (s : State) : Host.Outcome State Fault Refusal := s.vecCmd x 0x22

/-- SORI (R135). -/
def execSori (x : Nat) (s : State) : Host.Outcome State Fault Refusal := s.vecCmd x 0x23

/-- SLD: scalar load (R135). -/
def execSld (x : Nat) (e : Ecc) (s : State) : Host.Outcome State Fault Refusal := s.vecLoadCmd x 0x24 e

/-- SST: scalar store (R135). -/
def execSst (x : Nat) (s : State) : Host.Outcome State Fault Refusal := s.vecCmd x 0x25

/-- MTC (R135). -/
def execMtc (x : Nat) (s : State) : Host.Outcome State Fault Refusal := s.vecCmd x 0x26

/-- MFC (R135). -/
def execMfc (x : Nat) (s : State) : Host.Outcome State Fault Refusal := s.vecCmd x 0x27

/-- BEQ (R135). -/
def execBeq (x : Nat) (s : State) : Host.Outcome State Fault Refusal := s.vecCmd x 0x30

/-- BNE (R135). -/
def execBne (x : Nat) (s : State) : Host.Outcome State Fault Refusal := s.vecCmd x 0x31

/-- BLT: signed (R135). -/
def execBlt (x : Nat) (s : State) : Host.Outcome State Fault Refusal := s.vecCmd x 0x32

/-- BLTU: unsigned (R135). -/
def execBltu (x : Nat) (s : State) : Host.Outcome State Fault Refusal := s.vecCmd x 0x33

/-- JMP (R135). -/
def execJmp (x : Nat) (s : State) : Host.Outcome State Fault Refusal := s.vecCmd x 0x34

/-- VEC_UNDEFINED: an undefined opcode or FN stops the program with BAD_FIELD (R136). -/
def execVecUndefined (x : Nat) (s : State) : Host.Outcome State Fault Refusal :=
  s.run (ctxOk x) (s.dev.vecRuns x && !vecDefined (s.dev.vecWord x)) (fun d => d.vecExec x noEcc)

/-- VEC_LIMIT_EXCEEDED: one more instruction than the limit would execute, so the program stops with TIMEOUT (R120, R136). -/
def execVecLimitExceeded (x : Nat) (s : State) : Host.Outcome State Fault Refusal :=
  s.run (ctxOk x)
    (s.dev.vecRuns x && s.dev.vecSpent x && (vecStopOf (s.dev.vecEnv x) (s.dev.ctx x) (s.dev.vecWord x)).isNone) (fun d =>
    (if isUpd x then d else d.bumpSat Reg.ARR_VEC_STOPS.LIMIT 1).vecStop x .timeout 0)

end Sys2Proof.Machine
end

