-- ==== Sys2Proof/Machine/Mfb.lean ====
section
/-! DEFINITION. The memory fabric: MFAB descriptors and core request rings, the home agent, the source's responses and timers (R313 to R332). -/

namespace Sys2Proof.Machine

/-! ### How an operation ends (R317, R319, R320) -/

/-- Entries of a core request ring. -/
def Dev.coreRingSize (d : Dev) (r : Nat) : Nat := 2 ^ clampNat 4 12 (d.fld (Reg.MFB_RING_CFG.LOG2_SIZE r))

/-- The phase bit of a core ring's record. -/
def Dev.corePhase (d : Dev) (r i : Nat) : Nat := 1 - i / d.coreRingSize r % 2

/-- The record of a core-ring descriptor is written at its entry, after its signal (R317). -/
def Dev.coreRecord (d : Dev) (j : Desc) (e : Ending) : Dev :=
  let d := d.signal j e.st
  let b := d.cplBytes j e
  let b := b.take 1 ++ leBytes 1 (leAt b 1 1 + 128 * d.corePhase j.ring j.sub) ++ b.drop 2
  let a := d.coreRingBase j.ring + 64 * d.coreRingSize j.ring + 32 * (j.sub % d.coreRingSize j.ring)
  let d : Dev := { d with mfb := { d.mfb with descs := d.mfb.descs.filter (fun x => !(x.ring = j.ring && x.index = j.sub)) } }
  d.store a b

/-- A descriptor ends, of a host ring or of a core request ring. -/
def Dev.endDesc (d : Dev) (org : MfbOrigin) (j : Desc) (e : Ending) : Dev :=
  match org with
  | .coreRing _ _ => d.coreRecord j e
  | _ => d.finish j e

/-- The descriptor of an operation in flight. -/
def Dev.descOf (d : Dev) (org : MfbOrigin) : Option Desc :=
  match org with
  | .desc r i => d.desc? (r, i)
  | .coreRing r i => (d.mfb.descs.find? (fun x => x.ring = r && x.index = i)).map (fun x => ⟨r, i, x.bytes, 0⟩)
  | _ => none

/-- The issuer of an operation gets its outcome: a descriptor its record, an XFER a stop of its program; a mirror write that
fails breaks the mirror (R162). -/
def Dev.tellIssuer (d : Dev) (org : MfbOrigin) (e : Ending) : Dev :=
  match org with
  | .xfer c pos => if e.st.good then d else d.stopOp c pos (Ending.at e.st c pos e.det.aux)
  | .mirror _ => if e.st.good then d else d.buddyLost
  | _ =>
    match d.descOf org with
    | some j => d.endDesc org j e
    | none => d

/-- What MFB_SOURCE counts of an outcome, and the sighting that PEER_LOST and INDETERMINATE are (R329, R384). -/
def Dev.countEnd (d : Dev) (e : Ending) : Dev :=
  match e.st with
  | .indeterminate => (d.bumpSat Reg.MFB_SOURCE.INDETERMINATE 1).sight e.det.aux 4 0xFF
  | .timeout => d.bumpSat Reg.MFB_SOURCE.TIMEOUT 1
  | .peerLost => d.sight e.det.aux 4 0xFF
  | _ => d

/-- An operation in flight ends with an outcome; its windows have room again. A notify packet reports no outcome. -/
def Dev.opEnd (d : Dev) (o : MfbOp) (e : Ending) : Dev :=
  if o.origin = .notify then (d.dropOp o.id).pumpOp o
  else (((((d.dropOp o.id).bump Reg.MFB_OPS.COUNT 1).countEnd e).tellIssuer o.origin e).pumpOp o)

/-- An operation ends after its last acknowledgement: its notify packets go first (R320). -/
def Dev.notifyEnd (d : Dev) (o : MfbOp) (e : Ending) : Dev := ((d.dropOp o.id).sendNotify o).opEnd o e

/-- Every packet of an operation is answered: it completes, an XFER at its own event. -/
def Dev.opGood (d : Dev) (o : MfbOp) : Dev :=
  match o.origin with
  | .xfer _ _ => d.pumpOp o
  | _ => d.notifyEnd o (Ending.plain .done)

/-- The outcome of an error status (R319). -/
def errEnding (status home seq : Nat) : Ending :=
  if status = 1 then Ending.bad 28
  else if status = 2 then Ending.bad 26
  else if status = 3 then Ending.plain .stateLost
  else if status = 4 then ⟨.deviceFault, Detail.auxed seq⟩
  else if status = 5 then ⟨.indeterminate, Detail.auxed home⟩
  else Ending.plain .badField

/-- An operation that a home has refused ends; an uncorrectable read there is recorded with the home as its subject.
DESIGN CHOICE (log entry 31). -/
def Dev.opRefused (d : Dev) (o : MfbOp) (home da status : Nat) : Dev :=
  let seq := d.flt.seq
  let d := if status = 4 then d.record { memRecord da 2 with subject := some home } else d
  if o.mop = 4 then d.notifyEnd o (errEnding status home seq) else d.opEnd o (errEnding status home seq)

/-! ### MFAB descriptors (R192, R318) -/

/-- MOP. -/
def Desc.mop (j : Desc) : Nat := j.num 24 1
/-- REMOTE. -/
def Desc.remote (j : Desc) : Nat := j.num 28 5
/-- LEN. -/
def Desc.len (j : Desc) : Nat := j.num 36 4

/-- A MOP of R318. -/
def mopKnown (m : Nat) : Bool := (1 ≤ m && m ≤ 6) || mopAtomic m || mopReduce m

/-- NOTIFY applies to PUT, PUT_LINE and the reductions. -/
def mopNotifies (m : Nat) : Bool := m = 3 || m = 4 || mopReduce m

/-- The operation moves data between LOCAL and REMOTE. -/
def mopData (m : Nat) : Bool := m != 5 && m != 6

/-- LEN is one that the operation takes. -/
def mopLenOk (m n : Nat) : Bool :=
  if m = 5 then true else if m = 6 then n = 0 else if m = 0x11 then n = 4 else if mopAtomic m then n = 4 || n = 8 else n % 4 = 0

/-- The checks of an MFAB. -/
def Dev.mfabCheck (d : Dev) (j : Desc) : Option Ending :=
  let m := j.mop
  let writes := mopGet m || mopAtomic m
  firstFail [
    j.reserved [(24, 0, 8), (25, 0, 1), (26, 0, 16), (28, 0, 40), (34, 0, 16), (36, 0, 32), (40, 0, 64), (48, 0, 64), (56, 0, 64)],
    badIf (!mopKnown m) 24,
    badIf (j.fb 25 0 1 = 1 && !mopNotifies m) 25,
    badIf (if m = 4 then 3 ≤ j.num 26 2 else m != 6 && d.noRoute (j.num 26 2)) 26,
    badIf (m != 5 && j.remote % (if mopAtomic m && mopLenOk m j.len then j.len else 4) != 0) 28,
    badIf (!mopLenOk m j.len) 36,
    if mopData m then d.refCheck j 40 (!writes) writes else none,
    badIf (mopData m && d.refAddr (j.refIdx 40) (j.refOff 40) % 4 != 0) 40,
    d.stateCheck [.ready, .running, .quiesced],
    if mopData m then d.lenCheck j 40 j.len else none]

/-- The counter that a notification names. -/
def Desc.notify (j : Desc) : Option Nat := if j.fb 25 0 1 = 1 then some (j.num 34 2) else none

/-- The bytes of LOCAL: an error of device memory ends the descriptor with its status, a host error with BAD_FIELD.
DESIGN CHOICE (log entry 31). -/
def Dev.withLocal (d : Dev) (org : MfbOrigin) (j : Desc) (go : Dev → List Byte → Dev) : Dev :=
  let i := j.refIdx 40
  let a := d.refAddr i (j.refOff 40)
  if d.refDev i then
    (match d.readErr a j.len with
     | some (.poisoned x) => (d.memFault x 2).endDesc org j ⟨.deviceFault, Detail.auxed d.flt.seq⟩
     | some (.lostCore c) => d.endDesc org j (Ending.lost c)
     | some .unpopulated => d.endDesc org j (Ending.bad 40)
     | none => go d (d.read a j.len))
  else if d.hostErrIn a j.len then d.endDesc org j (Ending.bad 40)
  else go d (d.hostRead a j.len)

/-- LOCAL can be written. -/
def Dev.localErr (d : Dev) (j : Desc) (n : Nat) : Option Ending :=
  let i := j.refIdx 40
  if d.refDev i then
    (match d.accErr (d.refAddr i (j.refOff 40)) n with
     | some (.lostCore c) => some (Ending.lost c)
     | some _ => some (Ending.bad 40)
     | none => none)
  else none

/-- LOCAL as an operation keeps it. -/
def Dev.localOf (d : Dev) (j : Desc) : Bool × Nat := (d.refDev (j.refIdx 40), d.refAddr (j.refIdx 40) (j.refOff 40))

/-- Bytes are written at LOCAL. -/
def Dev.putLocal (d : Dev) (o : MfbOp) (a : Nat) (l : List Byte) : Dev :=
  if o.localDev then d.store (o.localAddr + a) l else d.hostWrite (o.localAddr + a) l

/-! #### GET and GET_CACHED (R318, R325) -/

/-- The lines of 64 bytes that a range meets. -/
def linesOf (a n : Nat) : List Nat := if n = 0 then [] else (List.range ((a + n - 1) / 64 - a / 64 + 1)).map (fun i => a / 64 + i)

/-- The part of a line's bytes that an operation asks for is written at LOCAL. -/
def Dev.putLine (d : Dev) (o : MfbOp) (line : Nat) (l : List Byte) : Dev :=
  let lo := max (64 * line) o.remote
  let hi := min (64 * line + 64) (o.remote + o.len)
  if lo < hi then d.putLocal o (lo - o.remote) (slice l (lo - 64 * line) (hi - lo)) else d

/-- An operation of a descriptor, its packets given. -/
def Dev.opOfDesc (d : Dev) (org : MfbOrigin) (j : Desc) (mop : Nat) (pkts : List MfbPkt) : MfbOp :=
  ⟨0, mop, org, j.num 26 2, d.mfb.nextTag, j.remote, j.len, (d.localOf j).1, (d.localOf j).2, j.notify, pkts, d.now, d.clk, 0,
    j.num 48 8, j.num 56 8, []⟩

/-- A GET_CACHED: hits are written at once, each missed line is asked for whole (R325). -/
def Dev.startCached (d : Dev) (org : MfbOrigin) (j : Desc) : Dev :=
  let home := j.num 26 2
  let lines := linesOf j.remote j.len
  let miss := lines.filter (fun l => (d.rlcFind home l).isNone)
  let o := d.opOfDesc org j 2 (miss.map (fun l => freshPkt (64 * l) 64 []))
  let d := lines.foldl (fun d l =>
    match d.rlcFind home l with
    | some b => ((d.putLine o l b).rlcPut ⟨home, l, b⟩).bumpSat Reg.MFB_RLC_STATS.HITS 1
    | none => d) d
  if miss.isEmpty then (d.bump Reg.MFB_OPS.COUNT 1).endDesc org j (Ending.plain .done) else d.takeTag.startOp o

/-- A GET. -/
def Dev.startGet (d : Dev) (org : MfbOrigin) (j : Desc) : Dev :=
  match d.localErr j j.len with
  | some e => d.endDesc org j e
  | none =>
    if j.mop = 2 && d.on Reg.MFB_RLC.ENABLE then d.startCached org j
    else d.takeTag.startOp (d.opOfDesc org j 1 (opPkts 1 j.remote [] j.len))

/-! #### Atomics (R327) -/

/-- A sequence number may be issued: it has not been, or is free again. -/
def Dev.seqFree (d : Dev) (n : Nat) : Bool := Tab.get 0 d.mfb.seqTime n = 0

/-- 20 ms have passed since a sequence number's last first send. -/
def Dev.seqOver (d : Dev) (n : Nat) : Bool := !d.seqFree n && Tab.get 0 d.mfb.seqTime n - 1 + ms 20 ≤ d.clk

/-- A descriptor is an atomic that would be issued, and its sequence number is not free: it waits to start (R327). -/
def Dev.seqWaits (d : Dev) (j : Desc) : Bool :=
  j.opc = 0x40 && mopAtomic j.mop && !d.seqFree d.mfb.seq && (d.mfabCheck j).isNone && !d.peerGone (j.num 26 2) &&
    (d.localErr j j.len).isNone

/-- The next sequence number is taken. -/
def Dev.takeSeq (d : Dev) : Dev := { d with mfb := { d.mfb with seq := (d.mfb.seq + 1) % 65536 } }

/-- An atomic starts, with the next sequence number. -/
def Dev.startAtomic (d : Dev) (org : MfbOrigin) (j : Desc) : Dev :=
  match d.localErr j j.len with
  | some e => d.endDesc org j e
  | none =>
    d.takeSeq.startOp { d.opOfDesc org j j.mop [freshPkt j.remote j.len []] with tag := d.mfb.seq }

/-- An MFAB that passes its checks runs. -/
def Dev.mfabGo (d : Dev) (org : MfbOrigin) (j : Desc) : Dev :=
  let home := j.num 26 2
  let done := fun (d : Dev) => (d.bump Reg.MFB_OPS.COUNT 1).endDesc org j (Ending.plain .done)
  if j.mop = 5 then done (d.rlcDropRange home j.remote j.len)
  else if j.mop = 6 then done d.rlcDropAll
  else if j.len = 0 then done d
  else if j.mop = 4 then
    if (d.lineMembers home).isEmpty then done d
    else d.withLocal org j (fun d l => d.takeTag.startOp (d.opOfDesc org j 4 (opPkts 4 j.remote l j.len)))
  else if d.peerGone home then
    ((d.bump Reg.MFB_OPS.COUNT 1).sight home 4 0xFF).endDesc org j ⟨.peerLost, Detail.auxed home⟩
  else if mopGet j.mop then d.startGet org j
  else if mopAtomic j.mop then d.startAtomic org j
  else d.withLocal org j (fun d l => d.takeTag.startOp (d.opOfDesc org j j.mop (opPkts j.mop j.remote l j.len)))

/-- The head of a ring is an MFAB with a MOP. -/
def Dev.mfabDue (d : Dev) (r : Nat) (p : Nat → Bool) : Bool :=
  d.descDue r (fun j => j.opc = 0x40 && p j.mop && !d.seqWaits j)

/-- An MFAB of a host ring starts. DESIGN CHOICE (log entry 31). -/
def Dev.startMfab (d : Dev) (r : Nat) : Dev :=
  d.startDesc r Dev.mfabCheck (fun d j => d.mfabGo (.desc j.ring j.sub) j)

/-- GET; a MOP of no operation is refused here (R318). DESIGN CHOICE (log entry 16). -/
def execGet (r : Nat) (s : State) : Host.Outcome State Fault Refusal :=
  s.run (ringOk r) (s.dev.mfabDue r (fun m => m = 1 || !mopKnown m)) (fun d => d.startMfab r)

/-- GET_CACHED (R318). -/
def execGetCached (r : Nat) (s : State) : Host.Outcome State Fault Refusal :=
  s.run (ringOk r) (s.dev.mfabDue r (· = 2)) (fun d => d.startMfab r)

/-- PUT (R318). -/
def execPut (r : Nat) (s : State) : Host.Outcome State Fault Refusal :=
  s.run (ringOk r) (s.dev.mfabDue r (· = 3)) (fun d => d.startMfab r)

/-- PUT_LINE (R318). -/
def execPutLine (r : Nat) (s : State) : Host.Outcome State Fault Refusal :=
  s.run (ringOk r) (s.dev.mfabDue r (· = 4)) (fun d => d.startMfab r)

/-- INVALIDATE (R318). -/
def execInvalidate (r : Nat) (s : State) : Host.Outcome State Fault Refusal :=
  s.run (ringOk r) (s.dev.mfabDue r (· = 5)) (fun d => d.startMfab r)

/-- INVALIDATE_ALL (R318). -/
def execInvalidateAll (r : Nat) (s : State) : Host.Outcome State Fault Refusal :=
  s.run (ringOk r) (s.dev.mfabDue r (· = 6)) (fun d => d.startMfab r)

/-- A_IADD (R318). -/
def execAIadd (r : Nat) (s : State) : Host.Outcome State Fault Refusal :=
  s.run (ringOk r) (s.dev.mfabDue r (· = 0x10)) (fun d => d.startMfab r)

/-- A_FADD (R318). -/
def execAFadd (r : Nat) (s : State) : Host.Outcome State Fault Refusal :=
  s.run (ringOk r) (s.dev.mfabDue r (· = 0x11)) (fun d => d.startMfab r)

/-- A_SWAP (R318). -/
def execASwap (r : Nat) (s : State) : Host.Outcome State Fault Refusal :=
  s.run (ringOk r) (s.dev.mfabDue r (· = 0x12)) (fun d => d.startMfab r)

/-- A_CAS (R318). -/
def execACas (r : Nat) (s : State) : Host.Outcome State Fault Refusal :=
  s.run (ringOk r) (s.dev.mfabDue r (· = 0x13)) (fun d => d.startMfab r)

/-- A_UMAX (R318). -/
def execAUmax (r : Nat) (s : State) : Host.Outcome State Fault Refusal :=
  s.run (ringOk r) (s.dev.mfabDue r (· = 0x14)) (fun d => d.startMfab r)

/-- A_UMIN (R318). -/
def execAUmin (r : Nat) (s : State) : Host.Outcome State Fault Refusal :=
  s.run (ringOk r) (s.dev.mfabDue r (· = 0x15)) (fun d => d.startMfab r)

/-- A_OR (R318). -/
def execAOr (r : Nat) (s : State) : Host.Outcome State Fault Refusal :=
  s.run (ringOk r) (s.dev.mfabDue r (· = 0x16)) (fun d => d.startMfab r)

/-- A_AND (R318). -/
def execAAnd (r : Nat) (s : State) : Host.Outcome State Fault Refusal :=
  s.run (ringOk r) (s.dev.mfabDue r (· = 0x17)) (fun d => d.startMfab r)

/-- R_FADD (R318). -/
def execRFadd (r : Nat) (s : State) : Host.Outcome State Fault Refusal :=
  s.run (ringOk r) (s.dev.mfabDue r (· = 0x20)) (fun d => d.startMfab r)

/-- R_IADD (R318). -/
def execRIadd (r : Nat) (s : State) : Host.Outcome State Fault Refusal :=
  s.run (ringOk r) (s.dev.mfabDue r (· = 0x21)) (fun d => d.startMfab r)

/-- R_FMAX (R318). -/
def execRFmax (r : Nat) (s : State) : Host.Outcome State Fault Refusal :=
  s.run (ringOk r) (s.dev.mfabDue r (· = 0x22)) (fun d => d.startMfab r)

/-- R_FMIN (R318). -/
def execRFmin (r : Nat) (s : State) : Host.Outcome State Fault Refusal :=
  s.run (ringOk r) (s.dev.mfabDue r (· = 0x23)) (fun d => d.startMfab r)

/-! ### Core request rings (R317) -/

/-- The address of a core ring's descriptor. -/
def Dev.coreDescAt (d : Dev) (r i : Nat) : Nat := d.coreRingBase r + 64 * (i % d.coreRingSize r)

/-- The next descriptor of a core request ring. -/
def Dev.nextCoreDesc (d : Dev) (r : Nat) : Desc :=
  let i := d.fld (Reg.MFB_RING_POS.STARTED r)
  ⟨r, i, d.read (d.coreDescAt r i) 64, d.clk⟩

/-- A core ring's next descriptor heads its ring and could start: it is placed, its entry's last record is written, and the
limits of R182 leave room. -/
def Dev.coreHead (d : Dev) (r : Nat) : Bool :=
  let i := d.fld (Reg.MFB_RING_POS.STARTED r)
  let mine := d.mfb.descs.filter (fun x => x.ring = r)
  d.up && d.locked && d.on (Reg.MFB_RING_CFG.ENABLE r) && d.corePlaced r && mine.length < 64 && d.inFlight < 1024 &&
    mine.all (fun x => (i + 2 ^ 32 - x.index) % 2 ^ 32 < d.coreRingSize r)

/-- A core ring's next descriptor starts: its waits are met, and R197 and R327 let it. -/
def Dev.coreDue (d : Dev) (r : Nat) : Bool :=
  d.coreHead r && d.waitsMet (d.nextCoreDesc r) && !d.seqWaits (d.nextCoreDesc r) && !d.serialRuns && !(List.range 16).any (fun q => (d.head? q).any (fun x => d.serial x && d.waitsMet x))

/-- The opcodes of R181, as a core ring sees them: only NOP and MFAB are accepted. -/
def Dev.coreCheck (d : Dev) (j : Desc) : Option Ending :=
  if !opcDefined j.opc then some (Ending.plain .badOpcode)
  else if j.opc = 1 then j.reserved []
  else if j.opc != 0x40 then some (Ending.bad 0)
  else d.mfabCheck j

/-- A core-ring descriptor leaves the head of its ring. -/
def Dev.popCore (d : Dev) (r : Nat) : Dev :=
  let j := d.nextCoreDesc r
  let d := d.bump (Reg.MFB_RING_POS.STARTED r) 1
  { d with mfb := { d.mfb with
      descs := d.mfb.descs ++ [⟨r, j.sub, j.bytes⟩], ringSince := Tab.set 0 d.mfb.ringSince r d.clk } }

/-- A core-ring descriptor starts. -/
def Dev.startCore (d : Dev) (r : Nat) : Dev :=
  let j := d.nextCoreDesc r
  let bad := d.firstPoison (d.coreDescAt r j.sub) 64
  let d := d.popCore r
  match bad with
  | some a => (d.memFault a 2).coreRecord j ⟨.deviceFault, Detail.auxed d.flt.seq⟩
  | none =>
    match d.coreCheck j with
    | some e => d.coreRecord j e
    | none => if j.opc = 1 then d.coreRecord j (Ending.plain .done) else d.mfabGo (.coreRing r j.sub) j

/-- CORE_RING_START: the next descriptor of a core request ring starts (R317). -/
def execCoreRingStart (r : Nat) (s : State) : Host.Outcome State Fault Refusal :=
  s.run (ringOk r) (s.dev.coreDue r) (fun d => d.startCore r)

/-- The next descriptor of a core ring has waited for its events as long as HQ_WAIT_LIMIT allows (R198). -/
def Dev.coreWaitOver (d : Dev) (r : Nat) : Bool :=
  d.coreHead r && !d.waitsMet (d.nextCoreDesc r) && d.fld Reg.HQ_WAIT_LIMIT.MS != 0 &&
    ms (d.fld Reg.HQ_WAIT_LIMIT.MS) ≤ d.clk - Tab.get 0 d.mfb.ringSince r

/-- DESC_WAIT_TIMEOUT: the head of a host ring, or of a core request ring, completes with TIMEOUT (R198, R317). -/
def execDescWaitTimeout (r : Nat) (core : Bool) (s : State) : Host.Outcome State Fault Refusal :=
  s.run (ringOk r)
    (if core then s.dev.coreWaitOver r else s.dev.up && s.dev.ringOn r && s.dev.startRoom r && s.dev.waitOver r) (fun d =>
    if core then (d.popCore r).coreRecord (d.nextCoreDesc r) (d.waitEnding (d.nextCoreDesc r))
    else match d.head? r with
      | some j => (d.popHead r).finish j (d.waitEnding j)
      | none => d)

/-! ### The home agent (R315, R319, R324, R327, R328, R330) -/

/-- The ranges of Midway SRAM that are protected at the home. -/
def Dev.protectedAt (d : Dev) (a n : Nat) : Bool :=
  overlaps a n (midwayBase + 0x2000000 * d.fld Reg.CAR_STAGE_BASE.BASE) 0x2000000 ||
    overlaps a n (midwayBase + 0x1000000 * d.fld Reg.UPD_AREA.BASE) 0x1000000 ||
    overlaps a n (midwayBase + 0x4000000 * d.fld Reg.MFB_RLC.BASE) 0x4000000

/-- The status of a request for [a, a + n) at the home (R315): 0 OK, 1 ADDRESS, 3 LOST_CORE.
DESIGN CHOICE (log entry 32). -/
def Dev.homeAddr (d : Dev) (a n : Nat) : Nat :=
  if !memRange a n || d.protectedAt a n then 1
  else if (coresOf a n).any d.coreGone then 3
  else if 0xE000000000 ≤ a && (coresOf a n).any (fun c => d.coreSt c != 0) then 1
  else 0

/-- A request's source may use this home (R315). -/
def Dev.homeAdmits (d : Dev) (src : Nat) : Bool := d.on (Reg.FAB_ROUTE.JOB src) || d.kind src = 3

/-- Bytes that a request packet reads or writes. -/
def reqLen (p : Packet) : Nat :=
  if p.op = 1 then leAt p.payload 0 4
  else if p.op = 3 then leAt p.payload 1 1
  else if p.op = 4 then p.payload.length - 4
  else p.payload.length

/-- A request packet is malformed: a length or an address that no source sends (R319). -/
def reqMalformed (p : Packet) : Bool :=
  let n := reqLen p
  if p.op = 3 then
    p.payload.length != 32 || !mopAtomic (leAt p.payload 0 1) || !mopLenOk (leAt p.payload 0 1) n || n = 0 || p.da % max 1 n != 0
  else
    n = 0 || 4096 < p.da % 4096 + n || (p.op = 1 && p.payload.length != 4) ||
      (p.op = 4 && (!mopReduce (leAt p.payload 0 1) || n % 4 != 0 || p.da % 4 != 0))

/-- The status of a request packet: ACCESS, MALFORMED, then the address rules. -/
def Dev.homeStatus (d : Dev) (p : Packet) : Nat :=
  if !d.homeAdmits p.src then 2 else if reqMalformed p then 6 else d.homeAddr p.da (reqLen p)

/-- What MFB_ERRORS counts of a status. -/
def Dev.countStatus (d : Dev) (st : Nat) : Dev :=
  if st = 1 then d.bumpSat Reg.MFB_ERRORS.ADDRESS 1
  else if st = 2 then d.bumpSat Reg.MFB_ERRORS.ACCESS 1
  else if st = 3 then d.bumpSat Reg.MFB_ERRORS.LOST_CORE 1
  else if st = 4 then d.bumpSat Reg.MFB_ERRORS.UNCORRECTABLE 1
  else d

/-- A response to a request packet: class C1, to its source, with its tag and address. DESIGN CHOICE (log entry 32). -/
def Dev.respond (d : Dev) (p : Packet) (op : Nat) (l : List Byte) : Dev := d.send (d.mkPkt 1 true op p.src p.da p.tag l)

/-- An acknowledgement with a status. -/
def Dev.respondAck (d : Dev) (p : Packet) (st : Nat) : Dev := (d.countStatus st).respond p 2 (leBytes 1 st)

/-- An atomic's answer: status, DUP, old value. -/
def Dev.respondAtomic (d : Dev) (p : Packet) (st dup old : Nat) : Dev :=
  (d.countStatus st).respond p 3 (leBytes 1 st ++ leBytes 1 dup ++ zeros 6 ++ leBytes 8 old)

/-- A reading request's status: an uncorrectable read after the address rules. -/
def Dev.readStatus (d : Dev) (p : Packet) : Nat :=
  let st := d.homeStatus p
  if st = 0 && (d.firstPoison p.da (reqLen p)).isSome then 4 else st

/-- A failed read at the home writes its record. -/
def Dev.homeFault (d : Dev) (p : Packet) (st : Nat) : Dev :=
  match (if st = 4 then d.firstPoison p.da (reqLen p) else none) with
  | some a => d.memFault a 2
  | none => d

/-- The value that an atomic writes (R318). -/
def atomicNew (m size old x cmp : Nat) : Nat :=
  let w := 2 ^ (8 * size)
  let a := old % w
  let b := x % w
  if m = 0x10 then (a + b) % w
  else if m = 0x11 then fpAdd canonNaN a b
  else if m = 0x12 then b
  else if m = 0x13 then (if a = cmp % w then b else a)
  else if m = 0x14 then max a b
  else if m = 0x15 then min a b
  else if m = 0x16 then a ||| b
  else a &&& b

/-- Atomics of ages below 10 ms fill the table. -/
def Dev.tableFull (d : Dev) : Bool :=
  65536 ≤ d.mfb.table.length && d.mfb.table.head?.any (fun e => d.now < e.time + ms 10)

/-- The result table with an entry more: an aged oldest entry makes room (R328). -/
def Dev.tablePut (d : Dev) (e : MfbResult) : Dev :=
  { d with mfb := { d.mfb with table := (if 65536 ≤ d.mfb.table.length then d.mfb.table.drop 1 else d.mfb.table) ++ [e] } }

/-- An atomic that the table admits: STALE, then DUP, then the address rules, then it is applied (R315, R328). -/
def Dev.doAtomic (d : Dev) (p : Packet) : Dev :=
  let issued := leAt p.payload 24 8
  let size := leAt p.payload 1 1
  if !d.homeAdmits p.src then d.respondAtomic p 2 0 0
  else if reqMalformed p then d.respondAtomic p 6 0 0
  else if issued + ms 10 ≤ d.now || issued < d.mfb.since then
    (d.bumpSat Reg.MFB_ATOMICS.STALE 1).respondAtomic p 5 0 0
  else match d.mfb.table.find? (fun e => e.src = p.src && e.tag = p.tag) with
    | some e => (d.bumpSat Reg.MFB_ATOMICS.DUPLICATES 1).respondAtomic p 0 1 e.old
    | none =>
      let st := d.readStatus p
      if st != 0 then (d.homeFault p st).respondAtomic p st 0 0
      else
      let old := d.readLE p.da size
      let d := d.store p.da (leBytes size (atomicNew (leAt p.payload 0 1) size old (leAt p.payload 8 8) (leAt p.payload 16 8)))
      ((d.bump Reg.MFB_ATOMICS.APPLIED 1).tablePut ⟨p.src, p.tag, old, d.now⟩).respondAtomic p 0 0 old

/-- One element of a reduction. -/
def reduceOne (m a b : Nat) : Nat :=
  if m = 0x20 then fpAdd canonNaN a b else if m = 0x21 then (a + b) % 2 ^ 32 else if m = 0x22 then (fMax a b).1 else (fMin a b).1

/-- The elements of a reduction packet are applied in ascending address order (R324). -/
def Dev.doReduce (d : Dev) (p : Packet) : Dev :=
  let m := leAt p.payload 0 1
  let n := reqLen p / 4
  let new := (List.range n).map (fun i => reduceOne m (d.readLE (p.da + 4 * i) 4) (leAt p.payload (4 + 4 * i) 4))
  d.store p.da ((new.map (leBytes 4)).flatten)

/-- A write packet takes effect at the home, and is answered. -/
def Dev.applyWrite (d : Dev) (p : Packet) : Dev :=
  if p.op = 3 then d.doAtomic p
  else if p.op = 4 then
    (let st := d.readStatus p
     if st != 0 then (d.homeFault p st).respondAck p st else (d.doReduce p).respondAck p 0)
  else
    (let st := d.homeStatus p
     if st != 0 then d.respondAck p st
     else if p.op = 5 then (d.write p.da p.payload).respondAck p 0
     else (d.store p.da p.payload).respondAck p 0)

/-- The 64-byte lines that a write packet touches. -/
def pktLines (p : Packet) : List Nat := linesOf p.da (reqLen p)

/-- Two write packets share a line. -/
def linesMeet (p q : Packet) : Bool := (pktLines p).any (pktLines q).contains

/-- A later write waits for an earlier one: they share a line, or are mirror writes of one partner (R321, R330). -/
def writeWaits (p q : Packet) : Bool := linesMeet p q || (p.op = 5 && q.op = 5 && p.src = q.src)

/-- Waiting writes to a line (R330). -/
def Dev.lineDepth (d : Dev) (line : Nat) : Nat := (d.mfb.hot.filter (fun q => (pktLines q).contains line)).length

/-- A line queue that a write packet needs is full. -/
def Dev.lineFull (d : Dev) (p : Packet) : Bool := (pktLines p).any (fun l => 256 ≤ d.lineDepth l)

/-- A write packet: class C0, PUT, atomic, reduction, mirror write or PUT_LINE copy. -/
def isWrite (p : Packet) : Bool := p.cls = 0 && 2 ≤ p.op && p.op ≤ 6

/-- A C0 packet waits in the home's input: a write behind a full line queue, an atomic for a full table (R328, R330). -/
def Dev.inputHolds (d : Dev) (q : Packet) : Bool :=
  (isWrite q && d.lineFull q) || (q.cls = 0 && q.op = 3 && d.tableFull)

/-- A C0 packet of an operation heads the home's input: no earlier one waits there (R330, R332). -/
def Dev.atInput (d : Dev) (p : Packet) (op : Nat) : Bool :=
  d.up && d.canTake p && p.cls = 0 && p.op = op && !(d.fab.inbox.takeWhile (· != p)).any d.inputHolds &&
    !(isWrite p && d.lineFull p)

/-- A C0 packet of an operation can be taken by the home. -/
def Dev.homeTakes (d : Dev) (p : Packet) (op : Nat) : Bool := d.atInput p op && !d.inputHolds p

/-- A write packet arrives: applied at once, or queued behind the writes of its line when one was applied less than 4 ns ago
or waits. DESIGN CHOICE (log entry 32). -/
def Dev.writeArrive (d : Dev) (p : Packet) (hot : Bool) : Dev :=
  if hot || d.mfb.hot.any (writeWaits p) then
    let d : Dev := { d with mfb := { d.mfb with hot := d.mfb.hot ++ [p] } }
    d.setFld Reg.MFB_THROTTLE.MAX_QUEUE (max (d.fld Reg.MFB_THROTTLE.MAX_QUEUE) ((pktLines p).foldl (fun n l => max n (d.lineDepth l)) 0))
  else d.applyWrite p

/-- MFB_GET_REQUEST. -/
def execMfbGetRequest (p : Packet) (s : State) : Host.Outcome State Fault Refusal :=
  s.run true (s.dev.homeTakes p 1) (fun d =>
    let d := d.take p
    let st := d.readStatus p
    if st = 0 then d.respond p 1 (d.read p.da (reqLen p))
    else ((d.homeFault p st).countStatus st).respond p 4 (leBytes 1 st))

/-- MFB_PUT_PACKET. -/
def execMfbPutPacket (p : Packet) (hot : Bool) (s : State) : Host.Outcome State Fault Refusal :=
  s.run true (s.dev.homeTakes p 2) (fun d => (d.take p).writeArrive p hot)

/-- An atomic is admitted. -/
def Dev.admitAtomic (d : Dev) (p : Packet) (hot : Bool) : Dev :=
  let d := d.take p
  ({ d with mfb := { d.mfb with heldAtomics := d.mfb.heldAtomics.erase p } } : Dev).writeArrive p hot

/-- An atomic waits in the home's input for a full table, and counts once (R328). -/
def Dev.holdAtomic (d : Dev) (p : Packet) : Dev :=
  ({ d with mfb := { d.mfb with heldAtomics := d.mfb.heldAtomics ++ [p] } } : Dev).bumpSat Reg.MFB_TABLE.FULL_STALLS 1

/-- MFB_ATOMIC_REQUEST: the atomic is admitted, or found to wait for a full table. DESIGN CHOICE (log entry 32). -/
def execMfbAtomicRequest (p : Packet) (hot : Bool) (s : State) : Host.Outcome State Fault Refusal :=
  s.run true (s.dev.atInput p 3 && !(s.dev.tableFull && s.dev.mfb.heldAtomics.contains p)) (fun d =>
    if d.tableFull then d.holdAtomic p else d.admitAtomic p hot)

/-- MFB_REDUCTION_PACKET. -/
def execMfbReductionPacket (p : Packet) (hot : Bool) (s : State) : Host.Outcome State Fault Refusal :=
  s.run true (s.dev.homeTakes p 4) (fun d => (d.take p).writeArrive p hot)

/-- MFB_MIRROR_WRITE: applied without mirroring again (R161). -/
def execMfbMirrorWrite (p : Packet) (hot : Bool) (s : State) : Host.Outcome State Fault Refusal :=
  s.run true (s.dev.homeTakes p 5) (fun d => (d.take p).writeArrive p hot)

/-- MFB_PUT_LINE_COPY: the copy for this device; the router has sent it on (R260). -/
def execMfbPutLineCopy (p : Packet) (hot : Bool) (s : State) : Host.Outcome State Fault Refusal :=
  s.run true (s.dev.homeTakes p 6) (fun d => (d.take p).writeArrive p hot)

/-- MFB_NOTIFY: 1 is added to the counter, and the packet is answered (R319, R320). -/
def execMfbNotify (p : Packet) (s : State) : Host.Outcome State Fault Refusal :=
  s.run true (s.dev.homeTakes p 7) (fun d =>
    let d := d.take p
    if d.homeAdmits p.src then (d.evtAdd (leAt p.payload 0 2) 1).respondAck p 0 else d.respondAck p 2)

/-- The first waiting write of a line, when none before it holds it back and the table admits it (R330, R332). -/
def Dev.hotNext (d : Dev) (line : Nat) : Option Packet :=
  match d.mfb.hot.find? (fun q => (pktLines q).contains line) with
  | none => none
  | some p =>
    if (d.mfb.hot.takeWhile (· != p)).any (writeWaits p) || (p.op = 3 && d.tableFull) then none else some p

/-- HOT_LINE_WRITE: the first waiting write of a line takes effect (R330). -/
def execHotLineWrite (line : Nat) (s : State) : Host.Outcome State Fault Refusal :=
  s.run (line < 2 ^ 34) (s.dev.up && (s.dev.hotNext line).isSome) (fun d =>
    match d.hotNext line with
    | none => d
    | some p => ({ d with mfb := { d.mfb with hot := d.mfb.hot.erase p } } : Dev).applyWrite p)

/-- RESULT_TABLE_ENTRY_EXPIRE: the oldest entry reaches 10 ms, and a held atomic is admitted (R328). -/
def execResultTableEntryExpire (s : State) : Host.Outcome State Fault Refusal :=
  s.run true (s.dev.up && s.dev.mfb.table.head?.any (fun e => e.time + ms 10 ≤ s.dev.now)) (fun d =>
    let d : Dev := { d with mfb := { d.mfb with table := d.mfb.table.drop 1 } }
    match d.mfb.heldAtomics.find? (fun p => d.homeTakes p 3) with
    | some p => d.admitAtomic p false
    | none => d)

/-! ### Responses at the source (R319, R320, R329) -/

/-- A response has been delivered and can be taken. -/
def Dev.respTakes (d : Dev) (p : Packet) (op : Nat) : Bool := d.up && d.canTake p && p.cls = 1 && p.op = op

/-- A home has answered a packet; one that took more than 2 µs keeps the home's window from growing (R331). -/
def Dev.noteLate (d : Dev) (o : MfbOp) (home da : Nat) : Dev :=
  if o.pkts.any (fun k => k.da = da && o.openAt home k && k.firstAt + us 2 < d.clk) then
    { d with mfb := { d.mfb with windows := Tab.set d.newWindow d.mfb.windows home { d.window home with late := true } } }
  else d

/-- A packet of an operation is answered. -/
def Dev.ackPkt (d : Dev) (o : MfbOp) (da : Nat) : Dev :=
  (d.noteLate o o.home da).modOp o.id (fun o => o.modPkt da (fun k => { k with acked := true }))

/-- An operation in flight by its number. -/
def Dev.op? (d : Dev) (id : Nat) : Option MfbOp := d.mfb.ops.find? (fun o => o.id = id)

/-- An operation every packet of which is answered completes. -/
def Dev.checkOp (d : Dev) (id : Nat) : Dev :=
  match d.op? id with
  | none => d
  | some o => if o.pkts.all (·.acked) then d.opGood o else d.pumpOp o

/-- GET data arrives: written at LOCAL, a cached line installed unless it has been dropped since (R320, R325, R332). -/
def Dev.getData (d : Dev) (o : MfbOp) (p : Packet) : Dev :=
  match o.pkts.find? (fun k => k.da = p.da && k.sent && !k.acked) with
  | none => d
  | some k =>
    if p.payload.length != k.len then d
    else
      let a := if o.mop = 2 then 0 else p.da - o.remote
      match (if o.localDev then d.accErr (o.localAddr + a) (if o.mop = 2 then o.len else k.len) else none) with
      | some (.lostCore c) => d.opEnd o (Ending.lost c)
      | some _ => d.opEnd o (Ending.plain .badField)
      | none =>
        let d := if o.mop = 2 then
            (let d := (d.putLine o (p.da / 64) p.payload).bumpSat Reg.MFB_RLC_STATS.MISSES 1
             if k.install then d.rlcPut ⟨o.home, p.da / 64, p.payload⟩ else d)
          else d.putLocal o a p.payload
        (d.ackPkt o p.da).checkOp o.id

/-- MFB_GET_DATA. -/
def execMfbGetData (p : Packet) (s : State) : Host.Outcome State Fault Refusal :=
  s.run true (s.dev.respTakes p 1) (fun d =>
    let d := d.take p
    match d.opOf false p.src p.tag p.da with
    | some o => if mopGet o.mop then d.getData o p else d
    | none => d)

/-- A PUT_LINE with one acknowledgement more. -/
def Dev.lineAck (d : Dev) (o : MfbOp) (src da : Nat) : Dev :=
  let d := d.noteLate o src da
  let d := d.modOp o.id (fun o => if o.acks.contains (src, da) then o else { o with acks := o.acks ++ [(src, da)] })
  match d.op? o.id with
  | none => d
  | some o => if (d.lineMembers o.home).all o.ackedBy then d.opGood o else d.pumpHome src

/-- MFB_ACKNOWLEDGEMENT. -/
def execMfbAcknowledgement (p : Packet) (s : State) : Host.Outcome State Fault Refusal :=
  s.run true (s.dev.respTakes p 2) (fun d =>
    let d := d.take p
    match d.opOf false p.src p.tag p.da with
    | none => d
    | some o =>
      if leAt p.payload 0 1 != 0 then d.opRefused o p.src p.da (leAt p.payload 0 1)
      else if o.mop = 4 then d.lineAck o p.src p.da
      else (d.ackPkt o p.da).checkOp o.id)

/-- An atomic's result with status OK: the old value goes to LOCAL. -/
def Dev.atomicDone (d : Dev) (o : MfbOp) (old : Nat) : Dev :=
  match (if o.localDev then d.accErr o.localAddr o.len else none) with
  | some (.lostCore c) => d.opEnd o (Ending.lost c)
  | some _ => d.opEnd o (Ending.plain .badField)
  | none => (d.putLocal o 0 (leBytes o.len old)).opEnd o (Ending.plain .done)

/-- MFB_ATOMIC_RESULT: one that arrives after its atomic has completed is discarded and counted (R329). -/
def execMfbAtomicResult (p : Packet) (s : State) : Host.Outcome State Fault Refusal :=
  s.run true (s.dev.respTakes p 3) (fun d =>
    let d := d.take p
    match d.opOf true p.src p.tag p.da with
    | none => d.bumpSat Reg.MFB_SOURCE.LATE 1
    | some o =>
      if leAt p.payload 0 1 = 0 then d.atomicDone o (leAt p.payload 8 8) else d.opRefused o p.src p.da (leAt p.payload 0 1))

/-- MFB_ERROR: the operation completes by its status (R319). -/
def execMfbError (p : Packet) (s : State) : Host.Outcome State Fault Refusal :=
  s.run true (s.dev.respTakes p 4) (fun d =>
    let d := d.take p
    match (d.opOf false p.src p.tag p.da).or (d.opOf true p.src p.tag p.da) with
    | none => d
    | some o => if leAt p.payload 0 1 = 0 then d else d.opRefused o p.src p.da (leAt p.payload 0 1))

/-! ### Timers at the source (R322, R327, R329, R331) -/

/-- The atomic retry interval. -/
def Dev.retryTime (d : Dev) : Nat := us d.tgt.polRetry

/-- Packets of an operation that are to be sent again. -/
def Dev.unanswered (d : Dev) (o : MfbOp) : List MfbPkt :=
  o.pkts.filter (fun k => k.sent && !k.acked && k.sentAt + d.retryTime ≤ d.clk)

/-- GET_RETRY: the packets of a GET that have brought no data are sent again (R322). DESIGN CHOICE (log entry 31). -/
def execGetRetry (id : Nat) (s : State) : Host.Outcome State Fault Refusal :=
  s.run true (s.dev.up && (s.dev.op? id).any (fun o => mopGet o.mop && !(s.dev.unanswered o).isEmpty)) (fun d =>
    match d.op? id with
    | none => d
    | some o => (d.unanswered o).foldl (fun d k => d.sendReq o k) d)

/-- ATOMIC_RETRY: sent again with TRY + 1, until ISSUED is 10 ms old (R329). -/
def execAtomicRetry (id : Nat) (s : State) : Host.Outcome State Fault Refusal :=
  s.run true (s.dev.up && (s.dev.op? id).any (fun o =>
      mopAtomic o.mop && !(s.dev.unanswered o).isEmpty && s.dev.now < o.issued + ms 10)) (fun d =>
    let d := d.modOp id (fun o => { o with tries := o.tries + 1 })
    match d.op? id with
    | none => d
    | some o => (d.unanswered o).foldl (fun d k => d.sendReq o k) d)

/-- ATOMIC_DEADLINE: no result by ISSUED + 12 ms (R329). -/
def execAtomicDeadline (id : Nat) (s : State) : Host.Outcome State Fault Refusal :=
  s.run true (s.dev.up && (s.dev.op? id).any (fun o =>
      mopAtomic o.mop && o.pkts.any (·.sent) && o.issued + ms 12 ≤ s.dev.now)) (fun d =>
    match d.op? id with
    | none => d
    | some o => d.opEnd o ⟨.indeterminate, Detail.auxed o.home⟩)

/-- MFB_CFG.RESP_MS; 0 acts as 1. -/
def Dev.respTime (d : Dev) : Nat := ms (max 1 (d.fld Reg.MFB_CFG.RESP_MS))

/-- The outcome of an operation not fully acknowledged in time: TIMEOUT, for a PUT_LINE PEER_LOST with the first member
missing (R322). -/
def Dev.respEnding (d : Dev) (o : MfbOp) : Ending :=
  if o.mop = 4 then
    ⟨.peerLost, Detail.auxed
      (((d.lineMembers o.home).find? (fun x => !o.ackedBy x)).getD 0xFFFF)⟩
  else Ending.plain .timeout

/-- MFB_RESP_TIMEOUT: a write or reduction is not fully acknowledged within RESP_MS (R322).
DESIGN CHOICE (log entry 31). -/
def execMfbRespTimeout (id : Nat) (s : State) : Host.Outcome State Fault Refusal :=
  s.run true (s.dev.up && (s.dev.op? id).any (fun o =>
      !mopGet o.mop && !mopAtomic o.mop && !o.pkts.all (·.acked) && o.start + s.dev.respTime ≤ s.dev.clk)) (fun d =>
    match d.op? id with
    | none => d
    | some o => if o.mop = 4 then d.notifyEnd o (d.respEnding o) else d.opEnd o (d.respEnding o))

/-- The homes that operations name or windows are kept for. -/
def Dev.homes (d : Dev) : List Nat :=
  ((d.mfb.ops.map d.homesOf).flatten ++ d.mfb.windows.map (·.1)).eraseDups

/-- A request to a home is older than 2 µs and not answered. -/
def Dev.oldRequest (d : Dev) (home : Nat) : Bool :=
  d.mfb.ops.any (fun o => (d.homesOf o).contains home && o.pkts.any (fun k => o.openAt home k && k.firstAt + us 2 < d.clk))

/-- 2 µs have passed since a home's window last halved or could grow. -/
def Dev.windowDue (d : Dev) (home : Nat) : Bool := (d.window home).since + us 2 ≤ d.clk

/-- One home's window after 2 µs (R331). -/
def Dev.windowTick (d : Dev) (home : Nat) : Dev :=
  let w := d.window home
  let old := d.oldRequest home
  let size := if old then max 1 (w.size / 2) else if w.late then w.size else min d.maxWindow (w.size + 1)
  let d := if old && w.size != size then d.bumpSat Reg.MFB_THROTTLE.EVENTS 1 else d
  let d : Dev := { d with mfb := { d.mfb with windows := Tab.set d.newWindow d.mfb.windows home ⟨size, false, d.clk⟩ } }
  d.pumpHome home

/-- MFB_WINDOW_TIMER: every window that has stood for 2 µs halves or grows (R331). -/
def execMfbWindowTimer (s : State) : Host.Outcome State Fault Refusal :=
  s.run true (s.dev.up && s.dev.homes.any s.dev.windowDue) (fun d => (d.homes.filter d.windowDue).foldl Dev.windowTick d)

/-- ATOMIC_SEQUENCE_FREE: 20 ms have passed since the next sequence number's first send, so an atomic that waits for it may
start (R327). -/
def execAtomicSequenceFree (s : State) : Host.Outcome State Fault Refusal :=
  s.run true (s.dev.up && s.dev.seqOver s.dev.mfb.seq) (fun d =>
    { d with mfb := { d.mfb with seqTime := Tab.set 0 d.mfb.seqTime d.mfb.seq 0 } })

end Sys2Proof.Machine
end

