-- ==== Sys2Proof/Machine/Mgmt.lean ====
section
/-! DEFINITION. Lost peers (R222, R261, R262), the management port (R389 to R393), and the end of a handover by a lost peer (R397). -/

namespace Sys2Proof.Machine

/-! ### The end of a handover (R397) -/

/-- Logical cores of a mask. -/
def coreCount (m : Nat) : Nat := popCount 192 m

/-- A handover ends with an outcome: its descriptor completes, its record is written (code 0x0C/0x01). -/
def Dev.endHandover (d : Dev) (h : Handover) (e : Ending) : Dev :=
  let d : Dev := { d with flt := { d.flt with handover := none } }
  let d := (d.setFld Reg.FLT_HANDOVER.PHASE 4).setFld Reg.FLT_HANDOVER.LOST_CORES (coreCount h.lost)
  let d := d.record ⟨0x0C, 1, some h.peer, 0xFF,
    leBytes 1 (if h.isExport then 1 else 2) ++ leBytes 1 e.st.code ++ leBytes 1 (coreCount h.lost), []⟩
  d.finishKey h.desc e

/-- The 64 KiB units of Midway SRAM that a handover moves: all but the remote line cache and Carousel staging (R394).
DESIGN CHOICE (log entry 38). -/
def Dev.midwayUnits (d : Dev) : List Nat :=
  (List.range 8192).filter (fun u =>
    u / 512 != d.fld Reg.CAR_STAGE_BASE.BASE && u / 1024 != d.fld Reg.MFB_RLC.BASE)

/-- What an import that fails has brought in is zeroed: SRAM and vaults of the manifest's cores, Midway SRAM (R397).
DESIGN CHOICE (log entry 38). -/
def Dev.zeroImport (d : Dev) (h : Handover) : Dev :=
  let d := (onesOf 192 h.cores).foldl (fun d c => (d.storeZero (vaultBase c) 0x100000000).zero (sramBase c) sramSize) d
  d.midwayUnits.foldl (fun d u => d.zero (midwayBase + 65536 * u) 65536) d

/-- A handover is aborted: the source keeps its context, the spare's imported areas are zeroed (R397). -/
def Dev.abortHandover (d : Dev) (h : Handover) (e : Ending) : Dev :=
  (if h.isExport || h.phase = .manifest then d else d.zeroImport h).endHandover h e

/-! ### A destination that becomes LOST (R261, R262, R290, R322, R329, R162, R397) -/

/-- An operation whose home becomes LOST ends. -/
def Dev.lostOp (d : Dev) (o : MfbOp) : Dev :=
  if mopAtomic o.mop && o.pkts.any (·.sent) then d.opEnd o ⟨.indeterminate, Detail.auxed o.home⟩
  else d.opEnd o ⟨.peerLost, Detail.auxed o.home⟩

/-- LOST of a routing entry is set, with all that follows; nothing when it stands already. -/
def Dev.setLost (d : Dev) (x : Nat) : Dev :=
  if x = 0xFFFF || d.on (Reg.FAB_ROUTE.LOST x) then d
  else
    let d := d.markLost x true
    let d := (d.mfb.ops.filter (fun o => o.home = x && o.mop != 4)).foldl (fun d o => if (d.op? o.id).isSome then d.lostOp o else d) d
    let d := d.rlcDrop (fun i _ => i = x)
    let d := d.collsLost x
    let d := if d.mirrors && x = d.fld Reg.VLT_MIRROR_PEER.FLAT_ID then d.fetchLost else d
    match d.flt.handover with
    | some h => if h.peer = x && h.phase != .takeover then d.abortHandover h ⟨.peerLost, Detail.auxed x⟩ else d
    | none => d

/-- A port's recovery has waited 10 ms for the peer's notice (R222). -/
def Dev.recoveryOver (d : Dev) (p : Nat) : Bool := (d.port p).recovery.any (fun r => r.since + ms 10 ≤ d.clk)

/-- The peer of a failed port is lost: its sighting, its record, its entry; packets kept for it are dropped, the others go
on their way (R222, R261, R262, R384). -/
def Dev.peerLost (d : Dev) (p : Nat) : Dev :=
  match (d.port p).recovery with
  | none => d
  | some r =>
    let d := d.modPort p (fun x => { x with recovery := none })
    let d := (d.sight r.peer 2 p).record ⟨5, 4, some r.peer, p, [], []⟩
    ((d.setLost r.peer).takeBack (queuedOf r.replay)).pumpAll p

/-- RECOVERY_NOTICE_TIMEOUT (R222). -/
def execRecoveryNoticeTimeout (p : Nat) (s : State) : Host.Outcome State Fault Refusal :=
  s.run (portOk p) (s.dev.live && s.dev.recoveryOver p) (fun d => d.peerLost p)

/-! ### Management messages (R390) -/

/-- The bytes that a tag covers. -/
def mgmtBody (m : List Byte) : List Byte := m.take (m.length - 32)

/-- A message's tag holds. -/
def Dev.mgmtTagOk (d : Dev) (m : List Byte) : Bool :=
  48 ≤ m.length && hmac d.boot.mgmtKey (mgmtBody m) = m.drop (m.length - 32)

/-- The port serves: an Act with the port enabled is in force and the link is up. -/
def Dev.mgmtServes (d : Dev) : Bool := d.st != .reset && d.mgmtOn && d.on Reg.FLT_MGMT_STATUS.LINK_UP

/-- A message that is not obeyed is counted, and recorded as a rejected command with a status, 0xFF for a bad tag.
DESIGN CHOICE and DEDUCED (log entry 28). -/
def Dev.mgmtReject (d : Dev) (cmd status : Nat) : Dev :=
  (d.bumpSat Reg.FLT_MGMT_CMDS.REJECTED 1).record (.mk1 0x0E 1 cmd (leBytes 1 status))

/-- A response goes out (R392). -/
def Dev.mgmtReply (d : Dev) (m : List Byte) (status : Nat) (data : List Byte) : Dev :=
  let l := d.mgmtHead 0x11 d.flt.msgSeq ++ slice m 16 8 ++ leBytes 1 status ++ slice m 24 1 ++ [0, 0] ++ leBytes 4 d.flt.session ++
    data.take 1024
  ({ d with flt := { d.flt with msgSeq := (d.flt.msgSeq + 1) % 2 ^ 32 } } : Dev).mgmtOut l

/-- The status of a command (R392): REPLAY, BAD_CMD, STATE, BUSY, OK. DESIGN CHOICE and DEDUCED (log entry 28). -/
def Dev.mgmtStatus (d : Dev) (m : List Byte) (bad : Bool) (states : List DevState) (busy : Bool) : Nat :=
  if leAt m 20 4 != d.flt.session || d.flt.lastCmd.any (fun n => leAt m 16 4 ≤ n) then 1
  else if bad || m.length != 80 || leAt m 25 7 != 0 then 2
  else if !d.inSt states then 3
  else if busy then 4
  else 0

/-- A command (R392): a bad tag is counted and unanswered; otherwise its status is answered, and with OK its data and its
effect; the answer goes first. DESIGN CHOICE and DEDUCED (log entry 28). -/
def Dev.mgmtCmd (d : Dev) (m : List Byte) (bad : Bool) (states : List DevState) (busy : Bool) (data : List Byte)
    (go : Dev → Dev) : Dev :=
  if !d.mgmtTagOk m then d.mgmtReject (leAt m 24 1) 0xFF
  else
    let st := d.mgmtStatus m bad states busy
    let d : Dev := if st = 1 then d else { d with flt := { d.flt with lastCmd := some (leAt m 16 4) } }
    if st = 0 then go ((d.mgmtReply m 0 data).bumpSat Reg.FLT_MGMT_CMDS.ACCEPTED 1)
    else (d.mgmtReply m st []).mgmtReject (leAt m 24 1) st

/-- A message is a command with a code. -/
def Dev.mgmtIs (d : Dev) (m : List Byte) (p : Nat → Bool) : Bool := d.mgmtServes && leAt m 0 1 = 0x10 && p (leAt m 24 1)

/-- Every state but RESET. -/
def anyState : List DevState := [.boot, .recovery, .ready, .running, .quiesced, .halted]

/-- The states in which firmware answers. -/
def logStates : List DevState := [.ready, .running, .quiesced, .halted]

/-- The data of GET_STATE, in the order R392 names it: state, flags, reason bits, flat ID, last SEQ.
DESIGN CHOICE and DEDUCED (log entry 28). -/
def Dev.stateData (d : Dev) : List Byte :=
  leBytes 1 d.st.code ++ leBytes 1 (8 * flag d.degraded + 16 * flag d.replaceReq) ++ leBytes 2 (d.fld Reg.FLT_REASON.REASONS) ++
    leBytes 2 d.selfId ++ [0, 0] ++ leBytes 4 ((d.flt.seq + 2 ^ 32 - 1) % 2 ^ 32)

/-- GET_STATE; a command whose code R392 does not list is refused here. DESIGN CHOICE (log entry 16). -/
def execGetState (m : List Byte) (s : State) : Host.Outcome State Fault Refusal :=
  s.run true (s.dev.mgmtIs m (fun c => c < 2 || 6 < c)) (fun d =>
    d.mgmtCmd m (leAt m 24 1 != 1) anyState false d.stateData (fun d => d))

/-- The records from a SEQ on, in SEQ order, at most n and 1,024 bytes. -/
def recordsFrom (l : List (Nat × RecBytes)) (seq n : Nat) : List Byte :=
  (((l.filter (fun r => seq ≤ r.1)).reverse.take n).foldl (fun (a : List Byte × Bool) r =>
    if a.2 || 1024 < a.1.length + r.2.length then (a.1, true) else (a.1 ++ r.2, false)) ([], false)).1

/-- GET_RECORDS: queued or logged records (R392). -/
def execGetRecords (m : List Byte) (s : State) : Host.Outcome State Fault Refusal :=
  s.run true (s.dev.mgmtIs m (· = 2)) (fun d =>
    d.mgmtCmd m (leAt m 36 1 = 0 || 32 < leAt m 36 1) logStates false (recordsFrom d.flt.logged (leAt m 32 4) (leAt m 36 1)) (fun d => d))

/-- An entry of the suspect table as FLT_SUSPECT shows it. -/
def Dev.suspectWord (d : Dev) (i : Nat) : Nat :=
  match d.flt.suspects.find? (fun e => e.1 = i) with
  | some e => e.2.id + 2 ^ 16 * e.2.cause + 2 ^ 20 * flag e.2.origin + 2 ^ 21 + 2 ^ 32 * e.2.count
  | none => 0

/-- GET_SUSPECTS: the 64 entries as FLT_SUSPECT shows them (R392). DESIGN CHOICE and DEDUCED (log entry 28). -/
def execGetSuspects (m : List Byte) (s : State) : Host.Outcome State Fault Refusal :=
  s.run true (s.dev.mgmtIs m (· = 3)) (fun d =>
    d.mgmtCmd m false logStates false ((List.range 64).map (fun i => leBytes 8 (d.suspectWord i))).flatten (fun d => d))

/-- SET_LOST: LOST of a routing entry is set or cleared (R261, R392). -/
def execSetLost (m : List Byte) (s : State) : Host.Outcome State Fault Refusal :=
  s.run true (s.dev.mgmtIs m (· = 4)) (fun d =>
    d.mgmtCmd m (1 < leAt m 34 1) [.ready, .running, .quiesced] false [] (fun d =>
      if leAt m 34 1 = 1 then d.setLost (leAt m 32 2) else d.markLost (leAt m 32 2) false))

/-- REQUEST: placed for the driver, with vector 0; one that is pending makes a further one BUSY (R393). -/
def execRequest (m : List Byte) (s : State) : Host.Outcome State Fault Refusal :=
  s.run true (s.dev.mgmtIs m (· = 5)) (fun d =>
    d.mgmtCmd m (leAt m 32 1 = 0 || 6 < leAt m 32 1) [.ready, .running, .quiesced] (d.on Reg.FLT_MGMT_REQ.VALID) [] (fun d =>
      (((((d.setFld Reg.FLT_MGMT_REQ.CODE (leAt m 32 1)).setFld Reg.FLT_MGMT_REQ.A (leAt m 34 2)).setFld Reg.FLT_MGMT_REQ.B
        (leAt m 36 2)).setFld Reg.FLT_MGMT_REQ.VALID 1).setFld Reg.GLB_STATE_CHANGE.REQUEST 1).msix 0))

/-- MGMT_RESET: the device enters RESET after its answer (R392). -/
def execMgmtReset (m : List Byte) (s : State) : Host.Outcome State Fault Refusal :=
  s.run true (s.dev.mgmtIs m (· = 6)) (fun d =>
    d.mgmtCmd m false anyState (d.boot.flashJob.isSome || d.boot.rcvJob) [] (fun d =>
      let z := d.enterReset true
      { z with boot := { z.boot with pulse := true } }))

/-- REPORT_ACK: the message is done, and more records go (R391). -/
def execReportAck (m : List Byte) (s : State) : Host.Outcome State Fault Refusal :=
  s.run true (s.dev.mgmtServes && leAt m 0 1 = 2) (fun d =>
    if !d.mgmtTagOk m then d.bumpSat Reg.FLT_MGMT_CMDS.REJECTED 1
    else Dev.pumpReports 8 { d with flt := { d.flt with unacked := d.flt.unacked.filter (fun r => r.msgSeq != leAt m 4 4) } })

/-- A message has waited 1 s for its acknowledgement. -/
def Dev.reportDue (d : Dev) (r : Report) : Bool := r.at' + sec 1 ≤ d.clk

/-- REPORT_RESEND: messages unacknowledged for 1 s go again (R391). -/
def execReportResend (s : State) : Host.Outcome State Fault Refusal :=
  s.run true (s.dev.mgmtServes && s.dev.flt.unacked.any s.dev.reportDue) (fun d =>
    let l := d.flt.unacked.filter d.reportDue
    let d : Dev := { d with flt := { d.flt with unacked := d.flt.unacked.map (fun r => if d.reportDue r then { r with at' := d.clk } else r) } }
    l.foldl Dev.sendReport d)

/-- MGMT_LINK_UP: queued records go out (R391). -/
def execMgmtLinkUp (s : State) : Host.Outcome State Fault Refusal :=
  s.run true (s.dev.st != .reset && s.dev.mgmtOn) (fun d => Dev.pumpReports 8 (d.setFld Reg.FLT_MGMT_STATUS.LINK_UP 1))

/-- MGMT_LINK_DOWN: later records wait in the queue (R391). -/
def execMgmtLinkDown (s : State) : Host.Outcome State Fault Refusal :=
  s.run true (s.dev.on Reg.FLT_MGMT_STATUS.LINK_UP) (fun d => d.setFld Reg.FLT_MGMT_STATUS.LINK_UP 0)

/-- MGMT_REQ_TAKE: the driver takes the request by clearing VALID (R393). -/
def execMgmtReqTake (s : State) : Host.Outcome State Fault Refusal :=
  s.run true (s.dev.inSt [.boot, .recovery, .ready, .running, .quiesced, .halted] && s.dev.on Reg.FLT_MGMT_REQ.VALID)
    (fun d => d.setFld Reg.FLT_MGMT_REQ.VALID 0)

end Sys2Proof.Machine
end

