-- ==== Sys2Proof/Machine/Limelight.lean ====
section
/-! DEFINITION. Limelight cartridges: presence, checks, fade, the board switch, moves (R229 to R243). -/

namespace Sys2Proof.Machine

/-- A slot number. -/
def slotOk (s : Nat) : Bool := s < 10

/-- A cartridge stands in a slot. -/
def Dev.present (d : Dev) (s : Nat) : Bool := bit d.pins.lmPresent s

/-- LM_PRESENCE: presence is asserted in a slot (R230, R232). -/
def execLmPresence (s : Nat) (t : State) : Host.Outcome State Fault Refusal :=
  t.run (slotOk s) (!t.dev.present s) (fun d => { d with
    pins := { d.pins with lmPresent := setBit d.pins.lmPresent s true, lmAt := Tab.set 0 d.pins.lmAt s d.clk } })

/-- Fields of a cartridge's record (R231). -/
def Slot.field (x : Slot) (a n : Nat) : Nat := leAt x.card a n

/-- BOL_PWR of a line, in 0.01 dBm. -/
def Slot.bol (x : Slot) (n : Nat) : Int := sext 16 (leAt x.card (24 + 2 * n) 2)

/-- What a cartridge gives on its bus at a check: record bytes 0 to 71, the certificate chain, its answer to the nonce
(R231, R232). -/
abbrev CartCheck := List Byte × List Byte × List Byte

/-- The result code of a check (R232, R418): no answer on the bus, ORDER, the chain, or the signature over the nonce and
record bytes 0 to 71 under the certified key. -/
def checkCode (nonce : List Byte) (a : Option CartCheck) : Nat :=
  match a with
  | none => 5
  | some (card, chain, sig) =>
    if slice card 0 8 != [0x4C, 0x4D, 0x2D, 0x31, 0x38, 0x4F, 0, 0] then 2
    else match Config.cartridgeKey chain with
      | none => 3
      | some k => if pssVerify k.1 k.2 sig (nonce ++ slice card 0 72) then 1 else 4

/-- HOURS and EQ_HOURS of a slot are shown. -/
def Dev.showLife (d : Dev) (s : Nat) : Dev :=
  (d.setFld (Reg.LIM_LIFE.HOURS s) ((d.slot s).field 64 4)).setFld (Reg.LIM_LIFE.EQ_HOURS s) ((d.slot s).field 68 4)

/-- A check has given a result code: a home cartridge that passes warms, a spare stands by, and one that fails is retired and
never enabled (R232, R235, R236). -/
def Dev.checked (d : Dev) (s : Nat) (card : List Byte) (c : Nat) : Dev :=
  let x : Slot := { Slot.init with card := card, code := c, sumP := List.replicate 18 0 }
  let d := d.modLim (fun l => { l with slots := Tab.set Slot.init l.slots s x })
  let d := (d.setFld (Reg.LIM_SERIAL.SERIAL s) ((d.slot s).field 8 8)).showLife s
  if c = 1 then
    let d := (d.setFld (Reg.LIM_STATE.AUTH s) 1).slotFilled s
    if s < 8 then d.warm s else ((d.setSlotSt s 3 0).spareReady s).lightUp
  else
    let d := ((d.bumpSat Reg.LIM_EVENTS.REJECTED 1).setSlotSt s 6 1).lightUp
    if s < 8 then d.wantHome s else d

/-- CARTRIDGE_CHECK: 500 ms after presence a nonce goes to the cartridge, and the record, the chain and the answer are
checked (R232). DESIGN CHOICE and DEDUCED (log entry 37). -/
def execCartridgeCheck (s : Nat) (a : Option CartCheck) (t : State) : Host.Outcome State Fault Refusal :=
  t.run (slotOk s && a.all (fun e => e.1.length = 72 && e.2.1.length = 3840 && e.2.2.length = 384))
    (t.dev.live && t.dev.present s && t.dev.slotSt s = 0 && Tab.get 0 t.dev.pins.lmAt s + ms 500 ≤ t.dev.clk) (fun d =>
    let nonce := leBytes 16 d.free
    (d.draw.emit (.limCheck s nonce)).checked s ((a.map (·.1)).getD []) (checkCode nonce a))

/-- The registers of a slot from which the cartridge is gone. -/
def Dev.slotBare (d : Dev) (s : Nat) : Dev :=
  let d := ((d.setFld (Reg.LIM_STATE.AUTH s) 0).setFld (Reg.LIM_SERIAL.SERIAL s) 0).setFld (Reg.LIM_LIFE.HOURS s) 0
  let d := (d.setFld (Reg.LIM_LIFE.EQ_HOURS s) 0).setFld (Reg.LIM_FADE.DRIVE_PCT s) 0
  (d.setFld (Reg.LIM_FADE.WORST_DB s) 0).setFld (Reg.LIM_FADE.PREDICT_H s) 0xFFFF

/-- LM_REMOVAL: presence is removed: the slot is EMPTY, LM_EN low; if it was feeding ports, as a failure (R235, R241). Once
HALTED the registers alone follow. -/
def execLmRemoval (s : Nat) (t : State) : Host.Outcome State Fault Refusal :=
  t.run (slotOk s) (t.dev.present s) (fun d =>
    let d := { d with pins := { d.pins with lmPresent := setBit d.pins.lmPresent s false } }
    if d.st = .halted then
      ({ d with pins := { d.pins with lmEn := setBit d.pins.lmEn s false } } : Dev).setFld (Reg.LIM_STATE.STATE s) 0 |>.slotBare s
    else
      let d := if d.slotSt s = 0 then d else d.stopFeeding s 0 0
      ((d.modLim (fun l => { l with slots := Tab.erase l.slots s })).slotBare s).lightUp)

/-! ### Fade (R233, R234) -/

/-- A reading's shortfalls below BOL_PWR, in 0.01 dB. -/
def Slot.shortfalls (x : Slot) (r : CartReading) : List Int := (List.range 18).map (fun n => x.bol n - r.power.getD n 0)

/-- The watch condition (R234). -/
def Slot.watch (x : Slot) (r : CartReading) : Bool :=
  85 * x.field 20 2 < 100 * r.drive || (x.shortfalls r).any (fun v => 100 < v) || x.field 16 4 ≤ x.field 68 4

/-- A warming cartridge is ready: on the grid, every line within 1.0 dB of BOL_PWR (R235). -/
def Slot.ready (x : Slot) (r : CartReading) : Bool := r.locked && (x.shortfalls r).all (fun v => -100 ≤ v && v ≤ 100)

/-- The hours until a line reaches 2.0 dB below BOL_PWR by the least-squares line through its hourly averages, newest
first, in 0.00001 dBm; none for a slope that is not negative (R234). -/
def predictLine (bol : Int) (l : List Int) : Option Nat :=
  let n : Int := l.length
  let pts := l.reverse.zipIdx
  let sx := pts.foldl (fun a e => a + (e.2 : Int)) 0
  let sxx := pts.foldl (fun a e => a + (e.2 : Int) * e.2) 0
  let sy := l.foldl (fun a y => a + y) 0
  let sxy := pts.foldl (fun a e => a + (e.2 : Int) * e.1) 0
  let den := n * sxx - sx * sx
  let slope := n * sxy - sx * sy
  if den ≤ 0 || 0 ≤ slope then none
  else some ((den * sy + slope * (n * (n - 1) - sx) - 1000 * (bol - 200) * n * den) / (n * (-slope))).toNat

/-- The smaller of two predictions, none for infinity. -/
def minOpt (a b : Option Nat) : Option Nat :=
  match a, b with
  | some x, some y => some (min x y)
  | some x, none => some x
  | none, y => y

/-- The prediction of a slot (R234): the smallest over the 18 lines. -/
def Slot.predict (x : Slot) : Option Nat :=
  (List.range 18).foldl (fun m n => minOpt m (predictLine (x.bol n) (x.hist.map (fun h => h.getD n 0)))) none

/-- The prediction is shown: 0xFFFF infinite or not FADING. -/
def Dev.showPredict (d : Dev) (s : Nat) : Dev :=
  d.setFld (Reg.LIM_FADE.PREDICT_H s)
    (if d.slotSt s = 4 then (match (d.slot s).predict with
      | some h => satTo 0xFFFE h
      | none => 0xFFFF) else 0xFFFF)

/-- Switch-over is due for a home slot in FADING (R234). -/
def Dev.switchDue (d : Dev) (k : Nat) : Bool :=
  d.fld (Reg.LIM_FADE.PREDICT_H k) < 720 || ((groupPorts k).filter (fun p => !d.onBackup p && d.carries p)).any
    (fun p => sext 16 (d.fld (Reg.OPT_MARGIN.TX p)) < 150)

/-- The stages of fade of a home cartridge in FADING or RETIRING: a threshold passed stays passed, and the switch-over
begins as soon as the spare can be brought in (R234, R238, R243). -/
def Dev.fadeStep (d : Dev) (s : Nat) : Dev :=
  let d := if d.slotSt s = 4 && d.switchDue s then d.modSlot s (fun x => { x with worn := true }) else d
  if d.slotSt s = 5 || (d.slotSt s = 4 && (d.slot s).worn) then d.switchStart s else d

/-- A cartridge is ONLINE: a home cartridge's ports return to it, and a spare that is no longer needed stands by. -/
def Dev.online (d : Dev) (s : Nat) : Dev :=
  let d := d.setSlotSt s 2 0
  if s < 8 then d.homeOnline s
  else match d.spareGroup s with
    | some k => if Tab.get false d.lim.dropped (s - 8) then d.releaseSpare k else d
    | none => d

/-- The watch condition has been passed: FADING; its hourly averages begin with the first time (R234, R243). -/
def Dev.watchPassed (d : Dev) (s : Nat) : Dev :=
  let d := if (d.slot s).watched then d else d.modSlot s (fun x => { x with hist := [], watched := true })
  let d := (d.setSlotSt s 4 0).showPredict s
  if 8 ≤ s && !(d.fedPorts s).isEmpty then d.wantSpare s else d

/-- An answer on the bus: what it shows, the sums of its emission, the stages of fade and the states (R233 to R235). -/
def Dev.cartAnswer (d : Dev) (s : Nat) (r : CartReading) : Dev :=
  let x := d.slot s
  let worst := ((x.shortfalls r).foldl (fun m v => if m < v then v else m) 0).toNat
  let d := (d.setFld (Reg.LIM_FADE.DRIVE_PCT s) (if x.field 20 2 = 0 then 255 else satTo 255 (100 * r.drive / x.field 20 2))).setFld
    (Reg.LIM_FADE.WORST_DB s) (satTo 255 worst)
  let d := d.modSlot s (fun x => { x with silent := 0 })
  let d := if bit d.pins.lmEn s then d.modSlot s (fun x => { x with
      n := x.n + 1, sumI := x.sumI + r.drive, sumP := (List.range 18).map (fun n => x.sumP.getD n 0 + r.power.getD n 0) })
    else d
  if d.slotLit s && r.los then d.stopFeeding s 6 3
  else if d.slotSt s = 1 then (if bit d.pins.lmEn s && x.ready r then d.online s else d)
  else
    let d := if d.slotSt s = 2 && (x.watched || x.watch r) then d.watchPassed s else d
    if s < 8 then d.fadeStep s else d

/-- CARTRIDGE_POLL: each second the drive current and the line powers are read; no answer for 10 s is a failure (R234,
R235). DESIGN CHOICE and DEDUCED (log entry 37). -/
def execCartridgePoll (s : Nat) (r : Option CartReading) (t : State) : Host.Outcome State Fault Refusal :=
  t.run (slotOk s && r.all (fun r => r.power.length = 18))
    (t.dev.live && t.dev.slotSt s != 0 && t.dev.slotSt s != 6) (fun d =>
    match r with
    | some r => d.cartAnswer s r
    | none =>
      let d := d.modSlot s (fun x => { x with silent := x.silent + 1 })
      if 10 ≤ (d.slot s).silent && d.slotLit s then d.stopFeeding s 6 3 else d)

/-- The account of a cartridge's emission since the last one: the whole hours emitted go to HOURS, the emission times
(I / I_NOM)² to EQ_HOURS, I the mean of its readings; and what is left of each (R233). -/
def Slot.account (x : Slot) (emitted : Nat) : Slot :=
  let hour := sec 3600
  let den := x.n * x.n * x.field 22 2 * x.field 22 2 * hour
  let eq := x.eqRest + (if den = 0 then 0 else 1000000 * emitted * x.sumI * x.sumI / den)
  { x with
    card := slice x.card 0 64 ++ leBytes 4 (satTo 0xFFFFFFFF (x.field 64 4 + (x.hourRest + emitted) / hour)) ++
      leBytes 4 (satTo 0xFFFFFFFF (x.field 68 4 + eq / 1000000))
    eqRest := eq % 1000000, hourRest := (x.hourRest + emitted) % hour
    emitted := 0, n := 0, sumI := 0, sumP := List.replicate 18 0 }

/-- LIFE_ACCOUNTING: an hour of emission has gone by: it is added to HOURS and EQ_HOURS, which are written back, and in
FADING the hourly averages are taken (R233, R234). -/
def execLifeAccounting (s : Nat) (t : State) : Host.Outcome State Fault Refusal :=
  t.run (slotOk s) (t.dev.live && bit t.dev.pins.lmEn s && t.dev.slotSt s != 0 && sec 3600 ≤ t.dev.emission s) (fun d =>
    let x := d.slot s
    let avg : List Int := if x.n = 0 then [] else x.sumP.map (fun v => (1000 : Int) * v / (x.n : Int))
    let d := d.modSlot s (fun x => { x.account (d.emission s) with
      emitAt := d.clk
      hist := if d.slotSt s = 4 && !avg.isEmpty then (avg :: x.hist).take 168 else x.hist })
    (d.showLife s).showPredict s)

/-- WARMING_TIMEOUT: a cartridge has not locked within 120 s (R235). -/
def execWarmingTimeout (s : Nat) (t : State) : Host.Outcome State Fault Refusal :=
  t.run (slotOk s) (t.dev.live && t.dev.slotSt s = 1 && (t.dev.slot s).since + sec 120 ≤ t.dev.clk)
    (fun d => d.stopFeeding s 6 2)

/-! ### The board switch (R237, R238) -/

/-- SWITCH_SETTLED: 10 ms after a select change the spare is enabled; once it is ONLINE, light is confirmed on the backup
feeds of the group's six ports, bit i of `lit` for port k + 8i (R237, R238). -/
def execSwitchSettled (s lit : Nat) (t : State) : Host.Outcome State Fault Refusal :=
  t.run (s = 8 || s = 9)
    (t.dev.live && (t.dev.spareGroup s).isSome && Tab.get 0 t.dev.lim.selAt (s - 8) + ms 10 ≤ t.dev.clk) (fun d =>
    match d.spareGroup s with
    | none => d
    | some k =>
      if d.slotSt s = 3 then d.warm s
      else if (d.slotSt s = 2 || d.slotSt s = 4) && !Tab.get false d.lim.confirmed (s - 8) && lit % 64 = 63 then d.confirmBackup k
      else d)

/-- SWITCH_LIGHT_TIMEOUT: a port of the group is without light: the switch is faulted for the group until reset, with its
record (R237). -/
def execSwitchLightTimeout (s : Nat) (t : State) : Host.Outcome State Fault Refusal :=
  t.run (s = 8 || s = 9)
    (t.dev.live && (t.dev.spareGroup s).isSome && !Tab.get false t.dev.lim.confirmed (s - 8) &&
      (t.dev.slotSt s = 2 || t.dev.slotSt s = 4) && Tab.get 0 t.dev.lim.selAt (s - 8) + ms 20 ≤ t.dev.clk) (fun d =>
    match d.spareGroup s with
    | none => d
    | some k =>
      let d := (d.setFldBit Reg.LIM_SW.FAULT k true).record (.mk1 6 2 s (leBytes 1 k))
      (d.releaseSpare k).limDone k (Ending.plain .noResource))

/-- SPARE_LIMELIGHT: switch-over and moves of a home slot, whatever its stage of fade (R242). -/
def execSpareLimelight (r : Nat) (t : State) : Host.Outcome State Fault Refusal :=
  t.run (r < 16) (t.dev.descDue r (fun j => j.opc = 0xA1)) (fun d =>
    d.startDesc r
      (fun d j => firstFail [j.reserved [(24, 0, 16)], badIf (7 < j.num 24 1) 24,
        badIf (j.num 25 1 != 0xFF && j.num 25 1 != spareOf (j.num 24 1)) 25, d.stateCheck [.ready, .running, .quiesced]])
      (fun d j =>
        let k := j.num 24 1
        let d := d.switchStart k
        if d.spareGroup (spareOf k) != some k then d.finish j (Ending.plain .noResource)
        else if d.backupLit k && (groupPorts k).all (fun p => d.onBackup p && !(d.port p).moving) then
          d.finish j (Ending.plain .done)
        else d.modLim (fun l => { l with jobs := l.jobs ++ [(j.key, k)] })))

/-! ### Step gap work on ports (R220, R239, R240, R368) -/

/-- A port's feed move at its turn: in a port calibration when its siblings allow it; a port that has FAILED trains on the
other feed, and one that is DOWN or cut off takes it untrained; false when it waits for the next gap (R239, R243).
DESIGN CHOICE and DEDUCED (log entry 37). -/
def Dev.gapFeedMove (d : Dev) (p : Nat) : Dev × Bool :=
  if d.onBackup p = bit d.lim.toBackup (p % 8) then (d.movesDone (p % 8), true)
  else if d.portSt p = 1 then (d, false)
  else if d.carries p then (if d.canCal p then (d.startPortCal p, true) else (d, false))
  else if d.failedPort p then
    (if d.siblingsUp p then
      (((d.flipFeed p).modPort p (fun x => { x with moving := true })).startTraining p, true)
    else (d, false))
  else ((d.flipFeed p).moveMade p, true)

/-- A port calibration at its turn; a move that the port awaits is made in it (R220, R243). -/
def Dev.gapPortCal (d : Dev) (p : Nat) : Dev × Bool :=
  if !d.carries p then (d.modPort p (fun x => { x with calDue := false }), true)
  else if d.canCal p then (d.startPortCal p, true)
  else (d, false)

end Sys2Proof.Machine
end

