-- ==== Sys2Proof/Machine/Tightrope.lean ====
section
/-! DEFINITION. Tightrope: power, operating points, bubble ratio, temperatures, bands (R333 to R358). -/

namespace Sys2Proof.Machine

/-- Tightrope changed. -/
def Dev.modTgt (d : Dev) (f : Tgt → Tgt) : Dev := { d with tgt := f d.tgt }

/-- The bubble ratio in force. -/
def Dev.bubble (d : Dev) : Nat := d.fld Reg.ARR_STATUS.BUBBLE

/-- The operating point. -/
def Dev.opPoint (d : Dev) : Nat := d.fld Reg.TGT_STATUS.OP

/-- The cap in force, in W. -/
def Dev.cap (d : Dev) : Nat := d.fld Reg.TGT_CAP.CAP_W

/-! ### Nodes (R340, R342) -/

/-- The unit of a node: its tower, 8 for the Midway and the engines. -/
def nodeUnit (i : Nat) : Nat :=
  if i < 224 then i / 28 else if i < 448 then (i - 224) / 28 else if i < 456 then i - 448 else 8

/-- A logic, Midway or DRAM node: one that counts for the rate of rise and the trip (R341, R344). -/
def nodeHot (i : Nat) : Bool := i < 448 || (456 ≤ i && i < 472)

/-- The limit of a node in 0.001 °C; a lid has none (R342). -/
def Dev.nodeLimit (d : Dev) (i : Nat) : Option Int :=
  if i < 224 then some 105000
  else if i < 448 then some (if d.tgt.polDram = 1 then 105000 else 95000)
  else if i < 456 then none
  else if i < 472 then some 105000
  else some 90000

/-- The guard of a node (R352). -/
def Dev.nodeGuard (d : Dev) (i : Nat) : Int := if d.on (Reg.TGT_MODEL_REC.GUARD (nodeUnit i)) then 5000 else 0

/-- The nodes with their temperatures. -/
def Dev.nodes (d : Dev) : List (Int × Nat) := d.tgt.temps.zipIdx

/-- The hottest of nodes, the first on a tie. -/
def hottest : List (Int × Nat) → Option (Int × Nat)
  | [] => none
  | x :: r =>
    match hottest r with
    | none => some x
    | some y => if y.1 ≤ x.1 then some x else some y

/-- The hottest of the nodes that meet a condition, in whole °C; 0 without a model yet. -/
def Dev.hotC (d : Dev) (p : Nat → Bool) : Nat :=
  match hottest (d.nodes.filter (fun e => p e.2)) with
  | some e => (e.1 / 1000).toNat
  | none => 0

/-- A node's rate: its change over the last 100 µs, 0 before there are 100 µs of model (R341). -/
def Dev.nodeRate (d : Dev) (e : Int × Nat) : Int :=
  match d.tgt.hist[9]? with
  | some old => e.1 - old.getD e.2 e.1
  | none => 0

/-- The greatest of numbers, 0 for none. -/
def maxInt (l : List Int) : Int := match l with
  | [] => 0
  | a :: r => r.foldl (fun m n => if m < n then n else m) a

/-- The least of numbers, 0 for none. -/
def minInt (l : List Int) : Int := match l with
  | [] => 0
  | a :: r => r.foldl (fun m n => if n < m then n else m) a

/-- The headroom, guards included (R342). -/
def Dev.headroomNow (d : Dev) : Int :=
  minInt (d.nodes.filterMap (fun e => (d.nodeLimit e.2).map (fun l => l - (e.1 + d.nodeGuard e.2))))

/-- The thermal ratio (R342). -/
def thermalRatio (h : Int) : Nat :=
  if 3000 ≤ h then 0
  else if 0 ≤ h then ceilDiv (2 * (3000 - h)).toNat 1000
  else min 15 (6 + ceilDiv (3 * (-h)).toNat 1000)

/-! ### Records (R354, R355) -/

/-- The reasons in force (R354). -/
def Dev.reasons (d : Dev) : Nat :=
  flag (0 < d.tgt.bCap || d.tgt.lastDown = 1) + 2 * flag (0 < d.tgt.bTh || d.tgt.lastDown = 2) +
    4 * d.fld Reg.TGT_STATUS.RAMP_SLOW + 8 * d.fld Reg.ARR_STATUS.EMERGENCY + 16 * d.fld Reg.TGT_STATUS.CRITICAL +
    32 * flag (d.tgt.polHigh != 0) + 64 * d.fld Reg.TGT_STATUS.TELEM_FAULT +
    128 * flag ((List.range 8).any (fun t => d.fld (Reg.TGT_TEMP.BAND t) = 3)) + 256 * d.fld Reg.TGT_STATUS.UNATTAINABLE

/-- A throttle record (R355). -/
def Dev.throttle (d : Dev) (ev value unit : Nat) : Dev :=
  if d.on Reg.TGT_CFG.LOG_EN then
    let n := d.fld Reg.TGT_LOG_HEAD.COUNT
    let b := leBytes 1 ev ++ leBytes 1 (d.opPoint + 8 * d.fld Reg.TGT_STATUS.MODEL_SRC + 16 * d.bubble) ++ leBytes 2 d.reasons ++
      leBytes 2 (d.fld Reg.TGT_POWER.MEAS_W) ++ leBytes 2 (d.fld Reg.TGT_POWER.EST_W) ++ leBytes 2 d.cap ++
      leBytes 2 (satTo 65535 value) ++ leBytes 1 unit ++ leBytes 1 (d.hotC (fun _ => true)) ++ [0, 0] ++ leBytes 4 n ++ zeros 4 ++ leBytes 8 d.now
    (d.write (midwayBase + 0x1000 * d.fld Reg.TGT_LOG_BASE.BASE + 32 * (n % 128)) b).bump Reg.TGT_LOG_HEAD.COUNT 1
  else d

/-- The ratio in force changes; a change of more than 2/16 is announced to the engines (R345, R346). -/
def Dev.setBubble (d : Dev) (b : Nat) : Dev :=
  let old := d.bubble
  let d := d.setFld Reg.ARR_STATUS.BUBBLE b
  if old + 2 < b || b + 2 < old then d.announce else d

/-! ### Telemetry and model source (R334, R336) -/

/-- Measured package power M in µW, the sum of V × I over the package rails; none when a rail did not return both readings
(R333, R334). -/
def measured : List (Option (Nat × Nat)) → Option Nat
  | [] => some 0
  | none :: _ => none
  | some e :: r => (measured r).map (fun m => e.1 * e.2 + m)

/-- A valid sample of M, in µW: more than 0 W and at most 4,500 W (R334). -/
def measValid (m : Option Nat) : Bool :=
  match m with
  | some m => 0 < m && m ≤ 4500000000
  | none => false

/-- Telemetry after a sample: an implausible one faults it, 1,000 valid ones in a row mend it. -/
def Dev.telemetry (d : Dev) (ok : Bool) : Dev :=
  if d.on Reg.TGT_STATUS.TELEM_FAULT then
    let g := if ok then d.tgt.good + 1 else 0
    let d := d.modTgt (fun t => { t with good := g })
    if 1000 ≤ g then
      ((d.modTgt (fun t => { t with goodAt := t.n, good := 0 })).setFld Reg.TGT_STATUS.TELEM_FAULT 0).throttle 5 0 0xFF
    else d
  else if ok then d
  else
    (((d.modTgt (fun t => { t with faultAt := t.n, good := 0 })).setFld Reg.TGT_STATUS.TELEM_FAULT 1).bumpSat
      Reg.TGT_TELEM.FAULTS 1).throttle 4 0 0xFF

/-- The distance of two numbers. -/
def dist (a b : Nat) : Nat := (a - b) + (b - a)

/-- The model source after a valid sample of m with estimate e. -/
def Dev.modelSource (d : Dev) (m e : Nat) : Dev :=
  let bad := m < 4 * dist e m
  if d.fld Reg.TGT_STATUS.MODEL_SRC = 0 then
    let n := if bad then d.tgt.disagree + 1 else 0
    let d := d.modTgt (fun t => { t with disagree := n, agree := 0 })
    if 10 ≤ n then
      (((d.modTgt (fun t => { t with disagree := 0 })).setFld Reg.TGT_STATUS.MODEL_SRC 1).bumpSat Reg.TGT_EVENTS.DISAGREE 1).throttle
        2 (dist e m / 1000) 0xFF
    else d
  else
    let n := if bad then 0 else d.tgt.agree + 1
    let d := d.modTgt (fun t => { t with agree := n, disagree := 0 })
    if 100000 ≤ n then
      ((d.modTgt (fun t => { t with agree := 0 })).setFld Reg.TGT_STATUS.MODEL_SRC 0).throttle 3 0 0xFF
    else d

/-- Measured power, estimate, telemetry, model source, P and energy of a sample (R333 to R336, R345, R356).
DESIGN CHOICE and DEDUCED (log entry 36). -/
def Dev.powerInputs (d : Dev) (x : PowerSample) : Dev :=
  let meas := measured x.rails
  let ok := measValid meas
  let m := if ok then meas.getD 0 / 1000 else 0
  let d := (d.setFld Reg.TGT_POWER.MEAS_W (m / 1000)).setFld Reg.TGT_POWER.EST_W (satTo 65535 (x.est / 1000))
  let d := d.telemetry ok
  let d := if ok then d.modelSource m x.est else d.modTgt (fun t => { t with disagree := 0, agree := 0 })
  let p := if d.on Reg.TGT_STATUS.TELEM_FAULT then 6 * x.est else 5 * max x.est m
  let e := d.tgt.rest + (if ok then 5 * m else 6 * x.est)
  let jump := 50000 < dist x.est d.tgt.est
  let d := (d.bump Reg.TGT_ENERGY.UJ (e / 500)).modTgt (fun t => { t with power := p, dyn := x.dyn, est := x.est, rest := e % 500 })
  let d := d.setFld Reg.TGT_TELEM.FAULT_S
    (if d.on Reg.TGT_STATUS.TELEM_FAULT then satTo 65535 ((d.tgt.n - d.tgt.faultAt) / 100000) else 0)
  if jump then d.announce else d

/-! ### Operating points (R337, R338) -/

/-- The relative dynamic power of a point, in thousandths. -/
def opR (p : Nat) : Nat := [1000, 664, 475, 357, 302, 269].getD p 269

/-- The code of a point's core divider: /4, /5, /6, /8. -/
def opDiv (p : Nat) : Nat := min p 3

/-- Two points have one voltage. -/
def sameVolt (i j : Nat) : Bool := i = j || (min i j = 2 && max i j = 3)

/-- The compensated ratio at a change from point i to j (R338). -/
def compensate (b i j : Nat) : Nat :=
  let num := (16 - b) * opR i
  clampNat 0 15 (16 - (2 * num + opR j) / (2 * opR j))

/-- The ratio in force after a change from point i to j: at 8/16 or above while the emergency hold lasts (R338, R345).
DESIGN CHOICE and DEDUCED (log entry 36). -/
def Dev.ratioAfter (d : Dev) (i j : Nat) : Nat :=
  max (compensate d.bubble i j) (8 * d.fld Reg.ARR_STATUS.EMERGENCY)

/-- OP_CHANGING: a change is in progress, or the critical action has still to reach P5 (R338, R343).
DESIGN CHOICE and DEDUCED (log entry 36). -/
def Dev.showChange (d : Dev) : Dev :=
  d.setOn Reg.TGT_STATUS.OP_CHANGING (d.tgt.change.isSome || (d.on Reg.TGT_STATUS.CRITICAL && d.opPoint != 5))

/-- A step up that waits for its regulator is abandoned: the previous voltage is commanded again (R338, R358). -/
def Dev.abandonStep (d : Dev) : Dev :=
  match d.tgt.change with
  | some c => if c.up && c.waits then
      ((d.modTgt (fun t => { t with change := none })).showChange).emit (.avs d.opPoint)
    else d
  | none => d

/-- A change of operating point begins: a step up raises the voltage first. -/
def Dev.beginStep (d : Dev) (j : Nat) : Dev :=
  let i := d.opPoint
  let up := j < i
  let waits := up && !sameVolt i j
  let d := (d.modTgt (fun t => { t with change := some ⟨j, up, waits, d.clk⟩ })).showChange
  if waits then d.emit (.avs j) else d

/-- The divider changes from the present point to point j: compensation, then the voltage for a step down, the record and
the announcement. -/
def Dev.changeDivider (d : Dev) (j : Nat) : Dev :=
  let i := d.opPoint
  let d := (d.setFld Reg.TGT_STATUS.OP j).setFld Reg.CLK_STATUS.CORE_DIV (opDiv j)
  let d := if opDiv i = opDiv j then d else d.bump Reg.CLK_DIV_CHANGES.COUNT 1
  let d := if d.on Reg.TGT_STATUS.CRITICAL then d else d.setBubble (d.ratioAfter i j)
  let d := if i < j && !sameVolt i j then d.emit (.avs j) else d
  let d := (d.modTgt (fun t => { t with change := none, lastChange := t.n + 1,
                                        lastDown := if j < i then 0 else t.lastDown })).showChange
  (d.throttle 1 i 0xFF).announce

/-- DIVIDER_CHANGE is due: a change awaits its alignment point, or the critical action has still to reach P5. -/
def Dev.dividerTarget (d : Dev) : Option Nat :=
  match d.tgt.change with
  | some c => if c.waits then none else some c.target
  | none => if d.on Reg.TGT_STATUS.CRITICAL && d.opPoint != 5 then some 5 else none

/-- DIVIDER_CHANGE: the core divider of all towers changes at the next alignment point (R28, R32, R338, R343). -/
def execDividerChange (s : State) : Host.Outcome State Fault Refusal :=
  s.run true (s.dev.live && s.dev.dividerTarget.isSome) (fun d =>
    match d.dividerTarget with
    | some j => d.changeDivider j
    | none => d)

/-- REGULATOR_REPORT: the regulator reports the commanded voltage, so the step up may go on (R32, R338). -/
def execRegulatorReport (s : State) : Host.Outcome State Fault Refusal :=
  s.run true (s.dev.live && s.dev.tgt.change.any (fun c => c.waits))
    (fun d => d.modTgt (fun t => { t with change := t.change.map (fun c => { c with waits := false }) }))

/-- STEP_UP_ABANDON: no report within 500 µs: the previous voltage is commanded again, a fault record is written, and no
step up is tried for 1 s (R338). -/
def execStepUpAbandon (s : State) : Host.Outcome State Fault Refusal :=
  s.run true (s.dev.live && s.dev.tgt.change.any (fun c => c.up && c.waits && c.since + us 500 ≤ s.dev.clk)) (fun d =>
    let j := (d.tgt.change.map (·.target)).getD 0
    (d.abandonStep.modTgt (fun t => { t with noUp := t.n + 100000 })).record (.mk1 0x0A 0x01 0xFF (leBytes 1 j)))

/-! ### Bands (R350) -/

/-- The band a temperature falls in. -/
def bandOf (t : Int) : Nat := if t ≤ 65000 then 0 else if t ≤ 85000 then 1 else if t ≤ 95000 then 2 else 3

/-- The lower edge of a band. -/
def lowerEdge (b : Nat) : Int := if b = 1 then 65000 else if b = 2 then 85000 else 95000

/-- The band of a tower, 8 for the Midway. -/
def Dev.bandAt (d : Dev) (u : Nat) : Nat := if u < 8 then d.fld (Reg.TGT_TEMP.BAND u) else d.fld Reg.TGT_STATUS.MIDWAY_BAND

/-- The nodes that a band is chosen from: the stack's DRAM nodes, or the Midway's. -/
def bandNode (u i : Nat) : Bool := if u < 8 then 224 ≤ i && i < 448 && nodeUnit i = u else 456 ≤ i && i < 472

/-- A tower's band, or the Midway's, changes: its registers, its record, the receiver sets of its links (R27, R350). -/
def Dev.setBand (d : Dev) (u b : Nat) : Dev :=
  let d := if u < 8 then
      ((d.setFld (Reg.TGT_TEMP.BAND u) b).setFld Reg.VLT_BAND.BAND (setBits (d.fld Reg.VLT_BAND.BAND) (2 * u) 2 b)).bandChanged u
    else
      (List.range 12).foldl (fun d e => d.bandChanged (8 + e)) (d.setFld Reg.TGT_STATUS.MIDWAY_BAND b)
  d.throttle 0x0B b u

/-- Promotion of a band, and the run that a demotion needs, at one update (R350). -/
def Dev.bandUpdate (d : Dev) (u : Nat) : Dev :=
  match hottest ((d.nodes.filter (fun e => bandNode u e.2)).map (fun e => (e.1 + d.nodeGuard e.2, e.2))) with
  | none => d
  | some e =>
    let raw := (d.nodes.find? (fun x => x.2 = e.2)).getD e
    let predicted := e.1 + 20 * d.nodeRate raw
    let b := d.bandAt u
    if b < bandOf predicted then
      (d.modTgt (fun t => { t with bandLow := Tab.set 0 t.bandLow u 0 })).setBand u (bandOf predicted)
    else
      let n := if 0 < b && e.1 ≤ lowerEdge b - 2000 then Tab.get 0 d.tgt.bandLow u + 1 else 0
      d.modTgt (fun t => { t with bandLow := Tab.set 0 t.bandLow u n })

/-- BAND_DEMOTION: 100 ms below the lower edge less 2 °C: one band lower (R350). -/
def execBandDemotion (u : Nat) (s : State) : Host.Outcome State Fault Refusal :=
  s.run (u < 9) (s.dev.live && 10000 ≤ Tab.get 0 s.dev.tgt.bandLow u && 0 < s.dev.bandAt u) (fun d =>
    (d.modTgt (fun t => { t with bandLow := Tab.set 0 t.bandLow u 0 })).setBand u (d.bandAt u - 1))

/-! ### The sample (R341 to R349) -/

/-- The model advances: the temperatures shown, the greatest rate (R340, R341). -/
def Dev.advanceModel (d : Dev) (temps : List Int) : Dev :=
  let d := d.modTgt (fun t => { t with temps := temps, hist := if t.temps.isEmpty then t.hist else (t.temps :: t.hist).take 10 })
  let rates := d.nodes.map (fun e => (d.nodeRate e, e.2))
  let d := d.modTgt (fun t => { t with rho := maxInt ((rates.filter (fun e => nodeHot e.2)).map (·.1)) })
  let d := (List.range 8).foldl (fun d u =>
    ((d.setFld (Reg.TGT_TEMP.LOGIC u) (d.hotC (fun i => i < 224 && nodeUnit i = u))).setFld (Reg.TGT_TEMP.DRAM u)
      (d.hotC (fun i => 224 ≤ i && i < 448 && nodeUnit i = u))).setFld (Reg.TGT_TEMP.RATE u)
      (wrapInt 8 (maxInt ((rates.filter (fun e => e.2 < 448 && nodeUnit e.2 = u)).map (·.1)) / 100))) d
  (d.setFld Reg.TGT_MIDWAY.MIDWAY (d.hotC (fun i => 456 ≤ i && i < 472))).setFld Reg.TGT_MIDWAY.ENGINE (d.hotC (fun i => 472 ≤ i))

/-- The node that trips: 115 °C or more in two updates running (R344). -/
def Dev.tripNode (d : Dev) : Option Nat :=
  ((d.nodes.filter (fun e => nodeHot e.2)).find? (fun (e : Int × Nat) => decide (115000 ≤ e.1) &&
    (match d.tgt.hist.head? with
     | some old => decide ((115000 : Int) ≤ old.getD e.2 0)
     | none => false))).map (·.2)

/-- A node that has reached its critical level, 5 °C above its limit (R342, R343). -/
def Dev.criticalNode (d : Dev) : Option (Int × Nat) :=
  d.nodes.find? (fun e => match d.nodeLimit e.2 with
    | some l => l + 5000 ≤ e.1
    | none => false)

/-- Every node is at or below its limit. -/
def Dev.allCool (d : Dev) : Bool :=
  d.nodes.all (fun e => match d.nodeLimit e.2 with
    | some l => e.1 ≤ l
    | none => true)

/-- The critical action is taken (R343). -/
def Dev.critical (d : Dev) : Dev :=
  match d.criticalNode with
  | none => d
  | some e =>
    if d.on Reg.TGT_STATUS.CRITICAL then d
    else
      let d := ((d.setFld Reg.TGT_STATUS.CRITICAL 1).bumpSat Reg.TGT_EVENTS.CRITICAL 1).setBubble 15
      ((d.modTgt (fun t => { t with calm := 0 })).showChange).throttle 0x0A (e.1 / 1000).toNat (nodeUnit e.2)

/-- The emergency hold begins, or begins again: b at 8/16 or above, a step up that waits is abandoned; it is counted and recorded
(R345, R355, R358). DESIGN CHOICE and DEDUCED (log entry 36). -/
def Dev.emergency (d : Dev) : Dev :=
  let d := (d.setFld Reg.ARR_STATUS.EMERGENCY 1).modTgt (fun t => { t with holdAt := t.n, calm := 0 })
  (((d.setBubble (max d.bubble 8)).abandonStep).bumpSat Reg.TGT_EVENTS.EMERGENCY 1).throttle 9 (d.tgt.rho / 10).toNat 0xFF

/-- What the rate of rise does at a sample (R345). -/
def Dev.rateActions (d : Dev) : Dev :=
  let d := if 600 < d.tgt.rho && !d.on Reg.TGT_STATUS.RAMP_SLOW then
      (d.setFld Reg.TGT_STATUS.RAMP_SLOW 1).throttle 8 (d.tgt.rho / 10).toNat 0xFF else d
  let d := d.modTgt (fun t => { t with rhoLow := if 600 < t.rho then 0 else t.rhoLow + 1 })
  if 1200 < d.tgt.rho && !d.on Reg.ARR_STATUS.EMERGENCY then d.emergency else d

/-- The cap's ratio (R346): array power a in mW at ratio b, P in fifths of a mW, the cap in W. -/
def capRatio (a b p cap : Nat) : Nat :=
  let den := 16 - b
  if 16 * a < 1000 * den then 0
  else if p * den + 5 * a * b ≤ 5000 * cap * den then 0
  else min 15 (ceilDiv (p * den + 5 * a * b - 5000 * cap * den) (5 * a))

/-- The target ratio (R346). -/
def Dev.retarget (d : Dev) (arr : Nat) : Dev :=
  let h := d.headroomNow
  let bc := capRatio arr d.bubble d.tgt.power d.cap
  let d := d.modTgt (fun t => { t with bCap := bc, bTh := thermalRatio h, headroom := h })
  let target := max bc (thermalRatio h)
  d.setFld Reg.TGT_STATUS.TARGET (if d.on Reg.ARR_STATUS.EMERGENCY then max target 8 else target)

/-- P is above the cap. -/
def Dev.overCap (d : Dev) : Bool := 5000 * d.cap < d.tgt.power

/-- The cap is found unattainable, or met again (R348). -/
def Dev.attain (d : Dev) : Dev :=
  if d.on Reg.TGT_STATUS.UNATTAINABLE then
    let n := if d.overCap then 0 else d.tgt.under + 1
    let d := d.modTgt (fun t => { t with under := n, overs := 0, overSum := 0 })
    if 100 ≤ n then ((d.modTgt (fun t => { t with under := 0 })).setFld Reg.TGT_STATUS.UNATTAINABLE 0).throttle 7 0 0xFF else d
  else
    let floor := d.opPoint = 5 && d.bubble = 15 && d.overCap
    let d := d.modTgt (fun t => { t with under := 0, overs := if floor then t.overs + 1 else 0,
                                         overSum := if floor then t.overSum + t.power else 0 })
    if 100 ≤ d.tgt.overs then
      let w := d.tgt.overSum / 500000
      (((d.setFld Reg.TGT_FLOOR.FLOOR_W w).setFld Reg.TGT_STATUS.UNATTAINABLE 1).bumpSat Reg.TGT_EVENTS.UNATTAINABLE 1).throttle 6 w 0xFF
    else d

/-- The note CAP_UNATTAINABLE with the floor power (R191, R349). -/
def capNote (w : Nat) : Ending := ⟨.doneNote, { Detail.auxed w with note := 3 }⟩

/-- The outstanding SET_CAP at a sample; `found`: R348 has just found the cap unattainable (R349, R358). -/
def Dev.capWait (d : Dev) (found : Bool) : Dev :=
  match d.tgt.setCap with
  | none => d
  | some c =>
    let c := { c with n := c.n + 1, ok := if d.overCap then 0 else c.ok + 1, sum := c.sum + d.tgt.power }
    let gone := fun (d : Dev) => d.modTgt (fun t => { t with setCap := none })
    if 100 ≤ c.ok then (gone d).finishKey c.key (Ending.plain .done)
    else if found then (gone d).finishKey c.key (capNote (d.fld Reg.TGT_FLOOR.FLOOR_W))
    else if c.n = 100 && d.on Reg.TGT_STATUS.UNATTAINABLE then
      ((gone d).setFld Reg.TGT_FLOOR.FLOOR_W (c.sum / 500000)).finishKey c.key (capNote (c.sum / 500000))
    else d.modTgt (fun t => { t with setCap := some c })

/-- Durations and counts of a sample (R346, R347, R354). -/
def Dev.countSample (d : Dev) : Dev :=
  let r := d.reasons
  let d := (onesOf 9 r).foldl (fun d i => d.bump (Reg.TGT_DUR.US i) 10) d
  let held := d.on Reg.ARR_STATUS.EMERGENCY || d.on Reg.TGT_STATUS.CRITICAL
  let b := d.bubble
  let cool := d.allCool
  d.modTgt (fun t => { t with
    n := t.n + 1, cnt := t.cnt + 1, bSum := t.bSum + b, pSum := t.pSum + t.power
    bZero := if b = 0 then t.bZero + 1 else 0
    calm := if held then 0 else t.calm + 1
    coolRun := if cool then t.coolRun + 1 else 0 })

/-- A sample of Tightrope (R336, R340 to R349). -/
def Dev.sample (d : Dev) (x : PowerSample) : Dev :=
  let d := match d.tgt.capNext with
    | some c => (d.setFld Reg.TGT_CAP.CAP_W c).modTgt (fun t => { t with capNext := none })
    | none => d
  let d := (d.powerInputs x).advanceModel x.temps
  match d.tripNode with
  | some i => d.trip (nodeUnit i) false (d.hotC (fun _ => true))
  | none =>
    let d := (List.range 9).foldl Dev.bandUpdate d.critical.rateActions
    let d := d.retarget x.arr
    let was := d.on Reg.TGT_STATUS.UNATTAINABLE
    let d := d.attain
    (d.capWait (!was && d.on Reg.TGT_STATUS.UNATTAINABLE)).countSample

/-- TIGHTROPE_SAMPLE: the 10 µs sample (R333 to R349). DESIGN CHOICE and DEDUCED (log entry 36). -/
def execTightropeSample (x : PowerSample) (s : State) : Host.Outcome State Fault Refusal :=
  s.run (x.rails.length = 16 && x.temps.length = 484) (s.dev.live && s.dev.tgt.sampleAt + us 10 ≤ s.dev.clk)
    (fun d => (d.modTgt (fun t => { t with sampleAt := d.clk })).sample x)

/-- The time between two moves of the ratio (R345, R346). -/
def Dev.rampTime (d : Dev) : Nat := if d.on Reg.TGT_STATUS.RAMP_SLOW then us 4 else us 2

/-- RATIO_RAMP: the ratio in force moves one sixteenth towards the target (R346); the critical action and R348 hold it. -/
def execRatioRamp (s : State) : Host.Outcome State Fault Refusal :=
  s.run true (s.dev.live && !s.dev.on Reg.TGT_STATUS.CRITICAL && !s.dev.on Reg.TGT_STATUS.UNATTAINABLE &&
    s.dev.bubble != s.dev.fld Reg.TGT_STATUS.TARGET && s.dev.tgt.rampAt + s.dev.rampTime ≤ s.dev.clk)
    (fun d => (d.modTgt (fun t => { t with rampAt := d.clk })).setBubble
      (if d.bubble < d.fld Reg.TGT_STATUS.TARGET then d.bubble + 1 else d.bubble - 1))

/-- A node that holds a sensor (R14): a site of a compute die, a DRAM node of the layer groups 0–3 and 12–15, a node of the
Midway, an engine. Which four of a stack's seven quads hold a layer's sensors the spec leaves open, so a reading of any
quad is taken. DESIGN CHOICE and DEDUCED (log entry 36). -/
def hasSensor (i : Nat) : Bool :=
  i < 224 || (i < 448 && ((i - 224) % 4 = 0 || (i - 224) % 4 = 3)) || 456 ≤ i

/-- SENSOR_READ: a reading corrects its model node by a quarter of the difference (R14, R340). -/
def execSensorRead (node : Nat) (t : Int) (s : State) : Host.Outcome State Fault Refusal :=
  s.run (node < 484 && hasSensor node) (s.dev.live && node < s.dev.tgt.temps.length)
    (fun d => d.modTgt (fun g => { g with temps := g.temps.modify node (fun x => x + (t - x) / 4) }))

/-- EMERGENCY_HOLD_END: the 1 ms hold ends, or begins again while the rate is above 12 °C/ms (R345). -/
def execEmergencyHoldEnd (s : State) : Host.Outcome State Fault Refusal :=
  s.run true (s.dev.live && s.dev.on Reg.ARR_STATUS.EMERGENCY && s.dev.tgt.holdAt + 100 ≤ s.dev.tgt.n) (fun d =>
    if 1200 < d.tgt.rho then d.emergency else d.setFld Reg.ARR_STATUS.EMERGENCY 0)

/-- RAMP_SLOW_END: the rate has been at or below 6 °C/ms for 1 ms (R345). -/
def execRampSlowEnd (s : State) : Host.Outcome State Fault Refusal :=
  s.run true (s.dev.live && s.dev.on Reg.TGT_STATUS.RAMP_SLOW && 100 ≤ s.dev.tgt.rhoLow)
    (fun d => d.setFld Reg.TGT_STATUS.RAMP_SLOW 0)

/-- CRITICAL_RELEASE: every node has been at or below its limit for 1 ms (R343). -/
def execCriticalRelease (s : State) : Host.Outcome State Fault Refusal :=
  s.run true (s.dev.live && s.dev.on Reg.TGT_STATUS.CRITICAL && s.dev.opPoint = 5 && 100 ≤ s.dev.tgt.coolRun)
    (fun d => d.setFld Reg.TGT_STATUS.CRITICAL 0)

/-- TELEMETRY_REASON_TIMER: telemetry faulted for more than 60 s sets the reason; good for 60 s clears it (R336). -/
def execTelemetryReasonTimer (s : State) : Host.Outcome State Fault Refusal :=
  s.run true (s.dev.live &&
    (if s.dev.on Reg.TGT_STATUS.TELEM_FAULT then s.dev.tgt.faultAt + 6000000 < s.dev.tgt.n
     else s.dev.tgt.goodAt + 6000000 ≤ s.dev.tgt.n))
    (fun d => if d.on Reg.TGT_STATUS.TELEM_FAULT then d.setReason 8 else d.clearReason 8)

/-! ### The tick (R339, R347, R351, R352) -/

/-- Record i gets its guard, with a throttle record, where it has none, and is marked for a refit (R352). -/
def Dev.guardRecord (d : Dev) (i : Nat) : Dev :=
  let had := d.on (Reg.TGT_MODEL_REC.GUARD i)
  let d := if d.on (Reg.TGT_MODEL_REC.REFIT_DUE i) then d
    else (d.setFld (Reg.TGT_MODEL_REC.REFIT_DUE i) 1).deferGap (.refit i)
  if had then d
  else (d.setFld (Reg.TGT_MODEL_REC.GUARD i) 1).throttle 0x0C (d.fld (Reg.TGT_MODEL_REC.POWER_BAND i)) i

/-- The power band of the last millisecond, and the guards it calls for (R351, R352). -/
def Dev.powerBand (d : Dev) : Dev :=
  if d.tgt.cnt = 0 then d
  else
    let p := d.tgt.pSum / d.tgt.cnt
    let b := min 15 (p / 1000000)
    let d := (d.setFld Reg.TGT_STATUS.POWER_BAND b).modTgt (fun t => { t with bandLog := (b :: t.bandLog).take 1000 })
    (List.range 9).foldl (fun d i =>
      if 1500000 * (d.fld (Reg.TGT_MODEL_REC.POWER_BAND i) + 1) < p then d.guardRecord i else d) d

/-- A step down is decided, and why: policy, the mean of b, or the headroom. -/
def Dev.stepDownWhy (d : Dev) : Option Nat :=
  if d.opPoint < d.tgt.polHigh then some 3
  else if d.opPoint < 5 && d.tgt.cnt != 0 && 4 * d.tgt.cnt ≤ d.tgt.bSum then some 1
  else if d.opPoint < 5 && d.tgt.headroom < 0 then some 2
  else none

/-- The predicted power of the point above is at or below 0.95 of the cap. -/
def Dev.upFits (d : Dev) : Bool :=
  let r := opR d.opPoint
  let u := opR (d.opPoint - 1)
  d.tgt.power * r + 5 * d.tgt.dyn * (u - r) ≤ 4750 * d.cap * r

/-- A step up is due (R347). -/
def Dev.stepsUp (d : Dev) : Bool :=
  0 < d.opPoint && d.tgt.polHigh < d.opPoint && 1000 ≤ d.tgt.bZero && 5000 ≤ d.tgt.headroom && 1000 ≤ d.tgt.calm &&
    d.tgt.noUp ≤ d.tgt.n && d.upFits

/-- An operating-point change may begin: none in progress, 1 ms since the last, no action that holds the point (R338). -/
def Dev.mayStep (d : Dev) : Bool :=
  d.tgt.change.isNone && !d.on Reg.TGT_STATUS.CRITICAL && !d.on Reg.TGT_STATUS.UNATTAINABLE &&
    (d.tgt.lastChange = 0 || d.tgt.lastChange + 99 ≤ d.tgt.n)

/-- OP_POINT_TICK: the 1 ms tick decides a step and the power band (R338, R339, R347, R351, R352). -/
def execOpPointTick (s : State) : Host.Outcome State Fault Refusal :=
  s.run true (s.dev.live && s.dev.tgt.tickAt + ms 1 ≤ s.dev.clk) (fun d =>
    let d := (d.modTgt (fun t => { t with tickAt := d.clk })).powerBand
    let d := if !d.mayStep then d
      else match d.stepDownWhy with
        | some w => (d.modTgt (fun t => { t with lastDown := w })).beginStep (d.opPoint + 1)
        | none => if d.stepsUp then d.beginStep (d.opPoint - 1) else d
    d.modTgt (fun t => { t with bSum := 0, pSum := 0, cnt := 0 }))

/-! ### Descriptors (R194, R195, R349, R353) -/

/-- SET_CAP: the cap comes into force at the next sample; an outstanding one completes DONE (R349). -/
def execSetCap (r : Nat) (s : State) : Host.Outcome State Fault Refusal :=
  s.run (r < 16) (s.dev.descDue r (fun j => j.opc = 0x70)) (fun d =>
    d.startDesc r
      (fun d j => firstFail [j.reserved [(24, 0, 32)], badIf (j.num 24 4 < 1200 || 3200 < j.num 24 4) 24,
        d.stateCheck [.ready, .running, .quiesced]])
      (fun d j =>
        let d := match d.tgt.setCap with
          | some c => d.finishKey c.key (Ending.plain .done)
          | none => d
        d.modTgt (fun t => { t with capNext := some (j.num 24 4), setCap := some ⟨j.key, 0, 0, 0⟩ })))

/-- A SET_POLICY of a key: its value in [lo, hi] is set and it completes DONE (R194). -/
def State.policy (s : State) (r : Nat) (is : Nat → Bool) (key lo hi : Nat) (f : Nat → Tgt → Tgt) : Host.Outcome State Fault Refusal :=
  s.run (r < 16) (s.dev.descDue r (fun j => j.opc = 0x71 && is (j.num 24 2))) (fun d =>
    d.startDesc r
      (fun d j => firstFail [j.reserved [(24, 0, 16), (28, 0, 32)], badIf (j.num 24 2 != key) 24,
        badIf (j.num 28 4 < lo || hi < j.num 28 4) 28, d.stateCheck [.ready, .running, .quiesced]])
      (fun d j => (d.modTgt (f (j.num 28 4))).finish j (Ending.plain .done)))

/-- SET_POLICY_DRAM_BAND (R342). -/
def execSetPolicyDramBand (r : Nat) (s : State) : Host.Outcome State Fault Refusal :=
  s.policy r (· = 1) 1 0 1 (fun v t => { t with polDram := v })

/-- SET_POLICY_HIGHEST_POINT (R339). -/
def execSetPolicyHighestPoint (r : Nat) (s : State) : Host.Outcome State Fault Refusal :=
  s.policy r (· = 2) 2 0 5 (fun v t => { t with polHigh := v })

/-- SET_POLICY_COLL_WATCHDOG (R289). -/
def execSetPolicyCollWatchdog (r : Nat) (s : State) : Host.Outcome State Fault Refusal :=
  s.policy r (· = 3) 3 1 10000 (fun v t => { t with polWatch := v })

/-- SET_POLICY_ATOMIC_RETRY (R329); a KEY that R195 does not list is refused here. -/
def execSetPolicyAtomicRetry (r : Nat) (s : State) : Host.Outcome State Fault Refusal :=
  s.policy r (fun k => k = 0 || 4 ≤ k) 4 100 10000 (fun v t => { t with polRetry := v })

/-- The most frequent of power bands, the lowest on a tie. -/
def commonBand (l : List Nat) : Nat :=
  (List.range 16).foldl (fun m b => if (l.filter (· = m)).length < (l.filter (· = b)).length then b else m) 0

/-- A refit of record i: installed when its error is no larger than the old coefficients', which the spec's fused data does
not let the model know, so a free value decides (R353). DESIGN CHOICE and DEDUCED (log entry 36). -/
def Dev.refit (d : Dev) (i : Nat) : Dev :=
  let ok := d.free % 2 = 1
  let d := ({ d.draw with stp := { d.stp with gapActs := d.stp.gapActs.erase (.refit i) } } : Dev).setFld (Reg.TGT_MODEL_REC.REFIT_DUE i) 0
  let d := if ok then
      ((d.setFld (Reg.TGT_MODEL_REC.POWER_BAND i) (commonBand d.tgt.bandLog)).setFld (Reg.TGT_MODEL_REC.GUARD i) 0).modTgt
        (fun t => { t with recAt := Tab.set 0 t.recAt i d.clk })
    else d
  d.throttle 0x0D (flag ok) i

/-- Every record is refitted, and the request completes (R353). -/
def Dev.refitAll (d : Dev) (j : Desc) : Dev := ((List.range 9).foldl Dev.refit d).finish j (Ending.plain .done)

/-- CAL_REQ_THERMAL (R353); a KIND that R194 does not list is refused here. -/
def execCalReqThermal (r : Nat) (s : State) : Host.Outcome State Fault Refusal :=
  s.run (r < 16) (s.dev.descDue r (fun j => j.opc = 0x90 && 3 ≤ j.num 24 1)) (fun d =>
    d.startDesc r
      (fun d j => firstFail [badIf (j.num 24 1 != 3) 24, j.reserved [(24, 0, 8)], d.stateCheck [.ready, .running, .quiesced]])
      (fun d j => d.atGap j Dev.refitAll))

/-- THERMTRIP_ASSERT: THERMTRIP_N is low for 100 ns or more: a thermal trip (R344, R432). -/
def execThermtripAssert (s : State) : Host.Outcome State Fault Refusal :=
  s.run true (s.dev.inSt [.boot, .recovery, .ready, .running, .quiesced]) (fun d => d.trip 0xFF true (d.hotC (fun _ => true)))

end Sys2Proof.Machine
end

