-- ==== Sys2Proof/Machine/Gap.lean ====
section
/-! DEFINITION. The work of a step gap in its order (R368): what other chapters defer to it. -/

namespace Sys2Proof.Machine

/-- The class of a deferred action in the order of R368; copies of SRAM rows (R377), which R368 does not list, go with the
retrains. -/
def GapAct.order : GapAct → Nat
  | .refit _ => 0
  | .d2dRetrain _ _ => 1
  | .pipeRetrain _ _ => 1
  | .sramRow _ _ _ => 1
  | .migration _ _ => 2
  | .portCal _ => 3
  | .feedMove _ => 3
  | .calReq _ _ => 4

/-- An SRAM row with a hard error is copied to a redundancy row of its bank; with all 8 in use the SRAM reason is set
(R377). -/
def Dev.gapSramRow (d : Dev) (core bank row : Nat) : Dev :=
  let k := 4096 * core + bank
  let n := Tab.get 0 d.sramRows k
  if 8 ≤ n then d.setReason 2
  else ({ d with sramRows := Tab.set 0 d.sramRows k (n + 1) } : Dev).record (.mk1 3 4 core
    (leBytes 1 bank ++ leBytes 2 row ++ leBytes 1 (7 - n)))

/-- A CAL_REQ or SPARE_CORE starts its work at its turn. -/
def Dev.gapDesc (d : Dev) (k : Nat × Nat) : Dev :=
  match d.desc? k with
  | none => d
  | some j =>
    if j.opc = 0xA0 then d.spareCoreGo j
    else match j.num 24 1 with
      | 0 => d.calOptGo j
      | 1 => d.calD2dGo j
      | 2 => d.calVaultGo j
      | _ => d.refitAll j

/-- An action at its turn, and whether it has started. A feed move goes only as the lowest of its group's ports that wait
(R239, R240). -/
def Dev.gapAct (d : Dev) (g : GapAct) : Dev × Bool :=
  match g with
  | .refit i => (d.refit i, true)
  | .d2dRetrain l b => (d.askRetrain l b, true)
  | .pipeRetrain c p =>
    (d.modVlt (fun v => { v with retrain := if v.retrain.contains (c, p) then v.retrain else v.retrain ++ [(c, p)] }), true)
  | .sramRow c b r => (d.gapSramRow c b r, true)
  | .migration c cause => ((d.askMigration c (if cause = 1 then .pipe else .bank) none).failRuns, true)
  | .portCal p => d.gapPortCal p
  | .feedMove p => d.gapFeedMove p
  | .calReq r s => (d.gapDesc (r, s), true)

/-- A feed move of a lower port of the same group waits. -/
def feedLater (l : List GapAct) (g : GapAct) : Bool :=
  match g with
  | .feedMove p => l.any (fun x => match x with
      | .feedMove q => q % 8 = p % 8 && q < p
      | _ => false)
  | _ => false

/-- One action of the gap: it leaves the list when it starts. `all` is the list as the gap found it. -/
def Dev.gapOne (all : List GapAct) (d : Dev) (g : GapAct) : Dev :=
  if feedLater all g then d
  else
    let e := d.gapAct g
    if e.2 then { e.1 with stp := { e.1.stp with gapActs := e.1.stp.gapActs.erase g } } else e.1

/-- The power band, plus 1, that a pipe's receiver set of a band was trained in; 0 for a set as fused. The set of band 0
is trained at BOOT, in power band 0. -/
def Dev.setTrained (d : Dev) (c p band : Nat) : Nat :=
  let v := Tab.get 0 d.vlt.sets (4 * (32 * d.column c + p) + band)
  if v = 0 && band = 0 then 1 else v

/-- The pipes of a core whose present receiver sets are not of the present power band. -/
def Dev.oldSets (d : Dev) (c : Nat) : List (Nat × Nat) :=
  ((List.range 20).filter (fun p =>
    d.pipeUp c p && d.setTrained c p (d.towerBand (towerOf c)) != d.fld Reg.TGT_STATUS.POWER_BAND + 1)).map (fun p => (c, p))

/-- The pipes of a core whose present receiver sets are not of the present power band are retrained one after another, for no
descriptor (R156). -/
def Dev.gapSets (d : Dev) (c : Nat) : Dev :=
  if d.coreGone c || (d.oldSets c).isEmpty || d.vlt.calJobs.any (fun j => (j.left ++ j.busy).any (fun e => e.1 = c)) then d
  else (d.modVlt (fun v => { v with calJobs := v.calJobs ++ [SweepJob.begin (16, 0) (d.oldSets c)] })).feedRetrains.closeVaultCals

/-- The mirror's full copy starts when its partner answers again (R162). -/
def Dev.gapResync (d : Dev) : Dev :=
  if d.locked && d.on Reg.VLT_MIRROR_PEER.ENABLE && d.fld Reg.VLT_MIRROR_PEER.STATE = 2 &&
      !d.peerGone (d.fld Reg.VLT_MIRROR_PEER.FLAT_ID) then d.startResync
  else d

/-- The actions of a gap, in order; those that cannot start now wait for the next one. -/
def Dev.runGap (d : Dev) : Dev :=
  let all := d.stp.gapActs
  let part := fun n => all.filter (fun g => g.order = n)
  let d := if d.on Reg.MFB_CFG.INV_AT_STEP then d.rlcDropAll else d
  let d := (part 0).foldl (Dev.gapOne all) d
  let d := (part 1).foldl (Dev.gapOne all) d
  let d := (List.range 192).foldl Dev.gapSets d
  let d := d.gapResync
  let d := (part 2).foldl (Dev.gapOne all) d
  let d := (part 3).foldl (Dev.gapOne all) d
  ((part 4).foldl (Dev.gapOne all) d).pumpPortCals

end Sys2Proof.Machine
end

