-- ==== Sys2Proof/Machine/Steps.lean ====
section
/-! DEFINITION. Steps, the step barrier, boundaries and fabric time (R359 to R373), QUIESCE and RESUME (R192, R197). -/

namespace Sys2Proof.Machine

/-- The step machinery changed. -/
def Dev.modStp (d : Dev) (f : Stp → Stp) : Dev := { d with stp := f d.stp }

/-- The number of the step in progress. -/
def Dev.stepNo (d : Dev) : Nat := d.fld Reg.STP_STEP.STEP

/-! ### The beginning of a step (R359, R367, R372) -/

/-- FALLBACK_US as it acts: 0 means 100,000, values below 1,000 act as 1,000 (R360). -/
def fallbackUs (n : Nat) : Nat := if n = 0 then 100000 else max 1000 n

/-- A held record is of an attempt or of the one after it. -/
def BarHeld.fits (e : BarHeld) (step attempt : Nat) : Bool :=
  (e.step = step && (e.attempt = attempt || e.attempt = (attempt + 1) % 128)) || (e.step = (step + 1) % 2 ^ 32 && e.attempt = 0)

/-- A step begins at a time under a configuration that holds its number: its attempt, its fall-back time, its barrier
records held so far; a device whose time is not LOCKED writes a record (R372). -/
def Dev.openStep (d : Dev) (cfg : StepCfg) (attempt start : Nat) : Dev :=
  let d := d.modStp (fun t => { t with
    phase := .open, begun := true, attempt := attempt, failed := false, cfg := cfg, next := none
    fallback := start + us (fallbackUs cfg.fallbackUs), tArr := 0, held := BarRec.init, round := 0
    early := t.early.filter (fun e => e.fits cfg.step attempt), merged := [], timed := false })
  let d := ({ d with budgetUsed := [], car := { d.car with seen := [], done := [] } } : Dev).setFld Reg.STP_STEP.STEP cfg.step
  let t := d.fld Reg.STP_STATUS.TIME_STATE
  if t = 2 then d else d.record (.mk1 0x0B 3 0xFF (leBytes 4 cfg.step ++ leBytes 1 t))

/-- The configuration of the next step after a step that committed or not: a STEP_CFG completed in it replaces all, otherwise
the number moves on after a commit (R359). -/
def Stp.nextCfg (t : Stp) (committed : Bool) : StepCfg :=
  match t.next with
  | some c => c
  | none => { t.cfg with step := if committed then (t.cfg.step + 1) % 2 ^ 32 else t.cfg.step }

/-- The attempt of a step under a number: one more when the number of the step before is kept, else 0. -/
def Dev.attemptFor (d : Dev) (step : Nat) : Nat := if d.stp.begun && step = d.stepNo then (d.stp.attempt + 1) % 128 else 0

/-! ### STEP_CFG, QUIESCE, RESUME -/

/-- The fields of a STEP_CFG (R194); SYNC_EARLY and SYNC_LATE of 0 mean 50. -/
def Desc.stepCfg (j : Desc) : StepCfg where
  step := j.num 24 4
  budget := j.num 28 1
  syncEn := j.fb 29 0 1 = 1
  early := if j.num 30 2 = 0 then 50 else j.num 30 2
  late := if j.num 32 2 = 0 then 50 else j.num 32 2
  fallbackUs := j.num 34 4
  group := j.num 38 2

/-- The checks of STEP_CFG: the group must be defined (R360). -/
def Dev.stepCfgCheck (d : Dev) (j : Desc) : Option Ending :=
  firstFail [j.reserved [(24, 0, 32), (28, 0, 8), (29, 0, 1), (30, 0, 16), (32, 0, 16), (34, 0, 32), (38, 0, 10)],
    badIf (200 < j.num 30 2) 30, badIf (200 < j.num 32 2) 32, badIf (d.group (j.num 38 2)).isEmpty 38,
    d.stateCheck [.ready, .running, .quiesced]]

/-- A STEP_CFG: in READY the first step begins at once; otherwise it waits for the next boundary (R359). -/
def Dev.stepCfgGo (d : Dev) (j : Desc) : Dev :=
  if d.st = .ready then ((d.setState .running).openStep j.stepCfg (d.attemptFor j.stepCfg.step) d.now).finish j (Ending.plain .done)
  else (d.modStp (fun t => { t with next := some j.stepCfg })).finish j (Ending.plain .done)

/-- STEP_CFG (R194, R359, R360). -/
def execStepCfg (r : Nat) (s : State) : Host.Outcome State Fault Refusal :=
  s.run (ringOk r) (s.dev.descDue r (fun j => j.opc = 0x60)) (fun d => d.startDesc r Dev.stepCfgCheck Dev.stepCfgGo)

/-- QUIESCE (R192, R197): it completes at the boundary of the step in progress. -/
def execQuiesce (r : Nat) (s : State) : Host.Outcome State Fault Refusal :=
  s.run (ringOk r) (s.dev.descDue r (fun j => j.opc = 0xC0)) (fun d =>
    d.startDesc r (fun d j => firstFail [j.reserved [], d.stateCheck [.running]])
      (fun d j => d.modStp (fun t => { t with quiesce := some j.key })))

/-- The step that a RESUME begins: the STEP_CFG that waits for it, or the number kept at the boundary. -/
def Dev.resumeGo (d : Dev) (j : Desc) : Dev :=
  let cfg := d.stp.nextCfg false
  ((d.setState .running).openStep cfg (d.attemptFor cfg.step) d.now).finish j (Ending.plain .done)

/-- RESUME (R192, R367): refused after a completed export (R398). -/
def execResume (r : Nat) (s : State) : Host.Outcome State Fault Refusal :=
  s.run (ringOk r) (s.dev.descDue r (fun j => j.opc = 0xC1)) (fun d =>
    d.startDesc r
      (fun d j => firstFail [j.reserved [], d.stateCheck [.quiesced], failIf d.flt.exported d.conflict])
      Dev.resumeGo)

/-! ### Arrival (R362) -/

/-- A program of a core holds a SCOPE 1 BARRIER. -/
def Dev.stepProgram (d : Dev) (c hdr : Nat) : Bool :=
  (List.range (d.progOps c hdr)).any (fun i => opCode (d.progOp c hdr i) = 0x32 && opBits (d.progOp c hdr i) 1 0 1 = 1)

/-- A core of a RUN does not hold back arrival. -/
def Dev.coreArrived (d : Dev) (r : Run) (c : Nat) : Bool :=
  match (d.coreIn r c).phase with
  | .stepBarrier => true
  | .ended => true
  | .stopped => true
  | .checking => false
  | _ => !d.stepProgram c (d.coreIn r c).hdr

/-- A RUN does not hold back arrival: it has its cores, its check is made. -/
def Dev.runArrived (d : Dev) (r : Run) : Bool := r.acquired && r.checked && r.cores.all (d.coreArrived r)

/-- The device arrives: RUNs, COLLs and update blocks of the step are done (R362).
DESIGN CHOICE and DEDUCED (log entry 33). -/
def Dev.arrives (d : Dev) : Bool :=
  d.st = .running && d.stp.phase = .open && d.runs.all d.runArrived && d.car.colls.isEmpty && d.blocksIdle

/-! ### The barrier (R363 to R365) -/

/-- The members of the barrier group. -/
def Dev.barGroup (d : Dev) : List Nat := d.group d.stp.cfg.group

/-- The round codes of the barrier. -/
def Dev.barRounds (d : Dev) : List Nat := roundsOf 2 d.barGroup.length

/-- This device's rank in the barrier group. -/
def Dev.barRank (d : Dev) : Nat := rankIn d.selfId d.barGroup

/-- Two records merged (R363). -/
def BarRec.merge (a b : BarRec) : BarRec where
  count := a.count + b.count
  failed := a.failed || b.failed
  tMin := min a.tMin b.tMin
  tMax := max a.tMax b.tMax
  lastRank := if a.tMax = b.tMax then min a.lastRank b.lastRank else if a.tMax < b.tMax then b.lastRank else a.lastRank

/-- The payload of a record packet (R364). -/
def Dev.barPayload (d : Dev) (code : Nat) : List Byte :=
  let h := d.stp.held
  leBytes 4 d.stp.cfg.step ++ leBytes 2 d.stp.cfg.group ++ leBytes 1 code ++ leBytes 1 (flag h.failed + 2 * d.stp.attempt) ++
    leBytes 4 h.count ++ leBytes 8 h.tMin ++ leBytes 8 h.tMax ++ leBytes 4 h.lastRank

/-- A record packet goes, and again until it is acknowledged. -/
def Dev.barSend (d : Dev) (code dst : Nat) : Dev :=
  let p := d.mkPkt 3 true 0x30 dst 0 0 (d.barPayload code)
  (d.send p).modStp (fun t => { t with sends := t.sends ++ [⟨t.fallback, p, d.clk⟩] })

/-- The record of a round from a sender, once it is here. -/
def Dev.barGot (d : Dev) (code src : Nat) : Option BarHeld :=
  d.stp.early.find? (fun e =>
    e.step = d.stp.cfg.step && e.attempt = d.stp.attempt && e.group = d.stp.cfg.group && e.round = code && e.src = src)

/-- A round's record is merged; in the extras round it takes the place of the one held. -/
def Dev.barMerge (d : Dev) (code : Nat) (e : BarHeld) : Dev :=
  d.modStp (fun t => { t with
    held := if code = 0xC0 then e.record else t.held.merge e.record
    early := t.early.erase e
    merged := (code, e.src) :: t.merged })

/-- The next half round, none when it still waits: a send, or the receipt of a record. -/
def Dev.barHalf (d : Dev) : Option Dev :=
  let g := d.barGroup
  match d.barRounds[d.stp.round / 2]? with
  | none => none
  | some code =>
    let on := fun (d : Dev) => d.modStp (fun t => { t with round := t.round + 1 })
    if d.stp.round % 2 = 0 then
      match sendOf true g.length code d.barRank with
      | some e => some (on (d.barSend code (g.getD e.1 0xFFFF)))
      | none => some (on d)
    else
      match recvOf true g.length code d.barRank with
      | none => some (on d)
      | some e =>
        match d.barGot code (g.getD e.1 0xFFFF) with
        | some x => some (on (d.barMerge code x))
        | none => none

/-- The rounds go on as far as they can. -/
def Dev.barRun : Nat → Dev → Dev
  | 0, d => d
  | n + 1, d =>
    match d.barHalf with
    | some e => Dev.barRun n e
    | none => d

/-- A core held at the step barrier goes on. -/
def Core.stepReleased (x : Core) : Core :=
  if x.phase = .stepBarrier then { x with phase := .running, next := x.next + 1 } else x

/-- Cores held at the step barrier are released and run their END (R365). -/
def Dev.releaseCores (d : Dev) : Dev :=
  (List.range 192).foldl (fun d c =>
    if (d.core c).phase = .stepBarrier then (d.modCore c (·.stepReleased)).bump Reg.ARR_SEQ_OPS.COUNT 1 else d) d

/-- The barrier releases when every round is done and COUNT is the group's size; FAILED decides (R365). -/
def Dev.barRelease (d : Dev) : Dev :=
  if d.barRounds.length ≤ d.stp.round / 2 && d.stp.held.count = d.barGroup.length && d.barGroup.contains d.selfId then
    let h := d.stp.held
    let d := (d.setFld Reg.STP_BAR.LAST_RANK h.lastRank).releaseCores
    if h.failed then (d.bumpSat Reg.STP_ENDS.ROLLBACKS 1).modStp (fun t => { t with phase := .rolling })
    else { d with stp := { d.stp with phase := .committing }, upd := { d.upd with phase := .committing } }
  else d

/-- The barrier of a device that has arrived. -/
def Dev.barPump (d : Dev) : Dev := if d.stp.phase = .arrived then (Dev.barRun (2 * d.barRounds.length) d).barRelease else d

/-- STEP_ARRIVAL: the device forms its own record and sends what its rounds ask for (R362, R363). -/
def execStepArrival (s : State) : Host.Outcome State Fault Refusal :=
  s.run true s.dev.arrives (fun d =>
    (d.modStp (fun t => { t with
      phase := .arrived, tArr := d.now, round := 0, held := ⟨1, t.failed, d.now, d.now, d.barRank⟩ })).barPump)

/-- How a record stands to the device's own step and attempt (R364). -/
inductive BarAge where
  | own | ahead | older | other
  deriving DecidableEq, Repr

/-- The number of the next step after a commit. DESIGN CHOICE and DEDUCED (log entry 33). -/
def Dev.nextStepNo (d : Dev) : Nat := (d.stp.nextCfg true).step

/-- The age of a step and attempt; numbers are compared modulo 2^32, attempts modulo 128. -/
def Dev.barAge (d : Dev) (step attempt : Nat) : BarAge :=
  let own := d.stepNo
  if step = own then
    (if attempt = d.stp.attempt then .own
     else if attempt = (d.stp.attempt + 1) % 128 then .ahead
     else if (d.stp.attempt + 128 - attempt) % 128 < 64 then .older
     else .other)
  else if (step = (own + 1) % 2 ^ 32 || step = d.nextStepNo) && attempt = 0 then .ahead
  else if (own + 2 ^ 32 - step) % 2 ^ 32 < 2 ^ 31 then .older
  else .other

/-- The record that a packet carries. -/
def barRecord (p : Packet) : BarHeld :=
  let l := p.payload
  ⟨leAt l 0 4, leAt l 7 1 / 2, leAt l 4 2, leAt l 6 1, p.src,
    ⟨leAt l 8 4, bit (leAt l 7 1) 0, leAt l 12 8, leAt l 20 8, leAt l 28 4⟩⟩

/-- The acknowledgement of a record (R364). -/
def Dev.barAck (d : Dev) (p : Packet) : Dev :=
  d.send (d.mkPkt 3 true 0x31 p.src 0 0 (slice p.payload 0 7 ++ leBytes 1 (leAt p.payload 7 1 / 2)))

/-- A record is kept for its round, unless it is here already or merged. -/
def Dev.barKeep (d : Dev) (e : BarHeld) (own : Bool) : Dev :=
  if (own && d.stp.merged.contains (e.round, e.src)) ||
      d.stp.early.any (fun x => x.step = e.step && x.attempt = e.attempt && x.group = e.group && x.round = e.round && x.src = e.src) then d
  else d.modStp (fun t => { t with early := t.early ++ [e] })

/-- BARRIER_RECORD (R364). DESIGN CHOICE and DEDUCED (log entry 34). -/
def execBarrierRecord (p : Packet) (s : State) : Host.Outcome State Fault Refusal :=
  s.run true (s.dev.up && s.dev.takes p 3 0x30) (fun d =>
    let d := d.take p
    let e := barRecord p
    match d.barAge e.step e.attempt with
    | .own => ((d.barAck p).barKeep e true).barPump
    | .ahead => (d.barAck p).barKeep e false
    | .older => d.barAck p
    | .other => d.bumpSat Reg.STP_BAR.STRAY 1)

/-- An acknowledgement answers a record packet. -/
def BarSend.answered (x : BarSend) (p : Packet) : Bool :=
  x.pkt.dst = p.src && slice x.pkt.payload 0 7 = slice p.payload 0 7 && leAt x.pkt.payload 7 1 / 2 = leAt p.payload 7 1 % 128

/-- BARRIER_ACK (R364). -/
def execBarrierAck (p : Packet) (s : State) : Host.Outcome State Fault Refusal :=
  s.run true (s.dev.up && s.dev.takes p 3 0x31) (fun d =>
    (d.take p).modStp (fun t => { t with sends := t.sends.filter (fun x => !x.answered p) }))

/-- Record packets that are still sent again: their attempt's fall-back time has not come. -/
def Dev.barLive (d : Dev) : List BarSend := d.stp.sends.filter (fun x => d.now < x.last)

/-- A record packet has waited 20 µs for its acknowledgement. -/
def Dev.barDue (d : Dev) (x : BarSend) : Bool := x.at' + us 20 ≤ d.clk

/-- BARRIER_RESEND: records unacknowledged for 20 µs go again; those past their attempt's F are given up (R364). -/
def execBarrierResend (s : State) : Host.Outcome State Fault Refusal :=
  s.run true (s.dev.st = .running && s.dev.stp.sends.any s.dev.barDue) (fun d =>
    let l := d.barLive
    let e := d.modStp (fun t => { t with sends := l.map (fun x => if d.barDue x then { x with at' := d.clk } else x) })
    (l.filter d.barDue).foldl (fun d x => d.send x.pkt) e)

/-! ### Boundaries (R366 to R368) -/

/-- The boundary falls at a time: the pulse, the gap's work, then QUIESCED or the next step (R367, R368). -/
def Dev.boundary (d : Dev) (time : Nat) (committed : Bool) : Dev :=
  let d := (d.emit (.syncPulse time)).setFld Reg.STP_BOUNDARY.TIME time
  let cfg := d.stp.nextCfg committed
  if d.stp.quiesce.isSome then
    ((d.modStp (fun t => { t with phase := .none, next := some cfg })).runGap).quiesceNow
  else
    let d := (d.openStep cfg (d.attemptFor cfg.step) time).modStp (fun t => { t with phase := .gap, gapStart := time })
    let d := d.runGap
    if d.stp.gapActs.isEmpty then d.modStp (fun t => { t with phase := .open }) else d

/-- Commit or rollback is complete at this moment, T_c: the boundary falls now, or the window is waited for (R366). -/
def Dev.stepOver (d : Dev) (committed : Bool) : Dev :=
  let tc := d.now
  let c := d.stp.cfg
  let d := d.modStp (fun t => { t with tc := tc, committed := committed })
  if !c.syncEn then d.boundary tc committed
  else
    let lo := tc - us c.early
    let stray := (d.stp.edges.filter (fun e => e < lo && d.stp.winEnd < e)).length
    let hit := d.stp.edges.any (fun e => lo ≤ e)
    let d := (d.bumpSat Reg.STP_SYNC.STRAY stray).modStp (fun t => { t with edges := [], winEnd := tc + us c.late })
    if hit then (d.bumpSat Reg.STP_SYNC.HIT 1).boundary tc committed
    else d.modStp (fun t => { t with phase := .syncWait })

/-- STEP_SYNC_EDGE: the edge is timestamped; inside the window that is waited for, it sets the boundary (R366, R433).
DESIGN CHOICE and DEDUCED (log entry 34). -/
def execStepSyncEdge (s : State) : Host.Outcome State Fault Refusal :=
  s.run true (s.dev.st = .running && (s.dev.stp.lastEdge = 0 || us 1 + s.dev.stp.lastEdge ≤ s.dev.clk + 1)) (fun d =>
    let d := d.modStp (fun t => { t with lastEdge := d.clk + 1 })
    if !d.stp.cfg.syncEn then d
    else if d.stp.phase = .syncWait && d.now ≤ d.stp.winEnd then
      (d.bumpSat Reg.STP_SYNC.HIT 1).boundary d.now d.stp.committed
    else d.modStp (fun t => { t with edges := d.now :: t.edges }))

/-- SYNC_WINDOW_END: no edge in the window: the boundary falls at its end (R366).
DESIGN CHOICE and DEDUCED (log entry 34). -/
def execSyncWindowEnd (s : State) : Host.Outcome State Fault Refusal :=
  s.run true (s.dev.st = .running && s.dev.stp.phase = .syncWait && s.dev.stp.winEnd ≤ s.dev.now) (fun d =>
    (d.bumpSat Reg.STP_SYNC.MISS 1).boundary d.stp.winEnd d.stp.committed)

/-- STP_CFG.GAP_MAX_US as it acts. -/
def Dev.gapMax (d : Dev) : Nat := us (max 1 (d.fld Reg.STP_CFG.GAP_MAX_US))

/-- STEP_GAP_END: actions not started wait for the next gap (R368). -/
def execStepGapEnd (s : State) : Host.Outcome State Fault Refusal :=
  s.run true (s.dev.st = .running && s.dev.stp.phase = .gap && s.dev.stp.gapStart + s.dev.gapMax ≤ s.dev.now) (fun d =>
    d.modStp (fun t => { t with phase := .open }))

/-! ### Commit, rollback, skew (R307, R308, R370) -/

/-- STP_CFG.SKEW_STEPS as it acts. -/
def Dev.skewSteps (d : Dev) : Nat := max 1 (d.fld Reg.STP_CFG.SKEW_STEPS)

/-- Nanoseconds of a difference of fabric time. -/
def ticksNs (n : Nat) : Nat := n * 5 / 4

/-- The skew report (R370). -/
def Dev.skewReport (d : Dev) : Dev :=
  let t := d.stp
  (d.record ⟨0x0B, 2, none, 0xFF, leBytes 4 t.skewFirst ++ leBytes 4 d.stepNo ++ leBytes 2 t.skewLast,
    leBytes 4 (ticksNs (t.skewSum / t.skewSteps)) ++ leBytes 4 (ticksNs t.skewMax) ++ leBytes 4 (ticksNs t.skewSpread)⟩).modStp
    (fun t => { t with skewSteps := 0, skewSum := 0, skewMax := 0, skewLast := 0, skewSpread := 0 })

/-- The skew and the spread of a committed step (R370). -/
def Dev.takeSkew (d : Dev) : Dev :=
  let h := d.stp.held
  let skew := d.stp.tArr - h.tMin
  let spread := h.tMax - h.tMin
  let d := (d.setFld Reg.STP_SKEW.LAST_NS (satTo 0xFFFF (skew / 8))).setFld Reg.STP_SKEW.SPREAD_NS (satTo 0xFFFF (spread / 8))
  let d := d.modStp (fun t => { t with
    skewFirst := if t.skewSteps = 0 then d.stepNo else t.skewFirst
    skewSteps := t.skewSteps + 1
    skewSum := t.skewSum + skew
    skewMax := max t.skewMax skew
    skewLast := t.skewLast + (if h.lastRank = d.barRank then 1 else 0)
    skewSpread := max t.skewSpread spread })
  if d.skewSteps ≤ d.stp.skewSteps then d.skewReport else d

/-- STEP_COMMIT_DONE: the commit is complete (R307, R365). -/
def execStepCommitDone (s : State) : Host.Outcome State Fault Refusal :=
  s.run true (s.dev.st = .running && s.dev.stp.phase = .committing && s.dev.blocksIdle && s.dev.mirrorOut = 0) (fun d =>
    ((d.updCommit.bump Reg.STP_ENDS.COMMITS 1).takeSkew).stepOver true)

/-- STEP_ROLLBACK: with no collective running, every undo record is restored (R308); after a timed fall-back every RUN has
stopped first (R369). -/
def execStepRollback (s : State) : Host.Outcome State Fault Refusal :=
  s.run true (s.dev.st = .running && s.dev.stp.phase = .rolling && s.dev.upd.phase != .rolling && s.dev.car.colls.isEmpty &&
      (!s.dev.stp.timed || s.dev.runs.isEmpty)) (fun d => d.updRestore)

/-- STEP_ROLLBACK_DONE: counters are cleared, staged descriptors applied, and the step is over (R308). -/
def execStepRollbackDone (s : State) : Host.Outcome State Fault Refusal :=
  s.run true (s.dev.st = .running && s.dev.stp.phase = .rolling && s.dev.upd.phase = .rolling) (fun d =>
    d.updRollback.stepOver false)

/-! ### The timed fall-back (R369) -/

/-- Every core of a RUN is held at the step barrier. -/
def Dev.runHeld (d : Dev) (r : Run) : Bool := r.acquired && r.cores.all (fun c => (d.coreIn r c).phase = .stepBarrier)

/-- A RUN meets the timed fall-back: held at the step barrier it completes, otherwise its cores stop with TIMEOUT. -/
def Dev.timeoutRun (d : Dev) (k : Nat × Nat) : Dev :=
  match d.run? k with
  | none => d
  | some r =>
    if d.runHeld r then
      (r.cores.foldl (fun d c => d.modCore c (fun x => { x with phase := .ended })) d).checkRunEnd k
    else if !r.acquired then d.finishRun r (Ending.plain .timeout)
    else
      let c := (r.cores.find? (fun c => !r.ends.any (fun e => e.1 = c))).getD 0
      (d.modRun k (fun r => { r with stopping := true, ends := Tab.set (Ending.plain .done) r.ends c (Ending.plain .timeout) })).checkRunEnd k

/-- The round that the barrier waits in, 0xFF for none. -/
def Dev.barWaits (d : Dev) : Nat := d.barRounds.getD (d.stp.round / 2) 0xFF

/-- TIMED_FALLBACK: F is reached before release: RUNs and COLLs end, and the step is rolled back (R369). -/
def execTimedFallback (s : State) : Host.Outcome State Fault Refusal :=
  s.run true (s.dev.st = .running && [.gap, .open, .arrived].contains s.dev.stp.phase && s.dev.stp.fallback ≤ s.dev.now) (fun d =>
    let arrived := d.stp.phase = .arrived
    let rec' : FaultRec := ⟨0x0B, 1, none, 0xFF, leBytes 4 d.stepNo ++ leBytes 1 d.barWaits ++ leBytes 1 (flag arrived),
      leBytes 8 d.stp.tArr⟩
    let d := d.modStp (fun t => { t with timed := true })
    let d := (d.runs.map (·.key)).foldl Dev.timeoutRun d
    let d := d.car.colls.foldl (fun d c => d.abortColl c 0 0xFFFF ⟨.timeout, Detail.auxed c.tag⟩) d
    let d := d.modStp (fun t => { t with phase := .rolling })
    (d.bumpSat Reg.STP_ENDS.TIMED 1).record rec')

/-! ### Fabric time (R225, R371) -/

/-- One cycle of the fabric time counter, with its trim in 0.01 ppm. -/
def Stp.tick (t : Stp) : Stp :=
  let n : Int := t.sub + 256 * t.trim
  let f : Int := t.frac + 256 + n / 100000000
  { t with
    sub := (n % 100000000).toNat
    frac := (f % 256).toNat
    time := ((t.time : Int) + f / 256).toNat }

/-- A difference of stamps, in 1/256 of 1.25 ns, in units of 0.125 ns. -/
def stampUnits (n : Int) : Int := n * 10 / 256

/-- What an offset does to the runs of blocks inside and outside the lock threshold of 10 ns, and to the time state. -/
def Dev.timeState (d : Dev) (off : Int) : Dev :=
  let inside := -2048 ≤ off && off ≤ 2048
  let d := d.modStp (fun t => { t with inRun := if inside then t.inRun + 1 else 0, outRun := if inside then 0 else t.outRun + 1 })
  let reset := fun (d : Dev) => d.modStp (fun t => { t with inRun := 0, outRun := 0 })
  match d.fld Reg.STP_STATUS.TIME_STATE with
  | 0 => (reset d).setFld Reg.STP_STATUS.TIME_STATE 1
  | 1 => if 100 ≤ d.stp.inRun then (reset d).setFld Reg.STP_STATUS.TIME_STATE 2 else d
  | 2 => if 10 ≤ d.stp.outRun then (reset d).setFld Reg.STP_STATUS.TIME_STATE 1 else d
  | _ => d

/-- The loop trims the rate, within 200 ppm; its gains are not given, so the new trim is a free value. -/
def Dev.newTrim (d : Dev) : Dev :=
  let v : Int := (d.free % 40001 : Nat) - 20000
  (d.draw.modStp (fun t => { t with trim := v })).setFld Reg.STP_TIME_OFFSET.TRIM (wrapInt 16 v)

/-- The counter is stepped by an offset. -/
def Stp.jump (t : Stp) (off : Int) : Stp :=
  let n := (256 * (t.time : Int) + t.frac - off).toNat
  { t with time := n / 256, frac := n % 256 }

/-- The moment from which this home takes atomics moves with fabric time when it steps (R328, R371). -/
def Dev.sinceMoved (d : Dev) (old : Nat) : Dev := { d with mfb := { d.mfb with since := d.mfb.since + d.now - old } }

/-- The offset of a TIME block on the port that disciplines this device (R371). -/
def Dev.discipline (d : Dev) (off : Int) : Dev :=
  let u := stampUnits off
  let d := d.setFld Reg.STP_TIME_OFFSET.OFFSET (wrapInt 16 (if u < -32768 then -32768 else if 32767 < u then 32767 else u))
  let d := (d.timeState off).newTrim
  if d.st != .running && (204800 < off || off < -204800) then (d.modStp (fun t => t.jump off)).sinceMoved d.now else d

/-- A TIME block: the link delay of R225, and the offset of R371 on the selected port. -/
def Dev.timeBlock (d : Dev) (p : Nat) (b : List Byte) : Dev :=
  let at' := fun i => (256 * (leAt b i 8 : Int) + leAt b (i + 8) 1)
  let t4 : Int := d.stamp
  let tx := at' 9
  let delay := ((t4 - at' 18) - (tx - at' 27)) / 2
  let d := d.setFld (Reg.OPT_LINK_DELAY.DELAY p) (wrapInt 24 (stampUnits delay))
  let d := d.modPort p (fun x => { x with echoTx := tx.toNat, echoRx := t4.toNat, timeSeen := true })
  if !d.on Reg.STP_TIME_CFG.ROOT && d.timePort = some p then d.discipline (t4 - (tx + delay)) else d

/-- TIME (R225, R371). DESIGN CHOICE and DEDUCED (log entry 35). -/
def execTime (p : Nat) (b : List Byte) (s : State) : Host.Outcome State Fault Refusal :=
  s.run (portOk p) (s.dev.live && s.dev.carries p && ctlIs b 4) (fun d => (d.blkHeader p b).timeBlock p b)

end Sys2Proof.Machine
end

