-- ==== Sys2Proof/Machine/Handover.lean ====
section
/-! DEFINITION. Handover of a device's state (R394 to R399) and takeover of its flat ID (R263 to R265). -/

namespace Sys2Proof.Machine

/-- The handover changed. -/
def Dev.modHo (d : Dev) (f : Handover → Handover) : Dev :=
  { d with flt := { d.flt with handover := d.flt.handover.map f } }

/-- FLT_HANDOVER shows a phase. -/
def Dev.showHo (d : Dev) (isExport : Bool) (phase : Nat) : Dev :=
  (d.setFld Reg.FLT_HANDOVER.ROLE (if isExport then 1 else 2)).setFld Reg.FLT_HANDOVER.PHASE phase

/-- Units of one logical core: its SRAM, then its vault (R395). -/
def coreUnits : Nat := 384 + 65536

/-- What a unit is: its first device address and its logical core, none for the parts that are not memory. -/
def Dev.unitAt (d : Dev) (cores n : Nat) : Option (Nat × Option Nat) :=
  let l := onesOf 192 cores
  match l[n / coreUnits]? with
  | some c =>
    let k := n % coreUnits
    some (if k < 384 then sramBase c + 65536 * k else vaultBase c + 65536 * (k - 384), some c)
  | none => (d.midwayUnits[n - l.length * coreUnits]?).map (fun u => (midwayBase + 65536 * u, none))

/-- The mask of the ACTIVE logical cores. -/
def Dev.activeMask (d : Dev) : Nat := (List.range 192).foldl (fun m c => if d.coreSt c = 0 then setBit m c true else m) 0

/-- Units in all of an export. -/
def Dev.unitCount (d : Dev) (cores : Nat) : Nat :=
  coreCount cores * coreUnits + d.midwayUnits.length + Config.handoverExtra

/-! ### The two descriptors (R396) -/

/-- The manifest (R395). -/
def Dev.sendManifest (d : Dev) (h : Handover) : Dev :=
  d.send (d.mkPkt 2 true 0x50 h.peer 0 0
    (leBytes 2 d.selfId ++ [0, 0] ++ leBytes 4 (crc32c (leBytes 8 (d.fld Reg.ARR_SR_KEY.KEY))) ++ leBytes 24 h.cores ++ leBytes 8 h.units))

/-- A handover begins. -/
def Dev.beginHo (d : Dev) (j : Desc) (isExport : Bool) (takeId cores units : Nat) : Dev :=
  let h : Handover := ⟨isExport, j.num 24 2, takeId, j.key, .manifest, d.clk, d.clk, d.clk, cores, units, 0, 0, [], [], [], 0, []⟩
  let d := (({ d with flt := { d.flt with handover := some h } } : Dev).showHo isExport 1).setFld Reg.FLT_HANDOVER.UNITS 0
  if d.peerGone h.peer then d.abortHandover h ⟨.peerLost, Detail.auxed h.peer⟩
  else if isExport then d.sendManifest h
  else d

/-- HANDOVER_EXPORT: it waits for migrations, then sends its manifest (R168, R396, R398). -/
def execHandoverExport (r : Nat) (s : State) : Host.Outcome State Fault Refusal :=
  s.run (ringOk r) (s.dev.descDue r (fun j => j.opc = 0xB0) && s.dev.migs.isEmpty) (fun d =>
    d.startDesc r
      Dev.exportCheck
      (fun d j => d.beginHo j true d.selfId d.activeMask (d.unitCount d.activeMask)))

/-- HANDOVER_IMPORT: it waits for migrations, then for a manifest (R168, R396). -/
def execHandoverImport (r : Nat) (s : State) : Host.Outcome State Fault Refusal :=
  s.run (ringOk r) (s.dev.descDue r (fun j => j.opc = 0xB1) && s.dev.migs.isEmpty) (fun d =>
    d.startDesc r
      Dev.importCheck
      (fun d j => d.beginHo j false (j.num 26 2) 0 0))

/-- The handover in progress has a role and a phase. -/
def Dev.hoIs (d : Dev) (isExport : Bool) (phase : HoPhase) : Bool :=
  d.flt.handover.any (fun h => h.isExport = isExport && h.phase = phase)

/-- MANIFEST_RESEND: the manifest goes again every 1 ms until it is answered (R396). -/
def execManifestResend (s : State) : Host.Outcome State Fault Refusal :=
  s.run true (s.dev.up && s.dev.hoIs true .manifest && s.dev.flt.handover.any (fun h => h.asked + ms 1 ≤ s.dev.clk)) (fun d =>
    match d.flt.handover with
    | some h => (d.modHo (fun h => { h with asked := d.clk })).sendManifest h
    | none => d)

/-- FLT_CFG.HANDOVER_WAIT_S; 0 acts as 1. -/
def Dev.hoWait (d : Dev) : Nat := sec (max 1 (d.fld Reg.FLT_CFG.HANDOVER_WAIT_S))

/-- HANDOVER_WAIT_TIMEOUT: no manifest, or no answer, within the limit (R396). -/
def execHandoverWaitTimeout (s : State) : Host.Outcome State Fault Refusal :=
  s.run true (s.dev.up && s.dev.flt.handover.any (fun h => h.phase = .manifest && h.start + s.dev.hoWait ≤ s.dev.clk)) (fun d =>
    match d.flt.handover with
    | some h => d.abortHandover h (Ending.plain .timeout)
    | none => d)

/-- HANDOVER_STALL: no progress for 1 s (R396). DESIGN CHOICE (log entry 38). -/
def execHandoverStall (s : State) : Host.Outcome State Fault Refusal :=
  s.run true (s.dev.up && s.dev.flt.handover.any (fun h =>
      (h.phase = .copy || (h.phase = .takeover && h.isExport)) && h.progress + sec 1 ≤ s.dev.clk)) (fun d =>
    match d.flt.handover with
    | some h => d.abortHandover h (Ending.plain .timeout)
    | none => d)

/-! ### The source (R395, R396) -/

/-- The poisoned units of memory that meet a 64 KiB unit. -/
def Dev.unitPoison (d : Dev) (a : Nat) : List Nat :=
  (d.poison.map (·.1)).filter (fun p => overlaps p (poisonUnit p) a 65536)

/-- The packets of a unit: 16 of data, then its end. DESIGN CHOICE (log entry 38). -/
def Dev.unitPackets (d : Dev) (h : Handover) (n a : Nat) (l : List Byte) (bad : Bool) : Dev :=
  let d := (List.range 16).foldl (fun d i => d.send (d.mkPkt 2 true 0x52 h.peer (a + 4096 * i) 0 (slice l (4096 * i) 4096))) d
  d.send (d.mkPkt 2 true 0x53 h.peer 0 0 (leBytes 4 n ++ leBytes 4 (crc32c l) ++ leBytes 1 (flag bad)))

/-- A unit is sent: bytes that cannot be read are fetched from the buddy where its mirror holds them, otherwise the unit is
marked (R396). A part that is not memory goes as bytes the spec does not lay out. -/
def Dev.sendUnit (d : Dev) (n : Nat) : Dev :=
  match d.flt.handover with
  | none => d
  | some h =>
    match d.unitAt h.cores n with
    | none => (d.unitPackets h n (d.free % 2 ^ 40) ((List.range 65536).map (Config.freeByte d.fresh)) false).draw
    | some (a, core) =>
      let l := d.unitPoison a
      let l' := d.read a 65536
      let bad := l.any (fun p => !d.mirrorHolds p)
      let fetched := l.filter d.mirrorHolds
      let d : Dev := { d with poison := d.poison.filter (fun e => !fetched.contains e.1) }
      let d := d.bumpSat Reg.VLT_UE.BUDDY fetched.length
      let d := match core with
        | none => d
        | some c => d.modHo (fun h => { h with
            lost := if bad then setBit h.lost c true else h.lost
            buddy := if fetched.isEmpty then h.buddy else (n, c, crc32c l') :: h.buddy })
      d.unitPackets h n a l' bad

/-- Units go while at most 64 are unacknowledged. -/
def Dev.sendUnits : Nat → Dev → Dev
  | 0, d => d
  | k + 1, d =>
    match d.flt.handover with
    | none => d
    | some h =>
      if h.sent < h.units && h.sent < h.verified + 64 then
        Dev.sendUnits k ((d.sendUnit h.sent).modHo (fun h => { h with sent := h.sent + 1 }))
      else d

/-- Units wait to be sent for the mirror fence: memory holds sectors to be fetched from the buddy while mirror writes are out
(R161). Answers of the spare stay at the input meanwhile. DESIGN CHOICE (log entry 38). -/
def Dev.unitsWait (d : Dev) : Bool := d.fenceHolds (d.poison.map (·.1))

/-- A packet of a handover of a role comes from its peer. -/
def Dev.hoTakes (d : Dev) (p : Packet) (op : Nat) : Bool := d.up && d.canTake p && p.cls = 2 && p.op = op

/-- ACCEPT: the copy starts, or the export ends (R396). -/
def execAccept (p : Packet) (s : State) : Host.Outcome State Fault Refusal :=
  s.run true (s.dev.hoTakes p 0x51 && !s.dev.unitsWait) (fun d =>
    let d := d.take p
    match d.flt.handover with
    | none => d
    | some h =>
      if !h.isExport || h.phase != .manifest || p.src != h.peer then d
      else match leAt p.payload 0 1 with
        | 0 => Dev.sendUnits 64 ((d.modHo (fun h => { h with phase := .copy, progress := d.clk })).showHo true 2)
        | 1 => d.endHandover h (Ending.plain .noResource)
        | _ => d.endHandover h d.conflict)

/-- UNIT_ACK: more units flow, or one goes again; asked for a second time, the handover is aborted (R396, R397). -/
def execUnitAck (p : Packet) (s : State) : Host.Outcome State Fault Refusal :=
  s.run true (s.dev.hoTakes p 0x54 && !s.dev.unitsWait) (fun d =>
    let d := d.take p
    match d.flt.handover with
    | none => d
    | some h =>
      if !h.isExport || h.phase != .copy || p.src != h.peer then d
      else
        let v := max h.verified (leAt p.payload 0 4)
        let again := leAt p.payload 4 4
        let d := (d.modHo (fun h => { h with
          verified := v, progress := d.clk, buddy := h.buddy.filter (fun e => v ≤ e.1) })).setFld Reg.FLT_HANDOVER.UNITS v
        let d := if again = 0xFFFFFFFF then d
          else if h.resent.contains again then d.abortHandover h ⟨.deviceFault, Detail.auxed d.flt.seq⟩
          else (d.modHo (fun h => { h with resent := again :: h.resent })).sendUnit again
        if h.units ≤ v && d.hoIs true .copy then (d.modHo (fun h => { h with phase := .takeover })).showHo true 3
        else Dev.sendUnits 64 d)

/-- The outcome of a handover whose units are all verified: STATE_LOST with the lowest logical core lost (R397). -/
def Handover.outcome (h : Handover) : Ending :=
  match (onesOf 192 h.lost).head? with
  | none => Ending.plain .done
  | some c => Ending.lost c

/-- HANDOVER_DONE: the export completes: the flat ID is exported, its entry a tree entry with MOVED (R263, R396 to R398). -/
def execHandoverDone (p : Packet) (s : State) : Host.Outcome State Fault Refusal :=
  s.run true (s.dev.hoTakes p 0x55) (fun d =>
    let d := d.take p
    match d.flt.handover with
    | none => d
    | some h =>
      if !h.isExport || h.phase = .manifest || (p.src != h.peer && p.src != h.takeId) then d
      else
        let own := d.selfId
        let d := d.setFld Reg.FAB_SELF.EXPORTED 1
        let d := d.changeEntry own (fun d => (d.setFld (Reg.FAB_ROUTE.KIND own) 2).setFld (Reg.FAB_ROUTE.MOVED own) 1)
        let d : Dev := { d with flt := { d.flt with exported := true } }
        d.endHandover h h.outcome)

/-! ### The spare (R264, R395 to R397) -/

/-- The spare's answer to a manifest: a core missing, another key, or accepted. -/
def Dev.manifestCode (d : Dev) (l : List Byte) : Nat :=
  if (onesOf 192 (leAt l 8 24)).any (fun c => d.coreSt c != 0) then 1
  else if leAt l 4 4 != crc32c (leBytes 8 (d.fld Reg.ARR_SR_KEY.KEY)) then 2
  else 0

/-- The answer goes to the source. -/
def Dev.sendAccept (d : Dev) (h : Handover) (code : Nat) : Dev := d.send (d.mkPkt 2 true 0x51 h.peer 0 0 (leBytes 1 code))

/-- MANIFEST: checked for cores and key, and answered (R396). -/
def execManifest (p : Packet) (s : State) : Host.Outcome State Fault Refusal :=
  s.run true (s.dev.hoTakes p 0x50) (fun d =>
    let d := d.take p
    match d.flt.handover with
    | none => d
    | some h =>
      if h.isExport || leAt p.payload 0 2 != h.peer then d
      else if h.phase = .manifest then
        match d.manifestCode p.payload with
        | 0 =>
          let d := (d.modHo (fun h => { h with
            phase := .copy, progress := d.clk, cores := leAt p.payload 8 24, units := leAt p.payload 32 8 })).showHo false 2
          d.sendAccept h 0
        | 1 => (d.sendAccept h 1).endHandover h (Ending.plain .noResource)
        | _ => (d.sendAccept h 2).endHandover h d.conflict
      else if h.phase = .copy then d.sendAccept h 0
      else d)

/-- HANDOVER_DATA: written at its address, and kept for the unit's check (R395, R396). -/
def execHandoverData (p : Packet) (s : State) : Host.Outcome State Fault Refusal :=
  s.run true (s.dev.hoTakes p 0x52) (fun d =>
    let d := d.take p
    match d.flt.handover with
    | none => d
    | some h =>
      if h.isExport || h.phase != .copy || p.src != h.peer then d
      else
        let d := d.modHo (fun h => { h with progress := d.clk, unitBuf := h.unitBuf ++ p.payload })
        if memRange p.da p.payload.length then d.store p.da p.payload else d)

/-- An imported binding: the fields of its UPD_BIND, and its program header as it now stands in Midway SRAM. -/
def Dev.importBind (d : Dev) (e : List Byte × Nat × Bool) : Binding :=
  let j : Desc := ⟨0, 0, e.1, 0⟩
  { j.binding (d.read (midwayBase + j.num 48 4) 32) e.2.1 with damaged := e.2.2 }

/-- A routing entry is set from its word. -/
def Dev.putEntry (d : Dev) (i w : Nat) : Dev :=
  let d := ((d.setFld (Reg.FAB_ROUTE.KIND i) (w % 4)).setFld (Reg.FAB_ROUTE.X i) (bits w 2 5)).setFld (Reg.FAB_ROUTE.Y i) (bits w 7 5)
  (((d.setFld (Reg.FAB_ROUTE.Z i) (bits w 12 5)).setFld (Reg.FAB_ROUTE.JOB i) (bits w 17 1)).setFld (Reg.FAB_ROUTE.LOST i)
    (bits w 18 1)).setFld (Reg.FAB_ROUTE.MOVED i) (bits w 19 1)

/-- An imported routing entry: KIND torus becomes KIND tree, the taken ID's entry KIND self; a change is recorded (R246,
R264). -/
def Dev.importEntry (takeId : Nat) (d : Dev) (e : Nat × Nat) : Dev :=
  let d := d.putEntry e.1 e.2
  let kind := if e.1 = takeId then 3 else if e.2 % 4 = 1 then 2 else e.2 % 4
  if kind = e.2 % 4 then d else d.changeEntry e.1 (fun d => d.setFld (Reg.FAB_ROUTE.KIND e.1) kind)

/-- The imported table stands in place of the spare's own, the spare answers to the taken ID, and the table is checked (R247,
R264). -/
def Dev.importTable (d : Dev) (takeId : Nat) (l : List (Nat × Nat)) : Dev :=
  let d : Dev := { d with regs := d.regs.filter (fun e => !(64 * 0x800000 ≤ e.1 && e.1 < 64 * 0x880000)) }
  let d := l.foldl (Dev.importEntry takeId) d
  let d := d.setFld Reg.FAB_LOST.ENTRIES (l.filter (fun e => bit e.2 18)).length
  (d.setFld Reg.FAB_SELF.FLAT_ID takeId).selfCheck

/-- The parts that are not memory stand in place of the spare's own (R394). -/
def Dev.importParts (d : Dev) (x : HandoverParts) : Dev :=
  let d := x.states.foldl (fun d e => if d.coreSt e.1 = e.2 then d else d.setCoreSt e.1 e.2 (d.siteOf e.1) 0x1F) d
  let cfg := fun (l : List Byte) => (⟨0, 0, l, 0⟩ : Desc).stepCfg
  let d : Dev := { d with
    car := { d.car with groups := Tab.setAll [] [] x.groups }
    uLive := Tab.setAll 0 [] x.live
    uUnf := Tab.setAll 0 [] x.unf
    uOvf := Tab.setAll 0 [] x.ovf
    upd := { d.upd with
      binds := x.binds.foldl (fun l e => insertBind (d.importBind e) l) []
      frozen := Tab.setAll false [] (x.frozen.map (fun i => (i, true)))
      cUnf := Tab.setAll 0 [] x.cUnf
      cOvf := Tab.setAll 0 [] x.cOvf }
    stp := { d.stp with
      begun := true, attempt := x.attempt, cfg := { cfg x.cfg with step := x.step }, next := x.next.map cfg }
    mfb := { d.mfb with since := d.now } }
  (d.putEvt (Tab.setAll 0 [] x.evt)).countDamaged.setFld Reg.STP_STEP.STEP x.step

/-- A takeover notice (R264). -/
def Dev.sendTake (d : Dev) (id upto : Nat) : Dev := d.send (d.mkPkt 3 true 2 upto 0 0 (leBytes 2 id ++ [0, 0]))

/-- The import completes: cores with unrestorable bytes are LOST, a mirror is to copy at the first step gap, Done goes over
the tree to the source (R394, R396, R397). -/
def Dev.importDone (d : Dev) : Dev :=
  match d.flt.handover with
  | none => d
  | some h =>
    let d := d.numbered (fun n d => d.toTree n none (d.mkPkt 2 true 0x55 h.peer 0 0 []) false)
    let d := (onesOf 192 h.lost).foldl (fun d c => d.coreLost c) d
    let d := if d.on Reg.VLT_MIRROR_PEER.ENABLE then d.setMirror 2 else d
    d.endHandover h h.outcome

/-- The routing part ends: members that never acknowledged are counted and named (code 0x07/0x02), and the import
completes (R264). -/
def Dev.takeoverEnd (d : Dev) (lost : List Nat) : Dev :=
  let d : Dev := { d with fab := { d.fab with takeover := none } }
  let d := d.setFld Reg.FAB_TAKEOVER.UNACKED (satTo 0xFF lost.length)
  let d := if lost.isEmpty then d
    else d.record ⟨7, 2, none, 0xFF, leBytes 2 lost.length, ((lost.take 84).map (leBytes 2)).flatten⟩
  d.importDone

/-- All units are verified: the spare takes over the flat ID and tells every member (R264). -/
def Dev.takeOver (d : Dev) (h : Handover) (x : HandoverParts) : Dev :=
  let d := (d.modHo (fun h => { h with phase := .takeover })).showHo false 3
  let d := (d.importParts x).importTable h.takeId x.routes
  let members := (x.routes.filter (fun e => bit e.2 17 && !bit e.2 18 && e.1 != h.takeId && e.1 != 0xFFFF)).map (·.1)
  let d := d.setFld Reg.FAB_TAKEOVER.LAST_ID h.takeId
  if members.isEmpty then d.takeoverEnd []
  else
    let d : Dev := { d with fab := { d.fab with takeover := some ⟨h.takeId, Tab.setAll 0 [] (members.map (fun m => (m, 1))), d.clk⟩ } }
    members.foldl (fun d m => d.sendTake h.takeId m) d

/-- Units verified without gap, from n on. -/
def gapFree (got : List Nat) (n : Nat) : Nat → Nat
  | 0 => n
  | k + 1 => if got.contains n then gapFree got (n + 1) k else n

/-- The spare's acknowledgement. -/
def Dev.ackUnit (d : Dev) (h : Handover) (v again : Nat) : Dev :=
  d.send (d.mkPkt 2 true 0x54 h.peer 0 0 (leBytes 4 v ++ leBytes 4 again))

/-- A unit's check at the spare (R396, R397). -/
def Dev.unitEnd (d : Dev) (h : Handover) (p : Packet) (x : HandoverParts) : Dev :=
  let n := leAt p.payload 0 4
  let ok := crc32c h.unitBuf = leAt p.payload 4 4
  let lost := match (if leAt p.payload 8 1 % 2 = 1 then d.unitAt h.cores n else none) with
    | some (_, some c) => setBit h.lost c true
    | _ => h.lost
  let d := d.modHo (fun h => { h with progress := d.clk, unitBuf := [], lost := lost })
  if n < h.verified || h.got.contains n then d.ackUnit h h.verified 0xFFFFFFFF
  else if !ok then
    let d := d.ackUnit h h.verified n
    if h.resent.contains n then d.abortHandover { h with lost := lost } ⟨.deviceFault, Detail.auxed d.flt.seq⟩
    else d.modHo (fun h => { h with resent := n :: h.resent })
  else
    let got := n :: h.got
    let v := gapFree got h.verified got.length
    let d := (d.modHo (fun h => { h with verified := v, got := got.filter (v ≤ ·) })).setFld Reg.FLT_HANDOVER.UNITS v
    let d := d.ackUnit h v 0xFFFFFFFF
    if h.units ≤ v then d.takeOver h x else d

/-- UNIT_END: the spare checks the unit's CRC; the last one starts the takeover. The second operand is what the units that
are not memory spell. DESIGN CHOICE (log entry 38). -/
def execUnitEnd (p : Packet) (x : HandoverParts) (s : State) : Host.Outcome State Fault Refusal :=
  s.run true (s.dev.hoTakes p 0x53) (fun d =>
    let d := d.take p
    match d.flt.handover with
    | none => d
    | some h => if h.isExport || h.phase != .copy || p.src != h.peer then d else d.unitEnd h p x)

/-! ### Takeover notices (R264, R265) -/

/-- A member has acknowledged. -/
def Dev.takeAcked (d : Dev) (x : Nat) : Dev :=
  match d.fab.takeover with
  | none => d
  | some t =>
    let m := Tab.erase t.members x
    if m.isEmpty then d.takeoverEnd [] else { d with fab := { d.fab with takeover := some { t with members := m } } }

/-- TAKEOVER_ACK (R264). -/
def execTakeoverAck (p : Packet) (s : State) : Host.Outcome State Fault Refusal :=
  s.run true (s.dev.up && s.dev.takes p 3 3) (fun d =>
    let d := d.take p
    if d.fab.takeover.any (fun t => leAt p.payload 0 2 = t.id && t.members.any (fun e => e.1 = p.src)) then d.takeAcked p.src else d)

/-- TAKEOVER_RESEND: the notice goes again to those that have not acknowledged; after 10 sends they are given up (R264).
DESIGN CHOICE and DEDUCED (log entries 27 and 38). -/
def execTakeoverResend (s : State) : Host.Outcome State Fault Refusal :=
  s.run true (s.dev.up && s.dev.fab.takeover.any (fun t => t.at' + ms 1 ≤ s.dev.clk)) (fun d =>
    match d.fab.takeover with
    | none => d
    | some t =>
      if t.members.all (fun e => 10 ≤ e.2) then d.takeoverEnd (t.members.map (·.1))
      else
        let l := (t.members.filter (fun e => e.2 < 10)).map (·.1)
        let d : Dev := { d with fab := { d.fab with takeover := some { t with
          members := t.members.map (fun (e : Nat × Nat) => (e.1, min 10 (e.2 + 1))), at' := d.clk } } }
        l.foldl (fun d m => d.sendTake t.id m) d)

/-- Packets queued for a flat ID that have not started on a port are routed again (R265). -/
def Dev.requeue (d : Dev) (x : Nat) : Dev :=
  let mine := fun q : Queued => !q.orig.mcast && q.orig.dst = x
  let l := (d.opt.ports.map (fun e => e.2.txq.filter mine)).flatten
  let d : Dev := { d with opt := { d.opt with
    ports := d.opt.ports.map (fun (e : Nat × Port) => (e.1, { e.2 with txq := e.2.txq.filter (fun p => !mine p) })) } }
  d.takeBack l

/-- A takeover notice applied: the entry is KIND tree, MOVED, not LOST; a change is recorded; cached lines of the flat ID are
dropped, and mirror writes to it wait for those in flight (R246, R258, R265, R321, R326). -/
def Dev.applyTake (d : Dev) (x : Nat) : Dev :=
  let was := d.on (Reg.FAB_ROUTE.LOST x)
  let same := d.kind x = 2 && d.on (Reg.FAB_ROUTE.MOVED x) && !was
  let set := fun d : Dev =>
    ((d.setFld (Reg.FAB_ROUTE.KIND x) 2).setFld (Reg.FAB_ROUTE.MOVED x) 1).setFld (Reg.FAB_ROUTE.LOST x) 0
  let d := if same then d else d.changeEntry x set
  let d := if was then d.setFld Reg.FAB_LOST.ENTRIES (d.fld Reg.FAB_LOST.ENTRIES - 1) else d
  let d := d.rlcDrop (fun i _ => i = x)
  let d := if d.mirrors && x = d.fld Reg.VLT_MIRROR_PEER.FLAT_ID then d.holdMirrors else d
  ((d.setFld Reg.FAB_TAKEOVER.LAST_ID x).bumpSat Reg.FAB_TAKEOVER.NOTICES 1).requeue x

/-- TAKEOVER_NOTICE (R265); one for the device's own ID is ignored, with its record (code 0x07/0x03). -/
def execTakeoverNotice (p : Packet) (s : State) : Host.Outcome State Fault Refusal :=
  s.run true (s.dev.up && s.dev.takes p 3 2) (fun d =>
    let d := d.take p
    let x := leAt p.payload 0 2
    if x = d.selfId then d.record ⟨7, 3, some p.src, 0xFF, [], []⟩
    else (d.applyTake x).send (d.mkPkt 3 true 3 p.src 0 0 (slice p.payload 0 4)))

end Sys2Proof.Machine
end

