-- ==== Sys2Proof/Machine/View.lean ====
section
/-! DEFINITION. What a BAR0 register shows when it is read: the fields that other state decides, and the register mirror (R9, R440 to R443). No read has a side effect. -/

namespace Sys2Proof.Machine

/-! ### Fields that other state decides, by block: offset and low bit -/

/-- A field given by its low bit in a list. -/
def atLo (lo : Nat) (l : List (Nat × Nat)) : Option Nat := (l.find? (fun e => e.1 = lo)).map (·.2)

/-- GLB_ID and GLB_STATE. -/
def Dev.viewGlb (d : Dev) (off lo : Nat) : Option Nat :=
  if off = 0x0 then atLo lo [(16, Config.version)]
  else if off = 0x4 then
    atLo lo [(0, d.st.code), (4, flag d.degraded), (5, flag d.replaceReq), (6, flag d.locked)]
  else none

/-- No descriptor of a ring starts because records are held (R182). -/
def Dev.ringStalled (d : Dev) (r : Nat) : Bool :=
  !(d.ring r).held.isEmpty && 64 ≤ (d.ring r).held.length + (d.ring r).started.length

/-- HQ_RING_STATUS. -/
def Dev.viewHq (d : Dev) (off lo : Nat) : Option Nat :=
  if 0x10300 ≤ off && off < 0x10340 then
    let r := (off - 0x10300) / 4
    atLo lo [(0, (d.ring r).started.length), (7, (d.ring r).held.length), (14, flag (d.ringStalled r))]
  else none

/-- Heads of rings that wait for their events. -/
def Dev.descsWaiting (d : Dev) : Nat :=
  ((List.range 16).filter (fun r => match d.head? r with
    | some j => !d.waitsMet j
    | none => false)).length

/-- A core's dispatch is held at a WAIT. -/
def CorePhase.waits : CorePhase → Bool
  | .waitEvent _ _ => true
  | _ => false

/-- EVT_DATA and EVT_WAITING. -/
def Dev.viewEvt (d : Dev) (off lo : Nat) : Option Nat :=
  if off = 0x20004 then some (d.evtGet (d.fld Reg.EVT_SEL.INDEX))
  else if off = 0x20008 then
    atLo lo [(0, d.descsWaiting), (16, ((List.range 192).filter (fun c => (d.core c).phase.waits)).length)]
  else none

/-- Seconds since a time, as an age field shows them. -/
def Dev.ageS (d : Dev) (t : Nat) : Nat := satTo 0xFFFFF ((d.clk - t) / sec 1)

/-- TGT_REASON, TGT_ALERT, TGT_MODEL_REC.AGE_S. -/
def Dev.viewTgt (d : Dev) (off lo : Nat) : Option Nat :=
  if off = 0x30020 then some d.reasons
  else if off = 0x30024 then
    atLo lo [(0, d.fld Reg.TGT_STATUS.UNATTAINABLE), (1, d.fld Reg.TGT_STATUS.TELEM_FAULT),
      (2, d.fld Reg.TGT_STATUS.CRITICAL),
      (3, flag (d.on Reg.TGT_CFG.ALERT_BAND3 && (List.range 8).any (fun t => d.fld (Reg.TGT_TEMP.BAND t) = 3)))]
  else if 0x30240 ≤ off && off < 0x30264 && lo = 6 then some (d.ageS (Tab.get 0 d.tgt.recAt ((off - 0x30240) / 4)))
  else none

/-- STATE of ARR_SEQ_POS. DESIGN CHOICE (log entry 39). -/
def CorePhase.code : CorePhase → Nat
  | .idle => 0
  | .checking => 1
  | .running | .ending => 2
  | .waitEvent _ _ => 3
  | .barrier _ _ | .stepBarrier => 4
  | .saving | .restoring | .reloading => 5
  | .ended => 6
  | .stopped => 7

/-- ARR_SEQ_POS. -/
def Dev.viewArr (d : Dev) (off lo : Nat) : Option Nat :=
  if 0x70900 ≤ off && off < 0x70C00 then
    let c := (off - 0x70900) / 4
    atLo lo [(0, (d.core c).next), (16, (d.core c).phase.code)]
  else none

/-- OPT_PORT_STATUS, OPT_CAL_REC.AGE_S, the spares of OPT_MAP. -/
def Dev.viewOpt (d : Dev) (off lo : Nat) : Option Nat :=
  if 0x80100 ≤ off && off < 0x801C0 then
    let p := (off - 0x80100) / 4
    atLo lo [(3, d.slots p), (8, (d.rxSpares p).length), (10, (d.txSpares p).length)]
  else if 0x80600 ≤ off && off < 0x806C0 then
    atLo lo [(12, d.ageS (d.port ((off - 0x80600) / 4)).trained)]
  else if 0x81000 ≤ off && off < 0x81600 then
    let p := (off - 0x81000) / 0x20
    if off % 0x20 = 8 then atLo lo [(20, (d.rxSpares p).getD 0 0x1F), (25, (d.rxSpares p).getD 1 0x1F)]
    else if off % 0x20 = 0x18 then atLo lo [(20, (d.txSpares p).getD 0 0x1F), (25, (d.txSpares p).getD 1 0x1F)]
    else none
  else none

/-- LIM_STATE.FED. DESIGN CHOICE and DEDUCED (log entry 37). -/
def Dev.viewLim (d : Dev) (off lo : Nat) : Option Nat :=
  if off < 0x90028 then
    let s := (off - 0x90000) / 4
    atLo lo [(5, if bit d.pins.lmEn s then (d.fedPorts s).foldl (fun n p => n ||| 2 ^ (p / 8)) 0 else 0)]
  else none

/-- FAB_STATUS and FAB_PORT_ROUTE. -/
def Dev.viewFab (d : Dev) (off lo : Nat) : Option Nat :=
  if off = 0xA0018 then
    atLo lo [(1, (List.range 6).foldl (fun n i => n + flag (d.dirPorts i).isEmpty * 2 ^ i) 0), (7, flag d.treePorts.isEmpty)]
  else if off = 0xA0020 then some ((List.range 48).foldl (fun n p => n + flag (d.inService p) * 2 ^ p) 0)
  else none

/-- The collective in a slot. -/
def Dev.slotColl (d : Dev) (i : Nat) : Option Coll := d.car.colls.find? (fun c => c.slot = some i)

/-- Round codes of a collective with a transfer not yet complete. -/
def Coll.openRounds (c : Coll) : List Nat :=
  if c.data then
    (c.ins.filter (fun x => x.consumed < x.chunks.length)).map (·.round) ++
      (c.outs.filter (fun x => !(x.final && x.chunks.length ≤ x.sent))).map (·.round)
  else (roundsOf 2 c.n).filter (fun r => !(c.sentRounds.contains r && c.got.any (fun g => g.1 = r)))

/-- ROUND of CAR_SLOT_STATE. -/
def Coll.lowRound (c : Coll) : Nat := c.openRounds.min?.getD 0

/-- PHASE of CAR_SLOT_STATE. -/
def Coll.phaseCode (c : Coll) : Nat :=
  let r := c.openRounds.min?.getD 0xC0
  if !c.data then 1 else if r = 0 then 2 else if r < 0x40 || (0x60 ≤ r && r < 0x80) then 3
  else if 0x80 ≤ r && r < 0xC0 then 4 else 5

/-- CAR_WATCHDOG, CAR_SLOTS, CAR_EARLY, CAR_GROUP_SPACE and the slots. -/
def Dev.viewCar (d : Dev) (off lo : Nat) : Option Nat :=
  if off = 0xB0008 then some d.tgt.polWatch
  else if off = 0xB000C then
    atLo lo [(0, (List.range 16).foldl (fun n i => n + flag (d.slotColl i).isSome * 2 ^ i) 0),
      (16, satTo 0xFF (d.car.colls.filter (fun c => c.slot.isNone)).length)]
  else if off = 0xB0038 then atLo lo [(0, d.car.early.length)]
  else if off = 0xB0040 then atLo lo [(0, 0x100000 - d.groupUsed 1024), (21, d.car.groups.length)]
  else if 0xB0100 ≤ off && off < 0xB0200 then
    match d.slotColl ((off - 0xB0100) / 16) with
    | none => some 0
    | some c =>
      if off % 16 = 0 then some c.tag
      else if off % 16 = 4 then atLo lo [(0, c.group), (10, c.phaseCode), (13, c.lowRound)]
      else some (satTo 0xFFFFFF ((d.clk - c.last) / us 1))
  else none

/-- UPD_STATUS, UPD_UNDO_NEED, UPD_FREEZE_SPACE. DESIGN CHOICE (log entry 30). -/
def Dev.viewUpd (d : Dev) (off lo : Nat) : Option Nat :=
  if off = 0xC0020 then
    atLo lo [(0, d.upd.binds.length),
      (13, match d.upd.phase with | .committing => 2 | .rolling => 3 | .idle => flag (!d.upd.running.isEmpty || !d.upd.next.isEmpty)),
      (15, d.updCoresUp), (22, d.upd.staged.length)]
  else if off = 0xC0030 then some (undoNeed d.allBinds)
  else if off = 0xC0060 then some (2 ^ 26 - d.allBinds.foldl (fun n b => n + b.blocks) 0)
  else none

/-- MFB_TABLE.USED and MFB_STATUS.TABLE_FULL. -/
def Dev.viewMfb (d : Dev) (off lo : Nat) : Option Nat :=
  if off = 0xD003C then atLo lo [(0, d.mfb.table.length)]
  else if off = 0xD0010 then atLo lo [(1, flag d.tableFull)]
  else none

/-- PHASE of STP_STATUS. DESIGN CHOICE and DEDUCED (log entry 33). -/
def StepPhase.code : StepPhase → Nat
  | .none => 0 | .open => 1 | .arrived => 2 | .committing => 3 | .rolling => 4 | .syncWait => 5 | .gap => 6

/-- STP_STATUS and STP_TIME. -/
def Dev.viewStp (d : Dev) (off lo : Nat) : Option Nat :=
  if off = 0xE0004 then atLo lo [(0, d.stp.phase.code), (3, flag d.stp.failed)]
  else if off = 0xE0018 then some d.stp.time
  else none

/-- FLT_MGMT_STATUS.QUEUED and the suspect table. -/
def Dev.viewFlt (d : Dev) (off lo : Nat) : Option Nat :=
  if off = 0xF0010 then atLo lo [(1, entriesOf d.flt.queue)]
  else if 0xF0100 ≤ off && off < 0xF0300 then some (d.suspectWord ((off - 0xF0100) / 8) >>> lo)
  else none

/-- SEC_FUSE and the device identity. -/
def Dev.viewSec (d : Dev) (off lo : Nat) : Option Nat :=
  if off = 0x100004 then atLo lo [(0, d.fuses.svn), (6, d.fuses.revoked)]
  else if off = 0x100008 then some (Config.deviceId % 2 ^ 64)
  else if off = 0x100010 then some (Config.deviceId / 2 ^ 64)
  else none

/-- STATE of D2D_LINK_STATUS. DESIGN CHOICE (log entry 24). -/
def Dev.linkState (d : Dev) (l : Nat) : Nat :=
  if d.upMask l = 0 then (if d.st = .boot && d.boot.phase = .image then 1 else 0)
  else if popCount 16 (d.upMask l) = bundlesOf l then 2 else 3

/-- D2D_LINK_STATUS. -/
def Dev.viewD2d (d : Dev) (off lo : Nat) : Option Nat :=
  if 0x110100 ≤ off && off < 0x110150 then
    let l := (off - 0x110100) / 4
    atLo lo [(16, popCount 16 (d.upMask l)), (21, d.linkState l),
      (23, ((List.range (bundlesOf l)).filter (fun b => (d.ctl l b).retraining)).length)]
  else none

/-- DBG_POLICY and DBG_IDCODE. -/
def viewDbg (off lo : Nat) : Option Nat :=
  if off = 0x120008 then atLo lo [(0, flag Config.dbgRestricted), (1, flag Config.jtagPrivate)]
  else if off = 0x12000C then atLo lo [(1, Config.jedecMfr), (28, Config.version)]
  else none

/-! ### Reading -/

/-- What other state decides of a field. -/
def Dev.viewed (d : Dev) (off lo : Nat) : Option Nat :=
  match off / 0x10000 with
  | 0x0 => d.viewGlb off lo
  | 0x1 => d.viewHq off lo
  | 0x2 => d.viewEvt off lo
  | 0x3 => d.viewTgt off lo
  | 0x7 => d.viewArr off lo
  | 0x8 => d.viewOpt off lo
  | 0x9 => d.viewLim off lo
  | 0xA => d.viewFab off lo
  | 0xB => d.viewCar off lo
  | 0xC => d.viewUpd off lo
  | 0xD => d.viewMfb off lo
  | 0xE => d.viewStp off lo
  | 0xF => d.viewFlt off lo
  | 0x10 => d.viewSec off lo
  | 0x11 => d.viewD2d off lo
  | 0x12 => viewDbg off lo
  | _ => none

/-- A field as a read shows it; a write-only field reads as zero (R9). DESIGN CHOICE and DEDUCED (log entry 8). -/
def Dev.view (d : Dev) (f : Field) : Nat :=
  if f.acc = .wo then 0 else ((d.viewed f.off f.lo).getD (d.fld f)) % 2 ^ f.w

/-- A register as a read shows it, whole. -/
def Dev.regValue (d : Dev) (r : RegRow) (idx : Nat) : Nat :=
  (r.fields.map (r.field idx)).foldl (fun n f => n + d.view f * 2 ^ f.lo) 0

/-- The register at an offset, whole; zero where none lies. -/
def Dev.regAt (d : Dev) (off : Nat) : Nat :=
  match findReg off with
  | some (r, i) => d.regValue r i
  | none => 0

/-- ALERT_N is pulled low: a condition that TGT_ALERT shows holds; it is released in RESET (R357, R429, R432). -/
def Dev.alertLow (d : Dev) : Bool := d.st != .reset && d.regAt 0x30024 != 0

/-- A 32-bit read of BAR0: a 64-bit register, and an offset without a register, read as zero (R9). -/
def Dev.read32 (d : Dev) (off : Nat) : Nat :=
  match findReg off with
  | some (r, i) => if d.answers off && !r.wide then d.regValue r i else 0
  | none => 0

/-- A 64-bit read of BAR0: a 64-bit register whole, or the two 32-bit registers that it covers (R9). -/
def Dev.read64 (d : Dev) (off : Nat) : Nat :=
  match findReg off with
  | some (r, i) =>
    if r.wide then (if d.answers off then d.regValue r i else 0) else d.read32 off + 2 ^ 32 * d.read32 (off + 4)
  | none => 2 ^ 32 * d.read32 (off + 4)

/-- A read of n bytes of BAR0: 32 or 64 bits, aligned to its own width; any other reads as zero (R441).
DESIGN CHOICE and DEDUCED (log entry 8). -/
def Dev.barRead (d : Dev) (off n : Nat) : Nat :=
  if n = 4 && off % 4 = 0 then d.read32 off else if n = 8 && off % 8 = 0 then d.read64 off else 0

/-- One byte of BAR0 as the mirror shows it: the register that holds it is read whole at its own width (R442). -/
def Dev.barByte (d : Dev) (o : Nat) : Byte :=
  if !d.answers o then 0
  else match findReg (o - o % 4) with
    | some (r, i) => BitVec.ofNat 8 (d.regValue r i >>> (8 * (o % 4)))
    | none =>
      match findReg (o - o % 8) with
      | some (r, i) => if r.wide then BitVec.ofNat 8 (d.regValue r i >>> (8 * (o % 8))) else 0
      | none => 0

/-- Bytes of the register mirror. -/
def Dev.mirrorRead (d : Dev) (o n : Nat) : List Byte := (List.range n).map (fun i => d.barByte (o + i))

end Sys2Proof.Machine
end

