-- ==== Sys2Proof/Machine/HostMem.lean ====
section
/-! DEFINITION. DMA descriptors (R192) and the host's own accesses through BAR2 (R173, R407, R442). -/

namespace Sys2Proof.Machine

/-! ### DMA (R187, R192, R442) -/

/-- LEN of a DMA. -/
def Desc.dmaLen (j : Desc) : Nat := j.num 40 4

/-- The address of a DMA's SRC. -/
def Dev.dmaSrc (d : Dev) (j : Desc) : Nat := d.refAddr (j.refIdx 24) (j.refOff 24)

/-- The address of a DMA's DST. -/
def Dev.dmaDst (d : Dev) (j : Desc) : Nat := d.refAddr (j.refIdx 32) (j.refOff 32)

/-- SRC or DST is device memory. -/
def Dev.dmaDev (d : Dev) (j : Desc) (a : Nat) : Bool := d.refDev (j.refIdx a)

/-- A device range starts in the register mirror or meets it. DESIGN CHOICE and DEDUCED (log entry 13). -/
def meetsMirror (a n : Nat) : Bool := overlaps a (max 1 n) mirrorBase 0x1000000

/-- The checks of a DMA. DESIGN CHOICE and DEDUCED (log entry 13). -/
def Dev.dmaCheck (d : Dev) (j : Desc) : Option Ending :=
  firstFail [j.reserved [(24, 0, 64), (32, 0, 64), (40, 0, 32)], d.refCheck j 24 true false, d.refCheck j 32 false true,
    badIf (!d.dmaDev j 24 && !d.dmaDev j 32) 24, badIf (d.dmaDev j 32 && meetsMirror (d.dmaDst j) j.dmaLen) 32,
    d.stateCheck [.ready, .running, .quiesced], d.lenCheck j 24 j.dmaLen, d.lenCheck j 32 j.dmaLen,
    badIf (d.dmaDev j 24 && d.dmaDev j 32 && overlaps (d.dmaSrc j) j.dmaLen (d.dmaDst j) j.dmaLen) 32]

/-- DMA: the descriptor starts; a length of 0 is complete at once (R187). -/
def execDma (r : Nat) (s : State) : Host.Outcome State Fault Refusal :=
  s.run (ringOk r) (s.dev.descDue r (fun j => j.opc = 0x20)) (fun d =>
    d.startDesc r Dev.dmaCheck (fun d j => if j.dmaLen = 0 then d.finish j (Ending.plain .done) else d))

/-- The bytes of a device range can be had: the mirror, or populated memory. -/
def Dev.srcErr (d : Dev) (a n : Nat) : Option MemErr :=
  if mirrorBase ≤ a && a + n ≤ mirrorBase + 0x1000000 then none else d.readErr a n

/-- Bytes of a device range, the mirror included. -/
def Dev.srcRead (d : Dev) (a n : Nat) : List Byte :=
  if mirrorBase ≤ a && a < mirrorBase + 0x1000000 then d.mirrorRead (a - mirrorBase) n else d.read a n

/-- The first poisoned unit that a write covers only in part (R93, R151). -/
def Dev.partAt (d : Dev) (a n : Nat) : Option Nat :=
  ((healPoison d.poison a n).find? (fun p => overlaps p.1 (poisonUnit p.1) a n)).map (·.1)

/-- What ends a DMA badly at its source: lost core, unpopulated, uncorrectable error (R151, R169), host error.
DESIGN CHOICE and DEDUCED (log entry 13). -/
def Dev.dmaSrcErr (d : Dev) (j : Desc) : Option MemErr :=
  if d.dmaDev j 24 then d.srcErr (d.dmaSrc j) j.dmaLen
  else if d.hostErrIn (d.dmaSrc j) j.dmaLen then some .unpopulated else none

/-- What ends a DMA badly at its destination. DESIGN CHOICE and DEDUCED (log entry 13). -/
def Dev.dmaDstErr (d : Dev) (j : Desc) : Option MemErr :=
  if d.dmaDev j 32 then (d.accErr (d.dmaDst j) j.dmaLen).or ((d.partAt (d.dmaDst j) j.dmaLen).map .poisoned) else none

/-- A descriptor ends on an error of device memory: the REF at a byte names an unpopulated address. -/
def Dev.memEnd (d : Dev) (j : Desc) (a : Nat) : MemErr → Dev
  | .poisoned x => (d.memFault x 2).finish j ⟨.deviceFault, Detail.auxed d.flt.seq⟩
  | .lostCore c => d.finish j (Ending.lost c)
  | .unpopulated => d.finish j (Ending.bad a)

/-- The bytes of a DMA move. -/
def Dev.dmaMove (d : Dev) (j : Desc) : Dev :=
  if d.dmaDev j 32 then
    (if d.dmaDev j 24 then
       (if mirrorBase ≤ d.dmaSrc j then d.store (d.dmaDst j) (d.srcRead (d.dmaSrc j) j.dmaLen)
        else d.storeCopy (d.dmaSrc j) (d.dmaDst j) j.dmaLen)
     else d.store (d.dmaDst j) (d.hostRead (d.dmaSrc j) j.dmaLen))
  else d.hostWrite (d.dmaDst j) (d.srcRead (d.dmaSrc j) j.dmaLen)

/-- A DMA ends: every byte is visible at the destination, or an error has ended it with no byte moved.
DESIGN CHOICE and DEDUCED (log entry 13). -/
def Dev.dmaEnd (d : Dev) (j : Desc) : Dev :=
  match d.dmaSrcErr j, d.dmaDstErr j with
  | some e, _ => d.memEnd j 24 e
  | none, some e => d.memEnd j 32 e
  | none, none => (d.dmaMove j).finish j (Ending.plain .done)

/-- A descriptor of an opcode is in flight. -/
def Dev.flies (d : Dev) (k : Nat × Nat) (opc : Nat) : Bool :=
  match d.desc? k with
  | some j => j.opc = opc
  | none => false

/-- DMA_COMPLETE: the DMA of a ring and index ends; what its accesses find in SRAM comes with it. -/
def execDmaComplete (r k : Nat) (e : Ecc) (s : State) : Host.Outcome State Fault Refusal :=
  s.run (ringOk r) (s.dev.up && s.dev.flies (r, k) 0x20) (fun d =>
    match d.desc? (r, k) with
    | some j => (d.meetEcc e).dmaEnd j
    | none => d)

/-! ### BAR2 (R173, R407) -/

/-- The device address that a BAR2 offset reaches; none where it behaves as unpopulated. -/
def Dev.bar2Addr (d : Dev) (o : Nat) : Option Nat :=
  match d.st with
  | .reset | .boot => none
  | .recovery => if o < midwaySize then some (midwayBase + o) else none
  | _ => some (d.fld Reg.HQ_BAR2_BASE.BASE_GIB * 2 ^ 30 + o)

/-- A BAR2 access: within the largest window, of 1 to 4,096 bytes. DESIGN CHOICE (log entry 14). -/
def bar2Ok (o n : Nat) : Bool := 1 ≤ n && n ≤ 4096 && o + n ≤ 2 ^ 40

/-- A BAR2 access reaches the function: the link is up, and the access lies in the window as it is sized (R172). -/
def Dev.bar2Up (d : Dev) (o n : Nat) : Bool := d.st != .reset && d.hq.pcieUp && o + n ≤ 2 ^ d.hq.pcie.bar2

/-- A read completion with its data poisoned, counted; its bytes are free. DESIGN CHOICE (log entry 14). -/
def Dev.bar2Poisoned (d : Dev) (n : Nat) : Dev :=
  ((d.bumpSat Reg.HQ_BAR2_ERR.READS 1).emit (.readData ((List.range n).map (Config.freeByte d.fresh)) true)).draw

/-- A BAR2 read of a device address. DESIGN CHOICE (log entry 14). -/
def Dev.bar2ReadAt (d : Dev) (a n : Nat) : Dev :=
  match d.srcErr a n with
  | none => d.emit (.readData (d.srcRead a n) false)
  | some (.poisoned x) => (d.memFault x 2).bar2Poisoned n
  | some _ => d.bar2Poisoned n

/-- BAR2_READ (R173). -/
def execBar2Read (o n : Nat) (e : Ecc) (s : State) : Host.Outcome State Fault Refusal :=
  s.run (bar2Ok o n) (s.dev.bar2Up o n) (fun d =>
    match d.bar2Addr o with
    | some a => (d.meetEcc e).bar2ReadAt a n
    | none => d.bar2Poisoned n)

/-- A BAR2 write to a device address: dropped and counted when it may not be made. DESIGN CHOICE (log entry 14). -/
def Dev.bar2WriteAt (d : Dev) (a : Nat) (l : List Byte) : Dev :=
  if (d.accErr a l.length).isSome || (d.partAt a l.length).isSome then d.bumpSat Reg.HQ_BAR2_ERR.WRITES 1
  else d.store a l

/-- BAR2_WRITE (R173): an uncorrectable error that the write finds in a line it covers only in part writes its record
(R93). -/
def execBar2Write (o : Nat) (l : List Byte) (e : Ecc) (s : State) : Host.Outcome State Fault Refusal :=
  s.run (bar2Ok o l.length) (s.dev.bar2Up o l.length) (fun d =>
    match d.bar2Addr o with
    | some a =>
      let was := d.partAt a l.length
      let d := d.meetEcc e
      let d := match was, d.partAt a l.length with
        | none, some x => d.memFault x 2
        | _, _ => d
      d.bar2WriteAt a l
    | none => d.bumpSat Reg.HQ_BAR2_ERR.WRITES 1)

end Sys2Proof.Machine
end

