-- ==== Sys2Proof/Machine/RegCmd.lean ====
section
/-! DEFINITION. Writes of BAR0 by the host, the debug multiplexer and the JTAG port (R436 to R438, R441, R444, R447). -/

namespace Sys2Proof.Machine

/-! ### Register writes -/

/-- BAR0 can be reached: the link is up, out of RESET (R441). -/
def Dev.barUp (d : Dev) : Bool := d.st != .reset && d.hq.pcieUp

/-- A lock request is honoured only in READY with LOCKED = 0 (R444). -/
def Dev.lockWrite (d : Dev) (v : Nat) : Dev := if v = lockKey && d.st = .ready && !d.locked then d.lockRequest else d

/-- A write of SEC_RCV_CTRL: program or reset, in RECOVERY only; program is ignored while busy (R408). -/
def Dev.rcvWrite (d : Dev) (v : Nat) : Dev :=
  if d.st != .recovery then d
  else if v % 4 = 1 then (if d.rcvReady then d.rcvProgram else d)
  else if v % 4 = 2 then
    let z := d.enterReset true
    { z with boot := { z.boot with pulse := true } }
  else d

/-- The group and unit that a write of DBG_SEL selects: a restricted group without its policy fuse, or a unit outside its
range, selects group 0 (R438). DESIGN CHOICE (log entry 9). -/
def obsSelected (g u : Nat) : Nat :=
  if (0x80 ≤ g && !Config.dbgRestricted) || (g = 4 && 192 ≤ u) || (g = 5 && 20 ≤ u) || (g = 6 && 48 ≤ u) then 0 else g

/-- A write of DBG_SEL. DESIGN CHOICE (log entry 9). -/
def Dev.dbgSel (d : Dev) (v : Nat) : Dev :=
  (d.setFld Reg.DBG_SEL.UNIT (bits v 8 8)).setFld Reg.DBG_SEL.GROUP (obsSelected (bits v 0 8) (bits v 8 8))

/-- A write of one 32-bit register: those with an effect of their own, and every other by its access codes.
DESIGN CHOICE and DEDUCED (log entry 8). -/
def Dev.bar32 (d : Dev) (off v : Nat) : Dev :=
  if !d.answers off then d
  else if off = 0x0C then d.lockWrite (v % 2 ^ 32)
  else if off = 0x100064 then d.rcvWrite v
  else if off = 0x120004 then d.dbgSel v
  else d.write32 off v

/-- A BAR0 write of n bytes: 32 or 64 bits, aligned to its own width; any other is ignored (R441). A 64-bit write reaches a
64-bit register whole, or the two 32-bit registers that it covers, the lower first (R9).
DESIGN CHOICE and DEDUCED (log entry 8). -/
def Dev.barWrite (d : Dev) (off n v : Nat) : Dev :=
  if n = 4 && off % 4 = 0 then d.bar32 off v
  else if n = 8 && off % 8 = 0 then
    (match findReg off with
     | some (r, _) => if r.wide then (if d.answers off then d.write64 off v else d)
         else (d.bar32 off (v % 2 ^ 32)).bar32 (off + 4) (v / 2 ^ 32)
     | none => d.bar32 (off + 4) (v / 2 ^ 32))
  else d

/-- REGISTER_WRITE: the host writes n bytes of BAR0. DESIGN CHOICE and DEDUCED (log entry 8). -/
def execRegisterWrite (off n v : Nat) (s : State) : Host.Outcome State Fault Refusal :=
  s.run (off < 0x1000000 && n ≤ 4096 && v < 2 ^ (8 * n)) s.dev.barUp (fun d => d.barWrite off n v)

/-- SETUP_LOCK: the key is written to GLB_SETUP_LOCK. -/
def execSetupLock (s : State) : Host.Outcome State Fault Refusal :=
  s.run true s.dev.barUp (fun d => d.lockWrite lockKey)

/-- EVT_DATA_WRITE: a value is written to EVT_DATA; after lock it is ignored and counted (R184, R447). -/
def execEvtDataWrite (v : Nat) (s : State) : Host.Outcome State Fault Refusal :=
  s.run (v < 2 ^ 32) (s.dev.barUp && s.dev.answers 0x20004) (fun d => d.evtData v)

/-- SR_TEST_WRITE: ARR_SR_TEST_A (false) or ARR_SR_TEST_B (true) is written, and the device computes the word (R77). -/
def execSrTestWrite (b : Bool) (v : Nat) (s : State) : Host.Outcome State Fault Refusal :=
  s.run (v < 2 ^ 64) (s.dev.barUp && s.dev.answers 0x70408) (fun d => d.write64 (if b then 0x70410 else 0x70408) v)

/-! ### The debug multiplexer (R437, R438) -/

/-- DBG_SEL_WRITE: a group is selected. -/
def execDbgSelWrite (v : Nat) (s : State) : Host.Outcome State Fault Refusal :=
  s.run (v < 2 ^ 32) (s.dev.barUp && s.dev.answers 0x120004) (fun d => d.dbgSel v)

/-- What the selected group presents; the places of bits of the groups that are not one register are free. -/
def Dev.obsWord (d : Dev) : Nat :=
  let u := d.fld Reg.DBG_SEL.UNIT
  match d.fld Reg.DBG_SEL.GROUP with
  | 0 => 0
  | 2 => d.regAt 0x40000
  | 4 => d.regAt (0x70900 + 4 * u)
  | 5 => d.regAt (0x110100 + 4 * u)
  | 6 => d.regAt (0x80100 + 4 * u)
  | _ => d.free % 2 ^ 32

/-- DBG_OBS_CLK rises in this cycle of 800 MHz. -/
def Dev.obsEdge (d : Dev) : Bool := d.stp.time % 2 ^ (d.fld Reg.DBG_CTRL.CLK_DIV + 2) = 0

/-- DBG_OBS in one cycle: low while not enabled, a new sample on a rising edge. -/
def Dev.observe (d : Dev) : Dev :=
  if !d.on Reg.DBG_CTRL.ENABLE then { d with pins := { d.pins with dbgObs := 0 } }
  else if d.obsEdge then { d with pins := { d.pins with dbgObs := d.obsWord }, fresh := d.fresh + 1 }
  else d

/-! ### JTAG (R436) -/

/-- The word of the JTAG IDCODE: as DBG_IDCODE. -/
def Dev.idcode (d : Dev) : Nat := d.regAt 0x12000C

/-- EXTEST and EXTEST_PULSE are allowed: RESET with RESET_N held low. -/
def Dev.extestOk (d : Dev) : Bool := d.st = .reset && !d.pins.resetN

/-- The instruction that acts: EXTEST and EXTEST_PULSE act as BYPASS where they are refused. -/
def Dev.jtagActs (d : Dev) : JtagInstr :=
  if (d.pins.jtag = .extest || d.pins.jtag = .extestPulse) && !d.extestOk then .bypass else d.pins.jtag

/-- An instruction is loaded. -/
def Dev.setJtag (d : Dev) (i : JtagInstr) : Dev := { d with pins := { d.pins with jtag := i } }

/-- JTAG_BYPASS. TRST_N low holds the port. DESIGN CHOICE and PRESUMED (log entry 15). -/
def execJtagBypass (s : State) : Host.Outcome State Fault Refusal :=
  s.run true s.dev.pins.trstN (fun d => d.setJtag .bypass)

/-- JTAG_IDCODE: the identity code is shifted out. -/
def execJtagIdcode (s : State) : Host.Outcome State Fault Refusal :=
  s.run true s.dev.pins.trstN (fun d => (d.setJtag .idcode).emit (.jtag d.idcode))

/-- JTAG_SAMPLE_PRELOAD. DESIGN CHOICE and PRESUMED (log entry 15). -/
def execJtagSamplePreload (s : State) : Host.Outcome State Fault Refusal :=
  s.run true s.dev.pins.trstN (fun d => d.setJtag .samplePreload)

/-- JTAG_EXTEST: refused, acting as BYPASS, except in RESET with RESET_N low. -/
def execJtagExtest (s : State) : Host.Outcome State Fault Refusal :=
  s.run true s.dev.pins.trstN (fun d => d.setJtag (if d.extestOk then .extest else .bypass))

/-- JTAG_EXTEST_PULSE: refused, acting as BYPASS, except in RESET with RESET_N low. -/
def execJtagExtestPulse (s : State) : Host.Outcome State Fault Refusal :=
  s.run true s.dev.pins.trstN (fun d => d.setJtag (if d.extestOk then .extestPulse else .bypass))

/-- JTAG_TRST: TRST_N takes a level; low holds the port in Test-Logic-Reset and has no other effect.
DESIGN CHOICE and PRESUMED (log entry 15). -/
def execJtagTrst (high : Bool) (s : State) : Host.Outcome State Fault Refusal :=
  s.run true true (fun d => { d with pins := { d.pins with trstN := high, jtag := if high then d.pins.jtag else .idcode } })

/-! ### The tick -/

/-- One cycle of 1.25 ns with no command: fabric time advances (R371), and DBG_OBS may present a new sample (R437). In RESET
nothing runs. DESIGN CHOICE and DEDUCED (log entries 2 and 9 and 35). -/
def Dev.tick (d : Dev) : Dev := if d.st = .reset then d else ({ d with stp := d.stp.tick, clock := d.clock + 1 } : Dev).observe

end Sys2Proof.Machine
end

