-- ==== Sys2Proof/Machine/Route.lean ====
section
/-! DEFINITION. The router's commands and the suspect notices (R251 to R254, R384 to R388). -/

namespace Sys2Proof.Machine

/-- Packets that wait at any port start where they can. -/
def Dev.pumpPorts (d : Dev) : Dev := (d.opt.ports.map (·.1)).foldl Dev.pump d

/-- PACKET_ROUTE: a packet that was taken back is routed again, ahead of the oldest packet that has arrived whole or was made
here (R222, R251, R258). -/
def execPacketRoute (s : State) : Host.Outcome State Fault Refusal :=
  s.run true (s.dev.live && !(s.dev.fab.again.isEmpty && s.dev.fab.arrived.isEmpty)) (fun d =>
    match d.fab.again, d.fab.arrived with
    | a :: rest, _ => (({ d with fab := { d.fab with again := rest } } : Dev).routeAgain a).pumpPorts
    | [], e :: rest => ({ d with fab := { d.fab with arrived := rest } } : Dev).route e.1 e.2
    | [], [] => d)

/-- FAB_CFG.TREE_WAIT_MS; 0 acts as 1. -/
def Dev.treeWaitTime (d : Dev) : Nat := ms (max 1 (d.fld Reg.FAB_CFG.TREE_WAIT_MS))

/-- TREE_WAIT_TIMEOUT: the oldest packet that waits for a tree port has waited too long (R252). -/
def execTreeWaitTimeout (s : State) : Host.Outcome State Fault Refusal :=
  s.run true (s.dev.live && s.dev.fab.treeWait.head?.any (fun w => w.since + s.dev.treeWaitTime ≤ s.dev.clk)) (fun d =>
    ({ d with fab := { d.fab with treeWait := d.fab.treeWait.drop 1 } } : Dev).bumpSat Reg.FAB_DROPS.NO_ROUTE 1)

/-- A notice about X is held from now on (R386). -/
def Dev.holdNotice (d : Dev) (x : Nat) : Dev :=
  { d with flt := { d.flt with notices := (x, d.clk) :: d.flt.notices.filter (fun n => n.1 != x) } }

/-- SUSPECT_NOTICE: the notice is held and goes on to the next axis; during a handover with X it counts as a sighting
(R385, R386, R399). DESIGN CHOICE and DEDUCED (log entry 27). -/
def execSuspectNotice (p : Packet) (s : State) : Host.Outcome State Fault Refusal :=
  s.run true (s.dev.live && s.dev.canTake p && p.cls = 3 && p.op = 0x40) (fun d =>
    let x := leAt p.payload 0 2
    let stage := leAt p.payload 3 1
    let d := (d.take p).holdNotice x
    let d := if stage < 2 then d.noticeLine (stage + 1) p.payload else d
    if d.flt.handover.any (fun h => h.peer = x) then d.sight x (leAt p.payload 2 1) 0xFF else d)

/-- The hold time since a moment has passed. -/
def Dev.holdOver (d : Dev) (t : Nat) : Bool := t + d.holdTime ≤ d.clk

/-- SUSPECT_HOLD_EXPIRE: notices about X and an origin entry for X end when their hold time has passed (R386, R387). -/
def execSuspectHoldExpire (x : Nat) (s : State) : Host.Outcome State Fault Refusal :=
  s.run (x < 65536)
    (s.dev.up && (s.dev.flt.notices.any (fun n => n.1 = x && s.dev.holdOver n.2) ||
      s.dev.flt.suspects.any (fun e => e.2.id = x && e.2.origin && s.dev.holdOver e.2.last))) (fun d =>
    { d with flt := { d.flt with
        notices := d.flt.notices.filter (fun n => !(n.1 = x && d.holdOver n.2))
        suspects := d.flt.suspects.filter (fun e => !(e.2.id = x && e.2.origin && d.holdOver e.2.last)) } })

/-- SUSPECT_COUNT_UPDATE: the second's report of an origin whose count has grown (R387). -/
def execSuspectCountUpdate (x : Nat) (s : State) : Host.Outcome State Fault Refusal :=
  s.run (x < 65536) (s.dev.up && s.dev.flt.suspects.any (fun e => e.2.id = x && e.2.origin && e.2.grown && e.2.told + sec 1 ≤ s.dev.clk)) (fun d =>
    match d.suspectAt x with
    | none => d
    | some i =>
      let e := Tab.get Suspect.none d.flt.suspects i
      (d.putSuspect i { e with grown := false, told := d.clk }).suspectReport 5 e)

end Sys2Proof.Machine
end

