-- ==== Sys2Proof/Machine/Sec.lean ====
section
/-! DEFINITION. The descriptors of identity and firmware: ACT_SELECT, ATTEST, FW_STAGE, FW_COMMIT (R409 to R419). -/

namespace Sys2Proof.Machine

/-! ### ACT_SELECT (R415) -/

/-- The checks of ACT_SELECT: the Act must have a valid copy. DESIGN CHOICE and DEDUCED (log entry 11). -/
def Dev.actSelectCheck (d : Dev) (j : Desc) : Option Ending :=
  firstFail [j.reserved [(24, 0, 2)], d.stateCheck [.ready], badIf (d.actInForce (j.fb 24 0 2)).isNone 24]

/-- ACT_SELECT: SEC_ACT_NEXT is set. -/
def execActSelect (r : Nat) (s : State) : Host.Outcome State Fault Refusal :=
  s.run (ringOk r) (s.dev.descDue r (fun j => j.opc = 0x80)) (fun d =>
    d.startDesc r Dev.actSelectCheck (fun d j =>
      ((d.setFld Reg.SEC_ACT_NEXT.ACT (j.fb 24 0 2)).setFld Reg.SEC_ACT_NEXT.VALID 1).finish j (Ending.plain .done)))

/-! ### ATTEST (R418, R419) -/

/-- RESULT_LEN of an ATTEST. -/
def Desc.attestLen (j : Desc) : Nat := j.num 48 4

/-- The checks of ATTEST. -/
def Dev.attestCheck (d : Dev) (j : Desc) : Option Ending :=
  firstFail [j.reserved [(24, 0, 128), (40, 0, 64), (48, 0, 32)], d.refCheck j 40 false true, badIf (j.attestLen < 776) 48,
    d.stateCheck [.ready, .running, .quiesced], d.lenCheck j 40 j.attestLen]

/-- ATTEST: the descriptor joins those served in start order. -/
def execAttest (r : Nat) (s : State) : Host.Outcome State Fault Refusal :=
  s.run (ringOk r) (s.dev.descDue r (fun j => j.opc = 0xD0)) (fun d =>
    d.startDesc r Dev.attestCheck (fun d j => { d with boot := { d.boot with attests := d.boot.attests ++ [j.key] } }))

/-- Bytes of a DER element with a tag of one byte, from its length octets; 0 where no SEQUENCE stands. -/
def derSize (l : List Byte) : Nat :=
  let n := leAt l 1 1
  if leAt l 0 1 != 0x30 then 0
  else if n < 0x80 then 2 + n
  else if n = 0x81 then 3 + leAt l 2 1
  else if n = 0x82 then 4 + 256 * leAt l 2 1 + leAt l 3 1
  else 0

/-- The certificate chain of the identity area: the device certificate, then the issuing certificate (R417).
DESIGN CHOICE and DEDUCED (log entry 40). -/
def Dev.certChain (d : Dev) : List Byte :=
  let l := d.flashRead 0x1008000 0x8000
  let a := derSize l
  l.take (if a = 0 then 0 else a + derSize (l.drop a))

/-- The entry of one cartridge in a report. -/
def Dev.attestCart (d : Dev) (s : Nat) : List Byte :=
  leBytes 8 (d.fld (Reg.LIM_SERIAL.SERIAL s)) ++ leBytes 1 (d.slotSt s) ++ leBytes 1 (d.slot s).code ++ zeros 2 ++
    leBytes 4 (d.fld (Reg.LIM_LIFE.EQ_HOURS s))

/-- ACT_DIGEST: SHA-256 of the Act in force with KEY_WRAP taken as zero; zero without an Act. -/
def Dev.actDigest (d : Dev) : List Byte :=
  match d.boot.act with
  | some r => sha256 (slice r 0 56 ++ zeros 40 ++ slice r 96 3968)
  | none => zeros 32

/-- Bytes 0 to 383 of a report (R418). -/
def Dev.attestBody (d : Dev) (nonce : List Byte) : List Byte :=
  [0x43, 0x5A, 0x41, 0x54] ++ leBytes 2 1 ++ zeros 2 ++ nonce ++ leBytes 16 Config.deviceId ++ leBytes 8 d.now ++
    leBytes 1 d.st.code ++ leBytes 1 (flag d.degraded + 2 * flag d.replaceReq) ++
    leBytes 2 (d.fld Reg.FLT_REASON.REASONS) ++
    leBytes 1 (d.fld Reg.SEC_STATUS.ACT + 4 * d.fld Reg.SEC_STATUS.ACT_VALID) ++ leBytes 1 (d.fld Reg.SEC_STATUS.KEY_SLOT) ++
    leBytes 1 (d.fld Reg.SEC_STATUS.SVN) ++ leBytes 1 d.fuses.svn ++ leBytes 4 (d.fld Reg.SEC_BUILD.BUILD) ++
    leBytes 1 d.fuses.revoked ++ zeros 3 ++ sha256 d.boot.header ++ d.actDigest ++ padTo 32 d.boot.pendingDigest ++
    ((List.range 10).map d.attestCart).flatten ++ leBytes 2 d.selfId ++ zeros 62

/-- A signed report: its signature, whose salt is drawn afresh, is free; the chain follows when RESULT has room for it.
DESIGN CHOICE and DEDUCED (log entry 40). -/
def Dev.attestReport (d : Dev) (nonce : List Byte) (len : Nat) : List Byte :=
  d.attestBody nonce ++ (List.range 384).map (Config.freeByte d.fresh) ++ leBytes 4 d.certChain.length ++ zeros 4 ++
    (if 776 + d.certChain.length ≤ len then d.certChain else [])

/-- A report is written and its ATTEST completes. -/
def Dev.attestEnd (d : Dev) (j : Desc) : Dev :=
  let l := d.attestReport (slice j.bytes 24 16) j.attestLen
  (d.draw.bumpSat Reg.SEC_ATTESTS.COUNT 1).putResult j 40 l (fun d => d.finish j (Ending.plain .done))

/-- ATTEST_COMPLETE: the first ATTEST in start order completes, and the next may be served (R419). -/
def execAttestComplete (s : State) : Host.Outcome State Fault Refusal :=
  s.run true (s.dev.up && !s.dev.boot.attests.isEmpty) (fun d =>
    match d.boot.attests with
    | [] => d
    | k :: rest =>
      let d : Dev := { d with boot := { d.boot with attests := rest } }
      match d.desc? k with
      | some j => d.attestEnd j
      | none => d)

/-! ### FW_STAGE (R409) -/

/-- The staging buffer's first address. -/
def Dev.stageBase (d : Dev) : Nat := midwayBase + 0x1000000 * d.fld Reg.SEC_STAGE_BASE.BASE

/-- LEN of an FW_STAGE. -/
def Desc.stageLen (j : Desc) : Nat := j.num 32 4

/-- IMAGE_OFF of an FW_STAGE. -/
def Desc.imageOff (j : Desc) : Nat := j.num 36 4

/-- The checks of FW_STAGE. -/
def Dev.stageCheck (d : Dev) (j : Desc) : Option Ending :=
  firstFail [j.reserved [(24, 0, 64), (32, 0, 32), (36, 0, 32)], d.refCheck j 24 true false,
    badIf (16777216 < j.imageOff + j.stageLen) 36, d.stateCheck [.ready, .quiesced], d.lenCheck j 24 j.stageLen]

/-- FW_STAGE: the copy starts; a length of 0 is complete at once (R187). -/
def execFwStage (r : Nat) (s : State) : Host.Outcome State Fault Refusal :=
  s.run (ringOk r) (s.dev.descDue r (fun j => j.opc = 0xD1)) (fun d =>
    d.startDesc r Dev.stageCheck (fun d j => if j.stageLen = 0 then d.finish j (Ending.plain .done) else d))

/-- The staged bytes are written, unless they cover a poisoned line only in part (R93).
DESIGN CHOICE and DEDUCED (log entry 11). -/
def Dev.stageEnd (d : Dev) (j : Desc) (l : List Byte) : Dev :=
  match d.partAt (d.stageBase + j.imageOff) l.length with
  | some x => d.memEnd j 24 (.poisoned x)
  | none => (d.store (d.stageBase + j.imageOff) l).finish j (Ending.plain .done)

/-- FW_STAGE_COMPLETE: the last byte has been copied. -/
def execFwStageComplete (r k : Nat) (e : Ecc) (s : State) : Host.Outcome State Fault Refusal :=
  s.run (ringOk r) (s.dev.up && s.dev.flies (r, k) 0xD1) (fun d =>
    match d.desc? (r, k) with
    | some j => (d.meetEcc e).withList j 24 j.stageLen (fun d l => d.stageEnd j l)
    | none => d)

/-! ### FW_COMMIT (R410, R414) -/

/-- IMAGE_LEN of an FW_COMMIT. -/
def Desc.imageLen (j : Desc) : Nat := j.num 24 4

/-- The staged package. -/
def Dev.package (d : Dev) (n : Nat) : List Byte := d.read d.stageBase (min n 16777216)

/-- The package is an image ("CZFW"). -/
def isImage (p : List Byte) : Bool := slice p 0 4 = [0x43, 0x5A, 0x46, 0x57]

/-- The package is an Act record ("CZAC"). -/
def isAct (p : List Byte) : Bool := slice p 0 4 = [0x43, 0x5A, 0x41, 0x43]

/-- The cause of R403 that a package gives, 0 when it is accepted. -/
def Dev.commitCause (d : Dev) (p : List Byte) (n : Nat) : Nat :=
  if isImage p then
    (if n != 1024 + leAt p 8 4 then 1 else d.imageCause (slice p 0 1024) (p.drop 1024))
  else if isAct p then (if n = 4096 then d.actCause p else 1)
  else 1

/-- SEC_COMMIT after a package has been judged or written. -/
def Dev.commitShows (d : Dev) (cause result : Nat) : Dev :=
  (d.setFld Reg.SEC_COMMIT.CAUSE cause).setFld Reg.SEC_COMMIT.RESULT result

/-- The flash write of an accepted package. -/
def Dev.commitJob (d : Dev) (j : Desc) (p : List Byte) : FlashJob :=
  if isImage p then ⟨0, p, none, some j.key⟩
  else ⟨actAddr (leAt p 4 1) (d.actTarget (leAt p 4 1)), d.actSeal p, some (leAt p 4 1), some j.key⟩

/-- A package is judged: rejected with its cause, or its flash write begins. DESIGN CHOICE and DEDUCED (log entry 10). -/
def Dev.commitGo (d : Dev) (j : Desc) (p : List Byte) : Dev :=
  let c := d.commitCause p j.imageLen
  let job := d.commitJob j p
  let d := if isImage p || isAct p then d.setOn Reg.SEC_COMMIT.KIND (isAct p) else d
  if c = 0 then { d with boot := { d.boot with flashJob := some job } }
  else (d.commitShows c 2).finish j (Ending.bad 24)

/-- FW_COMMIT: the package in the staging buffer is checked, and its write begins when it passes.
DESIGN CHOICE and DEDUCED (log entry 11). -/
def execFwCommit (r : Nat) (s : State) : Host.Outcome State Fault Refusal :=
  s.run (ringOk r) (s.dev.descDue r (fun j => j.opc = 0xD2)) (fun d =>
    d.startDesc r (fun d j => firstFail [j.reserved [(24, 0, 32)], d.stateCheck [.ready]]) (fun d j =>
      match d.readErr d.stageBase (min j.imageLen 16777216) with
      | some e => d.memEnd j 24 e
      | none => d.commitGo j (d.package j.imageLen)))

/-- A package has been written and read back. -/
def Dev.commitDone (d : Dev) (w : FlashJob) : Dev :=
  let d := (d.flashWrite w.addr w.data).setFld Reg.SEC_COMMIT.PENDING 1
  let d := d.commitShows 0 1
  match w.act with
  | some a => d.setFld (Reg.SEC_ACT_GEN.GENERATION a) ((d.actGen a).getD 0)
  | none => { d with boot := { d.boot with pendingDigest := sha256 (w.data.take 1024) } }

/-- The write has failed after 3 tries: what was being written is left invalid.
DESIGN CHOICE and DEDUCED (log entries 10 and 11). -/
def Dev.commitFails (d : Dev) (w : FlashJob) : Dev :=
  (match w.act with
   | some _ => d.flashErase w.addr 4096
   | none => d.flashErase 0 1024).commitShows 0xA 3

/-- FLASH_WRITE_DONE: the commit's write and read-back end, well or not, and FW_COMMIT completes (R410). -/
def execFlashWriteDone (ok : Bool) (s : State) : Host.Outcome State Fault Refusal :=
  s.run true (s.dev.up && s.dev.boot.flashJob.any (fun w => w.desc.isSome)) (fun d =>
    match d.boot.flashJob with
    | some w =>
      let d : Dev := { d with boot := { d.boot with flashJob := none } }
      let d := if ok then d.commitDone w else d.commitFails w
      match w.desc with
      | some k => d.finishKey k (Ending.plain (if ok then .done else .noResource))
      | none => d
    | none => d)

end Sys2Proof.Machine
end

