-- ==== Sys2Proof/Machine/Dispatch.lean ====
section
/-! DEFINITION. The meaning of every command: one arm per constructor, one direct call each. -/

namespace Sys2Proof.Machine

/-- The effect of a command on everything but the queue. -/
def exec (i : Instr) (s : State) : Host.Outcome State Fault Refusal :=
  match i with
  | .resetRelease r => Sys2Proof.Machine.execResetRelease r s
  | .resetNAssert => Sys2Proof.Machine.execResetNAssert s
  | .pwrgoodFall => Sys2Proof.Machine.execPwrgoodFall s
  | .perstNAssert => Sys2Proof.Machine.execPerstNAssert s
  | .perstNRelease => Sys2Proof.Machine.execPerstNRelease s
  | .thermtripAssert => Sys2Proof.Machine.execThermtripAssert s
  | .rootPllLockTimeout => Sys2Proof.Machine.execRootPllLockTimeout s
  | .imageLoaded readErr => Sys2Proof.Machine.execImageLoaded readErr s
  | .firmwareStartDone res => Sys2Proof.Machine.execFirmwareStartDone res s
  | .bootFinish => Sys2Proof.Machine.execBootFinish s
  | .bootWatchdog => Sys2Proof.Machine.execBootWatchdog s
  | .fuseAdvance => Sys2Proof.Machine.execFuseAdvance s
  | .rcvProgram => Sys2Proof.Machine.execRcvProgram s
  | .rcvFlashDone ok => Sys2Proof.Machine.execRcvFlashDone ok s
  | .rcvReset => Sys2Proof.Machine.execRcvReset s
  | .pllLockLoss k => Sys2Proof.Machine.execPllLockLoss k s
  | .pllRelock k => Sys2Proof.Machine.execPllRelock k s
  | .pllRelockTimeout k => Sys2Proof.Machine.execPllRelockTimeout k s
  | .refCheck dev => Sys2Proof.Machine.execRefCheck dev s
  | .dividerChange => Sys2Proof.Machine.execDividerChange s
  | .regulatorReport => Sys2Proof.Machine.execRegulatorReport s
  | .stepUpAbandon => Sys2Proof.Machine.execStepUpAbandon s
  | .d2dPacketStart l dir src dst p => Sys2Proof.Machine.execD2dPacketStart l dir src dst p s
  | .d2dFlitReceive l b dir f => Sys2Proof.Machine.execD2dFlitReceive l b dir f s
  | .d2dReplayTimeout l b dir => Sys2Proof.Machine.execD2dReplayTimeout l b dir s
  | .d2dRetrainDone l b res => Sys2Proof.Machine.execD2dRetrainDone l b res s
  | .d2dRecoveryFlitSend l b dir => Sys2Proof.Machine.execD2dRecoveryFlitSend l b dir s
  | .d2dRecoveryFlitReceive l dir f => Sys2Proof.Machine.execD2dRecoveryFlitReceive l dir f s
  | .d2dRecoveryTimeout l b dir => Sys2Proof.Machine.execD2dRecoveryTimeout l b dir s
  | .d2dBandSetDone l b => Sys2Proof.Machine.execD2dBandSetDone l b s
  | .d2dMarginBundleDone l b x => Sys2Proof.Machine.execD2dMarginBundleDone l b x s
  | .seqDispatch c e => Sys2Proof.Machine.execSeqDispatch c e s
  | .runCheckDone ring sub => Sys2Proof.Machine.execRunCheckDone ring sub s
  | .wLoad c pos t => Sys2Proof.Machine.execWLoad c pos t s
  | .wLoadComplete c pos => Sys2Proof.Machine.execWLoadComplete c pos s
  | .cbLoad c pos t => Sys2Proof.Machine.execCbLoad c pos t s
  | .cbLoadComplete c pos => Sys2Proof.Machine.execCbLoadComplete c pos s
  | .stream c pos t => Sys2Proof.Machine.execStream c pos t s
  | .passEnd c pos p => Sys2Proof.Machine.execPassEnd c pos p s
  | .faultCountClear c => Sys2Proof.Machine.execFaultCountClear c s
  | .bubbleWindowStart c => Sys2Proof.Machine.execBubbleWindowStart c s
  | .drain c pos t => Sys2Proof.Machine.execDrain c pos t s
  | .convRecordRead c pos => Sys2Proof.Machine.execConvRecordRead c pos s
  | .drainEnd c pos => Sys2Proof.Machine.execDrainEnd c pos s
  | .overflowReplay c => Sys2Proof.Machine.execOverflowReplay c s
  | .vec c pos t => Sys2Proof.Machine.execVec c pos t s
  | .vecEnd c pos => Sys2Proof.Machine.execVecEnd c pos s
  | .move c pos t => Sys2Proof.Machine.execMove c pos t s
  | .moveComplete c pos => Sys2Proof.Machine.execMoveComplete c pos s
  | .gather c pos t => Sys2Proof.Machine.execGather c pos t s
  | .gatherComplete c pos => Sys2Proof.Machine.execGatherComplete c pos s
  | .xfer c pos t => Sys2Proof.Machine.execXfer c pos t s
  | .xferComplete c pos => Sys2Proof.Machine.execXferComplete c pos s
  | .wait c => Sys2Proof.Machine.execWait c s
  | .waitMet c => Sys2Proof.Machine.execWaitMet c s
  | .waitTimeout c => Sys2Proof.Machine.execWaitTimeout c s
  | .coreStopAtBoundary c => Sys2Proof.Machine.execCoreStopAtBoundary c s
  | .signal c => Sys2Proof.Machine.execSignal c s
  | .signalFire c => Sys2Proof.Machine.execSignalFire c s
  | .barrier c => Sys2Proof.Machine.execBarrier c s
  | .localBarrierRelease ring sub id => Sys2Proof.Machine.execLocalBarrierRelease ring sub id s
  | .replayMark c => Sys2Proof.Machine.execReplayMark c s
  | .endOp c => Sys2Proof.Machine.execEndOp c s
  | .programComplete c => Sys2Proof.Machine.execProgramComplete c s
  | .arrayFault c cause arrays => Sys2Proof.Machine.execArrayFault c cause arrays s
  | .preemptRequest c => Sys2Proof.Machine.execPreemptRequest c s
  | .preemptSave c cycles => Sys2Proof.Machine.execPreemptSave c cycles s
  | .preemptSaveDone c micros => Sys2Proof.Machine.execPreemptSaveDone c micros s
  | .preemptRestore c => Sys2Proof.Machine.execPreemptRestore c s
  | .preemptRestoreDone c micros => Sys2Proof.Machine.execPreemptRestoreDone c micros s
  | .halt x => Sys2Proof.Machine.execHalt x s
  | .vfp x => Sys2Proof.Machine.execVfp x s
  | .vint x => Sys2Proof.Machine.execVint x s
  | .vcmp x => Sys2Proof.Machine.execVcmp x s
  | .vperm x => Sys2Proof.Machine.execVperm x s
  | .vred x => Sys2Proof.Machine.execVred x s
  | .vcvt x => Sys2Proof.Machine.execVcvt x s
  | .vscl x => Sys2Proof.Machine.execVscl x s
  | .vpred x => Sys2Proof.Machine.execVpred x s
  | .vld x e => Sys2Proof.Machine.execVld x e s
  | .vlds x e => Sys2Proof.Machine.execVlds x e s
  | .vldx x e => Sys2Proof.Machine.execVldx x e s
  | .vldw x e => Sys2Proof.Machine.execVldw x e s
  | .vldb x e => Sys2Proof.Machine.execVldb x e s
  | .vst x => Sys2Proof.Machine.execVst x s
  | .vsts x => Sys2Proof.Machine.execVsts x s
  | .vstx x => Sys2Proof.Machine.execVstx x s
  | .vstn x => Sys2Proof.Machine.execVstn x s
  | .vstb x => Sys2Proof.Machine.execVstb x s
  | .salu x => Sys2Proof.Machine.execSalu x s
  | .saddi x => Sys2Proof.Machine.execSaddi x s
  | .slui x => Sys2Proof.Machine.execSlui x s
  | .sori x => Sys2Proof.Machine.execSori x s
  | .sld x e => Sys2Proof.Machine.execSld x e s
  | .sst x => Sys2Proof.Machine.execSst x s
  | .mtc x => Sys2Proof.Machine.execMtc x s
  | .mfc x => Sys2Proof.Machine.execMfc x s
  | .beq x => Sys2Proof.Machine.execBeq x s
  | .bne x => Sys2Proof.Machine.execBne x s
  | .blt x => Sys2Proof.Machine.execBlt x s
  | .bltu x => Sys2Proof.Machine.execBltu x s
  | .jmp x => Sys2Proof.Machine.execJmp x s
  | .vecUndefined x => Sys2Proof.Machine.execVecUndefined x s
  | .vecLimitExceeded x => Sys2Proof.Machine.execVecLimitExceeded x s
  | .vaultRead c off len e => Sys2Proof.Machine.execVaultRead c off len e s
  | .vaultWrite c off data e again => Sys2Proof.Machine.execVaultWrite c off data e again s
  | .rowRepairFused bk row => Sys2Proof.Machine.execRowRepairFused bk row s
  | .bankSpareDone c bk => Sys2Proof.Machine.execBankSpareDone c bk s
  | .refreshDue col layer bank => Sys2Proof.Machine.execRefreshDue col layer bank s
  | .patrolScrub t site ce hard ue => Sys2Proof.Machine.execPatrolScrub t site ce hard ue s
  | .pipeRetrainDone c p ok => Sys2Proof.Machine.execPipeRetrainDone c p ok s
  | .mirrorResyncDone => Sys2Proof.Machine.execMirrorResyncDone s
  | .vaultMarginPipeDone c p x => Sys2Proof.Machine.execVaultMarginPipeDone c p x s
  | .migrationStart t => Sys2Proof.Machine.execMigrationStart t s
  | .migrationInitDone t => Sys2Proof.Machine.execMigrationInitDone t s
  | .migrationCopyDone t bad => Sys2Proof.Machine.execMigrationCopyDone t bad s
  | .migrationVerifyDone t mismatch bad => Sys2Proof.Machine.execMigrationVerifyDone t mismatch bad s
  | .spareZeroDone c => Sys2Proof.Machine.execSpareZeroDone c s
  | .doorbellPoll c => Sys2Proof.Machine.execDoorbellPoll c s
  | .descUndefined r => Sys2Proof.Machine.execDescUndefined r s
  | .descWaitTimeout r core => Sys2Proof.Machine.execDescWaitTimeout r core s
  | .irqHoldoffExpire v => Sys2Proof.Machine.execIrqHoldoffExpire v s
  | .bar2Read o n e => Sys2Proof.Machine.execBar2Read o n e s
  | .bar2Write o l e => Sys2Proof.Machine.execBar2Write o l e s
  | .pcieLinkReset => Sys2Proof.Machine.execPcieLinkReset s
  | .pcieD0Return msix c => Sys2Proof.Machine.execPcieD0Return msix c s
  | .nop r => Sys2Proof.Machine.execNop r s
  | .eventAdd r => Sys2Proof.Machine.execEventAdd r s
  | .eventSet r => Sys2Proof.Machine.execEventSet r s
  | .eventRead r => Sys2Proof.Machine.execEventRead r s
  | .run r => Sys2Proof.Machine.execRun r s
  | .dma r => Sys2Proof.Machine.execDma r s
  | .dmaComplete r k e => Sys2Proof.Machine.execDmaComplete r k e s
  | .collAllReduce r => Sys2Proof.Machine.execCollAllReduce r s
  | .collReduceScatter r => Sys2Proof.Machine.execCollReduceScatter r s
  | .collAllGather r => Sys2Proof.Machine.execCollAllGather r s
  | .collBroadcast r => Sys2Proof.Machine.execCollBroadcast r s
  | .collReduce r => Sys2Proof.Machine.execCollReduce r s
  | .collGroup r => Sys2Proof.Machine.execCollGroup r s
  | .collGroupDelete r => Sys2Proof.Machine.execCollGroupDelete r s
  | .get r => Sys2Proof.Machine.execGet r s
  | .getCached r => Sys2Proof.Machine.execGetCached r s
  | .put r => Sys2Proof.Machine.execPut r s
  | .putLine r => Sys2Proof.Machine.execPutLine r s
  | .invalidate r => Sys2Proof.Machine.execInvalidate r s
  | .invalidateAll r => Sys2Proof.Machine.execInvalidateAll r s
  | .aIadd r => Sys2Proof.Machine.execAIadd r s
  | .aFadd r => Sys2Proof.Machine.execAFadd r s
  | .aSwap r => Sys2Proof.Machine.execASwap r s
  | .aCas r => Sys2Proof.Machine.execACas r s
  | .aUmax r => Sys2Proof.Machine.execAUmax r s
  | .aUmin r => Sys2Proof.Machine.execAUmin r s
  | .aOr r => Sys2Proof.Machine.execAOr r s
  | .aAnd r => Sys2Proof.Machine.execAAnd r s
  | .rFadd r => Sys2Proof.Machine.execRFadd r s
  | .rIadd r => Sys2Proof.Machine.execRIadd r s
  | .rFmax r => Sys2Proof.Machine.execRFmax r s
  | .rFmin r => Sys2Proof.Machine.execRFmin r s
  | .updBind r => Sys2Proof.Machine.execUpdBind r s
  | .updUnbind r => Sys2Proof.Machine.execUpdUnbind r s
  | .updFreeze r => Sys2Proof.Machine.execUpdFreeze r s
  | .updThaw r => Sys2Proof.Machine.execUpdThaw r s
  | .stepCfg r => Sys2Proof.Machine.execStepCfg r s
  | .setCap r => Sys2Proof.Machine.execSetCap r s
  | .setPolicyDramBand r => Sys2Proof.Machine.execSetPolicyDramBand r s
  | .setPolicyHighestPoint r => Sys2Proof.Machine.execSetPolicyHighestPoint r s
  | .setPolicyCollWatchdog r => Sys2Proof.Machine.execSetPolicyCollWatchdog r s
  | .setPolicyAtomicRetry r => Sys2Proof.Machine.execSetPolicyAtomicRetry r s
  | .actSelect r => Sys2Proof.Machine.execActSelect r s
  | .calReqOptical r => Sys2Proof.Machine.execCalReqOptical r s
  | .calReqD2d r => Sys2Proof.Machine.execCalReqD2d r s
  | .calReqVault r => Sys2Proof.Machine.execCalReqVault r s
  | .calReqThermal r => Sys2Proof.Machine.execCalReqThermal r s
  | .marginVault r => Sys2Proof.Machine.execMarginVault r s
  | .marginOptical r => Sys2Proof.Machine.execMarginOptical r s
  | .marginD2d r => Sys2Proof.Machine.execMarginD2d r s
  | .optMarginLaneDone p lane x => Sys2Proof.Machine.execOptMarginLaneDone p lane x s
  | .spareCore r => Sys2Proof.Machine.execSpareCore r s
  | .spareLimelight r => Sys2Proof.Machine.execSpareLimelight r s
  | .handoverExport r => Sys2Proof.Machine.execHandoverExport r s
  | .handoverImport r => Sys2Proof.Machine.execHandoverImport r s
  | .quiesce r => Sys2Proof.Machine.execQuiesce r s
  | .resume r => Sys2Proof.Machine.execResume r s
  | .attest r => Sys2Proof.Machine.execAttest r s
  | .fwStage r => Sys2Proof.Machine.execFwStage r s
  | .fwCommit r => Sys2Proof.Machine.execFwCommit r s
  | .flashWriteDone ok => Sys2Proof.Machine.execFlashWriteDone ok s
  | .setupLock => Sys2Proof.Machine.execSetupLock s
  | .evtDataWrite v => Sys2Proof.Machine.execEvtDataWrite v s
  | .srTestWrite b v => Sys2Proof.Machine.execSrTestWrite b v s
  | .mgmtReqTake => Sys2Proof.Machine.execMgmtReqTake s
  | .dbgSelWrite v => Sys2Proof.Machine.execDbgSelWrite v s
  | .registerWrite off n v => Sys2Proof.Machine.execRegisterWrite off n v s
  | .linkBlockReceive p b => Sys2Proof.Machine.execLinkBlockReceive p b s
  | .resendTimer p => Sys2Proof.Machine.execResendTimer p s
  | .alignmentBeat p units => Sys2Proof.Machine.execAlignmentBeat p units s
  | .laneMove p b => Sys2Proof.Machine.execLaneMove p b s
  | .laneMoveAck p b => Sys2Proof.Machine.execLaneMoveAck p b s
  | .laneMoveSwitch p rx slot => Sys2Proof.Machine.execLaneMoveSwitch p rx slot s
  | .ident p b => Sys2Proof.Machine.execIdent p b s
  | .time p b => Sys2Proof.Machine.execTime p b s
  | .marginReport p b => Sys2Proof.Machine.execMarginReport p b s
  | .calLane p b => Sys2Proof.Machine.execCalLane p b s
  | .retrain p b => Sys2Proof.Machine.execRetrain p b s
  | .controlResendTimer p => Sys2Proof.Machine.execControlResendTimer p s
  | .lightDetected p => Sys2Proof.Machine.execLightDetected p s
  | .lossOfLight p feed lanes => Sys2Proof.Machine.execLossOfLight p feed lanes s
  | .trainingComplete p r => Sys2Proof.Machine.execTrainingComplete p r s
  | .trainingPhaseTimeout p light => Sys2Proof.Machine.execTrainingPhaseTimeout p light s
  | .trainingRetryTimer p => Sys2Proof.Machine.execTrainingRetryTimer p s
  | .miswireHoldExpire p => Sys2Proof.Machine.execMiswireHoldExpire p s
  | .laneCalDue p => Sys2Proof.Machine.execLaneCalDue p s
  | .laneCalDone p pass => Sys2Proof.Machine.execLaneCalDone p pass s
  | .portCalDue p => Sys2Proof.Machine.execPortCalDue p s
  | .portCalDrained p => Sys2Proof.Machine.execPortCalDrained p s
  | .timeBlockSend p => Sys2Proof.Machine.execTimeBlockSend p s
  | .marginEstimate p lanes => Sys2Proof.Machine.execMarginEstimate p lanes s
  | .ringLockLoss p rx lanes => Sys2Proof.Machine.execRingLockLoss p rx lanes s
  | .ringRelock p rx lane => Sys2Proof.Machine.execRingRelock p rx lane s
  | .linkRecoveryNotice p => Sys2Proof.Machine.execLinkRecoveryNotice p s
  | .recoveryNoticeTimeout p => Sys2Proof.Machine.execRecoveryNoticeTimeout p s
  | .lmPresence sl => Sys2Proof.Machine.execLmPresence sl s
  | .cartridgeCheck sl a => Sys2Proof.Machine.execCartridgeCheck sl a s
  | .lmRemoval sl => Sys2Proof.Machine.execLmRemoval sl s
  | .cartridgePoll sl r => Sys2Proof.Machine.execCartridgePoll sl r s
  | .lifeAccounting sl => Sys2Proof.Machine.execLifeAccounting sl s
  | .warmingTimeout sl => Sys2Proof.Machine.execWarmingTimeout sl s
  | .switchSettled sl lit => Sys2Proof.Machine.execSwitchSettled sl lit s
  | .switchLightTimeout sl => Sys2Proof.Machine.execSwitchLightTimeout sl s
  | .packetRoute => Sys2Proof.Machine.execPacketRoute s
  | .treeWaitTimeout => Sys2Proof.Machine.execTreeWaitTimeout s
  | .takeoverNotice p => Sys2Proof.Machine.execTakeoverNotice p s
  | .takeoverAck p => Sys2Proof.Machine.execTakeoverAck p s
  | .takeoverResend => Sys2Proof.Machine.execTakeoverResend s
  | .collSlotAssign => Sys2Proof.Machine.execCollSlotAssign s
  | .exchangePacket p => Sys2Proof.Machine.execExchangePacket p s
  | .exchangeAck p => Sys2Proof.Machine.execExchangeAck p s
  | .exchangeResend => Sys2Proof.Machine.execExchangeResend s
  | .carouselData p => Sys2Proof.Machine.execCarouselData p s
  | .chunkEnd p adder => Sys2Proof.Machine.execChunkEnd p adder s
  | .grant p => Sys2Proof.Machine.execGrant p s
  | .poisonNotice p => Sys2Proof.Machine.execPoisonNotice p s
  | .abortNotice p => Sys2Proof.Machine.execAbortNotice p s
  | .collWatchdog r sub => Sys2Proof.Machine.execCollWatchdog r sub s
  | .earlyEntryExpire => Sys2Proof.Machine.execEarlyEntryExpire s
  | .blockDispatch k => Sys2Proof.Machine.execBlockDispatch k s
  | .updateBlockEnd k fault => Sys2Proof.Machine.execUpdateBlockEnd k fault s
  | .coreRingStart r => Sys2Proof.Machine.execCoreRingStart r s
  | .mfbGetRequest p => Sys2Proof.Machine.execMfbGetRequest p s
  | .mfbPutPacket p hot => Sys2Proof.Machine.execMfbPutPacket p hot s
  | .mfbAtomicRequest p hot => Sys2Proof.Machine.execMfbAtomicRequest p hot s
  | .mfbReductionPacket p hot => Sys2Proof.Machine.execMfbReductionPacket p hot s
  | .mfbMirrorWrite p hot => Sys2Proof.Machine.execMfbMirrorWrite p hot s
  | .mfbPutLineCopy p hot => Sys2Proof.Machine.execMfbPutLineCopy p hot s
  | .mfbNotify p => Sys2Proof.Machine.execMfbNotify p s
  | .hotLineWrite line => Sys2Proof.Machine.execHotLineWrite line s
  | .mfbGetData p => Sys2Proof.Machine.execMfbGetData p s
  | .mfbAcknowledgement p => Sys2Proof.Machine.execMfbAcknowledgement p s
  | .mfbAtomicResult p => Sys2Proof.Machine.execMfbAtomicResult p s
  | .mfbError p => Sys2Proof.Machine.execMfbError p s
  | .getRetry id => Sys2Proof.Machine.execGetRetry id s
  | .atomicRetry id => Sys2Proof.Machine.execAtomicRetry id s
  | .atomicDeadline id => Sys2Proof.Machine.execAtomicDeadline id s
  | .mfbRespTimeout id => Sys2Proof.Machine.execMfbRespTimeout id s
  | .mfbWindowTimer => Sys2Proof.Machine.execMfbWindowTimer s
  | .tightropeSample x => Sys2Proof.Machine.execTightropeSample x s
  | .ratioRamp => Sys2Proof.Machine.execRatioRamp s
  | .opPointTick => Sys2Proof.Machine.execOpPointTick s
  | .sensorRead node t => Sys2Proof.Machine.execSensorRead node t s
  | .emergencyHoldEnd => Sys2Proof.Machine.execEmergencyHoldEnd s
  | .rampSlowEnd => Sys2Proof.Machine.execRampSlowEnd s
  | .criticalRelease => Sys2Proof.Machine.execCriticalRelease s
  | .bandDemotion u => Sys2Proof.Machine.execBandDemotion u s
  | .telemetryReasonTimer => Sys2Proof.Machine.execTelemetryReasonTimer s
  | .stepArrival => Sys2Proof.Machine.execStepArrival s
  | .barrierRecord p => Sys2Proof.Machine.execBarrierRecord p s
  | .stepCommitDone => Sys2Proof.Machine.execStepCommitDone s
  | .stepRollback => Sys2Proof.Machine.execStepRollback s
  | .stepRollbackDone => Sys2Proof.Machine.execStepRollbackDone s
  | .barrierAck p => Sys2Proof.Machine.execBarrierAck p s
  | .barrierResend => Sys2Proof.Machine.execBarrierResend s
  | .stepSyncEdge => Sys2Proof.Machine.execStepSyncEdge s
  | .syncWindowEnd => Sys2Proof.Machine.execSyncWindowEnd s
  | .stepGapEnd => Sys2Proof.Machine.execStepGapEnd s
  | .timedFallback => Sys2Proof.Machine.execTimedFallback s
  | .getState m => Sys2Proof.Machine.execGetState m s
  | .getRecords m => Sys2Proof.Machine.execGetRecords m s
  | .getSuspects m => Sys2Proof.Machine.execGetSuspects m s
  | .setLost m => Sys2Proof.Machine.execSetLost m s
  | .request m => Sys2Proof.Machine.execRequest m s
  | .mgmtReset m => Sys2Proof.Machine.execMgmtReset m s
  | .reportAck m => Sys2Proof.Machine.execReportAck m s
  | .reportResend => Sys2Proof.Machine.execReportResend s
  | .suspectNotice p => Sys2Proof.Machine.execSuspectNotice p s
  | .suspectHoldExpire x => Sys2Proof.Machine.execSuspectHoldExpire x s
  | .suspectCountUpdate x => Sys2Proof.Machine.execSuspectCountUpdate x s
  | .manifest p => Sys2Proof.Machine.execManifest p s
  | .accept p => Sys2Proof.Machine.execAccept p s
  | .handoverData p => Sys2Proof.Machine.execHandoverData p s
  | .unitEnd p x => Sys2Proof.Machine.execUnitEnd p x s
  | .unitAck p => Sys2Proof.Machine.execUnitAck p s
  | .handoverDone p => Sys2Proof.Machine.execHandoverDone p s
  | .manifestResend => Sys2Proof.Machine.execManifestResend s
  | .handoverWaitTimeout => Sys2Proof.Machine.execHandoverWaitTimeout s
  | .handoverStall => Sys2Proof.Machine.execHandoverStall s
  | .jtagBypass => Sys2Proof.Machine.execJtagBypass s
  | .jtagIdcode => Sys2Proof.Machine.execJtagIdcode s
  | .jtagSamplePreload => Sys2Proof.Machine.execJtagSamplePreload s
  | .jtagExtest => Sys2Proof.Machine.execJtagExtest s
  | .jtagExtestPulse => Sys2Proof.Machine.execJtagExtestPulse s
  | .jtagTrst high => Sys2Proof.Machine.execJtagTrst high s
  | .internalResetPulseEnd r => Sys2Proof.Machine.execInternalResetPulseEnd r s
  | .mgmtLinkUp => Sys2Proof.Machine.execMgmtLinkUp s
  | .mgmtLinkDown => Sys2Proof.Machine.execMgmtLinkDown s
  | .resultTableEntryExpire => Sys2Proof.Machine.execResultTableEntryExpire s
  | .atomicSequenceFree => Sys2Proof.Machine.execAtomicSequenceFree s
  | .attestComplete => Sys2Proof.Machine.execAttestComplete s
  | .fwStageComplete r k e => Sys2Proof.Machine.execFwStageComplete r k e s
  | .msixTableWrite dw v => Sys2Proof.Machine.execMsixTableWrite dw v s

end Sys2Proof.Machine
end

