-- ==== Sys2Proof/Machine/Step.lean ====
section
/-! DEFINITION. One step: the command at the front of the queue; with none waiting, one cycle of fabric time. -/

namespace Sys2Proof.Machine

/-- The front command runs with the queue's rest. With an empty queue the block runs one cycle of 1.25 ns (DESIGN CHOICE).
DESIGN CHOICE (log entries 2 and 6). -/
def step (s : State) : Host.Outcome State Fault Refusal :=
  match s.pending with
  | [] => .next { s with dev := s.dev.tick }
  | c :: rest => exec c { s with pending := rest }

/-- A command put at the front of the queue. -/
def State.push (s : State) (c : Instr) : State := { s with pending := c :: s.pending }

/-- The table gives no row any bits, so a word spells no command. DESIGN CHOICE (log entry 6). -/
def State.withFetchWord (s : State) (_nbits _w : Nat) : State := s

end Sys2Proof.Machine
end

