-- ==== Sys2Proof/Safety.lean ====
section
/-! DEFINITION. The terms that statements use: a command that completes with its effect, and what a change leaves alone. -/

namespace Sys2Proof.Machine

/-- The command answers a next state whose queue is as it was and whose device meets P. -/
def Runs (c : Instr) (s : State) (P : Dev → Prop) : Prop :=
  ∃ e : Dev, exec c s = .next { s with dev := e } ∧ P e

/-- The command answers a next state whose queue is as it was and whose device is e. -/
def Gives (c : Instr) (s : State) (e : Dev) : Prop := exec c s = .next { s with dev := e }

/-- The fields that every fault record changes (R175, R383, R391). -/
def recordFields : List Field := [Reg.FLT_LOG_HEAD.COUNT, Reg.GLB_STATE_CHANGE.RECORD, Reg.FLT_MGMT_STATUS.DROPPED]

/-- Every register field but the listed ones reads as before. -/
def FieldsKept (l : List Field) (d e : Dev) : Prop := ∀ g : Field, g.key ∉ l.map Field.key → e.fld g = d.fld g

/-- Every byte of device memory reads as before. -/
def MemKept (d e : Dev) : Prop := ∀ a, e.peek a = d.peek a

/-- Every byte of device memory outside [a, a + n) reads as before. -/
def MemKeptOutside (a n : Nat) (d e : Dev) : Prop := ∀ q, q < a ∨ a + n ≤ q → e.peek q = d.peek q

/-- An address lies in the copy of the live table, which no agent can write from lock on (R302). -/
def liveCopy (d : Dev) (q : Nat) : Bool := d.locked && d.updArea + 0x1000 ≤ q && q < d.updArea + 0x2000

/-- No write that is mirrored finds its partner out of reach, so none writes a fault record (R162, R322). -/
abbrev MirrorHolds (d : Dev) : Prop := (d.mirrors && d.peerGone (d.fld Reg.VLT_MIRROR_PEER.FLAT_ID)) = false

/-- The bytes l are stored at a: every byte of theirs reads as stored, the copy of the live table apart, and every other byte
of device memory as before; of the host log this speaks only where the store writes no record. -/
def Stored (a : Nat) (l : List Byte) (d e : Dev) : Prop :=
  ∀ q, (MirrorHolds d ∨ q < d.logAddr 0 ∨ d.logAddr 0 + 0x4000 ≤ q) →
    e.peek q = if a ≤ q ∧ q < a + l.length ∧ liveCopy d q = false then l.getD (q - a) 0 else d.peek q

/-- Nothing changes but the listed register fields. -/
def OnlyFields (l : List Field) (d e : Dev) : Prop := e = { d with regs := e.regs } ∧ FieldsKept l d e

/-- Nothing changes but the listed register fields and what fault records and their MSI-X messages change: the host log,
the reports, the message state of vectors, and what leaves the block. -/
def OnlyReports (l : List Field) (d e : Dev) : Prop :=
  e = { d with regs := e.regs, mem := e.mem, flt := e.flt, hq := e.hq, out := e.out } ∧
    e.hq = { d.hq with pba := e.hq.pba, holdoff := e.hq.holdoff } ∧
    FieldsKept (l ++ recordFields) d e ∧ MemKeptOutside (d.logAddr 0) 0x4000 d e

/-- What the block holds beside its register fields, its host interface, its pins and its message port is as before: the
memory, the cores and every engine. -/
def EnginesKept (d e : Dev) : Prop :=
  e.mem = d.mem ∧ e.poison = d.poison ∧ e.evt = d.evt ∧ e.cores = d.cores ∧ e.runs = d.runs ∧ e.vec = d.vec ∧
    e.mfb = d.mfb ∧ e.migs = d.migs ∧ e.d2d = d.d2d ∧ e.opt = d.opt ∧ e.fab = d.fab ∧ e.stp = d.stp ∧ e.vlt = d.vlt ∧
    e.tgt = d.tgt ∧ e.lim = d.lim ∧ e.car = d.car ∧ e.upd = d.upd ∧ e.fuses = d.fuses ∧ e.flash = d.flash

/-- Descriptor j is at the head of ring r and starts now (R183, R196). -/
abbrev Starts (s : State) (r : Nat) (j : Desc) : Prop := s.dev.head? r = some j ∧ j.ring = r ∧ s.dev.starts j = true

/-- Vector code runs in the context x, its next instruction w is fetched, defined, within the limit, and meets no condition
that stops it (R120, R136). -/
abbrev VecGoes (d : Dev) (x w : Nat) : Prop :=
  d.vecRuns x = true ∧ d.vecWord x = w ∧ vecDefined w = true ∧ d.vecSpent x = false ∧
    d.firstPoison (d.ctx x).fetchAt 4 = none ∧ vecStopOf (d.vecEnv x) (d.ctx x) w = none ∧ d.loadPoison x w = none

/-- Register fields with a reset value of their own in the spec's register tables, and that value. -/
def resetShown : List (Field × Nat) :=
  [(Reg.GLB_ID.DEVICE, 0xC28), (Reg.CLK_REF_TOL.TOL, 0x3E8), (Reg.D2D_CTRL.RETRY_LIMIT, 8), (Reg.D2D_CTRL.RATE_LIMIT, 0x3E8),
    (Reg.ARR_CFG.BUBBLE_STAGGER, 1), (Reg.ARR_CFG.FAULT_WINDOW, 0x14), (Reg.ARR_SEQ_CFG.WAIT_LIMIT, 0x64),
    (Reg.ARR_VEC_CFG.LIMIT_EXP, 0x18), (Reg.VLT_CFG.SCRUB_HOURS, 0x18), (Reg.HQ_POLL_MIN.INTERVAL, 0x19),
    (Reg.HQ_POLL_MAX.INTERVAL, 0x2710), (Reg.HQ_WAIT_LIMIT.MS, 0x2710), (Reg.HQ_IRQ_HOLDOFF.HOLDOFF, 0xA),
    (Reg.OPT_CFG.TRAIN_TRIES, 8), (Reg.OPT_LANE_CFG.ALIGN_ERR, 4), (Reg.FAB_SELF.FLAT_ID, 0xFFFF), (Reg.FAB_CFG.HOP_LIMIT, 0x60),
    (Reg.CAR_CFG.CHUNK, 2), (Reg.CAR_CFG.WINDOW, 8), (Reg.CAR_WATCHDOG.MS, 0x64), (Reg.UPD_CFG.LIMIT_EXP, 0x10),
    (Reg.MFB_CFG.RESP_MS, 0x14), (Reg.TGT_CAP.CAP_W, 0xC80), (Reg.STP_CFG.GAP_MAX_US, 0x64), (Reg.FLT_CFG.HOLD_S, 0xA),
    (Reg.SEC_STAGE_BASE.BASE, 0x1B)]

end Sys2Proof.Machine
end

