-- ==== Sys2Proof/WellFormed.lean ====
section
/-! DEFINITION. Well-formed commands: the unit numbers an operand names exist in the package. -/

namespace Sys2Proof

open Machine

/-- Every unit that a command names exists: rings 0 to 15, logical cores 0 to 191, ports 0 to 47, links 0 to 19, and so on.
DESIGN CHOICE (log entry 1). -/
def Instr.wf (i : Instr) : Bool :=
  match i with
  | .resetRelease r => r.towerWords.length = 8 && r.profile < 4 && r.railsBad < 2 ^ 16
  | .resetNAssert => true
  | .pwrgoodFall => true
  | .perstNAssert => true
  | .perstNRelease => true
  | .thermtripAssert => true
  | .rootPllLockTimeout => true
  | .imageLoaded _ => true
  | .firmwareStartDone res => res.all (fun e => e.1 < 320)
  | .bootFinish => true
  | .bootWatchdog => true
  | .fuseAdvance => true
  | .rcvProgram => true
  | .rcvFlashDone _ => true
  | .rcvReset => true
  | .pllLockLoss k => k < 21
  | .pllRelock k => k < 20
  | .pllRelockTimeout k => k < 20
  | .refCheck dev => dev < 65536
  | .dividerChange => true
  | .regulatorReport => true
  | .stepUpAbandon => true
  | .d2dPacketStart l dir src dst p => l < 20 && dir < 2 && unitsOk l dir src dst && p.cls < 4 && p.payload.length ≤ 4096
  | .d2dFlitReceive l b dir f => bundleOk l b && dir < 2 && f.length = 128
  | .d2dReplayTimeout l b dir => bundleOk l b && dir < 2
  | .d2dRetrainDone l b res => bundleOk l b && res.passing.all (· < 68) && decide res.passing.Nodup
  | .d2dRecoveryFlitSend l b dir => bundleOk l b && dir < 2
  | .d2dRecoveryFlitReceive l dir f => l < 20 && dir < 2 && f.length = 128
  | .d2dRecoveryTimeout l b dir => bundleOk l b && dir < 2
  | .d2dBandSetDone l b => bundleOk l b
  | .d2dMarginBundleDone l b _ => bundleOk l b
  | .seqDispatch c _ => coreOk c
  | .runCheckDone ring _ => ring < 16
  | .wLoad c _ _ => coreOk c
  | .wLoadComplete c _ => coreOk c
  | .cbLoad c _ _ => coreOk c
  | .cbLoadComplete c _ => coreOk c
  | .stream c _ _ => coreOk c
  | .passEnd c _ _ => coreOk c
  | .faultCountClear c => coreOk c
  | .bubbleWindowStart c => coreOk c
  | .drain c _ _ => coreOk c
  | .convRecordRead c _ => coreOk c
  | .drainEnd c _ => coreOk c
  | .overflowReplay c => coreOk c
  | .vec c _ _ => coreOk c
  | .vecEnd c _ => coreOk c
  | .move c _ _ => coreOk c
  | .moveComplete c _ => coreOk c
  | .gather c _ _ => coreOk c
  | .gatherComplete c _ => coreOk c
  | .xfer c _ _ => coreOk c
  | .xferComplete c _ => coreOk c
  | .wait c => coreOk c
  | .waitMet c => coreOk c
  | .waitTimeout c => coreOk c
  | .coreStopAtBoundary c => coreOk c
  | .signal c => coreOk c
  | .signalFire c => coreOk c
  | .barrier c => coreOk c
  | .localBarrierRelease ring _ id => ring < 16 && id < 256
  | .replayMark c => coreOk c
  | .endOp c => coreOk c
  | .programComplete c => coreOk c
  | .arrayFault c cause arrays => coreOk c && faultOk cause arrays
  | .preemptRequest c => coreOk c
  | .preemptSave c _ => coreOk c
  | .preemptSaveDone c _ => coreOk c
  | .preemptRestore c => coreOk c
  | .preemptRestoreDone c _ => coreOk c
  | .halt x => ctxOk x
  | .vfp x => ctxOk x
  | .vint x => ctxOk x
  | .vcmp x => ctxOk x
  | .vperm x => ctxOk x
  | .vred x => ctxOk x
  | .vcvt x => ctxOk x
  | .vscl x => ctxOk x
  | .vpred x => ctxOk x
  | .vld x _ => ctxOk x
  | .vlds x _ => ctxOk x
  | .vldx x _ => ctxOk x
  | .vldw x _ => ctxOk x
  | .vldb x _ => ctxOk x
  | .vst x => ctxOk x
  | .vsts x => ctxOk x
  | .vstx x => ctxOk x
  | .vstn x => ctxOk x
  | .vstb x => ctxOk x
  | .salu x => ctxOk x
  | .saddi x => ctxOk x
  | .slui x => ctxOk x
  | .sori x => ctxOk x
  | .sld x _ => ctxOk x
  | .sst x => ctxOk x
  | .mtc x => ctxOk x
  | .mfc x => ctxOk x
  | .beq x => ctxOk x
  | .bne x => ctxOk x
  | .blt x => ctxOk x
  | .bltu x => ctxOk x
  | .jmp x => ctxOk x
  | .vecUndefined x => ctxOk x
  | .vecLimitExceeded x => ctxOk x
  | .vaultRead c off len e => coreOk c && 1 ≤ len && len ≤ 256 && off + len ≤ 0x100000000 && vaultErrOk c e
  | .vaultWrite c off data e again =>
    coreOk c && 1 ≤ data.length && data.length ≤ 256 && off + data.length ≤ 0x100000000 && vaultErrOk c e && againOk e again
  | .rowRepairFused bk row => bankOk bk && row < 8192
  | .bankSpareDone c bk => (coreOk c || c = 0xFF) && bankOk bk
  | .refreshDue col layer bank => col < 224 && layer < 16 && bank < 17
  | .patrolScrub t site _ _ _ => t < 8 && site < 28
  | .pipeRetrainDone c p _ => coreOk c && p < 20
  | .mirrorResyncDone => true
  | .vaultMarginPipeDone c p _ => coreOk c && p < 20
  | .migrationStart t => t < 8
  | .migrationInitDone t => t < 8
  | .migrationCopyDone t _ => t < 8
  | .migrationVerifyDone t _ _ => t < 8
  | .spareZeroDone c => coreOk c
  | .doorbellPoll _ => true
  | .descUndefined r => ringOk r
  | .descWaitTimeout r _ => ringOk r
  | .irqHoldoffExpire v => v < 256
  | .bar2Read o n _ => bar2Ok o n
  | .bar2Write o l _ => bar2Ok o l.length
  | .pcieLinkReset => true
  | .pcieD0Return _ c => pcieSetupOk c
  | .nop r => ringOk r
  | .eventAdd r => ringOk r
  | .eventSet r => ringOk r
  | .eventRead r => ringOk r
  | .run r => ringOk r
  | .dma r => ringOk r
  | .dmaComplete r _ _ => ringOk r
  | .collAllReduce r => ringOk r
  | .collReduceScatter r => ringOk r
  | .collAllGather r => ringOk r
  | .collBroadcast r => ringOk r
  | .collReduce r => ringOk r
  | .collGroup r => ringOk r
  | .collGroupDelete r => ringOk r
  | .get r => ringOk r
  | .getCached r => ringOk r
  | .put r => ringOk r
  | .putLine r => ringOk r
  | .invalidate r => ringOk r
  | .invalidateAll r => ringOk r
  | .aIadd r => ringOk r
  | .aFadd r => ringOk r
  | .aSwap r => ringOk r
  | .aCas r => ringOk r
  | .aUmax r => ringOk r
  | .aUmin r => ringOk r
  | .aOr r => ringOk r
  | .aAnd r => ringOk r
  | .rFadd r => ringOk r
  | .rIadd r => ringOk r
  | .rFmax r => ringOk r
  | .rFmin r => ringOk r
  | .updBind r => ringOk r
  | .updUnbind r => ringOk r
  | .updFreeze r => ringOk r
  | .updThaw r => ringOk r
  | .stepCfg r => ringOk r
  | .setCap r => r < 16
  | .setPolicyDramBand r => ringOk r
  | .setPolicyHighestPoint r => ringOk r
  | .setPolicyCollWatchdog r => ringOk r
  | .setPolicyAtomicRetry r => ringOk r
  | .actSelect r => ringOk r
  | .calReqOptical r => r < 16
  | .calReqD2d r => r < 16
  | .calReqVault r => r < 16
  | .calReqThermal r => r < 16
  | .marginVault r => r < 16
  | .marginOptical r => r < 16
  | .marginD2d r => r < 16
  | .optMarginLaneDone p lane _ => portOk p && lane < 18
  | .spareCore r => r < 16
  | .spareLimelight r => r < 16
  | .handoverExport r => ringOk r
  | .handoverImport r => ringOk r
  | .quiesce r => ringOk r
  | .resume r => ringOk r
  | .attest r => ringOk r
  | .fwStage r => ringOk r
  | .fwCommit r => ringOk r
  | .flashWriteDone _ => true
  | .setupLock => true
  | .evtDataWrite v => v < 2 ^ 32
  | .srTestWrite _ v => v < 2 ^ 64
  | .mgmtReqTake => true
  | .dbgSelWrite v => v < 2 ^ 32
  | .registerWrite off n v => off < 0x1000000 && n ≤ 4096 && v < 2 ^ (8 * n)
  | .linkBlockReceive p b => portOk p && b.length = 256
  | .resendTimer p => portOk p
  | .alignmentBeat p units => portOk p && units.length = 18 && units.all (fun u => u.length = 16)
  | .laneMove p _ => portOk p
  | .laneMoveAck p _ => portOk p
  | .laneMoveSwitch p _ slot => portOk p && slot < 16
  | .ident p _ => portOk p
  | .time p _ => portOk p
  | .marginReport p _ => portOk p
  | .calLane p _ => portOk p
  | .retrain p _ => portOk p
  | .controlResendTimer p => portOk p
  | .lightDetected p => portOk p
  | .lossOfLight p _ lanes => portOk p && lanes.all (· < 18)
  | .trainingComplete p r => portOk p && trainOk r
  | .trainingPhaseTimeout p _ => portOk p
  | .trainingRetryTimer p => portOk p
  | .miswireHoldExpire p => portOk p
  | .laneCalDue p => portOk p
  | .laneCalDone p _ => portOk p
  | .portCalDue p => portOk p
  | .portCalDrained p => portOk p
  | .timeBlockSend p => portOk p
  | .marginEstimate p lanes => portOk p && lanes.length = 18 && lanes.all (· < 65536)
  | .ringLockLoss p _ lanes => portOk p && lanes.all (· < 18)
  | .ringRelock p _ lane => portOk p && lane < 18
  | .linkRecoveryNotice _ => true
  | .recoveryNoticeTimeout p => portOk p
  | .lmPresence sl => slotOk sl
  | .cartridgeCheck sl a => slotOk sl && a.all (fun e => e.1.length = 72 && e.2.1.length = 3840 && e.2.2.length = 384)
  | .lmRemoval sl => slotOk sl
  | .cartridgePoll sl r => slotOk sl && r.all (fun r => r.power.length = 18)
  | .lifeAccounting sl => slotOk sl
  | .warmingTimeout sl => slotOk sl
  | .switchSettled sl _ => sl = 8 || sl = 9
  | .switchLightTimeout sl => sl = 8 || sl = 9
  | .packetRoute => true
  | .treeWaitTimeout => true
  | .takeoverNotice _ => true
  | .takeoverAck _ => true
  | .takeoverResend => true
  | .collSlotAssign => true
  | .exchangePacket _ => true
  | .exchangeAck _ => true
  | .exchangeResend => true
  | .carouselData _ => true
  | .chunkEnd _ _ => true
  | .grant _ => true
  | .poisonNotice _ => true
  | .abortNotice _ => true
  | .collWatchdog r _ => ringOk r
  | .earlyEntryExpire => true
  | .blockDispatch k => k < 64
  | .updateBlockEnd k _ => k < 64
  | .coreRingStart r => ringOk r
  | .mfbGetRequest _ => true
  | .mfbPutPacket _ _ => true
  | .mfbAtomicRequest _ _ => true
  | .mfbReductionPacket _ _ => true
  | .mfbMirrorWrite _ _ => true
  | .mfbPutLineCopy _ _ => true
  | .mfbNotify _ => true
  | .hotLineWrite line => line < 2 ^ 34
  | .mfbGetData _ => true
  | .mfbAcknowledgement _ => true
  | .mfbAtomicResult _ => true
  | .mfbError _ => true
  | .getRetry _ => true
  | .atomicRetry _ => true
  | .atomicDeadline _ => true
  | .mfbRespTimeout _ => true
  | .mfbWindowTimer => true
  | .tightropeSample x => x.rails.length = 16 && x.temps.length = 484
  | .ratioRamp => true
  | .opPointTick => true
  | .sensorRead node _ => node < 484 && hasSensor node
  | .emergencyHoldEnd => true
  | .rampSlowEnd => true
  | .criticalRelease => true
  | .bandDemotion u => u < 9
  | .telemetryReasonTimer => true
  | .stepArrival => true
  | .barrierRecord _ => true
  | .stepCommitDone => true
  | .stepRollback => true
  | .stepRollbackDone => true
  | .barrierAck _ => true
  | .barrierResend => true
  | .stepSyncEdge => true
  | .syncWindowEnd => true
  | .stepGapEnd => true
  | .timedFallback => true
  | .getState _ => true
  | .getRecords _ => true
  | .getSuspects _ => true
  | .setLost _ => true
  | .request _ => true
  | .mgmtReset _ => true
  | .reportAck _ => true
  | .reportResend => true
  | .suspectNotice _ => true
  | .suspectHoldExpire x => x < 65536
  | .suspectCountUpdate x => x < 65536
  | .manifest _ => true
  | .accept _ => true
  | .handoverData _ => true
  | .unitEnd _ _ => true
  | .unitAck _ => true
  | .handoverDone _ => true
  | .manifestResend => true
  | .handoverWaitTimeout => true
  | .handoverStall => true
  | .jtagBypass => true
  | .jtagIdcode => true
  | .jtagSamplePreload => true
  | .jtagExtest => true
  | .jtagExtestPulse => true
  | .jtagTrst _ => true
  | .internalResetPulseEnd r => r.towerWords.length = 8 && r.profile < 4 && r.railsBad < 2 ^ 16
  | .mgmtLinkUp => true
  | .mgmtLinkDown => true
  | .resultTableEntryExpire => true
  | .atomicSequenceFree => true
  | .attestComplete => true
  | .fwStageComplete r _ _ => ringOk r
  | .msixTableWrite dw v => dw < 1024 && v < 2 ^ 32

end Sys2Proof
end

