-- ==== Sys2Proof/Certificates/Slice0/Obligations.lean ====
section
/-! DEFINITION. The statements about the block, in the order of the spec's chapters. Each docstring names the rules of spec/ that its
statement formalises, and the log entry (notes/assumptions) of a choice of the model's that it rests on. -/

open Sys2Proof Sys2Proof.Machine

/-- STEP. A step runs the command at the front of the queue, with the queue's rest. -/
def Obligations.StepRunsFront : Prop :=
  ∀ (c : Instr) (s : State), step { s with pending := c :: s.pending } = exec c s

/-- STEP. With an empty queue and the device out of RESET, a step advances the time unit of R371 by one tick and the local clock by
one cycle, and changes nothing else but DBG_OBS and the free-value counter; with debug observation off DBG_OBS is 0 (DESIGN
CHOICE, log entry 2). -/
def Obligations.IdleStepTicks : Prop :=
  ∀ s : State, s.pending = [] → s.dev.st ≠ .reset →
    ∃ e : Dev, step s = .next { s with dev := e } ∧ e.stp = s.dev.stp.tick ∧
      e = { s.dev with stp := e.stp, pins := e.pins, fresh := e.fresh, clock := s.dev.clock + 1 } ∧ e.pins = { s.dev.pins with dbgObs := e.pins.dbgObs } ∧
      (s.dev.fld Reg.DBG_CTRL.ENABLE ≠ 1 → e.pins.dbgObs = 0)

/-- STEP. Every command faults exactly when an operand names a unit, a length or a value that no command of the table can carry;
none is refused; and a command leaves the commands that wait as they are. Model's choice: the fault is the model's choice (log
entry 1). -/
def Obligations.FaultIffIllFormed : Prop :=
  ∀ (c : Instr) (s : State),
    (exec c s = .fault .noSuchUnit ↔ c.wf = false) ∧ (∀ r, exec c s ≠ .refused r) ∧
    ∀ t : State, exec c s = .next t → t.pending = s.pending

/-- STEP. With only well-formed commands in the queue a step answers a next state, in which again only well-formed commands wait.
Model's choice: ill-formed commands and the empty queue are log entries 1 and 2. -/
def Obligations.WellFormedQueueRuns : Prop :=
  ∀ s : State, (∀ c ∈ s.pending, c.wf = true) → ∃ t : State, step s = .next t ∧ ∀ c ∈ t.pending, c.wf = true

/-- R11, R142. Device memory stays in its one canonical form, addresses strictly rising and no zero byte listed, under every step
that answers a next state, whatever the command. Model's choice: the form is the model's (log entry 4). -/
def Obligations.MemoryCanonical : Prop :=
  ∀ s t : State, memWf s.dev.mem = true → step s = .next t → memWf t.dev.mem = true

/-- R5, R429, R10, R184. After reset the block is in RESET and unlocked, no command waits, its outputs are at their levels of RESET,
memory lists nothing and is canonical, every event counter is 0, and register fields with a reset value of their own show it. -/
def Obligations.ResetState : Prop :=
  State.reset.pending = [] ∧ State.reset.dev.st = .reset ∧ State.reset.dev.locked = false ∧ memWf State.reset.dev.mem = true ∧
    (∀ i, State.reset.dev.evtGet i = 0) ∧ State.reset.dev.pins.lmEn = 0 ∧ State.reset.dev.pins.lmSwSel = 0 ∧
    State.reset.dev.pins.dbgObs = 0 ∧ State.reset.dev.pins.thermtripOut = false ∧ State.reset.dev.pins.flDriven = false ∧
    State.reset.dev.pins.avsRuns = false ∧ State.reset.dev.pins.lanesRun = false ∧
    (∀ e ∈ resetShown, State.reset.dev.fld e.1 = e.2)

/-- R429, R431, R415, R406, R420. RESET_N falling, and PWRGOOD falling, put the device into RESET from every state: every register
field is at its reset value, but SEC_ACT_NEXT while main power stays on; memory, cores and engines are as after reset; flash
changes only under a write that was in progress, and the outputs are at their levels of RESET. Fuses stay, but that power loss
can interrupt a fuse advance that is pending: the fused version then lies between the old one and the image's, and no
revocation is undone. Model's choice: which fuses an interrupted advance has blown is log entry 10. -/
def Obligations.ResetEntered : Prop :=
  ∀ s : State,
    Runs .resetNAssert s (fun e =>
      e.st = .reset ∧ e.pins.resetN = false ∧ e.locked = false ∧ EnginesKept { Dev.init with fuses := s.dev.fuses, flash := e.flash, vlt := Vlt.ofFuses s.dev.fuses.rows } e ∧
      (s.dev.boot.flashJob = none → e.flash = s.dev.flash) ∧
      FieldsKept [Reg.SEC_ACT_NEXT.ACT, Reg.SEC_ACT_NEXT.VALID] Dev.init e ∧
      (s.dev.pins.pwrgood = true → e.fld Reg.SEC_ACT_NEXT.ACT = s.dev.fld Reg.SEC_ACT_NEXT.ACT % 4 ∧
        e.fld Reg.SEC_ACT_NEXT.VALID = s.dev.fld Reg.SEC_ACT_NEXT.VALID % 2) ∧
      e.pins.lmEn = 0 ∧ e.pins.lmSwSel = 0 ∧ e.pins.dbgObs = 0 ∧ e.pins.thermtripOut = false ∧ e.pins.flDriven = false ∧
      e.pins.avsRuns = false ∧ e.pins.lanesRun = false) ∧
    Runs .pwrgoodFall s (fun e =>
      e.st = .reset ∧ e.pins.pwrgood = false ∧ e.locked = false ∧ EnginesKept { Dev.init with fuses := e.fuses, flash := e.flash, vlt := Vlt.ofFuses s.dev.fuses.rows } e ∧
      e.fuses = { s.dev.fuses with svn := e.fuses.svn, revoked := e.fuses.revoked } ∧
      (s.dev.fld Reg.SEC_FUSE.ADVANCE_PENDING ≠ 1 → e.fuses = s.dev.fuses) ∧ s.dev.fuses.svn ≤ e.fuses.svn ∧
      e.fuses.svn ≤ max s.dev.fuses.svn (leAt s.dev.boot.header 12 1) ∧
      (∀ k, s.dev.fuses.revoked.testBit k = true → e.fuses.revoked.testBit k = true) ∧
      (s.dev.boot.flashJob = none → e.flash = s.dev.flash) ∧ FieldsKept [] Dev.init e ∧
      e.pins.lmEn = 0 ∧ e.pins.lmSwSel = 0 ∧ e.pins.dbgObs = 0 ∧ e.pins.thermtripOut = false ∧ e.pins.flDriven = false ∧
      e.pins.avsRuns = false ∧ e.pins.lanesRun = false)

/-- R425, R174, R439. PERST_N resets the PCIe controller and its configuration space and nothing else; the link restarts when it
rises, out of RESET. -/
def Obligations.PerstResetsPcieOnly : Prop :=
  ∀ s : State,
    Gives .perstNAssert s { s.dev with
      pins := { s.dev.pins with perstN := false }
      hq := { s.dev.hq with pcieUp := false, busMaster := false, msixOn := false, pcie := PcieSetup.init, msixTab := [], pba := [] } } ∧
    Gives .perstNRelease s { s.dev with
      pins := { s.dev.pins with perstN := true }
      hq := { s.dev.hq with pcieUp := s.dev.st != .reset } }

/-- R429, R401, R402, R16, R430. Reset release, by the pins or at the end of an internal reset pulse, starts ROM: with the root PLL
locked, straps as R15 gives them and every rail in its window the device is in BOOT; a strap mismatch or a rail outside its
window halts it, the rail shown in DBG_RAIL_FAULT; without root lock it waits, and 2 ms without lock halt it. -/
def Obligations.BootStart : Prop :=
  ∀ (s : State) (r : RomInputs) (c : Instr),
    r.towerWords.length = 8 → r.profile < 4 → r.railsBad < 2 ^ 16 → s.dev.st = .reset →
    (c = .resetRelease r ∧ s.dev.boot.pulse = false ∨
      c = .internalResetPulseEnd r ∧ s.dev.boot.pulse = true ∧ s.dev.pins.pwrgood = true ∧ s.dev.pins.resetN = true) →
    (r.rootLock = true → strapFault r = none → r.railsBad = 0 →
      Runs c s (fun e => e.st = .boot ∧ e.boot.phase = .rom ∧ e.fld Reg.CLK_STATUS.ROOT_LOCK = 1 ∧
        e.fld Reg.SEC_ACT_NEXT.PINS = r.profile ∧ e.fld Reg.D2D_STRAP.HUB = r.hubWord % 2 ∧ e.pins.flDriven = true ∧
        e.mem = s.dev.mem ∧ e.fuses = s.dev.fuses ∧ e.flash = s.dev.flash)) ∧
    (r.rootLock = true → strapFault r ≠ none → Runs c s (fun e => e.st = .halted)) ∧
    (r.rootLock = true → strapFault r = none → r.railsBad ≠ 0 →
      Runs c s (fun e => e.st = .halted ∧ e.fld Reg.DBG_RAIL_FAULT.RAIL = r.railsBad)) ∧
    (r.rootLock = false →
      Runs c s (fun e => e.st = .boot ∧ e.boot.phase = .waitRoot) ∧
      ∀ t : State, t.dev.st = .boot → t.dev.boot.phase = .waitRoot → ms 2 ≤ t.dev.clk →
        Runs .rootPllLockTimeout t (fun e => e.st = .halted ∧ e.boot = t.dev.boot))

/-- R401, R402, R403, R405. The image phase: an image that passes every check is shown in SEC_STATUS and SEC_BUILD and boot goes on;
the first failure leads to a second read; a second failure in succession enters RECOVERY with the cause of the failed check (a
failed flash read is cause 0xC) and every LM_EN low. Model's choice: the order of the reads is log entry 10. -/
def Obligations.BootImage : Prop :=
  ∀ (s : State) (readErr : Bool), s.dev.st = .boot → s.dev.boot.phase = .rom →
    Runs (.imageLoaded readErr) s (fun e =>
      e.mem = s.dev.mem ∧ e.flash = s.dev.flash ∧ e.fuses = s.dev.fuses ∧
      (s.dev.flashCause readErr = 0 →
        e.st = .boot ∧ e.boot.phase = .image ∧ e.boot.header = s.dev.flashRead 0 1024 ∧ e.fld Reg.SEC_STATUS.IMAGE_OK = 1 ∧
        e.fld Reg.SEC_STATUS.KEY_SLOT = leAt (s.dev.flashRead 0 1024) 6 1 % 4 ∧
        e.fld Reg.SEC_STATUS.SVN = leAt (s.dev.flashRead 0 1024) 12 1 % 64 ∧
        e.fld Reg.SEC_BUILD.BUILD = leAt (s.dev.flashRead 0 1024) 16 4 % 2 ^ 32) ∧
      (s.dev.flashCause readErr ≠ 0 → s.dev.boot.fails = 0 → e = { s.dev with boot := { s.dev.boot with fails := 1 } }) ∧
      (s.dev.flashCause readErr ≠ 0 → s.dev.boot.fails ≠ 0 →
        e.st = .recovery ∧ e.fld Reg.SEC_STATUS.BOOT_CAUSE = s.dev.flashCause readErr % 16 ∧ e.pins.lmEn = 0)) ∧
    s.dev.flashCause true = 0xC

/-- R401, R402, R406, R371, R153. Firmware start shows every follower PLL locked, leaves every byte of the vaults zero and every
event counter 0, and stays in BOOT; BOOT_FINISH sets fabric time to 0 and enters READY with its duration and the new state
shown, a fuse advance pending when the image asked for one, and no byte of memory outside the host log changed; the watchdog, 10
s after reset release, enters RECOVERY with cause 0xB, every LM_EN low and memory as it was; the fuse advance raises the fused
version to the image's and, where the image asks for it, revokes every slot below its own, and changes nothing else. -/
def Obligations.BootToReady : Prop :=
  ∀ s : State,
    (∀ res : List (Nat × LaneResult), res.all (fun e => e.1 < 320) = true → s.dev.st = .boot → s.dev.boot.phase = .image →
      Runs (.firmwareStartDone res) s (fun e => e.st = .boot ∧ e.boot.phase = .firmware ∧ e.fld Reg.CLK_STATUS.TWR_LOCK = 0xFF ∧
        e.fld Reg.CLK_STATUS.ENG_LOCK = 0xFFF ∧ (∀ i, e.evtGet i = 0) ∧ ∀ a, a < 0xC000000000 → e.peek a = 0)) ∧
    (s.dev.st = .boot → s.dev.boot.phase = .firmware →
      Runs .bootFinish s (fun e => e.st = .ready ∧ e.stp.time = 0 ∧ e.fld Reg.SEC_BOOT_MS.MS = s.dev.clk / ms 1 % 2 ^ 16 ∧
        e.fld Reg.GLB_STATE_CHANGE.STATE = 1 ∧ (e.fld Reg.SEC_FUSE.ADVANCE_PENDING = 1 ↔ s.dev.boot.advance = true) ∧
        MemKeptOutside (e.logAddr 0) 0x4000 s.dev e ∧ e.locked = s.dev.locked)) ∧
    (s.dev.st = .boot → sec 10 ≤ s.dev.clk → Runs .bootWatchdog s (fun e => e.st = .recovery ∧ e.fld Reg.SEC_STATUS.BOOT_CAUSE = 0xB ∧
      e.pins.lmEn = 0 ∧ e.mem = s.dev.mem)) ∧
    (s.dev.up = true → s.dev.fld Reg.SEC_FUSE.ADVANCE_PENDING = 1 → Runs .fuseAdvance s (fun e =>
      OnlyFields [Reg.SEC_FUSE.ADVANCE_PENDING] { s.dev with fuses := e.fuses, boot := { s.dev.boot with advance := false } } e ∧
      e.fuses = { s.dev.fuses with svn := max s.dev.fuses.svn (leAt s.dev.boot.header 12 1), revoked := e.fuses.revoked } ∧
      (bit (leAt s.dev.boot.header 7 1) 0 = true → ∀ k, k < leAt s.dev.boot.header 6 1 → e.fuses.revoked.testBit k = true) ∧
      (∀ k, s.dev.fuses.revoked.testBit k = true → e.fuses.revoked.testBit k = true) ∧
      e.fld Reg.SEC_FUSE.ADVANCE_PENDING = 0))

/-- R408, R407, R405, R410. In RECOVERY a program command checks the image in Midway SRAM: one that passes is written (busy until
the write ends, then done with the flash holding it, or flash failed with cause 0xA and no valid image), one that fails is
rejected with its cause; a reset command puts the device into RESET. Model's choice: the header that a failed write leaves is
log entry 10. -/
def Obligations.RecoveryProgram : Prop :=
  ∀ s : State, s.dev.st = .recovery →
    (s.dev.fld Reg.SEC_RCV_CTRL.STATUS ≠ 1 → Runs .rcvProgram s (fun e =>
      OnlyFields [Reg.SEC_COMMIT.CAUSE, Reg.SEC_RCV_CTRL.STATUS] { s.dev with boot := e.boot } e ∧
      (s.dev.rcvCause = 0 → e.fld Reg.SEC_RCV_CTRL.STATUS = 1 ∧ e.boot.rcvJob = true) ∧
      (s.dev.rcvCause ≠ 0 → e.boot = s.dev.boot ∧ e.fld Reg.SEC_RCV_CTRL.STATUS = 3 ∧
        e.fld Reg.SEC_COMMIT.CAUSE = s.dev.rcvCause % 16))) ∧
    (∀ j : FlashJob, s.dev.boot.rcvJob = true → s.dev.boot.flashJob = some j →
      Runs (.rcvFlashDone true) s (fun e => e.fld Reg.SEC_RCV_CTRL.STATUS = 2 ∧ e.st = .recovery ∧
        e.flashRead j.addr j.data.length = j.data ∧ e.boot.flashJob = none) ∧
      Runs (.rcvFlashDone false) s (fun e => e.fld Reg.SEC_RCV_CTRL.STATUS = 4 ∧ e.fld Reg.SEC_COMMIT.CAUSE = 0xA ∧
        e.st = .recovery ∧ hdrFormatOk (e.flashRead 0 1024) = false)) ∧
    Runs .rcvReset s (fun e => e.st = .reset ∧ e.boot.pulse = true ∧ e.locked = false ∧ e.mem = [] ∧ e.fuses = s.dev.fuses)

/-- R5, R6. HALTED is left for RESET only, and while the device stays in it nothing computes: cores, runs, vector code, links,
ports, collectives, the update engine, Tightrope, vaults and cartridges stay as they are. Model's choice: what an empty queue
does is log entry 2. -/
def Obligations.HaltedUntilReset : Prop :=
  ∀ s t : State, s.dev.st = .halted → step s = .next t →
    t.dev.st = .reset ∨
    (t.dev.st = .halted ∧ t.dev.cores = s.dev.cores ∧ t.dev.runs = s.dev.runs ∧ t.dev.vec = s.dev.vec ∧ t.dev.d2d = s.dev.d2d ∧
      t.dev.opt = s.dev.opt ∧ t.dev.car = s.dev.car ∧ t.dev.upd = s.dev.upd ∧ t.dev.tgt = s.dev.tgt ∧ t.dev.vlt = s.dev.vlt ∧
      t.dev.lim = s.dev.lim ∧ t.dev.migs = s.dev.migs ∧ t.dev.fuses = s.dev.fuses ∧ t.dev.flash = s.dev.flash)

/-- R5, R429. RESET is left only by reset release: by the pins, or by the end of an internal reset pulse. Model's choice: what an
empty queue does is log entry 2. -/
def Obligations.ResetUntilRelease : Prop :=
  ∀ s t : State, s.dev.st = .reset → step s = .next t →
    t.dev.st = .reset ∨ ∃ r rest, s.pending = .resetRelease r :: rest ∨ s.pending = .internalResetPulseEnd r :: rest

/-- R444. A lock request outside READY, or with LOCKED = 1, is ignored; one in READY with LOCKED = 0 is honoured: it locks, or it is
refused with REFUSED set. No poll before the lock fetches a descriptor, whatever HQ_CTRL.ENABLE holds. A write that reaches the
device first takes effect first. -/
def Obligations.LockRequests : Prop :=
  ∀ s : State, s.dev.barUp = true →
    (s.dev.st ≠ .ready ∨ s.dev.locked = true → Gives .setupLock s s.dev) ∧
    (s.dev.st = .ready → s.dev.locked = false → Runs .setupLock s (fun e => e.locked = true ∨ e.fld Reg.GLB_LOCK_CHECK.REFUSED = 1)) ∧
    (∀ c, s.dev.locked = false → Gives (.doorbellPoll c) s s.dev) ∧
    (∀ w rest, step { s with pending := w :: .setupLock :: rest } = exec w { s with pending := .setupLock :: rest })

/-- R444, R445, R446, R302. A lock request is ignored except in READY with LOCKED = 0. One that finds areas that meet, or a core
request ring outside Midway SRAM, is refused, with AREAS naming them, and changes nothing else. One that passes sets LOCKED,
clears REFUSED and AREAS, zeroes the update area, records the fabric time, and leaves every byte of memory outside it and the
host log and every core as it was. -/
def Obligations.SetupLock : Prop :=
  ∀ s : State, s.dev.barUp = true →
    (s.dev.st ≠ .ready ∨ s.dev.locked = true → Gives .setupLock s s.dev) ∧
    (s.dev.st = .ready → s.dev.locked = false → s.dev.lockMask ≠ 0 → Runs .setupLock s (fun e =>
      OnlyFields [Reg.GLB_LOCK_CHECK.REFUSED, Reg.GLB_LOCK_CHECK.AREAS] s.dev e ∧ e.locked = false ∧
      e.fld Reg.GLB_LOCK_CHECK.REFUSED = 1 ∧ e.fld Reg.GLB_LOCK_CHECK.AREAS = s.dev.lockMask % 256)) ∧
    (s.dev.st = .ready → s.dev.locked = false → s.dev.lockMask = 0 → Runs .setupLock s (fun e =>
      e.locked = true ∧ e.st = .ready ∧ e.fld Reg.GLB_LOCK_CHECK.REFUSED = 0 ∧ e.fld Reg.GLB_LOCK_CHECK.AREAS = 0 ∧
      e.fld Reg.GLB_LOCK_TIME.TIME = s.dev.stp.time % 2 ^ 64 ∧
      (∀ a, midwayBase + 0x1000000 * s.dev.fld Reg.UPD_AREA.BASE ≤ a →
        a < midwayBase + 0x1000000 * s.dev.fld Reg.UPD_AREA.BASE + 0x1000000 → e.peek a = 0) ∧
      (∀ a, (a < midwayBase + 0x1000000 * s.dev.fld Reg.UPD_AREA.BASE ∨
          midwayBase + 0x1000000 * s.dev.fld Reg.UPD_AREA.BASE + 0x1000000 ≤ a) →
        (a < s.dev.logAddr 0 ∨ s.dev.logAddr 0 + 0x4000 ≤ a) → e.peek a = s.dev.peek a) ∧
      e.cores = s.dev.cores ∧ e.evt = s.dev.evt ∧ e.flash = s.dev.flash))

/-- R184, R447, R77. A write of EVT_DATA sets the counter that EVT_SEL selects, to the value, and no other counter, and changes
nothing else but the times since when waits on counters are met; after lock it is ignored and counted. A write of a test register
of the generator is stored, and ARR_SR_TEST_OUT then shows the generator word of the inputs; nothing but these registers
changes. -/
def Obligations.EventAndTestWrites : Prop :=
  ∀ s : State, s.dev.barUp = true →
    (∀ v, v < 2 ^ 32 → s.dev.answers 0x20004 = true → s.dev.locked = false → Runs (.evtDataWrite v) s (fun e =>
      e = { s.dev with evt := e.evt, mfb := e.mfb, met := e.met } ∧
      e.mfb = { s.dev.mfb with ringSince := e.mfb.ringSince } ∧ e.evtGet (s.dev.fld Reg.EVT_SEL.INDEX) = v ∧
      ∀ i, i ≠ s.dev.fld Reg.EVT_SEL.INDEX → e.evtGet i = s.dev.evtGet i)) ∧
    (∀ v, v < 2 ^ 32 → s.dev.answers 0x20004 = true → s.dev.locked = true → Runs (.evtDataWrite v) s (fun e =>
      OnlyFields [Reg.GLB_LOCK_CHECK.IGNORED] s.dev e ∧
      e.fld Reg.GLB_LOCK_CHECK.IGNORED = min 0xFFFF (s.dev.fld Reg.GLB_LOCK_CHECK.IGNORED + 1))) ∧
    (∀ v, v < 2 ^ 64 → s.dev.answers 0x70408 = true → Runs (.srTestWrite false v) s (fun e =>
      OnlyFields [Reg.ARR_SR_TEST_A.ELEM, Reg.ARR_SR_TEST_A.USE, Reg.ARR_SR_TEST_OUT.WORD] s.dev e ∧
      e.fld Reg.ARR_SR_TEST_A.ELEM = v % 2 ^ 48 ∧ e.fld Reg.ARR_SR_TEST_A.USE = v / 2 ^ 48 % 2 ^ 8 ∧
      e.fld Reg.ARR_SR_TEST_OUT.WORD = srWord (s.dev.fld Reg.ARR_SR_KEY.KEY) (s.dev.fld Reg.ARR_SR_TEST_B.STEP)
        (s.dev.fld Reg.ARR_SR_TEST_B.TENSOR) (v / 2 ^ 48 % 2 ^ 8) (v % 2 ^ 48) % 2 ^ 32)) ∧
    (∀ v, v < 2 ^ 64 → s.dev.answers 0x70408 = true → Runs (.srTestWrite true v) s (fun e =>
      OnlyFields [Reg.ARR_SR_TEST_B.STEP, Reg.ARR_SR_TEST_B.TENSOR, Reg.ARR_SR_TEST_OUT.WORD] s.dev e ∧
      e.fld Reg.ARR_SR_TEST_B.STEP = v % 2 ^ 32 ∧ e.fld Reg.ARR_SR_TEST_B.TENSOR = v / 2 ^ 32 % 2 ^ 24 ∧
      e.fld Reg.ARR_SR_TEST_OUT.WORD = srWord (s.dev.fld Reg.ARR_SR_KEY.KEY) (v % 2 ^ 32) (v / 2 ^ 32 % 2 ^ 24)
        (s.dev.fld Reg.ARR_SR_TEST_A.USE) (s.dev.fld Reg.ARR_SR_TEST_A.ELEM) % 2 ^ 32))

/-- R9, R441, R447. A write of BAR0 that is not of 32 or 64 bits, or not aligned to its width, is ignored, and so is a 32-bit write
of a block that does not answer, and a 32-bit write of ARR_SR_TEST_A, a register of 64 bits. EVT_SEL, a read-write register, takes
the value; GLB_STATE_CHANGE, a W1C register, changes alone, and its STATE bit clears where the value is 1 and stays where it is 0;
HQ_WAIT_LIMIT, an RWL register, takes the value before lock, and after lock it stays and the write is counted. Model's choice:
widths other than 32 and 64 bits are log entry 8. -/
def Obligations.RegisterAccessCodes : Prop :=
  ∀ s : State, s.dev.barUp = true →
    (∀ off n v, off < 0x1000000 → n ≤ 4096 → v < 2 ^ (8 * n) → ¬(n = 4 ∧ off % 4 = 0) → ¬(n = 8 ∧ off % 8 = 0) →
      Gives (.registerWrite off n v) s s.dev) ∧
    (∀ off v, off < 0x1000000 → v < 2 ^ 32 → s.dev.answers off = false → Gives (.registerWrite off 4 v) s s.dev) ∧
    (∀ v, v < 2 ^ 32 → Gives (.registerWrite 0x70408 4 v) s s.dev) ∧
    (∀ v, v < 2 ^ 32 → s.dev.answers 0x20000 = true → Runs (.registerWrite 0x20000 4 v) s (fun e =>
      OnlyFields [Reg.EVT_SEL.INDEX] s.dev e ∧ e.fld Reg.EVT_SEL.INDEX = v % 2 ^ 16)) ∧
    (∀ v, v < 2 ^ 32 → Runs (.registerWrite 0x8 4 v) s (fun e =>
      OnlyFields [Reg.GLB_STATE_CHANGE.STATE, Reg.GLB_STATE_CHANGE.FLAGS, Reg.GLB_STATE_CHANGE.RECORD,
        Reg.GLB_STATE_CHANGE.REQUEST] s.dev e ∧
      (v % 2 = 1 → e.fld Reg.GLB_STATE_CHANGE.STATE = 0) ∧
      (v % 2 = 0 → s.dev.fld Reg.GLB_STATE_CHANGE.STATE < 2 →
        e.fld Reg.GLB_STATE_CHANGE.STATE = s.dev.fld Reg.GLB_STATE_CHANGE.STATE))) ∧
    (∀ v, v < 2 ^ 32 → s.dev.answers 0x1000C = true → s.dev.locked = false → Runs (.registerWrite 0x1000C 4 v) s (fun e =>
      OnlyFields [Reg.HQ_WAIT_LIMIT.MS] s.dev e ∧ e.fld Reg.HQ_WAIT_LIMIT.MS = v % 2 ^ 16)) ∧
    (∀ v, v < 2 ^ 32 → s.dev.answers 0x1000C = true → s.dev.locked = true → Runs (.registerWrite 0x1000C 4 v) s (fun e =>
      OnlyFields [Reg.GLB_LOCK_CHECK.IGNORED] s.dev e ∧ e.fld Reg.HQ_WAIT_LIMIT.MS = s.dev.fld Reg.HQ_WAIT_LIMIT.MS ∧
      e.fld Reg.GLB_LOCK_CHECK.IGNORED = min 0xFFFF (s.dev.fld Reg.GLB_LOCK_CHECK.IGNORED + 1)))

/-- R9, R441. A write that does not reach GLB_SETUP_LOCK or SEC_RCV_CTRL changes register fields and event counters alone, and the
times since when waits on counters are met (in the fields met and mfb): memory, cores, every other engine, the lock and the device
state stay. -/
def Obligations.RegisterWriteFrame : Prop :=
  ∀ (s t : State) (off n v : Nat), exec (.registerWrite off n v) s = .next t →
    off ≠ 0xC → off + n ≠ 0x10 → off ≠ 0x100064 → off + n ≠ 0x100068 →
    t.dev = { s.dev with regs := t.dev.regs, evt := t.dev.evt, mfb := t.dev.mfb, met := t.dev.met } ∧
      t.dev.mfb = { s.dev.mfb with ringSince := t.dev.mfb.ringSince }

/-- R436, R438. A write of DBG_SEL selects the unit and the group, but group 0 for a unit outside the range of group 4, 5 or 6, or for
a group from 0x80 on without the policy fuse. With TRST_N high each JTAG instruction is loaded and changes nothing else but what is shifted out; EXTEST and
EXTEST_PULSE act as BYPASS except in RESET with RESET_N low. TRST_N low holds the port in Test-Logic-Reset and changes nothing
else (that IDCODE is selected there is log entry 15, from IEEE 1149.1). -/
def Obligations.DebugPorts : Prop :=
  ∀ s : State,
    (∀ v, v < 2 ^ 32 → s.dev.barUp = true → s.dev.answers 0x120004 = true → Runs (.dbgSelWrite v) s (fun e =>
      OnlyFields [Reg.DBG_SEL.UNIT, Reg.DBG_SEL.GROUP] s.dev e ∧ e.fld Reg.DBG_SEL.UNIT = v / 256 % 256 ∧
      (v % 256 < 0x80 → v % 256 ≠ 4 → v % 256 ≠ 5 → v % 256 ≠ 6 → e.fld Reg.DBG_SEL.GROUP = v % 256) ∧
      (v % 256 = 4 → e.fld Reg.DBG_SEL.GROUP = if v / 256 % 256 < 192 then 4 else 0) ∧
      (v % 256 = 5 → e.fld Reg.DBG_SEL.GROUP = if v / 256 % 256 < 20 then 5 else 0) ∧
      (v % 256 = 6 → e.fld Reg.DBG_SEL.GROUP = if v / 256 % 256 < 48 then 6 else 0) ∧
      (Config.dbgRestricted = false → 0x80 ≤ v % 256 → e.fld Reg.DBG_SEL.GROUP = 0))) ∧
    (s.dev.pins.trstN = true →
      Gives .jtagBypass s { s.dev with pins := { s.dev.pins with jtag := .bypass } } ∧
      Gives .jtagIdcode s { s.dev with pins := { s.dev.pins with jtag := .idcode }, out := .jtag s.dev.idcode :: s.dev.out } ∧
      Gives .jtagSamplePreload s { s.dev with pins := { s.dev.pins with jtag := .samplePreload } } ∧
      (s.dev.st = .reset → s.dev.pins.resetN = false →
        Gives .jtagExtest s { s.dev with pins := { s.dev.pins with jtag := .extest } } ∧
        Gives .jtagExtestPulse s { s.dev with pins := { s.dev.pins with jtag := .extestPulse } }) ∧
      (s.dev.st ≠ .reset ∨ s.dev.pins.resetN = true →
        Gives .jtagExtest s { s.dev with pins := { s.dev.pins with jtag := .bypass } } ∧
        Gives .jtagExtestPulse s { s.dev with pins := { s.dev.pins with jtag := .bypass } })) ∧
    Gives (.jtagTrst false) s { s.dev with pins := { s.dev.pins with trstN := false, jtag := .idcode } } ∧
    Gives (.jtagTrst true) s { s.dev with pins := { s.dev.pins with trstN := true } }

/-- R174, R175. A link reset resets the PCIe controller's configuration space and stops polling, and changes nothing else. The end
of a hold-off frees its vector; completions that waited share one message. A write that unmasks a vector sends its pending
message; one to a vector with none pending is stored and no more. -/
def Obligations.LinkAndVectors : Prop :=
  ∀ s : State,
    (s.dev.hq.pcieUp = true → Gives .pcieLinkReset s { s.dev with
      hq := { s.dev.hq with pcieUp := false, busMaster := false, msixOn := false, pcie := PcieSetup.init, msixTab := [], pba := [] } }) ∧
    (∀ v t, v < 256 → Tab.get .idle s.dev.hq.holdoff v = .holding t → s.dev.holdoffOver v = true → Gives (.irqHoldoffExpire v) s
      { s.dev with hq := { s.dev.hq with holdoff := Tab.set .idle s.dev.hq.holdoff v .idle } }) ∧
    (∀ v t, v < 256 → Tab.get .idle s.dev.hq.holdoff v = .waiting t → s.dev.holdoffOver v = true → Runs (.irqHoldoffExpire v) s (fun e =>
      e.regs = s.dev.regs ∧ e.mem = s.dev.mem ∧
      (s.dev.msixMasked v = false → e.out = .msix v :: s.dev.out ∧ e.hq.pba = s.dev.hq.pba) ∧
      (s.dev.msixMasked v = true → e.out = s.dev.out ∧ Tab.get false e.hq.pba v = true) ∧
      (s.dev.fld Reg.HQ_IRQ_HOLDOFF.HOLDOFF ≠ 0 → Tab.get .idle e.hq.holdoff v = .holding s.dev.clk))) ∧
    (∀ dw v, dw < 1024 → v < 2 ^ 32 → s.dev.hq.pcieUp = true → Tab.get false s.dev.hq.pba (dw / 4) = false →
      Gives (.msixTableWrite dw v) s { s.dev with hq := { s.dev.hq with
        msixTab := Tab.set (if dw % 4 = 3 then 1 else 0) s.dev.hq.msixTab dw
          (if dw % 4 = 3 then v % 2 else if dw % 4 = 0 then v / 4 * 4 else v) } }) ∧
    (∀ n v, n < 256 → v < 2 ^ 32 → v % 2 = 0 → s.dev.hq.pcieUp = true → s.dev.hq.msixOn = true →
      Tab.get false s.dev.hq.pba n = true → Tab.get .idle s.dev.hq.holdoff n = .idle →
      Runs (.msixTableWrite (4 * n + 3) v) s (fun e =>
        e.out = .msix n :: s.dev.out ∧ Tab.get false e.hq.pba n = false ∧ e.regs = s.dev.regs ∧ e.mem = s.dev.mem))

/-- R174, R177, R178, R182. When the function is back in D0 with Bus Master Enable, its link is up and its configuration space as
set; a completion record that a ring holds is written when the ring has room, and no message stays pending of a vector that is
not masked; the device state, the cores, memory and the event counters stay. A poll takes the tail and the completion head of a
ring from the doorbell area as the host has it, when the tail is valid; the started descriptors, the device state, the cores,
memory and the event counters stay. -/
def Obligations.PollingResumes : Prop :=
  ∀ s : State,
    (∀ (m : Bool) (c : PcieSetup), pcieSetupOk c = true → s.dev.st ≠ .reset → s.dev.pins.perstN = true →
      Runs (.pcieD0Return m c) s (fun e => e.st = s.dev.st ∧ e.hq.pcieUp = true ∧ e.hq.busMaster = true ∧ e.hq.msixOn = m ∧ e.hq.pcie = c ∧
        e.cores = s.dev.cores ∧ e.mem = s.dev.mem ∧ e.evt = s.dev.evt ∧
        (∀ r, r < 16 → (s.dev.ring r).held = [] → (e.ring r).cqTail = (s.dev.ring r).cqTail) ∧
        (∀ r h, r < 16 → s.dev.locked = true → s.dev.fld Reg.HQ_CTRL.ENABLE = 1 → (s.dev.ring r).held = [h] →
          s.dev.cqRoom r = true → (e.ring r).held = [] ∧ (e.ring r).cqTail = ((s.dev.ring r).cqTail + 1) % 2 ^ 32) ∧
        ∀ v, v < 256 → m = true → Tab.get 1 s.dev.hq.msixTab (4 * v + 3) % 2 = 0 → Tab.get false e.hq.pba v = false)) ∧
    (∀ c, s.dev.up = true → s.dev.polls = true →
      Runs (.doorbellPoll c) s (fun e => e.st = s.dev.st ∧ e.cores = s.dev.cores ∧ e.mem = s.dev.mem ∧ e.evt = s.dev.evt ∧
        e.hq.hostErr = c.errs ∧ (∀ r, r < 16 → (e.ring r).started = (s.dev.ring r).started) ∧
        ∀ r a t, r < 16 → s.dev.ringOn r = true → a = s.dev.fld Reg.HQ_DB_ADDR.ADDR / 128 * 128 →
          (s.dev.hostChange c).hostErrIn a 128 = false → t = leAt ((s.dev.hostChange c).hostRead a 128) (4 * r) 4 →
          s.dev.tailOk r t = true →
          (e.ring r).tail = t ∧ (e.ring r).cqHead = leAt ((s.dev.hostChange c).hostRead a 128) (64 + 4 * r) 4))

/-- R183, R184, R190, R192, R198, R317, R449. NOP completes DONE; an undefined opcode completes BAD_OPCODE; EVENT adds to a counter,
sets it, or writes it to host memory, and completes DONE; an EVENT add whose checks fail completes with their failure, and an
EVENT of no defined operation with BAD_FIELD at byte 24. A descriptor at the head of a host ring, or the next one of a core
request ring, whose waits have not been met for HQ_WAIT_LIMIT completes TIMEOUT with the index of the counter it waits for.
Model's choice: an event operation of no defined kind is log entry 16. -/
def Obligations.PlainDescriptors : Prop :=
  (∀ (s : State) (r : Nat) (j : Desc), r < 16 → Starts s r j →
      (j.opc = 0x01 → j.reservedByte [] = none →
        Gives (.nop r) s ((s.dev.popHead r).finish j ⟨.done, Detail.none⟩)) ∧
      (opcDefined j.opc = false → Gives (.descUndefined r) s ((s.dev.popHead r).finish j ⟨.badOpcode, Detail.none⟩)) ∧
      (isEvent 0 j = true → s.dev.eventCheck j = none →
        Gives (.eventAdd r) s (((s.dev.popHead r).evtAdd (j.num 26 2) (j.num 28 4)).finish j ⟨.done, Detail.none⟩)) ∧
      (isEvent 1 j = true → s.dev.eventCheck j = none →
        Gives (.eventSet r) s
          ((((s.dev.popHead r).evtSet (j.num 26 2) (j.num 28 4)).bump Reg.EVT_SIGNALS.COUNT 1).finish j ⟨.done, Detail.none⟩)) ∧
      (isEvent 2 j = true → s.dev.eventCheck j = none → s.dev.refDev (j.refIdx 32) = false →
        Gives (.eventRead r) s (((s.dev.popHead r).hostWrite (s.dev.refAddr (j.refIdx 32) (j.refOff 32))
          (leBytes 4 (s.dev.evtGet (j.num 26 2)))).finish j ⟨.done, Detail.none⟩)) ∧
      (∀ e, isEvent 0 j = true → s.dev.eventCheck j = some e → Gives (.eventAdd r) s ((s.dev.popHead r).finish j e)) ∧
      (isEvent 2 j = true → j.fb 24 0 2 = 3 → j.reservedByte [(24, 0, 2), (26, 0, 16), (28, 0, 32), (32, 0, 64)] = none →
        Gives (.eventRead r) s ((s.dev.popHead r).finish j ⟨.badField, { Detail.none with fieldByte := 24 }⟩))) ∧
  (∀ (s : State) (r : Nat) (j : Desc), r < 16 → s.dev.head? r = some j → s.dev.up = true → s.dev.ringOn r = true →
      s.dev.startRoom r = true → s.dev.waitsMet j = false → s.dev.fld Reg.HQ_WAIT_LIMIT.MS ≠ 0 →
      ms (s.dev.fld Reg.HQ_WAIT_LIMIT.MS) ≤ s.dev.clk - j.since →
      Gives (.descWaitTimeout r false) s ((s.dev.popHead r).finish j
        ⟨.timeout, { Detail.none with aux := if s.dev.wait0Met j then j.num 8 2 else j.num 2 2 }⟩)) ∧
  (∀ (s : State) (r : Nat) (j : Desc), r < 16 → s.dev.coreHead r = true → s.dev.nextCoreDesc r = j →
      s.dev.waitsMet j = false → s.dev.fld Reg.HQ_WAIT_LIMIT.MS ≠ 0 →
      ms (s.dev.fld Reg.HQ_WAIT_LIMIT.MS) ≤ s.dev.clk - Tab.get 0 s.dev.mfb.ringSince r →
      Gives (.descWaitTimeout r true) s ((s.dev.popCore r).coreRecord j
        ⟨.timeout, { Detail.none with aux := if s.dev.wait0Met j then j.num 8 2 else j.num 2 2 }⟩))

/-- R185, R188, R182. A good completion of a descriptor that signals raises its counter by SIG_ADD modulo 2^32; one that does not
signal leaves the counters. With room in the completion ring and the host in reach, the record's first 12 bytes at its entry
hold status, ring, phase, opcode, index and the user word, and the ring's tail moves on by one; otherwise the record is held and
host memory stays. Device memory and the cores stay, and the descriptor is no longer among those started. -/
def Obligations.CompletionRecord : Prop :=
  ∀ (d : Dev) (j : Desc) (x : Ending), j.ring < 16 → (d.ring j.ring).held = [] → (d.ring j.ring).cqTail < 2 ^ 32 →
    (j.fb 1 2 1 = 1 → x.st.good = true → (d.finish j x).evtGet (j.num 10 2) = (d.evtGet (j.num 10 2) + j.num 16 4) % 2 ^ 32) ∧
    (j.fb 1 2 1 = 0 → (d.finish j x).evt = d.evt) ∧
    (d.finish j x).mem = d.mem ∧ (d.finish j x).cores = d.cores ∧
    ((d.finish j x).ring j.ring).fetched = (d.ring j.ring).fetched ∧
    ((d.finish j x).ring j.ring).started = (d.ring j.ring).started.filter (fun y => y.sub != j.sub) ∧
    (d.polls = true → d.cqRoom j.ring = true →
      ((d.finish j x).ring j.ring).cqTail = ((d.ring j.ring).cqTail + 1) % 2 ^ 32 ∧
      ((d.finish j x).ring j.ring).held = [] ∧
      (d.finish j x).hostRead (d.fld (Reg.HQ_CQ_BASE.ADDR j.ring) / 0x1000 * 0x1000 +
        32 * ((d.ring j.ring).cqTail % ringSize (d.fld (Reg.HQ_CQ_CFG.LOG2_SIZE j.ring)))) 12 =
        leBytes 1 x.st.code ++ leBytes 1 (j.ring + 128 * d.phase j.ring) ++ leBytes 1 j.opc ++ [0] ++ leBytes 4 j.sub ++
          slice j.bytes 20 4) ∧
    (d.polls = false ∨ d.cqRoom j.ring = false →
      ((d.finish j x).ring j.ring).cqTail = (d.ring j.ring).cqTail ∧
      (d.finish j x).hq.host = d.hq.host ∧ ((d.finish j x).ring j.ring).held.length = 1)

/-- R187, R192, R302. A DMA of length 0 completes DONE as soon as it starts; any other is in flight from its start; a DMA that its
checks refuse moves no byte of device memory, and one that reaches past the end of its source region is refused so. A DMA into
device memory ends with the source's bytes stored at its destination and every byte outside it as before (the copy of the live
table, which no write reaches, apart); one into host memory leaves device memory as it was, writes the bytes there and completes
DONE; a lost core at its source ends it STATE_LOST with no byte of device memory changed. Model's choice: when the bytes move, and
that none moves on an error, is log entry 13. -/
def Obligations.DmaCopies : Prop :=
  (∀ (s : State) (r : Nat) (j : Desc), r < 16 → Starts s r j → j.opc = 0x20 →
      (s.dev.dmaCheck j = none → j.dmaLen = 0 → Gives (.dma r) s ((s.dev.popHead r).finish j ⟨.done, Detail.none⟩)) ∧
      (s.dev.dmaCheck j = none → j.dmaLen ≠ 0 → Gives (.dma r) s (s.dev.popHead r)) ∧
      (∀ e, s.dev.dmaCheck j = some e → Runs (.dma r) s (fun d => d = (s.dev.popHead r).finish j e ∧ MemKept s.dev d)) ∧
      (∀ l o, j.reserved [(24, 0, 64), (32, 0, 64), (40, 0, 32)] = none → s.dev.refOk (j.refIdx 24) true false = true →
        s.dev.refOk (j.refIdx 32) false true = true → l = s.dev.fld (Reg.HQ_REGION_LEN.LEN (j.refIdx 24)) → o = j.refOff 24 →
        (s.dev.dmaDev j 24 = true ∨ s.dev.dmaDev j 32 = true) → s.dev.dmaDev j 32 = false → l < o + j.dmaLen →
        s.dev.dmaCheck j = some ⟨.lengthExceeds, { Detail.none with fieldByte := 24, aux := j.refIdx 24 }⟩)) ∧
  (∀ (s : State) (r k : Nat) (j : Desc) (x : Ecc), r < 16 → s.dev.up = true → s.dev.desc? (r, k) = some j → j.opc = 0x20 →
      x.ue = [] →
      (s.dev.dmaDev j 24 = false → s.dev.dmaDev j 32 = true → s.dev.dmaSrcErr j = none → s.dev.dmaDstErr j = none →
        Runs (.dmaComplete r k x) s (fun e =>
          Stored (s.dev.dmaDst j) (s.dev.hostRead (s.dev.dmaSrc j) j.dmaLen) s.dev e ∧ e.cores = s.dev.cores)) ∧
      (s.dev.dmaDev j 24 = true → s.dev.dmaDev j 32 = true → s.dev.dmaSrcErr j = none → s.dev.dmaDstErr j = none →
        s.dev.dmaSrc j < mirrorBase → overlaps (s.dev.dmaSrc j) j.dmaLen (s.dev.dmaDst j) j.dmaLen = false →
        Runs (.dmaComplete r k x) s (fun e =>
          Stored (s.dev.dmaDst j) (s.dev.read (s.dev.dmaSrc j) j.dmaLen) s.dev e ∧ e.cores = s.dev.cores)) ∧
      (s.dev.dmaDev j 32 = false → s.dev.dmaSrcErr j = none → Runs (.dmaComplete r k x) s (fun e =>
        MemKept s.dev e ∧ e.cores = s.dev.cores ∧ ∃ d : Dev, d.hq.host =
          (s.dev.hostWrite (s.dev.dmaDst j) (s.dev.srcRead (s.dev.dmaSrc j) j.dmaLen)).hq.host ∧ e = d.finish j ⟨.done, Detail.none⟩)) ∧
      (∀ c, s.dev.dmaSrcErr j = some (.lostCore c) → Runs (.dmaComplete r k x) s (fun e =>
        MemKept s.dev e ∧ ∃ d : Dev, e = d.finish j ⟨.stateLost, { Detail.none with lcore := c }⟩)))

/-- R172, R173, R302. A BAR2 access within the window: a read of populated memory without an error returns its bytes and changes
nothing; a read of an unpopulated address or of a lost core returns poisoned data and is counted, and changes no byte of memory.
A write that may be made is stored, and every other byte stays, the copy of the live table apart; a write to an unpopulated
address, a lost core or part of a poisoned unit, or where BAR2 reaches no memory, is dropped and counted, and changes nothing
else. Model's choice: what is counted as a dropped access is log entry 14. -/
def Obligations.Bar2Accesses : Prop :=
  ∀ s : State,
    (∀ o n a, bar2Ok o n = true → s.dev.bar2Up o n = true → s.dev.bar2Addr o = some a → a < mirrorBase → s.dev.readErr a n = none →
      Gives (.bar2Read o n ⟨[], []⟩) s { s.dev with out := .readData (s.dev.read a n) false :: s.dev.out }) ∧
    (∀ o n a, bar2Ok o n = true → s.dev.bar2Up o n = true → s.dev.bar2Addr o = some a → a < mirrorBase →
      (s.dev.readErr a n = some .unpopulated ∨ ∃ c, s.dev.readErr a n = some (.lostCore c)) →
      Runs (.bar2Read o n ⟨[], []⟩) s (fun e =>
        e.fld Reg.HQ_BAR2_ERR.READS = min 0xFFFF (s.dev.fld Reg.HQ_BAR2_ERR.READS + 1) ∧ MemKept s.dev e ∧
        FieldsKept [Reg.HQ_BAR2_ERR.READS] s.dev e ∧ ∃ l, e.out = .readData l true :: s.dev.out)) ∧
    (∀ o l a, bar2Ok o l.length = true → s.dev.bar2Up o l.length = true → s.dev.bar2Addr o = some a →
      s.dev.accErr a l.length = none → s.dev.partAt a l.length = none → Runs (.bar2Write o l ⟨[], []⟩) s (fun e =>
        Stored a l s.dev e ∧ e.cores = s.dev.cores ∧ (s.dev.mirrors = false → e.regs = s.dev.regs))) ∧
    (∀ o l a, bar2Ok o l.length = true → s.dev.bar2Up o l.length = true → s.dev.bar2Addr o = some a →
      (s.dev.accErr a l.length ≠ none ∨ s.dev.partAt a l.length ≠ none) → Runs (.bar2Write o l ⟨[], []⟩) s (fun e =>
        OnlyFields [Reg.HQ_BAR2_ERR.WRITES] s.dev e ∧
        e.fld Reg.HQ_BAR2_ERR.WRITES = min 0xFFFF (s.dev.fld Reg.HQ_BAR2_ERR.WRITES + 1))) ∧
    (∀ o l, bar2Ok o l.length = true → s.dev.bar2Up o l.length = true → s.dev.bar2Addr o = none → Runs (.bar2Write o l ⟨[], []⟩) s (fun e =>
      OnlyFields [Reg.HQ_BAR2_ERR.WRITES] s.dev e ∧
      e.fld Reg.HQ_BAR2_ERR.WRITES = min 0xFFFF (s.dev.fld Reg.HQ_BAR2_ERR.WRITES + 1)))

/-- R33, R34. The root PLL's loss of lock halts the device and is shown in CLK_LOCK_LOSS, with the cores and RUNs as they were. A
follower's loss clears its lock bit and is shown; a tower's, with no pass in flight there, changes nothing else but the note that
its record is still to come. A relock gives that record and sets the bit again; a tower whose PLL does not relock gets the record
and loses its cores. The reference check stores the deviation and asserts the alert at the tenth deviation in a row above the
tolerance, and writes no record but at the tenth. -/
def Obligations.ClockEvents : Prop :=
  ∀ s : State,
    (s.dev.inSt [.boot, .recovery, .ready, .running, .quiesced] = true → s.dev.fld Reg.CLK_STATUS.ROOT_LOCK = 1 →
      Runs (.pllLockLoss 20) s (fun e => e.st = .halted ∧ e.fld Reg.CLK_STATUS.ROOT_LOCK = 0 ∧
        e.fld Reg.CLK_LOCK_LOSS.ROOT = 1 ∧ e.cores = s.dev.cores ∧ e.runs = s.dev.runs)) ∧
    (∀ k, k < 8 → s.dev.inSt [.boot, .recovery, .ready, .running, .quiesced] = true → s.dev.linkLocked k = true →
      (∀ i, i < 24 → (s.dev.core (24 * k + i)).passes = []) → Runs (.pllLockLoss k) s (fun e =>
        OnlyFields [Reg.CLK_STATUS.TWR_LOCK, Reg.CLK_LOCK_LOSS.TWR] { s.dev with pllOpen := setBit s.dev.pllOpen k true } e ∧
        e.fld Reg.CLK_STATUS.TWR_LOCK = setBit (s.dev.fld Reg.CLK_STATUS.TWR_LOCK) k false % 256 ∧
        e.fld Reg.CLK_LOCK_LOSS.TWR = setBit (s.dev.fld Reg.CLK_LOCK_LOSS.TWR) k true % 256)) ∧
    (∀ k, 8 ≤ k → k < 20 → s.dev.inSt [.boot, .recovery, .ready, .running, .quiesced] = true → s.dev.linkLocked k = true →
      Runs (.pllLockLoss k) s (fun e => e.lossOpen k = true ∧
        e.fld Reg.CLK_STATUS.ENG_LOCK = setBit (s.dev.fld Reg.CLK_STATUS.ENG_LOCK) (k - 8) false % 4096 ∧
        e.fld Reg.CLK_LOCK_LOSS.ENG = setBit (s.dev.fld Reg.CLK_LOCK_LOSS.ENG) (k - 8) true % 4096)) ∧
    (∀ k, 8 ≤ k → k < 20 → s.dev.st ≠ .reset → s.dev.linkLocked k = false → s.dev.lossOpen k = true →
      Gives (.pllRelock k) s ((({ s.dev with pllOpen := setBit s.dev.pllOpen k false } : Dev).record
        (.mk1 1 2 (0x10 + (k - 8)) [1])).setFldBit Reg.CLK_STATUS.ENG_LOCK (k - 8) true)) ∧
    (∀ k, k < 8 → s.dev.st ≠ .reset → s.dev.linkLocked k = false → s.dev.lossOpen k = true →
      (∀ i, i < 24 → (s.dev.core (24 * k + i)).passes = []) →
      Gives (.pllRelock k) s ((({ s.dev with pllOpen := setBit s.dev.pllOpen k false } : Dev).record
        (.mk1 1 2 k [1])).setFldBit Reg.CLK_STATUS.TWR_LOCK k true)) ∧
    (∀ k, k < 8 → s.dev.live = true → s.dev.linkLocked k = false → s.dev.lossOpen k = true →
      Gives (.pllRelockTimeout k) s ((({ s.dev with pllOpen := setBit s.dev.pllOpen k false } : Dev).record
        (.mk1 1 2 k [0])).towerLost k)) ∧
    (∀ v, v < 65536 → s.dev.live = true → s.dev.fld Reg.CLK_STATUS.ROOT_LOCK = 1 → Runs (.refCheck v) s (fun e =>
      e.fld Reg.CLK_REF_DEV.DEV = v ∧
      e.refRun = (if s.dev.fld Reg.CLK_REF_TOL.TOL < (sext 16 v).natAbs then s.dev.refRun + 1 else 0) ∧
      (e.fld Reg.TGT_ALERT.REF_DEV = 1 ↔ 10 ≤ e.refRun) ∧ e.st = s.dev.st ∧
      (e.refRun ≠ 10 → MemKept s.dev e ∧ FieldsKept [Reg.CLK_REF_DEV.DEV, Reg.TGT_ALERT.REF_DEV] s.dev e)))

/-- R18, R19, R20, R21, R22. A packet whose units stand at the two ends of the link, with none ready before it, starts on its
flow's bundle when the sender holds credits for all of its flits; otherwise it joins those that are ready. A data flit that the
receiver awaits and whose CRC fails, below the limit of failed sends, is discarded, sets NAK and is answered; the credits it
carried are owed again, as those of any discarded flit are. A good idle flit brings what its header carries and no more; a good
data flit with SEQ = ACK + 1 is taken and answered; a good retrain request asks for a retrain. An acknowledgement timeout re-sends
every flit not acknowledged and counts the episode. Model's choice: credits of discarded flits and retrain requests are log
entry 24. -/
def Obligations.LinkFlits : Prop :=
  ∀ (s : State) (l b dir : Nat), l < 20 → b < bundlesOf l → dir < 2 → s.dev.bundleRuns l b = true →
    (∀ src dst p, unitsOk l dir src dst = true → p.cls < 4 → p.payload.length ≤ 4096 → s.dev.upMask l ≠ 0 →
      s.dev.readyPkts l dir = [] →
      (s.dev.bundleOf l src dst p = b → s.dev.remapHeld l dir src dst p = false → s.dev.flitsFit l b dir p = true →
        Gives (.d2dPacketStart l dir src dst p) s (s.dev.startUnit l dir ⟨src, dst, p⟩)) ∧
      (s.dev.unitFits l dir ⟨src, dst, p⟩ = false → Gives (.d2dPacketStart l dir src dst p) s (({ s.dev with
        d2d := { s.dev.d2d with ready := Tab.set [] s.dev.d2d.ready (2 * l + dir) [⟨src, dst, p⟩] } } : Dev).pumpReady l dir))) ∧
    (∀ f, f.length = 128 → flitGood f = false → flitType f = 0 → leAt f 121 1 = ((s.dev.bundle l b dir).rxLast + 1) % 256 →
      (s.dev.bundle l b dir).failRun + 1 < s.dev.retryLimit →
      Gives (.d2dFlitReceive l b dir f) s (Dev.answerFlits l b dir 8
        ((s.dev.modBundle l b (1 - dir) (fun x => x.crdCome false)).modBundle l b dir
          (fun x => { x with nak := true, failRun := (s.dev.bundle l b dir).failRun + 1 })))) ∧
    (∀ f, f.length = 128 → flitGood f = false → flitType f ≠ 0 →
      Gives (.d2dFlitReceive l b dir f) s (s.dev.modBundle l b (1 - dir) (fun x => x.crdCome false))) ∧
    (∀ f, f.length = 128 → flitGood f = true → flitType f = 1 →
      Gives (.d2dFlitReceive l b dir f) s (s.dev.flitHeader l b dir f)) ∧
    (∀ f, f.length = 128 → flitGood f = true → flitType f = 0 →
      leAt f 121 1 = (((s.dev.flitHeader l b dir f).bundle l b dir).rxLast + 1) % 256 →
      Gives (.d2dFlitReceive l b dir f) s (Dev.answerFlits l b dir 8 ((s.dev.flitHeader l b dir f).takeFlit l b dir f))) ∧
    (∀ f, f.length = 128 → flitGood f = true → flitType f = 2 →
      Gives (.d2dFlitReceive l b dir f) s ((s.dev.flitHeader l b dir f).askRetrain l b)) ∧
    (s.dev.replayOver l b dir = true →
      Gives (.d2dReplayTimeout l b dir) s (s.dev.resendFlits l b dir) ∧
      (s.dev.resendFlits l b dir).fld (Reg.D2D_ERR_CNT.RETRIES l b) =
        min (2 ^ (Reg.D2D_ERR_CNT.RETRIES l b).w - 1) (s.dev.fld (Reg.D2D_ERR_CNT.RETRIES l b) + 1) ∧
      (s.dev.resendFlits l b dir).cores = s.dev.cores)

/-- R23, R24, R25, R26, R27, R30. A retrain selects the bundle's lanes among those that pass and are not fused bad; with 64 of them
the bundle returns and its flits go again, with fewer it goes out of service, and then the free places of the link are taken. A
recovery flit goes for up to 100 µs; a good one for a bundle that holds no flow brings its acknowledgement alone; with none come in
100 µs the link is lost. A bundle that has applied its set of the new band goes on. Model's choice: these are written as
operations of the model (log entry 24). -/
def Obligations.BundleService : Prop :=
  ∀ (s : State) (l b dir : Nat), l < 20 → b < bundlesOf l → dir < 2 → s.dev.live = true →
    (∀ (res : LaneResult) (ok : List Nat) (d : Dev), res.passing.all (· < 68) = true → res.passing.Nodup → s.dev.linkLocked l = true →
      (s.dev.ctl l b).retraining = true → ok = res.passing.filter (fun n => (s.dev.goodLanes (bundleIdx l b)).contains n) →
      d = { s.dev.selectLanes l b ok with d2d := { s.dev.d2d with
        calJobs := s.dev.d2d.calJobs.map (fun j => { j with busy := j.busy.erase (l, b) }) } } →
      (64 ≤ ok.length → Gives (.d2dRetrainDone l b res) s
        ((d.retrained l b (s.dev.d2d.calJobs.any (fun j => j.busy.contains (l, b)))).fillPlaces l)) ∧
      (ok.length < 64 → Gives (.d2dRetrainDone l b res) s ((d.bundleGone l b).fillPlaces l))) ∧
    (∀ d : Dev, (d.clearUp l b).bundleUp l b = false) ∧
    (s.dev.linkLocked l = true → s.dev.upMask l ≠ 0 → Tab.get 0 (s.dev.ctl l b).rxRecover dir ≠ 0 →
      s.dev.clk + 1 ≤ Tab.get 0 (s.dev.ctl l b).rxRecover dir + us 100 →
      Gives (.d2dRecoveryFlitSend l b dir) s (s.dev.recoveryFlit l b dir)) ∧
    (∀ f, f.length = 128 → s.dev.bundleRuns l (s.dev.lowBundle l) = true → flitGood f = true → flitType f = 3 →
      leAt f 0 1 < bundlesOf l → Tab.get 0 (s.dev.ctl l (leAt f 0 1)).txHold (1 - dir) = 0 →
      Gives (.d2dRecoveryFlitReceive l dir f) s
        (s.dev.modBundle l (s.dev.lowBundle l) (1 - dir) (fun x => (x.crdCome true).acked (leAt f 122 1)))) ∧
    (s.dev.upMask l ≠ 0 → Tab.get 0 (s.dev.ctl l b).txHold dir ≠ 0 → Tab.get false (s.dev.ctl l b).noticed dir = false →
      Tab.get 0 (s.dev.ctl l b).txHold dir + us 100 ≤ s.dev.clk + 1 →
      Gives (.d2dRecoveryTimeout l b dir) s (s.dev.linkFails l)) ∧
    (s.dev.bandBundle l = some b → Gives (.d2dBandSetDone l b) s (s.dev.bandApplied l b))

/-- R29, R30, R183, R368. A CAL_REQ of links whose checks pass is made at a step gap; a MARGIN of links whose checks pass becomes a
job over every bundle of the links it names, in ascending order, and the free places of these links are taken. A bundle whose
sweep ends has its record written and returns through a retrain, and the next places are taken. A MARGIN of a KIND that is none of
R194's is refused. Model's choice: where a KIND of no defined unit goes is log entry 16. -/
def Obligations.LinkMaintenance : Prop :=
  ∀ (s : State),
    (∀ r j, r < 16 → Starts s r j → j.opc = 0x90 → j.num 24 1 = 1 → j.reserved [(24, 0, 8), (26, 0, 192)] = none →
      j.mask < 2 ^ 20 → Gives (.calReqD2d r) s ((s.dev.popHead r).atGap j Dev.calD2dGo)) ∧
    (∀ r j, r < 16 → Starts s r j → j.opc = 0xE0 → j.num 24 1 = 2 → s.dev.marginCheck j 20 (d2dNeed j.mask) [] = none →
      Gives (.marginD2d r) s
        ((onesOf 20 j.mask).foldl Dev.fillPlaces
          ({ s.dev.popHead r with d2d := { (s.dev.popHead r).d2d with marginJobs := (s.dev.popHead r).d2d.marginJobs ++ [⟨j.key,
            ((onesOf 20 j.mask).map (fun l => (List.range (bundlesOf l)).map (fun b => (l, b)))).flatten, [], []⟩] } } : Dev).closeD2dMargins)) ∧
    (∀ r j, r < 16 → Starts s r j → j.opc = 0xE0 → 3 ≤ j.num 24 1 →
      Gives (.marginD2d r) s ((s.dev.popHead r).finish j ⟨.badField, { Detail.none with fieldByte := 24 }⟩)) ∧
    (∀ l b x i, l < 20 → b < bundlesOf l → s.dev.live = true →
      s.dev.d2d.marginJobs.find? (fun j => j.busy.contains (l, b)) = some i →
      Gives (.d2dMarginBundleDone l b x) s
        ((((({ s.dev.putBundle i.desc l b (s.dev.bundleRecord l b (some x)) with
            d2d := { (s.dev.putBundle i.desc l b (s.dev.bundleRecord l b (some x))).d2d with
              marginJobs := (s.dev.putBundle i.desc l b (s.dev.bundleRecord l b (some x))).d2d.marginJobs.map (fun k =>
                if k.desc = i.desc then { k with busy := k.busy.erase (l, b) } else k) } } : Dev).modCtl l b
          (fun c => { c with sweeping := false })).beginRetrain l b)).fillPlaces l))

/-- R93, R95, R96, R199. A RUN whose checks pass and whose parameters can be read joins the RUNs that wait, with the time its
waits were met, and they get the cores that are free; one that its checks refuse completes. The RUN check ends with every core of
the RUN running, every other core as it was and nothing changed beside the cores and the RUNs, or with BAD_FIELD naming the core
and the position. Dispatch puts the next operation of the program at its position among those not started, and moves on by one,
with nothing else changed; an undefined code stops the program with BAD_FIELD, a poisoned fetch with a memory fault. -/
def Obligations.RunStarts : Prop :=
  (∀ s : State,
      (∀ r j, r < 16 → Starts s r j → j.opc = 0x10 → s.dev.runDescCheck j = none →
        (j.num 52 5 = 0 ∨ (s.dev.popHead r).readErr (j.num 52 5) 768 = none) →
        Gives (.run r) s ({ s.dev.popHead r with runs := s.dev.runs ++ [⟨j.key, j.mask192, s.dev.progOffsets j,
          s.dev.fld (Reg.HQ_SQ_CFG.PRIO j.ring), s.dev.metAt r, false, false, false, [], 0, 0, [], []⟩] } : Dev).grantRuns) ∧
      (∀ r j e, r < 16 → Starts s r j → j.opc = 0x10 → s.dev.runDescCheck j = some e →
        Gives (.run r) s ((s.dev.popHead r).refuse j e)) ∧
      (∀ k i q, k < 16 → s.dev.up = true → s.dev.run? (k, i) = some q → q.acquired = true → q.checked = false →
        s.dev.checkRun q.prog = none → Runs (.runCheckDone k i) s (fun e =>
          (∀ c, c < 192 → q.mask.testBit c = true → (e.core c).phase = .running) ∧
          (∀ c, 192 ≤ c ∨ q.mask.testBit c = false → e.core c = s.dev.core c) ∧
          e = { s.dev with cores := e.cores, runs := e.runs })) ∧
      (∀ k i q c p, k < 16 → s.dev.up = true → s.dev.run? (k, i) = some q → q.acquired = true → q.checked = false →
        s.dev.checkRun q.prog = some (c, p) → Gives (.runCheckDone k i) s
          (s.dev.finishRun q ⟨.badField, { Detail.none with lcore := c, pos := p }⟩))) ∧
  (∀ (s : State) (c : Nat) (x : Ecc) (d : Dev), c < 192 → d = s.dev.meetEcc x → d.dispatchDue c = true →
      (∀ a, d.firstPoison (sramAt c ((d.core c).hdr + 32 + 32 * (d.core c).next)) 32 = some a →
        Gives (.seqDispatch c x) s (d.stopMem c (d.core c).next a 0)) ∧
      (d.firstPoison (sramAt c ((d.core c).hdr + 32 + 32 * (d.core c).next)) 32 = none →
        (opDefined (opCode (d.nextOp c)) = true → Gives (.seqDispatch c x) s
          (d.setCore c { d.core c with
            ops := insertOp ⟨(d.core c).next, d.nextOp c, false, [], none,
              opCode (d.nextOp c) = 3 && stSwitch (d.nextOp c), false, false⟩ (d.core c).ops,
            next := (d.core c).next + 1 })) ∧
        (opDefined (opCode (d.nextOp c)) = false → Gives (.seqDispatch c x) s
          (d.stopOp c (d.core c).next ⟨.badField, ⟨0, c, 0xFF, (d.core c).next, 0xFFFF, 0⟩⟩))))

/-- R40, R45, R69, R93, R101. A load starts by reading its tile or its table, and its end puts the tile into the shadow
registers, or the table into the slot that the operation names; poison among what it reads stops the program. A W_LOAD does not
start while a tile in the shadow has not been consumed. Model's choice: that a load which may not start changes nothing is log
entry 1. -/
def Obligations.TileLoads : Prop :=
  ∀ (s : State) (c pos : Nat) (o : OpRec), c < 192 → (s.dev.core c).op? pos = some o →
    (∀ t, s.dev.st = .running → s.dev.startable c pos 1 = true → (s.dev.core c).shadow = none →
      ((s.dev.countStart t).poisonOf (wlSram c o.bytes) = none → Gives (.wLoad c pos t) s
        ((s.dev.countStart t).begun c pos (fun q => { q with tile := some ((s.dev.countStart t).tileFrom c pos o.bytes) }))) ∧
      (∀ a, (s.dev.countStart t).poisonOf (wlSram c o.bytes) = some a → Gives (.wLoad c pos t) s
        ((s.dev.countStart t).stopMem c pos a 0))) ∧
    (s.dev.up = true → s.dev.startedOp c pos 1 = some o → Gives (.wLoadComplete c pos) s
      ((s.dev.setCore c { s.dev.core c with shadow := o.tile }).opDone c pos)) ∧
    (∀ t, s.dev.st = .running → s.dev.startable c pos 2 = true →
      ((s.dev.countStart t).poisonOf [(sramAt c (opNum o.bytes 8 4), cbBytes o.bytes)] = none → Gives (.cbLoad c pos t) s
        ((s.dev.countStart t).begun c pos (fun q => { q with
          conv := (s.dev.countStart t).read (sramAt c (opNum o.bytes 8 4)) (cbBytes o.bytes) }))) ∧
      (∀ a, (s.dev.countStart t).poisonOf [(sramAt c (opNum o.bytes 8 4), cbBytes o.bytes)] = some a → Gives (.cbLoad c pos t) s
        ((s.dev.countStart t).stopMem c pos a 0))) ∧
    (s.dev.up = true → s.dev.startedOp c pos 2 = some o → Gives (.cbLoadComplete c pos) s
      ((s.dev.setCore c { s.dev.core c with slots := (s.dev.core c).slots.set (opBits o.bytes 1 0 2) (some ⟨opBits o.bytes 1 2 1, if opBits o.bytes 1 3 1 = 1 then 256 else 16, o.conv⟩) }).opDone c pos)) ∧
    (∀ t, s.dev.st = .running → s.dev.startable c pos 1 = true → (s.dev.core c).shadow ≠ none →
      Gives (.wLoad c pos t) s s.dev)

/-- R43, R46, R48, R50, R53, R57, R58, R59, R93, R136. A pass takes in the shadow's tile when its STREAM switches, and otherwise
runs with the active one; a switching STREAM with nothing to switch to stops the program with BAD_FIELD, and poison among its
reads discards the passes in flight. At the end of the oldest pass its rows become visible together, and the pass and its data
slots are counted. The first fault of an array marks the core, discards the passes in flight and takes a unit of the replay
budget to issue them again; a second one retires the core; one of a vector unit ends its program. Enough clean passes clear the
fault count, and a window takes the bubble ratio in force. Model's choice: the choices are log entry 19. -/
def Obligations.Passes : Prop :=
  ∀ (s : State) (c : Nat), c < 192 →
    (∀ pos o t, (s.dev.core c).op? pos = some o → s.dev.st = .running → s.dev.startable c pos 3 = true →
      ((s.dev.core c).nothingToSwitch o = true →
        Gives (.stream c pos t) s ((s.dev.countStart t).stopOp c pos ⟨.badField, ⟨0, c, 0xFF, pos, 0xFFFF, 0⟩⟩)) ∧
      ((s.dev.core c).nothingToSwitch o = false → (o.sw = false ∨ (s.dev.core c).shadow ≠ none) →
        (∀ a, (s.dev.countStart t).poisonOf (passSram c o.bytes ((s.dev.core c).tileOf o)) = some a →
          Gives (.stream c pos t) s ((s.dev.countStart t).passPoison c pos a)) ∧
        ((s.dev.countStart t).poisonOf (passSram c o.bytes ((s.dev.core c).tileOf o)) = none →
          (o.sw = true → Gives (.stream c pos t) s ((s.dev.countStart t).setCore c
            { (s.dev.core c).setOp pos (fun q => { q with started := true, tile := (s.dev.core c).shadow }) with
              active := (s.dev.core c).shadow, shadow := none })) ∧
          (o.sw = false → Gives (.stream c pos t) s ((s.dev.countStart t).setCore c
            ((s.dev.core c).setOp pos (fun q => { q with started := true, tile := (s.dev.core c).active }))))))) ∧
    (∀ pos o t p d, s.dev.up = true → s.dev.startedOp c pos 3 = some o → (s.dev.core c).passes.head?.map (·.pos) = some pos →
      o.tile = some t → d = ((s.dev.bump Reg.ARR_SHADOW_WAIT.COUNT p.wait).bump Reg.ARR_BUBBLE_SLOTS.COUNT p.bubble).bump
        Reg.ARR_FEED_STARVE.COUNT p.starve → d.poisonOf (passSram c o.bytes t.op) = none →
      d.partOf ((List.range (stM o.bytes)).map (fun m => (passRowAt c o.bytes true m, 4 * wlN t.op))) = none →
      (s.dev.fld (Reg.ARR_CORE_FAULT.PENDING c) = 0 → Gives (.passEnd c pos p) s
        ((((d.passOutput c o.bytes t).bump Reg.ARR_PASSES.COUNT 1).bump Reg.ARR_INJECT_CYCLES.COUNT
          (ceilDiv (stM o.bytes) 4)).opDone c pos)) ∧
      (s.dev.fld (Reg.ARR_CORE_FAULT.PENDING c) = 1 → Gives (.passEnd c pos p) s
        (({ ((d.passOutput c o.bytes t).bump Reg.ARR_PASSES.COUNT 1).bump Reg.ARR_INJECT_CYCLES.COUNT (ceilDiv (stM o.bytes) 4) with
          cleanPasses := Tab.set 0 s.dev.cleanPasses c (Tab.get 0 s.dev.cleanPasses c + 1) } : Dev).opDone c pos))) ∧
    (s.dev.up = true → s.dev.fld (Reg.ARR_CORE_FAULT.PENDING c) = 1 → s.dev.faultWindow ≤ Tab.get 0 s.dev.cleanPasses c →
      Runs (.faultCountClear c) s (fun e => e.fld (Reg.ARR_CORE_FAULT.PENDING c) = 0 ∧ Tab.get 0 e.cleanPasses c = 0 ∧
        OnlyFields [Reg.ARR_CORE_FAULT.PENDING c] { s.dev with cleanPasses := e.cleanPasses } e)) ∧
    (s.dev.up = true → Gives (.bubbleWindowStart c) s { s.dev with
      ratio := Tab.set 0 s.dev.ratio c (s.dev.fld Reg.ARR_STATUS.BUBBLE) }) ∧
    (∀ cause arrays d, 1 ≤ cause → cause ≤ 5 → 1 ≤ arrays → arrays < 16 → s.dev.up = true → (s.dev.core c).passes ≠ [] →
      (s.dev.fld (Reg.ARR_CORE_FAULT.PENDING c) = 0 → d = (s.dev.markFault c cause arrays false).discardPasses c →
        d.core c = s.dev.core c → (s.dev.core c).afterOverflow = false → d.budgetLeft c ≠ 0 →
        Gives (.arrayFault c cause arrays) s ((d.setCore c (s.dev.core c).faultReplay).takeBudget c)) ∧
      (s.dev.fld (Reg.ARR_CORE_FAULT.PENDING c) = 1 → d = (s.dev.markFault c cause arrays true).discardPasses c →
        Gives (.arrayFault c cause arrays) s (d.retireCore c ⟨.deviceFault,
          ⟨0, c, 0xFF, ((d.core c).passes.map (·.pos)).headD 0xFFFF, 0xFFFF, s.dev.flt.seq⟩⟩))) ∧
    (s.dev.up = true → s.dev.vecBusy c = true → Gives (.arrayFault c 0 0) s (s.dev.vecUnitFault c))

/-- R72, R82, R83, R84, R85, R103, R104, R110. The record of a drain is read into the operation; a refused record stops the
program; a drain whose record is in use starts. At its end a drain that shows its outputs writes its rows and completes; one
under REPLAY whose rows overflow, with lowerings and budget left, writes none of them and asks for a replay; the replay abandons
the segment and issues it again from its mark, with one attempt more and one unit of the budget less. A mark opens a segment at
its position. Model's choice: the choices are log entry 19. -/
def Obligations.DrainsAndReplays : Prop :=
  ∀ (s : State) (c : Nat), c < 192 →
    (∀ pos o, (s.dev.core c).op? pos = some o → s.dev.st = .running → s.dev.convReadable c pos = true →
      s.dev.firstPoison (sramAt c (drConv o.bytes)) 64 = none → Gives (.convRecordRead c pos) s
        (s.dev.setCore c ((s.dev.core c).setOp pos (fun q => { q with conv := s.dev.read (sramAt c (drConv o.bytes)) 64 })))) ∧
    (∀ pos o t, (s.dev.core c).op? pos = some o → s.dev.st = .running → s.dev.startable c pos 4 = true → o.conv ≠ [] →
      (s.dev.countStart t).poisonOf (drSource c o.bytes) = none → convRefused o.bytes o.conv = false →
      (s.dev.countStart t).poisonOf (if cvColmul o.conv then [(sramAt c (cvMul o.conv), 256)] else []) = none →
      Gives (.drain c pos t) s ((s.dev.countStart t).begun c pos (fun q => { q with conv := o.conv }))) ∧
    (∀ pos o t, (s.dev.core c).op? pos = some o → s.dev.st = .running → s.dev.startable c pos 4 = true → o.conv ≠ [] →
      (s.dev.countStart t).poisonOf (drSource c o.bytes) = none → convRefused o.bytes o.conv = true →
      Gives (.drain c pos t) s ((s.dev.countStart t).stopOp c pos ⟨.badField, ⟨0, c, 0xFF, pos, 0xFFFF, 0⟩⟩)) ∧
    (∀ pos o, s.dev.up = true → s.dev.startedOp c pos 4 = some o → s.dev.partOf (drainPuts c o.bytes o.conv) = none →
      drReplay o.bytes = false → cvGrad o.conv = false → s.dev.drainSat c o.bytes = false →
      countOuts (s.dev.drainRows c o.bytes o.conv 0) (·.ovf) = 0 → Gives (.drainEnd c pos) s
        (((s.dev.bump Reg.ARR_NONFINITE.COUNT (countOuts (s.dev.drainRows c o.bytes o.conv 0) (·.nonfin))).drainOutput c o.bytes o.conv
          (s.dev.drainRows c o.bytes o.conv 0) (s.dev.drainExp o.conv 0) (s.dev.core c).attempts false).opDone c pos)) ∧
    (∀ pos o rows, s.dev.up = true → s.dev.startedOp c pos 4 = some o → s.dev.partOf (drainPuts c o.bytes o.conv) = none →
      drReplay o.bytes = true → cvGrad o.conv = false → s.dev.drainSat c o.bytes = false →
      rows = s.dev.drainRows c o.bytes o.conv (Tab.get 0 (s.dev.core c).lower pos) → countOuts rows (·.ovf) ≠ 0 →
      (s.dev.core c).attempts < 2 → s.dev.budgetLeft c ≠ 0 → (s.dev.core c).phase ≠ .stopped → Gives (.drainEnd c pos) s
        (((s.dev.bump Reg.ARR_NONFINITE.COUNT (countOuts rows (·.nonfin))).bump Reg.ARR_OVF_EVENTS.COUNT 1).setCore c
          { (s.dev.core c).setOp pos (fun q => { q with overflowed := true }) with
            overs := (s.dev.core c).overs ++ [pos], replayDue := true })) ∧
    (∀ m, s.dev.up = true → (s.dev.core c).replayDue = true → (s.dev.core c).live = true → (s.dev.core c).mark = some m →
      s.dev.budgetLeft c ≠ 0 → Runs (.overflowReplay c) s (fun e =>
        e = ((((s.dev.abandon c m).modCore c (·.replaySegment m)).takeBudget c).bump Reg.ARR_OVF_REPLAYS.COUNT 1) ∧
        (e.core c).next = m + 1 ∧ (e.core c).attempts = (s.dev.core c).attempts + 1 ∧ (∀ o ∈ (e.core c).ops, o.pos < m) ∧
        Tab.get 0 e.budgetUsed c = Tab.get 0 s.dev.budgetUsed c + 1)) ∧
    (s.dev.atOp c 0x38 = true → (s.dev.core c).verdictOpen = false → Runs (.replayMark c) s (fun e =>
      (e.core c).mark = some (s.dev.core c).next ∧ (e.core c).next = (s.dev.core c).next + 1 ∧ (e.core c).attempts = 0 ∧
      (e.core c).delta = opBits (s.dev.nextOp c) 1 0 4 ∧ e.mem = s.dev.mem ∧ ∀ k, k ≠ c → e.core k = s.dev.core k))

/-- R97, R105, R106, R145, R245, R320. A MOVE or GATHER is in flight from its start, and when it ends the rows of a MOVE, or the
elements of a GATHER in their order, stand at their destination; a GATHER whose first element leaves the vault stops with the
destinations above it undefined. Vector code starts at its range with the registers of R119 and ends with its context free. An
XFER becomes a store or a load of the memory fabric and ends when every packet of it is acknowledged; a flat ID with no route
stops the program with BAD_FIELD, a lost peer with PEER_LOST. Model's choice: when the bytes of a move stand at their
destination is log entry 18. -/
def Obligations.DataMovement : Prop :=
  ∀ (s : State) (c pos : Nat) (o : OpRec), c < 192 → (s.dev.core c).op? pos = some o →
    (∀ t, s.dev.st = .running → s.dev.startable c pos 0x10 = true → Runs (.vec c pos t) s (fun e =>
      Tab.get VecCtx.init e.vec c = VecCtx.start 256 (sramAt c (opNum o.bytes 4 4)) (opNum o.bytes 2 2) pos
        (opNum o.bytes 8 4, opNum o.bytes 12 4) (opNum o.bytes 16 4, opNum o.bytes 20 4) (opNum o.bytes 24 4, opNum o.bytes 28 4) ∧
      e.mem = s.dev.mem ∧ ∀ k, k ≠ c → Tab.get VecCtx.init e.vec k = Tab.get VecCtx.init s.dev.vec k)) ∧
    (s.dev.up = true → s.dev.startedOp c pos 0x10 = some o → (Tab.get VecCtx.init s.dev.vec c).ended = true →
      Gives (.vecEnd c pos) s (({ s.dev with vec := Tab.set VecCtx.init s.dev.vec c VecCtx.init } : Dev).opDone c pos)) ∧
    (∀ t, s.dev.st = .running → s.dev.startable c pos 0x20 = true →
      (∀ go : Dev → Dev, (s.dev.countStart t).opAccess c pos (moveReads o.bytes) (moveWrites o.bytes) go = go (s.dev.countStart t)) →
      Gives (.move c pos t) s ((s.dev.countStart t).begun c pos id)) ∧
    (s.dev.up = true → s.dev.startedOp c pos 0x20 = some o →
      (∀ go : Dev → Dev, s.dev.opAccess c pos (moveReads o.bytes) (moveWrites o.bytes) go = go s.dev) → Gives (.moveComplete c pos) s
        (((moveRows o.bytes).foldl (fun d p => d.storeCopy p.1 p.2 (dmLen o.bytes)) s.dev).opDone c pos)) ∧
    (∀ t, s.dev.st = .running → s.dev.startable c pos 0x21 = true →
      (s.dev.countStart t).poisonOf [(sramAt c (opNum o.bytes 8 4), 4 * dmLen o.bytes)] = none →
      Gives (.gather c pos t) s ((s.dev.countStart t).begun c pos id)) ∧
    (s.dev.up = true → s.dev.startedOp c pos 0x21 = some o →
      Gives (.gatherComplete c pos) s (Dev.gatherFromN c pos o.bytes (dmLen o.bytes) 0 s.dev) ∧
      (dmLen o.bytes = 0 → Gives (.gatherComplete c pos) s (s.dev.opDone c pos)) ∧
      (∀ k, dmLen o.bytes = k + 1 → 0x100000000 < s.dev.gatherFrom c o.bytes 0 + gaSize o.bytes →
        Gives (.gatherComplete c pos) s ((if k = 0 then s.dev else
          s.dev.scramble (sramAt c (dmC o.bytes + gaSize o.bytes)) (k * gaSize o.bytes)).stopOp c pos
            ⟨.badField, ⟨0, c, 0xFF, pos, 0xFFFF, 0⟩⟩)) ∧
      (∀ k, dmLen o.bytes = k + 1 → s.dev.gatherFrom c o.bytes 0 + gaSize o.bytes ≤ 0x100000000 →
        s.dev.firstPoison (vaultBase c + s.dev.gatherFrom c o.bytes 0) (gaSize o.bytes) = none →
        s.dev.partOf [(sramAt c (dmC o.bytes), gaSize o.bytes)] = none → Gives (.gatherComplete c pos) s
          (Dev.gatherFromN c pos o.bytes k 1
            (s.dev.copy (vaultBase c + s.dev.gatherFrom c o.bytes 0) (sramAt c (dmC o.bytes)) (gaSize o.bytes))))) ∧
    (∀ t d, s.dev.st = .running → s.dev.startable c pos 0x22 = true → d = s.dev.countStart t →
      (d.noRoute (xfHome o.bytes) = true → Gives (.xfer c pos t) s
        (d.stopOp c pos ⟨.badField, ⟨0, c, 0xFF, pos, 0xFFFF, xfHome o.bytes⟩⟩)) ∧
      (d.noRoute (xfHome o.bytes) = false → d.peerGone (xfHome o.bytes) = true → dmLen o.bytes ≠ 0 →
        Gives (.xfer c pos t) s ((d.sight (xfHome o.bytes) 4 0xFF).stopOp c pos
          ⟨.peerLost, ⟨0, c, 0xFF, pos, 0xFFFF, xfHome o.bytes⟩⟩)) ∧
      (d.noRoute (xfHome o.bytes) = false → (d.peerGone (xfHome o.bytes) = false ∨ dmLen o.bytes = 0) →
        (∀ go : Dev → Dev, d.opAccess c pos (if xfGet o.bytes then [] else [(dmA o.bytes, dmLen o.bytes)])
          (if xfGet o.bytes then [(dmA o.bytes, dmLen o.bytes)] else []) go = go d) →
        Gives (.xfer c pos t) s (d.startXfer c pos o.bytes))) ∧
    (∀ q, s.dev.up = true → s.dev.startedOp c pos 0x22 = some o → s.dev.xferOp c pos = some q → q.pkts.all (·.acked) = true →
      Gives (.xferComplete c pos) s ((((s.dev.dropOp q.id).bump Reg.MFB_OPS.COUNT 1).sendNotify q).opDone c pos))

/-- R107, R108, R109, R111. WAIT passes when its counter has reached its value and holds dispatch otherwise; SIGNAL adds to its
counter at once without a fence, and otherwise enters the queue and adds when its fence is met; a SCOPE 0 barrier holds each core
until all of the RUN have arrived, and then those go on; a SCOPE 1 barrier holds its core for the step barrier; a wait beyond its
limit stops the program with TIMEOUT; a core of a stopping RUN stops at its boundary. -/
def Obligations.EventsAndBarriers : Prop :=
  ∀ (s : State) (c : Nat), c < 192 →
    (s.dev.atOp c 0x30 = true → opNum (s.dev.nextOp c) 4 4 ≤ s.dev.evtGet (opNum (s.dev.nextOp c) 2 2) →
      Gives (.wait c) s ((s.dev.setCore c { s.dev.core c with next := (s.dev.core c).next + 1, phase := .running }).bump
        Reg.ARR_SEQ_OPS.COUNT 1)) ∧
    (s.dev.atOp c 0x30 = true → s.dev.evtGet (opNum (s.dev.nextOp c) 2 2) < opNum (s.dev.nextOp c) 4 4 →
      Gives (.wait c) s (s.dev.setCore c { s.dev.core c with
        phase := .waitEvent (opNum (s.dev.nextOp c) 2 2) (opNum (s.dev.nextOp c) 4 4), since := s.dev.clk })) ∧
    (∀ i v, s.dev.up = true → (s.dev.core c).phase = .waitEvent i v → v ≤ s.dev.evtGet i → (s.dev.core c).preempt = false →
      s.dev.stopping c = false → Gives (.waitMet c) s
        ((s.dev.setCore c { s.dev.core c with next := (s.dev.core c).next + 1, phase := .running }).bump Reg.ARR_SEQ_OPS.COUNT 1)) ∧
    (s.dev.up = true → s.dev.waitExpired c = true → Gives (.waitTimeout c) s (s.dev.stopCore c
      ⟨.timeout, ⟨0, c, 0xFF, (s.dev.core c).next, 0xFFFF, (s.dev.core c).waitsFor.getD 0⟩⟩)) ∧
    (s.dev.up = true → s.dev.stopsNow c = true → Gives (.coreStopAtBoundary c) s (s.dev.haltCore c none)) ∧
    (s.dev.atOp c 0x31 = true → opNum (s.dev.nextOp c) 4 1 = 0 → (s.dev.core c).signals = [] → Runs (.signal c) s (fun e =>
      e.evtGet (opNum (s.dev.nextOp c) 2 2) = (s.dev.evtGet (opNum (s.dev.nextOp c) 2 2) + opNum (s.dev.nextOp c) 8 4) % 2 ^ 32 ∧
      (∀ i, i ≠ opNum (s.dev.nextOp c) 2 2 → e.evtGet i = s.dev.evtGet i) ∧ (e.core c).next = (s.dev.core c).next + 1 ∧
      e.mem = s.dev.mem)) ∧
    (s.dev.atOp c 0x31 = true → (opNum (s.dev.nextOp c) 4 1 ≠ 0 ∨ (s.dev.core c).signals ≠ []) →
      (s.dev.core c).signals.length < 8 → Runs (.signal c) s (fun e =>
        e = { s.dev with cores := e.cores } ∧ (e.core c).signals.length = (s.dev.core c).signals.length + 1 ∧
        (e.core c).next = (s.dev.core c).next + 1)) ∧
    (∀ g rest, s.dev.up = true → (s.dev.core c).signals = g :: rest → (s.dev.core c).fenceMet g = true →
      Gives (.signalFire c) s (((s.dev.setCore c { s.dev.core c with signals := rest }).evtAdd (opNum g.bytes 2 2)
        (opNum g.bytes 8 4)).bump Reg.ARR_SEQ_OPS.COUNT 1)) ∧
    (s.dev.atOp c 0x32 = true → (s.dev.core c).fenced = true → bit (opNum (s.dev.nextOp c) 1 1) 0 = false → Gives (.barrier c) s
      (s.dev.setCore c { s.dev.core c with
        phase := .barrier (opNum (s.dev.nextOp c) 2 1) (Tab.get 0 (s.dev.core c).arrivals (opNum (s.dev.nextOp c) 2 1))
        since := s.dev.clk
        arrivals := Tab.set 0 (s.dev.core c).arrivals (opNum (s.dev.nextOp c) 2 1)
          (Tab.get 0 (s.dev.core c).arrivals (opNum (s.dev.nextOp c) 2 1) + 1) })) ∧
    (s.dev.atOp c 0x32 = true → (s.dev.core c).fenced = true → bit (opNum (s.dev.nextOp c) 1 1) 0 = true → Gives (.barrier c) s
      (s.dev.setCore c { s.dev.core c with phase := .stepBarrier, since := s.dev.clk })) ∧
    (∀ k i id q, k < 16 → id < 256 → s.dev.up = true → s.dev.run? (k, i) = some q → q.checked = true → q.stopping = false →
      (s.dev.barrierFull q id = false → Gives (.localBarrierRelease k i id) s s.dev) ∧
      (s.dev.barrierFull q id = true → q.mask.testBit c = true → (s.dev.core c).owner = some q.key →
        (s.dev.core c).phase = .barrier id (Tab.get 0 q.released id) → Runs (.localBarrierRelease k i id) s (fun e =>
          e.core c = { s.dev.core c with phase := .running, next := (s.dev.core c).next + 1 } ∧ e.mem = s.dev.mem)))

/-- R110, R113, R114, R115, R199. END ends dispatch, and with every unit empty and every SIGNAL fired the program is complete; a
core that no RUN owns then changes nothing more. A request stops dispatch; at the boundary the record is formed and the core
saves, the longest wait from a request kept in ARR_PREEMPT_MAX; with the save ended the core is free, the save is counted and the
waiting RUNs get cores; the restore reads the window back, and with its end the core takes up the record again at its saved
position. Model's choice: the choices are log entry 39. -/
def Obligations.Preemption : Prop :=
  (∀ (s : State) (c : Nat), c < 192 →
      ((s.dev.atOp c 0x3F = true ∨ (s.dev.dispatches c = true ∧ s.dev.pastEnd c = true)) → (s.dev.core c).verdictOpen = false →
        Gives (.endOp c) s (s.dev.setCore c { s.dev.core c with phase := .ending })) ∧
      (s.dev.up = true → (s.dev.core c).phase = .ending → (s.dev.core c).ops = [] → (s.dev.core c).signals = [] →
        Gives (.programComplete c) s (((s.dev.setCore c { s.dev.core c with phase := .ended }).bump Reg.ARR_SEQ_OPS.COUNT 1).checkOwnerEnd c)) ∧
      (s.dev.up = true → (s.dev.core c).phase = .ending → (s.dev.core c).ops = [] → (s.dev.core c).signals = [] →
        (s.dev.core c).owner = none → Runs (.programComplete c) s (fun e => (e.core c).phase = .ended ∧
          e.fld Reg.ARR_SEQ_OPS.COUNT = (s.dev.fld Reg.ARR_SEQ_OPS.COUNT + 1) % 2 ^ Reg.ARR_SEQ_OPS.COUNT.w ∧
          e = { s.dev with cores := e.cores, regs := e.regs }))) ∧
  (∀ (s : State) (c : Nat), c < 192 → s.dev.up = true →
      (s.dev.preemptDue c = true → Gives (.preemptRequest c) s (s.dev.setCore c { s.dev.core c with preempt := true })) ∧
      (∀ n, (s.dev.core c).savable = true → Runs (.preemptSave c n) s (fun e =>
        e.core c = { s.dev.core c with phase := .saving, area := s.dev.saveArea c } ∧
        (∀ q, s.dev.ownerRun c = some q → e.savedCore c = some { (s.dev.core c).toSave with area := s.dev.saveArea c }) ∧
        e.fld Reg.ARR_PREEMPT_MAX.CYCLES = max (s.dev.fld Reg.ARR_PREEMPT_MAX.CYCLES) (min 0xFFFFFF n) % 2 ^ Reg.ARR_PREEMPT_MAX.CYCLES.w ∧
        e.mem = s.dev.mem ∧ ∀ k, k ≠ c → e.core k = s.dev.core k)) ∧
      (∀ n, (s.dev.core c).phase = .saving → ∃ d : Dev, d.core c = Core.init ∧
        d.fld Reg.ARR_PREEMPTS.SAVES = min (2 ^ Reg.ARR_PREEMPTS.SAVES.w - 1) (s.dev.fld Reg.ARR_PREEMPTS.SAVES + 1) ∧
        (MirrorHolds s.dev → (s.dev.core c).area.2.1 = 0 → MemKeptOutside (s.dev.core c).area.2.2 4096 s.dev d) ∧
        ((s.dev.core c).owner = none → Gives (.preemptSaveDone c n) s d.grantRuns) ∧
        (∀ k, (s.dev.core c).owner = some k → Gives (.preemptSaveDone c n) s (d.grantRuns.checkRunEnd k))) ∧
      (∀ x, (s.dev.core c).phase = .restoring → s.dev.savedCore c = some x → Gives (.preemptRestore c) s (s.dev.readBack c x)) ∧
      (∀ n x q, (s.dev.core c).phase = .reloading → s.dev.savedCore c = some x → s.dev.ownerRun c = some q → x.active = none →
        x.phase = .running → Runs (.preemptRestoreDone c n) s (fun e =>
          (e.core c).phase = .running ∧ (e.core c).next = x.next ∧ (e.core c).ops = x.ops ∧ e.mem = s.dev.mem ∧
          e.fld Reg.ARR_PREEMPTS.RESUMES = min (2 ^ Reg.ARR_PREEMPTS.RESUMES.w - 1) (s.dev.fld Reg.ARR_PREEMPTS.RESUMES + 1))))

/-- R116, R120, R122, R136. Every vector instruction that nothing stops executes in one step of its context, a core's or an update
core's: what vecStep makes of the context and of memory is applied. A load of a core first meets the errors that its read of SRAM
finds. -/
def Obligations.VectorSteps : Prop :=
  ∀ (s : State) (x w : Nat), x < 256 → VecGoes s.dev x w →
    (∀ c op, (c, op) ∈ ([(.halt x, 0x00), (.vfp x, 0x01), (.vint x, 0x02), (.vcmp x, 0x03), (.vperm x, 0x04), (.vred x, 0x05),
        (.vcvt x, 0x06), (.vscl x, 0x07), (.vpred x, 0x08), (.vst x, 0x18), (.vsts x, 0x19), (.vstx x, 0x1A), (.vstn x, 0x1B),
        (.vstb x, 0x1C), (.salu x, 0x20), (.saddi x, 0x21), (.slui x, 0x22), (.sori x, 0x23), (.sst x, 0x25), (.mtc x, 0x26),
        (.mfc x, 0x27), (.beq x, 0x30), (.bne x, 0x31), (.blt x, 0x32), (.bltu x, 0x33), (.jmp x, 0x34)] : List (Instr × Nat)) →
      vOp w = op → Gives c s (s.dev.vecApply x (vecStep (s.dev.vecEnv x) (s.dev.updExp ((s.dev.ctx x).cr 1 % 4096)) (s.dev.vecLoad x)
        (s.dev.ctx x) w))) ∧
    (∀ k d c op, d = (if isUpd x then s.dev else s.dev.meetEcc k) → d.loadPoison x w = none →
      (c, op) ∈ ([(.vld x k, 0x10), (.vlds x k, 0x11), (.vldx x k, 0x12), (.vldw x k, 0x13), (.vldb x k, 0x14),
        (.sld x k, 0x24)] : List (Instr × Nat)) →
      vOp w = op → Gives c s (d.vecApply x (vecStep (d.vecEnv x) (d.updExp ((d.ctx x).cr 1 % 4096)) (d.vecLoad x) (d.ctx x) w)))

/-- R117, R120, R135. Scalar instructions of a core write their result into s[D], or nothing when D is 0, and every other scalar
register, memory and the cores stay; the position and the count of instructions move on by one. -/
def Obligations.VectorScalars : Prop :=
  ∀ (s : State) (x w : Nat), x < 192 → VecGoes s.dev x w → (s.dev.ctx x).s.length = 32 →
    ∀ c op v, (c, op, v) ∈ ([(.salu x, 0x20, salu (vFn w) ((s.dev.ctx x).sr (vA w)) ((s.dev.ctx x).sr (vB w))),
      (.saddi x, 0x21, (s.dev.ctx x).sr (vA w) + BitVec.ofInt 32 (sext 16 (w % 65536))),
      (.slui x, 0x22, BitVec.ofNat 32 (w % 65536 * 65536)),
      (.sori x, 0x23, (s.dev.ctx x).sr (vA w) ||| BitVec.ofNat 32 (w % 65536)),
      (.sld x noEcc, 0x24, BitVec.ofNat 32 (s.dev.readLE (sramAt x ((s.dev.ctx x).sr (vA w) + immWord w).toNat) 4)),
      (.mfc x, 0x27, BitVec.ofNat 32 (readCtl (s.dev.vecEnv x) (s.dev.ctx x) (w % 16)))] : List (Instr × Nat × Word)) →
    vOp w = op → Runs c s (fun e =>
      (e.ctx x).sr (vD w) = (if vD w = 0 then 0 else v) ∧ (∀ i, i ≠ vD w → (e.ctx x).sr i = (s.dev.ctx x).sr i) ∧
      (e.ctx x).v = (s.dev.ctx x).v ∧ (e.ctx x).pc = (s.dev.ctx x).pc + 1 ∧ (e.ctx x).executed = (s.dev.ctx x).executed + 1 ∧
      e.mem = s.dev.mem ∧ e.cores = s.dev.cores ∧ FieldsKept [Reg.ARR_VEC_INSTR.COUNT, Reg.ARR_NONFINITE.COUNT] s.dev e)

/-- R120, R121, R122, R135. A branch of a core's code that is taken goes to PC + OFF, and ends the code when that lies outside its
COUNT instructions; one that is not taken goes on; HALT ends the code. No scalar register, lane or predicate and no memory changes. -/
def Obligations.VectorBranches : Prop :=
  ∀ (s : State) (x w : Nat), x < 192 → VecGoes s.dev x w →
    (∀ c op b, (c, op, b) ∈ ([(.beq x, 0x30, decide ((s.dev.ctx x).sr (vD w) = (s.dev.ctx x).sr (vA w))),
        (.bne x, 0x31, decide ((s.dev.ctx x).sr (vD w) ≠ (s.dev.ctx x).sr (vA w))),
        (.blt x, 0x32, ((s.dev.ctx x).sr (vD w)).slt ((s.dev.ctx x).sr (vA w))),
        (.bltu x, 0x33, decide ((s.dev.ctx x).sr (vD w) < (s.dev.ctx x).sr (vA w))), (.jmp x, 0x34, true)] :
        List (Instr × Nat × Bool)) →
      vOp w = op → Runs c s (fun e => (e.ctx x).s = (s.dev.ctx x).s ∧ (e.ctx x).v = (s.dev.ctx x).v ∧
        (e.ctx x).p = (s.dev.ctx x).p ∧ (e.ctx x).executed = (s.dev.ctx x).executed + 1 ∧ e.mem = s.dev.mem ∧ e.cores = s.dev.cores ∧
        (b = false → (e.ctx x).pc = (s.dev.ctx x).pc + 1) ∧
        (b = true → ∀ t : Nat, (t : Int) = (s.dev.ctx x).pc + sext 16 (w % 65536) → t < (s.dev.ctx x).count →
          (e.ctx x).pc = t ∧ (e.ctx x).run = (s.dev.ctx x).run) ∧
        (b = true → ((s.dev.ctx x).pc + sext 16 (w % 65536) < 0 ∨ (s.dev.ctx x).count ≤ (s.dev.ctx x).pc + sext 16 (w % 65536)) →
          (e.ctx x).run = false ∧ (e.ctx x).ended = true))) ∧
    (vOp w = 0 → Runs (.halt x) s (fun e => (e.ctx x).run = false ∧ (e.ctx x).ended = true ∧ (e.ctx x).s = (s.dev.ctx x).s ∧
      (e.ctx x).v = (s.dev.ctx x).v ∧ (e.ctx x).p = (s.dev.ctx x).p ∧ e.mem = s.dev.mem ∧ e.cores = s.dev.cores))

/-- R117, R123, R125, R126, R127, R128, R133. In every active lane of a core's vector instruction the destination takes the result
of the lane; every inactive lane keeps its value, and memory, the scalar registers and the cores stay. A comparison of a core
writes a predicate bit for each active lane and leaves the bits of inactive lanes; AND, OR and XOR work on whole predicates; a
comparison into p0 changes no predicate. -/
def Obligations.VectorLanes : Prop :=
  (∀ (s : State) (x w : Nat), x < 192 → VecGoes s.dev x w → (s.dev.ctx x).v.length = 32 →
      ∀ c op f, (c, op, f) ∈ ([(.vfp x, 0x01, fun l => BitVec.ofNat 32 (vfpLane (vFn w) ((s.dev.ctx x).lane (vA w) l).toNat
            ((s.dev.ctx x).opB w l).toNat ((s.dev.ctx x).lane (vD w) l).toNat).1),
        (.vint x, 0x02, fun l => vintLane (vFn w) l ((s.dev.ctx x).lane (vA w) l) ((s.dev.ctx x).opB w l)
            ((s.dev.ctx x).lane (vD w) l)),
        (.vld x noEcc, 0x10, loadLane (s.dev.vecLoad x) (s.dev.ctx x) w),
        (.vlds x noEcc, 0x11, loadLane (s.dev.vecLoad x) (s.dev.ctx x) w),
        (.vldx x noEcc, 0x12, loadLane (s.dev.vecLoad x) (s.dev.ctx x) w),
        (.vldw x noEcc, 0x13, loadLane (s.dev.vecLoad x) (s.dev.ctx x) w),
        (.vldb x noEcc, 0x14, loadLane (s.dev.vecLoad x) (s.dev.ctx x) w)] : List (Instr × Nat × (Nat → Word))) →
      vOp w = op → Runs c s (fun e =>
        (∀ l, l < 256 → (s.dev.ctx x).pr (vPr w) l = true → (e.ctx x).lane (vD w) l = f l) ∧
        (∀ l, l < 256 → (s.dev.ctx x).pr (vPr w) l = false → (e.ctx x).lane (vD w) l = (s.dev.ctx x).lane (vD w) l) ∧
        (∀ i l, i ≠ vD w → (e.ctx x).lane i l = (s.dev.ctx x).lane i l) ∧ (e.ctx x).s = (s.dev.ctx x).s ∧
        (e.ctx x).p = (s.dev.ctx x).p ∧ (e.ctx x).pc = (s.dev.ctx x).pc + 1 ∧ e.mem = s.dev.mem ∧ e.cores = s.dev.cores)) ∧
  (∀ (s : State) (x w : Nat), x < 192 → VecGoes s.dev x w → (s.dev.ctx x).p.length = 8 →
      (vOp w = 0x03 → vD w ≠ 0 → Runs (.vcmp x) s (fun e =>
        (∀ l, l < 256 → (s.dev.ctx x).pr (vPr w) l = true → (e.ctx x).pr (vD w) l =
          cmpLane (vFn w) ((s.dev.ctx x).lane (vA w) l) ((s.dev.ctx x).opB w l)) ∧
        (∀ l, l < 256 → (s.dev.ctx x).pr (vPr w) l = false → (e.ctx x).pr (vD w) l = (s.dev.ctx x).pr (vD w) l) ∧
        (e.ctx x).v = (s.dev.ctx x).v ∧ (e.ctx x).s = (s.dev.ctx x).s ∧ e.mem = s.dev.mem)) ∧
      (vOp w = 0x08 → vD w ≠ 0 → (vFn w = 0 ∨ vFn w = 1 ∨ vFn w = 2) → Runs (.vpred x) s (fun e =>
        (e.ctx x).prWord 256 (vD w) =
          (if vFn w = 0 then (s.dev.ctx x).prWord 256 (vA w) &&& (s.dev.ctx x).prWord 256 (vB w)
           else if vFn w = 1 then (s.dev.ctx x).prWord 256 (vA w) ||| (s.dev.ctx x).prWord 256 (vB w)
           else (s.dev.ctx x).prWord 256 (vA w) ^^^ (s.dev.ctx x).prWord 256 (vB w)) ∧
        (e.ctx x).v = (s.dev.ctx x).v ∧ (e.ctx x).s = (s.dev.ctx x).s ∧ e.mem = s.dev.mem)) ∧
      (vOp w = 0x03 → vD w = 0 → Runs (.vcmp x) s (fun e => (e.ctx x).p = (s.dev.ctx x).p)))

/-- R133, R134, R142. A scalar store of a core writes the four bytes of s[D] and no other; a vector store changes no byte outside
the bytes that its active lanes touch; a store changes no scalar register, lane or predicate. -/
def Obligations.VectorStores : Prop :=
  ∀ (s : State) (x w : Nat), x < 192 → VecGoes s.dev x w →
    s.dev.storePart (storeCells x (vecEffect (s.dev.vecEnv x) (s.dev.updExp ((s.dev.ctx x).cr 1 % 4096)) (s.dev.vecLoad x)
      (s.dev.ctx x) w).stores) = none →
    (vOp w = 0x25 → Runs (.sst x) s (fun e =>
      e.read (sramAt x ((s.dev.ctx x).sr (vA w) + immWord w).toNat) 4 = leBytes 4 ((s.dev.ctx x).sr (vD w)).toNat ∧
      MemKeptOutside (sramAt x ((s.dev.ctx x).sr (vA w) + immWord w).toNat) 4 s.dev e ∧ (e.ctx x).s = (s.dev.ctx x).s ∧
      (e.ctx x).v = (s.dev.ctx x).v ∧ (e.ctx x).p = (s.dev.ctx x).p)) ∧
    (∀ c op, (c, op) ∈ ([(.vst x, 0x18), (.vsts x, 0x19), (.vstx x, 0x1A), (.vstn x, 0x1B), (.vstb x, 0x1C)] : List (Instr × Nat)) →
      vOp w = op → Runs c s (fun e =>
        (∀ q, (∀ p ∈ memSpans 256 (s.dev.ctx x) w, q < sramAt x p.1 ∨ sramAt x p.1 + p.2 ≤ q) → e.peek q = s.dev.peek q) ∧
        (e.ctx x).s = (s.dev.ctx x).s ∧ (e.ctx x).v = (s.dev.ctx x).v ∧ (e.ctx x).p = (s.dev.ctx x).p ∧ e.cores = s.dev.cores))

/-- R120, R136. An undefined instruction stops a core's program with BAD_FIELD, and so does a misaligned or outlying scalar store,
which is counted as such too; one instruction more than the limit allows stops it with TIMEOUT. The outcome names the core, the position of the VEC
and the instruction's number. Model's choice: which condition is named when several hold is log entry 21. -/
def Obligations.VectorStops : Prop :=
  ∀ (s : State) (x : Nat), x < 192 → s.dev.vecRuns x = true →
    (vecDefined (s.dev.vecWord x) = false → s.dev.firstPoison (s.dev.ctx x).fetchAt 4 = none → Gives (.vecUndefined x) s
      (((s.dev.bumpSat Reg.ARR_VEC_STOPS.FIELD 1).setCtx x VecCtx.init).stopOp x (s.dev.ctx x).pos
        ⟨.badField, ⟨0, x, 0xFF, (s.dev.ctx x).pos, (s.dev.ctx x).pc, 0⟩⟩)) ∧
    (s.dev.vecSpent x = true → vecStopOf (s.dev.vecEnv x) (s.dev.ctx x) (s.dev.vecWord x) = none → Gives (.vecLimitExceeded x) s
      (((s.dev.bumpSat Reg.ARR_VEC_STOPS.LIMIT 1).setCtx x VecCtx.init).stopOp x (s.dev.ctx x).pos
        ⟨.timeout, ⟨0, x, 0xFF, (s.dev.ctx x).pos, (s.dev.ctx x).pc, 0⟩⟩)) ∧
    (vOp (s.dev.vecWord x) = 0x25 → vecDefined (s.dev.vecWord x) = true → s.dev.firstPoison (s.dev.ctx x).fetchAt 4 = none →
      (vecStopOf (s.dev.vecEnv x) (s.dev.ctx x) (s.dev.vecWord x) = some .misaligned ∨
        vecStopOf (s.dev.vecEnv x) (s.dev.ctx x) (s.dev.vecWord x) = some .range) → Gives (.sst x) s
      ((((s.dev.bumpSat Reg.ARR_VEC_STOPS.FIELD 1).bumpSat Reg.ARR_VEC_STOPS.RANGE 1).setCtx x VecCtx.init).stopOp x
        (s.dev.ctx x).pos ⟨.badField, ⟨0, x, 0xFF, (s.dev.ctx x).pos, (s.dev.ctx x).pc, 0⟩⟩))

/-- R142, R150, R152, R154, R157, R158. A read without an error delivers the bytes of the vault and changes nothing of them; of a
lost core it delivers poison, and a write to one is lost. A write is visible from now on in its own bytes alone. The repair of a
row stands in the fuses under its bank's spare row; a bank's copy ends counted; a bank's refresh moves on by eight rows; the
scrub of a sector without an error moves on by a sector, and a pass is counted at its end. Model's choice: when a write is
visible is log entry 22. -/
def Obligations.VaultAccess : Prop :=
  (∀ (s : State) (c : Nat), c < 192 → s.dev.live = true →
    (∀ off n p x, 1 ≤ n → n ≤ 256 → off + n ≤ 0x100000000 → p < 20 → x % 64 = 0 → vaultBase c ≤ x → x < vaultBase (c + 1) →
      s.dev.coreGone c = false → s.dev.poisonIn (vaultBase c + off) n = false →
      Runs (.vaultRead c off n ⟨[], p, false, x, 0, false, false⟩) s (fun e =>
        e.out = .readData (s.dev.read (vaultBase c + off) n) false :: s.dev.out ∧ MemKept s.dev e ∧
        FieldsKept [Reg.VLT_CE.COUNT, Reg.VLT_CRC_RETRY.COUNT] s.dev e ∧ e.cores = s.dev.cores ∧ e.poison = s.dev.poison)) ∧
    (∀ off n e, 1 ≤ n → n ≤ 256 → off + n ≤ 0x100000000 → vaultErrOk c e = true → s.dev.mirrorOut = 0 →
      s.dev.coreGone c = true →
      Gives (.vaultRead c off n e) s { s.dev with out := .readData (zeros n) true :: s.dev.out }) ∧
    (∀ off l p x, 1 ≤ l.length → l.length ≤ 256 → off + l.length ≤ 0x100000000 → p < 20 → x % 64 = 0 → vaultBase c ≤ x →
      x < vaultBase (c + 1) → s.dev.coreGone c = false →
      Runs (.vaultWrite c off l ⟨[], p, false, x, 0, false, false⟩ []) s (fun e =>
        Stored (vaultBase c + off) l s.dev e ∧ e.cores = s.dev.cores ∧
        (s.dev.mirrors = false → FieldsKept [Reg.VLT_CE.COUNT, Reg.VLT_CRC_RETRY.COUNT] s.dev e))) ∧
    (∀ off l e m, 1 ≤ l.length → l.length ≤ 256 → off + l.length ≤ 0x100000000 → vaultErrOk c e = true → againOk e m = true →
      s.dev.mirrorOut = 0 → s.dev.coreGone c = true → Gives (.vaultWrite c off l e m) s s.dev)) ∧
  (∀ s : State,
    (∀ k row x, bankOk k = true → row < 8192 → s.dev.up = true →
      s.dev.vlt.unfused.find? (fun e => e.1 = k && e.2.1 = row) = some x → Gives (.rowRepairFused k row) s { s.dev with
        vlt := { s.dev.vlt with unfused := s.dev.vlt.unfused.erase x }
        fuses := { s.dev.fuses with rows := Tab.set 0 s.dev.fuses.rows (32 * k + x.2.2) (row + 1) } }) ∧
    (∀ c k, (c < 192 ∨ c = 0xFF) → bankOk k = true → s.dev.up = true → s.dev.vlt.copies.contains (c, k) = true →
      Runs (.bankSpareDone c k) s (fun e =>
        e.fld Reg.VLT_SPARES_USED.BANKS =
          min (2 ^ Reg.VLT_SPARES_USED.BANKS.w - 1) (s.dev.fld Reg.VLT_SPARES_USED.BANKS + 1) ∧
        e.vlt.copies = s.dev.vlt.copies.erase (c, k) ∧
        OnlyReports [Reg.VLT_SPARES_USED.BANKS] { s.dev with vlt := e.vlt } e)) ∧
    (∀ x y k, x < 224 → y < 16 → k < 17 → s.dev.live = true → Gives (.refreshDue x y k) s { s.dev with vlt := { s.dev.vlt with
      refresh := Tab.set 0 s.dev.vlt.refresh (bankKey x y k) ((Tab.get 0 s.dev.vlt.refresh (bankKey x y k) + 8) % 8224) } }) ∧
    (∀ t i, t < 8 → i < 28 → s.dev.live = true → s.dev.siteUsed t i = true → Tab.get 0 s.dev.vlt.scrub (28 * t + i) < 2 ^ 26 →
      (∀ k, s.dev.coreAt t i = some k →
        s.dev.poisonIn (vaultBase k + 64 * Tab.get 0 s.dev.vlt.scrub (28 * t + i)) 64 = false) →
      Runs (.patrolScrub t i 0 false false) s (fun e =>
        Tab.get 0 e.vlt.scrub (28 * t + i) = (Tab.get 0 s.dev.vlt.scrub (28 * t + i) + 1) % 2 ^ 26 ∧
        (Tab.get 0 s.dev.vlt.scrub (28 * t + i) + 1 = 2 ^ 26 → e.fld Reg.VLT_SCRUB_PASS.COUNT =
          (s.dev.fld Reg.VLT_SCRUB_PASS.COUNT + 1) % 2 ^ Reg.VLT_SCRUB_PASS.COUNT.w) ∧
        MemKept s.dev e ∧ e.poison = s.dev.poison ∧ FieldsKept [Reg.VLT_CE.COUNT, Reg.VLT_SCRUB_PASS.COUNT] s.dev e)))

/-- R149, R156, R162 to R167, R170, R378, R379. A retrained pipe serves again with its receiver set trained, and one that fails
goes out of service. A resync copy ends with the mirror OK. A migration's turn takes the lowest spare site of its tower; its
phases follow one another, and the cut-over puts the core on its target and retires the source site; a second mismatch fails the
target. SPARE_CORE of an ACTIVE core asks for its migration, of a MIGRATING one conflicts, and of a LOST one brings it back on
the lowest spare site of its tower, or retires it when there is none; a core brought back is ACTIVE with a vault and an SRAM of
zeros. CAL_REQ and MARGIN of vault pipes start their jobs, and a swept pipe's record goes into the result buffer. Model's
choice: the choices among migrations are log entry 23. -/
def Obligations.CoreMigration : Prop :=
  ∀ s : State,
    (∀ c p, c < 192 → p < 20 → s.dev.up = true → s.dev.vlt.retrain.contains (c, p) = true →
      ∀ d : Dev, d = s.dev.modVlt (fun v => { v with
        retrain := v.retrain.erase (c, p)
        fails := Tab.set 0 v.fails (32 * s.dev.column c + p) 0
        secFails := Tab.set [] v.secFails (32 * s.dev.column c + p) []
        calJobs := v.calJobs.map (fun j => j.advance c p) }) →
      (s.dev.coreGone c = false →
        Gives (.pipeRetrainDone c p true) s (d.modVlt (fun v => { v with
          sets := Tab.set 0 v.sets (4 * (32 * s.dev.column c + p) + s.dev.towerBand (towerOf c))
            (s.dev.fld Reg.TGT_STATUS.POWER_BAND + 1) })).feedRetrains.closeVaultCals ∧
        Gives (.pipeRetrainDone c p false) s (d.pipeOut c p).feedRetrains.closeVaultCals) ∧
      (∀ ok, s.dev.coreGone c = true → Gives (.pipeRetrainDone c p ok) s d.feedRetrains.closeVaultCals)) ∧
    (s.dev.up = true → s.dev.fld Reg.VLT_MIRROR_PEER.STATE = 3 → s.dev.mirrorOut = 0 → Runs .mirrorResyncDone s (fun e =>
      OnlyReports [Reg.VLT_MIRROR_PEER.STATE] s.dev e ∧ e.fld Reg.VLT_MIRROR_PEER.STATE = 1)) ∧
    (∀ t m site, t < 8 → s.dev.up = true → s.dev.migRuns t = false → s.dev.migIn t .waiting = some m →
      s.dev.lowSpare t = some site → Runs (.migrationStart t) s (fun e =>
        e.fld (Reg.TWR_CORE.TARGET m.core) = site % 32 ∧ bit (e.fld (Reg.TWR_SPARE_SITES.SPARE t)) site = false ∧
        e.migIn t .waiting ≠ some m ∧ e.mem = s.dev.mem)) ∧
    (∀ t m, t < 8 → s.dev.up = true → s.dev.migIn t .init = some m → Gives (.migrationInitDone t) s
      (s.dev.modMig m.core (fun m => { m with phase := .copy }))) ∧
    (∀ t m, t < 8 → s.dev.up = true → s.dev.migIn t .copy = some m → s.dev.corePoison m.core = [] →
      Runs (.migrationCopyDone t []) s (fun e => e.migs = (s.dev.modMig m.core (fun m => { m with phase := .verify })).migs ∧
        e.mem = s.dev.mem ∧ FieldsKept [Reg.VLT_UE.BUDDY] s.dev e)) ∧
    (∀ t m, t < 8 → s.dev.up = true → s.dev.migIn t .verify = some m →
      (m.target < 32 → Runs (.migrationVerifyDone t false []) s (fun e => e = s.dev.cutOver m ∧ e.coreSt m.core = 0 ∧
        e.siteOf m.core = m.target ∧
        (s.dev.siteOf m.core < 28 → bit (e.fld (Reg.TWR_RETIRED_SITES.RETIRED (towerOf m.core))) (s.dev.siteOf m.core) = true))) ∧
      Gives (.migrationVerifyDone t true []) s (s.dev.targetFailed m)) ∧
    (∀ r j, r < 16 → Starts s r j → j.opc = 0xA0 → j.reservedByte [(24, 0, 8)] = none → j.num 24 1 < 192 →
      (s.dev.coreSt (j.num 24 1) = 1 → Gives (.spareCore r) s ((s.dev.popHead r).refuse j s.dev.conflict)) ∧
      (s.dev.coreSt (j.num 24 1) = 3 → Gives (.spareCore r) s ((s.dev.popHead r).refuse j ⟨.noResource, Detail.none⟩)) ∧
      (s.dev.st ≠ .running → s.dev.coreSt (j.num 24 1) = 0 → Gives (.spareCore r) s
        (((s.dev.popHead r).askMigration (j.num 24 1) .spareCore (some j.key)).failRuns)) ∧
      (s.dev.st ≠ .running → s.dev.coreSt (j.num 24 1) = 2 → Runs (.spareCore r) s (fun e =>
        e = (s.dev.popHead r).revive (j.num 24 1) j.key ∧
        (∀ site, s.dev.fld (Reg.D2D_LINK_STATUS.BUNDLE_UP (towerOf (j.num 24 1))) ≠ 0 →
          s.dev.lowSpare (towerOf (j.num 24 1)) = some site →
          e.coreSt (j.num 24 1) = 1 ∧ e.fld (Reg.TWR_CORE.TARGET (j.num 24 1)) = site % 32) ∧
        (s.dev.lowSpare (towerOf (j.num 24 1)) = none → e.coreSt (j.num 24 1) = 3))) ∧
      (s.dev.st = .running → s.dev.stp.phase ≠ .gap → s.dev.coreSt (j.num 24 1) ≠ 1 → s.dev.coreSt (j.num 24 1) ≠ 3 →
        Gives (.spareCore r) s ((s.dev.popHead r).deferGap (.calReq j.ring j.sub)))) ∧
    (∀ c m, c < 192 → s.dev.up = true → s.dev.migs.find? (fun m => m.core = c && m.phase = .zero) = some m →
      Runs (.spareZeroDone c) s (fun e => e.coreSt c = 0 ∧ (∀ o, o < 0x100000000 → e.peek (vaultBase c + o) = 0) ∧
        (∀ o, o < sramSize → e.peek (sramAt c o) = 0))) ∧
    (∀ r j, r < 16 → Starts s r j → j.opc = 0x90 → j.num 24 1 = 2 → j.reservedByte [(24, 0, 8), (26, 0, 192)] = none →
      s.dev.namedMigrating j = false → Gives (.calReqVault r) s ((s.dev.popHead r).atGap j Dev.calVaultGo)) ∧
    (∀ r j, r < 16 → Starts s r j → j.opc = 0xE0 → j.num 24 1 = 0 → s.dev.marginCheck j 192 (320 * popCount 192 j.mask)
      [failIf (s.dev.namedMigrating j) s.dev.conflict, ((onesOf 192 j.mask).find? s.dev.coreGone).map Ending.lost] = none →
      (j.mask = 0 → Gives (.marginVault r) s ((s.dev.popHead r).finish j ⟨.done, Detail.none⟩)) ∧
      (j.mask ≠ 0 → Gives (.marginVault r) s ((s.dev.popHead r).modVlt (fun v => { v with marginJobs := v.marginJobs ++
        [SweepJob.begin j.key (((onesOf 192 j.mask).map (fun c => (List.range 20).map (fun p => (c, p)))).flatten)] })))) ∧
    (∀ c p x w d, c < 192 → p < 20 → s.dev.up = true → s.dev.vlt.marginJobs.find? (fun j => j.busy.contains (c, p)) = some w →
      d = s.dev.modVlt (fun v => { v with timing := Tab.set (0, 0, 0) v.timing c (s.dev.sweepTiming c p x) }) →
      Gives (.vaultMarginPipeDone c p x) s
        ((d.putRecord w.desc (fun j => 320 * maskRank j.mask c + 16 * p)
          (d.pipeRecord c p x (s.dev.sweepTiming c p x))).modVlt (fun v => { v with
            marginJobs := v.marginJobs.map (fun j => if j.desc = w.desc then j.advance c p else j) })).closeVaultMargins)

/-- R203, R204, R206 to R209, R214, R215, R224 to R226. A block whose CRC fails is counted and changes nothing else; a good one
brings its header's acknowledgement, report and credits, and a data block its bytes. Unacknowledged blocks are sent again when one
of them has waited for the timer; an alignment beat that fails no lane takes the peer's count, and this end sends its own beat
with the 18 units of its lanes and counts on. A lane move is answered with its alignment count, and after that beat each end uses
the new lane; the transmit margin, the transmit lane under calibration and a planned training come from the peer; a control block
without an answer is sent again, sixteen times. Model's choice: the choices are log entry 25. -/
def Obligations.PortBlocks : Prop :=
  ∀ (s : State) (p : Nat), p < 48 → s.dev.live = true → s.dev.carries p = true →
    (∀ b, b.length = 256 → blkGood b = false → Runs (.linkBlockReceive p b) s (fun e =>
      OnlyFields [Reg.OPT_ERR.CRC_FAIL p] s.dev e ∧ e.fld (Reg.OPT_ERR.CRC_FAIL p) =
        min (2 ^ (Reg.OPT_ERR.CRC_FAIL p).w - 1) (s.dev.fld (Reg.OPT_ERR.CRC_FAIL p) + 1))) ∧
    (∀ b, b.length = 256 → blkGood b = true → blkType b = 1 → Gives (.linkBlockReceive p b) s (s.dev.blkHeader p b)) ∧
    (∀ b, b.length = 256 → blkGood b = true → blkType b = 0 → ((s.dev.blkHeader p b).rxData p b).carries p = true →
      Gives (.linkBlockReceive p b) s (((s.dev.blkHeader p b).rxData p b).answer p)) ∧
    (∀ b, b ∈ (s.dev.port p).unacked → b.at' + us (max 2 (s.dev.fld Reg.OPT_CFG.RESEND_US)) ≤ s.dev.clk → Gives (.resendTimer p) s
      ((s.dev.port p).unacked.foldl (fun d b => d.resendBlock p b) s.dev)) ∧
    (∀ l : List (List Byte), l.length = 18 → (∀ u ∈ l, u.length = 16) → (∀ u ∈ l, unitOk u = true) →
      (∀ n, n < 18 → popCount 16 (alignNext (Tab.get 0 (s.dev.port p).align n) false) < max 1 (s.dev.fld Reg.OPT_LANE_CFG.ALIGN_ERR)) →
      Runs (.alignmentBeat p l) s (fun e =>
        e.out = .align p (s.dev.port p).acount ((List.range 18).map (s.dev.alignUnit p)) :: s.dev.out ∧
        (e.port p).acount = ((s.dev.port p).acount + 1) % 65536 ∧ (e.port p).rxAcount = leAt (l.getD 0 []) 6 2 ∧
        e.regs = s.dev.regs ∧ e.mem = s.dev.mem)) ∧
    (∀ b d x, ctlIs b 2 = true → leAt b 9 1 < 16 → x = s.dev.blkHeader p b →
      d = (if leAt b 12 1 = 0 then
          (x.modPort p (fun y => { y with txFailed := setBit y.txFailed (leAt b 10 1) true })).laneReason p 1 (x.port p).txFailed
            (setBit (x.port p).txFailed (leAt b 10 1) true)
        else if leAt b 12 1 = 2 then x.modPort p (fun y => { y with txFailed := setBit y.txFailed (leAt b 11 1) false })
        else x) →
      (∀ m, leAt b 11 1 < 18 → (d.port p).txMoves.find? (fun m => m.slot = leAt b 9 1 && m.new = leAt b 11 1) = some m →
        Gives (.laneMove p b) s (d.sendCtl p 3 (leBytes 1 (leAt b 9 1) ++ leBytes 2 (m.at?.getD 0)))) ∧
      (leAt b 11 1 < 18 → (d.port p).txMoves.find? (fun m => m.slot = leAt b 9 1 && m.new = leAt b 11 1) = none →
        Gives (.laneMove p b) s
          ((d.modPort p (fun y => { y with txMoves := y.txMoves.filter (fun m => m.slot != leAt b 9 1) ++
            [⟨leAt b 9 1, leAt b 10 1, leAt b 11 1, leAt b 12 1, some (((d.port p).acount + 1) % 65536)⟩] })).sendCtl
          p 3 (leBytes 1 (leAt b 9 1) ++ leBytes 2 (((d.port p).acount + 1) % 65536))))) ∧
    (∀ b, ctlIs b 3 = true → Gives (.laneMoveAck p b) s ((s.dev.blkHeader p b).modPort p (fun x => { x with
      ctl := x.ctl.filter (fun c => !(c.sub = 2 && leAt c.body 0 1 = leAt b 9 1))
      rxMoves := x.rxMoves.map (fun m => if m.slot = leAt b 9 1 then { m with at? := some (leAt b 10 2) } else m) }))) ∧
    (∀ i m, i < 16 → s.dev.moveReady p true i = some m → Gives (.laneMoveSwitch p true i) s (s.dev.rxSwitch p m)) ∧
    (∀ i m, i < 16 → s.dev.moveReady p false i = some m → Gives (.laneMoveSwitch p false i) s
      (((s.dev.setTxLane p i m.new).modPort p
        (fun x => { x with txMoves := x.txMoves.filter (fun y => y.slot != i) })).slotsChanged p)) ∧
    (∀ b, ctlIs b 5 = true → Gives (.marginReport p b) s ((s.dev.blkHeader p b).setFld (Reg.OPT_MARGIN.TX p) (leAt b 9 2))) ∧
    (∀ b, ctlIs b 6 = true → leAt b 9 1 < 18 → Gives (.calLane p b) s
      (((s.dev.blkHeader p b).setFld (Reg.OPT_LANE_STATE.TX_CAL p) (if leAt b 10 1 = 0 then leAt b 9 1 else 0x1F)).slotsChanged p)) ∧
    (∀ b, ctlIs b 7 = true → (s.dev.blkHeader p b).carries p = true → leAt b 9 1 % 8 ≠ 0 →
      Gives (.retrain p b) s ((s.dev.blkHeader p b).failPort p (leAt b 9 1 % 8))) ∧
    (∀ b, ctlIs b 7 = true → (s.dev.blkHeader p b).carries p = true → leAt b 9 1 % 8 = 0 → Gives (.retrain p b) s
      (((((s.dev.blkHeader p b).setFld (Reg.OPT_LANE_STATE.RX_CAL p) 0x1F).modPort p
        (fun x => { x with withdrawn := true })).timeCheck.slotsChanged p).emptyQueue p)) ∧
    ((s.dev.port p).ctl.any (fun c => c.at' + us 1 ≤ s.dev.clk) = true →
      (s.dev.port p).ctl.all (fun c => decide (s.dev.clk < c.at' + us 1) || decide (c.sends < 16)) = true →
      Gives (.controlResendTimer p) s
        ((((s.dev.port p).ctl.filter (fun c => c.at' + us 1 ≤ s.dev.clk)).foldl (fun d c => d.sendCtl p c.sub c.body) s.dev).modPort p
          (fun x => { x with ctl := (s.dev.port p).ctl.map (fun c =>
            if c.at' + us 1 ≤ s.dev.clk then { c with sends := c.sends + 1, at' := s.dev.clk } else c) }))) ∧
    (∀ c ∈ (s.dev.port p).ctl, c.at' + us 1 ≤ s.dev.clk → 16 ≤ c.sends → Gives (.controlResendTimer p) s (s.dev.failPort p 6)) ∧
    Gives (.timeBlockSend p) s (s.dev.sendCtl p 4
      (stampBytes s.dev.stamp ++ stampBytes (s.dev.port p).echoTx ++ stampBytes (s.dev.port p).echoRx)) ∧
    (∀ l m, l.length = 18 → l.all (· < 65536) = true →
      m = minSigned (((List.range 18).filter (fun n => (s.dev.slotOf p n).isSome)).map (fun n => l.getD n 0)) →
      Gives (.marginEstimate p l) s ((s.dev.setFld (Reg.OPT_MARGIN.RX p) m).sendCtl p 5 (leBytes 2 m)))

/-- R211 to R213, R214, R215 to R220, R222, R227. A training starts with light, and again after its retry time while tries remain;
it fails with its cause, and ends with the maps and numbers it found; an IDENT that the port does not accept takes it DOWN as
miswired, for 1 s. Feed or light lost fails the port or its lanes. Lanes are calibrated one by one, behind a spare when they carry
data; rings that lose lock fail their lanes. A port calibration that is due waits for a gap, and begins when every block is
acknowledged. CAL_REQ and MARGIN of ports start their jobs, and a swept lane's record goes into the result buffer; a recovery
notice sends again what the peer has not had, and without one the peer is lost. Model's choice: the choices are log entry 25. -/
def Obligations.PortStates : Prop :=
  ∀ (s : State) (p : Nat), p < 48 → s.dev.live = true →
    (∀ d, s.dev.lightStarts p = true → d = (s.dev.setFeedLost p false).modPort p (fun x => { x with lightLost := false }) →
      (d.portSt p = 5 → Gives (.lightDetected p) s (d.tryAgain p)) ∧
      (d.portSt p ≠ 5 → Gives (.lightDetected p) s (d.startTraining p))) ∧
    (∀ l, l.all (· < 18) = true → (List.range 18).all l.contains = false →
      (s.dev.carries p = true → Gives (.lossOfLight p false l) s (s.dev.lanesFail p l) ∧
        ((s.dev.setFeedLost p true).carries p = true → Gives (.lossOfLight p true l) s ((s.dev.setFeedLost p true).failPort p 5))) ∧
      ((s.dev.setFeedLost p true).portSt p = 1 →
        Gives (.lossOfLight p true l) s ((s.dev.setFeedLost p true).trainFails p 5))) ∧
    (s.dev.portSt p = 1 → Gives (.lossOfLight p false (List.range 18)) s
      ((s.dev.modPort p (fun x => { x with lightLost := true })).trainFails p 1)) ∧
    (∀ r, trainOk r = true → s.dev.portSt p = 1 → (s.dev.port p).ident = true →
      Gives (.trainingComplete p r) s (s.dev.trainDone p r)) ∧
    (∀ b d, s.dev.portSt p = 1 → d = s.dev.trainFails p (if b then 1 else 2) →
      (d.st = .running → Gives (.trainingPhaseTimeout p b) s d) ∧
      (d.st ≠ .running → Gives (.trainingPhaseTimeout p b) s d.pumpPortCals)) ∧
    (s.dev.engineUp p = true → (s.dev.port p).since + ms 10 ≤ s.dev.clk →
      ((s.dev.portSt p = 0 ∧ s.dev.fld (Reg.OPT_PORT_STATUS.CAUSE p) ∈ [1, 2, 5]) ∨
        (s.dev.portSt p = 5 ∧ s.dev.fld (Reg.OPT_PORT_STATUS.ENG_LINK p) = 0 ∧
          s.dev.fld (Reg.OPT_PORT_STATUS.TRIES p) < max 1 (s.dev.fld Reg.OPT_CFG.TRAIN_TRIES))) →
      Gives (.trainingRetryTimer p) s (s.dev.startTraining p)) ∧
    (s.dev.portSt p = 0 → (s.dev.port p).miswire = true → (s.dev.port p).since + sec 1 ≤ s.dev.clk →
      Gives (.miswireHoldExpire p) s (s.dev.modPort p (fun x => { x with miswire := false }))) ∧
    (∀ b d, ctlIs b 1 = true → s.dev.portSt p = 1 → identOk p b = true →
      d = ((s.dev.setFld (Reg.OPT_PEER.FLAT_ID p) (leAt b 9 2)).setFld (Reg.OPT_PEER.PORT p) (leAt b 11 1 % 64)).setFld
        (Reg.OPT_PEER.SWITCH p) (leAt b 12 1 % 2) → Gives (.ident p b) s
        (({ d.setOn (Reg.OPT_PEER.VALID p) true with
          peerCoord := Tab.set (0, 0, 0) s.dev.peerCoord p (leAt b 13 1, leAt b 14 1, leAt b 15 1) } : Dev).modPort p
          (fun x => { x with ident := true }))) ∧
    (∀ b, ctlIs b 1 = true → s.dev.portSt p = 1 → identOk p b = false → Runs (.ident p b) s (fun e =>
      e.portSt p = 0 ∧ e.fld (Reg.OPT_PORT_STATUS.CAUSE p) = 3 ∧ (e.port p).miswire = true)) ∧
    (∀ d, s.dev.laneCalFree p = true → d = s.dev.modPort p (fun x => { x with calRx := ((s.dev.port p).calRx + 1) % 18 }) →
      (∀ i n, d.slotOf p (s.dev.port p).calRx = some i → (d.rxSpares p).head? = some n → (d.port p).rxMoves.length < 2 →
        (d.port p).rxMoves.any (fun m => m.slot = i) = false →
        Gives (.laneCalDue p) s (d.startMove p ⟨i, (s.dev.port p).calRx, n, 1, none⟩)) ∧
      (∀ i, d.slotOf p (s.dev.port p).calRx = some i → d.rxSpares p = [] → Gives (.laneCalDue p) s d) ∧
      (d.slotOf p (s.dev.port p).calRx = none → (d.port p).rxMoves.any (fun m => m.new = (s.dev.port p).calRx) = false →
        d.laneSwept p (s.dev.port p).calRx = false → Gives (.laneCalDue p) s (d.startLaneCal p (s.dev.port p).calRx))) ∧
    (∀ d n, s.dev.carries p = true → n = s.dev.fld (Reg.OPT_LANE_STATE.RX_CAL p) → n ≠ 0x1F →
      d = s.dev.setFld (Reg.OPT_LANE_STATE.RX_CAL p) 0x1F →
      Gives (.laneCalDone p false) s (((d.sendCtl p 6 (leBytes 1 n ++ [1])).slotsChanged p).laneFree p) ∧
      Gives (.laneCalDone p true) s (((((d.setFldBit (Reg.OPT_LANE_STATE.RX_FAILED p) n false).modPort p (fun x => { x with
        align := Tab.set 0 x.align n 0, ringLost := setBit x.ringLost n false })).sendCtl p 6
          (leBytes 1 n ++ [1])).slotsChanged p).laneFree p)) ∧
    (∀ l, l.all (· < 18) = true → s.dev.carries p = true →
      Gives (.ringLockLoss p true l) s ((s.dev.modPort p (fun x => { x with ringLost := withLanes x.ringLost l })).lanesFail p l) ∧
      Gives (.ringLockLoss p false l) s (s.dev.modPort p (fun x => { x with txRingLost := withLanes x.txRingLost l }))) ∧
    (∀ n d, n < 18 → s.dev.carries p = true →
      (bit (s.dev.port p).txRingLost n = true →
        Gives (.ringRelock p false n) s (s.dev.modPort p (fun x => { x with txRingLost := setBit x.txRingLost n false }))) ∧
      (bit (s.dev.port p).ringLost n = true → d = s.dev.modPort p (fun x => { x with ringLost := setBit x.ringLost n false }) →
        (d.rxFailed p n = true → Gives (.ringRelock p true n) s d) ∧
        (d.rxFailed p n = false → Gives (.ringRelock p true n) s (d.laneFree p)))) ∧
    (s.dev.carries p = true → (s.dev.port p).calDue = false →
      ((s.dev.fld Reg.OPT_CFG.PORT_CAL_H ≠ 0 ∧ (s.dev.port p).trained + sec (3600 * s.dev.fld Reg.OPT_CFG.PORT_CAL_H) ≤ s.dev.clk) ∨
        s.dev.fld (Reg.OPT_CAL_REC.POWER_BAND p) + 1 < s.dev.fld Reg.TGT_STATUS.POWER_BAND ∨
        s.dev.fld Reg.TGT_STATUS.POWER_BAND + 1 < s.dev.fld (Reg.OPT_CAL_REC.POWER_BAND p)) →
      Gives (.portCalDue p) s ((s.dev.modPort p (fun x => { x with calDue := true })).deferGap (.portCal p))) ∧
    (∀ m, s.dev.carries p = true → (s.dev.port p).withdrawn = true → (s.dev.port p).unacked = [] →
      m = ((s.dev.port p).moveDue && s.dev.onBackup p != bit s.dev.lim.toBackup (p % 8)) →
      Gives (.portCalDrained p) s (((if m then s.dev.flipFeed p else s.dev).modPort p (fun x => { x with
        moveDue := false, moving := m, calibrating := true, replay := [] })).startTraining p)) ∧
    (∀ r j, r < 16 → Starts s r j → j.opc = 0x90 → j.num 24 1 = 0 → j.reservedByte [(24, 0, 8), (26, 0, 192)] = none →
      j.mask < 2 ^ 48 → Gives (.calReqOptical r) s ((s.dev.popHead r).atGap j Dev.calOptGo)) ∧
    (∀ r j, r < 16 → Starts s r j → j.opc = 0xE0 → j.num 24 1 = 1 → s.dev.marginCheck j 48 (288 * popCount 48 j.mask) [] = none →
      Gives (.marginOptical r) s (((onesOf 48 j.mask).foldl (fun d q => Dev.marginTake j.key q 18 d)
        ({ s.dev.popHead r with opt := { s.dev.opt with marginJobs := s.dev.opt.marginJobs ++ [⟨j.key,
          ((onesOf 48 j.mask).map (fun q => (List.range 18).map (fun n => (q, n)))).flatten, [], []⟩] } } : Dev)).closeOptMargins)) ∧
    (∀ n x j, n < 18 → s.dev.up = true → s.dev.opt.marginJobs.find? (fun j => j.busy.contains (p, n)) = some j →
      s.dev.slotOf p n = none → Gives (.optMarginLaneDone p n x) s (((s.dev.putLane j.desc p n
        (s.dev.laneRecord p n (leAt (Tab.get [] j.recs (32 * p + n)) 0 1) (leAt (Tab.get [] j.recs (32 * p + n)) 1 1) (some x))).modOptMargin
          (fun i => if i.desc = j.desc then { i with busy := i.busy.erase (p, n) } else i)).laneFree p)) ∧
    (∀ q w, s.dev.canTake q = true → q.cls = 3 → q.op = 1 → (s.dev.take q).noticePort q = some p →
      ((s.dev.take q).port p).recovery = some w → Gives (.linkRecoveryNotice q) s
        ((((s.dev.take q).modPort p (fun x => { x with recovery := none })).takeBack (queuedOf (w.replay.drop
          (wholePrefix (fun b : BlkBuf => seqLe b.seq (leAt q.payload 1 2)) (fun b : BlkBuf => b.eop) w.replay 0 0)))).pumpAll p)) ∧
    (s.dev.recoveryOver p = true → Gives (.recoveryNoticeTimeout p) s (s.dev.peerLost p))

/-- R230 to R243. Presence sets its bit and its time; 500 ms later a cartridge that passes its check warms in a home slot and
stands by in a spare slot, and one that fails is retired and not enabled; removal empties the slot with LM_EN low. A poll without
an answer is counted; a warming cartridge that is ready goes ONLINE, and one that does not lock within 120 s retires. The hours
emitted since the last account are added to HOURS. The board switch enables the spare when it has settled, takes its light as
confirmed when all six ports see it, and is faulted for a group without light after 20 ms. SPARE_LIMELIGHT brings the spare in:
it completes at once when every port has moved already or when no spare can be brought in, and otherwise when the moves are made.
Model's choice: the choices are log entry 37. -/
def Obligations.Cartridges : Prop :=
  ∀ (s : State) (i : Nat), i < 10 →
    (s.dev.present i = false → Gives (.lmPresence i) s { s.dev with pins := { s.dev.pins with
      lmPresent := setBit s.dev.pins.lmPresent i true, lmAt := Tab.set 0 s.dev.pins.lmAt i s.dev.clk } }) ∧
    (∀ a : Option CartCheck, a.all (fun e => e.1.length = 72 && e.2.1.length = 3840 && e.2.2.length = 384) = true →
      s.dev.live = true → s.dev.present i = true → s.dev.slotSt i = 0 →
      Tab.get 0 s.dev.pins.lmAt i + ms 500 ≤ s.dev.clk →
      Runs (.cartridgeCheck i a) s (fun e =>
        (∀ c chain sig, a = some (c, chain, sig) → checkCode (leBytes 16 s.dev.free) a = 1 →
          e.slotSt i = (if i < 8 then 1 else 3) ∧ e.fld (Reg.LIM_STATE.AUTH i) = 1 ∧
          e.fld (Reg.LIM_SERIAL.SERIAL i) = leAt c 8 8 ∧ (e.slot i).card = c ∧
          (s.dev.st ≠ .boot → i < 8 → bit e.pins.lmEn i = true) ∧ (8 ≤ i → bit e.pins.lmEn i = bit s.dev.pins.lmEn i)) ∧
        (checkCode (leBytes 16 s.dev.free) a ≠ 1 →
          e.slotSt i = 6 ∧ e.fld (Reg.LIM_STATE.CAUSE i) = 1 ∧ bit e.pins.lmEn i = bit s.dev.pins.lmEn i ∧
          e.fld Reg.LIM_EVENTS.REJECTED =
            min (2 ^ Reg.LIM_EVENTS.REJECTED.w - 1) (s.dev.fld Reg.LIM_EVENTS.REJECTED + 1)))) ∧
    (∀ d, s.dev.present i = true →
      d = { s.dev with pins := { s.dev.pins with lmPresent := setBit s.dev.pins.lmPresent i false } } →
      (s.dev.st = .halted → Runs (.lmRemoval i) s (fun e => e.slotSt i = 0 ∧ bit e.pins.lmEn i = false ∧
        bit e.pins.lmPresent i = false ∧ e.fld (Reg.LIM_STATE.AUTH i) = 0 ∧ e.mem = s.dev.mem)) ∧
      (s.dev.st ≠ .halted → Gives (.lmRemoval i) s
        ((((if s.dev.slotSt i = 0 then d else d.stopFeeding i 0 0).modLim (fun l => { l with
          slots := Tab.erase l.slots i })).slotBare i).lightUp)) ∧
      (s.dev.st ≠ .halted → s.dev.slotSt i ≠ 0 → s.dev.slotLit i = false → (i < 8 ∨ s.dev.spareGroup i = none) →
        Runs (.lmRemoval i) s (fun e => e.slotSt i = 0 ∧ bit e.pins.lmEn i = false ∧ bit e.pins.lmPresent i = false ∧
          e.fld (Reg.LIM_STATE.AUTH i) = 0))) ∧
    (s.dev.live = true → s.dev.slotSt i ≠ 0 → s.dev.slotSt i ≠ 6 → (s.dev.slot i).silent + 1 < 10 →
      Gives (.cartridgePoll i none) s (s.dev.modSlot i (fun x => { x with silent := x.silent + 1 }))) ∧
    (∀ r, r.power.length = 18 → s.dev.live = true → s.dev.slotSt i ≠ 0 → s.dev.slotSt i ≠ 6 →
      Gives (.cartridgePoll i (some r)) s (s.dev.cartAnswer i r) ∧
      (s.dev.slotSt i = 1 → bit s.dev.pins.lmEn i = true → (s.dev.slot i).ready r = true → 8 ≤ i → s.dev.spareGroup i = none →
        (s.dev.cartAnswer i r).slotSt i = 2)) ∧
    (s.dev.live = true → bit s.dev.pins.lmEn i = true → s.dev.slotSt i ≠ 0 → sec 3600 ≤ s.dev.emission i →
      (s.dev.slot i).card.length = 72 → Runs (.lifeAccounting i) s (fun e =>
        (e.slot i).field 64 4 = min 0xFFFFFFFF ((s.dev.slot i).field 64 4 + ((s.dev.slot i).hourRest + s.dev.emission i) / sec 3600) ∧
        e.fld (Reg.LIM_LIFE.HOURS i) = (e.slot i).field 64 4 ∧ (e.slot i).n = 0 ∧
        FieldsKept [Reg.LIM_LIFE.HOURS i, Reg.LIM_LIFE.EQ_HOURS i, Reg.LIM_FADE.PREDICT_H i] s.dev e)) ∧
    (s.dev.live = true → s.dev.slotSt i = 1 → (s.dev.slot i).since + sec 120 ≤ s.dev.clk →
      Gives (.warmingTimeout i) s (s.dev.stopFeeding i 6 2) ∧
      (i < 8 ∨ s.dev.spareGroup i = none → Runs (.warmingTimeout i) s (fun e =>
        e.slotSt i = 6 ∧ e.fld (Reg.LIM_STATE.CAUSE i) = 2 ∧ bit e.pins.lmEn i = false))) ∧
    (∀ g k, 8 ≤ i → s.dev.live = true → s.dev.spareGroup i = some k → Tab.get 0 s.dev.lim.selAt (i - 8) + ms 10 ≤ s.dev.clk →
      (s.dev.slotSt i = 3 → Gives (.switchSettled i g) s (s.dev.warm i)) ∧
      ((s.dev.slotSt i = 2 ∨ s.dev.slotSt i = 4) → Tab.get false s.dev.lim.confirmed (i - 8) = false → g % 64 = 63 →
        Gives (.switchSettled i g) s (s.dev.confirmBackup k))) ∧
    (∀ k, 8 ≤ i → s.dev.live = true → s.dev.spareGroup i = some k → Tab.get false s.dev.lim.confirmed (i - 8) = false →
      (s.dev.slotSt i = 2 ∨ s.dev.slotSt i = 4) → Tab.get 0 s.dev.lim.selAt (i - 8) + ms 20 ≤ s.dev.clk →
      Gives (.switchLightTimeout i) s
        ((((s.dev.setFldBit Reg.LIM_SW.FAULT k true).record (.mk1 6 2 i (leBytes 1 k))).releaseSpare k).limDone k ⟨.noResource, Detail.none⟩)) ∧
    (∀ r j k d, r < 16 → Starts s r j → j.opc = 0xA1 → j.reservedByte [(24, 0, 16)] = none → k = j.num 24 1 → k < 8 →
      (j.num 25 1 = 0xFF ∨ j.num 25 1 = spareOf k) → d = (s.dev.popHead r).switchStart k →
      (d.spareGroup (spareOf k) ≠ some k → Gives (.spareLimelight r) s (d.finish j ⟨.noResource, Detail.none⟩)) ∧
      (d.spareGroup (spareOf k) = some k → d.backupLit k = true →
        (∀ p ∈ groupPorts k, d.onBackup p = true ∧ (d.port p).moving = false) →
        Gives (.spareLimelight r) s (d.finish j ⟨.done, Detail.none⟩)) ∧
      (d.spareGroup (spareOf k) = some k → (d.backupLit k = false ∨ ∃ p ∈ groupPorts k, d.onBackup p = false) →
        Gives (.spareLimelight r) s (d.modLim (fun l => { l with jobs := l.jobs ++ [(j.key, k)] }))))

/-- R263 to R265, R394 to R399. An export sends its manifest and an import waits for one; the manifest goes again 1 ms after its
last sending; a handover without an answer or without progress is aborted with TIMEOUT. The spare accepts a manifest whose cores
it has and whose key is its own; accepted, the source sends units; each unit's bytes stand at their addresses in the spare, and
its end is checked and acknowledged; the last acknowledgement hands over to the takeover, and Done completes the export with its
flat ID exported. A takeover notice takes its entry to the tree and is acknowledged; one for the device's own ID is only
recorded. Notices go again after 1 ms to the members that have not acknowledged, and after ten the takeover ends without them.
Model's choice: the choices are log entry 38. -/
def Obligations.HandoverProtocol : Prop :=
  ∀ s : State,
    (∀ r j, r < 16 → Starts s r j → s.dev.migs = [] → j.opc = 0xB0 → j.reservedByte [(24, 0, 16)] = none → s.dev.st = .quiesced →
      s.dev.flt.exported = false → Gives (.handoverExport r) s ((s.dev.popHead r).beginHo j true (s.dev.popHead r).selfId
        (s.dev.popHead r).activeMask ((s.dev.popHead r).unitCount (s.dev.popHead r).activeMask))) ∧
    (∀ r j, r < 16 → Starts s r j → s.dev.migs = [] → j.opc = 0xB1 → j.reservedByte [(24, 0, 16), (26, 0, 16)] = none →
      s.dev.st = .ready → Gives (.handoverImport r) s ((s.dev.popHead r).beginHo j false (j.num 26 2) 0 0)) ∧
    (∀ h, s.dev.up = true → s.dev.flt.handover = some h →
      (h.isExport = true → h.phase = .manifest → h.asked + ms 1 ≤ s.dev.clk → Gives .manifestResend s
        ((s.dev.modHo (fun h => { h with asked := s.dev.clk })).sendManifest h)) ∧
      (h.phase = .manifest → h.start + s.dev.hoWait ≤ s.dev.clk → Gives .handoverWaitTimeout s (s.dev.abortHandover h ⟨.timeout, Detail.none⟩)) ∧
      ((h.phase = .copy ∨ (h.phase = .takeover ∧ h.isExport = true)) → h.progress + sec 1 ≤ s.dev.clk →
        Gives .handoverStall s (s.dev.abortHandover h ⟨.timeout, Detail.none⟩))) ∧
    (∀ p h, (s.dev.take p).flt.handover = some h → p.src = h.peer → h.isExport = true →
      (s.dev.hoTakes p 0x51 = true → s.dev.unitsWait = false → h.phase = .manifest → leAt p.payload 0 1 = 0 →
        Gives (.accept p) s (Dev.sendUnits 64
          (((s.dev.take p).modHo (fun h => { h with phase := .copy, progress := (s.dev.take p).clk })).showHo true 2))) ∧
      (s.dev.hoTakes p 0x51 = true → s.dev.unitsWait = false → h.phase = .manifest → leAt p.payload 0 1 = 1 →
        Gives (.accept p) s ((s.dev.take p).endHandover h ⟨.noResource, Detail.none⟩)) ∧
      (∀ d, s.dev.hoTakes p 0x54 = true → s.dev.unitsWait = false → h.phase = .copy → leAt p.payload 4 4 = 0xFFFFFFFF →
        d = ((s.dev.take p).modHo (fun x => { x with
          verified := max h.verified (leAt p.payload 0 4)
          progress := (s.dev.take p).clk
          buddy := x.buddy.filter (fun e => max h.verified (leAt p.payload 0 4) ≤ e.1) })).setFld
          Reg.FLT_HANDOVER.UNITS (max h.verified (leAt p.payload 0 4)) →
        (max h.verified (leAt p.payload 0 4) < h.units → Gives (.unitAck p) s (Dev.sendUnits 64 d)) ∧
        (h.units ≤ max h.verified (leAt p.payload 0 4) → Gives (.unitAck p) s
          ((d.modHo (fun h => { h with phase := .takeover })).showHo true 3))) ∧
      (s.dev.hoTakes p 0x55 = true → h.phase = .takeover → Runs (.handoverDone p) s (fun e =>
        e.fld Reg.FAB_SELF.EXPORTED = 1 ∧ e.flt.exported = true ∧ e.flt.handover = none ∧
        e.fld Reg.FLT_HANDOVER.PHASE = 4))) ∧
    (∀ p h, (s.dev.take p).flt.handover = some h → h.isExport = false →
      (s.dev.hoTakes p 0x50 = true → leAt p.payload 0 2 = h.peer → h.phase = .manifest → (s.dev.take p).manifestCode p.payload = 0 →
        Gives (.manifest p) s ((((s.dev.take p).modHo (fun h => { h with
          phase := .copy, progress := (s.dev.take p).clk, cores := leAt p.payload 8 24, units := leAt p.payload 32 8 })).showHo false 2).sendAccept h 0)) ∧
      (s.dev.hoTakes p 0x50 = true → leAt p.payload 0 2 = h.peer → h.phase = .manifest → (s.dev.take p).manifestCode p.payload = 1 →
        Gives (.manifest p) s (((s.dev.take p).sendAccept h 1).endHandover h ⟨.noResource, Detail.none⟩)) ∧
      (s.dev.hoTakes p 0x52 = true → p.src = h.peer → h.phase = .copy → memRange p.da p.payload.length = true →
        Runs (.handoverData p) s (fun e => Stored p.da p.payload s.dev e ∧
          ∃ g, e.flt.handover = some g ∧ g.unitBuf = h.unitBuf ++ p.payload)) ∧
      (∀ x, s.dev.hoTakes p 0x53 = true → p.src = h.peer → h.phase = .copy → Gives (.unitEnd p x) s ((s.dev.take p).unitEnd h p x))) ∧
    (∀ p, s.dev.up = true → s.dev.takes p 3 2 = true →
      (leAt p.payload 0 2 = (s.dev.take p).selfId → Gives (.takeoverNotice p) s ((s.dev.take p).record ⟨7, 3, some p.src, 0xFF, [], []⟩)) ∧
      (leAt p.payload 0 2 ≠ (s.dev.take p).selfId → Gives (.takeoverNotice p) s
        (((s.dev.take p).applyTake (leAt p.payload 0 2)).send
          ((s.dev.take p).mkPkt 3 true 3 p.src 0 0 (slice p.payload 0 4))))) ∧
    (∀ p t, s.dev.up = true → s.dev.takes p 3 3 = true → (s.dev.take p).fab.takeover = some t → leAt p.payload 0 2 = t.id →
      t.members.any (fun e => e.1 = p.src) = true → Gives (.takeoverAck p) s ((s.dev.take p).takeAcked p.src)) ∧
    (∀ t, s.dev.up = true → s.dev.fab.takeover = some t → t.at' + ms 1 ≤ s.dev.clk →
      (t.members.all (fun e => 10 ≤ e.2) = true → Gives .takeoverResend s (s.dev.takeoverEnd (t.members.map (·.1)))) ∧
      (t.members.all (fun e => 10 ≤ e.2) = false → Gives .takeoverResend s
        (((t.members.filter (fun e => e.2 < 10)).map (·.1)).foldl (fun d m => d.sendTake t.id m)
          ({ s.dev with fab := { s.dev.fab with takeover := some { t with
            members := t.members.map (fun (e : Nat × Nat) => (e.1, min 10 (e.2 + 1))), at' := s.dev.clk } } } : Dev))))

/-- R222, R251, R252, R258, R385 to R387. A packet that was taken back is routed again, ahead of the oldest one that has arrived;
one that has waited too long for a tree port is dropped and counted. A notice about a device is held from its arrival and goes on
to the next axis; it counts as a sighting during a handover with that device. Held notices end with their hold time, as do origin
entries of the suspect table; an origin whose count has grown is reported again after 1 s. Model's choice: the choices are log
entries 26 and 27. -/
def Obligations.RoutingAndSuspects : Prop :=
  ∀ s : State,
    (∀ a l, s.dev.live = true → s.dev.fab.again = a :: l → Gives .packetRoute s
      (({ s.dev with fab := { s.dev.fab with again := l } } : Dev).routeAgain a).pumpPorts) ∧
    (∀ e l, s.dev.live = true → s.dev.fab.again = [] → s.dev.fab.arrived = e :: l → Gives .packetRoute s
      (({ s.dev with fab := { s.dev.fab with arrived := l } } : Dev).route e.1 e.2)) ∧
    (∀ w l, s.dev.live = true → s.dev.fab.treeWait = w :: l → w.since + s.dev.treeWaitTime ≤ s.dev.clk →
      Runs .treeWaitTimeout s (fun e => OnlyFields [Reg.FAB_DROPS.NO_ROUTE] { s.dev with fab := { s.dev.fab with treeWait := l } } e ∧
        e.fld Reg.FAB_DROPS.NO_ROUTE = min (2 ^ Reg.FAB_DROPS.NO_ROUTE.w - 1) (s.dev.fld Reg.FAB_DROPS.NO_ROUTE + 1))) ∧
    (∀ p x d, s.dev.live = true → s.dev.canTake p = true → p.cls = 3 → p.op = 0x40 → x = leAt p.payload 0 2 →
      d = (if leAt p.payload 3 1 < 2 then ((s.dev.take p).holdNotice x).noticeLine (leAt p.payload 3 1 + 1) p.payload
        else (s.dev.take p).holdNotice x) →
      (d.flt.handover.any (fun h => h.peer = x) = false → Gives (.suspectNotice p) s d) ∧
      (d.flt.handover.any (fun h => h.peer = x) = true → Gives (.suspectNotice p) s (d.sight x (leAt p.payload 2 1) 0xFF))) ∧
    (∀ x, x < 65536 → s.dev.up = true →
      (s.dev.flt.notices.any (fun n => n.1 = x && s.dev.holdOver n.2) = true ∨
        s.dev.flt.suspects.any (fun e => e.2.id = x && e.2.origin && s.dev.holdOver e.2.last) = true) →
      Gives (.suspectHoldExpire x) s { s.dev with flt := { s.dev.flt with
        notices := s.dev.flt.notices.filter (fun n => !(n.1 = x && s.dev.holdOver n.2))
        suspects := s.dev.flt.suspects.filter (fun e => !(e.2.id = x && e.2.origin && s.dev.holdOver e.2.last)) } }) ∧
    (∀ x i, x < 65536 → s.dev.up = true → s.dev.suspectAt x = some i →
      s.dev.flt.suspects.any (fun e => e.2.id = x && e.2.origin && e.2.grown && e.2.told + sec 1 ≤ s.dev.clk) = true →
      Gives (.suspectCountUpdate x) s
        ((s.dev.putSuspect i { Tab.get Suspect.none s.dev.flt.suspects i with grown := false, told := s.dev.clk }).suspectReport 5
          (Tab.get Suspect.none s.dev.flt.suspects i)))

/-- R389 to R393. A command whose tag fails is counted as rejected, recorded and not answered; one of another session, or whose
number has been used, is answered with status 1 and counted as rejected. A good one is answered first, counted as accepted, and
then has its effect: none for GET_STATE, GET_RECORDS and GET_SUSPECTS; SET_LOST sets or clears LOST; REQUEST stands in
FLT_MGMT_REQ with VALID and sends vector 0, and is BUSY while one is pending; RESET enters RESET. An acknowledged report is done;
one unacknowledged for 1 s is sent again; the link's coming up sends what is queued, and its going down is shown; the driver takes
a request by clearing VALID. Model's choice: where a command of no defined code goes is log entry 28. -/
def Obligations.ManagementPort : Prop :=
  (∀ (s : State) (m : List Byte), s.dev.mgmtServes = true →
    (∀ c n, (c, n) ∈ [(Instr.getState m, 1), (.getRecords m, 2), (.getSuspects m, 3), (.setLost m, 4), (.request m, 5), (.mgmtReset m, 6)] →
      leAt m 0 1 = 0x10 → leAt m 24 1 = n →
      (s.dev.mgmtTagOk m = false → Runs c s (fun e => OnlyReports [Reg.FLT_MGMT_CMDS.REJECTED] s.dev e ∧
        e.fld Reg.FLT_MGMT_CMDS.REJECTED = min (2 ^ Reg.FLT_MGMT_CMDS.REJECTED.w - 1) (s.dev.fld Reg.FLT_MGMT_CMDS.REJECTED + 1))) ∧
      (s.dev.mgmtTagOk m = true → (leAt m 20 4 ≠ s.dev.flt.session ∨ ∃ k, s.dev.flt.lastCmd = some k ∧ leAt m 16 4 ≤ k) →
        Gives c s ((s.dev.mgmtReply m 1 []).mgmtReject n 1))) ∧
    (∀ d : Dev, leAt m 0 1 = 0x10 → s.dev.mgmtTagOk m = true → leAt m 20 4 = s.dev.flt.session → m.length = 80 → leAt m 25 7 = 0 →
      (∀ n, s.dev.flt.lastCmd = some n → n < leAt m 16 4) →
      d = { s.dev with flt := { s.dev.flt with lastCmd := some (leAt m 16 4) } } →
      (leAt m 24 1 = 1 → Gives (.getState m) s ((d.mgmtReply m 0 s.dev.stateData).bumpSat Reg.FLT_MGMT_CMDS.ACCEPTED 1)) ∧
      (leAt m 24 1 = 2 → leAt m 36 1 ≠ 0 → leAt m 36 1 ≤ 32 → s.dev.inSt [.ready, .running, .quiesced, .halted] = true →
        Gives (.getRecords m) s ((d.mgmtReply m 0 (recordsFrom s.dev.flt.logged (leAt m 32 4) (leAt m 36 1))).bumpSat
          Reg.FLT_MGMT_CMDS.ACCEPTED 1)) ∧
      (leAt m 24 1 = 3 → s.dev.inSt [.ready, .running, .quiesced, .halted] = true → Gives (.getSuspects m) s
        ((d.mgmtReply m 0 ((List.range 64).map (fun i => leBytes 8 (s.dev.suspectWord i))).flatten).bumpSat Reg.FLT_MGMT_CMDS.ACCEPTED 1)) ∧
      (leAt m 24 1 = 4 → s.dev.up = true →
        (leAt m 34 1 = 1 → Gives (.setLost m) s (((d.mgmtReply m 0 []).bumpSat Reg.FLT_MGMT_CMDS.ACCEPTED 1).setLost (leAt m 32 2))) ∧
        (leAt m 34 1 = 0 → Gives (.setLost m) s (((d.mgmtReply m 0 []).bumpSat Reg.FLT_MGMT_CMDS.ACCEPTED 1).markLost (leAt m 32 2) false))) ∧
      (leAt m 24 1 = 5 → s.dev.up = true → leAt m 32 1 ≠ 0 → leAt m 32 1 ≤ 6 →
        (s.dev.fld Reg.FLT_MGMT_REQ.VALID = 0 → Gives (.request m) s
          (((((((d.mgmtReply m 0 []).bumpSat Reg.FLT_MGMT_CMDS.ACCEPTED 1).setFld Reg.FLT_MGMT_REQ.CODE (leAt m 32 1)).setFld
            Reg.FLT_MGMT_REQ.A (leAt m 34 2)).setFld Reg.FLT_MGMT_REQ.B (leAt m 36 2)).setFld Reg.FLT_MGMT_REQ.VALID 1).setFld
              Reg.GLB_STATE_CHANGE.REQUEST 1 |>.msix 0) ∧
          Runs (.request m) s (fun e => e.fld Reg.FLT_MGMT_REQ.VALID = 1 ∧ e.fld Reg.FLT_MGMT_REQ.CODE = leAt m 32 1 ∧
            e.fld Reg.FLT_MGMT_REQ.A = leAt m 34 2 ∧ e.fld Reg.FLT_MGMT_REQ.B = leAt m 36 2 ∧ e.mem = s.dev.mem ∧
            e.cores = s.dev.cores)) ∧
        (s.dev.fld Reg.FLT_MGMT_REQ.VALID = 1 → Gives (.request m) s ((d.mgmtReply m 4 []).mgmtReject 5 4))) ∧
      (leAt m 24 1 = 6 → s.dev.boot.flashJob = none → s.dev.boot.rcvJob = false → Runs (.mgmtReset m) s (fun e =>
        e.st = .reset ∧ e.boot.pulse = true))) ∧
    (leAt m 0 1 = 2 → s.dev.mgmtTagOk m = true → Gives (.reportAck m) s (Dev.pumpReports 8
      { s.dev with flt := { s.dev.flt with unacked := s.dev.flt.unacked.filter (fun r => r.msgSeq != leAt m 4 4) } })) ∧
    (s.dev.flt.unacked.any s.dev.reportDue = true → Gives .reportResend s
      ((s.dev.flt.unacked.filter s.dev.reportDue).foldl Dev.sendReport ({ s.dev with flt := { s.dev.flt with
        unacked := s.dev.flt.unacked.map (fun r => if s.dev.reportDue r then { r with at' := s.dev.clk } else r) } } : Dev)))) ∧
  (∀ s : State, s.dev.st ≠ .reset →
    (s.dev.mgmtOn = true → Gives .mgmtLinkUp s (Dev.pumpReports 8 (s.dev.setFld Reg.FLT_MGMT_STATUS.LINK_UP 1))) ∧
    (s.dev.fld Reg.FLT_MGMT_STATUS.LINK_UP = 1 → Gives .mgmtLinkDown s (s.dev.setFld Reg.FLT_MGMT_STATUS.LINK_UP 0)) ∧
    (s.dev.fld Reg.FLT_MGMT_REQ.VALID = 1 → Gives .mgmtReqTake s (s.dev.setFld Reg.FLT_MGMT_REQ.VALID 0)))

/-- R409, R410, R414, R415, R418, R419. ACT_SELECT of an Act with a valid copy stands in SEC_ACT_NEXT, and one that its checks
refuse completes so. ATTEST reports come in start order. Staged bytes stand in the staging buffer, and every byte outside them
stays. A package that FW_COMMIT refuses leaves the flash as it was, completes BAD_FIELD naming byte 24 and shows its cause; one
that passes is written to flash, then pending; a write that fails leaves what was being written erased and completes
NO_RESOURCE. Model's choice: the choices are log entry 11. -/
def Obligations.SecurityCommands : Prop :=
  ∀ s : State,
    (∀ r j, r < 16 → Starts s r j → j.opc = 0x80 → Runs (.actSelect r) s (fun e =>
      (s.dev.actSelectCheck j = none → e.fld Reg.SEC_ACT_NEXT.ACT = j.fb 24 0 2 ∧ e.fld Reg.SEC_ACT_NEXT.VALID = 1 ∧
        e.mem = s.dev.mem ∧ e.flash = s.dev.flash) ∧
      (∀ x, s.dev.actSelectCheck j = some x → e = (s.dev.popHead r).refuse j x))) ∧
    (∀ r j, r < 16 → Starts s r j → j.opc = 0xD0 → s.dev.attestCheck j = none → Gives (.attest r) s
      { s.dev.popHead r with boot := { s.dev.boot with attests := s.dev.boot.attests ++ [j.key] } }) ∧
    (∀ k l j, s.dev.up = true → s.dev.boot.attests = k :: l → s.dev.desc? k = some j → Gives .attestComplete s
      (({ s.dev with boot := { s.dev.boot with attests := l } } : Dev).attestEnd j)) ∧
    (∀ r j, r < 16 → Starts s r j → j.opc = 0xD1 → s.dev.stageCheck j = none →
      (j.stageLen = 0 → Gives (.fwStage r) s ((s.dev.popHead r).finish j ⟨.done, Detail.none⟩)) ∧
      (j.stageLen ≠ 0 → Gives (.fwStage r) s (s.dev.popHead r))) ∧
    (∀ r k j l x d, r < 16 → s.dev.up = true → s.dev.flies (r, k) 0xD1 = true → s.dev.desc? (r, k) = some j →
      d = s.dev.meetEcc x → (∀ go : Dev → List Byte → Dev, d.withList j 24 j.stageLen go = go d l) →
      d.partAt (s.dev.stageBase + j.imageOff) l.length = none → Runs (.fwStageComplete r k x) s (fun e =>
        Stored (s.dev.stageBase + j.imageOff) l s.dev e ∧ e.flash = s.dev.flash)) ∧
    (∀ r j c, r < 16 → Starts s r j → j.opc = 0xD2 → j.reservedByte [(24, 0, 32)] = none → s.dev.st = .ready →
      s.dev.readErr s.dev.stageBase (min j.imageLen 16777216) = none → c = s.dev.commitCause (s.dev.package j.imageLen) j.imageLen →
      Runs (.fwCommit r) s (fun e => e.flash = s.dev.flash ∧ e.fuses = s.dev.fuses ∧
        (c ≠ 0 → (∃ d : Dev, e = (d.commitShows c 2).finish j ⟨.badField, { Detail.none with fieldByte := 24 }⟩) ∧
          e.fld Reg.SEC_COMMIT.RESULT = 2 ∧ e.fld Reg.SEC_COMMIT.CAUSE = c % 2 ^ Reg.SEC_COMMIT.CAUSE.w ∧ e.boot = s.dev.boot) ∧
        (c = 0 → e.boot = { s.dev.boot with flashJob := some (s.dev.commitJob j (s.dev.package j.imageLen)) }))) ∧
    (∀ w k, s.dev.up = true → s.dev.boot.flashJob = some w → w.desc = some k →
      Runs (.flashWriteDone true) s (fun e =>
        e = (({ s.dev with boot := { s.dev.boot with flashJob := none } } : Dev).commitDone w).finishKey k ⟨.done, Detail.none⟩ ∧
        e.flash = (s.dev.flashWrite w.addr w.data).flash ∧ e.fld Reg.SEC_COMMIT.PENDING = 1 ∧ e.fld Reg.SEC_COMMIT.RESULT = 1) ∧
      Runs (.flashWriteDone false) s (fun e =>
        e = (({ s.dev with boot := { s.dev.boot with flashJob := none } } : Dev).commitFails w).finishKey k
          ⟨.noResource, Detail.none⟩ ∧
        (w.act = none → e.flash = (s.dev.flashErase 0 1024).flash) ∧
        (∀ a, w.act = some a → e.flash = (s.dev.flashErase w.addr 4096).flash) ∧ e.fld Reg.SEC_COMMIT.RESULT = 3))

/-- R267, R269 to R273, R276, R183. A COLL that its checks refuse completes with no collective posted and marks the step failed; one
whose lists can be read and hold good entries has its buffers, and when those are memory that does not overlap it is posted and
waits for a slot behind those before it. The first collective in the queue takes the lowest free slot. A group whose list names
this device once gets its members; a list that does not is refused, and a delete leaves the entry undefined; no other entry
changes. Model's choice: the choices are log entry 29. -/
def Obligations.CollectivePosting : Prop :=
  ∀ s : State,
    (∀ r j c d, r < 16 → Starts s r j → j.opc = 0x30 → d = s.dev.popHead r →
      (c, true) ∈ [(Instr.collAllReduce r, decide (j.kind = 0)), (.collReduceScatter r, decide (j.kind = 1)),
        (.collAllGather r, decide (j.kind = 2)), (.collBroadcast r, decide (j.kind = 3)), (.collReduce r, decide (4 ≤ j.kind))] →
      (∀ e, s.dev.collCheck j = some e → Gives c s (d.refuse j e) ∧ (s.dev.st = .running → (d.refuse j e).stp.failed = true)) ∧
      (∀ send recv, s.dev.collCheck j = none → d.collList j 32 true = .inr send → d.collList j 40 false = .inr recv →
        d.listOk j true (j.num 48 4) send = true → d.listOk j false (j.num 52 4) recv = true →
        Gives c s (d.postBufs j (d.collBufs j 32 true (j.num 48 4) send) (d.collBufs j 40 false j.recvElems recv)))) ∧
    (∀ (j : Desc) (x : Coll) send recv, x = s.dev.collOf j send recv →
      x.sendRanges.all (fun q => q.2 = 0 || memRange q.1 q.2) = true → x.recvRanges.all (fun q => q.2 = 0 || memRange q.1 q.2) = true →
      (∀ q ∈ x.sendRanges, ∀ w ∈ x.recvRanges, overlaps q.1 q.2 w.1 w.2 = false) →
      s.dev.postBufs j send recv = s.dev.post x) ∧
    (∀ x : Coll, x.update = false → x.members.find? (fun i => s.dev.on (Reg.FAB_ROUTE.LOST i)) = none →
      (∀ e ∈ s.dev.car.early, leAt e.pkt.payload 0 4 ≠ x.tag) →
      (s.dev.post x).car.colls = s.dev.car.colls ++ [{ x with recs := [(x.rank, (x.count, x.cap, x.digest))] }] ∧
      (s.dev.post x).mem = s.dev.mem ∧ (s.dev.post x).cores = s.dev.cores) ∧
    (∀ i c, s.dev.up = true → s.dev.freeSlot = some i → s.dev.nextQueued = some c → Gives .collSlotAssign s (s.dev.takeSlot c i)) ∧
    (∀ r j, r < 16 → Starts s r j → j.opc = 0x31 → s.dev.groupCheck j = none →
      (j.deletes = true → Runs (.collGroupDelete r) s (fun e => e.group (j.num 24 2) = [] ∧
        (∀ g, g ≠ j.num 24 2 → e.group g = s.dev.group g) ∧ e.car.colls = s.dev.car.colls ∧ e.mem = s.dev.mem)) ∧
      (∀ l ids, j.deletes = false → (∀ go : Dev → List Byte → Dev, (s.dev.popHead r).withList j 32 (2 * j.num 28 4) go = go (s.dev.popHead r) l) →
        ids = (List.range (j.num 28 4)).map (fun i => leAt l (2 * i) 2) →
        (ids.count s.dev.selfId = 1 → s.dev.groupUsed (j.num 24 2) + ids.length ≤ 1048576 → Runs (.collGroup r) s (fun e =>
          e.group (j.num 24 2) = ids ∧ (∀ g, g ≠ j.num 24 2 → e.group g = s.dev.group g) ∧ e.mem = s.dev.mem)) ∧
        (ids.count s.dev.selfId ≠ 1 → Runs (.collGroup r) s (fun e =>
          (∀ g, e.group g = s.dev.group g) ∧ e = (s.dev.popHead r).finish j ⟨.badField, { Detail.none with fieldByte := 32 }⟩))))

/-- R276, R284 to R286, R288 to R291. An exchange packet goes to its collective and is acknowledged; an acknowledgement removes
what it answers, and what has waited 20 µs for one is sent again. Data within the granted chunks joins its transfer; a chunk whose
CRC holds is whole, and one whose CRC fails, or at which an adder shows a residue error, poisons the collective; a grant raises
the limit of its transfer, or is kept for it. A notice seen before changes nothing; one for a collective here ends it. The
watchdog ends a collective without progress with TIMEOUT; early entries leave after twice its time. Model's choice: the choices
are log entry 29. -/
def Obligations.CollectiveTraffic : Prop :=
  ∀ s : State,
    (∀ p, s.dev.takes p 3 0x20 = true → Gives (.exchangePacket p) s ((s.dev.take p).exArrive p)) ∧
    (∀ p d, s.dev.takes p 3 0x21 = true →
      d = { s.dev.take p with car := { s.dev.car with sends := s.dev.car.sends.filter (fun x => !answers p x) } } →
      (∀ c, d.collTag (leAt p.payload 0 4) = some c →
        Gives (.exchangeAck p) s (d.modColl c.key (fun c => { c with last := s.dev.clk }))) ∧
      (d.collTag (leAt p.payload 0 4) = none → Gives (.exchangeAck p) s d)) ∧
    (s.dev.live = true → s.dev.car.sends.any (fun x => x.at' + us 20 ≤ s.dev.clk) = true → Gives .exchangeResend s
      ((s.dev.car.sends.filter (fun x => x.at' + us 20 ≤ s.dev.clk)).foldl (fun d x =>
        match d.coll? x.key with
        | some _ => d.carSend x.key x.pkt
        | none => d.send x.pkt)
        ({ s.dev with car := { s.dev.car with sends := s.dev.car.sends.map (fun x =>
          if x.at' + us 20 ≤ s.dev.clk then { x with at' := s.dev.clk } else x) } } : Dev))) ∧
    (∀ p d c x, s.dev.takes p 2 0x10 = true → d = s.dev.take p → d.collLow p.tag = some c →
      c.inFrom (bits p.da 32 8) p.src = some x →
      (p.da % 2 ^ 32 = x.got → x.got + p.payload.length ≤ x.limit → Gives (.carouselData p) s
        ((d.modColl c.key (fun c => c.modIn x.round (fun x => { x with bytes := x.bytes ++ p.payload }))).progress c)) ∧
      ((p.da % 2 ^ 32 ≠ x.got ∨ x.limit < x.got + p.payload.length) → Gives (.carouselData p) s (d.progress c))) ∧
    (∀ p d c x sc, s.dev.takes p 2 0x11 = true → d = s.dev.take p → d.collTag (leAt p.payload 0 4) = some c →
      c.inFrom (leAt p.payload 4 1) p.src = some x → leAt p.payload 8 4 = x.now → leAt p.payload 8 4 < x.granted →
      sc = (if bit (leAt p.payload 5 1) 0 then p.payload.drop 16 else []) →
      (crc32c (x.nextBytes ++ sc) = leAt p.payload 12 4 → x.nextBytes ≠ [] →
        x.nextBytes.length ≤ segLeft x.chunks (leAt p.payload 8 4) →
        Gives (.chunkEnd p false) s (((d.progress c).modColl c.key (fun c => c.chunkIn x sc)).pumpColl c.key) ∧
        (c.wired (leAt p.payload 4 1) = true → Gives (.chunkEnd p true) s
          (((d.progress c).bumpSat Reg.CAR_CHECK.ADDER 1).poisonColl c (leAt p.payload 4 1) (leAt p.payload 8 4)
            ⟨.poisoned, Detail.auxed c.tag⟩))) ∧
      (crc32c (x.nextBytes ++ sc) ≠ leAt p.payload 12 4 → ∀ a, Gives (.chunkEnd p a) s
        ((d.progress c).crcFail c (leAt p.payload 4 1) (leAt p.payload 8 4)))) ∧
    (∀ p, s.dev.takes p 2 0x12 = true → (s.dev.take p).collTag (leAt p.payload 0 4) = none → Gives (.grant p) s (s.dev.take p)) ∧
    (∀ p d c, s.dev.takes p 2 0x12 = true → d = s.dev.take p → d.collTag (leAt p.payload 0 4) = some c → c.slot ≠ none →
      (c.data = true → Gives (.grant p) s (((d.progress c).modColl c.key (fun x => { x with outs := x.outs.map (fun o =>
        if o.round = leAt p.payload 4 1 && o.dst = rankIn p.src c.members then o.grant (leAt p.payload 8 4) else o) })).pumpColl c.key)) ∧
      (c.data = false → Gives (.grant p) s ((d.progress c).modColl c.key (fun x =>
        x.earlyGrant (leAt p.payload 4 1) (rankIn p.src c.members) (leAt p.payload 8 4))))) ∧
    (∀ p d, d = s.dev.take p →
      (s.dev.takes p 3 0x22 = true → d.car.seen.contains (0x22, p.payload) = true → Gives (.poisonNotice p) s d) ∧
      (s.dev.takes p 3 0x22 = true → d.car.seen.contains (0x22, p.payload) = false → Gives (.poisonNotice p) s
        (({ d.relayNotice p with stp := { (d.relayNotice p).stp with
          failed := (d.relayNotice p).stp.failed || (d.relayNotice p).st = .running } } : Dev).applyNotice p)) ∧
      (s.dev.takes p 3 0x23 = true → d.car.seen.contains (0x23, p.payload) = true → Gives (.abortNotice p) s d) ∧
      (s.dev.takes p 3 0x23 = true → d.car.seen.contains (0x23, p.payload) = false →
        Gives (.abortNotice p) s ((d.relayNotice p).applyNotice p))) ∧
    (∀ p c, s.dev.collTag (leAt p.payload 0 4) = some c → p.op = 0x22 → s.dev.applyNotice p = s.dev.finishColl c ⟨.poisoned, Detail.auxed (leAt p.payload 0 4)⟩) ∧
    (∀ r k c, r < 16 → s.dev.up = true → s.dev.coll? (r, k) = some c → c.last + s.dev.watchdog ≤ s.dev.clk → Gives (.collWatchdog r k) s
      ((s.dev.record (s.dev.timeoutRecord c)).abortColl c 0 0xFFFF ⟨.timeout, Detail.auxed c.tag⟩)) ∧
    (∀ e, s.dev.up = true → e ∈ s.dev.car.early → e.time + 2 * s.dev.watchdog ≤ s.dev.clk → Gives .earlyEntryExpire s
      { s.dev with car := { s.dev.car with early := s.dev.car.early.filter (fun e => !(e.time + 2 * s.dev.watchdog ≤ s.dev.clk)) } })

/-- R293 to R295, R298, R304, R310. Outside RUNNING a binding, its removal and a freeze take effect and complete at once; in RUNNING
they are staged and nothing else changes. A binding of a tensor takes the place of the one before, and a freeze or a thaw sets or
clears the bits of its blocks. The next ready block goes to an update core with room. At the end of its program the block is
written and handed on, and the core goes on with its next; an array that cannot be read poisons the collective instead. An error
of a core takes its block back, and takes the core out of service. Model's choice: the choices are log entry 30. -/
def Obligations.UpdateEngine : Prop :=
  ∀ s : State,
    (∀ r j h b p, r < 16 → Starts s r j → j.opc = 0x50 → s.dev.bindCheck j = none → s.dev.stageRoom = true →
      j.unbinds = false → s.dev.readErr (midwayBase + j.num 48 4) 32 = none → h = s.dev.read (midwayBase + j.num 48 4) 32 →
      updHdrOk h = true → b = j.binding h 0 → s.dev.arrayOk (j.num 33 5) (4 * b.slots * j.cp) = true →
      freezeRun (s.dev.besides j.tensor) b.blocks = some p → s.dev.allBinds.length < 4096 → s.dev.undoPlaced = true →
      undoNeed (b :: s.dev.besides j.tensor) ≤ s.dev.fld Reg.UPD_UNDO_LEN.LEN →
      (s.dev.st ≠ .running → Gives (.updBind r) s (((s.dev.popHead r).putBind { b with pos := p }).finish j ⟨.done, Detail.none⟩)) ∧
      (s.dev.st = .running → Gives (.updBind r) s ((s.dev.popHead r).stage (.bind j.key { b with pos := p })))) ∧
    (∀ r j, r < 16 → Starts s r j → j.opc = 0x50 → s.dev.bindCheck j = none → s.dev.stageRoom = true → j.unbinds = true →
      (s.dev.st ≠ .running → Gives (.updUnbind r) s (((s.dev.popHead r).unbind j.tensor).finish j ⟨.done, Detail.none⟩)) ∧
      (s.dev.st = .running → Gives (.updUnbind r) s ((s.dev.popHead r).stage (.unbind j.key j.tensor)))) ∧
    (∀ r j c b, r < 16 → Starts s r j → j.opc = 0x51 → s.dev.freezeCheck j = none → s.dev.stageRoom = true →
      (c, b) ∈ [(Instr.updFreeze r, true), (.updThaw r, false)] → j.freezes = b →
      (s.dev.st ≠ .running → Gives c s (((s.dev.popHead r).freeze j.tensor (j.num 28 4) (j.num 32 4) b).finish j ⟨.done, Detail.none⟩)) ∧
      (s.dev.st = .running → Gives c s ((s.dev.popHead r).stage (.freeze j.key j.tensor (j.num 28 4) (j.num 32 4) b)))) ∧
    (∀ (d : Dev) t f n b, d.bind? t = some b → ∀ i, f ≤ i → i < f + n → i < b.blocks →
      (d.freeze t f n true).isFrozen b i = true ∧ (d.freeze t f n false).isFrozen b i = false) ∧
    (∀ (d : Dev) b, b ∈ (d.putBind b).upd.binds ∧ ∀ q ∈ (d.putBind b).upd.binds, q.tensor = b.tensor → q = b) ∧
    (∀ k e, k < 64 → s.dev.up = true → s.dev.updRoom k = true → s.dev.nextDue = some e →
      Gives (.blockDispatch k) s (s.dev.giveBlock k e.1 e.2)) ∧
    (∀ k j c b i d, k < 64 → s.dev.up = true → Tab.get none s.dev.upd.running k = some j →
      (Tab.get VecCtx.init s.dev.vec (192 + k)).ended = true → d = s.dev.clearRun k → d.coll? j.key = some c →
      d.collBlock c j.block = some (b, i) →
      (d.rangeErr (b.ranges i) = none → Gives (.updateBlockEnd k false) s
        (((d.writeBlock c (Tab.get VecCtx.init s.dev.vec (192 + k)) b i j.block).nextBlock k).pumpColl j.key)) ∧
      (∀ e, d.rangeErr (b.ranges i) = some e → Gives (.updateBlockEnd k false) s (((d.blockErr c e).nextBlock k).pumpColl j.key))) ∧
    (∀ k j d, k < 64 → s.dev.up = true → Tab.get none s.dev.upd.running k = some j → Tab.get none s.dev.upd.next k = none →
      d = ((s.dev.bumpSat Reg.UPD_FAULTS.CORE_FAULTS 1).clearRun k).retireUpd k →
      (∀ c ∈ d.car.colls, Tab.get 0 c.faults j.block = 0) → d.updCoresUp ≠ 0 →
      Gives (.updateBlockEnd k true) s
        (({ d with upd := { d.upd with next := Tab.set none d.upd.next k none } } : Dev).blockAgain j 1)) ∧
    (∀ k j, k < 64 → s.dev.up = true → Tab.get none s.dev.upd.running k = some j →
      Gives (.updateBlockEnd k true) s (s.dev.updFault k))

/-- R192, R317, R318, R320, R322, R327, R329, R331. An MFAB that its checks refuse completes with no effect; of one that passes, LEN
0 completes DONE at once, an INVALIDATE drops its lines, a home that is lost ends it PEER_LOST, and a GET, a PUT, a reduction or
an atomic is in flight. A core request ring starts its next descriptor: a NOP completes, an MFAB runs, any other is refused. What
is not answered is sent again: packets of a GET, an atomic with TRY one higher; past its deadline an atomic is INDETERMINATE, a
write TIMEOUT, a PUT_LINE PEER_LOST with the first member missing. Every window that has stood for 2 µs follows the timer; a
sequence number is free again 20 ms after its first send. Model's choice: the choices are log entry 31. -/
def Obligations.FabricDescriptors : Prop :=
  ∀ s : State,
    (∀ r j c, r < 16 → Starts s r j → j.opc = 0x40 → s.dev.seqWaits j = false →
      (c, j.mop) ∈ [(Instr.get r, 1), (.getCached r, 2), (.put r, 3), (.putLine r, 4), (.invalidate r, 5), (.invalidateAll r, 6),
        (.aIadd r, 0x10), (.aFadd r, 0x11), (.aSwap r, 0x12), (.aCas r, 0x13), (.aUmax r, 0x14), (.aUmin r, 0x15), (.aOr r, 0x16),
        (.aAnd r, 0x17), (.rFadd r, 0x20), (.rIadd r, 0x21), (.rFmax r, 0x22), (.rFmin r, 0x23)] →
      (∀ e, s.dev.mfabCheck j = some e → Gives c s ((s.dev.popHead r).finish j e)) ∧
      (s.dev.mfabCheck j = none → Gives c s ((s.dev.popHead r).mfabGo (.desc r j.sub) j))) ∧
    (∀ (d : Dev) r k j,
      (j.mop ≠ 5 → j.mop ≠ 6 → j.len = 0 → d.mfabGo (.desc r k) j = (d.bump Reg.MFB_OPS.COUNT 1).finish j ⟨.done, Detail.none⟩) ∧
      (j.mop = 6 → d.mfabGo (.desc r k) j = (d.rlcDropAll.bump Reg.MFB_OPS.COUNT 1).finish j ⟨.done, Detail.none⟩) ∧
      (j.mop = 5 → d.mfabGo (.desc r k) j =
        ((d.rlcDropRange (j.num 26 2) j.remote j.len).bump Reg.MFB_OPS.COUNT 1).finish j ⟨.done, Detail.none⟩) ∧
      (j.mop ≠ 4 → j.mop ≠ 5 → j.mop ≠ 6 → j.len ≠ 0 → d.peerGone (j.num 26 2) = true → d.mfabGo (.desc r k) j =
        ((d.bump Reg.MFB_OPS.COUNT 1).sight (j.num 26 2) 4 0xFF).finish j ⟨.peerLost, Detail.auxed (j.num 26 2)⟩) ∧
      (j.len ≠ 0 → d.peerGone (j.num 26 2) = false →
        (j.mop = 1 → d.localErr j j.len = none →
          d.mfabGo (.desc r k) j = d.takeTag.startOp (d.opOfDesc (.desc r k) j 1 (opPkts 1 j.remote [] j.len))) ∧
        (∀ a, (j.mop = 3 ∨ mopReduce j.mop = true) → d.refDev (j.refIdx 40) = true → a = d.refAddr (j.refIdx 40) (j.refOff 40) →
          d.readErr a j.len = none → d.mfabGo (.desc r k) j = d.takeTag.startOp
            (d.opOfDesc (.desc r k) j j.mop (opPkts j.mop j.remote (d.read a j.len) j.len))) ∧
        (mopAtomic j.mop = true → d.localErr j j.len = none → d.mfabGo (.desc r k) j = d.takeSeq.startOp
          { d.opOfDesc (.desc r k) j j.mop [freshPkt j.remote j.len []] with tag := d.mfb.seq }))) ∧
    (∀ r j d, r < 16 → s.dev.coreDue r = true → j = s.dev.nextCoreDesc r → d = s.dev.popCore r →
      s.dev.firstPoison (s.dev.coreDescAt r j.sub) 64 = none →
      (∀ e, d.coreCheck j = some e → Gives (.coreRingStart r) s (d.coreRecord j e)) ∧
      (d.coreCheck j = none → j.opc = 1 → Gives (.coreRingStart r) s (d.coreRecord j ⟨.done, Detail.none⟩)) ∧
      (d.coreCheck j = none → j.opc ≠ 1 → Gives (.coreRingStart r) s (d.mfabGo (.coreRing r j.sub) j))) ∧
    (∀ k o, s.dev.up = true → s.dev.op? k = some o →
      (mopGet o.mop = true → s.dev.unanswered o ≠ [] → Gives (.getRetry k) s ((s.dev.unanswered o).foldl (fun d x => d.sendReq o x) s.dev)) ∧
      (∀ d q, mopAtomic o.mop = true → s.dev.unanswered o ≠ [] → s.dev.now < o.issued + ms 10 →
        d = s.dev.modOp k (fun o => { o with tries := o.tries + 1 }) → d.op? k = some q →
        Gives (.atomicRetry k) s ((d.unanswered q).foldl (fun d x => d.sendReq q x) d)) ∧
      (mopAtomic o.mop = true → o.pkts.any (·.sent) = true → o.issued + ms 12 ≤ s.dev.now →
        Gives (.atomicDeadline k) s (s.dev.opEnd o ⟨.indeterminate, Detail.auxed o.home⟩)) ∧
      (mopGet o.mop = false → mopAtomic o.mop = false → o.pkts.all (·.acked) = false → o.start + s.dev.respTime ≤ s.dev.clk →
        (o.mop ≠ 4 → Gives (.mfbRespTimeout k) s (s.dev.opEnd o ⟨.timeout, Detail.none⟩)) ∧
        (∀ x, o.mop = 4 → (s.dev.lineMembers o.home).find? (fun x => !o.ackedBy x) = some x →
          Gives (.mfbRespTimeout k) s (s.dev.notifyEnd o ⟨.peerLost, Detail.auxed x⟩)))) ∧
    (s.dev.up = true → s.dev.homes.any s.dev.windowDue = true →
      Gives .mfbWindowTimer s ((s.dev.homes.filter s.dev.windowDue).foldl Dev.windowTick s.dev)) ∧
    (s.dev.up = true → s.dev.seqOver s.dev.mfb.seq = true → Runs .atomicSequenceFree s (fun e =>
      e.seqFree s.dev.mfb.seq = true ∧ (∀ n, n ≠ s.dev.mfb.seq → e.seqFree n = s.dev.seqFree n) ∧
      e = { s.dev with mfb := { s.dev.mfb with seqTime := e.mfb.seqTime } }))

/-- R315, R318 to R320, R324, R327, R328, R330. A home answers a request it can serve with the data, the old value or an
acknowledgement, and any other with its status: a write that its checks refuse stores nothing. A write goes behind those it must
wait for. An atomic that the table does not hold writes its operation's result once; one that it holds is answered with the old
value again and stores nothing; one that finds the table full waits in the input. A reduction combines element by element. A
response ends its operation when every packet is answered; an atomic's late result is discarded and counted. Model's choice: the
choices are log entry 32. -/
def Obligations.HomeAgent : Prop :=
  ∀ s : State,
    (∀ p, s.dev.homeTakes p 1 = true →
      ((s.dev.take p).readStatus p = 0 → Gives (.mfbGetRequest p) s ((s.dev.take p).respond p 1 ((s.dev.take p).read p.da (reqLen p)))) ∧
      ((s.dev.take p).readStatus p ≠ 0 → Gives (.mfbGetRequest p) s
        ((((s.dev.take p).homeFault p ((s.dev.take p).readStatus p)).countStatus ((s.dev.take p).readStatus p)).respond p 4
          (leBytes 1 ((s.dev.take p).readStatus p))))) ∧
    (∀ p h c, (c, p.op) ∈ [(Instr.mfbPutPacket p h, 2), (.mfbReductionPacket p h, 4), (.mfbMirrorWrite p h, 5),
      (.mfbPutLineCopy p h, 6)] → s.dev.homeTakes p p.op = true →
      (h = false → s.dev.mfb.hot.any (writeWaits p) = false → Gives c s ((s.dev.take p).applyWrite p)) ∧
      ((h = true ∨ s.dev.mfb.hot.any (writeWaits p) = true) → Runs c s (fun e => e.mfb.hot = s.dev.mfb.hot ++ [p] ∧ e.mem = s.dev.mem ∧
        FieldsKept [Reg.MFB_THROTTLE.MAX_QUEUE] s.dev e))) ∧
    (∀ p h, s.dev.atInput p 3 = true →
      (s.dev.tableFull = false → h = false → s.dev.mfb.hot.any (writeWaits p) = false → s.dev.mfb.heldAtomics = [] →
        Gives (.mfbAtomicRequest p h) s ((s.dev.take p).applyWrite p)) ∧
      (s.dev.tableFull = true → s.dev.mfb.heldAtomics.contains p = false → Runs (.mfbAtomicRequest p h) s (fun e =>
        e.mfb.heldAtomics = s.dev.mfb.heldAtomics ++ [p] ∧ e.fab = s.dev.fab ∧ e.mem = s.dev.mem ∧
        FieldsKept [Reg.MFB_TABLE.FULL_STALLS] s.dev e))) ∧
    (∀ (d : Dev) p, (p.op = 2 ∨ p.op = 6) →
      (d.homeStatus p = 0 → d.applyWrite p = (d.store p.da p.payload).respondAck p 0 ∧ Stored p.da p.payload d (d.store p.da p.payload)) ∧
      (d.homeStatus p ≠ 0 → d.applyWrite p = d.respondAck p (d.homeStatus p))) ∧
    (∀ (d : Dev) p, p.op = 5 → (d.homeStatus p = 0 → d.applyWrite p = (d.write p.da p.payload).respondAck p 0) ∧
      (d.homeStatus p ≠ 0 → d.applyWrite p = d.respondAck p (d.homeStatus p))) ∧
    (∀ (d : Dev) p, p.op = 3 → d.homeAdmits p.src = true → reqMalformed p = false →
      ((leAt p.payload 24 8 + ms 10 ≤ d.now ∨ leAt p.payload 24 8 < d.mfb.since) →
        d.applyWrite p = (d.bumpSat Reg.MFB_ATOMICS.STALE 1).respondAtomic p 5 0 0) ∧
      (d.now < leAt p.payload 24 8 + ms 10 → d.mfb.since ≤ leAt p.payload 24 8 →
        (∀ e, d.mfb.table.find? (fun e => e.src = p.src && e.tag = p.tag) = some e →
          d.applyWrite p = (d.bumpSat Reg.MFB_ATOMICS.DUPLICATES 1).respondAtomic p 0 1 e.old) ∧
        (∀ n l, d.mfb.table.find? (fun e => e.src = p.src && e.tag = p.tag) = none → d.readStatus p = 0 → n = leAt p.payload 1 1 →
          l = leBytes n (atomicNew (leAt p.payload 0 1) n (d.readLE p.da n) (leAt p.payload 8 8) (leAt p.payload 16 8)) →
          Stored p.da l d (d.store p.da l) ∧
          d.applyWrite p = (((d.store p.da l).bump Reg.MFB_ATOMICS.APPLIED 1).tablePut
            ⟨p.src, p.tag, d.readLE p.da n, d.now⟩).respondAtomic p 0 0 (d.readLE p.da n)))) ∧
    (∀ (d : Dev) p, p.op = 4 → d.readStatus p = 0 → d.applyWrite p = (d.doReduce p).respondAck p 0 ∧
      Stored p.da ((List.range (reqLen p / 4)).map (fun i => leBytes 4
        (reduceOne (leAt p.payload 0 1) (d.readLE (p.da + 4 * i) 4) (leAt p.payload (4 + 4 * i) 4)))).flatten d (d.doReduce p)) ∧
    (∀ p, s.dev.homeTakes p 7 = true →
      (s.dev.homeAdmits p.src = true → Gives (.mfbNotify p) s (((s.dev.take p).evtAdd (leAt p.payload 0 2) 1).respondAck p 0)) ∧
      (s.dev.homeAdmits p.src = false → Gives (.mfbNotify p) s ((s.dev.take p).respondAck p 2))) ∧
    (∀ l p, l < 2 ^ 34 → s.dev.up = true → s.dev.hotNext l = some p → Gives (.hotLineWrite l) s
      (({ s.dev with mfb := { s.dev.mfb with hot := s.dev.mfb.hot.erase p } } : Dev).applyWrite p)) ∧
    (∀ e l d, s.dev.up = true → s.dev.mfb.table = e :: l → e.time + ms 10 ≤ s.dev.now →
      d = { s.dev with mfb := { s.dev.mfb with table := l } } →
      (d.mfb.heldAtomics.find? (fun p => d.homeTakes p 3) = none → Gives .resultTableEntryExpire s d) ∧
      (∀ p, d.mfb.heldAtomics.find? (fun p => d.homeTakes p 3) = some p → Gives .resultTableEntryExpire s (d.admitAtomic p false))) ∧
    (∀ p o d, d = s.dev.take p → d.opOf false p.src p.tag p.da = some o →
      (s.dev.respTakes p 1 = true → mopGet o.mop = true → Gives (.mfbGetData p) s (d.getData o p)) ∧
      (s.dev.respTakes p 2 = true → leAt p.payload 0 1 ≠ 0 → Gives (.mfbAcknowledgement p) s (d.opRefused o p.src p.da (leAt p.payload 0 1))) ∧
      (s.dev.respTakes p 2 = true → leAt p.payload 0 1 = 0 → o.mop = 4 → Gives (.mfbAcknowledgement p) s (d.lineAck o p.src p.da)) ∧
      (s.dev.respTakes p 2 = true → leAt p.payload 0 1 = 0 → o.mop ≠ 4 → Gives (.mfbAcknowledgement p) s ((d.ackPkt o p.da).checkOp o.id)) ∧
      (s.dev.respTakes p 4 = true → leAt p.payload 0 1 ≠ 0 → Gives (.mfbError p) s (d.opRefused o p.src p.da (leAt p.payload 0 1)))) ∧
    (∀ (d : Dev) k o, d.op? k = some o → o.pkts.all (·.acked) = true → o.mop ≠ 4 → o.notify = none → (∀ c n, o.origin ≠ .xfer c n) →
      d.checkOp k = (d.dropOp o.id).opEnd o ⟨.done, Detail.none⟩) ∧
    (∀ p d, d = s.dev.take p → s.dev.respTakes p 3 = true →
      (∀ o, d.opOf true p.src p.tag p.da = some o → leAt p.payload 0 1 = 0 → Gives (.mfbAtomicResult p) s (d.atomicDone o (leAt p.payload 8 8))) ∧
      (d.opOf true p.src p.tag p.da = none → Gives (.mfbAtomicResult p) s (d.bumpSat Reg.MFB_SOURCE.LATE 1)))

/-- R225, R359, R360, R362 to R369, R371. In READY a STEP_CFG enters RUNNING and opens its step; in RUNNING it waits for the
boundary. QUIESCE waits for the boundary; RESUME opens the step kept. Arrival forms the device's own record and goes through its
rounds. A record for the device's own step and attempt is kept, and the rounds go on; one ahead is kept; both and an older one are
acknowledged, any other is counted as stray. What has waited 20 µs for its acknowledgement goes again. A commit or a rollback ends
the step: with no synchronisation the boundary falls then. A missed window leads to the boundary; an edge in the window sets it.
The timed fall-back of a step without RUN or collective rolls it back with its record. A time block brings its link delay. Model's
choice: the choices are log entries 33 and 34. -/
def Obligations.StepsAndBarrier : Prop :=
  ∀ s : State,
    (∀ r j, r < 16 → Starts s r j → j.opc = 0x60 → s.dev.stepCfgCheck j = none →
      (s.dev.st = .ready → Runs (.stepCfg r) s (fun e => e.st = .running ∧ e.fld Reg.STP_STEP.STEP = j.num 24 4 ∧
        e.stp.phase = .open ∧ e.stp.failed = false ∧ e.stp.cfg = j.stepCfg ∧ e.cores = s.dev.cores)) ∧
      (s.dev.st = .running → Runs (.stepCfg r) s (fun e => e.stp.next = some j.stepCfg ∧ e.stp.cfg = s.dev.stp.cfg ∧ e.st = .running ∧
        e.mem = s.dev.mem ∧ e.cores = s.dev.cores))) ∧
    (∀ r j, r < 16 → Starts s r j → j.opc = 0xC0 → j.reservedByte [] = none → s.dev.st = .running →
      Gives (.quiesce r) s ((s.dev.popHead r).modStp (fun t => { t with quiesce := some j.key }))) ∧
    (∀ r j, r < 16 → Starts s r j → j.opc = 0xC1 → j.reservedByte [] = none → s.dev.st = .quiesced → s.dev.flt.exported = false →
      Runs (.resume r) s (fun e => e.st = .running ∧ e.stp.phase = .open ∧ e.stp.cfg = s.dev.stp.nextCfg false ∧ e.cores = s.dev.cores)) ∧
    (s.dev.arrives = true → Gives .stepArrival s (s.dev.modStp (fun t => { t with
      phase := .arrived, tArr := s.dev.now, round := 0, held := ⟨1, t.failed, s.dev.now, s.dev.now, s.dev.barRank⟩ })).barPump) ∧
    (∀ p d e, s.dev.up = true → s.dev.takes p 3 0x30 = true → d = s.dev.take p → e = barRecord p →
      (d.barAge e.step e.attempt = .own → Gives (.barrierRecord p) s ((d.barAck p).barKeep e true).barPump) ∧
      (d.barAge e.step e.attempt = .ahead → Gives (.barrierRecord p) s ((d.barAck p).barKeep e false)) ∧
      (d.barAge e.step e.attempt = .older → Gives (.barrierRecord p) s (d.barAck p)) ∧
      (d.barAge e.step e.attempt = .other → Gives (.barrierRecord p) s (d.bumpSat Reg.STP_BAR.STRAY 1))) ∧
    (∀ p, s.dev.up = true → s.dev.takes p 3 0x31 = true → Gives (.barrierAck p) s
      ((s.dev.take p).modStp (fun t => { t with sends := t.sends.filter (fun x => !x.answered p) }))) ∧
    (s.dev.st = .running → s.dev.stp.sends.any s.dev.barDue = true → Gives .barrierResend s
      ((s.dev.barLive.filter s.dev.barDue).foldl (fun d x => d.send x.pkt) (s.dev.modStp (fun t => { t with
        sends := s.dev.barLive.map (fun x => if s.dev.barDue x then { x with at' := s.dev.clk } else x) })))) ∧
    (∀ d, s.dev.st = .running → (s.dev.stp.lastEdge = 0 ∨ us 1 + s.dev.stp.lastEdge ≤ s.dev.clk + 1) →
      d = s.dev.modStp (fun t => { t with lastEdge := s.dev.clk + 1 }) →
      (s.dev.stp.cfg.syncEn = false → Gives .stepSyncEdge s d) ∧
      (s.dev.stp.cfg.syncEn = true → s.dev.stp.phase = .syncWait → s.dev.now ≤ s.dev.stp.winEnd → Gives .stepSyncEdge s
        ((d.bumpSat Reg.STP_SYNC.HIT 1).boundary s.dev.now s.dev.stp.committed)) ∧
      (s.dev.stp.cfg.syncEn = true → s.dev.stp.phase ≠ .syncWait → Gives .stepSyncEdge s
        (d.modStp (fun t => { t with edges := s.dev.now :: t.edges })))) ∧
    (s.dev.st = .running → s.dev.stp.phase = .syncWait → s.dev.stp.winEnd ≤ s.dev.now → Gives .syncWindowEnd s
      ((s.dev.bumpSat Reg.STP_SYNC.MISS 1).boundary s.dev.stp.winEnd s.dev.stp.committed)) ∧
    (s.dev.st = .running → s.dev.stp.phase = .gap → s.dev.stp.gapStart + s.dev.gapMax ≤ s.dev.now →
      Gives .stepGapEnd s (s.dev.modStp (fun t => { t with phase := .open }))) ∧
    (s.dev.st = .running → s.dev.stp.phase = .committing → s.dev.blocksIdle = true → s.dev.mirrorOut = 0 →
      Gives .stepCommitDone s (((s.dev.updCommit.bump Reg.STP_ENDS.COMMITS 1).takeSkew).stepOver true)) ∧
    (s.dev.st = .running → s.dev.stp.phase = .rolling → s.dev.upd.phase ≠ .rolling → s.dev.car.colls = [] → s.dev.stp.timed = false →
      Gives .stepRollback s s.dev.updRestore) ∧
    (s.dev.st = .running → s.dev.stp.phase = .rolling → s.dev.upd.phase = .rolling →
      Gives .stepRollbackDone s (s.dev.updRollback.stepOver false)) ∧
    (∀ (d : Dev) b, d.stp.cfg.syncEn = false →
      d.stepOver b = (d.modStp (fun t => { t with tc := d.now, committed := b })).boundary d.now b) ∧
    (s.dev.st = .running → [.gap, .open, .arrived].contains s.dev.stp.phase = true → s.dev.stp.fallback ≤ s.dev.now →
      s.dev.runs = [] → s.dev.car.colls = [] →
      Gives .timedFallback s (((s.dev.modStp (fun t => { t with timed := true, phase := .rolling })).bumpSat Reg.STP_ENDS.TIMED 1).record
        ⟨0x0B, 1, none, 0xFF, leBytes 4 s.dev.stepNo ++ leBytes 1 s.dev.barWaits ++ leBytes 1 (flag (decide (s.dev.stp.phase = .arrived))),
          leBytes 8 s.dev.stp.tArr⟩)) ∧
    (∀ k r, s.dev.run? k = some r → r.acquired = false →
      s.dev.timeoutRun k = s.dev.finishRun r ⟨.timeout, Detail.none⟩) ∧
    (∀ p b, p < 48 → s.dev.live = true → s.dev.carries p = true → ctlIs b 4 = true → Gives (.time p b) s ((s.dev.blkHeader p b).timeBlock p b)) ∧
    (∀ (d : Dev) p b, p < 48 → (d.timeBlock p b).fld (Reg.OPT_LINK_DELAY.DELAY p) = wrapInt 24 (stampUnits
      ((((d.stamp : Int) - (256 * leAt b 18 8 + leAt b 26 1)) - ((256 * leAt b 9 8 + leAt b 17 1) - (256 * leAt b 27 8 + leAt b 35 1))) / 2)))

/-- R32, R338, R340, R343 to R347, R349, R350, R353, R194. The divider changes to the target, with the ratio compensated unless the
critical action holds it, and announces it; a regulator's report lets the step up go on, and one abandoned after 500 µs keeps the
point. A reading corrects its node by a quarter of the difference and no other node. The ratio in force moves by one towards its
target and stays within four bits; the emergency hold, the slow ramp and the critical action end when their conditions do; a band
falls by one. A sample is due each 10 µs and a tick each 1 ms, which clears the sums of its millisecond. SET_CAP holds the cap for
the next sample; a SET_POLICY sets its own value and no other; CAL_REQ refits every record, in RUNNING at a gap. THERMTRIP_N halts
the device. Model's choice: the choices are log entry 36. -/
def Obligations.Tightrope : Prop :=
  ∀ s : State,
   (s.dev.inSt [.boot, .recovery, .ready, .running, .quiesced] = true →
      Runs .thermtripAssert s (fun e => e.st = .halted ∧ e.cores = s.dev.cores ∧ e.runs = s.dev.runs)) ∧
   (s.dev.live = true →
    (∀ j, s.dev.dividerTarget = some j → j ≤ 5 → Runs .dividerChange s (fun e => e.opPoint = j ∧ e.fld Reg.CLK_STATUS.CORE_DIV = min j 3 ∧
      (s.dev.fld Reg.TGT_STATUS.CRITICAL = 0 ∨ j = 5 → e.fld Reg.TGT_STATUS.OP_CHANGING = 0) ∧ e.tgt.change = none ∧ (∃ r l, e.out = .announce r :: l) ∧ e.cores = s.dev.cores ∧
      (s.dev.fld Reg.TGT_STATUS.CRITICAL = 0 → e.bubble = s.dev.ratioAfter s.dev.opPoint j) ∧
      (s.dev.fld Reg.TGT_STATUS.CRITICAL = 1 → e.bubble = s.dev.bubble))) ∧
    (∀ c, s.dev.tgt.change = some c → c.waits = true →
      Gives .regulatorReport s { s.dev with tgt := { s.dev.tgt with change := some { c with waits := false } } } ∧
      (c.up = true → c.since + us 500 ≤ s.dev.clk → Runs .stepUpAbandon s (fun e => e.opPoint = s.dev.opPoint ∧ e.tgt.change = none ∧
        e.tgt.noUp = s.dev.tgt.n + 100000 ∧
        (s.dev.fld Reg.TGT_STATUS.CRITICAL = 0 → e.fld Reg.TGT_STATUS.OP_CHANGING = 0)))) ∧
    (∀ x, x.rails.length = 16 → x.temps.length = 484 → s.dev.tgt.sampleAt + us 10 ≤ s.dev.clk →
      Gives (.tightropeSample x) s ((s.dev.modTgt (fun t => { t with sampleAt := s.dev.clk })).sample x)) ∧
    (s.dev.fld Reg.TGT_STATUS.CRITICAL = 0 → s.dev.fld Reg.TGT_STATUS.UNATTAINABLE = 0 → s.dev.fld Reg.TGT_STATUS.TARGET < 16 → s.dev.bubble < 16 →
      s.dev.bubble ≠ s.dev.fld Reg.TGT_STATUS.TARGET → s.dev.tgt.rampAt + s.dev.rampTime ≤ s.dev.clk → Runs .ratioRamp s (fun e =>
        OnlyFields [Reg.ARR_STATUS.BUBBLE] (s.dev.modTgt (fun t => { t with rampAt := s.dev.clk })) e ∧ e.bubble < 16 ∧
        (s.dev.bubble < s.dev.fld Reg.TGT_STATUS.TARGET → e.bubble = s.dev.bubble + 1) ∧
        (s.dev.fld Reg.TGT_STATUS.TARGET < s.dev.bubble → e.bubble + 1 = s.dev.bubble))) ∧
    (∀ n t, n < 484 → hasSensor n = true → n < s.dev.tgt.temps.length → Runs (.sensorRead n t) s (fun e =>
      e.tgt.temps[n]? = (s.dev.tgt.temps[n]?).map (fun x => x + (t - x) / 4) ∧
      (∀ m, m ≠ n → e.tgt.temps[m]? = s.dev.tgt.temps[m]?) ∧ e = { s.dev with tgt := { s.dev.tgt with temps := e.tgt.temps } })) ∧
    (s.dev.fld Reg.ARR_STATUS.EMERGENCY = 1 → s.dev.tgt.holdAt + 100 ≤ s.dev.tgt.n →
      (s.dev.tgt.rho ≤ 1200 → Gives .emergencyHoldEnd s (s.dev.setFld Reg.ARR_STATUS.EMERGENCY 0)) ∧
      (1200 < s.dev.tgt.rho → Gives .emergencyHoldEnd s s.dev.emergency)) ∧
    (s.dev.fld Reg.TGT_STATUS.RAMP_SLOW = 1 → 100 ≤ s.dev.tgt.rhoLow → Gives .rampSlowEnd s (s.dev.setFld Reg.TGT_STATUS.RAMP_SLOW 0)) ∧
    (s.dev.fld Reg.TGT_STATUS.CRITICAL = 1 → s.dev.opPoint = 5 → 100 ≤ s.dev.tgt.coolRun →
      Gives .criticalRelease s (s.dev.setFld Reg.TGT_STATUS.CRITICAL 0)) ∧
    (∀ u, u < 9 → 10000 ≤ Tab.get 0 s.dev.tgt.bandLow u → 0 < s.dev.bandAt u → Gives (.bandDemotion u) s
      ((s.dev.modTgt (fun t => { t with bandLow := Tab.set 0 t.bandLow u 0 })).setBand u (s.dev.bandAt u - 1))) ∧
    (s.dev.fld Reg.TGT_STATUS.TELEM_FAULT = 1 → s.dev.tgt.faultAt + 6000000 < s.dev.tgt.n → Gives .telemetryReasonTimer s (s.dev.setReason 8)) ∧
    (s.dev.fld Reg.TGT_STATUS.TELEM_FAULT = 0 → s.dev.tgt.goodAt + 6000000 ≤ s.dev.tgt.n → Gives .telemetryReasonTimer s (s.dev.clearReason 8)) ∧
    (∀ d, s.dev.tgt.tickAt + ms 1 ≤ s.dev.clk → d = (s.dev.modTgt (fun t => { t with tickAt := s.dev.clk })).powerBand →
      ((d.mayStep = false ∨ (d.stepDownWhy = none ∧ d.stepsUp = false)) → Gives .opPointTick s
        (d.modTgt (fun t => { t with bSum := 0, pSum := 0, cnt := 0 })))) ∧
    (∀ d, s.dev.tgt.tickAt + ms 1 ≤ s.dev.clk → d = (s.dev.modTgt (fun t => { t with tickAt := s.dev.clk })).powerBand → d.mayStep = true →
      (∀ w, d.stepDownWhy = some w → Gives .opPointTick s
        (((d.modTgt (fun t => { t with lastDown := w })).beginStep (d.opPoint + 1)).modTgt (fun t => { t with bSum := 0, pSum := 0, cnt := 0 }))) ∧
      (d.stepDownWhy = none → d.stepsUp = true → Gives .opPointTick s
        ((d.beginStep (d.opPoint - 1)).modTgt (fun t => { t with bSum := 0, pSum := 0, cnt := 0 })))) ∧
    (∀ r j, r < 16 → Starts s r j → j.opc = 0x70 → j.reservedByte [(24, 0, 32)] = none → 1200 ≤ j.num 24 4 → j.num 24 4 ≤ 3200 →
      s.dev.tgt.setCap = none → Gives (.setCap r) s ((s.dev.popHead r).modTgt (fun t => { t with
        capNext := some (j.num 24 4), setCap := some ⟨j.key, 0, 0, 0⟩ }))) ∧
    (∀ r j, r < 16 → Starts s r j → j.opc = 0x70 → j.reservedByte [(24, 0, 32)] = none → (j.num 24 4 < 1200 ∨ 3200 < j.num 24 4) →
      Gives (.setCap r) s ((s.dev.popHead r).finish j ⟨.badField, { Detail.none with fieldByte := 24 }⟩)) ∧
    (∀ r j, r < 16 → Starts s r j → j.opc = 0x71 → j.reservedByte [(24, 0, 16), (28, 0, 32)] = none →
      (j.num 24 2 = 1 → j.num 28 4 ≤ 1 → Runs (.setPolicyDramBand r) s (fun e => e.tgt = { s.dev.tgt with polDram := j.num 28 4 } ∧ e.mem = s.dev.mem)) ∧
      (j.num 24 2 = 2 → j.num 28 4 ≤ 5 → Runs (.setPolicyHighestPoint r) s (fun e => e.tgt = { s.dev.tgt with polHigh := j.num 28 4 } ∧ e.mem = s.dev.mem)) ∧
      (j.num 24 2 = 3 → 1 ≤ j.num 28 4 → j.num 28 4 ≤ 10000 → Runs (.setPolicyCollWatchdog r) s (fun e =>
        e.tgt = { s.dev.tgt with polWatch := j.num 28 4 } ∧ e.mem = s.dev.mem)) ∧
      (j.num 24 2 = 4 → 100 ≤ j.num 28 4 → j.num 28 4 ≤ 10000 → Runs (.setPolicyAtomicRetry r) s (fun e =>
        e.tgt = { s.dev.tgt with polRetry := j.num 28 4 } ∧ e.mem = s.dev.mem)) ∧
      (j.num 24 2 = 1 → 1 < j.num 28 4 → Gives (.setPolicyDramBand r) s
        ((s.dev.popHead r).finish j ⟨.badField, { Detail.none with fieldByte := 28 }⟩))) ∧
    (∀ r j, r < 16 → Starts s r j → j.opc = 0x90 → j.num 24 1 = 3 → j.reservedByte [(24, 0, 8)] = none →
      Gives (.calReqThermal r) s ((s.dev.popHead r).atGap j Dev.refitAll)))
end

