-- ==== Sys2Proof/Decode.lean ====
section
/-! DEFINITION. The command that a word spells by the table's bits. The table gives none of its rows any bits. -/

namespace Sys2Proof

/-- No row of the table has bits, so no word spells a command. DESIGN CHOICE (log entry 6). -/
def decodeTableWord (_nbits _w : Nat) : Option Instr := none

end Sys2Proof
end

