-- ==== Sys2Proof/Laws/Bits.lean ====
section
/-! SUPPORT. Bytes and bit fields: lengths, a number read back from its bytes, a bit after it is set. -/

namespace Sys2Proof.Machine

@[simp] theorem length_leBytes (k : Nat) : ∀ n, (leBytes k n).length = k := by
  induction k with
  | zero => intro n; rfl
  | succ k ih => intro n; simp [leBytes, ih]

@[simp] theorem length_zeros (n : Nat) : (zeros n).length = n := by simp [zeros]

@[simp] theorem length_padTo (n : Nat) (l : List Byte) : (padTo n l).length = n := by
  simp only [padTo, List.length_take, List.length_append, length_zeros]; omega

@[simp] theorem length_slice (l : List Byte) (a n : Nat) : (slice l a n).length = n := by simp [slice]

/-- The number in k little-endian bytes is the number they were made from, modulo 256^k. -/
theorem leNat_leBytes (k : Nat) : ∀ n, leNat (leBytes k n) = n % 256 ^ k := by
  induction k with
  | zero => intro n; simp [leBytes, leNat, Nat.mod_one]
  | succ k ih =>
    intro n
    simp only [leBytes, leNat, ih, BitVec.toNat_ofNat]
    rw [Nat.pow_succ' (n := k), Nat.mod_mul]

theorem leNat_lt (l : List Byte) : leNat l < 256 ^ l.length := by
  induction l with
  | nil => simp [leNat]
  | cons b r ih =>
    have hb : b.toNat < 256 := b.isLt
    simp only [leNat, List.length_cons, Nat.pow_succ]
    omega

theorem bits_lt (n lo w : Nat) : bits n lo w < 2 ^ w := Nat.mod_lt _ (Nat.two_pow_pos w)

theorem bit_eq_testBit (n i : Nat) : bit n i = n.testBit i := by
  simp only [bit, bits, Nat.testBit, Nat.pow_one, Nat.one_and_eq_mod_two]
  have : n >>> i % 2 < 2 := Nat.mod_lt _ (by omega)
  rcases h : n >>> i % 2 with _ | _ | k
  · simp
  · simp
  · omega

/-- What clearing the field at i leaves, split at the field. -/
theorem setBit_split (n i : Nat) (b : Bool) :
    setBit n i b = n % 2 ^ i + (flag b) * 2 ^ i + (n / 2 ^ (i + 1)) * 2 ^ (i + 1) := by
  have h1 : n = n % 2 ^ i + (n / 2 ^ i) * 2 ^ i := by
    have := Nat.div_add_mod n (2 ^ i); rw [Nat.mul_comm] at this; omega
  have h2 : n / 2 ^ i = (n / 2 ^ i) % 2 + 2 * (n / 2 ^ (i + 1)) := by
    rw [Nat.pow_succ, ← Nat.div_div_eq_div_mul]; omega
  have h3 : bits n i 1 = n / 2 ^ i % 2 := by simp [bits, Nat.shiftRight_eq_div_pow]
  have h4 : (if b then 1 else 0) % 2 ^ 1 = flag b := by cases b <;> rfl
  simp only [setBit, setBits, h3, h4]
  have h5 : n = n % 2 ^ i + (n / 2 ^ i % 2) * 2 ^ i + (n / 2 ^ (i + 1)) * 2 ^ (i + 1) := by
    have e : (n / 2 ^ i) * 2 ^ i = (n / 2 ^ i % 2) * 2 ^ i + (n / 2 ^ (i + 1)) * 2 ^ (i + 1) := by
      conv_lhs => rw [h2]
      rw [Nat.pow_succ]; ring
    omega
  omega

/-- A bit that was set reads so; every other bit reads as before. -/
theorem bit_setBit (n i j : Nat) (b : Bool) : bit (setBit n i b) j = if j = i then b else bit n j := by
  rw [bit_eq_testBit, bit_eq_testBit, setBit_split]
  have hi : 0 < 2 ^ i := Nat.two_pow_pos i
  have e : n % 2 ^ i + flag b * 2 ^ i + n / 2 ^ (i + 1) * 2 ^ (i + 1) =
      2 ^ i * (flag b + 2 * (n / 2 ^ (i + 1))) + n % 2 ^ i := by rw [Nat.pow_succ]; ring
  have hn : n = 2 ^ i * (n / 2 ^ i) + n % 2 ^ i := (Nat.div_add_mod n (2 ^ i)).symm
  rw [e, Nat.testBit_two_pow_mul_add _ (Nat.mod_lt _ hi)]
  split
  · rename_i hlt
    have : j ≠ i := by omega
    simp only [this, if_false]
    conv_rhs => rw [hn]
    rw [Nat.testBit_two_pow_mul_add _ (Nat.mod_lt _ hi), if_pos hlt]
  · rename_i hge
    by_cases hji : j = i
    · subst hji
      simp only [Nat.sub_self, Nat.testBit_zero, if_true]
      cases b <;> simp [flag]
    · simp only [hji, if_false]
      obtain ⟨k, hk⟩ : ∃ k, j - i = k + 1 := ⟨j - i - 1, by omega⟩
      rw [hk, Nat.testBit_succ]
      have : (flag b + 2 * (n / 2 ^ (i + 1))) / 2 = n / 2 ^ (i + 1) := by unfold flag; split <;> omega
      rw [this, show j = k + (i + 1) by omega, Nat.testBit_add]

end Sys2Proof.Machine
end

