-- ==== Sys2Proof/Laws/State.lean ====
section
/-! SUPPORT. One lemma per field and update: what each plain operation on the device leaves as it was. -/

namespace Sys2Proof.Machine

/-! ### setFld -/

@[simp] theorem Dev.setFld_st (d : Dev) (f : Field) (n : Nat) : (d.setFld f n).st = d.st := (rfl)
@[simp] theorem Dev.setFld_locked (d : Dev) (f : Field) (n : Nat) : (d.setFld f n).locked = d.locked := (rfl)
@[simp] theorem Dev.setFld_mem (d : Dev) (f : Field) (n : Nat) : (d.setFld f n).mem = d.mem := (rfl)
@[simp] theorem Dev.setFld_poison (d : Dev) (f : Field) (n : Nat) : (d.setFld f n).poison = d.poison := (rfl)
@[simp] theorem Dev.setFld_pins (d : Dev) (f : Field) (n : Nat) : (d.setFld f n).pins = d.pins := (rfl)
@[simp] theorem Dev.setFld_boot (d : Dev) (f : Field) (n : Nat) : (d.setFld f n).boot = d.boot := (rfl)
@[simp] theorem Dev.setFld_fuses (d : Dev) (f : Field) (n : Nat) : (d.setFld f n).fuses = d.fuses := (rfl)
@[simp] theorem Dev.setFld_flash (d : Dev) (f : Field) (n : Nat) : (d.setFld f n).flash = d.flash := (rfl)
@[simp] theorem Dev.setFld_evt (d : Dev) (f : Field) (n : Nat) : (d.setFld f n).evt = d.evt := (rfl)
@[simp] theorem Dev.setFld_hq (d : Dev) (f : Field) (n : Nat) : (d.setFld f n).hq = d.hq := (rfl)
@[simp] theorem Dev.setFld_flt (d : Dev) (f : Field) (n : Nat) : (d.setFld f n).flt = d.flt := (rfl)
@[simp] theorem Dev.setFld_d2d (d : Dev) (f : Field) (n : Nat) : (d.setFld f n).d2d = d.d2d := (rfl)
@[simp] theorem Dev.setFld_opt (d : Dev) (f : Field) (n : Nat) : (d.setFld f n).opt = d.opt := (rfl)
@[simp] theorem Dev.setFld_fab (d : Dev) (f : Field) (n : Nat) : (d.setFld f n).fab = d.fab := (rfl)
@[simp] theorem Dev.setFld_stp (d : Dev) (f : Field) (n : Nat) : (d.setFld f n).stp = d.stp := (rfl)
@[simp] theorem Dev.setFld_degradedSeen (d : Dev) (f : Field) (n : Nat) : (d.setFld f n).degradedSeen = d.degradedSeen := (rfl)
@[simp] theorem Dev.setFld_refRun (d : Dev) (f : Field) (n : Nat) : (d.setFld f n).refRun = d.refRun := (rfl)
@[simp] theorem Dev.setFld_pllOpen (d : Dev) (f : Field) (n : Nat) : (d.setFld f n).pllOpen = d.pllOpen := (rfl)
@[simp] theorem Dev.setFld_clock (d : Dev) (f : Field) (n : Nat) : (d.setFld f n).clock = d.clock := (rfl)
@[simp] theorem Dev.setFld_met (d : Dev) (f : Field) (n : Nat) : (d.setFld f n).met = d.met := (rfl)
@[simp] theorem Dev.setFld_fresh (d : Dev) (f : Field) (n : Nat) : (d.setFld f n).fresh = d.fresh := (rfl)
@[simp] theorem Dev.setFld_out (d : Dev) (f : Field) (n : Nat) : (d.setFld f n).out = d.out := (rfl)
@[simp] theorem Dev.setFld_bundleOut (d : Dev) (f : Field) (n : Nat) : (d.setFld f n).bundleOut = d.bundleOut := (rfl)
@[simp] theorem Dev.setFld_feedLost (d : Dev) (f : Field) (n : Nat) : (d.setFld f n).feedLost = d.feedLost := (rfl)
@[simp] theorem Dev.setFld_peerCoord (d : Dev) (f : Field) (n : Nat) : (d.setFld f n).peerCoord = d.peerCoord := (rfl)
@[simp] theorem Dev.setFld_cores (d : Dev) (f : Field) (n : Nat) : (d.setFld f n).cores = d.cores := (rfl)
@[simp] theorem Dev.setFld_runs (d : Dev) (f : Field) (n : Nat) : (d.setFld f n).runs = d.runs := (rfl)
@[simp] theorem Dev.setFld_satRows (d : Dev) (f : Field) (n : Nat) : (d.setFld f n).satRows = d.satRows := (rfl)
@[simp] theorem Dev.setFld_budgetUsed (d : Dev) (f : Field) (n : Nat) : (d.setFld f n).budgetUsed = d.budgetUsed := (rfl)
@[simp] theorem Dev.setFld_cleanPasses (d : Dev) (f : Field) (n : Nat) : (d.setFld f n).cleanPasses = d.cleanPasses := (rfl)
@[simp] theorem Dev.setFld_ratio (d : Dev) (f : Field) (n : Nat) : (d.setFld f n).ratio = d.ratio := (rfl)
@[simp] theorem Dev.setFld_vec (d : Dev) (f : Field) (n : Nat) : (d.setFld f n).vec = d.vec := (rfl)
@[simp] theorem Dev.setFld_mfb (d : Dev) (f : Field) (n : Nat) : (d.setFld f n).mfb = d.mfb := (rfl)
@[simp] theorem Dev.setFld_migs (d : Dev) (f : Field) (n : Nat) : (d.setFld f n).migs = d.migs := (rfl)
@[simp] theorem Dev.setFld_sramRows (d : Dev) (f : Field) (n : Nat) : (d.setFld f n).sramRows = d.sramRows := (rfl)
@[simp] theorem Dev.setFld_uLive (d : Dev) (f : Field) (n : Nat) : (d.setFld f n).uLive = d.uLive := (rfl)
@[simp] theorem Dev.setFld_uUnf (d : Dev) (f : Field) (n : Nat) : (d.setFld f n).uUnf = d.uUnf := (rfl)
@[simp] theorem Dev.setFld_uOvf (d : Dev) (f : Field) (n : Nat) : (d.setFld f n).uOvf = d.uOvf := (rfl)
@[simp] theorem Dev.setFld_shortSites (d : Dev) (f : Field) (n : Nat) : (d.setFld f n).shortSites = d.shortSites := (rfl)
@[simp] theorem Dev.setFld_vlt (d : Dev) (f : Field) (n : Nat) : (d.setFld f n).vlt = d.vlt := (rfl)
@[simp] theorem Dev.setFld_tgt (d : Dev) (f : Field) (n : Nat) : (d.setFld f n).tgt = d.tgt := (rfl)
@[simp] theorem Dev.setFld_lim (d : Dev) (f : Field) (n : Nat) : (d.setFld f n).lim = d.lim := (rfl)
@[simp] theorem Dev.setFld_car (d : Dev) (f : Field) (n : Nat) : (d.setFld f n).car = d.car := (rfl)
@[simp] theorem Dev.setFld_upd (d : Dev) (f : Field) (n : Nat) : (d.setFld f n).upd = d.upd := (rfl)

/-! ### setOn -/

@[simp] theorem Dev.setOn_st (d : Dev) (f : Field) (b : Bool) : (d.setOn f b).st = d.st := (rfl)
@[simp] theorem Dev.setOn_locked (d : Dev) (f : Field) (b : Bool) : (d.setOn f b).locked = d.locked := (rfl)
@[simp] theorem Dev.setOn_mem (d : Dev) (f : Field) (b : Bool) : (d.setOn f b).mem = d.mem := (rfl)
@[simp] theorem Dev.setOn_poison (d : Dev) (f : Field) (b : Bool) : (d.setOn f b).poison = d.poison := (rfl)
@[simp] theorem Dev.setOn_pins (d : Dev) (f : Field) (b : Bool) : (d.setOn f b).pins = d.pins := (rfl)
@[simp] theorem Dev.setOn_boot (d : Dev) (f : Field) (b : Bool) : (d.setOn f b).boot = d.boot := (rfl)
@[simp] theorem Dev.setOn_fuses (d : Dev) (f : Field) (b : Bool) : (d.setOn f b).fuses = d.fuses := (rfl)
@[simp] theorem Dev.setOn_flash (d : Dev) (f : Field) (b : Bool) : (d.setOn f b).flash = d.flash := (rfl)
@[simp] theorem Dev.setOn_evt (d : Dev) (f : Field) (b : Bool) : (d.setOn f b).evt = d.evt := (rfl)
@[simp] theorem Dev.setOn_hq (d : Dev) (f : Field) (b : Bool) : (d.setOn f b).hq = d.hq := (rfl)
@[simp] theorem Dev.setOn_flt (d : Dev) (f : Field) (b : Bool) : (d.setOn f b).flt = d.flt := (rfl)
@[simp] theorem Dev.setOn_d2d (d : Dev) (f : Field) (b : Bool) : (d.setOn f b).d2d = d.d2d := (rfl)
@[simp] theorem Dev.setOn_opt (d : Dev) (f : Field) (b : Bool) : (d.setOn f b).opt = d.opt := (rfl)
@[simp] theorem Dev.setOn_fab (d : Dev) (f : Field) (b : Bool) : (d.setOn f b).fab = d.fab := (rfl)
@[simp] theorem Dev.setOn_stp (d : Dev) (f : Field) (b : Bool) : (d.setOn f b).stp = d.stp := (rfl)
@[simp] theorem Dev.setOn_degradedSeen (d : Dev) (f : Field) (b : Bool) : (d.setOn f b).degradedSeen = d.degradedSeen := (rfl)
@[simp] theorem Dev.setOn_refRun (d : Dev) (f : Field) (b : Bool) : (d.setOn f b).refRun = d.refRun := (rfl)
@[simp] theorem Dev.setOn_pllOpen (d : Dev) (f : Field) (b : Bool) : (d.setOn f b).pllOpen = d.pllOpen := (rfl)
@[simp] theorem Dev.setOn_clock (d : Dev) (f : Field) (b : Bool) : (d.setOn f b).clock = d.clock := (rfl)
@[simp] theorem Dev.setOn_met (d : Dev) (f : Field) (b : Bool) : (d.setOn f b).met = d.met := (rfl)
@[simp] theorem Dev.setOn_fresh (d : Dev) (f : Field) (b : Bool) : (d.setOn f b).fresh = d.fresh := (rfl)
@[simp] theorem Dev.setOn_out (d : Dev) (f : Field) (b : Bool) : (d.setOn f b).out = d.out := (rfl)
@[simp] theorem Dev.setOn_bundleOut (d : Dev) (f : Field) (b : Bool) : (d.setOn f b).bundleOut = d.bundleOut := (rfl)
@[simp] theorem Dev.setOn_feedLost (d : Dev) (f : Field) (b : Bool) : (d.setOn f b).feedLost = d.feedLost := (rfl)
@[simp] theorem Dev.setOn_peerCoord (d : Dev) (f : Field) (b : Bool) : (d.setOn f b).peerCoord = d.peerCoord := (rfl)
@[simp] theorem Dev.setOn_cores (d : Dev) (f : Field) (b : Bool) : (d.setOn f b).cores = d.cores := (rfl)
@[simp] theorem Dev.setOn_runs (d : Dev) (f : Field) (b : Bool) : (d.setOn f b).runs = d.runs := (rfl)
@[simp] theorem Dev.setOn_satRows (d : Dev) (f : Field) (b : Bool) : (d.setOn f b).satRows = d.satRows := (rfl)
@[simp] theorem Dev.setOn_budgetUsed (d : Dev) (f : Field) (b : Bool) : (d.setOn f b).budgetUsed = d.budgetUsed := (rfl)
@[simp] theorem Dev.setOn_cleanPasses (d : Dev) (f : Field) (b : Bool) : (d.setOn f b).cleanPasses = d.cleanPasses := (rfl)
@[simp] theorem Dev.setOn_ratio (d : Dev) (f : Field) (b : Bool) : (d.setOn f b).ratio = d.ratio := (rfl)
@[simp] theorem Dev.setOn_vec (d : Dev) (f : Field) (b : Bool) : (d.setOn f b).vec = d.vec := (rfl)
@[simp] theorem Dev.setOn_mfb (d : Dev) (f : Field) (b : Bool) : (d.setOn f b).mfb = d.mfb := (rfl)
@[simp] theorem Dev.setOn_migs (d : Dev) (f : Field) (b : Bool) : (d.setOn f b).migs = d.migs := (rfl)
@[simp] theorem Dev.setOn_sramRows (d : Dev) (f : Field) (b : Bool) : (d.setOn f b).sramRows = d.sramRows := (rfl)
@[simp] theorem Dev.setOn_uLive (d : Dev) (f : Field) (b : Bool) : (d.setOn f b).uLive = d.uLive := (rfl)
@[simp] theorem Dev.setOn_uUnf (d : Dev) (f : Field) (b : Bool) : (d.setOn f b).uUnf = d.uUnf := (rfl)
@[simp] theorem Dev.setOn_uOvf (d : Dev) (f : Field) (b : Bool) : (d.setOn f b).uOvf = d.uOvf := (rfl)
@[simp] theorem Dev.setOn_shortSites (d : Dev) (f : Field) (b : Bool) : (d.setOn f b).shortSites = d.shortSites := (rfl)
@[simp] theorem Dev.setOn_vlt (d : Dev) (f : Field) (b : Bool) : (d.setOn f b).vlt = d.vlt := (rfl)
@[simp] theorem Dev.setOn_tgt (d : Dev) (f : Field) (b : Bool) : (d.setOn f b).tgt = d.tgt := (rfl)
@[simp] theorem Dev.setOn_lim (d : Dev) (f : Field) (b : Bool) : (d.setOn f b).lim = d.lim := (rfl)
@[simp] theorem Dev.setOn_car (d : Dev) (f : Field) (b : Bool) : (d.setOn f b).car = d.car := (rfl)
@[simp] theorem Dev.setOn_upd (d : Dev) (f : Field) (b : Bool) : (d.setOn f b).upd = d.upd := (rfl)

/-! ### bump -/

@[simp] theorem Dev.bump_st (d : Dev) (f : Field) (n : Nat) : (d.bump f n).st = d.st := (rfl)
@[simp] theorem Dev.bump_locked (d : Dev) (f : Field) (n : Nat) : (d.bump f n).locked = d.locked := (rfl)
@[simp] theorem Dev.bump_mem (d : Dev) (f : Field) (n : Nat) : (d.bump f n).mem = d.mem := (rfl)
@[simp] theorem Dev.bump_poison (d : Dev) (f : Field) (n : Nat) : (d.bump f n).poison = d.poison := (rfl)
@[simp] theorem Dev.bump_pins (d : Dev) (f : Field) (n : Nat) : (d.bump f n).pins = d.pins := (rfl)
@[simp] theorem Dev.bump_boot (d : Dev) (f : Field) (n : Nat) : (d.bump f n).boot = d.boot := (rfl)
@[simp] theorem Dev.bump_fuses (d : Dev) (f : Field) (n : Nat) : (d.bump f n).fuses = d.fuses := (rfl)
@[simp] theorem Dev.bump_flash (d : Dev) (f : Field) (n : Nat) : (d.bump f n).flash = d.flash := (rfl)
@[simp] theorem Dev.bump_evt (d : Dev) (f : Field) (n : Nat) : (d.bump f n).evt = d.evt := (rfl)
@[simp] theorem Dev.bump_hq (d : Dev) (f : Field) (n : Nat) : (d.bump f n).hq = d.hq := (rfl)
@[simp] theorem Dev.bump_flt (d : Dev) (f : Field) (n : Nat) : (d.bump f n).flt = d.flt := (rfl)
@[simp] theorem Dev.bump_d2d (d : Dev) (f : Field) (n : Nat) : (d.bump f n).d2d = d.d2d := (rfl)
@[simp] theorem Dev.bump_opt (d : Dev) (f : Field) (n : Nat) : (d.bump f n).opt = d.opt := (rfl)
@[simp] theorem Dev.bump_fab (d : Dev) (f : Field) (n : Nat) : (d.bump f n).fab = d.fab := (rfl)
@[simp] theorem Dev.bump_stp (d : Dev) (f : Field) (n : Nat) : (d.bump f n).stp = d.stp := (rfl)
@[simp] theorem Dev.bump_degradedSeen (d : Dev) (f : Field) (n : Nat) : (d.bump f n).degradedSeen = d.degradedSeen := (rfl)
@[simp] theorem Dev.bump_refRun (d : Dev) (f : Field) (n : Nat) : (d.bump f n).refRun = d.refRun := (rfl)
@[simp] theorem Dev.bump_pllOpen (d : Dev) (f : Field) (n : Nat) : (d.bump f n).pllOpen = d.pllOpen := (rfl)
@[simp] theorem Dev.bump_clock (d : Dev) (f : Field) (n : Nat) : (d.bump f n).clock = d.clock := (rfl)
@[simp] theorem Dev.bump_met (d : Dev) (f : Field) (n : Nat) : (d.bump f n).met = d.met := (rfl)
@[simp] theorem Dev.bump_fresh (d : Dev) (f : Field) (n : Nat) : (d.bump f n).fresh = d.fresh := (rfl)
@[simp] theorem Dev.bump_out (d : Dev) (f : Field) (n : Nat) : (d.bump f n).out = d.out := (rfl)
@[simp] theorem Dev.bump_bundleOut (d : Dev) (f : Field) (n : Nat) : (d.bump f n).bundleOut = d.bundleOut := (rfl)
@[simp] theorem Dev.bump_feedLost (d : Dev) (f : Field) (n : Nat) : (d.bump f n).feedLost = d.feedLost := (rfl)
@[simp] theorem Dev.bump_peerCoord (d : Dev) (f : Field) (n : Nat) : (d.bump f n).peerCoord = d.peerCoord := (rfl)
@[simp] theorem Dev.bump_cores (d : Dev) (f : Field) (n : Nat) : (d.bump f n).cores = d.cores := (rfl)
@[simp] theorem Dev.bump_runs (d : Dev) (f : Field) (n : Nat) : (d.bump f n).runs = d.runs := (rfl)
@[simp] theorem Dev.bump_satRows (d : Dev) (f : Field) (n : Nat) : (d.bump f n).satRows = d.satRows := (rfl)
@[simp] theorem Dev.bump_budgetUsed (d : Dev) (f : Field) (n : Nat) : (d.bump f n).budgetUsed = d.budgetUsed := (rfl)
@[simp] theorem Dev.bump_cleanPasses (d : Dev) (f : Field) (n : Nat) : (d.bump f n).cleanPasses = d.cleanPasses := (rfl)
@[simp] theorem Dev.bump_ratio (d : Dev) (f : Field) (n : Nat) : (d.bump f n).ratio = d.ratio := (rfl)
@[simp] theorem Dev.bump_vec (d : Dev) (f : Field) (n : Nat) : (d.bump f n).vec = d.vec := (rfl)
@[simp] theorem Dev.bump_mfb (d : Dev) (f : Field) (n : Nat) : (d.bump f n).mfb = d.mfb := (rfl)
@[simp] theorem Dev.bump_migs (d : Dev) (f : Field) (n : Nat) : (d.bump f n).migs = d.migs := (rfl)
@[simp] theorem Dev.bump_sramRows (d : Dev) (f : Field) (n : Nat) : (d.bump f n).sramRows = d.sramRows := (rfl)
@[simp] theorem Dev.bump_uLive (d : Dev) (f : Field) (n : Nat) : (d.bump f n).uLive = d.uLive := (rfl)
@[simp] theorem Dev.bump_uUnf (d : Dev) (f : Field) (n : Nat) : (d.bump f n).uUnf = d.uUnf := (rfl)
@[simp] theorem Dev.bump_uOvf (d : Dev) (f : Field) (n : Nat) : (d.bump f n).uOvf = d.uOvf := (rfl)
@[simp] theorem Dev.bump_shortSites (d : Dev) (f : Field) (n : Nat) : (d.bump f n).shortSites = d.shortSites := (rfl)
@[simp] theorem Dev.bump_vlt (d : Dev) (f : Field) (n : Nat) : (d.bump f n).vlt = d.vlt := (rfl)
@[simp] theorem Dev.bump_tgt (d : Dev) (f : Field) (n : Nat) : (d.bump f n).tgt = d.tgt := (rfl)
@[simp] theorem Dev.bump_lim (d : Dev) (f : Field) (n : Nat) : (d.bump f n).lim = d.lim := (rfl)
@[simp] theorem Dev.bump_car (d : Dev) (f : Field) (n : Nat) : (d.bump f n).car = d.car := (rfl)
@[simp] theorem Dev.bump_upd (d : Dev) (f : Field) (n : Nat) : (d.bump f n).upd = d.upd := (rfl)

/-! ### bumpSat -/

@[simp] theorem Dev.bumpSat_st (d : Dev) (f : Field) (n : Nat) : (d.bumpSat f n).st = d.st := (rfl)
@[simp] theorem Dev.bumpSat_locked (d : Dev) (f : Field) (n : Nat) : (d.bumpSat f n).locked = d.locked := (rfl)
@[simp] theorem Dev.bumpSat_mem (d : Dev) (f : Field) (n : Nat) : (d.bumpSat f n).mem = d.mem := (rfl)
@[simp] theorem Dev.bumpSat_poison (d : Dev) (f : Field) (n : Nat) : (d.bumpSat f n).poison = d.poison := (rfl)
@[simp] theorem Dev.bumpSat_pins (d : Dev) (f : Field) (n : Nat) : (d.bumpSat f n).pins = d.pins := (rfl)
@[simp] theorem Dev.bumpSat_boot (d : Dev) (f : Field) (n : Nat) : (d.bumpSat f n).boot = d.boot := (rfl)
@[simp] theorem Dev.bumpSat_fuses (d : Dev) (f : Field) (n : Nat) : (d.bumpSat f n).fuses = d.fuses := (rfl)
@[simp] theorem Dev.bumpSat_flash (d : Dev) (f : Field) (n : Nat) : (d.bumpSat f n).flash = d.flash := (rfl)
@[simp] theorem Dev.bumpSat_evt (d : Dev) (f : Field) (n : Nat) : (d.bumpSat f n).evt = d.evt := (rfl)
@[simp] theorem Dev.bumpSat_hq (d : Dev) (f : Field) (n : Nat) : (d.bumpSat f n).hq = d.hq := (rfl)
@[simp] theorem Dev.bumpSat_flt (d : Dev) (f : Field) (n : Nat) : (d.bumpSat f n).flt = d.flt := (rfl)
@[simp] theorem Dev.bumpSat_d2d (d : Dev) (f : Field) (n : Nat) : (d.bumpSat f n).d2d = d.d2d := (rfl)
@[simp] theorem Dev.bumpSat_opt (d : Dev) (f : Field) (n : Nat) : (d.bumpSat f n).opt = d.opt := (rfl)
@[simp] theorem Dev.bumpSat_fab (d : Dev) (f : Field) (n : Nat) : (d.bumpSat f n).fab = d.fab := (rfl)
@[simp] theorem Dev.bumpSat_stp (d : Dev) (f : Field) (n : Nat) : (d.bumpSat f n).stp = d.stp := (rfl)
@[simp] theorem Dev.bumpSat_degradedSeen (d : Dev) (f : Field) (n : Nat) : (d.bumpSat f n).degradedSeen = d.degradedSeen := (rfl)
@[simp] theorem Dev.bumpSat_refRun (d : Dev) (f : Field) (n : Nat) : (d.bumpSat f n).refRun = d.refRun := (rfl)
@[simp] theorem Dev.bumpSat_pllOpen (d : Dev) (f : Field) (n : Nat) : (d.bumpSat f n).pllOpen = d.pllOpen := (rfl)
@[simp] theorem Dev.bumpSat_clock (d : Dev) (f : Field) (n : Nat) : (d.bumpSat f n).clock = d.clock := (rfl)
@[simp] theorem Dev.bumpSat_met (d : Dev) (f : Field) (n : Nat) : (d.bumpSat f n).met = d.met := (rfl)
@[simp] theorem Dev.bumpSat_fresh (d : Dev) (f : Field) (n : Nat) : (d.bumpSat f n).fresh = d.fresh := (rfl)
@[simp] theorem Dev.bumpSat_out (d : Dev) (f : Field) (n : Nat) : (d.bumpSat f n).out = d.out := (rfl)
@[simp] theorem Dev.bumpSat_bundleOut (d : Dev) (f : Field) (n : Nat) : (d.bumpSat f n).bundleOut = d.bundleOut := (rfl)
@[simp] theorem Dev.bumpSat_feedLost (d : Dev) (f : Field) (n : Nat) : (d.bumpSat f n).feedLost = d.feedLost := (rfl)
@[simp] theorem Dev.bumpSat_peerCoord (d : Dev) (f : Field) (n : Nat) : (d.bumpSat f n).peerCoord = d.peerCoord := (rfl)
@[simp] theorem Dev.bumpSat_cores (d : Dev) (f : Field) (n : Nat) : (d.bumpSat f n).cores = d.cores := (rfl)
@[simp] theorem Dev.bumpSat_runs (d : Dev) (f : Field) (n : Nat) : (d.bumpSat f n).runs = d.runs := (rfl)
@[simp] theorem Dev.bumpSat_satRows (d : Dev) (f : Field) (n : Nat) : (d.bumpSat f n).satRows = d.satRows := (rfl)
@[simp] theorem Dev.bumpSat_budgetUsed (d : Dev) (f : Field) (n : Nat) : (d.bumpSat f n).budgetUsed = d.budgetUsed := (rfl)
@[simp] theorem Dev.bumpSat_cleanPasses (d : Dev) (f : Field) (n : Nat) : (d.bumpSat f n).cleanPasses = d.cleanPasses := (rfl)
@[simp] theorem Dev.bumpSat_ratio (d : Dev) (f : Field) (n : Nat) : (d.bumpSat f n).ratio = d.ratio := (rfl)
@[simp] theorem Dev.bumpSat_vec (d : Dev) (f : Field) (n : Nat) : (d.bumpSat f n).vec = d.vec := (rfl)
@[simp] theorem Dev.bumpSat_mfb (d : Dev) (f : Field) (n : Nat) : (d.bumpSat f n).mfb = d.mfb := (rfl)
@[simp] theorem Dev.bumpSat_migs (d : Dev) (f : Field) (n : Nat) : (d.bumpSat f n).migs = d.migs := (rfl)
@[simp] theorem Dev.bumpSat_sramRows (d : Dev) (f : Field) (n : Nat) : (d.bumpSat f n).sramRows = d.sramRows := (rfl)
@[simp] theorem Dev.bumpSat_uLive (d : Dev) (f : Field) (n : Nat) : (d.bumpSat f n).uLive = d.uLive := (rfl)
@[simp] theorem Dev.bumpSat_uUnf (d : Dev) (f : Field) (n : Nat) : (d.bumpSat f n).uUnf = d.uUnf := (rfl)
@[simp] theorem Dev.bumpSat_uOvf (d : Dev) (f : Field) (n : Nat) : (d.bumpSat f n).uOvf = d.uOvf := (rfl)
@[simp] theorem Dev.bumpSat_shortSites (d : Dev) (f : Field) (n : Nat) : (d.bumpSat f n).shortSites = d.shortSites := (rfl)
@[simp] theorem Dev.bumpSat_vlt (d : Dev) (f : Field) (n : Nat) : (d.bumpSat f n).vlt = d.vlt := (rfl)
@[simp] theorem Dev.bumpSat_tgt (d : Dev) (f : Field) (n : Nat) : (d.bumpSat f n).tgt = d.tgt := (rfl)
@[simp] theorem Dev.bumpSat_lim (d : Dev) (f : Field) (n : Nat) : (d.bumpSat f n).lim = d.lim := (rfl)
@[simp] theorem Dev.bumpSat_car (d : Dev) (f : Field) (n : Nat) : (d.bumpSat f n).car = d.car := (rfl)
@[simp] theorem Dev.bumpSat_upd (d : Dev) (f : Field) (n : Nat) : (d.bumpSat f n).upd = d.upd := (rfl)

/-! ### setFldBit -/

@[simp] theorem Dev.setFldBit_st (d : Dev) (f : Field) (i : Nat) (b : Bool) : (d.setFldBit f i b).st = d.st := (rfl)
@[simp] theorem Dev.setFldBit_locked (d : Dev) (f : Field) (i : Nat) (b : Bool) : (d.setFldBit f i b).locked = d.locked := (rfl)
@[simp] theorem Dev.setFldBit_mem (d : Dev) (f : Field) (i : Nat) (b : Bool) : (d.setFldBit f i b).mem = d.mem := (rfl)
@[simp] theorem Dev.setFldBit_poison (d : Dev) (f : Field) (i : Nat) (b : Bool) : (d.setFldBit f i b).poison = d.poison := (rfl)
@[simp] theorem Dev.setFldBit_pins (d : Dev) (f : Field) (i : Nat) (b : Bool) : (d.setFldBit f i b).pins = d.pins := (rfl)
@[simp] theorem Dev.setFldBit_boot (d : Dev) (f : Field) (i : Nat) (b : Bool) : (d.setFldBit f i b).boot = d.boot := (rfl)
@[simp] theorem Dev.setFldBit_fuses (d : Dev) (f : Field) (i : Nat) (b : Bool) : (d.setFldBit f i b).fuses = d.fuses := (rfl)
@[simp] theorem Dev.setFldBit_flash (d : Dev) (f : Field) (i : Nat) (b : Bool) : (d.setFldBit f i b).flash = d.flash := (rfl)
@[simp] theorem Dev.setFldBit_evt (d : Dev) (f : Field) (i : Nat) (b : Bool) : (d.setFldBit f i b).evt = d.evt := (rfl)
@[simp] theorem Dev.setFldBit_hq (d : Dev) (f : Field) (i : Nat) (b : Bool) : (d.setFldBit f i b).hq = d.hq := (rfl)
@[simp] theorem Dev.setFldBit_flt (d : Dev) (f : Field) (i : Nat) (b : Bool) : (d.setFldBit f i b).flt = d.flt := (rfl)
@[simp] theorem Dev.setFldBit_d2d (d : Dev) (f : Field) (i : Nat) (b : Bool) : (d.setFldBit f i b).d2d = d.d2d := (rfl)
@[simp] theorem Dev.setFldBit_opt (d : Dev) (f : Field) (i : Nat) (b : Bool) : (d.setFldBit f i b).opt = d.opt := (rfl)
@[simp] theorem Dev.setFldBit_fab (d : Dev) (f : Field) (i : Nat) (b : Bool) : (d.setFldBit f i b).fab = d.fab := (rfl)
@[simp] theorem Dev.setFldBit_stp (d : Dev) (f : Field) (i : Nat) (b : Bool) : (d.setFldBit f i b).stp = d.stp := (rfl)
@[simp] theorem Dev.setFldBit_degradedSeen (d : Dev) (f : Field) (i : Nat) (b : Bool) : (d.setFldBit f i b).degradedSeen = d.degradedSeen := (rfl)
@[simp] theorem Dev.setFldBit_refRun (d : Dev) (f : Field) (i : Nat) (b : Bool) : (d.setFldBit f i b).refRun = d.refRun := (rfl)
@[simp] theorem Dev.setFldBit_pllOpen (d : Dev) (f : Field) (i : Nat) (b : Bool) : (d.setFldBit f i b).pllOpen = d.pllOpen := (rfl)
@[simp] theorem Dev.setFldBit_clock (d : Dev) (f : Field) (i : Nat) (b : Bool) : (d.setFldBit f i b).clock = d.clock := (rfl)
@[simp] theorem Dev.setFldBit_met (d : Dev) (f : Field) (i : Nat) (b : Bool) : (d.setFldBit f i b).met = d.met := (rfl)
@[simp] theorem Dev.setFldBit_fresh (d : Dev) (f : Field) (i : Nat) (b : Bool) : (d.setFldBit f i b).fresh = d.fresh := (rfl)
@[simp] theorem Dev.setFldBit_out (d : Dev) (f : Field) (i : Nat) (b : Bool) : (d.setFldBit f i b).out = d.out := (rfl)
@[simp] theorem Dev.setFldBit_bundleOut (d : Dev) (f : Field) (i : Nat) (b : Bool) : (d.setFldBit f i b).bundleOut = d.bundleOut := (rfl)
@[simp] theorem Dev.setFldBit_feedLost (d : Dev) (f : Field) (i : Nat) (b : Bool) : (d.setFldBit f i b).feedLost = d.feedLost := (rfl)
@[simp] theorem Dev.setFldBit_peerCoord (d : Dev) (f : Field) (i : Nat) (b : Bool) : (d.setFldBit f i b).peerCoord = d.peerCoord := (rfl)
@[simp] theorem Dev.setFldBit_cores (d : Dev) (f : Field) (i : Nat) (b : Bool) : (d.setFldBit f i b).cores = d.cores := (rfl)
@[simp] theorem Dev.setFldBit_runs (d : Dev) (f : Field) (i : Nat) (b : Bool) : (d.setFldBit f i b).runs = d.runs := (rfl)
@[simp] theorem Dev.setFldBit_satRows (d : Dev) (f : Field) (i : Nat) (b : Bool) : (d.setFldBit f i b).satRows = d.satRows := (rfl)
@[simp] theorem Dev.setFldBit_budgetUsed (d : Dev) (f : Field) (i : Nat) (b : Bool) : (d.setFldBit f i b).budgetUsed = d.budgetUsed := (rfl)
@[simp] theorem Dev.setFldBit_cleanPasses (d : Dev) (f : Field) (i : Nat) (b : Bool) : (d.setFldBit f i b).cleanPasses = d.cleanPasses := (rfl)
@[simp] theorem Dev.setFldBit_ratio (d : Dev) (f : Field) (i : Nat) (b : Bool) : (d.setFldBit f i b).ratio = d.ratio := (rfl)
@[simp] theorem Dev.setFldBit_vec (d : Dev) (f : Field) (i : Nat) (b : Bool) : (d.setFldBit f i b).vec = d.vec := (rfl)
@[simp] theorem Dev.setFldBit_mfb (d : Dev) (f : Field) (i : Nat) (b : Bool) : (d.setFldBit f i b).mfb = d.mfb := (rfl)
@[simp] theorem Dev.setFldBit_migs (d : Dev) (f : Field) (i : Nat) (b : Bool) : (d.setFldBit f i b).migs = d.migs := (rfl)
@[simp] theorem Dev.setFldBit_sramRows (d : Dev) (f : Field) (i : Nat) (b : Bool) : (d.setFldBit f i b).sramRows = d.sramRows := (rfl)
@[simp] theorem Dev.setFldBit_uLive (d : Dev) (f : Field) (i : Nat) (b : Bool) : (d.setFldBit f i b).uLive = d.uLive := (rfl)
@[simp] theorem Dev.setFldBit_uUnf (d : Dev) (f : Field) (i : Nat) (b : Bool) : (d.setFldBit f i b).uUnf = d.uUnf := (rfl)
@[simp] theorem Dev.setFldBit_uOvf (d : Dev) (f : Field) (i : Nat) (b : Bool) : (d.setFldBit f i b).uOvf = d.uOvf := (rfl)
@[simp] theorem Dev.setFldBit_shortSites (d : Dev) (f : Field) (i : Nat) (b : Bool) : (d.setFldBit f i b).shortSites = d.shortSites := (rfl)
@[simp] theorem Dev.setFldBit_vlt (d : Dev) (f : Field) (i : Nat) (b : Bool) : (d.setFldBit f i b).vlt = d.vlt := (rfl)
@[simp] theorem Dev.setFldBit_tgt (d : Dev) (f : Field) (i : Nat) (b : Bool) : (d.setFldBit f i b).tgt = d.tgt := (rfl)
@[simp] theorem Dev.setFldBit_lim (d : Dev) (f : Field) (i : Nat) (b : Bool) : (d.setFldBit f i b).lim = d.lim := (rfl)
@[simp] theorem Dev.setFldBit_car (d : Dev) (f : Field) (i : Nat) (b : Bool) : (d.setFldBit f i b).car = d.car := (rfl)
@[simp] theorem Dev.setFldBit_upd (d : Dev) (f : Field) (i : Nat) (b : Bool) : (d.setFldBit f i b).upd = d.upd := (rfl)

/-! ### draw -/

@[simp] theorem Dev.draw_st (d : Dev) : d.draw.st = d.st := (rfl)
@[simp] theorem Dev.draw_locked (d : Dev) : d.draw.locked = d.locked := (rfl)
@[simp] theorem Dev.draw_regs (d : Dev) : d.draw.regs = d.regs := (rfl)
@[simp] theorem Dev.draw_mem (d : Dev) : d.draw.mem = d.mem := (rfl)
@[simp] theorem Dev.draw_poison (d : Dev) : d.draw.poison = d.poison := (rfl)
@[simp] theorem Dev.draw_pins (d : Dev) : d.draw.pins = d.pins := (rfl)
@[simp] theorem Dev.draw_boot (d : Dev) : d.draw.boot = d.boot := (rfl)
@[simp] theorem Dev.draw_fuses (d : Dev) : d.draw.fuses = d.fuses := (rfl)
@[simp] theorem Dev.draw_flash (d : Dev) : d.draw.flash = d.flash := (rfl)
@[simp] theorem Dev.draw_evt (d : Dev) : d.draw.evt = d.evt := (rfl)
@[simp] theorem Dev.draw_hq (d : Dev) : d.draw.hq = d.hq := (rfl)
@[simp] theorem Dev.draw_flt (d : Dev) : d.draw.flt = d.flt := (rfl)
@[simp] theorem Dev.draw_d2d (d : Dev) : d.draw.d2d = d.d2d := (rfl)
@[simp] theorem Dev.draw_opt (d : Dev) : d.draw.opt = d.opt := (rfl)
@[simp] theorem Dev.draw_fab (d : Dev) : d.draw.fab = d.fab := (rfl)
@[simp] theorem Dev.draw_stp (d : Dev) : d.draw.stp = d.stp := (rfl)
@[simp] theorem Dev.draw_degradedSeen (d : Dev) : d.draw.degradedSeen = d.degradedSeen := (rfl)
@[simp] theorem Dev.draw_refRun (d : Dev) : d.draw.refRun = d.refRun := (rfl)
@[simp] theorem Dev.draw_pllOpen (d : Dev) : d.draw.pllOpen = d.pllOpen := (rfl)
@[simp] theorem Dev.draw_clock (d : Dev) : d.draw.clock = d.clock := (rfl)
@[simp] theorem Dev.draw_met (d : Dev) : d.draw.met = d.met := (rfl)
@[simp] theorem Dev.draw_out (d : Dev) : d.draw.out = d.out := (rfl)
@[simp] theorem Dev.draw_bundleOut (d : Dev) : d.draw.bundleOut = d.bundleOut := (rfl)
@[simp] theorem Dev.draw_feedLost (d : Dev) : d.draw.feedLost = d.feedLost := (rfl)
@[simp] theorem Dev.draw_peerCoord (d : Dev) : d.draw.peerCoord = d.peerCoord := (rfl)
@[simp] theorem Dev.draw_cores (d : Dev) : d.draw.cores = d.cores := (rfl)
@[simp] theorem Dev.draw_runs (d : Dev) : d.draw.runs = d.runs := (rfl)
@[simp] theorem Dev.draw_satRows (d : Dev) : d.draw.satRows = d.satRows := (rfl)
@[simp] theorem Dev.draw_budgetUsed (d : Dev) : d.draw.budgetUsed = d.budgetUsed := (rfl)
@[simp] theorem Dev.draw_cleanPasses (d : Dev) : d.draw.cleanPasses = d.cleanPasses := (rfl)
@[simp] theorem Dev.draw_ratio (d : Dev) : d.draw.ratio = d.ratio := (rfl)
@[simp] theorem Dev.draw_vec (d : Dev) : d.draw.vec = d.vec := (rfl)
@[simp] theorem Dev.draw_mfb (d : Dev) : d.draw.mfb = d.mfb := (rfl)
@[simp] theorem Dev.draw_migs (d : Dev) : d.draw.migs = d.migs := (rfl)
@[simp] theorem Dev.draw_sramRows (d : Dev) : d.draw.sramRows = d.sramRows := (rfl)
@[simp] theorem Dev.draw_uLive (d : Dev) : d.draw.uLive = d.uLive := (rfl)
@[simp] theorem Dev.draw_uUnf (d : Dev) : d.draw.uUnf = d.uUnf := (rfl)
@[simp] theorem Dev.draw_uOvf (d : Dev) : d.draw.uOvf = d.uOvf := (rfl)
@[simp] theorem Dev.draw_shortSites (d : Dev) : d.draw.shortSites = d.shortSites := (rfl)
@[simp] theorem Dev.draw_vlt (d : Dev) : d.draw.vlt = d.vlt := (rfl)
@[simp] theorem Dev.draw_tgt (d : Dev) : d.draw.tgt = d.tgt := (rfl)
@[simp] theorem Dev.draw_lim (d : Dev) : d.draw.lim = d.lim := (rfl)
@[simp] theorem Dev.draw_car (d : Dev) : d.draw.car = d.car := (rfl)
@[simp] theorem Dev.draw_upd (d : Dev) : d.draw.upd = d.upd := (rfl)

/-! ### write -/

@[simp] theorem Dev.write_st (d : Dev) (a : Nat) (l : List Byte) : (d.write a l).st = d.st := (rfl)
@[simp] theorem Dev.write_locked (d : Dev) (a : Nat) (l : List Byte) : (d.write a l).locked = d.locked := (rfl)
@[simp] theorem Dev.write_regs (d : Dev) (a : Nat) (l : List Byte) : (d.write a l).regs = d.regs := (rfl)
@[simp] theorem Dev.write_pins (d : Dev) (a : Nat) (l : List Byte) : (d.write a l).pins = d.pins := (rfl)
@[simp] theorem Dev.write_boot (d : Dev) (a : Nat) (l : List Byte) : (d.write a l).boot = d.boot := (rfl)
@[simp] theorem Dev.write_fuses (d : Dev) (a : Nat) (l : List Byte) : (d.write a l).fuses = d.fuses := (rfl)
@[simp] theorem Dev.write_flash (d : Dev) (a : Nat) (l : List Byte) : (d.write a l).flash = d.flash := (rfl)
@[simp] theorem Dev.write_evt (d : Dev) (a : Nat) (l : List Byte) : (d.write a l).evt = d.evt := (rfl)
@[simp] theorem Dev.write_hq (d : Dev) (a : Nat) (l : List Byte) : (d.write a l).hq = d.hq := (rfl)
@[simp] theorem Dev.write_flt (d : Dev) (a : Nat) (l : List Byte) : (d.write a l).flt = d.flt := (rfl)
@[simp] theorem Dev.write_d2d (d : Dev) (a : Nat) (l : List Byte) : (d.write a l).d2d = d.d2d := (rfl)
@[simp] theorem Dev.write_opt (d : Dev) (a : Nat) (l : List Byte) : (d.write a l).opt = d.opt := (rfl)
@[simp] theorem Dev.write_fab (d : Dev) (a : Nat) (l : List Byte) : (d.write a l).fab = d.fab := (rfl)
@[simp] theorem Dev.write_stp (d : Dev) (a : Nat) (l : List Byte) : (d.write a l).stp = d.stp := (rfl)
@[simp] theorem Dev.write_degradedSeen (d : Dev) (a : Nat) (l : List Byte) : (d.write a l).degradedSeen = d.degradedSeen := (rfl)
@[simp] theorem Dev.write_refRun (d : Dev) (a : Nat) (l : List Byte) : (d.write a l).refRun = d.refRun := (rfl)
@[simp] theorem Dev.write_pllOpen (d : Dev) (a : Nat) (l : List Byte) : (d.write a l).pllOpen = d.pllOpen := (rfl)
@[simp] theorem Dev.write_clock (d : Dev) (a : Nat) (l : List Byte) : (d.write a l).clock = d.clock := (rfl)
@[simp] theorem Dev.write_met (d : Dev) (a : Nat) (l : List Byte) : (d.write a l).met = d.met := (rfl)
@[simp] theorem Dev.write_fresh (d : Dev) (a : Nat) (l : List Byte) : (d.write a l).fresh = d.fresh := (rfl)
@[simp] theorem Dev.write_out (d : Dev) (a : Nat) (l : List Byte) : (d.write a l).out = d.out := (rfl)
@[simp] theorem Dev.write_bundleOut (d : Dev) (a : Nat) (l : List Byte) : (d.write a l).bundleOut = d.bundleOut := (rfl)
@[simp] theorem Dev.write_feedLost (d : Dev) (a : Nat) (l : List Byte) : (d.write a l).feedLost = d.feedLost := (rfl)
@[simp] theorem Dev.write_peerCoord (d : Dev) (a : Nat) (l : List Byte) : (d.write a l).peerCoord = d.peerCoord := (rfl)
@[simp] theorem Dev.write_cores (d : Dev) (a : Nat) (l : List Byte) : (d.write a l).cores = d.cores := (rfl)
@[simp] theorem Dev.write_runs (d : Dev) (a : Nat) (l : List Byte) : (d.write a l).runs = d.runs := (rfl)
@[simp] theorem Dev.write_budgetUsed (d : Dev) (a : Nat) (l : List Byte) : (d.write a l).budgetUsed = d.budgetUsed := (rfl)
@[simp] theorem Dev.write_cleanPasses (d : Dev) (a : Nat) (l : List Byte) : (d.write a l).cleanPasses = d.cleanPasses := (rfl)
@[simp] theorem Dev.write_ratio (d : Dev) (a : Nat) (l : List Byte) : (d.write a l).ratio = d.ratio := (rfl)
@[simp] theorem Dev.write_vec (d : Dev) (a : Nat) (l : List Byte) : (d.write a l).vec = d.vec := (rfl)
@[simp] theorem Dev.write_mfb (d : Dev) (a : Nat) (l : List Byte) : (d.write a l).mfb = d.mfb := (rfl)
@[simp] theorem Dev.write_migs (d : Dev) (a : Nat) (l : List Byte) : (d.write a l).migs = d.migs := (rfl)
@[simp] theorem Dev.write_sramRows (d : Dev) (a : Nat) (l : List Byte) : (d.write a l).sramRows = d.sramRows := (rfl)
@[simp] theorem Dev.write_uLive (d : Dev) (a : Nat) (l : List Byte) : (d.write a l).uLive = d.uLive := (rfl)
@[simp] theorem Dev.write_uUnf (d : Dev) (a : Nat) (l : List Byte) : (d.write a l).uUnf = d.uUnf := (rfl)
@[simp] theorem Dev.write_uOvf (d : Dev) (a : Nat) (l : List Byte) : (d.write a l).uOvf = d.uOvf := (rfl)
@[simp] theorem Dev.write_shortSites (d : Dev) (a : Nat) (l : List Byte) : (d.write a l).shortSites = d.shortSites := (rfl)
@[simp] theorem Dev.write_vlt (d : Dev) (a : Nat) (l : List Byte) : (d.write a l).vlt = d.vlt := (rfl)
@[simp] theorem Dev.write_tgt (d : Dev) (a : Nat) (l : List Byte) : (d.write a l).tgt = d.tgt := (rfl)
@[simp] theorem Dev.write_lim (d : Dev) (a : Nat) (l : List Byte) : (d.write a l).lim = d.lim := (rfl)
@[simp] theorem Dev.write_car (d : Dev) (a : Nat) (l : List Byte) : (d.write a l).car = d.car := (rfl)
@[simp] theorem Dev.write_upd (d : Dev) (a : Nat) (l : List Byte) : (d.write a l).upd = d.upd := (rfl)

/-! ### zero -/

@[simp] theorem Dev.zero_st (d : Dev) (a n : Nat) : (d.zero a n).st = d.st := (rfl)
@[simp] theorem Dev.zero_locked (d : Dev) (a n : Nat) : (d.zero a n).locked = d.locked := (rfl)
@[simp] theorem Dev.zero_regs (d : Dev) (a n : Nat) : (d.zero a n).regs = d.regs := (rfl)
@[simp] theorem Dev.zero_pins (d : Dev) (a n : Nat) : (d.zero a n).pins = d.pins := (rfl)
@[simp] theorem Dev.zero_boot (d : Dev) (a n : Nat) : (d.zero a n).boot = d.boot := (rfl)
@[simp] theorem Dev.zero_fuses (d : Dev) (a n : Nat) : (d.zero a n).fuses = d.fuses := (rfl)
@[simp] theorem Dev.zero_flash (d : Dev) (a n : Nat) : (d.zero a n).flash = d.flash := (rfl)
@[simp] theorem Dev.zero_evt (d : Dev) (a n : Nat) : (d.zero a n).evt = d.evt := (rfl)
@[simp] theorem Dev.zero_hq (d : Dev) (a n : Nat) : (d.zero a n).hq = d.hq := (rfl)
@[simp] theorem Dev.zero_flt (d : Dev) (a n : Nat) : (d.zero a n).flt = d.flt := (rfl)
@[simp] theorem Dev.zero_d2d (d : Dev) (a n : Nat) : (d.zero a n).d2d = d.d2d := (rfl)
@[simp] theorem Dev.zero_opt (d : Dev) (a n : Nat) : (d.zero a n).opt = d.opt := (rfl)
@[simp] theorem Dev.zero_fab (d : Dev) (a n : Nat) : (d.zero a n).fab = d.fab := (rfl)
@[simp] theorem Dev.zero_stp (d : Dev) (a n : Nat) : (d.zero a n).stp = d.stp := (rfl)
@[simp] theorem Dev.zero_degradedSeen (d : Dev) (a n : Nat) : (d.zero a n).degradedSeen = d.degradedSeen := (rfl)
@[simp] theorem Dev.zero_refRun (d : Dev) (a n : Nat) : (d.zero a n).refRun = d.refRun := (rfl)
@[simp] theorem Dev.zero_pllOpen (d : Dev) (a n : Nat) : (d.zero a n).pllOpen = d.pllOpen := (rfl)
@[simp] theorem Dev.zero_clock (d : Dev) (a n : Nat) : (d.zero a n).clock = d.clock := (rfl)
@[simp] theorem Dev.zero_met (d : Dev) (a n : Nat) : (d.zero a n).met = d.met := (rfl)
@[simp] theorem Dev.zero_fresh (d : Dev) (a n : Nat) : (d.zero a n).fresh = d.fresh := (rfl)
@[simp] theorem Dev.zero_out (d : Dev) (a n : Nat) : (d.zero a n).out = d.out := (rfl)
@[simp] theorem Dev.zero_bundleOut (d : Dev) (a n : Nat) : (d.zero a n).bundleOut = d.bundleOut := (rfl)
@[simp] theorem Dev.zero_feedLost (d : Dev) (a n : Nat) : (d.zero a n).feedLost = d.feedLost := (rfl)
@[simp] theorem Dev.zero_peerCoord (d : Dev) (a n : Nat) : (d.zero a n).peerCoord = d.peerCoord := (rfl)
@[simp] theorem Dev.zero_cores (d : Dev) (a n : Nat) : (d.zero a n).cores = d.cores := (rfl)
@[simp] theorem Dev.zero_runs (d : Dev) (a n : Nat) : (d.zero a n).runs = d.runs := (rfl)
@[simp] theorem Dev.zero_budgetUsed (d : Dev) (a n : Nat) : (d.zero a n).budgetUsed = d.budgetUsed := (rfl)
@[simp] theorem Dev.zero_cleanPasses (d : Dev) (a n : Nat) : (d.zero a n).cleanPasses = d.cleanPasses := (rfl)
@[simp] theorem Dev.zero_ratio (d : Dev) (a n : Nat) : (d.zero a n).ratio = d.ratio := (rfl)
@[simp] theorem Dev.zero_vec (d : Dev) (a n : Nat) : (d.zero a n).vec = d.vec := (rfl)
@[simp] theorem Dev.zero_mfb (d : Dev) (a n : Nat) : (d.zero a n).mfb = d.mfb := (rfl)
@[simp] theorem Dev.zero_migs (d : Dev) (a n : Nat) : (d.zero a n).migs = d.migs := (rfl)
@[simp] theorem Dev.zero_sramRows (d : Dev) (a n : Nat) : (d.zero a n).sramRows = d.sramRows := (rfl)
@[simp] theorem Dev.zero_uLive (d : Dev) (a n : Nat) : (d.zero a n).uLive = d.uLive := (rfl)
@[simp] theorem Dev.zero_uUnf (d : Dev) (a n : Nat) : (d.zero a n).uUnf = d.uUnf := (rfl)
@[simp] theorem Dev.zero_uOvf (d : Dev) (a n : Nat) : (d.zero a n).uOvf = d.uOvf := (rfl)
@[simp] theorem Dev.zero_shortSites (d : Dev) (a n : Nat) : (d.zero a n).shortSites = d.shortSites := (rfl)
@[simp] theorem Dev.zero_vlt (d : Dev) (a n : Nat) : (d.zero a n).vlt = d.vlt := (rfl)
@[simp] theorem Dev.zero_tgt (d : Dev) (a n : Nat) : (d.zero a n).tgt = d.tgt := (rfl)
@[simp] theorem Dev.zero_lim (d : Dev) (a n : Nat) : (d.zero a n).lim = d.lim := (rfl)
@[simp] theorem Dev.zero_car (d : Dev) (a n : Nat) : (d.zero a n).car = d.car := (rfl)
@[simp] theorem Dev.zero_upd (d : Dev) (a n : Nat) : (d.zero a n).upd = d.upd := (rfl)

/-! ### copy -/

@[simp] theorem Dev.copy_st (d : Dev) (a b n : Nat) : (d.copy a b n).st = d.st := (rfl)
@[simp] theorem Dev.copy_locked (d : Dev) (a b n : Nat) : (d.copy a b n).locked = d.locked := (rfl)
@[simp] theorem Dev.copy_regs (d : Dev) (a b n : Nat) : (d.copy a b n).regs = d.regs := (rfl)
@[simp] theorem Dev.copy_pins (d : Dev) (a b n : Nat) : (d.copy a b n).pins = d.pins := (rfl)
@[simp] theorem Dev.copy_boot (d : Dev) (a b n : Nat) : (d.copy a b n).boot = d.boot := (rfl)
@[simp] theorem Dev.copy_fuses (d : Dev) (a b n : Nat) : (d.copy a b n).fuses = d.fuses := (rfl)
@[simp] theorem Dev.copy_flash (d : Dev) (a b n : Nat) : (d.copy a b n).flash = d.flash := (rfl)
@[simp] theorem Dev.copy_evt (d : Dev) (a b n : Nat) : (d.copy a b n).evt = d.evt := (rfl)
@[simp] theorem Dev.copy_hq (d : Dev) (a b n : Nat) : (d.copy a b n).hq = d.hq := (rfl)
@[simp] theorem Dev.copy_flt (d : Dev) (a b n : Nat) : (d.copy a b n).flt = d.flt := (rfl)
@[simp] theorem Dev.copy_d2d (d : Dev) (a b n : Nat) : (d.copy a b n).d2d = d.d2d := (rfl)
@[simp] theorem Dev.copy_opt (d : Dev) (a b n : Nat) : (d.copy a b n).opt = d.opt := (rfl)
@[simp] theorem Dev.copy_fab (d : Dev) (a b n : Nat) : (d.copy a b n).fab = d.fab := (rfl)
@[simp] theorem Dev.copy_stp (d : Dev) (a b n : Nat) : (d.copy a b n).stp = d.stp := (rfl)
@[simp] theorem Dev.copy_degradedSeen (d : Dev) (a b n : Nat) : (d.copy a b n).degradedSeen = d.degradedSeen := (rfl)
@[simp] theorem Dev.copy_refRun (d : Dev) (a b n : Nat) : (d.copy a b n).refRun = d.refRun := (rfl)
@[simp] theorem Dev.copy_pllOpen (d : Dev) (a b n : Nat) : (d.copy a b n).pllOpen = d.pllOpen := (rfl)
@[simp] theorem Dev.copy_clock (d : Dev) (a b n : Nat) : (d.copy a b n).clock = d.clock := (rfl)
@[simp] theorem Dev.copy_met (d : Dev) (a b n : Nat) : (d.copy a b n).met = d.met := (rfl)
@[simp] theorem Dev.copy_fresh (d : Dev) (a b n : Nat) : (d.copy a b n).fresh = d.fresh := (rfl)
@[simp] theorem Dev.copy_out (d : Dev) (a b n : Nat) : (d.copy a b n).out = d.out := (rfl)
@[simp] theorem Dev.copy_bundleOut (d : Dev) (a b n : Nat) : (d.copy a b n).bundleOut = d.bundleOut := (rfl)
@[simp] theorem Dev.copy_feedLost (d : Dev) (a b n : Nat) : (d.copy a b n).feedLost = d.feedLost := (rfl)
@[simp] theorem Dev.copy_peerCoord (d : Dev) (a b n : Nat) : (d.copy a b n).peerCoord = d.peerCoord := (rfl)
@[simp] theorem Dev.copy_cores (d : Dev) (a b n : Nat) : (d.copy a b n).cores = d.cores := (rfl)
@[simp] theorem Dev.copy_runs (d : Dev) (a b n : Nat) : (d.copy a b n).runs = d.runs := (rfl)
@[simp] theorem Dev.copy_budgetUsed (d : Dev) (a b n : Nat) : (d.copy a b n).budgetUsed = d.budgetUsed := (rfl)
@[simp] theorem Dev.copy_cleanPasses (d : Dev) (a b n : Nat) : (d.copy a b n).cleanPasses = d.cleanPasses := (rfl)
@[simp] theorem Dev.copy_ratio (d : Dev) (a b n : Nat) : (d.copy a b n).ratio = d.ratio := (rfl)
@[simp] theorem Dev.copy_vec (d : Dev) (a b n : Nat) : (d.copy a b n).vec = d.vec := (rfl)
@[simp] theorem Dev.copy_mfb (d : Dev) (a b n : Nat) : (d.copy a b n).mfb = d.mfb := (rfl)
@[simp] theorem Dev.copy_migs (d : Dev) (a b n : Nat) : (d.copy a b n).migs = d.migs := (rfl)
@[simp] theorem Dev.copy_sramRows (d : Dev) (a b n : Nat) : (d.copy a b n).sramRows = d.sramRows := (rfl)
@[simp] theorem Dev.copy_uLive (d : Dev) (a b n : Nat) : (d.copy a b n).uLive = d.uLive := (rfl)
@[simp] theorem Dev.copy_uUnf (d : Dev) (a b n : Nat) : (d.copy a b n).uUnf = d.uUnf := (rfl)
@[simp] theorem Dev.copy_uOvf (d : Dev) (a b n : Nat) : (d.copy a b n).uOvf = d.uOvf := (rfl)
@[simp] theorem Dev.copy_shortSites (d : Dev) (a b n : Nat) : (d.copy a b n).shortSites = d.shortSites := (rfl)
@[simp] theorem Dev.copy_vlt (d : Dev) (a b n : Nat) : (d.copy a b n).vlt = d.vlt := (rfl)
@[simp] theorem Dev.copy_tgt (d : Dev) (a b n : Nat) : (d.copy a b n).tgt = d.tgt := (rfl)
@[simp] theorem Dev.copy_lim (d : Dev) (a b n : Nat) : (d.copy a b n).lim = d.lim := (rfl)
@[simp] theorem Dev.copy_car (d : Dev) (a b n : Nat) : (d.copy a b n).car = d.car := (rfl)
@[simp] theorem Dev.copy_upd (d : Dev) (a b n : Nat) : (d.copy a b n).upd = d.upd := (rfl)

/-! ### setPoison -/

@[simp] theorem Dev.setPoison_st (d : Dev) (a : Nat) : (d.setPoison a).st = d.st := (rfl)
@[simp] theorem Dev.setPoison_locked (d : Dev) (a : Nat) : (d.setPoison a).locked = d.locked := (rfl)
@[simp] theorem Dev.setPoison_regs (d : Dev) (a : Nat) : (d.setPoison a).regs = d.regs := (rfl)
@[simp] theorem Dev.setPoison_mem (d : Dev) (a : Nat) : (d.setPoison a).mem = d.mem := (rfl)
@[simp] theorem Dev.setPoison_pins (d : Dev) (a : Nat) : (d.setPoison a).pins = d.pins := (rfl)
@[simp] theorem Dev.setPoison_boot (d : Dev) (a : Nat) : (d.setPoison a).boot = d.boot := (rfl)
@[simp] theorem Dev.setPoison_fuses (d : Dev) (a : Nat) : (d.setPoison a).fuses = d.fuses := (rfl)
@[simp] theorem Dev.setPoison_flash (d : Dev) (a : Nat) : (d.setPoison a).flash = d.flash := (rfl)
@[simp] theorem Dev.setPoison_evt (d : Dev) (a : Nat) : (d.setPoison a).evt = d.evt := (rfl)
@[simp] theorem Dev.setPoison_hq (d : Dev) (a : Nat) : (d.setPoison a).hq = d.hq := (rfl)
@[simp] theorem Dev.setPoison_flt (d : Dev) (a : Nat) : (d.setPoison a).flt = d.flt := (rfl)
@[simp] theorem Dev.setPoison_d2d (d : Dev) (a : Nat) : (d.setPoison a).d2d = d.d2d := (rfl)
@[simp] theorem Dev.setPoison_opt (d : Dev) (a : Nat) : (d.setPoison a).opt = d.opt := (rfl)
@[simp] theorem Dev.setPoison_fab (d : Dev) (a : Nat) : (d.setPoison a).fab = d.fab := (rfl)
@[simp] theorem Dev.setPoison_stp (d : Dev) (a : Nat) : (d.setPoison a).stp = d.stp := (rfl)
@[simp] theorem Dev.setPoison_degradedSeen (d : Dev) (a : Nat) : (d.setPoison a).degradedSeen = d.degradedSeen := (rfl)
@[simp] theorem Dev.setPoison_refRun (d : Dev) (a : Nat) : (d.setPoison a).refRun = d.refRun := (rfl)
@[simp] theorem Dev.setPoison_pllOpen (d : Dev) (a : Nat) : (d.setPoison a).pllOpen = d.pllOpen := (rfl)
@[simp] theorem Dev.setPoison_clock (d : Dev) (a : Nat) : (d.setPoison a).clock = d.clock := (rfl)
@[simp] theorem Dev.setPoison_met (d : Dev) (a : Nat) : (d.setPoison a).met = d.met := (rfl)
@[simp] theorem Dev.setPoison_fresh (d : Dev) (a : Nat) : (d.setPoison a).fresh = d.fresh := (rfl)
@[simp] theorem Dev.setPoison_out (d : Dev) (a : Nat) : (d.setPoison a).out = d.out := (rfl)
@[simp] theorem Dev.setPoison_bundleOut (d : Dev) (a : Nat) : (d.setPoison a).bundleOut = d.bundleOut := (rfl)
@[simp] theorem Dev.setPoison_feedLost (d : Dev) (a : Nat) : (d.setPoison a).feedLost = d.feedLost := (rfl)
@[simp] theorem Dev.setPoison_peerCoord (d : Dev) (a : Nat) : (d.setPoison a).peerCoord = d.peerCoord := (rfl)
@[simp] theorem Dev.setPoison_cores (d : Dev) (a : Nat) : (d.setPoison a).cores = d.cores := (rfl)
@[simp] theorem Dev.setPoison_runs (d : Dev) (a : Nat) : (d.setPoison a).runs = d.runs := (rfl)
@[simp] theorem Dev.setPoison_satRows (d : Dev) (a : Nat) : (d.setPoison a).satRows = d.satRows := (rfl)
@[simp] theorem Dev.setPoison_budgetUsed (d : Dev) (a : Nat) : (d.setPoison a).budgetUsed = d.budgetUsed := (rfl)
@[simp] theorem Dev.setPoison_cleanPasses (d : Dev) (a : Nat) : (d.setPoison a).cleanPasses = d.cleanPasses := (rfl)
@[simp] theorem Dev.setPoison_ratio (d : Dev) (a : Nat) : (d.setPoison a).ratio = d.ratio := (rfl)
@[simp] theorem Dev.setPoison_vec (d : Dev) (a : Nat) : (d.setPoison a).vec = d.vec := (rfl)
@[simp] theorem Dev.setPoison_mfb (d : Dev) (a : Nat) : (d.setPoison a).mfb = d.mfb := (rfl)
@[simp] theorem Dev.setPoison_migs (d : Dev) (a : Nat) : (d.setPoison a).migs = d.migs := (rfl)
@[simp] theorem Dev.setPoison_sramRows (d : Dev) (a : Nat) : (d.setPoison a).sramRows = d.sramRows := (rfl)
@[simp] theorem Dev.setPoison_uLive (d : Dev) (a : Nat) : (d.setPoison a).uLive = d.uLive := (rfl)
@[simp] theorem Dev.setPoison_uUnf (d : Dev) (a : Nat) : (d.setPoison a).uUnf = d.uUnf := (rfl)
@[simp] theorem Dev.setPoison_uOvf (d : Dev) (a : Nat) : (d.setPoison a).uOvf = d.uOvf := (rfl)
@[simp] theorem Dev.setPoison_shortSites (d : Dev) (a : Nat) : (d.setPoison a).shortSites = d.shortSites := (rfl)
@[simp] theorem Dev.setPoison_vlt (d : Dev) (a : Nat) : (d.setPoison a).vlt = d.vlt := (rfl)
@[simp] theorem Dev.setPoison_tgt (d : Dev) (a : Nat) : (d.setPoison a).tgt = d.tgt := (rfl)
@[simp] theorem Dev.setPoison_lim (d : Dev) (a : Nat) : (d.setPoison a).lim = d.lim := (rfl)
@[simp] theorem Dev.setPoison_car (d : Dev) (a : Nat) : (d.setPoison a).car = d.car := (rfl)
@[simp] theorem Dev.setPoison_upd (d : Dev) (a : Nat) : (d.setPoison a).upd = d.upd := (rfl)

/-! ### hostWrite -/

@[simp] theorem Dev.hostWrite_st (d : Dev) (a : Nat) (l : List Byte) : (d.hostWrite a l).st = d.st := (rfl)
@[simp] theorem Dev.hostWrite_locked (d : Dev) (a : Nat) (l : List Byte) : (d.hostWrite a l).locked = d.locked := (rfl)
@[simp] theorem Dev.hostWrite_regs (d : Dev) (a : Nat) (l : List Byte) : (d.hostWrite a l).regs = d.regs := (rfl)
@[simp] theorem Dev.hostWrite_mem (d : Dev) (a : Nat) (l : List Byte) : (d.hostWrite a l).mem = d.mem := (rfl)
@[simp] theorem Dev.hostWrite_poison (d : Dev) (a : Nat) (l : List Byte) : (d.hostWrite a l).poison = d.poison := (rfl)
@[simp] theorem Dev.hostWrite_pins (d : Dev) (a : Nat) (l : List Byte) : (d.hostWrite a l).pins = d.pins := (rfl)
@[simp] theorem Dev.hostWrite_boot (d : Dev) (a : Nat) (l : List Byte) : (d.hostWrite a l).boot = d.boot := (rfl)
@[simp] theorem Dev.hostWrite_fuses (d : Dev) (a : Nat) (l : List Byte) : (d.hostWrite a l).fuses = d.fuses := (rfl)
@[simp] theorem Dev.hostWrite_flash (d : Dev) (a : Nat) (l : List Byte) : (d.hostWrite a l).flash = d.flash := (rfl)
@[simp] theorem Dev.hostWrite_evt (d : Dev) (a : Nat) (l : List Byte) : (d.hostWrite a l).evt = d.evt := (rfl)
@[simp] theorem Dev.hostWrite_flt (d : Dev) (a : Nat) (l : List Byte) : (d.hostWrite a l).flt = d.flt := (rfl)
@[simp] theorem Dev.hostWrite_d2d (d : Dev) (a : Nat) (l : List Byte) : (d.hostWrite a l).d2d = d.d2d := (rfl)
@[simp] theorem Dev.hostWrite_opt (d : Dev) (a : Nat) (l : List Byte) : (d.hostWrite a l).opt = d.opt := (rfl)
@[simp] theorem Dev.hostWrite_fab (d : Dev) (a : Nat) (l : List Byte) : (d.hostWrite a l).fab = d.fab := (rfl)
@[simp] theorem Dev.hostWrite_stp (d : Dev) (a : Nat) (l : List Byte) : (d.hostWrite a l).stp = d.stp := (rfl)
@[simp] theorem Dev.hostWrite_degradedSeen (d : Dev) (a : Nat) (l : List Byte) : (d.hostWrite a l).degradedSeen = d.degradedSeen := (rfl)
@[simp] theorem Dev.hostWrite_refRun (d : Dev) (a : Nat) (l : List Byte) : (d.hostWrite a l).refRun = d.refRun := (rfl)
@[simp] theorem Dev.hostWrite_pllOpen (d : Dev) (a : Nat) (l : List Byte) : (d.hostWrite a l).pllOpen = d.pllOpen := (rfl)
@[simp] theorem Dev.hostWrite_clock (d : Dev) (a : Nat) (l : List Byte) : (d.hostWrite a l).clock = d.clock := (rfl)
@[simp] theorem Dev.hostWrite_met (d : Dev) (a : Nat) (l : List Byte) : (d.hostWrite a l).met = d.met := (rfl)
@[simp] theorem Dev.hostWrite_fresh (d : Dev) (a : Nat) (l : List Byte) : (d.hostWrite a l).fresh = d.fresh := (rfl)
@[simp] theorem Dev.hostWrite_out (d : Dev) (a : Nat) (l : List Byte) : (d.hostWrite a l).out = d.out := (rfl)
@[simp] theorem Dev.hostWrite_bundleOut (d : Dev) (a : Nat) (l : List Byte) : (d.hostWrite a l).bundleOut = d.bundleOut := (rfl)
@[simp] theorem Dev.hostWrite_feedLost (d : Dev) (a : Nat) (l : List Byte) : (d.hostWrite a l).feedLost = d.feedLost := (rfl)
@[simp] theorem Dev.hostWrite_peerCoord (d : Dev) (a : Nat) (l : List Byte) : (d.hostWrite a l).peerCoord = d.peerCoord := (rfl)
@[simp] theorem Dev.hostWrite_cores (d : Dev) (a : Nat) (l : List Byte) : (d.hostWrite a l).cores = d.cores := (rfl)
@[simp] theorem Dev.hostWrite_runs (d : Dev) (a : Nat) (l : List Byte) : (d.hostWrite a l).runs = d.runs := (rfl)
@[simp] theorem Dev.hostWrite_satRows (d : Dev) (a : Nat) (l : List Byte) : (d.hostWrite a l).satRows = d.satRows := (rfl)
@[simp] theorem Dev.hostWrite_budgetUsed (d : Dev) (a : Nat) (l : List Byte) : (d.hostWrite a l).budgetUsed = d.budgetUsed := (rfl)
@[simp] theorem Dev.hostWrite_cleanPasses (d : Dev) (a : Nat) (l : List Byte) : (d.hostWrite a l).cleanPasses = d.cleanPasses := (rfl)
@[simp] theorem Dev.hostWrite_ratio (d : Dev) (a : Nat) (l : List Byte) : (d.hostWrite a l).ratio = d.ratio := (rfl)
@[simp] theorem Dev.hostWrite_vec (d : Dev) (a : Nat) (l : List Byte) : (d.hostWrite a l).vec = d.vec := (rfl)
@[simp] theorem Dev.hostWrite_mfb (d : Dev) (a : Nat) (l : List Byte) : (d.hostWrite a l).mfb = d.mfb := (rfl)
@[simp] theorem Dev.hostWrite_migs (d : Dev) (a : Nat) (l : List Byte) : (d.hostWrite a l).migs = d.migs := (rfl)
@[simp] theorem Dev.hostWrite_sramRows (d : Dev) (a : Nat) (l : List Byte) : (d.hostWrite a l).sramRows = d.sramRows := (rfl)
@[simp] theorem Dev.hostWrite_uLive (d : Dev) (a : Nat) (l : List Byte) : (d.hostWrite a l).uLive = d.uLive := (rfl)
@[simp] theorem Dev.hostWrite_uUnf (d : Dev) (a : Nat) (l : List Byte) : (d.hostWrite a l).uUnf = d.uUnf := (rfl)
@[simp] theorem Dev.hostWrite_uOvf (d : Dev) (a : Nat) (l : List Byte) : (d.hostWrite a l).uOvf = d.uOvf := (rfl)
@[simp] theorem Dev.hostWrite_shortSites (d : Dev) (a : Nat) (l : List Byte) : (d.hostWrite a l).shortSites = d.shortSites := (rfl)
@[simp] theorem Dev.hostWrite_vlt (d : Dev) (a : Nat) (l : List Byte) : (d.hostWrite a l).vlt = d.vlt := (rfl)
@[simp] theorem Dev.hostWrite_tgt (d : Dev) (a : Nat) (l : List Byte) : (d.hostWrite a l).tgt = d.tgt := (rfl)
@[simp] theorem Dev.hostWrite_lim (d : Dev) (a : Nat) (l : List Byte) : (d.hostWrite a l).lim = d.lim := (rfl)
@[simp] theorem Dev.hostWrite_car (d : Dev) (a : Nat) (l : List Byte) : (d.hostWrite a l).car = d.car := (rfl)
@[simp] theorem Dev.hostWrite_upd (d : Dev) (a : Nat) (l : List Byte) : (d.hostWrite a l).upd = d.upd := (rfl)

/-! ### emit -/

@[simp] theorem Dev.emit_st (d : Dev) (e : Emit) : (d.emit e).st = d.st := (rfl)
@[simp] theorem Dev.emit_locked (d : Dev) (e : Emit) : (d.emit e).locked = d.locked := (rfl)
@[simp] theorem Dev.emit_regs (d : Dev) (e : Emit) : (d.emit e).regs = d.regs := (rfl)
@[simp] theorem Dev.emit_mem (d : Dev) (e : Emit) : (d.emit e).mem = d.mem := (rfl)
@[simp] theorem Dev.emit_poison (d : Dev) (e : Emit) : (d.emit e).poison = d.poison := (rfl)
@[simp] theorem Dev.emit_pins (d : Dev) (e : Emit) : (d.emit e).pins = d.pins := (rfl)
@[simp] theorem Dev.emit_boot (d : Dev) (e : Emit) : (d.emit e).boot = d.boot := (rfl)
@[simp] theorem Dev.emit_fuses (d : Dev) (e : Emit) : (d.emit e).fuses = d.fuses := (rfl)
@[simp] theorem Dev.emit_flash (d : Dev) (e : Emit) : (d.emit e).flash = d.flash := (rfl)
@[simp] theorem Dev.emit_evt (d : Dev) (e : Emit) : (d.emit e).evt = d.evt := (rfl)
@[simp] theorem Dev.emit_hq (d : Dev) (e : Emit) : (d.emit e).hq = d.hq := (rfl)
@[simp] theorem Dev.emit_flt (d : Dev) (e : Emit) : (d.emit e).flt = d.flt := (rfl)
@[simp] theorem Dev.emit_d2d (d : Dev) (e : Emit) : (d.emit e).d2d = d.d2d := (rfl)
@[simp] theorem Dev.emit_opt (d : Dev) (e : Emit) : (d.emit e).opt = d.opt := (rfl)
@[simp] theorem Dev.emit_fab (d : Dev) (e : Emit) : (d.emit e).fab = d.fab := (rfl)
@[simp] theorem Dev.emit_stp (d : Dev) (e : Emit) : (d.emit e).stp = d.stp := (rfl)
@[simp] theorem Dev.emit_degradedSeen (d : Dev) (e : Emit) : (d.emit e).degradedSeen = d.degradedSeen := (rfl)
@[simp] theorem Dev.emit_refRun (d : Dev) (e : Emit) : (d.emit e).refRun = d.refRun := (rfl)
@[simp] theorem Dev.emit_pllOpen (d : Dev) (e : Emit) : (d.emit e).pllOpen = d.pllOpen := (rfl)
@[simp] theorem Dev.emit_clock (d : Dev) (e : Emit) : (d.emit e).clock = d.clock := (rfl)
@[simp] theorem Dev.emit_met (d : Dev) (e : Emit) : (d.emit e).met = d.met := (rfl)
@[simp] theorem Dev.emit_fresh (d : Dev) (e : Emit) : (d.emit e).fresh = d.fresh := (rfl)
@[simp] theorem Dev.emit_bundleOut (d : Dev) (e : Emit) : (d.emit e).bundleOut = d.bundleOut := (rfl)
@[simp] theorem Dev.emit_feedLost (d : Dev) (e : Emit) : (d.emit e).feedLost = d.feedLost := (rfl)
@[simp] theorem Dev.emit_peerCoord (d : Dev) (e : Emit) : (d.emit e).peerCoord = d.peerCoord := (rfl)
@[simp] theorem Dev.emit_cores (d : Dev) (e : Emit) : (d.emit e).cores = d.cores := (rfl)
@[simp] theorem Dev.emit_runs (d : Dev) (e : Emit) : (d.emit e).runs = d.runs := (rfl)
@[simp] theorem Dev.emit_satRows (d : Dev) (e : Emit) : (d.emit e).satRows = d.satRows := (rfl)
@[simp] theorem Dev.emit_budgetUsed (d : Dev) (e : Emit) : (d.emit e).budgetUsed = d.budgetUsed := (rfl)
@[simp] theorem Dev.emit_cleanPasses (d : Dev) (e : Emit) : (d.emit e).cleanPasses = d.cleanPasses := (rfl)
@[simp] theorem Dev.emit_ratio (d : Dev) (e : Emit) : (d.emit e).ratio = d.ratio := (rfl)
@[simp] theorem Dev.emit_vec (d : Dev) (e : Emit) : (d.emit e).vec = d.vec := (rfl)
@[simp] theorem Dev.emit_mfb (d : Dev) (e : Emit) : (d.emit e).mfb = d.mfb := (rfl)
@[simp] theorem Dev.emit_migs (d : Dev) (e : Emit) : (d.emit e).migs = d.migs := (rfl)
@[simp] theorem Dev.emit_sramRows (d : Dev) (e : Emit) : (d.emit e).sramRows = d.sramRows := (rfl)
@[simp] theorem Dev.emit_uLive (d : Dev) (e : Emit) : (d.emit e).uLive = d.uLive := (rfl)
@[simp] theorem Dev.emit_uUnf (d : Dev) (e : Emit) : (d.emit e).uUnf = d.uUnf := (rfl)
@[simp] theorem Dev.emit_uOvf (d : Dev) (e : Emit) : (d.emit e).uOvf = d.uOvf := (rfl)
@[simp] theorem Dev.emit_shortSites (d : Dev) (e : Emit) : (d.emit e).shortSites = d.shortSites := (rfl)
@[simp] theorem Dev.emit_vlt (d : Dev) (e : Emit) : (d.emit e).vlt = d.vlt := (rfl)
@[simp] theorem Dev.emit_tgt (d : Dev) (e : Emit) : (d.emit e).tgt = d.tgt := (rfl)
@[simp] theorem Dev.emit_lim (d : Dev) (e : Emit) : (d.emit e).lim = d.lim := (rfl)
@[simp] theorem Dev.emit_car (d : Dev) (e : Emit) : (d.emit e).car = d.car := (rfl)
@[simp] theorem Dev.emit_upd (d : Dev) (e : Emit) : (d.emit e).upd = d.upd := (rfl)

/-! ### msix -/

@[simp] theorem Dev.msix_st (d : Dev) (v : Nat) : (d.msix v).st = d.st := (rfl)
@[simp] theorem Dev.msix_locked (d : Dev) (v : Nat) : (d.msix v).locked = d.locked := (rfl)
@[simp] theorem Dev.msix_regs (d : Dev) (v : Nat) : (d.msix v).regs = d.regs := (rfl)
@[simp] theorem Dev.msix_mem (d : Dev) (v : Nat) : (d.msix v).mem = d.mem := (rfl)
@[simp] theorem Dev.msix_poison (d : Dev) (v : Nat) : (d.msix v).poison = d.poison := (rfl)
@[simp] theorem Dev.msix_pins (d : Dev) (v : Nat) : (d.msix v).pins = d.pins := (rfl)
@[simp] theorem Dev.msix_boot (d : Dev) (v : Nat) : (d.msix v).boot = d.boot := (rfl)
@[simp] theorem Dev.msix_fuses (d : Dev) (v : Nat) : (d.msix v).fuses = d.fuses := (rfl)
@[simp] theorem Dev.msix_flash (d : Dev) (v : Nat) : (d.msix v).flash = d.flash := (rfl)
@[simp] theorem Dev.msix_evt (d : Dev) (v : Nat) : (d.msix v).evt = d.evt := (rfl)
@[simp] theorem Dev.msix_flt (d : Dev) (v : Nat) : (d.msix v).flt = d.flt := (rfl)
@[simp] theorem Dev.msix_d2d (d : Dev) (v : Nat) : (d.msix v).d2d = d.d2d := (rfl)
@[simp] theorem Dev.msix_opt (d : Dev) (v : Nat) : (d.msix v).opt = d.opt := (rfl)
@[simp] theorem Dev.msix_fab (d : Dev) (v : Nat) : (d.msix v).fab = d.fab := (rfl)
@[simp] theorem Dev.msix_stp (d : Dev) (v : Nat) : (d.msix v).stp = d.stp := (rfl)
@[simp] theorem Dev.msix_degradedSeen (d : Dev) (v : Nat) : (d.msix v).degradedSeen = d.degradedSeen := (rfl)
@[simp] theorem Dev.msix_refRun (d : Dev) (v : Nat) : (d.msix v).refRun = d.refRun := (rfl)
@[simp] theorem Dev.msix_pllOpen (d : Dev) (v : Nat) : (d.msix v).pllOpen = d.pllOpen := (rfl)
@[simp] theorem Dev.msix_clock (d : Dev) (v : Nat) : (d.msix v).clock = d.clock := (rfl)
@[simp] theorem Dev.msix_met (d : Dev) (v : Nat) : (d.msix v).met = d.met := (rfl)
@[simp] theorem Dev.msix_fresh (d : Dev) (v : Nat) : (d.msix v).fresh = d.fresh := (rfl)
@[simp] theorem Dev.msix_bundleOut (d : Dev) (v : Nat) : (d.msix v).bundleOut = d.bundleOut := (rfl)
@[simp] theorem Dev.msix_feedLost (d : Dev) (v : Nat) : (d.msix v).feedLost = d.feedLost := (rfl)
@[simp] theorem Dev.msix_peerCoord (d : Dev) (v : Nat) : (d.msix v).peerCoord = d.peerCoord := (rfl)
@[simp] theorem Dev.msix_cores (d : Dev) (v : Nat) : (d.msix v).cores = d.cores := (rfl)
@[simp] theorem Dev.msix_runs (d : Dev) (v : Nat) : (d.msix v).runs = d.runs := (rfl)
@[simp] theorem Dev.msix_satRows (d : Dev) (v : Nat) : (d.msix v).satRows = d.satRows := (rfl)
@[simp] theorem Dev.msix_budgetUsed (d : Dev) (v : Nat) : (d.msix v).budgetUsed = d.budgetUsed := (rfl)
@[simp] theorem Dev.msix_cleanPasses (d : Dev) (v : Nat) : (d.msix v).cleanPasses = d.cleanPasses := (rfl)
@[simp] theorem Dev.msix_ratio (d : Dev) (v : Nat) : (d.msix v).ratio = d.ratio := (rfl)
@[simp] theorem Dev.msix_vec (d : Dev) (v : Nat) : (d.msix v).vec = d.vec := (rfl)
@[simp] theorem Dev.msix_mfb (d : Dev) (v : Nat) : (d.msix v).mfb = d.mfb := (rfl)
@[simp] theorem Dev.msix_migs (d : Dev) (v : Nat) : (d.msix v).migs = d.migs := (rfl)
@[simp] theorem Dev.msix_sramRows (d : Dev) (v : Nat) : (d.msix v).sramRows = d.sramRows := (rfl)
@[simp] theorem Dev.msix_uLive (d : Dev) (v : Nat) : (d.msix v).uLive = d.uLive := (rfl)
@[simp] theorem Dev.msix_uUnf (d : Dev) (v : Nat) : (d.msix v).uUnf = d.uUnf := (rfl)
@[simp] theorem Dev.msix_uOvf (d : Dev) (v : Nat) : (d.msix v).uOvf = d.uOvf := (rfl)
@[simp] theorem Dev.msix_shortSites (d : Dev) (v : Nat) : (d.msix v).shortSites = d.shortSites := (rfl)
@[simp] theorem Dev.msix_vlt (d : Dev) (v : Nat) : (d.msix v).vlt = d.vlt := (rfl)
@[simp] theorem Dev.msix_tgt (d : Dev) (v : Nat) : (d.msix v).tgt = d.tgt := (rfl)
@[simp] theorem Dev.msix_lim (d : Dev) (v : Nat) : (d.msix v).lim = d.lim := (rfl)
@[simp] theorem Dev.msix_car (d : Dev) (v : Nat) : (d.msix v).car = d.car := (rfl)
@[simp] theorem Dev.msix_upd (d : Dev) (v : Nat) : (d.msix v).upd = d.upd := (rfl)

/-! ### putEvt -/

@[simp] theorem Dev.putEvt_st (d : Dev) (t : Tab Nat) : (d.putEvt t).st = d.st := (rfl)
@[simp] theorem Dev.putEvt_locked (d : Dev) (t : Tab Nat) : (d.putEvt t).locked = d.locked := (rfl)
@[simp] theorem Dev.putEvt_regs (d : Dev) (t : Tab Nat) : (d.putEvt t).regs = d.regs := (rfl)
@[simp] theorem Dev.putEvt_mem (d : Dev) (t : Tab Nat) : (d.putEvt t).mem = d.mem := (rfl)
@[simp] theorem Dev.putEvt_poison (d : Dev) (t : Tab Nat) : (d.putEvt t).poison = d.poison := (rfl)
@[simp] theorem Dev.putEvt_pins (d : Dev) (t : Tab Nat) : (d.putEvt t).pins = d.pins := (rfl)
@[simp] theorem Dev.putEvt_boot (d : Dev) (t : Tab Nat) : (d.putEvt t).boot = d.boot := (rfl)
@[simp] theorem Dev.putEvt_fuses (d : Dev) (t : Tab Nat) : (d.putEvt t).fuses = d.fuses := (rfl)
@[simp] theorem Dev.putEvt_flash (d : Dev) (t : Tab Nat) : (d.putEvt t).flash = d.flash := (rfl)
@[simp] theorem Dev.putEvt_hq (d : Dev) (t : Tab Nat) : (d.putEvt t).hq = d.hq := (rfl)
@[simp] theorem Dev.putEvt_flt (d : Dev) (t : Tab Nat) : (d.putEvt t).flt = d.flt := (rfl)
@[simp] theorem Dev.putEvt_d2d (d : Dev) (t : Tab Nat) : (d.putEvt t).d2d = d.d2d := (rfl)
@[simp] theorem Dev.putEvt_opt (d : Dev) (t : Tab Nat) : (d.putEvt t).opt = d.opt := (rfl)
@[simp] theorem Dev.putEvt_fab (d : Dev) (t : Tab Nat) : (d.putEvt t).fab = d.fab := (rfl)
@[simp] theorem Dev.putEvt_stp (d : Dev) (t : Tab Nat) : (d.putEvt t).stp = d.stp := (rfl)
@[simp] theorem Dev.putEvt_degradedSeen (d : Dev) (t : Tab Nat) : (d.putEvt t).degradedSeen = d.degradedSeen := (rfl)
@[simp] theorem Dev.putEvt_refRun (d : Dev) (t : Tab Nat) : (d.putEvt t).refRun = d.refRun := (rfl)
@[simp] theorem Dev.putEvt_pllOpen (d : Dev) (t : Tab Nat) : (d.putEvt t).pllOpen = d.pllOpen := (rfl)
@[simp] theorem Dev.putEvt_clock (d : Dev) (t : Tab Nat) : (d.putEvt t).clock = d.clock := (rfl)
@[simp] theorem Dev.putEvt_fresh (d : Dev) (t : Tab Nat) : (d.putEvt t).fresh = d.fresh := (rfl)
@[simp] theorem Dev.putEvt_out (d : Dev) (t : Tab Nat) : (d.putEvt t).out = d.out := (rfl)
@[simp] theorem Dev.putEvt_bundleOut (d : Dev) (t : Tab Nat) : (d.putEvt t).bundleOut = d.bundleOut := (rfl)
@[simp] theorem Dev.putEvt_feedLost (d : Dev) (t : Tab Nat) : (d.putEvt t).feedLost = d.feedLost := (rfl)
@[simp] theorem Dev.putEvt_peerCoord (d : Dev) (t : Tab Nat) : (d.putEvt t).peerCoord = d.peerCoord := (rfl)
@[simp] theorem Dev.putEvt_cores (d : Dev) (t : Tab Nat) : (d.putEvt t).cores = d.cores := (rfl)
@[simp] theorem Dev.putEvt_runs (d : Dev) (t : Tab Nat) : (d.putEvt t).runs = d.runs := (rfl)
@[simp] theorem Dev.putEvt_satRows (d : Dev) (t : Tab Nat) : (d.putEvt t).satRows = d.satRows := (rfl)
@[simp] theorem Dev.putEvt_budgetUsed (d : Dev) (t : Tab Nat) : (d.putEvt t).budgetUsed = d.budgetUsed := (rfl)
@[simp] theorem Dev.putEvt_cleanPasses (d : Dev) (t : Tab Nat) : (d.putEvt t).cleanPasses = d.cleanPasses := (rfl)
@[simp] theorem Dev.putEvt_ratio (d : Dev) (t : Tab Nat) : (d.putEvt t).ratio = d.ratio := (rfl)
@[simp] theorem Dev.putEvt_vec (d : Dev) (t : Tab Nat) : (d.putEvt t).vec = d.vec := (rfl)
@[simp] theorem Dev.putEvt_migs (d : Dev) (t : Tab Nat) : (d.putEvt t).migs = d.migs := (rfl)
@[simp] theorem Dev.putEvt_sramRows (d : Dev) (t : Tab Nat) : (d.putEvt t).sramRows = d.sramRows := (rfl)
@[simp] theorem Dev.putEvt_uLive (d : Dev) (t : Tab Nat) : (d.putEvt t).uLive = d.uLive := (rfl)
@[simp] theorem Dev.putEvt_uUnf (d : Dev) (t : Tab Nat) : (d.putEvt t).uUnf = d.uUnf := (rfl)
@[simp] theorem Dev.putEvt_uOvf (d : Dev) (t : Tab Nat) : (d.putEvt t).uOvf = d.uOvf := (rfl)
@[simp] theorem Dev.putEvt_shortSites (d : Dev) (t : Tab Nat) : (d.putEvt t).shortSites = d.shortSites := (rfl)
@[simp] theorem Dev.putEvt_vlt (d : Dev) (t : Tab Nat) : (d.putEvt t).vlt = d.vlt := (rfl)
@[simp] theorem Dev.putEvt_tgt (d : Dev) (t : Tab Nat) : (d.putEvt t).tgt = d.tgt := (rfl)
@[simp] theorem Dev.putEvt_lim (d : Dev) (t : Tab Nat) : (d.putEvt t).lim = d.lim := (rfl)
@[simp] theorem Dev.putEvt_car (d : Dev) (t : Tab Nat) : (d.putEvt t).car = d.car := (rfl)
@[simp] theorem Dev.putEvt_upd (d : Dev) (t : Tab Nat) : (d.putEvt t).upd = d.upd := (rfl)

/-! ### evtSet -/

@[simp] theorem Dev.evtSet_st (d : Dev) (i v : Nat) : (d.evtSet i v).st = d.st := (rfl)
@[simp] theorem Dev.evtSet_locked (d : Dev) (i v : Nat) : (d.evtSet i v).locked = d.locked := (rfl)
@[simp] theorem Dev.evtSet_regs (d : Dev) (i v : Nat) : (d.evtSet i v).regs = d.regs := (rfl)
@[simp] theorem Dev.evtSet_mem (d : Dev) (i v : Nat) : (d.evtSet i v).mem = d.mem := (rfl)
@[simp] theorem Dev.evtSet_poison (d : Dev) (i v : Nat) : (d.evtSet i v).poison = d.poison := (rfl)
@[simp] theorem Dev.evtSet_pins (d : Dev) (i v : Nat) : (d.evtSet i v).pins = d.pins := (rfl)
@[simp] theorem Dev.evtSet_boot (d : Dev) (i v : Nat) : (d.evtSet i v).boot = d.boot := (rfl)
@[simp] theorem Dev.evtSet_fuses (d : Dev) (i v : Nat) : (d.evtSet i v).fuses = d.fuses := (rfl)
@[simp] theorem Dev.evtSet_flash (d : Dev) (i v : Nat) : (d.evtSet i v).flash = d.flash := (rfl)
@[simp] theorem Dev.evtSet_hq (d : Dev) (i v : Nat) : (d.evtSet i v).hq = d.hq := (rfl)
@[simp] theorem Dev.evtSet_flt (d : Dev) (i v : Nat) : (d.evtSet i v).flt = d.flt := (rfl)
@[simp] theorem Dev.evtSet_d2d (d : Dev) (i v : Nat) : (d.evtSet i v).d2d = d.d2d := (rfl)
@[simp] theorem Dev.evtSet_opt (d : Dev) (i v : Nat) : (d.evtSet i v).opt = d.opt := (rfl)
@[simp] theorem Dev.evtSet_fab (d : Dev) (i v : Nat) : (d.evtSet i v).fab = d.fab := (rfl)
@[simp] theorem Dev.evtSet_stp (d : Dev) (i v : Nat) : (d.evtSet i v).stp = d.stp := (rfl)
@[simp] theorem Dev.evtSet_degradedSeen (d : Dev) (i v : Nat) : (d.evtSet i v).degradedSeen = d.degradedSeen := (rfl)
@[simp] theorem Dev.evtSet_refRun (d : Dev) (i v : Nat) : (d.evtSet i v).refRun = d.refRun := (rfl)
@[simp] theorem Dev.evtSet_pllOpen (d : Dev) (i v : Nat) : (d.evtSet i v).pllOpen = d.pllOpen := (rfl)
@[simp] theorem Dev.evtSet_clock (d : Dev) (i v : Nat) : (d.evtSet i v).clock = d.clock := (rfl)
@[simp] theorem Dev.evtSet_fresh (d : Dev) (i v : Nat) : (d.evtSet i v).fresh = d.fresh := (rfl)
@[simp] theorem Dev.evtSet_out (d : Dev) (i v : Nat) : (d.evtSet i v).out = d.out := (rfl)
@[simp] theorem Dev.evtSet_bundleOut (d : Dev) (i v : Nat) : (d.evtSet i v).bundleOut = d.bundleOut := (rfl)
@[simp] theorem Dev.evtSet_feedLost (d : Dev) (i v : Nat) : (d.evtSet i v).feedLost = d.feedLost := (rfl)
@[simp] theorem Dev.evtSet_peerCoord (d : Dev) (i v : Nat) : (d.evtSet i v).peerCoord = d.peerCoord := (rfl)
@[simp] theorem Dev.evtSet_cores (d : Dev) (i v : Nat) : (d.evtSet i v).cores = d.cores := (rfl)
@[simp] theorem Dev.evtSet_runs (d : Dev) (i v : Nat) : (d.evtSet i v).runs = d.runs := (rfl)
@[simp] theorem Dev.evtSet_satRows (d : Dev) (i v : Nat) : (d.evtSet i v).satRows = d.satRows := (rfl)
@[simp] theorem Dev.evtSet_budgetUsed (d : Dev) (i v : Nat) : (d.evtSet i v).budgetUsed = d.budgetUsed := (rfl)
@[simp] theorem Dev.evtSet_cleanPasses (d : Dev) (i v : Nat) : (d.evtSet i v).cleanPasses = d.cleanPasses := (rfl)
@[simp] theorem Dev.evtSet_ratio (d : Dev) (i v : Nat) : (d.evtSet i v).ratio = d.ratio := (rfl)
@[simp] theorem Dev.evtSet_vec (d : Dev) (i v : Nat) : (d.evtSet i v).vec = d.vec := (rfl)
@[simp] theorem Dev.evtSet_migs (d : Dev) (i v : Nat) : (d.evtSet i v).migs = d.migs := (rfl)
@[simp] theorem Dev.evtSet_sramRows (d : Dev) (i v : Nat) : (d.evtSet i v).sramRows = d.sramRows := (rfl)
@[simp] theorem Dev.evtSet_uLive (d : Dev) (i v : Nat) : (d.evtSet i v).uLive = d.uLive := (rfl)
@[simp] theorem Dev.evtSet_uUnf (d : Dev) (i v : Nat) : (d.evtSet i v).uUnf = d.uUnf := (rfl)
@[simp] theorem Dev.evtSet_uOvf (d : Dev) (i v : Nat) : (d.evtSet i v).uOvf = d.uOvf := (rfl)
@[simp] theorem Dev.evtSet_shortSites (d : Dev) (i v : Nat) : (d.evtSet i v).shortSites = d.shortSites := (rfl)
@[simp] theorem Dev.evtSet_vlt (d : Dev) (i v : Nat) : (d.evtSet i v).vlt = d.vlt := (rfl)
@[simp] theorem Dev.evtSet_tgt (d : Dev) (i v : Nat) : (d.evtSet i v).tgt = d.tgt := (rfl)
@[simp] theorem Dev.evtSet_lim (d : Dev) (i v : Nat) : (d.evtSet i v).lim = d.lim := (rfl)
@[simp] theorem Dev.evtSet_car (d : Dev) (i v : Nat) : (d.evtSet i v).car = d.car := (rfl)
@[simp] theorem Dev.evtSet_upd (d : Dev) (i v : Nat) : (d.evtSet i v).upd = d.upd := (rfl)

/-! ### evtAdd -/

@[simp] theorem Dev.evtAdd_st (d : Dev) (i n : Nat) : (d.evtAdd i n).st = d.st := (rfl)
@[simp] theorem Dev.evtAdd_locked (d : Dev) (i n : Nat) : (d.evtAdd i n).locked = d.locked := (rfl)
@[simp] theorem Dev.evtAdd_mem (d : Dev) (i n : Nat) : (d.evtAdd i n).mem = d.mem := (rfl)
@[simp] theorem Dev.evtAdd_poison (d : Dev) (i n : Nat) : (d.evtAdd i n).poison = d.poison := (rfl)
@[simp] theorem Dev.evtAdd_pins (d : Dev) (i n : Nat) : (d.evtAdd i n).pins = d.pins := (rfl)
@[simp] theorem Dev.evtAdd_boot (d : Dev) (i n : Nat) : (d.evtAdd i n).boot = d.boot := (rfl)
@[simp] theorem Dev.evtAdd_fuses (d : Dev) (i n : Nat) : (d.evtAdd i n).fuses = d.fuses := (rfl)
@[simp] theorem Dev.evtAdd_flash (d : Dev) (i n : Nat) : (d.evtAdd i n).flash = d.flash := (rfl)
@[simp] theorem Dev.evtAdd_hq (d : Dev) (i n : Nat) : (d.evtAdd i n).hq = d.hq := (rfl)
@[simp] theorem Dev.evtAdd_flt (d : Dev) (i n : Nat) : (d.evtAdd i n).flt = d.flt := (rfl)
@[simp] theorem Dev.evtAdd_d2d (d : Dev) (i n : Nat) : (d.evtAdd i n).d2d = d.d2d := (rfl)
@[simp] theorem Dev.evtAdd_opt (d : Dev) (i n : Nat) : (d.evtAdd i n).opt = d.opt := (rfl)
@[simp] theorem Dev.evtAdd_fab (d : Dev) (i n : Nat) : (d.evtAdd i n).fab = d.fab := (rfl)
@[simp] theorem Dev.evtAdd_stp (d : Dev) (i n : Nat) : (d.evtAdd i n).stp = d.stp := (rfl)
@[simp] theorem Dev.evtAdd_degradedSeen (d : Dev) (i n : Nat) : (d.evtAdd i n).degradedSeen = d.degradedSeen := (rfl)
@[simp] theorem Dev.evtAdd_refRun (d : Dev) (i n : Nat) : (d.evtAdd i n).refRun = d.refRun := (rfl)
@[simp] theorem Dev.evtAdd_pllOpen (d : Dev) (i n : Nat) : (d.evtAdd i n).pllOpen = d.pllOpen := (rfl)
@[simp] theorem Dev.evtAdd_clock (d : Dev) (i n : Nat) : (d.evtAdd i n).clock = d.clock := (rfl)
@[simp] theorem Dev.evtAdd_fresh (d : Dev) (i n : Nat) : (d.evtAdd i n).fresh = d.fresh := (rfl)
@[simp] theorem Dev.evtAdd_out (d : Dev) (i n : Nat) : (d.evtAdd i n).out = d.out := (rfl)
@[simp] theorem Dev.evtAdd_bundleOut (d : Dev) (i n : Nat) : (d.evtAdd i n).bundleOut = d.bundleOut := (rfl)
@[simp] theorem Dev.evtAdd_feedLost (d : Dev) (i n : Nat) : (d.evtAdd i n).feedLost = d.feedLost := (rfl)
@[simp] theorem Dev.evtAdd_peerCoord (d : Dev) (i n : Nat) : (d.evtAdd i n).peerCoord = d.peerCoord := (rfl)
@[simp] theorem Dev.evtAdd_cores (d : Dev) (i n : Nat) : (d.evtAdd i n).cores = d.cores := (rfl)
@[simp] theorem Dev.evtAdd_runs (d : Dev) (i n : Nat) : (d.evtAdd i n).runs = d.runs := (rfl)
@[simp] theorem Dev.evtAdd_satRows (d : Dev) (i n : Nat) : (d.evtAdd i n).satRows = d.satRows := (rfl)
@[simp] theorem Dev.evtAdd_budgetUsed (d : Dev) (i n : Nat) : (d.evtAdd i n).budgetUsed = d.budgetUsed := (rfl)
@[simp] theorem Dev.evtAdd_cleanPasses (d : Dev) (i n : Nat) : (d.evtAdd i n).cleanPasses = d.cleanPasses := (rfl)
@[simp] theorem Dev.evtAdd_ratio (d : Dev) (i n : Nat) : (d.evtAdd i n).ratio = d.ratio := (rfl)
@[simp] theorem Dev.evtAdd_vec (d : Dev) (i n : Nat) : (d.evtAdd i n).vec = d.vec := (rfl)
@[simp] theorem Dev.evtAdd_migs (d : Dev) (i n : Nat) : (d.evtAdd i n).migs = d.migs := (rfl)
@[simp] theorem Dev.evtAdd_sramRows (d : Dev) (i n : Nat) : (d.evtAdd i n).sramRows = d.sramRows := (rfl)
@[simp] theorem Dev.evtAdd_uLive (d : Dev) (i n : Nat) : (d.evtAdd i n).uLive = d.uLive := (rfl)
@[simp] theorem Dev.evtAdd_uUnf (d : Dev) (i n : Nat) : (d.evtAdd i n).uUnf = d.uUnf := (rfl)
@[simp] theorem Dev.evtAdd_uOvf (d : Dev) (i n : Nat) : (d.evtAdd i n).uOvf = d.uOvf := (rfl)
@[simp] theorem Dev.evtAdd_shortSites (d : Dev) (i n : Nat) : (d.evtAdd i n).shortSites = d.shortSites := (rfl)
@[simp] theorem Dev.evtAdd_vlt (d : Dev) (i n : Nat) : (d.evtAdd i n).vlt = d.vlt := (rfl)
@[simp] theorem Dev.evtAdd_tgt (d : Dev) (i n : Nat) : (d.evtAdd i n).tgt = d.tgt := (rfl)
@[simp] theorem Dev.evtAdd_lim (d : Dev) (i n : Nat) : (d.evtAdd i n).lim = d.lim := (rfl)
@[simp] theorem Dev.evtAdd_car (d : Dev) (i n : Nat) : (d.evtAdd i n).car = d.car := (rfl)
@[simp] theorem Dev.evtAdd_upd (d : Dev) (i n : Nat) : (d.evtAdd i n).upd = d.upd := (rfl)

/-! ### send -/

@[simp] theorem Dev.send_st (d : Dev) (p : Packet) : (d.send p).st = d.st := (rfl)
@[simp] theorem Dev.send_locked (d : Dev) (p : Packet) : (d.send p).locked = d.locked := (rfl)
@[simp] theorem Dev.send_regs (d : Dev) (p : Packet) : (d.send p).regs = d.regs := (rfl)
@[simp] theorem Dev.send_mem (d : Dev) (p : Packet) : (d.send p).mem = d.mem := (rfl)
@[simp] theorem Dev.send_poison (d : Dev) (p : Packet) : (d.send p).poison = d.poison := (rfl)
@[simp] theorem Dev.send_pins (d : Dev) (p : Packet) : (d.send p).pins = d.pins := (rfl)
@[simp] theorem Dev.send_boot (d : Dev) (p : Packet) : (d.send p).boot = d.boot := (rfl)
@[simp] theorem Dev.send_fuses (d : Dev) (p : Packet) : (d.send p).fuses = d.fuses := (rfl)
@[simp] theorem Dev.send_flash (d : Dev) (p : Packet) : (d.send p).flash = d.flash := (rfl)
@[simp] theorem Dev.send_evt (d : Dev) (p : Packet) : (d.send p).evt = d.evt := (rfl)
@[simp] theorem Dev.send_hq (d : Dev) (p : Packet) : (d.send p).hq = d.hq := (rfl)
@[simp] theorem Dev.send_flt (d : Dev) (p : Packet) : (d.send p).flt = d.flt := (rfl)
@[simp] theorem Dev.send_d2d (d : Dev) (p : Packet) : (d.send p).d2d = d.d2d := (rfl)
@[simp] theorem Dev.send_opt (d : Dev) (p : Packet) : (d.send p).opt = d.opt := (rfl)
@[simp] theorem Dev.send_stp (d : Dev) (p : Packet) : (d.send p).stp = d.stp := (rfl)
@[simp] theorem Dev.send_degradedSeen (d : Dev) (p : Packet) : (d.send p).degradedSeen = d.degradedSeen := (rfl)
@[simp] theorem Dev.send_refRun (d : Dev) (p : Packet) : (d.send p).refRun = d.refRun := (rfl)
@[simp] theorem Dev.send_pllOpen (d : Dev) (p : Packet) : (d.send p).pllOpen = d.pllOpen := (rfl)
@[simp] theorem Dev.send_clock (d : Dev) (p : Packet) : (d.send p).clock = d.clock := (rfl)
@[simp] theorem Dev.send_met (d : Dev) (p : Packet) : (d.send p).met = d.met := (rfl)
@[simp] theorem Dev.send_fresh (d : Dev) (p : Packet) : (d.send p).fresh = d.fresh := (rfl)
@[simp] theorem Dev.send_out (d : Dev) (p : Packet) : (d.send p).out = d.out := (rfl)
@[simp] theorem Dev.send_bundleOut (d : Dev) (p : Packet) : (d.send p).bundleOut = d.bundleOut := (rfl)
@[simp] theorem Dev.send_feedLost (d : Dev) (p : Packet) : (d.send p).feedLost = d.feedLost := (rfl)
@[simp] theorem Dev.send_peerCoord (d : Dev) (p : Packet) : (d.send p).peerCoord = d.peerCoord := (rfl)
@[simp] theorem Dev.send_cores (d : Dev) (p : Packet) : (d.send p).cores = d.cores := (rfl)
@[simp] theorem Dev.send_runs (d : Dev) (p : Packet) : (d.send p).runs = d.runs := (rfl)
@[simp] theorem Dev.send_satRows (d : Dev) (p : Packet) : (d.send p).satRows = d.satRows := (rfl)
@[simp] theorem Dev.send_budgetUsed (d : Dev) (p : Packet) : (d.send p).budgetUsed = d.budgetUsed := (rfl)
@[simp] theorem Dev.send_cleanPasses (d : Dev) (p : Packet) : (d.send p).cleanPasses = d.cleanPasses := (rfl)
@[simp] theorem Dev.send_ratio (d : Dev) (p : Packet) : (d.send p).ratio = d.ratio := (rfl)
@[simp] theorem Dev.send_vec (d : Dev) (p : Packet) : (d.send p).vec = d.vec := (rfl)
@[simp] theorem Dev.send_mfb (d : Dev) (p : Packet) : (d.send p).mfb = d.mfb := (rfl)
@[simp] theorem Dev.send_migs (d : Dev) (p : Packet) : (d.send p).migs = d.migs := (rfl)
@[simp] theorem Dev.send_sramRows (d : Dev) (p : Packet) : (d.send p).sramRows = d.sramRows := (rfl)
@[simp] theorem Dev.send_uLive (d : Dev) (p : Packet) : (d.send p).uLive = d.uLive := (rfl)
@[simp] theorem Dev.send_uUnf (d : Dev) (p : Packet) : (d.send p).uUnf = d.uUnf := (rfl)
@[simp] theorem Dev.send_uOvf (d : Dev) (p : Packet) : (d.send p).uOvf = d.uOvf := (rfl)
@[simp] theorem Dev.send_shortSites (d : Dev) (p : Packet) : (d.send p).shortSites = d.shortSites := (rfl)
@[simp] theorem Dev.send_vlt (d : Dev) (p : Packet) : (d.send p).vlt = d.vlt := (rfl)
@[simp] theorem Dev.send_tgt (d : Dev) (p : Packet) : (d.send p).tgt = d.tgt := (rfl)
@[simp] theorem Dev.send_lim (d : Dev) (p : Packet) : (d.send p).lim = d.lim := (rfl)
@[simp] theorem Dev.send_car (d : Dev) (p : Packet) : (d.send p).car = d.car := (rfl)
@[simp] theorem Dev.send_upd (d : Dev) (p : Packet) : (d.send p).upd = d.upd := (rfl)

/-! ### take -/

@[simp] theorem Dev.take_st (d : Dev) (p : Packet) : (d.take p).st = d.st := (rfl)
@[simp] theorem Dev.take_locked (d : Dev) (p : Packet) : (d.take p).locked = d.locked := (rfl)
@[simp] theorem Dev.take_regs (d : Dev) (p : Packet) : (d.take p).regs = d.regs := (rfl)
@[simp] theorem Dev.take_mem (d : Dev) (p : Packet) : (d.take p).mem = d.mem := (rfl)
@[simp] theorem Dev.take_poison (d : Dev) (p : Packet) : (d.take p).poison = d.poison := (rfl)
@[simp] theorem Dev.take_pins (d : Dev) (p : Packet) : (d.take p).pins = d.pins := (rfl)
@[simp] theorem Dev.take_boot (d : Dev) (p : Packet) : (d.take p).boot = d.boot := (rfl)
@[simp] theorem Dev.take_fuses (d : Dev) (p : Packet) : (d.take p).fuses = d.fuses := (rfl)
@[simp] theorem Dev.take_flash (d : Dev) (p : Packet) : (d.take p).flash = d.flash := (rfl)
@[simp] theorem Dev.take_evt (d : Dev) (p : Packet) : (d.take p).evt = d.evt := (rfl)
@[simp] theorem Dev.take_hq (d : Dev) (p : Packet) : (d.take p).hq = d.hq := (rfl)
@[simp] theorem Dev.take_flt (d : Dev) (p : Packet) : (d.take p).flt = d.flt := (rfl)
@[simp] theorem Dev.take_d2d (d : Dev) (p : Packet) : (d.take p).d2d = d.d2d := (rfl)
@[simp] theorem Dev.take_opt (d : Dev) (p : Packet) : (d.take p).opt = d.opt := (rfl)
@[simp] theorem Dev.take_stp (d : Dev) (p : Packet) : (d.take p).stp = d.stp := (rfl)
@[simp] theorem Dev.take_degradedSeen (d : Dev) (p : Packet) : (d.take p).degradedSeen = d.degradedSeen := (rfl)
@[simp] theorem Dev.take_refRun (d : Dev) (p : Packet) : (d.take p).refRun = d.refRun := (rfl)
@[simp] theorem Dev.take_pllOpen (d : Dev) (p : Packet) : (d.take p).pllOpen = d.pllOpen := (rfl)
@[simp] theorem Dev.take_clock (d : Dev) (p : Packet) : (d.take p).clock = d.clock := (rfl)
@[simp] theorem Dev.take_met (d : Dev) (p : Packet) : (d.take p).met = d.met := (rfl)
@[simp] theorem Dev.take_fresh (d : Dev) (p : Packet) : (d.take p).fresh = d.fresh := (rfl)
@[simp] theorem Dev.take_out (d : Dev) (p : Packet) : (d.take p).out = d.out := (rfl)
@[simp] theorem Dev.take_bundleOut (d : Dev) (p : Packet) : (d.take p).bundleOut = d.bundleOut := (rfl)
@[simp] theorem Dev.take_feedLost (d : Dev) (p : Packet) : (d.take p).feedLost = d.feedLost := (rfl)
@[simp] theorem Dev.take_peerCoord (d : Dev) (p : Packet) : (d.take p).peerCoord = d.peerCoord := (rfl)
@[simp] theorem Dev.take_cores (d : Dev) (p : Packet) : (d.take p).cores = d.cores := (rfl)
@[simp] theorem Dev.take_runs (d : Dev) (p : Packet) : (d.take p).runs = d.runs := (rfl)
@[simp] theorem Dev.take_satRows (d : Dev) (p : Packet) : (d.take p).satRows = d.satRows := (rfl)
@[simp] theorem Dev.take_budgetUsed (d : Dev) (p : Packet) : (d.take p).budgetUsed = d.budgetUsed := (rfl)
@[simp] theorem Dev.take_cleanPasses (d : Dev) (p : Packet) : (d.take p).cleanPasses = d.cleanPasses := (rfl)
@[simp] theorem Dev.take_ratio (d : Dev) (p : Packet) : (d.take p).ratio = d.ratio := (rfl)
@[simp] theorem Dev.take_vec (d : Dev) (p : Packet) : (d.take p).vec = d.vec := (rfl)
@[simp] theorem Dev.take_mfb (d : Dev) (p : Packet) : (d.take p).mfb = d.mfb := (rfl)
@[simp] theorem Dev.take_migs (d : Dev) (p : Packet) : (d.take p).migs = d.migs := (rfl)
@[simp] theorem Dev.take_sramRows (d : Dev) (p : Packet) : (d.take p).sramRows = d.sramRows := (rfl)
@[simp] theorem Dev.take_uLive (d : Dev) (p : Packet) : (d.take p).uLive = d.uLive := (rfl)
@[simp] theorem Dev.take_uUnf (d : Dev) (p : Packet) : (d.take p).uUnf = d.uUnf := (rfl)
@[simp] theorem Dev.take_uOvf (d : Dev) (p : Packet) : (d.take p).uOvf = d.uOvf := (rfl)
@[simp] theorem Dev.take_shortSites (d : Dev) (p : Packet) : (d.take p).shortSites = d.shortSites := (rfl)
@[simp] theorem Dev.take_vlt (d : Dev) (p : Packet) : (d.take p).vlt = d.vlt := (rfl)
@[simp] theorem Dev.take_tgt (d : Dev) (p : Packet) : (d.take p).tgt = d.tgt := (rfl)
@[simp] theorem Dev.take_lim (d : Dev) (p : Packet) : (d.take p).lim = d.lim := (rfl)
@[simp] theorem Dev.take_car (d : Dev) (p : Packet) : (d.take p).car = d.car := (rfl)
@[simp] theorem Dev.take_upd (d : Dev) (p : Packet) : (d.take p).upd = d.upd := (rfl)

end Sys2Proof.Machine
end

