-- ==== Sys2Proof/Laws/Tab.lean ====
section
/-! SUPPORT. The laws of sparse tables: a read after a write, and that every operation keeps the canonical form. -/

namespace Sys2Proof.Machine

variable {α : Type}

@[simp] theorem Tab.get_erase_same (dflt : α) (t : Tab α) (q : Nat) :
    Tab.get dflt (Tab.erase t q) q = dflt := by
  induction t with
  | nil => rfl
  | cons p r ih =>
    obtain ⟨k, v⟩ := p
    by_cases h : k = q
    · simp [Tab.erase, h, ih]
    · simp [Tab.erase, h, Tab.get, ih]

theorem Tab.get_erase_ne (dflt : α) (t : Tab α) {q k' : Nat} (hne : k' ≠ q) :
    Tab.get dflt (Tab.erase t q) k' = Tab.get dflt t k' := by
  induction t with
  | nil => rfl
  | cons p r ih =>
    obtain ⟨k, v⟩ := p
    by_cases h : k = q
    · have : ¬ k = k' := fun e => hne (by rw [← e, h])
      simp [Tab.erase, h, ih, Tab.get]
      intro e; exact absurd e (by rw [← h]; exact this)
    · by_cases h2 : k = k'
      · subst h2; simp [Tab.erase, Tab.get, h]
      · simp [Tab.erase, h, Tab.get, h2, ih]

theorem Tab.get_insert_same (dflt : α) (t : Tab α) (q : Nat) (x : α)
    (h : ∀ p ∈ t, p.1 ≠ q) : Tab.get dflt (Tab.insert t q x) q = x := by
  induction t with
  | nil => simp [Tab.insert, Tab.get]
  | cons p r ih =>
    obtain ⟨k, v⟩ := p
    have hk : k ≠ q := h (k, v) (by simp)
    have hr : ∀ p ∈ r, p.1 ≠ q := fun p hp => h p (by simp [hp])
    simp only [Tab.insert]
    split
    · simp [Tab.get]
    · simp [Tab.get, hk, ih hr]

theorem Tab.get_insert_ne (dflt : α) (t : Tab α) {q k' : Nat} (x : α) (hne : k' ≠ q) :
    Tab.get dflt (Tab.insert t q x) k' = Tab.get dflt t k' := by
  induction t with
  | nil => simp [Tab.insert, Tab.get, Ne.symm hne]
  | cons p r ih =>
    obtain ⟨k, v⟩ := p
    simp only [Tab.insert]
    split
    · simp [Tab.get, Ne.symm hne]
    · simp [Tab.get, ih]

theorem Tab.erase_keys (t : Tab α) (q : Nat) : ∀ p ∈ Tab.erase t q, p.1 ≠ q := by
  induction t with
  | nil => simp [Tab.erase]
  | cons p r ih =>
    obtain ⟨k, v⟩ := p
    by_cases h : k = q
    · simpa [Tab.erase, h] using ih
    · intro p hp
      simp only [Tab.erase, if_neg h, List.mem_cons] at hp
      rcases hp with rfl | hp
      · exact h
      · exact ih p hp

@[simp] theorem Tab.get_set_same [DecidableEq α] (dflt : α) (t : Tab α) (q : Nat) (x : α) :
    Tab.get dflt (Tab.set dflt t q x) q = x := by
  unfold Tab.set
  split
  · rename_i h; rw [h]; exact Tab.get_erase_same dflt t q
  · exact Tab.get_insert_same dflt _ q x (Tab.erase_keys t q)

theorem Tab.get_set_ne [DecidableEq α] (dflt : α) (t : Tab α) {q k' : Nat} (x : α) (hne : k' ≠ q) :
    Tab.get dflt (Tab.set dflt t q x) k' = Tab.get dflt t k' := by
  unfold Tab.set
  split
  · exact Tab.get_erase_ne dflt t hne
  · rw [Tab.get_insert_ne dflt _ x hne, Tab.get_erase_ne dflt t hne]

/-- A write elsewhere, whatever an unlisted key is taken to read as. -/
theorem Tab.get_set_other [DecidableEq α] (dflt dflt' : α) (t : Tab α) {q k' : Nat} (x : α) (hne : k' ≠ q) :
    Tab.get dflt' (Tab.set dflt t q x) k' = Tab.get dflt' t k' := by
  unfold Tab.set
  split
  · exact Tab.get_erase_ne dflt' t hne
  · rw [Tab.get_insert_ne dflt' _ x hne, Tab.get_erase_ne dflt' t hne]

theorem Tab.get_set [DecidableEq α] (dflt : α) (t : Tab α) (q k' : Nat) (x : α) :
    Tab.get dflt (Tab.set dflt t q x) k' = if k' = q then x else Tab.get dflt t k' := by
  split
  · rename_i h; rw [h]; exact Tab.get_set_same dflt t q x
  · rename_i h; exact Tab.get_set_ne dflt t x h

theorem Tab.wfFrom_mono [DecidableEq α] (dflt : α) (t : Tab α) {lo lo' : Nat} (hle : lo' ≤ lo)
    (h : Tab.wfFrom dflt lo t = true) : Tab.wfFrom dflt lo' t = true := by
  cases t with
  | nil => rfl
  | cons p r =>
    obtain ⟨k, v⟩ := p
    simp only [Tab.wfFrom, Bool.and_eq_true, decide_eq_true_eq] at h ⊢
    exact ⟨Nat.le_trans hle h.1, h.2⟩

theorem Tab.wfFrom_erase [DecidableEq α] (dflt : α) (t : Tab α) (q : Nat) :
    ∀ lo, Tab.wfFrom dflt lo t = true → Tab.wfFrom dflt lo (Tab.erase t q) = true := by
  induction t with
  | nil => intro lo _; rfl
  | cons p r ih =>
    obtain ⟨k, v⟩ := p
    intro lo h
    simp only [Tab.wfFrom, Bool.and_eq_true, decide_eq_true_eq] at h
    by_cases hk : k = q
    · simp only [Tab.erase, if_pos hk]
      exact Tab.wfFrom_mono dflt _ (by omega) (ih (k + 1) h.2.2)
    · simp only [Tab.erase, if_neg hk, Tab.wfFrom, Bool.and_eq_true, decide_eq_true_eq]
      exact ⟨h.1, h.2.1, ih (k + 1) h.2.2⟩

theorem Tab.wfFrom_insert [DecidableEq α] (dflt : α) (t : Tab α) (q : Nat) (x : α) (hx : x ≠ dflt) :
    ∀ lo, lo ≤ q → (∀ p ∈ t, p.1 ≠ q) → Tab.wfFrom dflt lo t = true →
      Tab.wfFrom dflt lo (Tab.insert t q x) = true := by
  induction t with
  | nil => intro lo hlo _ _; simp [Tab.insert, Tab.wfFrom, hlo, hx]
  | cons p r ih =>
    obtain ⟨k, v⟩ := p
    intro lo hlo hne h
    have hkq : k ≠ q := hne (k, v) (by simp)
    have hr : ∀ p ∈ r, p.1 ≠ q := fun p hp => hne p (by simp [hp])
    simp only [Tab.wfFrom, Bool.and_eq_true, decide_eq_true_eq] at h
    simp only [Tab.insert]
    split
    · rename_i hlt
      simp only [Tab.wfFrom, Bool.and_eq_true, decide_eq_true_eq]
      exact ⟨hlo, hx, by omega, h.2.1, h.2.2⟩
    · rename_i hge
      simp only [Tab.wfFrom, Bool.and_eq_true, decide_eq_true_eq]
      exact ⟨h.1, h.2.1, ih (k + 1) (by omega) hr h.2.2⟩

theorem Tab.wf_set [DecidableEq α] (dflt : α) (t : Tab α) (q : Nat) (x : α)
    (h : Tab.wf dflt t = true) : Tab.wf dflt (Tab.set dflt t q x) = true := by
  unfold Tab.wf Tab.set at *
  split
  · exact Tab.wfFrom_erase dflt t q 0 h
  · rename_i hx
    exact Tab.wfFrom_insert dflt _ q x hx 0 (Nat.zero_le _) (Tab.erase_keys t q)
      (Tab.wfFrom_erase dflt t q 0 h)

theorem Tab.wfFrom_filter [DecidableEq α] (dflt : α) (f : Nat × α → Bool) (t : Tab α) :
    ∀ lo, Tab.wfFrom dflt lo t = true → Tab.wfFrom dflt lo (t.filter f) = true := by
  induction t with
  | nil => intro lo _; rfl
  | cons p r ih =>
    obtain ⟨k, v⟩ := p
    intro lo h
    simp only [Tab.wfFrom, Bool.and_eq_true, decide_eq_true_eq] at h
    by_cases hf : f (k, v) = true
    · simp only [List.filter, hf, Tab.wfFrom, Bool.and_eq_true, decide_eq_true_eq]
      exact ⟨h.1, h.2.1, ih (k + 1) h.2.2⟩
    · have : f (k, v) = false := by simpa using hf
      simp only [List.filter, this]
      exact Tab.wfFrom_mono dflt _ (by omega) (ih (k + 1) h.2.2)

theorem Tab.wf_clear [DecidableEq α] (dflt : α) (t : Tab α) (a n : Nat)
    (h : Tab.wf dflt t = true) : Tab.wf dflt (Tab.clear t a n) = true :=
  Tab.wfFrom_filter dflt _ t 0 h

theorem Tab.wf_setAll [DecidableEq α] (dflt : α) (l : List (Nat × α)) :
    ∀ t : Tab α, Tab.wf dflt t = true → Tab.wf dflt (Tab.setAll dflt t l) = true := by
  induction l with
  | nil => intro t h; exact h
  | cons p r ih =>
    obtain ⟨k, v⟩ := p
    intro t h
    exact ih _ (Tab.wf_set dflt t k v h)

theorem Tab.wf_copy [DecidableEq α] (dflt : α) (t : Tab α) (src dst n : Nat)
    (h : Tab.wf dflt t = true) : Tab.wf dflt (Tab.copy dflt t src dst n) = true :=
  Tab.wf_setAll dflt _ _ (Tab.wf_clear dflt t dst n h)

/-- What a whole list of writes leaves at a key it does not name. -/
theorem Tab.get_setAll_ne [DecidableEq α] (dflt : α) (l : List (Nat × α)) (q : Nat) :
    ∀ t : Tab α, (∀ p ∈ l, p.1 ≠ q) → Tab.get dflt (Tab.setAll dflt t l) q = Tab.get dflt t q := by
  induction l with
  | nil => intro t _; rfl
  | cons p r ih =>
    obtain ⟨k, v⟩ := p
    intro t h
    have hk : q ≠ k := fun e => h (k, v) (by simp) e.symm
    rw [Tab.setAll, ih _ (fun p hp => h p (by simp [hp])), Tab.get_set_ne dflt t v hk]

end Sys2Proof.Machine
end

