-- ==== Sys2Proof/Laws/Ops.lean ====
section
/-! SUPPORT. What each shared operation can do: the shape of a meaning, register fields, fault records, reasons, states, events. -/

namespace Sys2Proof.Machine

/-! ### The shape of a meaning -/

theorem State.run_next {s : State} {unit due : Bool} {f : Dev → Dev} (hu : unit = true) (hd : due = true) :
    s.run unit due f = .next { s with dev := f s.dev } := by simp [State.run, hu, hd]

theorem State.run_idle {s : State} {unit due : Bool} {f : Dev → Dev} (hu : unit = true) (hd : due = false) :
    s.run unit due f = .next s := by simp [State.run, hu, hd]

/-- All that a meaning can answer: a fault for a missing unit, the block as it was, or the device changed. -/
theorem State.run_cases {s t : State} {unit due : Bool} {f : Dev → Dev} (h : s.run unit due f = .next t) :
    unit = true ∧ ((due = true ∧ t = { s with dev := f s.dev }) ∨ (due = false ∧ t = s)) := by
  unfold State.run at h
  cases unit <;> cases due <;> simp_all

theorem State.run_fault {s : State} {unit due : Bool} {f : Dev → Dev} {e : Fault} :
    s.run unit due f = .fault e ↔ unit = false := by
  unfold State.run
  cases e
  cases unit <;> cases due <;> simp

theorem State.run_not_refused {s : State} {unit due : Bool} {f : Dev → Dev} {r : Refusal} :
    s.run unit due f ≠ .refused r := by
  unfold State.run
  cases unit <;> cases due <;> simp

/-- A meaning leaves the queue. -/
theorem State.run_pending {s t : State} {unit due : Bool} {f : Dev → Dev} (h : s.run unit due f = .next t) :
    t.pending = s.pending := by
  obtain ⟨_, ⟨_, rfl⟩ | ⟨_, rfl⟩⟩ := State.run_cases h <;> rfl

/-! ### Register fields -/

theorem Dev.fld_of_regs {d e : Dev} (h : d.regs = e.regs) (f : Field) : d.fld f = e.fld f := by simp [Dev.fld, h]

@[simp] theorem Dev.fld_setFld_same (d : Dev) (f : Field) (n : Nat) : (d.setFld f n).fld f = n % 2 ^ f.w := by
  simp [Dev.fld, Dev.setFld]

theorem Dev.fld_setFld_ne (d : Dev) {f g : Field} (n : Nat) (h : g.key ≠ f.key) : (d.setFld f n).fld g = d.fld g := by
  simp [Dev.fld, Dev.setFld, Tab.get_set_other _ _ _ _ h]

theorem Dev.fld_setOn_same (d : Dev) (f : Field) (b : Bool) (h : 0 < f.w) : (d.setOn f b).fld f = if b then 1 else 0 := by
  have : 1 < 2 ^ f.w := Nat.one_lt_two_pow (by omega)
  cases b <;> simp [Dev.setOn, Nat.mod_eq_of_lt this]

theorem Dev.fld_setOn_ne (d : Dev) {f g : Field} (b : Bool) (h : g.key ≠ f.key) : (d.setOn f b).fld g = d.fld g :=
  Dev.fld_setFld_ne d _ h

@[simp] theorem Dev.fld_bump_same (d : Dev) (f : Field) (n : Nat) : (d.bump f n).fld f = (d.fld f + n) % 2 ^ f.w :=
  Dev.fld_setFld_same d f _

theorem Dev.fld_bump_ne (d : Dev) {f g : Field} (n : Nat) (h : g.key ≠ f.key) : (d.bump f n).fld g = d.fld g :=
  Dev.fld_setFld_ne d _ h

@[simp] theorem Dev.fld_bumpSat_same (d : Dev) (f : Field) (n : Nat) :
    (d.bumpSat f n).fld f = min (2 ^ f.w - 1) (d.fld f + n) := by
  have : 0 < 2 ^ f.w := Nat.two_pow_pos _
  simp only [Dev.bumpSat, Dev.fld_setFld_same, satTo]
  rw [Nat.mod_eq_of_lt (by split <;> omega)]; split <;> omega

theorem Dev.fld_bumpSat_ne (d : Dev) {f g : Field} (n : Nat) (h : g.key ≠ f.key) : (d.bumpSat f n).fld g = d.fld g :=
  Dev.fld_setFld_ne d _ h

theorem Dev.fld_setFldBit_ne (d : Dev) {f g : Field} (i : Nat) (b : Bool) (h : g.key ≠ f.key) :
    (d.setFldBit f i b).fld g = d.fld g := Dev.fld_setFld_ne d _ h

@[simp] theorem Dev.fld_draw (d : Dev) (f : Field) : (d.draw).fld f = d.fld f := (rfl)
@[simp] theorem Dev.fld_write (d : Dev) (a : Nat) (l : List Byte) (f : Field) : (d.write a l).fld f = d.fld f := (rfl)
@[simp] theorem Dev.fld_zero (d : Dev) (a n : Nat) (f : Field) : (d.zero a n).fld f = d.fld f := (rfl)
@[simp] theorem Dev.fld_copy (d : Dev) (a b n : Nat) (f : Field) : (d.copy a b n).fld f = d.fld f := (rfl)
@[simp] theorem Dev.fld_setPoison (d : Dev) (a : Nat) (f : Field) : (d.setPoison a).fld f = d.fld f := (rfl)
@[simp] theorem Dev.fld_hostWrite (d : Dev) (a : Nat) (l : List Byte) (f : Field) : (d.hostWrite a l).fld f = d.fld f := (rfl)
@[simp] theorem Dev.fld_emit (d : Dev) (e : Emit) (f : Field) : (d.emit e).fld f = d.fld f := (rfl)
@[simp] theorem Dev.fld_msix (d : Dev) (v : Nat) (f : Field) : (d.msix v).fld f = d.fld f := (rfl)
@[simp] theorem Dev.fld_evtSet (d : Dev) (i v : Nat) (f : Field) : (d.evtSet i v).fld f = d.fld f := (rfl)
@[simp] theorem Dev.fld_send (d : Dev) (p : Packet) (f : Field) : (d.send p).fld f = d.fld f := (rfl)
@[simp] theorem Dev.fld_take (d : Dev) (p : Packet) (f : Field) : (d.take p).fld f = d.fld f := (rfl)

/-! ### Fault records -/

@[simp] theorem Dev.logRecord_st (d : Dev) (r : FaultRec) : (d.logRecord r).st = d.st := rfl
@[simp] theorem Dev.logRecord_locked (d : Dev) (r : FaultRec) : (d.logRecord r).locked = d.locked := rfl
@[simp] theorem Dev.logRecord_poison (d : Dev) (r : FaultRec) : (d.logRecord r).poison = d.poison := rfl
@[simp] theorem Dev.logRecord_pins (d : Dev) (r : FaultRec) : (d.logRecord r).pins = d.pins := rfl
@[simp] theorem Dev.logRecord_boot (d : Dev) (r : FaultRec) : (d.logRecord r).boot = d.boot := rfl
@[simp] theorem Dev.logRecord_fuses (d : Dev) (r : FaultRec) : (d.logRecord r).fuses = d.fuses := rfl
@[simp] theorem Dev.logRecord_flash (d : Dev) (r : FaultRec) : (d.logRecord r).flash = d.flash := rfl
@[simp] theorem Dev.logRecord_evt (d : Dev) (r : FaultRec) : (d.logRecord r).evt = d.evt := rfl
@[simp] theorem Dev.logRecord_hq (d : Dev) (r : FaultRec) : (d.logRecord r).hq = d.hq := rfl
@[simp] theorem Dev.logRecord_d2d (d : Dev) (r : FaultRec) : (d.logRecord r).d2d = d.d2d := rfl
@[simp] theorem Dev.logRecord_opt (d : Dev) (r : FaultRec) : (d.logRecord r).opt = d.opt := rfl
@[simp] theorem Dev.logRecord_fab (d : Dev) (r : FaultRec) : (d.logRecord r).fab = d.fab := rfl
@[simp] theorem Dev.logRecord_stp (d : Dev) (r : FaultRec) : (d.logRecord r).stp = d.stp := rfl
@[simp] theorem Dev.logRecord_degradedSeen (d : Dev) (r : FaultRec) : (d.logRecord r).degradedSeen = d.degradedSeen := rfl
@[simp] theorem Dev.logRecord_refRun (d : Dev) (r : FaultRec) : (d.logRecord r).refRun = d.refRun := rfl
@[simp] theorem Dev.logRecord_pllOpen (d : Dev) (r : FaultRec) : (d.logRecord r).pllOpen = d.pllOpen := rfl
@[simp] theorem Dev.logRecord_clock (d : Dev) (r : FaultRec) : (d.logRecord r).clock = d.clock := rfl
@[simp] theorem Dev.logRecord_met (d : Dev) (r : FaultRec) : (d.logRecord r).met = d.met := rfl
@[simp] theorem Dev.logRecord_fresh (d : Dev) (r : FaultRec) : (d.logRecord r).fresh = d.fresh := rfl
@[simp] theorem Dev.logRecord_out (d : Dev) (r : FaultRec) : (d.logRecord r).out = d.out := rfl
@[simp] theorem Dev.logRecord_bundleOut (d : Dev) (r : FaultRec) : (d.logRecord r).bundleOut = d.bundleOut := rfl
@[simp] theorem Dev.logRecord_feedLost (d : Dev) (r : FaultRec) : (d.logRecord r).feedLost = d.feedLost := rfl
@[simp] theorem Dev.logRecord_peerCoord (d : Dev) (r : FaultRec) : (d.logRecord r).peerCoord = d.peerCoord := rfl
@[simp] theorem Dev.logRecord_cores (d : Dev) (r : FaultRec) : (d.logRecord r).cores = d.cores := rfl
@[simp] theorem Dev.logRecord_runs (d : Dev) (r : FaultRec) : (d.logRecord r).runs = d.runs := rfl
@[simp] theorem Dev.logRecord_satRows (d : Dev) (r : FaultRec) : (d.logRecord r).satRows = d.satRows := rfl
@[simp] theorem Dev.logRecord_budgetUsed (d : Dev) (r : FaultRec) : (d.logRecord r).budgetUsed = d.budgetUsed := rfl
@[simp] theorem Dev.logRecord_cleanPasses (d : Dev) (r : FaultRec) : (d.logRecord r).cleanPasses = d.cleanPasses := rfl
@[simp] theorem Dev.logRecord_ratio (d : Dev) (r : FaultRec) : (d.logRecord r).ratio = d.ratio := rfl
@[simp] theorem Dev.logRecord_vec (d : Dev) (r : FaultRec) : (d.logRecord r).vec = d.vec := rfl
@[simp] theorem Dev.logRecord_mfb (d : Dev) (r : FaultRec) : (d.logRecord r).mfb = d.mfb := rfl
@[simp] theorem Dev.logRecord_migs (d : Dev) (r : FaultRec) : (d.logRecord r).migs = d.migs := rfl
@[simp] theorem Dev.logRecord_sramRows (d : Dev) (r : FaultRec) : (d.logRecord r).sramRows = d.sramRows := rfl
@[simp] theorem Dev.logRecord_uLive (d : Dev) (r : FaultRec) : (d.logRecord r).uLive = d.uLive := rfl
@[simp] theorem Dev.logRecord_uUnf (d : Dev) (r : FaultRec) : (d.logRecord r).uUnf = d.uUnf := rfl
@[simp] theorem Dev.logRecord_uOvf (d : Dev) (r : FaultRec) : (d.logRecord r).uOvf = d.uOvf := rfl
@[simp] theorem Dev.logRecord_shortSites (d : Dev) (r : FaultRec) : (d.logRecord r).shortSites = d.shortSites := rfl
@[simp] theorem Dev.logRecord_vlt (d : Dev) (r : FaultRec) : (d.logRecord r).vlt = d.vlt := rfl
@[simp] theorem Dev.logRecord_tgt (d : Dev) (r : FaultRec) : (d.logRecord r).tgt = d.tgt := rfl
@[simp] theorem Dev.logRecord_lim (d : Dev) (r : FaultRec) : (d.logRecord r).lim = d.lim := rfl
@[simp] theorem Dev.logRecord_car (d : Dev) (r : FaultRec) : (d.logRecord r).car = d.car := rfl
@[simp] theorem Dev.logRecord_upd (d : Dev) (r : FaultRec) : (d.logRecord r).upd = d.upd := rfl

@[simp] theorem Dev.sendReport_st (d : Dev) (r : Report) : (d.sendReport r).st = d.st := rfl
@[simp] theorem Dev.sendReport_locked (d : Dev) (r : Report) : (d.sendReport r).locked = d.locked := rfl
@[simp] theorem Dev.sendReport_regs (d : Dev) (r : Report) : (d.sendReport r).regs = d.regs := rfl
@[simp] theorem Dev.sendReport_mem (d : Dev) (r : Report) : (d.sendReport r).mem = d.mem := rfl
@[simp] theorem Dev.sendReport_poison (d : Dev) (r : Report) : (d.sendReport r).poison = d.poison := rfl
@[simp] theorem Dev.sendReport_pins (d : Dev) (r : Report) : (d.sendReport r).pins = d.pins := rfl
@[simp] theorem Dev.sendReport_boot (d : Dev) (r : Report) : (d.sendReport r).boot = d.boot := rfl
@[simp] theorem Dev.sendReport_fuses (d : Dev) (r : Report) : (d.sendReport r).fuses = d.fuses := rfl
@[simp] theorem Dev.sendReport_flash (d : Dev) (r : Report) : (d.sendReport r).flash = d.flash := rfl
@[simp] theorem Dev.sendReport_evt (d : Dev) (r : Report) : (d.sendReport r).evt = d.evt := rfl
@[simp] theorem Dev.sendReport_hq (d : Dev) (r : Report) : (d.sendReport r).hq = d.hq := rfl
@[simp] theorem Dev.sendReport_flt (d : Dev) (r : Report) : (d.sendReport r).flt = d.flt := rfl
@[simp] theorem Dev.sendReport_d2d (d : Dev) (r : Report) : (d.sendReport r).d2d = d.d2d := rfl
@[simp] theorem Dev.sendReport_opt (d : Dev) (r : Report) : (d.sendReport r).opt = d.opt := rfl
@[simp] theorem Dev.sendReport_fab (d : Dev) (r : Report) : (d.sendReport r).fab = d.fab := rfl
@[simp] theorem Dev.sendReport_stp (d : Dev) (r : Report) : (d.sendReport r).stp = d.stp := rfl
@[simp] theorem Dev.sendReport_degradedSeen (d : Dev) (r : Report) : (d.sendReport r).degradedSeen = d.degradedSeen := rfl
@[simp] theorem Dev.sendReport_refRun (d : Dev) (r : Report) : (d.sendReport r).refRun = d.refRun := rfl
@[simp] theorem Dev.sendReport_pllOpen (d : Dev) (r : Report) : (d.sendReport r).pllOpen = d.pllOpen := rfl
@[simp] theorem Dev.sendReport_clock (d : Dev) (r : Report) : (d.sendReport r).clock = d.clock := rfl
@[simp] theorem Dev.sendReport_met (d : Dev) (r : Report) : (d.sendReport r).met = d.met := rfl
@[simp] theorem Dev.sendReport_fresh (d : Dev) (r : Report) : (d.sendReport r).fresh = d.fresh := rfl
@[simp] theorem Dev.sendReport_bundleOut (d : Dev) (r : Report) : (d.sendReport r).bundleOut = d.bundleOut := rfl
@[simp] theorem Dev.sendReport_feedLost (d : Dev) (r : Report) : (d.sendReport r).feedLost = d.feedLost := rfl
@[simp] theorem Dev.sendReport_peerCoord (d : Dev) (r : Report) : (d.sendReport r).peerCoord = d.peerCoord := rfl
@[simp] theorem Dev.sendReport_cores (d : Dev) (r : Report) : (d.sendReport r).cores = d.cores := rfl
@[simp] theorem Dev.sendReport_runs (d : Dev) (r : Report) : (d.sendReport r).runs = d.runs := rfl
@[simp] theorem Dev.sendReport_satRows (d : Dev) (r : Report) : (d.sendReport r).satRows = d.satRows := rfl
@[simp] theorem Dev.sendReport_budgetUsed (d : Dev) (r : Report) : (d.sendReport r).budgetUsed = d.budgetUsed := rfl
@[simp] theorem Dev.sendReport_cleanPasses (d : Dev) (r : Report) : (d.sendReport r).cleanPasses = d.cleanPasses := rfl
@[simp] theorem Dev.sendReport_ratio (d : Dev) (r : Report) : (d.sendReport r).ratio = d.ratio := rfl
@[simp] theorem Dev.sendReport_vec (d : Dev) (r : Report) : (d.sendReport r).vec = d.vec := rfl
@[simp] theorem Dev.sendReport_mfb (d : Dev) (r : Report) : (d.sendReport r).mfb = d.mfb := rfl
@[simp] theorem Dev.sendReport_migs (d : Dev) (r : Report) : (d.sendReport r).migs = d.migs := rfl
@[simp] theorem Dev.sendReport_sramRows (d : Dev) (r : Report) : (d.sendReport r).sramRows = d.sramRows := rfl
@[simp] theorem Dev.sendReport_uLive (d : Dev) (r : Report) : (d.sendReport r).uLive = d.uLive := rfl
@[simp] theorem Dev.sendReport_uUnf (d : Dev) (r : Report) : (d.sendReport r).uUnf = d.uUnf := rfl
@[simp] theorem Dev.sendReport_uOvf (d : Dev) (r : Report) : (d.sendReport r).uOvf = d.uOvf := rfl
@[simp] theorem Dev.sendReport_shortSites (d : Dev) (r : Report) : (d.sendReport r).shortSites = d.shortSites := rfl
@[simp] theorem Dev.sendReport_vlt (d : Dev) (r : Report) : (d.sendReport r).vlt = d.vlt := rfl
@[simp] theorem Dev.sendReport_tgt (d : Dev) (r : Report) : (d.sendReport r).tgt = d.tgt := rfl
@[simp] theorem Dev.sendReport_lim (d : Dev) (r : Report) : (d.sendReport r).lim = d.lim := rfl
@[simp] theorem Dev.sendReport_car (d : Dev) (r : Report) : (d.sendReport r).car = d.car := rfl
@[simp] theorem Dev.sendReport_upd (d : Dev) (r : Report) : (d.sendReport r).upd = d.upd := rfl

@[simp] theorem Dev.pumpReports_st (n : Nat) : ∀ d : Dev, (Dev.pumpReports n d).st = d.st := by
  induction n with
  | zero => intro d; rfl
  | succ n ih => intro d; unfold Dev.pumpReports; split <;> simp [ih]

@[simp] theorem Dev.pumpReports_locked (n : Nat) : ∀ d : Dev, (Dev.pumpReports n d).locked = d.locked := by
  induction n with
  | zero => intro d; rfl
  | succ n ih => intro d; unfold Dev.pumpReports; split <;> simp [ih]

@[simp] theorem Dev.pumpReports_regs (n : Nat) : ∀ d : Dev, (Dev.pumpReports n d).regs = d.regs := by
  induction n with
  | zero => intro d; rfl
  | succ n ih => intro d; unfold Dev.pumpReports; split <;> simp [ih]

@[simp] theorem Dev.pumpReports_mem (n : Nat) : ∀ d : Dev, (Dev.pumpReports n d).mem = d.mem := by
  induction n with
  | zero => intro d; rfl
  | succ n ih => intro d; unfold Dev.pumpReports; split <;> simp [ih]

@[simp] theorem Dev.pumpReports_poison (n : Nat) : ∀ d : Dev, (Dev.pumpReports n d).poison = d.poison := by
  induction n with
  | zero => intro d; rfl
  | succ n ih => intro d; unfold Dev.pumpReports; split <;> simp [ih]

@[simp] theorem Dev.pumpReports_pins (n : Nat) : ∀ d : Dev, (Dev.pumpReports n d).pins = d.pins := by
  induction n with
  | zero => intro d; rfl
  | succ n ih => intro d; unfold Dev.pumpReports; split <;> simp [ih]

@[simp] theorem Dev.pumpReports_boot (n : Nat) : ∀ d : Dev, (Dev.pumpReports n d).boot = d.boot := by
  induction n with
  | zero => intro d; rfl
  | succ n ih => intro d; unfold Dev.pumpReports; split <;> simp [ih]

@[simp] theorem Dev.pumpReports_fuses (n : Nat) : ∀ d : Dev, (Dev.pumpReports n d).fuses = d.fuses := by
  induction n with
  | zero => intro d; rfl
  | succ n ih => intro d; unfold Dev.pumpReports; split <;> simp [ih]

@[simp] theorem Dev.pumpReports_flash (n : Nat) : ∀ d : Dev, (Dev.pumpReports n d).flash = d.flash := by
  induction n with
  | zero => intro d; rfl
  | succ n ih => intro d; unfold Dev.pumpReports; split <;> simp [ih]

@[simp] theorem Dev.pumpReports_evt (n : Nat) : ∀ d : Dev, (Dev.pumpReports n d).evt = d.evt := by
  induction n with
  | zero => intro d; rfl
  | succ n ih => intro d; unfold Dev.pumpReports; split <;> simp [ih]

@[simp] theorem Dev.pumpReports_hq (n : Nat) : ∀ d : Dev, (Dev.pumpReports n d).hq = d.hq := by
  induction n with
  | zero => intro d; rfl
  | succ n ih => intro d; unfold Dev.pumpReports; split <;> simp [ih]

@[simp] theorem Dev.pumpReports_d2d (n : Nat) : ∀ d : Dev, (Dev.pumpReports n d).d2d = d.d2d := by
  induction n with
  | zero => intro d; rfl
  | succ n ih => intro d; unfold Dev.pumpReports; split <;> simp [ih]

@[simp] theorem Dev.pumpReports_opt (n : Nat) : ∀ d : Dev, (Dev.pumpReports n d).opt = d.opt := by
  induction n with
  | zero => intro d; rfl
  | succ n ih => intro d; unfold Dev.pumpReports; split <;> simp [ih]

@[simp] theorem Dev.pumpReports_fab (n : Nat) : ∀ d : Dev, (Dev.pumpReports n d).fab = d.fab := by
  induction n with
  | zero => intro d; rfl
  | succ n ih => intro d; unfold Dev.pumpReports; split <;> simp [ih]

@[simp] theorem Dev.pumpReports_stp (n : Nat) : ∀ d : Dev, (Dev.pumpReports n d).stp = d.stp := by
  induction n with
  | zero => intro d; rfl
  | succ n ih => intro d; unfold Dev.pumpReports; split <;> simp [ih]

@[simp] theorem Dev.pumpReports_degradedSeen (n : Nat) : ∀ d : Dev, (Dev.pumpReports n d).degradedSeen = d.degradedSeen := by
  induction n with
  | zero => intro d; rfl
  | succ n ih => intro d; unfold Dev.pumpReports; split <;> simp [ih]

@[simp] theorem Dev.pumpReports_refRun (n : Nat) : ∀ d : Dev, (Dev.pumpReports n d).refRun = d.refRun := by
  induction n with
  | zero => intro d; rfl
  | succ n ih => intro d; unfold Dev.pumpReports; split <;> simp [ih]

@[simp] theorem Dev.pumpReports_pllOpen (n : Nat) : ∀ d : Dev, (Dev.pumpReports n d).pllOpen = d.pllOpen := by
  induction n with
  | zero => intro d; rfl
  | succ n ih => intro d; unfold Dev.pumpReports; split <;> simp [ih]

@[simp] theorem Dev.pumpReports_clock (n : Nat) : ∀ d : Dev, (Dev.pumpReports n d).clock = d.clock := by
  induction n with
  | zero => intro d; rfl
  | succ n ih => intro d; unfold Dev.pumpReports; split <;> simp [ih]

@[simp] theorem Dev.pumpReports_met (n : Nat) : ∀ d : Dev, (Dev.pumpReports n d).met = d.met := by
  induction n with
  | zero => intro d; rfl
  | succ n ih => intro d; unfold Dev.pumpReports; split <;> simp [ih]

@[simp] theorem Dev.pumpReports_fresh (n : Nat) : ∀ d : Dev, (Dev.pumpReports n d).fresh = d.fresh := by
  induction n with
  | zero => intro d; rfl
  | succ n ih => intro d; unfold Dev.pumpReports; split <;> simp [ih]

@[simp] theorem Dev.pumpReports_bundleOut (n : Nat) : ∀ d : Dev, (Dev.pumpReports n d).bundleOut = d.bundleOut := by
  induction n with
  | zero => intro d; rfl
  | succ n ih => intro d; unfold Dev.pumpReports; split <;> simp [ih]

@[simp] theorem Dev.pumpReports_feedLost (n : Nat) : ∀ d : Dev, (Dev.pumpReports n d).feedLost = d.feedLost := by
  induction n with
  | zero => intro d; rfl
  | succ n ih => intro d; unfold Dev.pumpReports; split <;> simp [ih]

@[simp] theorem Dev.pumpReports_peerCoord (n : Nat) : ∀ d : Dev, (Dev.pumpReports n d).peerCoord = d.peerCoord := by
  induction n with
  | zero => intro d; rfl
  | succ n ih => intro d; unfold Dev.pumpReports; split <;> simp [ih]

@[simp] theorem Dev.pumpReports_cores (n : Nat) : ∀ d : Dev, (Dev.pumpReports n d).cores = d.cores := by
  induction n with
  | zero => intro d; rfl
  | succ n ih => intro d; unfold Dev.pumpReports; split <;> simp [ih]

@[simp] theorem Dev.pumpReports_runs (n : Nat) : ∀ d : Dev, (Dev.pumpReports n d).runs = d.runs := by
  induction n with
  | zero => intro d; rfl
  | succ n ih => intro d; unfold Dev.pumpReports; split <;> simp [ih]

@[simp] theorem Dev.pumpReports_satRows (n : Nat) : ∀ d : Dev, (Dev.pumpReports n d).satRows = d.satRows := by
  induction n with
  | zero => intro d; rfl
  | succ n ih => intro d; unfold Dev.pumpReports; split <;> simp [ih]

@[simp] theorem Dev.pumpReports_budgetUsed (n : Nat) : ∀ d : Dev, (Dev.pumpReports n d).budgetUsed = d.budgetUsed := by
  induction n with
  | zero => intro d; rfl
  | succ n ih => intro d; unfold Dev.pumpReports; split <;> simp [ih]

@[simp] theorem Dev.pumpReports_cleanPasses (n : Nat) : ∀ d : Dev, (Dev.pumpReports n d).cleanPasses = d.cleanPasses := by
  induction n with
  | zero => intro d; rfl
  | succ n ih => intro d; unfold Dev.pumpReports; split <;> simp [ih]

@[simp] theorem Dev.pumpReports_ratio (n : Nat) : ∀ d : Dev, (Dev.pumpReports n d).ratio = d.ratio := by
  induction n with
  | zero => intro d; rfl
  | succ n ih => intro d; unfold Dev.pumpReports; split <;> simp [ih]

@[simp] theorem Dev.pumpReports_vec (n : Nat) : ∀ d : Dev, (Dev.pumpReports n d).vec = d.vec := by
  induction n with
  | zero => intro d; rfl
  | succ n ih => intro d; unfold Dev.pumpReports; split <;> simp [ih]

@[simp] theorem Dev.pumpReports_mfb (n : Nat) : ∀ d : Dev, (Dev.pumpReports n d).mfb = d.mfb := by
  induction n with
  | zero => intro d; rfl
  | succ n ih => intro d; unfold Dev.pumpReports; split <;> simp [ih]

@[simp] theorem Dev.pumpReports_migs (n : Nat) : ∀ d : Dev, (Dev.pumpReports n d).migs = d.migs := by
  induction n with
  | zero => intro d; rfl
  | succ n ih => intro d; unfold Dev.pumpReports; split <;> simp [ih]

@[simp] theorem Dev.pumpReports_sramRows (n : Nat) : ∀ d : Dev, (Dev.pumpReports n d).sramRows = d.sramRows := by
  induction n with
  | zero => intro d; rfl
  | succ n ih => intro d; unfold Dev.pumpReports; split <;> simp [ih]

@[simp] theorem Dev.pumpReports_uLive (n : Nat) : ∀ d : Dev, (Dev.pumpReports n d).uLive = d.uLive := by
  induction n with
  | zero => intro d; rfl
  | succ n ih => intro d; unfold Dev.pumpReports; split <;> simp [ih]

@[simp] theorem Dev.pumpReports_uUnf (n : Nat) : ∀ d : Dev, (Dev.pumpReports n d).uUnf = d.uUnf := by
  induction n with
  | zero => intro d; rfl
  | succ n ih => intro d; unfold Dev.pumpReports; split <;> simp [ih]

@[simp] theorem Dev.pumpReports_uOvf (n : Nat) : ∀ d : Dev, (Dev.pumpReports n d).uOvf = d.uOvf := by
  induction n with
  | zero => intro d; rfl
  | succ n ih => intro d; unfold Dev.pumpReports; split <;> simp [ih]

@[simp] theorem Dev.pumpReports_shortSites (n : Nat) : ∀ d : Dev, (Dev.pumpReports n d).shortSites = d.shortSites := by
  induction n with
  | zero => intro d; rfl
  | succ n ih => intro d; unfold Dev.pumpReports; split <;> simp [ih]

@[simp] theorem Dev.pumpReports_vlt (n : Nat) : ∀ d : Dev, (Dev.pumpReports n d).vlt = d.vlt := by
  induction n with
  | zero => intro d; rfl
  | succ n ih => intro d; unfold Dev.pumpReports; split <;> simp [ih]

@[simp] theorem Dev.pumpReports_tgt (n : Nat) : ∀ d : Dev, (Dev.pumpReports n d).tgt = d.tgt := by
  induction n with
  | zero => intro d; rfl
  | succ n ih => intro d; unfold Dev.pumpReports; split <;> simp [ih]

@[simp] theorem Dev.pumpReports_lim (n : Nat) : ∀ d : Dev, (Dev.pumpReports n d).lim = d.lim := by
  induction n with
  | zero => intro d; rfl
  | succ n ih => intro d; unfold Dev.pumpReports; split <;> simp [ih]

@[simp] theorem Dev.pumpReports_car (n : Nat) : ∀ d : Dev, (Dev.pumpReports n d).car = d.car := by
  induction n with
  | zero => intro d; rfl
  | succ n ih => intro d; unfold Dev.pumpReports; split <;> simp [ih]

@[simp] theorem Dev.pumpReports_upd (n : Nat) : ∀ d : Dev, (Dev.pumpReports n d).upd = d.upd := by
  induction n with
  | zero => intro d; rfl
  | succ n ih => intro d; unfold Dev.pumpReports; split <;> simp [ih]

@[simp] theorem Dev.record_st (d : Dev) (r : FaultRec) : (d.record r).st = d.st := by
  unfold Dev.record; split <;> simp

@[simp] theorem Dev.record_locked (d : Dev) (r : FaultRec) : (d.record r).locked = d.locked := by
  unfold Dev.record; split <;> simp

@[simp] theorem Dev.record_poison (d : Dev) (r : FaultRec) : (d.record r).poison = d.poison := by
  unfold Dev.record; split <;> simp

@[simp] theorem Dev.record_pins (d : Dev) (r : FaultRec) : (d.record r).pins = d.pins := by
  unfold Dev.record; split <;> simp

@[simp] theorem Dev.record_boot (d : Dev) (r : FaultRec) : (d.record r).boot = d.boot := by
  unfold Dev.record; split <;> simp

@[simp] theorem Dev.record_fuses (d : Dev) (r : FaultRec) : (d.record r).fuses = d.fuses := by
  unfold Dev.record; split <;> simp

@[simp] theorem Dev.record_flash (d : Dev) (r : FaultRec) : (d.record r).flash = d.flash := by
  unfold Dev.record; split <;> simp

@[simp] theorem Dev.record_evt (d : Dev) (r : FaultRec) : (d.record r).evt = d.evt := by
  unfold Dev.record; split <;> simp

@[simp] theorem Dev.record_d2d (d : Dev) (r : FaultRec) : (d.record r).d2d = d.d2d := by
  unfold Dev.record; split <;> simp

@[simp] theorem Dev.record_opt (d : Dev) (r : FaultRec) : (d.record r).opt = d.opt := by
  unfold Dev.record; split <;> simp

@[simp] theorem Dev.record_fab (d : Dev) (r : FaultRec) : (d.record r).fab = d.fab := by
  unfold Dev.record; split <;> simp

@[simp] theorem Dev.record_stp (d : Dev) (r : FaultRec) : (d.record r).stp = d.stp := by
  unfold Dev.record; split <;> simp

@[simp] theorem Dev.record_degradedSeen (d : Dev) (r : FaultRec) : (d.record r).degradedSeen = d.degradedSeen := by
  unfold Dev.record; split <;> simp

@[simp] theorem Dev.record_refRun (d : Dev) (r : FaultRec) : (d.record r).refRun = d.refRun := by
  unfold Dev.record; split <;> simp

@[simp] theorem Dev.record_pllOpen (d : Dev) (r : FaultRec) : (d.record r).pllOpen = d.pllOpen := by
  unfold Dev.record; split <;> simp

@[simp] theorem Dev.record_clock (d : Dev) (r : FaultRec) : (d.record r).clock = d.clock := by
  unfold Dev.record; split <;> simp

@[simp] theorem Dev.record_met (d : Dev) (r : FaultRec) : (d.record r).met = d.met := by
  unfold Dev.record; split <;> simp

@[simp] theorem Dev.record_fresh (d : Dev) (r : FaultRec) : (d.record r).fresh = d.fresh := by
  unfold Dev.record; split <;> simp

@[simp] theorem Dev.record_bundleOut (d : Dev) (r : FaultRec) : (d.record r).bundleOut = d.bundleOut := by
  unfold Dev.record; split <;> simp

@[simp] theorem Dev.record_feedLost (d : Dev) (r : FaultRec) : (d.record r).feedLost = d.feedLost := by
  unfold Dev.record; split <;> simp

@[simp] theorem Dev.record_peerCoord (d : Dev) (r : FaultRec) : (d.record r).peerCoord = d.peerCoord := by
  unfold Dev.record; split <;> simp

@[simp] theorem Dev.record_cores (d : Dev) (r : FaultRec) : (d.record r).cores = d.cores := by
  unfold Dev.record; split <;> simp

@[simp] theorem Dev.record_runs (d : Dev) (r : FaultRec) : (d.record r).runs = d.runs := by
  unfold Dev.record; split <;> simp

@[simp] theorem Dev.record_satRows (d : Dev) (r : FaultRec) : (d.record r).satRows = d.satRows := by
  unfold Dev.record; split <;> simp

@[simp] theorem Dev.record_budgetUsed (d : Dev) (r : FaultRec) : (d.record r).budgetUsed = d.budgetUsed := by
  unfold Dev.record; split <;> simp

@[simp] theorem Dev.record_cleanPasses (d : Dev) (r : FaultRec) : (d.record r).cleanPasses = d.cleanPasses := by
  unfold Dev.record; split <;> simp

@[simp] theorem Dev.record_ratio (d : Dev) (r : FaultRec) : (d.record r).ratio = d.ratio := by
  unfold Dev.record; split <;> simp

@[simp] theorem Dev.record_vec (d : Dev) (r : FaultRec) : (d.record r).vec = d.vec := by
  unfold Dev.record; split <;> simp

@[simp] theorem Dev.record_mfb (d : Dev) (r : FaultRec) : (d.record r).mfb = d.mfb := by
  unfold Dev.record; split <;> simp

@[simp] theorem Dev.record_migs (d : Dev) (r : FaultRec) : (d.record r).migs = d.migs := by
  unfold Dev.record; split <;> simp

@[simp] theorem Dev.record_sramRows (d : Dev) (r : FaultRec) : (d.record r).sramRows = d.sramRows := by
  unfold Dev.record; split <;> simp

@[simp] theorem Dev.record_uLive (d : Dev) (r : FaultRec) : (d.record r).uLive = d.uLive := by
  unfold Dev.record; split <;> simp

@[simp] theorem Dev.record_uUnf (d : Dev) (r : FaultRec) : (d.record r).uUnf = d.uUnf := by
  unfold Dev.record; split <;> simp

@[simp] theorem Dev.record_uOvf (d : Dev) (r : FaultRec) : (d.record r).uOvf = d.uOvf := by
  unfold Dev.record; split <;> simp

@[simp] theorem Dev.record_shortSites (d : Dev) (r : FaultRec) : (d.record r).shortSites = d.shortSites := by
  unfold Dev.record; split <;> simp

@[simp] theorem Dev.record_vlt (d : Dev) (r : FaultRec) : (d.record r).vlt = d.vlt := by
  unfold Dev.record; split <;> simp

@[simp] theorem Dev.record_tgt (d : Dev) (r : FaultRec) : (d.record r).tgt = d.tgt := by
  unfold Dev.record; split <;> simp

@[simp] theorem Dev.record_lim (d : Dev) (r : FaultRec) : (d.record r).lim = d.lim := by
  unfold Dev.record; split <;> simp

@[simp] theorem Dev.record_car (d : Dev) (r : FaultRec) : (d.record r).car = d.car := by
  unfold Dev.record; split <;> simp

@[simp] theorem Dev.record_upd (d : Dev) (r : FaultRec) : (d.record r).upd = d.upd := by
  unfold Dev.record; split <;> simp

/-- A record changes no register field but FLT_LOG_HEAD.COUNT, GLB_STATE_CHANGE.RECORD and FLT_MGMT_STATUS.DROPPED. -/
theorem Dev.fld_record (d : Dev) (r : FaultRec) {f : Field} (h1 : f.key ≠ Reg.FLT_LOG_HEAD.COUNT.key)
    (h2 : f.key ≠ Reg.GLB_STATE_CHANGE.RECORD.key) (h3 : f.key ≠ Reg.FLT_MGMT_STATUS.DROPPED.key) :
    (d.record r).fld f = d.fld f := by
  unfold Dev.record
  split
  · rfl
  · simp only [Dev.fld, Dev.pumpReports_regs, Dev.msix_regs, Dev.logRecord]
    rw [Tab.get_set_other _ _ _ _ h3, Tab.get_set_other _ _ _ _ h2, Tab.get_set_other _ _ _ _ h1]

/-! ### Flags, reasons and states -/

@[simp] theorem Dev.refreshFlags_st (d : Dev) : d.refreshFlags.st = d.st := by
  unfold Dev.refreshFlags; split <;> simp

@[simp] theorem Dev.refreshFlags_locked (d : Dev) : d.refreshFlags.locked = d.locked := by
  unfold Dev.refreshFlags; split <;> simp

@[simp] theorem Dev.refreshFlags_mem (d : Dev) : d.refreshFlags.mem = d.mem := by
  unfold Dev.refreshFlags; split <;> simp

@[simp] theorem Dev.refreshFlags_poison (d : Dev) : d.refreshFlags.poison = d.poison := by
  unfold Dev.refreshFlags; split <;> simp

@[simp] theorem Dev.refreshFlags_pins (d : Dev) : d.refreshFlags.pins = d.pins := by
  unfold Dev.refreshFlags; split <;> simp

@[simp] theorem Dev.refreshFlags_boot (d : Dev) : d.refreshFlags.boot = d.boot := by
  unfold Dev.refreshFlags; split <;> simp

@[simp] theorem Dev.refreshFlags_fuses (d : Dev) : d.refreshFlags.fuses = d.fuses := by
  unfold Dev.refreshFlags; split <;> simp

@[simp] theorem Dev.refreshFlags_flash (d : Dev) : d.refreshFlags.flash = d.flash := by
  unfold Dev.refreshFlags; split <;> simp

@[simp] theorem Dev.refreshFlags_evt (d : Dev) : d.refreshFlags.evt = d.evt := by
  unfold Dev.refreshFlags; split <;> simp

@[simp] theorem Dev.refreshFlags_flt (d : Dev) : d.refreshFlags.flt = d.flt := by
  unfold Dev.refreshFlags; split <;> simp

@[simp] theorem Dev.refreshFlags_d2d (d : Dev) : d.refreshFlags.d2d = d.d2d := by
  unfold Dev.refreshFlags; split <;> simp

@[simp] theorem Dev.refreshFlags_opt (d : Dev) : d.refreshFlags.opt = d.opt := by
  unfold Dev.refreshFlags; split <;> simp

@[simp] theorem Dev.refreshFlags_fab (d : Dev) : d.refreshFlags.fab = d.fab := by
  unfold Dev.refreshFlags; split <;> simp

@[simp] theorem Dev.refreshFlags_stp (d : Dev) : d.refreshFlags.stp = d.stp := by
  unfold Dev.refreshFlags; split <;> simp

@[simp] theorem Dev.refreshFlags_refRun (d : Dev) : d.refreshFlags.refRun = d.refRun := by
  unfold Dev.refreshFlags; split <;> simp

@[simp] theorem Dev.refreshFlags_pllOpen (d : Dev) : d.refreshFlags.pllOpen = d.pllOpen := by
  unfold Dev.refreshFlags; split <;> simp

@[simp] theorem Dev.refreshFlags_clock (d : Dev) : d.refreshFlags.clock = d.clock := by
  unfold Dev.refreshFlags; split <;> simp

@[simp] theorem Dev.refreshFlags_met (d : Dev) : d.refreshFlags.met = d.met := by
  unfold Dev.refreshFlags; split <;> simp

@[simp] theorem Dev.refreshFlags_fresh (d : Dev) : d.refreshFlags.fresh = d.fresh := by
  unfold Dev.refreshFlags; split <;> simp

@[simp] theorem Dev.refreshFlags_bundleOut (d : Dev) : d.refreshFlags.bundleOut = d.bundleOut := by
  unfold Dev.refreshFlags; split <;> simp

@[simp] theorem Dev.refreshFlags_feedLost (d : Dev) : d.refreshFlags.feedLost = d.feedLost := by
  unfold Dev.refreshFlags; split <;> simp

@[simp] theorem Dev.refreshFlags_peerCoord (d : Dev) : d.refreshFlags.peerCoord = d.peerCoord := by
  unfold Dev.refreshFlags; split <;> simp

@[simp] theorem Dev.refreshFlags_cores (d : Dev) : d.refreshFlags.cores = d.cores := by
  unfold Dev.refreshFlags; split <;> simp

@[simp] theorem Dev.refreshFlags_runs (d : Dev) : d.refreshFlags.runs = d.runs := by
  unfold Dev.refreshFlags; split <;> simp

@[simp] theorem Dev.refreshFlags_satRows (d : Dev) : d.refreshFlags.satRows = d.satRows := by
  unfold Dev.refreshFlags; split <;> simp

@[simp] theorem Dev.refreshFlags_budgetUsed (d : Dev) : d.refreshFlags.budgetUsed = d.budgetUsed := by
  unfold Dev.refreshFlags; split <;> simp

@[simp] theorem Dev.refreshFlags_cleanPasses (d : Dev) : d.refreshFlags.cleanPasses = d.cleanPasses := by
  unfold Dev.refreshFlags; split <;> simp

@[simp] theorem Dev.refreshFlags_ratio (d : Dev) : d.refreshFlags.ratio = d.ratio := by
  unfold Dev.refreshFlags; split <;> simp

@[simp] theorem Dev.refreshFlags_vec (d : Dev) : d.refreshFlags.vec = d.vec := by
  unfold Dev.refreshFlags; split <;> simp

@[simp] theorem Dev.refreshFlags_mfb (d : Dev) : d.refreshFlags.mfb = d.mfb := by
  unfold Dev.refreshFlags; split <;> simp

@[simp] theorem Dev.refreshFlags_migs (d : Dev) : d.refreshFlags.migs = d.migs := by
  unfold Dev.refreshFlags; split <;> simp

@[simp] theorem Dev.refreshFlags_sramRows (d : Dev) : d.refreshFlags.sramRows = d.sramRows := by
  unfold Dev.refreshFlags; split <;> simp

@[simp] theorem Dev.refreshFlags_uLive (d : Dev) : d.refreshFlags.uLive = d.uLive := by
  unfold Dev.refreshFlags; split <;> simp

@[simp] theorem Dev.refreshFlags_uUnf (d : Dev) : d.refreshFlags.uUnf = d.uUnf := by
  unfold Dev.refreshFlags; split <;> simp

@[simp] theorem Dev.refreshFlags_uOvf (d : Dev) : d.refreshFlags.uOvf = d.uOvf := by
  unfold Dev.refreshFlags; split <;> simp

@[simp] theorem Dev.refreshFlags_shortSites (d : Dev) : d.refreshFlags.shortSites = d.shortSites := by
  unfold Dev.refreshFlags; split <;> simp

@[simp] theorem Dev.refreshFlags_vlt (d : Dev) : d.refreshFlags.vlt = d.vlt := by
  unfold Dev.refreshFlags; split <;> simp

@[simp] theorem Dev.refreshFlags_tgt (d : Dev) : d.refreshFlags.tgt = d.tgt := by
  unfold Dev.refreshFlags; split <;> simp

@[simp] theorem Dev.refreshFlags_lim (d : Dev) : d.refreshFlags.lim = d.lim := by
  unfold Dev.refreshFlags; split <;> simp

@[simp] theorem Dev.refreshFlags_car (d : Dev) : d.refreshFlags.car = d.car := by
  unfold Dev.refreshFlags; split <;> simp

@[simp] theorem Dev.refreshFlags_upd (d : Dev) : d.refreshFlags.upd = d.upd := by
  unfold Dev.refreshFlags; split <;> simp

@[simp] theorem Dev.setState_locked (d : Dev) (st : DevState) : (d.setState st).locked = d.locked := (rfl)
@[simp] theorem Dev.setState_mem (d : Dev) (st : DevState) : (d.setState st).mem = d.mem := (rfl)
@[simp] theorem Dev.setState_poison (d : Dev) (st : DevState) : (d.setState st).poison = d.poison := (rfl)
@[simp] theorem Dev.setState_pins (d : Dev) (st : DevState) : (d.setState st).pins = d.pins := (rfl)
@[simp] theorem Dev.setState_boot (d : Dev) (st : DevState) : (d.setState st).boot = d.boot := (rfl)
@[simp] theorem Dev.setState_fuses (d : Dev) (st : DevState) : (d.setState st).fuses = d.fuses := (rfl)
@[simp] theorem Dev.setState_flash (d : Dev) (st : DevState) : (d.setState st).flash = d.flash := (rfl)
@[simp] theorem Dev.setState_evt (d : Dev) (st : DevState) : (d.setState st).evt = d.evt := (rfl)
@[simp] theorem Dev.setState_flt (d : Dev) (st : DevState) : (d.setState st).flt = d.flt := (rfl)
@[simp] theorem Dev.setState_d2d (d : Dev) (st : DevState) : (d.setState st).d2d = d.d2d := (rfl)
@[simp] theorem Dev.setState_opt (d : Dev) (st : DevState) : (d.setState st).opt = d.opt := (rfl)
@[simp] theorem Dev.setState_fab (d : Dev) (st : DevState) : (d.setState st).fab = d.fab := (rfl)
@[simp] theorem Dev.setState_stp (d : Dev) (st : DevState) : (d.setState st).stp = d.stp := (rfl)
@[simp] theorem Dev.setState_degradedSeen (d : Dev) (st : DevState) : (d.setState st).degradedSeen = d.degradedSeen := (rfl)
@[simp] theorem Dev.setState_refRun (d : Dev) (st : DevState) : (d.setState st).refRun = d.refRun := (rfl)
@[simp] theorem Dev.setState_pllOpen (d : Dev) (st : DevState) : (d.setState st).pllOpen = d.pllOpen := (rfl)
@[simp] theorem Dev.setState_clock (d : Dev) (st : DevState) : (d.setState st).clock = d.clock := (rfl)
@[simp] theorem Dev.setState_met (d : Dev) (st : DevState) : (d.setState st).met = d.met := (rfl)
@[simp] theorem Dev.setState_fresh (d : Dev) (st : DevState) : (d.setState st).fresh = d.fresh := (rfl)
@[simp] theorem Dev.setState_bundleOut (d : Dev) (st : DevState) : (d.setState st).bundleOut = d.bundleOut := (rfl)
@[simp] theorem Dev.setState_feedLost (d : Dev) (st : DevState) : (d.setState st).feedLost = d.feedLost := (rfl)
@[simp] theorem Dev.setState_peerCoord (d : Dev) (st : DevState) : (d.setState st).peerCoord = d.peerCoord := (rfl)
@[simp] theorem Dev.setState_cores (d : Dev) (st : DevState) : (d.setState st).cores = d.cores := (rfl)
@[simp] theorem Dev.setState_runs (d : Dev) (st : DevState) : (d.setState st).runs = d.runs := (rfl)
@[simp] theorem Dev.setState_satRows (d : Dev) (st : DevState) : (d.setState st).satRows = d.satRows := (rfl)
@[simp] theorem Dev.setState_budgetUsed (d : Dev) (st : DevState) : (d.setState st).budgetUsed = d.budgetUsed := (rfl)
@[simp] theorem Dev.setState_cleanPasses (d : Dev) (st : DevState) : (d.setState st).cleanPasses = d.cleanPasses := (rfl)
@[simp] theorem Dev.setState_ratio (d : Dev) (st : DevState) : (d.setState st).ratio = d.ratio := (rfl)
@[simp] theorem Dev.setState_vec (d : Dev) (st : DevState) : (d.setState st).vec = d.vec := (rfl)
@[simp] theorem Dev.setState_mfb (d : Dev) (st : DevState) : (d.setState st).mfb = d.mfb := (rfl)
@[simp] theorem Dev.setState_migs (d : Dev) (st : DevState) : (d.setState st).migs = d.migs := (rfl)
@[simp] theorem Dev.setState_sramRows (d : Dev) (st : DevState) : (d.setState st).sramRows = d.sramRows := (rfl)
@[simp] theorem Dev.setState_uLive (d : Dev) (st : DevState) : (d.setState st).uLive = d.uLive := (rfl)
@[simp] theorem Dev.setState_uUnf (d : Dev) (st : DevState) : (d.setState st).uUnf = d.uUnf := (rfl)
@[simp] theorem Dev.setState_uOvf (d : Dev) (st : DevState) : (d.setState st).uOvf = d.uOvf := (rfl)
@[simp] theorem Dev.setState_shortSites (d : Dev) (st : DevState) : (d.setState st).shortSites = d.shortSites := (rfl)
@[simp] theorem Dev.setState_vlt (d : Dev) (st : DevState) : (d.setState st).vlt = d.vlt := (rfl)
@[simp] theorem Dev.setState_tgt (d : Dev) (st : DevState) : (d.setState st).tgt = d.tgt := (rfl)
@[simp] theorem Dev.setState_lim (d : Dev) (st : DevState) : (d.setState st).lim = d.lim := (rfl)
@[simp] theorem Dev.setState_car (d : Dev) (st : DevState) : (d.setState st).car = d.car := (rfl)
@[simp] theorem Dev.setState_upd (d : Dev) (st : DevState) : (d.setState st).upd = d.upd := (rfl)

@[simp] theorem Dev.setState_st (d : Dev) (st : DevState) : (d.setState st).st = st := (rfl)

@[simp] theorem Dev.setReason_st (d : Dev) (i : Nat) : (d.setReason i).st = d.st := by
  unfold Dev.setReason; split <;> simp

@[simp] theorem Dev.setReason_locked (d : Dev) (i : Nat) : (d.setReason i).locked = d.locked := by
  unfold Dev.setReason; split <;> simp

@[simp] theorem Dev.setReason_poison (d : Dev) (i : Nat) : (d.setReason i).poison = d.poison := by
  unfold Dev.setReason; split <;> simp

@[simp] theorem Dev.setReason_pins (d : Dev) (i : Nat) : (d.setReason i).pins = d.pins := by
  unfold Dev.setReason; split <;> simp

@[simp] theorem Dev.setReason_boot (d : Dev) (i : Nat) : (d.setReason i).boot = d.boot := by
  unfold Dev.setReason; split <;> simp

@[simp] theorem Dev.setReason_fuses (d : Dev) (i : Nat) : (d.setReason i).fuses = d.fuses := by
  unfold Dev.setReason; split <;> simp

@[simp] theorem Dev.setReason_flash (d : Dev) (i : Nat) : (d.setReason i).flash = d.flash := by
  unfold Dev.setReason; split <;> simp

@[simp] theorem Dev.setReason_evt (d : Dev) (i : Nat) : (d.setReason i).evt = d.evt := by
  unfold Dev.setReason; split <;> simp

@[simp] theorem Dev.setReason_d2d (d : Dev) (i : Nat) : (d.setReason i).d2d = d.d2d := by
  unfold Dev.setReason; split <;> simp

@[simp] theorem Dev.setReason_opt (d : Dev) (i : Nat) : (d.setReason i).opt = d.opt := by
  unfold Dev.setReason; split <;> simp

@[simp] theorem Dev.setReason_fab (d : Dev) (i : Nat) : (d.setReason i).fab = d.fab := by
  unfold Dev.setReason; split <;> simp

@[simp] theorem Dev.setReason_stp (d : Dev) (i : Nat) : (d.setReason i).stp = d.stp := by
  unfold Dev.setReason; split <;> simp

@[simp] theorem Dev.setReason_degradedSeen (d : Dev) (i : Nat) : (d.setReason i).degradedSeen = d.degradedSeen := by
  unfold Dev.setReason; split <;> simp

@[simp] theorem Dev.setReason_refRun (d : Dev) (i : Nat) : (d.setReason i).refRun = d.refRun := by
  unfold Dev.setReason; split <;> simp

@[simp] theorem Dev.setReason_pllOpen (d : Dev) (i : Nat) : (d.setReason i).pllOpen = d.pllOpen := by
  unfold Dev.setReason; split <;> simp

@[simp] theorem Dev.setReason_clock (d : Dev) (i : Nat) : (d.setReason i).clock = d.clock := by
  unfold Dev.setReason; split <;> simp

@[simp] theorem Dev.setReason_met (d : Dev) (i : Nat) : (d.setReason i).met = d.met := by
  unfold Dev.setReason; split <;> simp

@[simp] theorem Dev.setReason_fresh (d : Dev) (i : Nat) : (d.setReason i).fresh = d.fresh := by
  unfold Dev.setReason; split <;> simp

@[simp] theorem Dev.setReason_bundleOut (d : Dev) (i : Nat) : (d.setReason i).bundleOut = d.bundleOut := by
  unfold Dev.setReason; split <;> simp

@[simp] theorem Dev.setReason_feedLost (d : Dev) (i : Nat) : (d.setReason i).feedLost = d.feedLost := by
  unfold Dev.setReason; split <;> simp

@[simp] theorem Dev.setReason_peerCoord (d : Dev) (i : Nat) : (d.setReason i).peerCoord = d.peerCoord := by
  unfold Dev.setReason; split <;> simp

@[simp] theorem Dev.setReason_cores (d : Dev) (i : Nat) : (d.setReason i).cores = d.cores := by
  unfold Dev.setReason; split <;> simp

@[simp] theorem Dev.setReason_runs (d : Dev) (i : Nat) : (d.setReason i).runs = d.runs := by
  unfold Dev.setReason; split <;> simp

@[simp] theorem Dev.setReason_satRows (d : Dev) (i : Nat) : (d.setReason i).satRows = d.satRows := by
  unfold Dev.setReason; split <;> simp

@[simp] theorem Dev.setReason_budgetUsed (d : Dev) (i : Nat) : (d.setReason i).budgetUsed = d.budgetUsed := by
  unfold Dev.setReason; split <;> simp

@[simp] theorem Dev.setReason_cleanPasses (d : Dev) (i : Nat) : (d.setReason i).cleanPasses = d.cleanPasses := by
  unfold Dev.setReason; split <;> simp

@[simp] theorem Dev.setReason_ratio (d : Dev) (i : Nat) : (d.setReason i).ratio = d.ratio := by
  unfold Dev.setReason; split <;> simp

@[simp] theorem Dev.setReason_vec (d : Dev) (i : Nat) : (d.setReason i).vec = d.vec := by
  unfold Dev.setReason; split <;> simp

@[simp] theorem Dev.setReason_mfb (d : Dev) (i : Nat) : (d.setReason i).mfb = d.mfb := by
  unfold Dev.setReason; split <;> simp

@[simp] theorem Dev.setReason_migs (d : Dev) (i : Nat) : (d.setReason i).migs = d.migs := by
  unfold Dev.setReason; split <;> simp

@[simp] theorem Dev.setReason_sramRows (d : Dev) (i : Nat) : (d.setReason i).sramRows = d.sramRows := by
  unfold Dev.setReason; split <;> simp

@[simp] theorem Dev.setReason_uLive (d : Dev) (i : Nat) : (d.setReason i).uLive = d.uLive := by
  unfold Dev.setReason; split <;> simp

@[simp] theorem Dev.setReason_uUnf (d : Dev) (i : Nat) : (d.setReason i).uUnf = d.uUnf := by
  unfold Dev.setReason; split <;> simp

@[simp] theorem Dev.setReason_uOvf (d : Dev) (i : Nat) : (d.setReason i).uOvf = d.uOvf := by
  unfold Dev.setReason; split <;> simp

@[simp] theorem Dev.setReason_shortSites (d : Dev) (i : Nat) : (d.setReason i).shortSites = d.shortSites := by
  unfold Dev.setReason; split <;> simp

@[simp] theorem Dev.setReason_vlt (d : Dev) (i : Nat) : (d.setReason i).vlt = d.vlt := by
  unfold Dev.setReason; split <;> simp

@[simp] theorem Dev.setReason_tgt (d : Dev) (i : Nat) : (d.setReason i).tgt = d.tgt := by
  unfold Dev.setReason; split <;> simp

@[simp] theorem Dev.setReason_lim (d : Dev) (i : Nat) : (d.setReason i).lim = d.lim := by
  unfold Dev.setReason; split <;> simp

@[simp] theorem Dev.setReason_car (d : Dev) (i : Nat) : (d.setReason i).car = d.car := by
  unfold Dev.setReason; split <;> simp

@[simp] theorem Dev.setReason_upd (d : Dev) (i : Nat) : (d.setReason i).upd = d.upd := by
  unfold Dev.setReason; split <;> simp

@[simp] theorem Dev.clearReason_st (d : Dev) (i : Nat) : (d.clearReason i).st = d.st := by
  unfold Dev.clearReason; split <;> simp

@[simp] theorem Dev.clearReason_locked (d : Dev) (i : Nat) : (d.clearReason i).locked = d.locked := by
  unfold Dev.clearReason; split <;> simp

@[simp] theorem Dev.clearReason_poison (d : Dev) (i : Nat) : (d.clearReason i).poison = d.poison := by
  unfold Dev.clearReason; split <;> simp

@[simp] theorem Dev.clearReason_pins (d : Dev) (i : Nat) : (d.clearReason i).pins = d.pins := by
  unfold Dev.clearReason; split <;> simp

@[simp] theorem Dev.clearReason_boot (d : Dev) (i : Nat) : (d.clearReason i).boot = d.boot := by
  unfold Dev.clearReason; split <;> simp

@[simp] theorem Dev.clearReason_fuses (d : Dev) (i : Nat) : (d.clearReason i).fuses = d.fuses := by
  unfold Dev.clearReason; split <;> simp

@[simp] theorem Dev.clearReason_flash (d : Dev) (i : Nat) : (d.clearReason i).flash = d.flash := by
  unfold Dev.clearReason; split <;> simp

@[simp] theorem Dev.clearReason_evt (d : Dev) (i : Nat) : (d.clearReason i).evt = d.evt := by
  unfold Dev.clearReason; split <;> simp

@[simp] theorem Dev.clearReason_d2d (d : Dev) (i : Nat) : (d.clearReason i).d2d = d.d2d := by
  unfold Dev.clearReason; split <;> simp

@[simp] theorem Dev.clearReason_opt (d : Dev) (i : Nat) : (d.clearReason i).opt = d.opt := by
  unfold Dev.clearReason; split <;> simp

@[simp] theorem Dev.clearReason_fab (d : Dev) (i : Nat) : (d.clearReason i).fab = d.fab := by
  unfold Dev.clearReason; split <;> simp

@[simp] theorem Dev.clearReason_stp (d : Dev) (i : Nat) : (d.clearReason i).stp = d.stp := by
  unfold Dev.clearReason; split <;> simp

@[simp] theorem Dev.clearReason_degradedSeen (d : Dev) (i : Nat) : (d.clearReason i).degradedSeen = d.degradedSeen := by
  unfold Dev.clearReason; split <;> simp

@[simp] theorem Dev.clearReason_refRun (d : Dev) (i : Nat) : (d.clearReason i).refRun = d.refRun := by
  unfold Dev.clearReason; split <;> simp

@[simp] theorem Dev.clearReason_pllOpen (d : Dev) (i : Nat) : (d.clearReason i).pllOpen = d.pllOpen := by
  unfold Dev.clearReason; split <;> simp

@[simp] theorem Dev.clearReason_clock (d : Dev) (i : Nat) : (d.clearReason i).clock = d.clock := by
  unfold Dev.clearReason; split <;> simp

@[simp] theorem Dev.clearReason_met (d : Dev) (i : Nat) : (d.clearReason i).met = d.met := by
  unfold Dev.clearReason; split <;> simp

@[simp] theorem Dev.clearReason_fresh (d : Dev) (i : Nat) : (d.clearReason i).fresh = d.fresh := by
  unfold Dev.clearReason; split <;> simp

@[simp] theorem Dev.clearReason_bundleOut (d : Dev) (i : Nat) : (d.clearReason i).bundleOut = d.bundleOut := by
  unfold Dev.clearReason; split <;> simp

@[simp] theorem Dev.clearReason_feedLost (d : Dev) (i : Nat) : (d.clearReason i).feedLost = d.feedLost := by
  unfold Dev.clearReason; split <;> simp

@[simp] theorem Dev.clearReason_peerCoord (d : Dev) (i : Nat) : (d.clearReason i).peerCoord = d.peerCoord := by
  unfold Dev.clearReason; split <;> simp

@[simp] theorem Dev.clearReason_cores (d : Dev) (i : Nat) : (d.clearReason i).cores = d.cores := by
  unfold Dev.clearReason; split <;> simp

@[simp] theorem Dev.clearReason_runs (d : Dev) (i : Nat) : (d.clearReason i).runs = d.runs := by
  unfold Dev.clearReason; split <;> simp

@[simp] theorem Dev.clearReason_satRows (d : Dev) (i : Nat) : (d.clearReason i).satRows = d.satRows := by
  unfold Dev.clearReason; split <;> simp

@[simp] theorem Dev.clearReason_budgetUsed (d : Dev) (i : Nat) : (d.clearReason i).budgetUsed = d.budgetUsed := by
  unfold Dev.clearReason; split <;> simp

@[simp] theorem Dev.clearReason_cleanPasses (d : Dev) (i : Nat) : (d.clearReason i).cleanPasses = d.cleanPasses := by
  unfold Dev.clearReason; split <;> simp

@[simp] theorem Dev.clearReason_ratio (d : Dev) (i : Nat) : (d.clearReason i).ratio = d.ratio := by
  unfold Dev.clearReason; split <;> simp

@[simp] theorem Dev.clearReason_vec (d : Dev) (i : Nat) : (d.clearReason i).vec = d.vec := by
  unfold Dev.clearReason; split <;> simp

@[simp] theorem Dev.clearReason_mfb (d : Dev) (i : Nat) : (d.clearReason i).mfb = d.mfb := by
  unfold Dev.clearReason; split <;> simp

@[simp] theorem Dev.clearReason_migs (d : Dev) (i : Nat) : (d.clearReason i).migs = d.migs := by
  unfold Dev.clearReason; split <;> simp

@[simp] theorem Dev.clearReason_sramRows (d : Dev) (i : Nat) : (d.clearReason i).sramRows = d.sramRows := by
  unfold Dev.clearReason; split <;> simp

@[simp] theorem Dev.clearReason_uLive (d : Dev) (i : Nat) : (d.clearReason i).uLive = d.uLive := by
  unfold Dev.clearReason; split <;> simp

@[simp] theorem Dev.clearReason_uUnf (d : Dev) (i : Nat) : (d.clearReason i).uUnf = d.uUnf := by
  unfold Dev.clearReason; split <;> simp

@[simp] theorem Dev.clearReason_uOvf (d : Dev) (i : Nat) : (d.clearReason i).uOvf = d.uOvf := by
  unfold Dev.clearReason; split <;> simp

@[simp] theorem Dev.clearReason_shortSites (d : Dev) (i : Nat) : (d.clearReason i).shortSites = d.shortSites := by
  unfold Dev.clearReason; split <;> simp

@[simp] theorem Dev.clearReason_vlt (d : Dev) (i : Nat) : (d.clearReason i).vlt = d.vlt := by
  unfold Dev.clearReason; split <;> simp

@[simp] theorem Dev.clearReason_tgt (d : Dev) (i : Nat) : (d.clearReason i).tgt = d.tgt := by
  unfold Dev.clearReason; split <;> simp

@[simp] theorem Dev.clearReason_lim (d : Dev) (i : Nat) : (d.clearReason i).lim = d.lim := by
  unfold Dev.clearReason; split <;> simp

@[simp] theorem Dev.clearReason_car (d : Dev) (i : Nat) : (d.clearReason i).car = d.car := by
  unfold Dev.clearReason; split <;> simp

@[simp] theorem Dev.clearReason_upd (d : Dev) (i : Nat) : (d.clearReason i).upd = d.upd := by
  unfold Dev.clearReason; split <;> simp

@[simp] theorem Dev.setCoreSt_st (d : Dev) (c st a b : Nat) : (d.setCoreSt c st a b).st = d.st := by
  simp [Dev.setCoreSt]

@[simp] theorem Dev.loseCore_st (d : Dev) (c : Nat) : (d.loseCore c).st = d.st := by
  unfold Dev.loseCore; split <;> simp

@[simp] theorem Dev.setCoreSt_locked (d : Dev) (c st a b : Nat) : (d.setCoreSt c st a b).locked = d.locked := by
  simp [Dev.setCoreSt]

@[simp] theorem Dev.loseCore_locked (d : Dev) (c : Nat) : (d.loseCore c).locked = d.locked := by
  unfold Dev.loseCore; split <;> simp

@[simp] theorem Dev.setCoreSt_poison (d : Dev) (c st a b : Nat) : (d.setCoreSt c st a b).poison = d.poison := by
  simp [Dev.setCoreSt]

@[simp] theorem Dev.loseCore_poison (d : Dev) (c : Nat) : (d.loseCore c).poison = d.poison := by
  unfold Dev.loseCore; split <;> simp

@[simp] theorem Dev.setCoreSt_pins (d : Dev) (c st a b : Nat) : (d.setCoreSt c st a b).pins = d.pins := by
  simp [Dev.setCoreSt]

@[simp] theorem Dev.loseCore_pins (d : Dev) (c : Nat) : (d.loseCore c).pins = d.pins := by
  unfold Dev.loseCore; split <;> simp

@[simp] theorem Dev.setCoreSt_boot (d : Dev) (c st a b : Nat) : (d.setCoreSt c st a b).boot = d.boot := by
  simp [Dev.setCoreSt]

@[simp] theorem Dev.loseCore_boot (d : Dev) (c : Nat) : (d.loseCore c).boot = d.boot := by
  unfold Dev.loseCore; split <;> simp

@[simp] theorem Dev.setCoreSt_fuses (d : Dev) (c st a b : Nat) : (d.setCoreSt c st a b).fuses = d.fuses := by
  simp [Dev.setCoreSt]

@[simp] theorem Dev.loseCore_fuses (d : Dev) (c : Nat) : (d.loseCore c).fuses = d.fuses := by
  unfold Dev.loseCore; split <;> simp

@[simp] theorem Dev.setCoreSt_flash (d : Dev) (c st a b : Nat) : (d.setCoreSt c st a b).flash = d.flash := by
  simp [Dev.setCoreSt]

@[simp] theorem Dev.loseCore_flash (d : Dev) (c : Nat) : (d.loseCore c).flash = d.flash := by
  unfold Dev.loseCore; split <;> simp

@[simp] theorem Dev.setCoreSt_evt (d : Dev) (c st a b : Nat) : (d.setCoreSt c st a b).evt = d.evt := by
  simp [Dev.setCoreSt]

@[simp] theorem Dev.loseCore_evt (d : Dev) (c : Nat) : (d.loseCore c).evt = d.evt := by
  unfold Dev.loseCore; split <;> simp

@[simp] theorem Dev.setCoreSt_d2d (d : Dev) (c st a b : Nat) : (d.setCoreSt c st a b).d2d = d.d2d := by
  simp [Dev.setCoreSt]

@[simp] theorem Dev.loseCore_d2d (d : Dev) (c : Nat) : (d.loseCore c).d2d = d.d2d := by
  unfold Dev.loseCore; split <;> simp

@[simp] theorem Dev.setCoreSt_opt (d : Dev) (c st a b : Nat) : (d.setCoreSt c st a b).opt = d.opt := by
  simp [Dev.setCoreSt]

@[simp] theorem Dev.loseCore_opt (d : Dev) (c : Nat) : (d.loseCore c).opt = d.opt := by
  unfold Dev.loseCore; split <;> simp

@[simp] theorem Dev.setCoreSt_fab (d : Dev) (c st a b : Nat) : (d.setCoreSt c st a b).fab = d.fab := by
  simp [Dev.setCoreSt]

@[simp] theorem Dev.loseCore_fab (d : Dev) (c : Nat) : (d.loseCore c).fab = d.fab := by
  unfold Dev.loseCore; split <;> simp

@[simp] theorem Dev.setCoreSt_stp (d : Dev) (c st a b : Nat) : (d.setCoreSt c st a b).stp = d.stp := by
  simp [Dev.setCoreSt]

@[simp] theorem Dev.loseCore_stp (d : Dev) (c : Nat) : (d.loseCore c).stp = d.stp := by
  unfold Dev.loseCore; split <;> simp

@[simp] theorem Dev.setCoreSt_refRun (d : Dev) (c st a b : Nat) : (d.setCoreSt c st a b).refRun = d.refRun := by
  simp [Dev.setCoreSt]

@[simp] theorem Dev.loseCore_refRun (d : Dev) (c : Nat) : (d.loseCore c).refRun = d.refRun := by
  unfold Dev.loseCore; split <;> simp

@[simp] theorem Dev.setCoreSt_pllOpen (d : Dev) (c st a b : Nat) : (d.setCoreSt c st a b).pllOpen = d.pllOpen := by
  simp [Dev.setCoreSt]

@[simp] theorem Dev.loseCore_pllOpen (d : Dev) (c : Nat) : (d.loseCore c).pllOpen = d.pllOpen := by
  unfold Dev.loseCore; split <;> simp

@[simp] theorem Dev.setCoreSt_clock (d : Dev) (c st a b : Nat) : (d.setCoreSt c st a b).clock = d.clock := by
  simp [Dev.setCoreSt]

@[simp] theorem Dev.loseCore_clock (d : Dev) (c : Nat) : (d.loseCore c).clock = d.clock := by
  unfold Dev.loseCore; split <;> simp

@[simp] theorem Dev.setCoreSt_met (d : Dev) (c st a b : Nat) : (d.setCoreSt c st a b).met = d.met := by
  simp [Dev.setCoreSt]

@[simp] theorem Dev.loseCore_met (d : Dev) (c : Nat) : (d.loseCore c).met = d.met := by
  unfold Dev.loseCore; split <;> simp

@[simp] theorem Dev.setCoreSt_fresh (d : Dev) (c st a b : Nat) : (d.setCoreSt c st a b).fresh = d.fresh := by
  simp [Dev.setCoreSt]

@[simp] theorem Dev.loseCore_fresh (d : Dev) (c : Nat) : (d.loseCore c).fresh = d.fresh := by
  unfold Dev.loseCore; split <;> simp

@[simp] theorem Dev.setCoreSt_bundleOut (d : Dev) (c st a b : Nat) : (d.setCoreSt c st a b).bundleOut = d.bundleOut := by
  simp [Dev.setCoreSt]

@[simp] theorem Dev.loseCore_bundleOut (d : Dev) (c : Nat) : (d.loseCore c).bundleOut = d.bundleOut := by
  unfold Dev.loseCore; split <;> simp

@[simp] theorem Dev.setCoreSt_feedLost (d : Dev) (c st a b : Nat) : (d.setCoreSt c st a b).feedLost = d.feedLost := by
  simp [Dev.setCoreSt]

@[simp] theorem Dev.loseCore_feedLost (d : Dev) (c : Nat) : (d.loseCore c).feedLost = d.feedLost := by
  unfold Dev.loseCore; split <;> simp

@[simp] theorem Dev.setCoreSt_peerCoord (d : Dev) (c st a b : Nat) : (d.setCoreSt c st a b).peerCoord = d.peerCoord := by
  simp [Dev.setCoreSt]

@[simp] theorem Dev.loseCore_peerCoord (d : Dev) (c : Nat) : (d.loseCore c).peerCoord = d.peerCoord := by
  unfold Dev.loseCore; split <;> simp

@[simp] theorem Dev.setCoreSt_cores (d : Dev) (c st a b : Nat) : (d.setCoreSt c st a b).cores = d.cores := by
  simp [Dev.setCoreSt]

@[simp] theorem Dev.loseCore_cores (d : Dev) (c : Nat) : (d.loseCore c).cores = d.cores := by
  unfold Dev.loseCore; split <;> simp

@[simp] theorem Dev.setCoreSt_runs (d : Dev) (c st a b : Nat) : (d.setCoreSt c st a b).runs = d.runs := by
  simp [Dev.setCoreSt]

@[simp] theorem Dev.loseCore_runs (d : Dev) (c : Nat) : (d.loseCore c).runs = d.runs := by
  unfold Dev.loseCore; split <;> simp

@[simp] theorem Dev.setCoreSt_satRows (d : Dev) (c st a b : Nat) : (d.setCoreSt c st a b).satRows = d.satRows := by
  simp [Dev.setCoreSt]

@[simp] theorem Dev.loseCore_satRows (d : Dev) (c : Nat) : (d.loseCore c).satRows = d.satRows := by
  unfold Dev.loseCore; split <;> simp

@[simp] theorem Dev.setCoreSt_budgetUsed (d : Dev) (c st a b : Nat) : (d.setCoreSt c st a b).budgetUsed = d.budgetUsed := by
  simp [Dev.setCoreSt]

@[simp] theorem Dev.loseCore_budgetUsed (d : Dev) (c : Nat) : (d.loseCore c).budgetUsed = d.budgetUsed := by
  unfold Dev.loseCore; split <;> simp

@[simp] theorem Dev.setCoreSt_cleanPasses (d : Dev) (c st a b : Nat) : (d.setCoreSt c st a b).cleanPasses = d.cleanPasses := by
  simp [Dev.setCoreSt]

@[simp] theorem Dev.loseCore_cleanPasses (d : Dev) (c : Nat) : (d.loseCore c).cleanPasses = d.cleanPasses := by
  unfold Dev.loseCore; split <;> simp

@[simp] theorem Dev.setCoreSt_ratio (d : Dev) (c st a b : Nat) : (d.setCoreSt c st a b).ratio = d.ratio := by
  simp [Dev.setCoreSt]

@[simp] theorem Dev.loseCore_ratio (d : Dev) (c : Nat) : (d.loseCore c).ratio = d.ratio := by
  unfold Dev.loseCore; split <;> simp

@[simp] theorem Dev.setCoreSt_vec (d : Dev) (c st a b : Nat) : (d.setCoreSt c st a b).vec = d.vec := by
  simp [Dev.setCoreSt]

@[simp] theorem Dev.loseCore_vec (d : Dev) (c : Nat) : (d.loseCore c).vec = d.vec := by
  unfold Dev.loseCore; split <;> simp

@[simp] theorem Dev.setCoreSt_mfb (d : Dev) (c st a b : Nat) : (d.setCoreSt c st a b).mfb = d.mfb := by
  simp [Dev.setCoreSt]

@[simp] theorem Dev.loseCore_mfb (d : Dev) (c : Nat) : (d.loseCore c).mfb = d.mfb := by
  unfold Dev.loseCore; split <;> simp

@[simp] theorem Dev.setCoreSt_migs (d : Dev) (c st a b : Nat) : (d.setCoreSt c st a b).migs = d.migs := by
  simp [Dev.setCoreSt]

@[simp] theorem Dev.loseCore_migs (d : Dev) (c : Nat) : (d.loseCore c).migs = d.migs := by
  unfold Dev.loseCore; split <;> simp

@[simp] theorem Dev.setCoreSt_sramRows (d : Dev) (c st a b : Nat) : (d.setCoreSt c st a b).sramRows = d.sramRows := by
  simp [Dev.setCoreSt]

@[simp] theorem Dev.loseCore_sramRows (d : Dev) (c : Nat) : (d.loseCore c).sramRows = d.sramRows := by
  unfold Dev.loseCore; split <;> simp

@[simp] theorem Dev.setCoreSt_uLive (d : Dev) (c st a b : Nat) : (d.setCoreSt c st a b).uLive = d.uLive := by
  simp [Dev.setCoreSt]

@[simp] theorem Dev.loseCore_uLive (d : Dev) (c : Nat) : (d.loseCore c).uLive = d.uLive := by
  unfold Dev.loseCore; split <;> simp

@[simp] theorem Dev.setCoreSt_uUnf (d : Dev) (c st a b : Nat) : (d.setCoreSt c st a b).uUnf = d.uUnf := by
  simp [Dev.setCoreSt]

@[simp] theorem Dev.loseCore_uUnf (d : Dev) (c : Nat) : (d.loseCore c).uUnf = d.uUnf := by
  unfold Dev.loseCore; split <;> simp

@[simp] theorem Dev.setCoreSt_uOvf (d : Dev) (c st a b : Nat) : (d.setCoreSt c st a b).uOvf = d.uOvf := by
  simp [Dev.setCoreSt]

@[simp] theorem Dev.loseCore_uOvf (d : Dev) (c : Nat) : (d.loseCore c).uOvf = d.uOvf := by
  unfold Dev.loseCore; split <;> simp

@[simp] theorem Dev.setCoreSt_shortSites (d : Dev) (c st a b : Nat) : (d.setCoreSt c st a b).shortSites = d.shortSites := by
  simp [Dev.setCoreSt]

@[simp] theorem Dev.loseCore_shortSites (d : Dev) (c : Nat) : (d.loseCore c).shortSites = d.shortSites := by
  unfold Dev.loseCore; split <;> simp

@[simp] theorem Dev.setCoreSt_vlt (d : Dev) (c st a b : Nat) : (d.setCoreSt c st a b).vlt = d.vlt := by
  simp [Dev.setCoreSt]

@[simp] theorem Dev.loseCore_vlt (d : Dev) (c : Nat) : (d.loseCore c).vlt = d.vlt := by
  unfold Dev.loseCore; split <;> simp

@[simp] theorem Dev.setCoreSt_tgt (d : Dev) (c st a b : Nat) : (d.setCoreSt c st a b).tgt = d.tgt := by
  simp [Dev.setCoreSt]

@[simp] theorem Dev.loseCore_tgt (d : Dev) (c : Nat) : (d.loseCore c).tgt = d.tgt := by
  unfold Dev.loseCore; split <;> simp

@[simp] theorem Dev.setCoreSt_lim (d : Dev) (c st a b : Nat) : (d.setCoreSt c st a b).lim = d.lim := by
  simp [Dev.setCoreSt]

@[simp] theorem Dev.loseCore_lim (d : Dev) (c : Nat) : (d.loseCore c).lim = d.lim := by
  unfold Dev.loseCore; split <;> simp

@[simp] theorem Dev.setCoreSt_car (d : Dev) (c st a b : Nat) : (d.setCoreSt c st a b).car = d.car := by
  simp [Dev.setCoreSt]

@[simp] theorem Dev.loseCore_car (d : Dev) (c : Nat) : (d.loseCore c).car = d.car := by
  unfold Dev.loseCore; split <;> simp

@[simp] theorem Dev.setCoreSt_upd (d : Dev) (c st a b : Nat) : (d.setCoreSt c st a b).upd = d.upd := by
  simp [Dev.setCoreSt]

@[simp] theorem Dev.loseCore_upd (d : Dev) (c : Nat) : (d.loseCore c).upd = d.upd := by
  unfold Dev.loseCore; split <;> simp

@[simp] theorem Dev.enterHalted_locked (d : Dev) (c q : Nat) : (d.enterHalted c q).locked = d.locked := by
  simp [Dev.enterHalted]

@[simp] theorem Dev.enterHalted_poison (d : Dev) (c q : Nat) : (d.enterHalted c q).poison = d.poison := by
  simp [Dev.enterHalted]

@[simp] theorem Dev.enterHalted_boot (d : Dev) (c q : Nat) : (d.enterHalted c q).boot = d.boot := by
  simp [Dev.enterHalted]

@[simp] theorem Dev.enterHalted_fuses (d : Dev) (c q : Nat) : (d.enterHalted c q).fuses = d.fuses := by
  simp [Dev.enterHalted]

@[simp] theorem Dev.enterHalted_flash (d : Dev) (c q : Nat) : (d.enterHalted c q).flash = d.flash := by
  simp [Dev.enterHalted]

@[simp] theorem Dev.enterHalted_evt (d : Dev) (c q : Nat) : (d.enterHalted c q).evt = d.evt := by
  simp [Dev.enterHalted]

@[simp] theorem Dev.enterHalted_d2d (d : Dev) (c q : Nat) : (d.enterHalted c q).d2d = d.d2d := by
  simp [Dev.enterHalted]

@[simp] theorem Dev.enterHalted_opt (d : Dev) (c q : Nat) : (d.enterHalted c q).opt = d.opt := by
  simp [Dev.enterHalted]

@[simp] theorem Dev.enterHalted_fab (d : Dev) (c q : Nat) : (d.enterHalted c q).fab = d.fab := by
  simp [Dev.enterHalted]

@[simp] theorem Dev.enterHalted_stp (d : Dev) (c q : Nat) : (d.enterHalted c q).stp = d.stp := by
  simp [Dev.enterHalted]

@[simp] theorem Dev.enterHalted_degradedSeen (d : Dev) (c q : Nat) : (d.enterHalted c q).degradedSeen = d.degradedSeen := by
  simp [Dev.enterHalted]

@[simp] theorem Dev.enterHalted_refRun (d : Dev) (c q : Nat) : (d.enterHalted c q).refRun = d.refRun := by
  simp [Dev.enterHalted]

@[simp] theorem Dev.enterHalted_pllOpen (d : Dev) (c q : Nat) : (d.enterHalted c q).pllOpen = d.pllOpen := by
  simp [Dev.enterHalted]

@[simp] theorem Dev.enterHalted_clock (d : Dev) (c q : Nat) : (d.enterHalted c q).clock = d.clock := by
  simp [Dev.enterHalted]

@[simp] theorem Dev.enterHalted_met (d : Dev) (c q : Nat) : (d.enterHalted c q).met = d.met := by
  simp [Dev.enterHalted]

@[simp] theorem Dev.enterHalted_fresh (d : Dev) (c q : Nat) : (d.enterHalted c q).fresh = d.fresh := by
  simp [Dev.enterHalted]

@[simp] theorem Dev.enterHalted_bundleOut (d : Dev) (c q : Nat) : (d.enterHalted c q).bundleOut = d.bundleOut := by
  simp [Dev.enterHalted]

@[simp] theorem Dev.enterHalted_feedLost (d : Dev) (c q : Nat) : (d.enterHalted c q).feedLost = d.feedLost := by
  simp [Dev.enterHalted]

@[simp] theorem Dev.enterHalted_peerCoord (d : Dev) (c q : Nat) : (d.enterHalted c q).peerCoord = d.peerCoord := by
  simp [Dev.enterHalted]

@[simp] theorem Dev.enterHalted_cores (d : Dev) (c q : Nat) : (d.enterHalted c q).cores = d.cores := by
  simp [Dev.enterHalted]

@[simp] theorem Dev.enterHalted_runs (d : Dev) (c q : Nat) : (d.enterHalted c q).runs = d.runs := by
  simp [Dev.enterHalted]

@[simp] theorem Dev.enterHalted_satRows (d : Dev) (c q : Nat) : (d.enterHalted c q).satRows = d.satRows := by
  simp [Dev.enterHalted]

@[simp] theorem Dev.enterHalted_budgetUsed (d : Dev) (c q : Nat) : (d.enterHalted c q).budgetUsed = d.budgetUsed := by
  simp [Dev.enterHalted]

@[simp] theorem Dev.enterHalted_cleanPasses (d : Dev) (c q : Nat) : (d.enterHalted c q).cleanPasses = d.cleanPasses := by
  simp [Dev.enterHalted]

@[simp] theorem Dev.enterHalted_ratio (d : Dev) (c q : Nat) : (d.enterHalted c q).ratio = d.ratio := by
  simp [Dev.enterHalted]

@[simp] theorem Dev.enterHalted_vec (d : Dev) (c q : Nat) : (d.enterHalted c q).vec = d.vec := by
  simp [Dev.enterHalted]

@[simp] theorem Dev.enterHalted_mfb (d : Dev) (c q : Nat) : (d.enterHalted c q).mfb = d.mfb := by
  simp [Dev.enterHalted]

@[simp] theorem Dev.enterHalted_migs (d : Dev) (c q : Nat) : (d.enterHalted c q).migs = d.migs := by
  simp [Dev.enterHalted]

@[simp] theorem Dev.enterHalted_sramRows (d : Dev) (c q : Nat) : (d.enterHalted c q).sramRows = d.sramRows := by
  simp [Dev.enterHalted]

@[simp] theorem Dev.enterHalted_uLive (d : Dev) (c q : Nat) : (d.enterHalted c q).uLive = d.uLive := by
  simp [Dev.enterHalted]

@[simp] theorem Dev.enterHalted_uUnf (d : Dev) (c q : Nat) : (d.enterHalted c q).uUnf = d.uUnf := by
  simp [Dev.enterHalted]

@[simp] theorem Dev.enterHalted_uOvf (d : Dev) (c q : Nat) : (d.enterHalted c q).uOvf = d.uOvf := by
  simp [Dev.enterHalted]

@[simp] theorem Dev.enterHalted_shortSites (d : Dev) (c q : Nat) : (d.enterHalted c q).shortSites = d.shortSites := by
  simp [Dev.enterHalted]

@[simp] theorem Dev.enterHalted_vlt (d : Dev) (c q : Nat) : (d.enterHalted c q).vlt = d.vlt := by
  simp [Dev.enterHalted]

@[simp] theorem Dev.enterHalted_tgt (d : Dev) (c q : Nat) : (d.enterHalted c q).tgt = d.tgt := by
  simp [Dev.enterHalted]

@[simp] theorem Dev.enterHalted_lim (d : Dev) (c q : Nat) : (d.enterHalted c q).lim = d.lim := by
  simp [Dev.enterHalted]

@[simp] theorem Dev.enterHalted_car (d : Dev) (c q : Nat) : (d.enterHalted c q).car = d.car := by
  simp [Dev.enterHalted]

@[simp] theorem Dev.enterHalted_upd (d : Dev) (c q : Nat) : (d.enterHalted c q).upd = d.upd := by
  simp [Dev.enterHalted]

@[simp] theorem Dev.enterHalted_st (d : Dev) (c q : Nat) : (d.enterHalted c q).st = .halted := by
  simp [Dev.enterHalted]

/-! ### Event counters -/

@[simp] theorem Dev.putEvt_evt (d : Dev) (t : Tab Nat) : (d.putEvt t).evt = t := (rfl)

@[simp] theorem Dev.evtGet_evtSet_same (d : Dev) (i v : Nat) : (d.evtSet i v).evtGet i = v % 2 ^ 32 := by
  simp [Dev.evtGet, Dev.evtSet]

theorem Dev.evtGet_evtSet_ne (d : Dev) {i j : Nat} (v : Nat) (h : j ≠ i) : (d.evtSet i v).evtGet j = d.evtGet j := by
  simp [Dev.evtGet, Dev.evtSet, Tab.get_set_ne _ _ _ h]

@[simp] theorem Dev.evtGet_evtAdd_same (d : Dev) (i n : Nat) : (d.evtAdd i n).evtGet i = (d.evtGet i + n) % 2 ^ 32 :=
  Dev.evtGet_evtSet_same d i _

theorem Dev.evtGet_evtAdd_ne (d : Dev) {i j : Nat} (n : Nat) (h : j ≠ i) : (d.evtAdd i n).evtGet j = d.evtGet j :=
  Dev.evtGet_evtSet_ne d _ h

end Sys2Proof.Machine
end

