-- ==== Sys2Proof/Laws/Mem.lean ====
section
/-! SUPPORT. Device memory: a read after a write, what a write leaves alone, and that every memory operation keeps the canonical form. -/

namespace Sys2Proof.Machine

/-! ### Cells -/

theorem cellsAt_keys (l : List Byte) : ∀ a, ∀ p ∈ cellsAt a l, a ≤ p.1 ∧ p.1 < a + l.length := by
  induction l with
  | nil => intro a p hp; simp [cellsAt] at hp
  | cons b r ih =>
    intro a p hp
    simp only [cellsAt, List.mem_cons] at hp
    rcases hp with rfl | hp
    · simp
    · have := ih (a + 1) p hp
      simp only [List.length_cons]
      omega

theorem Tab.get_cells_out (dflt : Byte) (l : List Byte) (a q : Nat) (t : Tab Byte) (h : q < a ∨ a + l.length ≤ q) :
    Tab.get dflt (Tab.setAll dflt t (cellsAt a l)) q = Tab.get dflt t q := by
  apply Tab.get_setAll_ne
  intro p hp e
  have := cellsAt_keys l a p hp
  omega

theorem Tab.get_cells_in (dflt : Byte) (l : List Byte) : ∀ (a i : Nat) (t : Tab Byte) (h : i < l.length),
    Tab.get dflt (Tab.setAll dflt t (cellsAt a l)) (a + i) = l[i] := by
  induction l with
  | nil => intro a i t h; simp at h
  | cons b r ih =>
    intro a i t h
    cases i with
    | zero =>
      simp only [cellsAt, Tab.setAll, Nat.add_zero]
      rw [Tab.get_cells_out dflt r (a + 1) a _ (Or.inl (by omega))]
      simp
    | succ i =>
      simp only [cellsAt, Tab.setAll]
      have h' : i < r.length := by simpa using h
      have := ih (a + 1) i (Tab.set dflt t a b) h'
      rw [show a + (i + 1) = a + 1 + i by omega, this]
      simp

/-! ### Writes -/

/-- A write leaves every other byte. -/
theorem Dev.peek_write_out (d : Dev) (a q : Nat) (l : List Byte) (h : q < a ∨ a + l.length ≤ q) :
    (d.write a l).peek q = d.peek q := Tab.get_cells_out 0 l a q d.mem h

/-- A byte written reads back. -/
theorem Dev.peek_write_in (d : Dev) (a i : Nat) (l : List Byte) (h : i < l.length) :
    (d.write a l).peek (a + i) = l[i] := Tab.get_cells_in 0 l a i d.mem h

/-- A read of what a write wrote. -/
theorem Dev.read_write_same (d : Dev) (a : Nat) (l : List Byte) : (d.write a l).read a l.length = l := by
  apply List.ext_getElem
  · simp [Dev.read]
  · intro i h1 h2
    simp only [Dev.read, List.getElem_map, List.getElem_range]
    exact Dev.peek_write_in d a i l h2

/-- A read of bytes that a write does not meet. -/
theorem Dev.read_write_out (d : Dev) (a b n : Nat) (l : List Byte) (h : b + n ≤ a ∨ a + l.length ≤ b) :
    (d.write a l).read b n = d.read b n := by
  simp only [Dev.read]
  apply List.map_congr_left
  intro i hi
  have : i < n := by simpa using hi
  exact Dev.peek_write_out d a _ l (by omega)

/-! ### Zeroing -/

theorem Tab.get_filter_key (dflt : Byte) (f : Nat → Bool) (t : Tab Byte) (q : Nat) :
    Tab.get dflt (t.filter (fun p => f p.1)) q = if f q then Tab.get dflt t q else dflt := by
  induction t with
  | nil => simp [Tab.get]
  | cons p r ih =>
    obtain ⟨k, v⟩ := p
    by_cases hk : f k = true
    · simp only [List.filter, hk]
      by_cases hq : k = q
      · subst hq; simp [Tab.get, hk]
      · simpa [Tab.get, hq] using ih
    · have hk' : f k = false := by simpa using hk
      simp only [List.filter, hk']
      by_cases hq : k = q
      · subst hq; rw [ih]; simp [hk']
      · rw [ih]; simp [Tab.get, hq]

/-- Zeroing clears its range and leaves every other byte. -/
theorem Dev.peek_zero (d : Dev) (a n q : Nat) :
    (d.zero a n).peek q = if a ≤ q ∧ q < a + n then 0 else d.peek q := by
  have h := Tab.get_filter_key 0 (fun k => k < a || a + n ≤ k) d.mem q
  simp only [Dev.peek, Dev.zero, Tab.clear]
  rw [h]
  by_cases h1 : q < a <;> by_cases h2 : a + n ≤ q <;> simp [h1, h2, Nat.not_lt.mp]

/-! ### The canonical form -/

theorem memWf_reset : memWf State.reset.dev.mem = true := rfl

theorem Dev.memWf_write (d : Dev) (a : Nat) (l : List Byte) (h : memWf d.mem = true) : memWf (d.write a l).mem = true :=
  Tab.wf_setAll 0 _ _ h

theorem Dev.memWf_zero (d : Dev) (a n : Nat) (h : memWf d.mem = true) : memWf (d.zero a n).mem = true :=
  Tab.wf_clear 0 _ a n h

theorem Dev.memWf_copy (d : Dev) (src dst n : Nat) (h : memWf d.mem = true) : memWf (d.copy src dst n).mem = true :=
  Tab.wf_copy 0 _ src dst n h

theorem Dev.memWf_scramble (d : Dev) (a n : Nat) (h : memWf d.mem = true) : memWf (d.scramble a n).mem = true :=
  Dev.memWf_write d a _ h

theorem Dev.memWf_logRecord (d : Dev) (r : FaultRec) (h : memWf d.mem = true) : memWf (d.logRecord r).mem = true :=
  Tab.wf_setAll 0 _ _ h

@[simp] theorem Dev.pumpReports_peek (n : Nat) (d : Dev) (q : Nat) : (Dev.pumpReports n d).peek q = d.peek q := by
  simp [Dev.peek]

theorem Dev.memWf_record (d : Dev) (r : FaultRec) (h : memWf d.mem = true) : memWf (d.record r).mem = true := by
  unfold Dev.record
  split
  · exact h
  · simpa using Dev.memWf_logRecord d r h

/-- A fault record writes only the host log, the 16 KiB from FLT_LOG_BASE on. -/
theorem Dev.peek_record_out (d : Dev) (r : FaultRec) (q : Nat)
    (h : q < d.logAddr 0 ∨ d.logAddr 0 + 0x4000 ≤ q) : (d.record r).peek q = d.peek q := by
  have key : ∀ (es : List (List Byte)) (n : Nat), (∀ e ∈ es, e.length ≤ 32) → ∀ p ∈ d.logCells n es, p.1 ≠ q := by
    intro es
    induction es with
    | nil => intro n _ p hp; simp [Dev.logCells] at hp
    | cons e es ih =>
      intro n hl p hp
      simp only [Dev.logCells, List.mem_append] at hp
      rcases hp with hp | hp
      · have := cellsAt_keys e _ p hp
        have he := hl e (by simp)
        have : n % 512 < 512 := Nat.mod_lt _ (by omega)
        simp only [Dev.logAddr] at *
        omega
      · exact ih (n + 1) (fun e he => hl e (by simp [he])) p hp
  have hlen : ∀ e ∈ d.recEntries r, e.length ≤ 32 := by
    intro e he
    simp only [Dev.recEntries, List.mem_cons, List.mem_map] at he
    rcases he with rfl | ⟨i, _, rfl⟩
    · simp [Dev.recHead]
    · simp [Dev.recCont]
  unfold Dev.record
  split
  · rfl
  · simp only [Dev.pumpReports_peek]
    exact Tab.get_setAll_ne 0 _ q _ (key _ _ hlen)

end Sys2Proof.Machine
end

