-- ==== Sys2Proof/Laws/Exec.lean ====
section
/-! SUPPORT. The one shape of every command's meaning, and what keeps a command from being due. -/

namespace Sys2Proof.Machine

theorem State.startCmd_shape (s : State) (c pos code : Nat) (g : Dev → Dev) :
    ∃ due f, s.startCmd c pos code g = s.run (coreOk c) due f := ⟨_, _, rfl⟩

theorem State.endCmd_shape (s : State) (c pos code : Nat) (g : Dev → OpRec → Dev) :
    ∃ due f, s.endCmd c pos code g = s.run (coreOk c) due f := ⟨_, _, rfl⟩

theorem State.vecCmd_shape (s : State) (x op : Nat) : ∃ due f, s.vecCmd x op = s.run (ctxOk x) due f := ⟨_, _, rfl⟩

theorem State.vecLoadCmd_shape (s : State) (x op : Nat) (e : Ecc) :
    ∃ due f, s.vecLoadCmd x op e = s.run (ctxOk x) due f := ⟨_, _, rfl⟩

theorem State.policy_shape (s : State) (r : Nat) (is : Nat → Bool) (key lo hi : Nat) (g : Nat → Tgt → Tgt) :
    ∃ due f, s.policy r is key lo hi g = s.run (r < 16) due f := ⟨_, _, rfl⟩

/-- Every meaning faults for an ill-formed command, leaves the block as it is when it is not due, and otherwise changes
the device alone. -/
theorem exec_shape (c : Instr) (s : State) : ∃ due f, exec c s = s.run c.wf due f := by
  cases c
  all_goals dsimp only [exec, Instr.wf]
  all_goals first
    | exact ⟨_, _, rfl⟩
    | exact State.startCmd_shape ..
    | exact State.endCmd_shape ..
    | exact State.vecCmd_shape ..
    | exact State.vecLoadCmd_shape ..
    | exact State.policy_shape ..

/-! ### Nothing is due where the state forbids it -/

/-- No descriptor starts unless firmware runs. -/
theorem Dev.descDue_off (d : Dev) (r : Nat) (p : Desc → Bool) (h : d.up = false) : d.descDue r p = false := by
  unfold Dev.descDue; split <;> simp [Dev.starts, h]

/-- No vector instruction executes unless firmware runs. -/
theorem Dev.vecDue_off (d : Dev) (x op : Nat) (h : d.up = false) : d.vecDue x op = false := by
  simp [Dev.vecDue, Dev.vecRuns, h]

/-- No descriptor of a kind that starts now can be found without a head that is of that kind and starts. -/
theorem Dev.descDue_head {d : Dev} {r : Nat} {p : Desc → Bool} (h : d.descDue r p = true) :
    ∃ j, d.head? r = some j ∧ j.ring = r ∧ p j = true ∧ d.starts j = true := by
  unfold Dev.descDue at h
  split at h
  · rename_i j hj
    simp only [Bool.and_eq_true, decide_eq_true_eq] at h
    exact ⟨j, hj, h.1.1, h.1.2, h.2⟩
  · simp at h

/-- A command that is not due leaves the block as it is, or faults for a unit that does not exist. -/
theorem State.run_off (s : State) (unit due : Bool) (f : Dev → Dev) (h : due = false) :
    s.run unit due f = .next s ∨ s.run unit due f = .fault .noSuchUnit := by
  subst h; cases unit <;> simp [State.run]

/-! ### Folds -/

/-- What every step of a fold keeps, the fold keeps. -/
theorem foldl_keeps {α β γ : Type} (g : β → γ) (f : β → α → β) (h : ∀ b a, g (f b a) = g b) (l : List α) :
    ∀ b, g (l.foldl f b) = g b := by
  induction l with
  | nil => intro b; rfl
  | cons x r ih => intro b; rw [List.foldl_cons, ih, h]

end Sys2Proof.Machine
end

