-- ==== Sys2Proof/Laws/Safety.lean ====
section
/-! SUPPORT. How a command is shown to complete, and how the frames of fault records and field writes compose. -/

namespace Sys2Proof.Machine

/-! ### Completion -/

/-- A command completes when its unit exists and it is due. -/
theorem Runs.of_run {c : Instr} {s : State} {unit due : Bool} {f : Dev → Dev} {P : Dev → Prop}
    (h : exec c s = s.run unit due f) (hu : unit = true) (hd : due = true) (hp : P (f s.dev)) : Runs c s P :=
  ⟨f s.dev, by rw [h]; exact State.run_next hu hd, hp⟩

/-- The form `simp only [Runs, exec, exec…]` leaves: the unit exists, the command is due, and its effect meets P. -/
theorem State.run_meets {s : State} {unit due : Bool} {f : Dev → Dev} {P : Dev → Prop} (hu : unit = true) (hd : due = true)
    (hp : P (f s.dev)) : ∃ e : Dev, s.run unit due f = .next { s with dev := e } ∧ P e :=
  ⟨f s.dev, State.run_next hu hd, hp⟩

/-- The form `simp only [Gives, exec, exec…]` leaves. -/
theorem State.run_gives {s : State} {unit due : Bool} {f : Dev → Dev} {e : Dev} (hu : unit = true) (hd : due = true)
    (hp : f s.dev = e) : s.run unit due f = .next { s with dev := e } := by rw [State.run_next hu hd, hp]

theorem Gives.of_run {c : Instr} {s : State} {unit due : Bool} {f : Dev → Dev} {e : Dev}
    (h : exec c s = s.run unit due f) (hu : unit = true) (hd : due = true) (hp : f s.dev = e) : Gives c s e := by
  unfold Gives; rw [h, State.run_next hu hd, hp]

theorem Gives.runs {c : Instr} {s : State} {e : Dev} {P : Dev → Prop} (h : Gives c s e) (hp : P e) : Runs c s P :=
  ⟨e, h, hp⟩

theorem Runs.mono {c : Instr} {s : State} {P Q : Dev → Prop} (h : Runs c s P) (hpq : ∀ e, P e → Q e) : Runs c s Q := by
  obtain ⟨e, he, hp⟩ := h
  exact ⟨e, he, hpq e hp⟩

/-! ### Frames -/

theorem FieldsKept.refl (l : List Field) (d : Dev) : FieldsKept l d d := fun _ _ => rfl

theorem FieldsKept.trans {l : List Field} {d e g : Dev} (h : FieldsKept l d e) (h' : FieldsKept l e g) : FieldsKept l d g :=
  fun f hf => (h' f hf).trans (h f hf)

theorem FieldsKept.mono {l m : List Field} {d e : Dev} (h : FieldsKept l d e) (hs : ∀ f ∈ l, f.key ∈ m.map Field.key) :
    FieldsKept m d e := by
  intro g hg
  apply h g
  intro hm
  obtain ⟨f, hf, hk⟩ := List.mem_map.mp hm
  exact hg (hk ▸ hs f hf)

theorem FieldsKept.setFld (d : Dev) (f : Field) (n : Nat) (l : List Field) (h : f.key ∈ l.map Field.key) :
    FieldsKept l d (d.setFld f n) := by
  intro g hg
  exact Dev.fld_setFld_ne d n (fun e => hg (e ▸ h))

theorem OnlyFields.refl (l : List Field) (d : Dev) : OnlyFields l d d := ⟨rfl, FieldsKept.refl l d⟩

theorem OnlyFields.trans {l : List Field} {d e g : Dev} (h : OnlyFields l d e) (h' : OnlyFields l e g) : OnlyFields l d g := by
  refine ⟨?_, h.2.trans h'.2⟩
  rw [h'.1, h.1]

theorem OnlyFields.setFld (d : Dev) (f : Field) (n : Nat) (l : List Field) (h : f.key ∈ l.map Field.key) :
    OnlyFields l d (d.setFld f n) := ⟨rfl, FieldsKept.setFld d f n l h⟩

theorem Dev.pumpReports_hq' (n : Nat) (d : Dev) : (Dev.pumpReports n d).hq = d.hq := Dev.pumpReports_hq n d

/-- A record changes the message state of vector 0 alone of the host interface. -/
theorem Dev.record_hq_frame (d : Dev) (r : FaultRec) :
    (d.record r).hq = { d.hq with pba := (d.record r).hq.pba, holdoff := (d.record r).hq.holdoff } := by
  unfold Dev.record
  split
  · rfl
  · simp [Dev.msix]

/-- A record changes the host log, the reports, its counters and vector 0, and nothing else. -/
theorem OnlyReports.record (d : Dev) (r : FaultRec) (l : List Field) : OnlyReports l d (d.record r) := by
  refine ⟨?_, Dev.record_hq_frame d r, ?_, fun q hq => Dev.peek_record_out d r q hq⟩
  · unfold Dev.record
    split
    · rfl
    · have h : ∀ n (a : Dev), Dev.pumpReports n a = { a with flt := (Dev.pumpReports n a).flt, out := (Dev.pumpReports n a).out } := by
        intro n
        induction n with
        | zero => intro a; rfl
        | succ n ih =>
          intro a
          unfold Dev.pumpReports
          split
          · rw [ih]; rfl
          · rfl
      rw [h]
      rfl
  · intro g hg
    simp only [recordFields, List.map_append, List.map_cons, List.map_nil, List.mem_append, List.mem_cons, List.not_mem_nil, or_false, not_or] at hg
    exact Dev.fld_record d r hg.2.1 hg.2.2.1 hg.2.2.2

end Sys2Proof.Machine
end

