-- ==== Sys2Proof/Laws/Boot.lean ====
section
/-! SUPPORT. What the operations of boot, recovery and register writes can change. -/

namespace Sys2Proof.Machine

/-- An interrupted flash write changes the flash and the job, nothing else; with no write there is nothing to change. -/
theorem Dev.interruptFlash_shape (d : Dev) : ∃ fl b, d.interruptFlash = { d with boot := b, flash := fl } ∧
    (d.boot.flashJob = none → fl = d.flash) := by
  unfold Dev.interruptFlash
  split
  · exact ⟨d.flash, d.boot, rfl, fun _ => rfl⟩
  · rename_i j hj
    split
    · refine ⟨_, _, rfl, ?_⟩; simp [hj]
    · refine ⟨_, _, rfl, ?_⟩; simp [hj]

/-- A device that changes its register fields alone. -/
theorem OnlyFields.foldl {α : Type} (l : List Field) (f : Dev → α → Dev) (h : ∀ d a, OnlyFields l d (f d a)) (as : List α) :
    ∀ d, OnlyFields l d (as.foldl f d) := by
  induction as with
  | nil => intro d; exact OnlyFields.refl l d
  | cons a r ih => intro d; exact (h d a).trans (ih _)

/-- The fields that choosing an Act shows. -/
def actFields : List Field :=
  [Reg.SEC_STATUS.ACT, Reg.SEC_STATUS.ACT_VALID, Reg.SEC_STATUS.ACT_FROM_SELECT, Reg.GLB_ACT.ACT, Reg.GLB_ACT.VALID,
    Reg.SEC_ACT_GEN.GENERATION 0, Reg.SEC_ACT_GEN.GENERATION 1, Reg.SEC_ACT_GEN.GENERATION 2, Reg.SEC_ACT_GEN.GENERATION 3]

/-- Choosing an Act shows it and starts the management port with it; nothing else changes. -/
theorem Dev.loadAct_shape (d : Dev) (pins : Nat) : ∃ b : Boot, b.phase = d.boot.phase ∧ b.pulse = d.boot.pulse ∧
    OnlyFields actFields { d with boot := b } (d.loadAct pins) := by
  refine ⟨{ d.boot with
    act := d.actInForce (if d.on Reg.SEC_ACT_NEXT.VALID then d.fld Reg.SEC_ACT_NEXT.ACT else pins)
    mgmtKey := ((d.actInForce (if d.on Reg.SEC_ACT_NEXT.VALID then d.fld Reg.SEC_ACT_NEXT.ACT else pins)).bind actKey).getD [] },
    rfl, rfl, ?_⟩
  unfold Dev.loadAct
  simp only
  have hr : List.range 4 = [0, 1, 2, 3] := rfl
  simp only [hr, List.foldl, Dev.setOn]
  refine OnlyFields.trans ?_ (OnlyFields.setFld _ _ _ _ (by decide))
  refine OnlyFields.trans ?_ (OnlyFields.setFld _ _ _ _ (by decide))
  refine OnlyFields.trans ?_ (OnlyFields.setFld _ _ _ _ (by decide))
  refine OnlyFields.trans ?_ (OnlyFields.setFld _ _ _ _ (by decide))
  refine OnlyFields.trans ?_ (OnlyFields.setFld _ _ _ _ (by decide))
  refine OnlyFields.trans ?_ (OnlyFields.setFld _ _ _ _ (by decide))
  refine OnlyFields.trans ?_ (OnlyFields.setFld _ _ _ _ (by decide))
  refine OnlyFields.trans ?_ (OnlyFields.setFld _ _ _ _ (by decide))
  refine OnlyFields.trans ?_ (OnlyFields.setFld _ _ _ _ (by decide))
  exact OnlyFields.refl _ _

/-- A write of one field changes registers alone. -/
theorem Dev.writeField_shape (d : Dev) (f : Field) (v : Nat) : ∃ r, d.writeField f v = { d with regs := r } := by
  unfold Dev.writeField
  simp only
  split
  · exact ⟨d.regs, rfl⟩
  · exact ⟨d.regs, rfl⟩
  · exact ⟨_, rfl⟩
  · split
    · exact ⟨d.regs, rfl⟩
    · exact ⟨_, rfl⟩
  · exact ⟨_, rfl⟩
  · exact ⟨_, rfl⟩

theorem Dev.writeFields_shape (l : List Field) (v : Nat) :
    ∀ d : Dev, ∃ r, l.foldl (fun d f => d.writeField f v) d = { d with regs := r } := by
  induction l with
  | nil => intro d; exact ⟨d.regs, rfl⟩
  | cons f l ih =>
    intro d
    obtain ⟨r, hr⟩ := d.writeField_shape f v
    obtain ⟨r', hr'⟩ := ih (d.writeField f v)
    exact ⟨r', by rw [List.foldl_cons, hr', hr]⟩

/-- A write of a whole register changes registers, event counters and the times that these set alone. -/
theorem Dev.writeReg_shape (d : Dev) (g : RegRow) (i v : Nat) : ∃ r x m t, d.writeReg g i v = { d with regs := r, evt := x, mfb := m, met := t } := by
  unfold Dev.writeReg
  split
  · unfold Dev.evtData
    split
    · exact ⟨_, _, _, _, rfl⟩
    · exact ⟨_, _, _, _, rfl⟩
  · split
    · exact ⟨_, _, _, _, rfl⟩
    · obtain ⟨r, hr⟩ := Dev.writeFields_shape (g.fields.map (g.field i)) v d
      simp only [hr]
      split <;> split <;> exact ⟨_, _, _, _, rfl⟩

theorem Dev.write32_shape (d : Dev) (off v : Nat) : ∃ r x m t, d.write32 off v = { d with regs := r, evt := x, mfb := m, met := t } := by
  unfold Dev.write32
  split
  · split
    · exact ⟨_, _, _, _, rfl⟩
    · exact Dev.writeReg_shape ..
  · exact ⟨_, _, _, _, rfl⟩

theorem Dev.write64_shape (d : Dev) (off v : Nat) : ∃ r x m t, d.write64 off v = { d with regs := r, evt := x, mfb := m, met := t } := by
  unfold Dev.write64
  split
  · rename_i g i _
    split
    · exact Dev.writeReg_shape ..
    · obtain ⟨r, x, m, t, h⟩ := d.writeReg_shape g i (v % 2 ^ 32)
      obtain ⟨r', x', m', t', h'⟩ := (d.writeReg g i (v % 2 ^ 32)).write32_shape (off + 4) (v / 2 ^ 32)
      exact ⟨r', x', m', t', by rw [h', h]⟩
  · exact Dev.write32_shape ..

/-- The presets of an Act are register writes. -/
theorem Dev.applyPresets_shape (d : Dev) : ∃ r x m t, d.applyPresets = { d with regs := r, evt := x, mfb := m, met := t } := by
  unfold Dev.applyPresets
  split
  · exact ⟨_, _, _, _, rfl⟩
  · rename_i rec _
    have h : ∀ (l : List Nat) (d : Dev), ∃ r x m t, l.foldl (fun d j => d.applyPreset (presetOf rec j)) d = { d with regs := r, evt := x, mfb := m, met := t } := by
      intro l
      induction l with
      | nil => intro d; exact ⟨_, _, _, _, rfl⟩
      | cons j l ih =>
        intro d
        obtain ⟨r', x', m', t', h'⟩ := ih (d.applyPreset (presetOf rec j))
        have : ∃ r x m t, d.applyPreset (presetOf rec j) = { d with regs := r, evt := x, mfb := m, met := t } := by
          unfold Dev.applyPreset; split
          · exact Dev.write64_shape ..
          · exact Dev.write32_shape ..
        obtain ⟨r, x, m, t, h⟩ := this
        exact ⟨r', x', m', t', by rw [List.foldl_cons, h', h]⟩
    obtain ⟨r, x, m, t, h⟩ := h (List.range (leAt rec 96 2)) d
    rw [h]
    exact ⟨_, _, _, _, rfl⟩

/-- A read of what a flash write wrote. -/
theorem Dev.flashRead_flashWrite (d : Dev) (a : Nat) (l : List Byte) : (d.flashWrite a l).flashRead a l.length = l := by
  apply List.ext_getElem
  · simp [Dev.flashRead]
  · intro i h1 h2
    simp only [Dev.flashRead, List.getElem_map, List.getElem_range]
    exact Tab.get_cells_in 0xFF l a i d.flash h2

/-- An erased range reads as erased. -/
theorem Dev.flashRead_flashErase (d : Dev) (a n : Nat) : (d.flashErase a n).flashRead a n = List.replicate n 0xFF := by
  apply List.ext_getElem
  · simp [Dev.flashRead]
  · intro i h1 h2
    simp only [Dev.flashRead, List.getElem_map, List.getElem_range, List.getElem_replicate, Dev.flashErase, Tab.clear]
    have := Tab.get_filter_key 0xFF (fun k => k < a || a + n ≤ k) d.flash (a + i)
    rw [this]
    have hi : i < n := by simpa using h2
    simp
    omega

/-- A write of program changes the flash job and the status; nothing of the flash before it ends. -/
theorem Dev.rcvProgram_shape (d : Dev) : ∃ r b, d.rcvProgram = { d with regs := r, boot := b } := by
  unfold Dev.rcvProgram
  simp only
  split
  · exact ⟨_, _, rfl⟩
  · exact ⟨_, _, rfl⟩

/-- Lane selection writes its lane map and may set a reason. -/
theorem Dev.selectLanes_st (d : Dev) (l b : Nat) (p : List Nat) : (d.selectLanes l b p).st = d.st := by
  unfold Dev.selectLanes
  simp only
  split <;> simp

end Sys2Proof.Machine
end

