-- ==== Sys2Proof/Laws/Crypto.lean ====
section
/-! SUPPORT. Laws: the lengths of what the cryptographic functions answer. -/

namespace Sys2Proof.Machine

theorem length_wordsOf (n : Nat) : (wordsOf n).length = 8 := by simp [wordsOf]

theorem length_shaRound {h : List Word} (k : Word × Word) (hl : h.length = 8) : (shaRound h k).length = 8 := by
  simp [shaRound, hl]

theorem length_shaRounds (l : List (Word × Word)) {h : List Word} (hl : h.length = 8) : (l.foldl shaRound h).length = 8 := by
  induction l generalizing h with
  | nil => exact hl
  | cons k r ih => exact ih (length_shaRound k hl)

theorem length_shaBlock {h : List Word} (b : List Byte) (hl : h.length = 8) : (shaBlock h b).length = 8 := by
  simp [shaBlock, length_shaRounds _ hl, hl]

theorem length_shaBlocks (n : Nat) {h : List Word} (l : List Byte) (hl : h.length = 8) : (shaBlocks n h l).length = 8 := by
  induction n generalizing h l with
  | zero => exact hl
  | succ n ih => exact ih _ (length_shaBlock _ hl)

/-- A hash has 32 bytes. -/
theorem length_sha256 (l : List Byte) : (sha256 l).length = 32 := by
  have h4 : ∀ w : Word, (beBytes 4 w.toNat).length = 4 := fun w => by simp [beBytes, length_leBytes]
  have hs : shaH0.length = 8 := length_wordsOf _
  simp only [sha256, List.length_flatten, List.map_map, Function.comp_def, h4, List.map_const', List.sum_replicate,
    length_shaBlocks _ _ hs, smul_eq_mul]

/-- A tag has 32 bytes. -/
theorem length_hmac (k m : List Byte) : (hmac k m).length = 32 := length_sha256 _

end Sys2Proof.Machine
end

