-- ==== Sys2Proof/Laws/Regs.lean ====
section
/-! SUPPORT. The register table after each shared operation, by key: a field that an operation does not name reads as before. -/

namespace Sys2Proof.Machine

theorem Dev.get_setFld_same (d : Dev) (f : Field) (n : Nat) : Tab.get f.reset (d.setFld f n).regs f.key = n % 2 ^ f.w :=
  Dev.fld_setFld_same d f n

theorem Dev.get_setFld_ne (d : Dev) (f : Field) (n r k : Nat) (h : k ≠ f.key) :
    Tab.get r (d.setFld f n).regs k = Tab.get r d.regs k := Tab.get_set_other _ _ _ _ h

theorem Dev.get_setOn_same (d : Dev) (f : Field) (b : Bool) (h : 0 < f.w) :
    Tab.get f.reset (d.setOn f b).regs f.key = if b then 1 else 0 := Dev.fld_setOn_same d f b h

theorem Dev.get_setOn_ne (d : Dev) (f : Field) (b : Bool) (r k : Nat) (h : k ≠ f.key) :
    Tab.get r (d.setOn f b).regs k = Tab.get r d.regs k := Dev.get_setFld_ne d f _ r k h

theorem Dev.get_bump_same (d : Dev) (f : Field) (n : Nat) :
    Tab.get f.reset (d.bump f n).regs f.key = (Tab.get f.reset d.regs f.key + n) % 2 ^ f.w := Dev.fld_bump_same d f n

theorem Dev.get_bump_ne (d : Dev) (f : Field) (n r k : Nat) (h : k ≠ f.key) :
    Tab.get r (d.bump f n).regs k = Tab.get r d.regs k := Dev.get_setFld_ne d f _ r k h

theorem Dev.get_bumpSat_same (d : Dev) (f : Field) (n : Nat) :
    Tab.get f.reset (d.bumpSat f n).regs f.key = min (2 ^ f.w - 1) (Tab.get f.reset d.regs f.key + n) :=
  Dev.fld_bumpSat_same d f n

theorem Dev.get_bumpSat_ne (d : Dev) (f : Field) (n r k : Nat) (h : k ≠ f.key) :
    Tab.get r (d.bumpSat f n).regs k = Tab.get r d.regs k := Dev.get_setFld_ne d f _ r k h

theorem Dev.get_setFldBit_ne (d : Dev) (f : Field) (i : Nat) (b : Bool) (r k : Nat) (h : k ≠ f.key) :
    Tab.get r (d.setFldBit f i b).regs k = Tab.get r d.regs k := Dev.get_setFld_ne d f _ r k h

theorem Dev.get_evtAdd_ne (d : Dev) (i n r k : Nat) (h : k ≠ Reg.EVT_SIGNALS.COUNT.key) :
    Tab.get r (d.evtAdd i n).regs k = Tab.get r d.regs k := Dev.get_bump_ne _ _ _ r k h

theorem Dev.get_record (d : Dev) (x : FaultRec) (r k : Nat) (h1 : k ≠ Reg.FLT_LOG_HEAD.COUNT.key)
    (h2 : k ≠ Reg.GLB_STATE_CHANGE.RECORD.key) (h3 : k ≠ Reg.FLT_MGMT_STATUS.DROPPED.key) :
    Tab.get r (d.record x).regs k = Tab.get r d.regs k := by
  unfold Dev.record
  split
  · rfl
  · simp only [Dev.pumpReports_regs, Dev.msix_regs, Dev.logRecord]
    rw [Tab.get_set_other _ _ _ _ h3, Tab.get_set_other _ _ _ _ h2, Tab.get_set_other _ _ _ _ h1]

theorem Dev.get_refreshFlags (d : Dev) (r k : Nat) (h : k ≠ Reg.GLB_STATE_CHANGE.FLAGS.key) :
    Tab.get r d.refreshFlags.regs k = Tab.get r d.regs k := by
  unfold Dev.refreshFlags
  split
  · rfl
  · rw [Dev.msix_regs, Dev.get_setFld_ne _ _ _ r k h]

theorem Dev.get_setState (d : Dev) (st : DevState) (r k : Nat) (h : k ≠ Reg.GLB_STATE_CHANGE.STATE.key) :
    Tab.get r (d.setState st).regs k = Tab.get r d.regs k := by
  unfold Dev.setState
  rw [Dev.msix_regs, Dev.get_setFld_ne _ _ _ r k h]

theorem Dev.get_enterHalted (d : Dev) (c q r k : Nat) (h : k ≠ Reg.GLB_STATE_CHANGE.STATE.key)
    (h1 : k ≠ Reg.FLT_LOG_HEAD.COUNT.key) (h2 : k ≠ Reg.GLB_STATE_CHANGE.RECORD.key) (h3 : k ≠ Reg.FLT_MGMT_STATUS.DROPPED.key) :
    Tab.get r (d.enterHalted c q).regs k = Tab.get r d.regs k := by
  unfold Dev.enterHalted
  rw [Dev.get_record _ _ r k h1 h2 h3, Dev.get_setState _ _ r k h]

theorem Dev.get_setReason (d : Dev) (i r k : Nat) (h : k ≠ Reg.FLT_REASON.REASONS.key) (h0 : k ≠ Reg.GLB_STATE_CHANGE.FLAGS.key)
    (h1 : k ≠ Reg.FLT_LOG_HEAD.COUNT.key) (h2 : k ≠ Reg.GLB_STATE_CHANGE.RECORD.key) (h3 : k ≠ Reg.FLT_MGMT_STATUS.DROPPED.key) :
    Tab.get r (d.setReason i).regs k = Tab.get r d.regs k := by
  unfold Dev.setReason
  split
  · rfl
  · rw [Dev.get_record _ _ r k h1 h2 h3, Dev.get_setFld_ne _ _ _ r k h0, Dev.get_setFldBit_ne _ _ _ _ r k h]

theorem Dev.get_clearReason (d : Dev) (i r k : Nat) (h : k ≠ Reg.FLT_REASON.REASONS.key) (h0 : k ≠ Reg.GLB_STATE_CHANGE.FLAGS.key)
    (h1 : k ≠ Reg.FLT_LOG_HEAD.COUNT.key) (h2 : k ≠ Reg.GLB_STATE_CHANGE.RECORD.key) (h3 : k ≠ Reg.FLT_MGMT_STATUS.DROPPED.key) :
    Tab.get r (d.clearReason i).regs k = Tab.get r d.regs k := by
  unfold Dev.clearReason
  split
  · rw [Dev.get_record _ _ r k h1 h2 h3, Dev.get_setFld_ne _ _ _ r k h0, Dev.get_setFldBit_ne _ _ _ _ r k h]
  · rfl

theorem Dev.get_setCoreSt (d : Dev) (c st a b r k : Nat) (h : k ≠ (Reg.TWR_CORE.STATE c).key)
    (h0 : k ≠ Reg.GLB_STATE_CHANGE.FLAGS.key) (h1 : k ≠ Reg.FLT_LOG_HEAD.COUNT.key)
    (h2 : k ≠ Reg.GLB_STATE_CHANGE.RECORD.key) (h3 : k ≠ Reg.FLT_MGMT_STATUS.DROPPED.key) :
    Tab.get r (d.setCoreSt c st a b).regs k = Tab.get r d.regs k := by
  unfold Dev.setCoreSt
  rw [Dev.get_refreshFlags _ r k h0, Dev.get_record _ _ r k h1 h2 h3, Dev.get_setFld_ne _ _ _ r k h]

end Sys2Proof.Machine
end

