-- ==== Sys2Proof/Laws/Store.lean ====
section
/-! SUPPORT. What a store by an agent of this device does (R160 to R162, R302): where its bytes go, and what it leaves alone. -/

namespace Sys2Proof.Machine

/-- What no packet that leaves changes: memory, the cores, the device state, the lock and the host's memory. -/
def quiet (d : Dev) := (d.mem, d.poison, d.cores, d.runs, d.st, d.locked, d.hq, d.evt, d.satRows, d.flt)

theorem quiet_setFld (d : Dev) (f : Field) (n : Nat) : quiet (d.setFld f n) = quiet d := rfl
theorem quiet_bump (d : Dev) (f : Field) (n : Nat) : quiet (d.bump f n) = quiet d := rfl
theorem quiet_bumpSat (d : Dev) (f : Field) (n : Nat) : quiet (d.bumpSat f n) = quiet d := rfl
theorem quiet_setPort (d : Dev) (p : Nat) (x : Port) : quiet (d.setPort p x) = quiet d := rfl
theorem quiet_emit (d : Dev) (x : Emit) : quiet (d.emit x) = quiet d := rfl
theorem quiet_sendBlock (d : Dev) (p ty vc : Nat) (a b : Bool) (s : Nat) (l : List Byte) :
    quiet (d.sendBlock p ty vc a b s l) = quiet d := rfl

theorem quiet_sendPktBlocks (p : Nat) (q : Queued) (l : List Byte) (t k : Nat) :
    ∀ d : Dev, quiet (Dev.sendPktBlocks p q l t k d) = quiet d := by
  induction k with
  | zero => intro d; rfl
  | succ k ih => intro d; unfold Dev.sendPktBlocks; rw [ih, quiet_setPort, quiet_sendBlock]

theorem quiet_pumpN (p n : Nat) : ∀ d : Dev, quiet (Dev.pumpN p n d) = quiet d := by
  induction n with
  | zero => intro d; rfl
  | succ n ih =>
    intro d; unfold Dev.pumpN
    split
    · rfl
    · simp only; rw [ih, quiet_sendPktBlocks]; split <;> rfl

theorem quiet_leave (d : Dev) (n : Nat) (src : Option Nat) (q : Nat) (p o : Packet) (f : Bool) :
    quiet (d.leave n src q p o f) = quiet d := by
  unfold Dev.leave
  split
  · rfl
  · unfold Dev.enqueue Dev.pump; rw [quiet_pumpN]; rfl

theorem quiet_lineOut (d : Dev) (p : Packet) (c n : Nat) : quiet (d.lineOut p c n) = quiet d := by
  unfold Dev.lineOut Dev.numbered Dev.lineCopy
  split
  · rfl
  · simp only
    split
    · rfl
    · split
      · rfl
      · rw [quiet_leave]; rfl

theorem quiet_lineSend (d : Dev) (a : Nat) (p : Packet) : quiet (d.lineSend a p) = quiet d := by
  unfold Dev.lineSend
  simp only
  split
  · rfl
  · rw [quiet_lineOut, quiet_lineOut]; rfl

theorem quiet_send (d : Dev) (p : Packet) : quiet (d.send p) = quiet d := rfl
theorem quiet_modOp (d : Dev) (i : Nat) (f : MfbOp → MfbOp) : quiet (d.modOp i f) = quiet d := rfl

theorem quiet_ite {d x y : Dev} (c : Prop) [Decidable c] (hx : quiet x = quiet d) (hy : quiet y = quiet d) :
    quiet (if c then x else y) = quiet d := by split <;> assumption

theorem quiet_sendReq (d : Dev) (o : MfbOp) (k : MfbPkt) : quiet (d.sendReq o k) = quiet d := by
  unfold Dev.sendReq
  rw [quiet_modOp]
  refine quiet_ite _ ?_ ?_
  · rw [quiet_lineSend]; exact quiet_ite _ rfl rfl
  · rw [quiet_send]; exact quiet_ite _ rfl rfl

theorem quiet_pumpHomeN (h n : Nat) : ∀ d : Dev, quiet (Dev.pumpHomeN h n d) = quiet d := by
  induction n with
  | zero => intro d; rfl
  | succ n ih =>
    intro d; unfold Dev.pumpHomeN
    split
    · rfl
    · rw [ih, quiet_sendReq]

theorem quiet_rlcDropRange (d : Dev) (i a n : Nat) : quiet (d.rlcDropRange i a n) = quiet d := rfl

theorem quiet_rlcWrite (d : Dev) (o : MfbOp) : quiet (d.rlcWrite o) = quiet d := by
  unfold Dev.rlcWrite
  split
  · apply foldl_keeps quiet; intro d a; exact quiet_rlcDropRange d _ _ _
  · split
    · exact quiet_rlcDropRange d _ _ _
    · rfl

/-- A mirrored part that is sent leaves memory, the cores and the host interface as they are. -/
theorem quiet_mirrorSend (d : Dev) (a n : Nat) : quiet (d.mirrorSend a n) = quiet d := by
  unfold Dev.mirrorSend Dev.issueOp Dev.startOp Dev.pumpOp; simp only
  rw [foldl_keeps quiet _ (fun d a => by unfold Dev.pumpHome; rw [quiet_pumpHomeN]; rfl)]
  exact quiet_rlcWrite _ _

theorem quiet_handoverLost (d : Dev) : (d.handoverBuddyLost).mem = d.mem ∧ (d.handoverBuddyLost).regs = d.regs ∧
    (d.handoverBuddyLost).cores = d.cores ∧ (d.handoverBuddyLost).st = d.st := by
  unfold Dev.handoverBuddyLost
  split
  · exact ⟨rfl, rfl, rfl, rfl⟩
  · rename_i h _
    simp only
    refine ⟨?_, ?_, ?_, ?_⟩
    · apply foldl_keeps (fun d : Dev => d.mem); intro d e; simp
    · apply foldl_keeps (fun d : Dev => d.regs); intro d e; simp
    · apply foldl_keeps (fun d : Dev => d.cores); intro d e; simp
    · apply foldl_keeps (fun d : Dev => d.st); intro d e; simp

/-- A mirror that breaks writes its record, and changes no other byte of memory. -/
theorem Dev.breakMirror_peek (d : Dev) (q : Nat) (h : q < d.logAddr 0 ∨ d.logAddr 0 + 0x4000 ≤ q) :
    d.breakMirror.peek q = d.peek q := by
  unfold Dev.breakMirror
  simp only
  split
  · unfold Dev.setMirror
    simp only [OfNat.ofNat_ne_one, if_false]
    generalize hx : ({ d with mfb := { d.mfb with mirrorHold := [], ops := _ } } : Dev) = x
    obtain ⟨h1, h2, h3, h4⟩ := quiet_handoverLost x
    have hm : x.handoverBuddyLost.mem = d.mem := by rw [h1, ← hx]
    have hr : x.handoverBuddyLost.regs = d.regs := by rw [h2, ← hx]
    rw [Dev.peek_record_out]
    · show Tab.get 0 x.handoverBuddyLost.mem q = _; rw [hm]; rfl
    · have : (x.handoverBuddyLost.setFld Reg.VLT_MIRROR_PEER.STATE 2).logAddr 0 = d.logAddr 0 := by
        unfold Dev.logAddr
        rw [Dev.fld_setFld_ne _ _ (by decide)]
        unfold Dev.fld; rw [hr]
      rw [this]; exact h
  · rfl

/-- What a store sends to the partner changes no byte of memory, but the host log where the mirror breaks. -/
theorem Dev.mirror_peek (d : Dev) (a n q : Nat) (h : MirrorHolds d ∨ q < d.logAddr 0 ∨ d.logAddr 0 + 0x4000 ≤ q) :
    (d.mirror a n).peek q = d.peek q := by
  unfold Dev.mirror
  simp only
  split
  · rfl
  · rename_i hm
    split
    · rfl
    · split
      · rename_i hg
        rcases h with h | h
        · simp [MirrorHolds, hg] at h; simp [h] at hm
        · exact Dev.breakMirror_peek d q h
      · have := foldl_keeps (fun d : Dev => d.mem) (fun (d : Dev) (p : Nat × Nat) => d.mirrorSend p.1 p.2)
          (fun d p => congrArg Prod.fst (quiet_mirrorSend d p.1 p.2)) (d.mirrorParts a n) d
        unfold Dev.peek; rw [this]

theorem Dev.mirror_cores (d : Dev) (a n : Nat) : (d.mirror a n).cores = d.cores := by
  unfold Dev.mirror
  simp only
  split
  · rfl
  · split
    · rfl
    · split
      · unfold Dev.breakMirror Dev.setMirror
        simp only [OfNat.ofNat_ne_one, if_false]
        split
        · rw [Dev.record_cores]; exact (quiet_handoverLost _).2.2.1
        · rfl
      · apply foldl_keeps (fun d : Dev => d.cores)
        intro d p; exact congrArg (fun x => x.2.2.1) (quiet_mirrorSend d p.1 p.2)

theorem Dev.besideLive_off (d : Dev) (a n : Nat) (f : Dev → Nat → Nat → Dev)
    (h : (d.locked && overlaps a n (d.updArea + 0x1000) 0x1000) = false) : d.besideLive a n f = f d a n := by
  unfold Dev.besideLive
  simp only [h]
  rfl

/-- One part of a store: its bytes go to [x, x + n). -/
def storeAt (a : Nat) (l : List Byte) (d : Dev) (x n : Nat) : Dev := (d.write x (slice l (x - a) n)).mirror x n

theorem slice_get (l : List Byte) (a n i : Nat) (hi : i < (slice l a n).length) (h : a + i < l.length) :
    (slice l a n)[i] = l.getD (a + i) 0 := by
  rw [List.getD_eq_getElem _ _ h]
  rw [length_slice] at hi
  have e : (slice l a n)[i]? = l[a + i]? := by
    show (List.take n (l.drop a ++ zeros (n - (l.drop a).length)))[i]? = _
    rw [List.getElem?_take_of_lt hi, List.getElem?_append_left (by simp; omega), List.getElem?_drop]
  rw [List.getElem?_eq_getElem (by simpa using hi), List.getElem?_eq_getElem h] at e
  exact Option.some.inj e

theorem storeAt_peek (a : Nat) (l : List Byte) (d : Dev) (x n q : Nat) (hx : a ≤ x) (hn : x + n ≤ a + l.length)
    (h : MirrorHolds d ∨ q < d.logAddr 0 ∨ d.logAddr 0 + 0x4000 ≤ q) :
    (storeAt a l d x n).peek q = if x ≤ q ∧ q < x + n then l.getD (q - a) 0 else d.peek q := by
  unfold storeAt
  have hl := length_slice l (x - a) n
  rw [Dev.mirror_peek (d.write x (slice l (x - a) n)) x n q h]
  split
  · rename_i hq
    have e := Dev.peek_write_in d x (q - x) (slice l (x - a) n) (by omega)
    rw [show x + (q - x) = q by omega] at e
    rw [e, slice_get _ _ _ _ _ (by omega), show x - a + (q - x) = q - a by omega]
  · exact Dev.peek_write_out d x q _ (by omega)

/-! ### Registers -/

/-- The counters that packets which leave change. -/
def sendFields : List Field := [Reg.FAB_MCAST.ORIGINATED, Reg.FAB_MCAST.CUT, Reg.FAB_PKTS.COUNT, Reg.FAB_DROPS.HOP_LIMIT,
  Reg.FAB_TREE_FALLBACK.COUNT]

/-- The lock and every register but these counters stay. -/
def Sends (d e : Dev) : Prop := e.locked = d.locked ∧ FieldsKept sendFields d e

theorem Sends.refl (d : Dev) : Sends d d := ⟨rfl, FieldsKept.refl _ d⟩
theorem Sends.trans {d e f : Dev} (h : Sends d e) (h' : Sends e f) : Sends d f := ⟨h'.1.trans h.1, h.2.trans h'.2⟩
theorem Sends.of_eq {d e : Dev} (h : e.locked = d.locked) (hr : e.regs = d.regs) : Sends d e :=
  ⟨h, fun g _ => by unfold Dev.fld; rw [hr]⟩
theorem Sends.bump (d : Dev) (f : Field) (n : Nat) (h : f.key ∈ sendFields.map Field.key) : Sends d (d.bump f n) :=
  ⟨rfl, FieldsKept.setFld d f _ _ h⟩
theorem Sends.bumpSat (d : Dev) (f : Field) (n : Nat) (h : f.key ∈ sendFields.map Field.key) : Sends d (d.bumpSat f n) :=
  ⟨rfl, FieldsKept.setFld d f _ _ h⟩

theorem sends_setPort (d : Dev) (p : Nat) (x : Port) : Sends d (d.setPort p x) := Sends.of_eq rfl rfl
theorem sends_sendBlock (d : Dev) (p ty vc : Nat) (a b : Bool) (s : Nat) (l : List Byte) :
    Sends d (d.sendBlock p ty vc a b s l) := Sends.of_eq rfl rfl

theorem sends_pktBlocks (p : Nat) (q : Queued) (l : List Byte) (t k : Nat) :
    ∀ d : Dev, Sends d (Dev.sendPktBlocks p q l t k d) := by
  induction k with
  | zero => intro d; exact Sends.refl d
  | succ k ih =>
    intro d; unfold Dev.sendPktBlocks
    exact Sends.trans (sends_sendBlock ..) (Sends.trans (sends_setPort ..) (ih _))

theorem sends_pumpN (p n : Nat) : ∀ d : Dev, Sends d (Dev.pumpN p n d) := by
  induction n with
  | zero => intro d; exact Sends.refl d
  | succ n ih =>
    intro d; unfold Dev.pumpN
    split
    · exact Sends.refl d
    · simp only
      refine Sends.trans (Sends.trans ?_ (sends_pktBlocks ..)) (ih _)
      split
      · exact Sends.trans (Sends.of_eq (e := d.setPort p _) rfl rfl) (Sends.bump _ _ _ (by decide))
      · exact Sends.of_eq rfl rfl

theorem sends_leave (d : Dev) (n : Nat) (src : Option Nat) (q : Nat) (p o : Packet) (f : Bool) :
    Sends d (d.leave n src q p o f) := by
  unfold Dev.leave
  split
  · exact Sends.bumpSat _ _ _ (by decide)
  · unfold Dev.enqueue Dev.pump
    exact Sends.trans (Sends.of_eq (e := d.setPort q _) rfl rfl) (sends_pumpN ..)

theorem sends_lineOut (d : Dev) (p : Packet) (c n : Nat) : Sends d (d.lineOut p c n) := by
  unfold Dev.lineOut Dev.numbered Dev.lineCopy
  split
  · exact Sends.refl d
  · simp only
    have h : Sends d (({ d with fab := { d.fab with count := d.fab.count + 1 } } : Dev).bump Reg.FAB_PKTS.COUNT 1) :=
      Sends.trans (Sends.of_eq rfl rfl) (Sends.bump _ _ _ (by decide))
    split
    · exact h.trans (Sends.bumpSat _ _ _ (by decide))
    · split
      · exact h.trans (Sends.bumpSat _ _ _ (by decide))
      · exact h.trans (sends_leave ..)

theorem sends_lineSend (d : Dev) (a : Nat) (p : Packet) : Sends d (d.lineSend a p) := by
  unfold Dev.lineSend
  simp only
  split
  · exact Sends.refl d
  · exact ((Sends.bumpSat _ _ _ (by decide)).trans (sends_lineOut ..)).trans (sends_lineOut ..)

theorem sends_send (d : Dev) (p : Packet) : Sends d (d.send p) := Sends.of_eq (Dev.send_locked ..) (Dev.send_regs ..)

theorem Sends.ite {d x y : Dev} (c : Prop) [Decidable c] (hx : Sends d x) (hy : Sends d y) : Sends d (if c then x else y) := by
  split <;> assumption

theorem sends_sendReq (d : Dev) (o : MfbOp) (k : MfbPkt) : Sends d (d.sendReq o k) := by
  unfold Dev.sendReq
  refine Sends.trans (Sends.ite _ ?_ ?_) (Sends.of_eq rfl rfl)
  · refine Sends.trans ?_ (sends_lineSend ..)
    exact Sends.ite _ (Sends.of_eq rfl rfl) (Sends.of_eq rfl rfl)
  · refine Sends.trans ?_ (sends_send ..)
    exact Sends.ite _ (Sends.of_eq rfl rfl) (Sends.of_eq rfl rfl)

theorem sends_pumpHomeN (h n : Nat) : ∀ d : Dev, Sends d (Dev.pumpHomeN h n d) := by
  induction n with
  | zero => intro d; exact Sends.refl d
  | succ n ih =>
    intro d; unfold Dev.pumpHomeN
    split
    · exact Sends.refl d
    · exact (sends_sendReq ..).trans (ih _)

theorem Sends.fold {α : Type} (f : Dev → α → Dev) (h : ∀ d a, Sends d (f d a)) (l : List α) : ∀ d, Sends d (l.foldl f d) := by
  induction l with
  | nil => intro d; exact Sends.refl d
  | cons a l ih => intro d; exact (h d a).trans (ih _)

theorem sends_rlcWrite (d : Dev) (o : MfbOp) : Sends d (d.rlcWrite o) := by
  unfold Dev.rlcWrite
  split
  · apply Sends.fold; intro d a; exact Sends.of_eq rfl rfl
  · split <;> exact Sends.of_eq rfl rfl

theorem sends_mirrorSend (d : Dev) (a n : Nat) : Sends d (d.mirrorSend a n) := by
  unfold Dev.mirrorSend Dev.issueOp Dev.startOp Dev.pumpOp; simp only
  refine Sends.trans ?_ (Sends.fold _ (fun d a => ?_) _ _)
  · refine Sends.trans (Sends.trans ?_ (sends_rlcWrite d.takeTag _)) (Sends.of_eq rfl rfl)
    exact Sends.of_eq rfl rfl
  · unfold Dev.pumpHome
    exact Sends.trans (Sends.of_eq rfl rfl) (sends_pumpHomeN ..)

theorem Sends.holds {d e : Dev} (h : Sends d e) : (MirrorHolds e ↔ MirrorHolds d) ∧ e.logAddr 0 = d.logAddr 0 := by
  have hf : ∀ i, e.fld (Reg.FAB_ROUTE.LOST i) = d.fld (Reg.FAB_ROUTE.LOST i) ∧ e.fld (Reg.FAB_ROUTE.KIND i) = d.fld (Reg.FAB_ROUTE.KIND i) := by
    intro i
    constructor <;> apply h.2 <;> simp [sendFields, Field.key, Reg.FAB_ROUTE.LOST, Reg.FAB_ROUTE.KIND, Reg.FAB_MCAST.ORIGINATED,
      Reg.FAB_MCAST.CUT, Reg.FAB_PKTS.COUNT, Reg.FAB_DROPS.HOP_LIMIT, Reg.FAB_TREE_FALLBACK.COUNT] <;> omega
  constructor
  · unfold MirrorHolds Dev.mirrors Dev.peerGone Dev.noRoute Dev.kind Dev.on
    rw [h.1, h.2 Reg.VLT_MIRROR_PEER.ENABLE (by decide), h.2 Reg.VLT_MIRROR_PEER.STATE (by decide),
      h.2 Reg.VLT_MIRROR_PEER.FLAT_ID (by decide), (hf _).1, (hf _).2]
  · unfold Dev.logAddr; rw [h.2 Reg.FLT_LOG_BASE.BASE (by decide)]

/-- What one part of a store leaves to the next: where a broken mirror writes. -/
theorem storeAt_next {a : Nat} {l : List Byte} {d : Dev} {x n q : Nat}
    (h : MirrorHolds d ∨ q < d.logAddr 0 ∨ d.logAddr 0 + 0x4000 ≤ q) :
    MirrorHolds (storeAt a l d x n) ∨ q < (storeAt a l d x n).logAddr 0 ∨ (storeAt a l d x n).logAddr 0 + 0x4000 ≤ q := by
  have key : Sends d (storeAt a l d x n) → MirrorHolds (storeAt a l d x n) ∨ q < (storeAt a l d x n).logAddr 0 ∨
      (storeAt a l d x n).logAddr 0 + 0x4000 ≤ q := by
    intro hs
    obtain ⟨h1, h2⟩ := hs.holds
    rw [h1, h2]; exact h
  unfold storeAt at key ⊢
  have hw : Sends d (d.write x (slice l (x - a) n)) := Sends.of_eq (by simp) (by simp)
  generalize d.write x (slice l (x - a) n) = w at *
  by_cases hb : w.mirrors = true ∧ (w.mirrorParts x n).isEmpty = false ∧ w.peerGone (w.fld Reg.VLT_MIRROR_PEER.FLAT_ID) = true
  · left
    have : w.mirror x n = w.breakMirror := by unfold Dev.mirror; simp [hb.1, hb.2.1, hb.2.2]
    rw [this]
    unfold Dev.breakMirror
    simp only
    split
    · unfold Dev.setMirror
      simp only [OfNat.ofNat_ne_one, if_false]
      unfold MirrorHolds Dev.mirrors
      rw [Dev.fld_record _ _ (by decide) (by decide) (by decide), Dev.fld_setFld_same]
      simp [Reg.VLT_MIRROR_PEER.STATE]
    · rename_i hm; exact absurd hb.1 hm
  · apply key
    refine hw.trans ?_
    unfold Dev.mirror
    simp only
    split
    · exact Sends.refl w
    · split
      · exact Sends.refl w
      · split
        · exfalso; apply hb; simp_all
        · exact Sends.fold _ (fun d p => sends_mirrorSend d _ _) _ _

/-- Where a store puts its bytes, and what it leaves alone. -/
theorem Dev.store_stored (d : Dev) (a : Nat) (l : List Byte) : Stored a l d (d.store a l) := by
  intro q h
  unfold Dev.store
  show (d.besideLive a l.length (fun d x n => storeAt a l d x n)).peek q = _
  unfold Dev.besideLive
  simp only
  split
  · rename_i ho
    simp only [overlaps, Bool.and_eq_true, decide_eq_true_eq] at ho
    obtain ⟨hl, ⟨⟨h1, h2⟩, h3⟩, h4⟩ := ho
    have hlive : liveCopy d q = false ↔ ¬(d.updArea + 0x1000 ≤ q ∧ q < d.updArea + 0x2000) := by
      rw [← Bool.not_eq_true]; simp [liveCopy, hl]
    split <;> split
    · rw [storeAt_peek _ _ _ _ _ _ (by omega) (by omega) (storeAt_next h), storeAt_peek _ _ _ _ _ _ (by omega) (by omega) h]
      simp only [hlive]; split_ifs <;> first | rfl | omega
    · rw [storeAt_peek _ _ _ _ _ _ (by omega) (by omega) h]
      simp only [hlive]; split_ifs <;> first | rfl | omega
    · rw [storeAt_peek _ _ _ _ _ _ (by omega) (by omega) h]
      simp only [hlive]; split_ifs <;> first | rfl | omega
    · simp only [hlive]; split_ifs <;> first | rfl | omega
  · rename_i ho
    rw [storeAt_peek _ _ _ _ _ _ (le_refl a) (le_refl _) h]
    split_ifs with g1 g2 g2
    · rfl
    · exfalso; apply ho
      have hh : liveCopy d q = true := by
        rw [← Bool.not_eq_false]; exact fun hc => g2 ⟨g1.1, g1.2, hc⟩
      simp only [liveCopy, Bool.and_eq_true, decide_eq_true_eq] at hh
      simp only [overlaps, Bool.and_eq_true, decide_eq_true_eq]
      exact ⟨hh.1.1, ⟨⟨by omega, by omega⟩, by omega⟩, by omega⟩
    · omega
    · rfl

end Sys2Proof.Machine
end

