-- ==== Sys2Proof/Tests/Slice0.lean ====
section
/-! SUPPORT. Tests: small states to try commands on, the spec's worked examples, ill-formed commands that are refused, and for
every statement a state and operands that meet its hypotheses. -/

namespace Sys2Proof.Machine

set_option maxRecDepth 10000
set_option Elab.async false

/-! ### Small states -/

/-! ### Builders of small states -/

/-- n bytes with values at offsets. -/
def fill (n : Nat) (l : List (Nat × Nat)) : List Byte := leBytes n (l.foldl (fun m e => m + e.2 * 2 ^ (8 * e.1)) 0)

/-- The device in a state, 20 s after RESET: powered, link up, locked, every ring on. -/
def tDev (st : DevState) : Dev :=
  (({ Dev.init with
      st := st
      locked := true
      clock := 16000000000
      pins := { Pins.init with pwrgood := true, resetN := true, perstN := true }
      hq := { HQ.init with pcieUp := true, busMaster := true, msixOn := true } } : Dev).setFld Reg.HQ_CTRL.ENABLE 1).setFld
    Reg.HQ_CTRL.RING_EN 0xFFFF

/-- A device with no command waiting. -/
def tS (d : Dev) : State := ⟨d, []⟩

/-- A descriptor of ring 0 with values at offsets. -/
def tJ (l : List (Nat × Nat)) : Desc := ⟨0, 0, fill 64 l, 0⟩

/-- The device with a descriptor at the head of ring 0. -/
def tHead (d : Dev) (j : Desc) : State := tS (d.setRing 0 { Ring.init with fetched := [j] })

/-- The device with a descriptor of ring 0 in flight. -/
def tFly (d : Dev) (j : Desc) : State := tS (d.setRing 0 { Ring.init with started := [j] })

/-- Region i at an address with a length, readable and writable: in the device, or in the host. -/
def tReg (d : Dev) (i a n : Nat) (dev : Bool) : Dev :=
  (((((d.setFld (Reg.HQ_REGION_BASE.BASE i) a).setFld (Reg.HQ_REGION_LEN.LEN i) n).setOn (Reg.HQ_REGION_LEN.VALID i) true).setOn
    (Reg.HQ_REGION_LEN.RD i) true).setOn (Reg.HQ_REGION_LEN.WR i) true).setOn (Reg.HQ_REGION_LEN.DEVICE i) dev

/-- A ROM start that finds everything in order. -/
def tRom : RomInputs := ⟨true, 1, [0, 2, 4, 6, 8, 10, 12, 14], 0, 0⟩

/-- A device in RESET with its pins high, in an internal reset pulse or not. -/
def tReset (pulse : Bool) : State :=
  tS { Dev.init with
    pins := { Pins.init with pwrgood := true, resetN := true, perstN := true }, boot := { Boot.init with pulse := pulse } }

/-- A device in BOOT in a phase. -/
def tBoot (p : BootPhase) (fails : Nat) : State := tS { tDev .boot with boot := { Boot.init with phase := p, fails := fails } }

/-- The device with every PLL locked and every bundle of the die-to-die links in service. -/
def tLink (st : DevState) : Dev :=
  let d := (((tDev st).setFld Reg.CLK_STATUS.ROOT_LOCK 1).setFld Reg.CLK_STATUS.TWR_LOCK 0xFF).setFld Reg.CLK_STATUS.ENG_LOCK 0xFFF
  (List.range 20).foldl (fun d l => d.setFld (Reg.D2D_LINK_STATUS.BUNDLE_UP l) (2 ^ bundlesOf l - 1)) d

/-- A packet from a device to this one. -/
def tP (cls op src da tag : Nat) (l : List Byte) : Packet := ⟨cls, false, true, false, false, op, 0xFFFF, src, da, 0, tag, l⟩

/-- A flit: its 124 bytes with their CRC. -/
def tFlit (l : List (Nat × Nat)) : List Byte := fill 124 l ++ leBytes 4 (crc32c (fill 124 l))

/-- Core 191 in RUNNING, held by the RUN with key (0, 5), whose program of some operations stands at SRAM offset 0x100. -/
def tCore (ops : List (List (Nat × Nat))) (f : Core → Core) : Dev :=
  let d : Dev := { tLink .running with stp := { Stp.init with phase := .open, cfg := { StepCfg.init with budget := 4 } } }
  let d := d.setRing 0 { Ring.init with started := [⟨0, 5, fill 64 [(0, 0x10)], 0⟩] }
  let d : Dev := { d with runs := [⟨(0, 5), 2 ^ 191, [(191, 0x100)], 0, 0, true, true, false, [], 0, 0, [], []⟩] }
  let d := d.write (sramAt 191 0x100) (fill 32 [(0, 0x7F), (1, 1), (4, ops.length)] ++ (ops.map (fill 32)).flatten)
  d.setCore 191 (f { Core.init with owner := some (0, 5), hdr := 0x100, phase := .running })

/-- An operation record at position 0, not started. -/
def tOp (l : List (Nat × Nat)) : OpRec := ⟨0, fill 32 l, false, [], none, false, false, false⟩

/-- Core 191 with one operation, of the program and dispatched. -/
def tOpCore (l : List (Nat × Nat)) (f : OpRec → OpRec) : Dev := tCore [l] (fun x => { x with ops := [f (tOp l)], next := 1 })

/-- A start that nothing held. -/
def tStart : Start := ⟨3, 2, ⟨[], []⟩⟩

/-- An instruction word. -/
def tW (op d a b rest : Nat) : Nat := op * 2 ^ 26 + d * 2 ^ 21 + a * 2 ^ 16 + b * 2 ^ 11 + rest

/-- Core 191 running vector code of one word, its context changed. -/
def tVec (w : Nat) (f : VecCtx → VecCtx) : Dev :=
  let d := tOpCore [(0, 0x10), (2, 1), (4, 0x6000), (24, 0x7000), (28, 64)] (fun o => { o with started := true })
  let d := d.write (sramAt 191 0x6000) (leBytes 4 w)
  d.setCtx 191 (f (VecCtx.start 256 (sramAt 191 0x6000) 1 0 (0, 0x40000) (0, 0) (0x7000, 0x1000)))

/-- The device in READY with port p in a state, its other state changed. -/
def tPort (p st : Nat) (f : Port → Port) : Dev :=
  let d := ((tLink .ready).setFld (Reg.OPT_PORT_STATUS.STATE p) st).setFld (Reg.OPT_LANE_STATE.RX_CAL p) 0x1F
  ((List.range 16).foldl (fun d s => (d.setFld (Reg.OPT_MAP.RX_SLOT_LANE p s) s).setFld (Reg.OPT_MAP.TX_SLOT_LANE p s) s) d).modPort p f

/-- A block: its 252 bytes with their CRC. -/
def tBlk (l : List (Nat × Nat)) : List Byte := fill 252 l ++ leBytes 4 (crc32 (fill 252 l))

/-- A control block of a subtype. -/
def tCtl (sub : Nat) (l : List (Nat × Nat)) : List Byte := tBlk ([(0, 2), (8, sub)] ++ l)

/-- An alignment unit. -/
def tUnit (n : Nat) : List Byte := [0x4D, 0x41, 0x52, 0x4B] ++ leBytes 2 0 ++ leBytes 2 n ++ List.replicate 8 0x5A

/-- A migration of core 5 in a phase. -/
def tMig (p : MigPhase) (d : Option (Nat × Nat)) : Migr := ⟨5, .spareCore, d, p, 25, 0, 0, []⟩

/-- The device in RUNNING with core 5 migrating. -/
def tMigs (p : MigPhase) : Dev := { ((tLink .running).setFld (Reg.TWR_CORE.STATE 5) 1) with migs := [tMig p none] }

/-- A device with a handover under way with device 9. -/
def tHo (st : DevState) (e : Bool) (p : HoPhase) (u : Nat) (f : Handover → Handover) : Dev :=
  let d := ((tLink st).setFld Reg.FAB_SELF.FLAT_ID 7).setFld (Reg.FAB_ROUTE.KIND 9) 1
  { d with flt := { Flt.init with handover := some (f ⟨e, 9, 7, (0, 0), p, 0, 0, 0, 1, u, 0, 0, [], [], [], 0, []⟩) } }

/-- A packet waits at the engine. -/
def tIn (d : Dev) (p : Packet) : Dev := { d with fab := { d.fab with inbox := [p] } }

/-- A device in READY whose management port serves. -/
def tMgmt : Dev :=
  { (tLink .ready).setFld Reg.FLT_MGMT_STATUS.LINK_UP 1 with boot := { Boot.init with act := some (fill 96 [(5, 1)]) } }

/-- A management message of 80 bytes with its tag. -/
def tMsg (l : List (Nat × Nat)) : List Byte := fill 48 l ++ hmac [] (fill 48 l)

/-- A collective of devices 7 and 9 in slot 0, changed. -/
def tColl (tag : Nat) (f : Coll → Coll) : Coll :=
  f { key := (0, 0), group := 1, kind := 0, rop := 0, dfmt := 0, wfmt := 0, tag := tag, count := 64, cap := 64, flags := 0, layer := 0,
      members := [7, 9], rank := 0, send := [(vaultBase 0, 64)], recv := [(vaultBase 1, 64)], step := 0, slot := some 0, last := 0,
      recs := [], got := [], sentRounds := [], data := false, vals := List.replicate 64 0, segs := [], conv := false, ins := [],
      outs := [], blocks := [], hyper := [], faults := [] }

/-- Device 7 in a state with group 1 of devices 7 and 9 and some collectives, whose descriptor is in flight. -/
def tCar (st : DevState) (l : List Coll) : Dev :=
  let d := (((tLink st).setFld Reg.FAB_SELF.FLAT_ID 7).setFld (Reg.FAB_ROUTE.KIND 9) 1).setRing 0 { Ring.init with started := [tJ [(0, 0x30)]] }
  { d with
    car := { Car.init with groups := [(1, [7, 9])], colls := l }
    tgt := { Tgt.init with polWatch := 100 }
    stp := { Stp.init with phase := .open, cfg := { StepCfg.init with group := 1 } } }

/-- The data phase of a collective: one transfer from device 9 of one chunk of 128 bytes, granted. -/
def tData (b : List Byte) (c : Coll) : Coll := { c with data := true, ins := [⟨0, 1, [⟨0, 0, 128⟩], 1, 0, b, []⟩] }

/-- A binding of tensor 5: 256 elements of FP32 in core 0's vault. -/
def tBind : Binding := ⟨5, 0, vaultBase 0, vaultBase 0 + 0x10000, vaultBase 0 + 0x20000, 256, 0, 1, 3, 1, 0x1000, 0, false⟩

/-- The device with tensor 5 bound and an update header at Midway offset 0. -/
def tUpd (st : DevState) (l : List Binding) : Dev :=
  let d := ((tLink st).setFld Reg.UPD_UNDO_LEN.LEN 0x10000).write midwayBase (fill 32 [(0, 0x55), (1, 1), (4, 0x1000)])
  { d with upd := { Upd.init with binds := l } }

/-- An operation in flight towards device 9. -/
def tMOp (mop : Nat) (f : MfbOp → MfbOp) : MfbOp :=
  f ⟨3, mop, .desc 0 0, 9, 7, vaultBase 0, 8, true, vaultBase 1, none, [⟨vaultBase 0, 8, [], true, 0, 0, false, false⟩], 0, 0, 0, 0, 0, []⟩

/-- The device with operations in flight. -/
def tMfb (l : List MfbOp) : Dev :=
  let d := ((tLink .ready).setFld (Reg.FAB_ROUTE.KIND 9) 1).setFld (Reg.FAB_ROUTE.JOB 9) 1
  let d := d.setRing 0 { Ring.init with started := [tJ [(0, 0x40), (24, 1)]] }
  { d with mfb := { Mfb.init with ops := l } }

/-- The update collective of device 7 alone over the block of tensor 5. -/
def tUColl (b : List (Nat × BlkSt)) : Coll :=
  tColl 5 (fun c => { c with group := 2, count := 256, cap := 256, flags := 2, layer := 3, members := [7], data := true,
                             vals := List.replicate 256 0, blocks := b })

/-- Device 7 in RUNNING with tensor 5 bound, some blocks running, and its update collective. -/
def tUC (r : List (Nat × Option BlkJob)) (b : List (Nat × BlkSt)) : Dev :=
  let d := (tUpd .running [tBind]).setFld Reg.UPD_CORES.IN_SERVICE (2 ^ 64 - 1)
  { d with upd := { d.upd with running := r }, car := { (tCar .running []).car with colls := [tUColl b] } }

/-- The device in READY with a cartridge in slot i in a state. -/
def tLm (i st : Nat) (f : Slot → Slot) : Dev :=
  let d := ((tLink .ready).setFld (Reg.LIM_STATE.STATE i) st).modSlot i f
  { d with pins := { d.pins with lmPresent := 2 ^ i, lmEn := 2 ^ i } }

/-- The same with spare slot i serving home group k since time 0. -/
def tSpare (i st k : Nat) : Dev :=
  let d := (tLm i st id).modStp (fun t => { t with time := ms 20 })
  { d with lim := { d.lim with group := [(i - 8, k + 1)] } }

/-- A cartridge's record. -/
def tCard : List Byte := fill 72 [(0, 0x4F38312D4D4C), (8, 77)]

/-- A reading of a cartridge that is locked with no power on any line. -/
def tReading : CartReading := ⟨100, List.replicate 18 0, true, false⟩

/-- Device 7 with core request ring 0 enabled and its first descriptor placed. -/
def tCR (l : List (Nat × Nat)) : Dev :=
  let d := ((tLink .ready).setFld (Reg.MFB_RING_BASE.DA 0) (midwayBase + 0x100000)).setFld (Reg.MFB_RING_CFG.ENABLE 0) 1
  { d.write (midwayBase + 0x100000) (fill 64 l) with evt := [(0, 1)] }

/-! ### The spec's worked examples

Every expected value below stands in a worked example of the spec. -/

/-- Chapter 0: device address 0x53_0010_0040 is offset 0x10_0040 of core 83's vault, a core of tower 3. -/
theorem test_address : regionOf 0x5300100040 = .vault 83 0x100040 ∧ towerOf 83 = 3 := by decide +kernel

/-- Chapter 6: vault offset 0x10_0040 lies in layer 0, bank 2, row 2. -/
theorem test_vault_map : vLayer 0x100040 = 0 ∧ vBank 0x100040 = 2 ∧ vRow 0x100040 = 2 := by decide +kernel

/-- Chapter 1: the request uses bundle 6, its response bundle 15, and bundle 7 once bundle 6 is out of service. -/
theorem test_bundle : bundleFor 13 131 0 0xFFFF 16 = 6 ∧ bundleFor 131 13 1 0xFFFF 16 = 15 ∧ bundleFor 13 131 0 0xFFBF 16 = 7 := by
  decide +kernel

/-- Chapter 3: 13.5 to FP8-E4M3 by RNE, by RTZ, and stochastically by two generator words. -/
theorem test_round : (convert ⟨4, 0, false, 0, false, 0⟩ .rne (fp32 0x41580000)).code = 0x56 ∧
    (convert ⟨4, 1, false, 0, false, 0⟩ .rtz (fp32 0x41580000)).code = 0x55 ∧
    (convert ⟨4, 2, false, 0, false, 0⟩ (.sr 0x30000000) (fp32 0x41580000)).code = 0x56 ∧
    (convert ⟨4, 2, false, 0, false, 0⟩ (.sr 0xC0000000) (fp32 0x41580000)).code = 0x55 := by decide +kernel

/-- Chapter 3: 130.0 overflows with E = 2; with E = 1 it gives 256, and 3.3 gives 6.5. -/
theorem test_replay : (convert ⟨4, 0, true, 2, false, 0⟩ .rne ((fp32 0x43020000).scale 2)).ovf = true ∧
    (convert ⟨4, 0, true, 1, false, 0⟩ .rne ((fp32 0x43020000).scale 1)).code = 0x78 ∧
    (convert ⟨4, 0, true, 1, false, 0⟩ .rne ((fp32 0x43020000).scale 1)).ovf = false ∧
    (convert ⟨4, 0, true, 1, false, 0⟩ .rne ((fp32 0x40533333).scale 1)).code = 0x4D := by decide +kernel

/-- Chapter 3: a block of FP4-E2M1 with the values 40.0, −2.7 and 1.0: its scale, its codes, the underflow, the packed byte. -/
theorem test_block : (convBlock ⟨8, 0, false, 0, true, 0⟩ [(fp32 0x42200000, .rne), (fp32 0xC02CCCCD, .rne), (fp32 0x3F800000, .rne)]).1 = 0x82 ∧
    (convBlock ⟨8, 0, false, 0, true, 0⟩ [(fp32 0x42200000, .rne), (fp32 0xC02CCCCD, .rne), (fp32 0x3F800000, .rne)]).2.map (·.code) =
      [6, 9, 0] ∧
    (convBlock ⟨8, 0, false, 0, true, 0⟩ [(fp32 0x42200000, .rne), (fp32 0xC02CCCCD, .rne), (fp32 0x3F800000, .rne)]).2.map (·.unf) =
      [false, false, true] ∧
    packAll 8 [6, 9] = [0x96] := by decide +kernel

/-- Chapter 3: with 60.0 the scale is the same, and 7.5 is written as 6 and counted as saturated. -/
theorem test_block_sat : (convBlock ⟨8, 0, true, 0, true, 0⟩ [(fp32 0x42700000, .rne)]).1 = 0x82 ∧
    (convBlock ⟨8, 0, true, 0, true, 0⟩ [(fp32 0x42700000, .rne)]).2.map (fun o => (o.code, o.sat)) = [(7, true)] := by decide +kernel

/-- Chapter 5: the block scale 0x7C of FP8-E4M3 for 40.0, and the codes of 40.0 and 0.3. -/
theorem test_vector_block : (convBlock ⟨4, 0, true, 0, true, 0⟩ [(fp32 0x42200000, .rne), (fp32 0x3E99999A, .rne)]).1 = 0x7C ∧
    (convBlock ⟨4, 0, true, 0, true, 0⟩ [(fp32 0x42200000, .rne), (fp32 0x3E99999A, .rne)]).2.map (·.code) = [0x7A, 0x42] := by
  decide +kernel

/-- Chapter 5: the words of the worked program are defined and read as the instructions beside them. -/
theorem test_words : [0x88200004, 0x8C411000, 0x8C611100, 0x88801000, 0x8C840044, 0x98040000, 0x40210000, 0x1C410000, 0x18611000,
      0x6C620040, 0x70430000, 0].map vOp = [0x22, 0x23, 0x23, 0x22, 0x23, 0x26, 0x10, 7, 6, 0x1B, 0x1C, 0] ∧
    [0x88200004, 0x8C411000, 0x8C611100, 0x88801000, 0x8C840044, 0x98040000, 0x40210000, 0x1C410000, 0x18611000,
      0x6C620040, 0x70430000, 0].all vecDefined = true ∧
    [vD 0x8C411000, vA 0x8C411000, vImm 0x8C411000, vD 0x18611000, vA 0x18611000, vB 0x18611000, vFmt 0x6C620040] =
      [2, 1, 0x1000, 3, 1, 2, 4] := by decide +kernel

/-- Chapter 7: the DMA and RUN descriptors of the worked example. -/
theorem test_descriptors :
    let j := tJ [(0, 0x20), (1, 4), (10, 0x64), (16, 1), (24, 0x10000005), (32, 0x00000007), (36, 0x20), (40, 0x2A0)]
    let k := tJ [(0, 0x10), (1, 0x15), (2, 0x64), (4, 1), (10, 0x65), (16, 1), (24, 1), (48, 0x200000)]
    j.opc = 0x20 ∧ j.refIdx 24 = 5 ∧ j.refOff 24 = 0x1000 ∧ j.refIdx 32 = 7 ∧ j.refOff 32 = 0x200000 ∧ j.num 40 4 = 672 ∧
      k.opc = 0x10 ∧ k.num 24 1 = 1 ∧ k.num 48 4 = 0x200000 := by decide +kernel

/-- Device (3, 30, 5) of the hall of chapter 10, with the ports named in service; device 0x0A31 at (29, 2, z). -/
def tHall (z : Nat) (ports : List Nat) : Dev :=
  let d := [(Reg.FAB_SELF.FLAT_ID, 0x105), (Reg.FAB_COORD.X, 3), (Reg.FAB_COORD.Y, 30), (Reg.FAB_COORD.Z, 5), (Reg.FAB_TORUS_DIM.DX, 32),
      (Reg.FAB_TORUS_DIM.DY, 32), (Reg.FAB_TORUS_DIM.DZ, 16), (Reg.FAB_BLOCK_BASE.Z, 4), (Reg.FAB_BLOCK_SIZE.SX, 32),
      (Reg.FAB_BLOCK_SIZE.SY, 32), (Reg.FAB_BLOCK_SIZE.SZ, 8), (Reg.FAB_ROUTE.KIND 0xA31, 1), (Reg.FAB_ROUTE.X 0xA31, 29),
      (Reg.FAB_ROUTE.Y 0xA31, 2), (Reg.FAB_ROUTE.Z 0xA31, z)].foldl (fun d e => d.setFld e.1 e.2) (tLink .ready)
  ports.foldl (fun d p => d.setFld (Reg.OPT_PORT_STATUS.STATE p) 2) d

/-- Chapter 10: the hash of the request and of the response; X goes down through port 6, or port 10 where port 6 is withdrawn. -/
theorem test_route :
    flowHash (⟨0, false, true, false, false, 1, 0xA31, 0x105, 0, 0, 0, []⟩ : Packet) = 8088 ∧
    flowHash (⟨1, false, true, false, false, 1, 0x105, 0xA31, 0, 0, 0, []⟩ : Packet) = 3397 ∧
    (tHall 9 []).stepDir 0 29 = some 1 ∧ (tHall 9 []).stepDir 1 2 = some 2 ∧ (tHall 9 []).stepDir 2 9 = some 4 ∧
    (tHall 9 []).pick [6, 7, 8, 9, 10, 11] ⟨0, false, true, false, false, 1, 0xA31, 0x105, 0, 0, 0, []⟩ = some 6 ∧
    (tHall 9 []).pick [7, 8, 9, 10, 11] ⟨0, false, true, false, false, 1, 0xA31, 0x105, 0, 0, 0, []⟩ = some 10 ∧
    (tHall 14 []).pick ((List.range 12).map (fun i => 36 + i)) ⟨0, false, true, false, false, 1, 0xA31, 0x105, 0, 0, 0, []⟩ = some 36 := by
  decide +kernel

/-- Chapter 11: segments of 32 elements, and what six members send and receive in each round. -/
theorem test_rounds : segSize 192 6 = 32 ∧ vSegs 6 0 = [0, 4] ∧ vSegs 6 1 = [1, 5] ∧ vSegs 6 2 = [2] ∧
    sendOf false 6 0 4 = some (0, [0, 1, 2, 3, 4, 5]) ∧ sendOf false 6 1 0 = some (2, [2, 3]) ∧ sendOf false 6 1 3 = some (1, [0, 4, 1, 5]) ∧
    sendOf false 6 2 0 = some (1, [1, 5]) ∧ sendOf false 6 2 2 = some (3, [3]) ∧ sendOf false 6 0x80 1 = some (0, [1, 5]) ∧
    sendOf false 6 0x81 3 = some (1, [2, 3]) ∧ sendOf false 6 0xC0 1 = some (5, [0, 1, 2, 3, 4, 5]) := by decide +kernel

/-- Chapter 12: the blocks of the two tensors, the size of an owner record and the undo need of the group. -/
theorem test_update : ({ tBind with fmt := 2, count := 12582912, slots := 2 } : Binding).blocks = 49152 ∧
    ({ tBind with fmt := 2, count := 4194304, slots := 2 } : Binding).blocks = 16384 ∧
    ({ tBind with fmt := 2, slots := 2 } : Binding).recordSize = 3616 ∧
    undoNeed [{ tBind with fmt := 2, count := 12582912, slots := 2 }, { tBind with fmt := 2, count := 4194304, slots := 2 }] = 236978176 := by
  decide +kernel

/-- Chapter 14: a step up from P1 to P0 at b = 0 sets b′ = 5. -/
theorem test_compensate : compensate 0 1 0 = 5 := by decide +kernel

/-- Chapter 13: the first send adds 1 to 41 and answers 41; the second is answered 41 again and adds nothing. -/
theorem test_atomic :
    let p : Packet := tP 0 3 9 (vaultBase 0) 0x2A17 (leBytes 1 0x10 ++ leBytes 1 8 ++ zeros 6 ++ leBytes 8 1 ++ zeros 16)
    let d := ((tMfb []).write (vaultBase 0) [41]).applyWrite p
    d.readLE (vaultBase 0) 8 = 42 ∧ d.mfb.table = [⟨9, 0x2A17, 41, 0⟩] ∧ (d.applyWrite p).readLE (vaultBase 0) 8 = 42 := by decide +kernel

/-- Chapter 19: after reset a lock is refused with AREAS 0x1B; the driver's values pass. -/
theorem test_lock : Dev.init.lockMask % 64 = 0x1B ∧
    ([(Reg.CAR_STAGE_BASE.BASE, 1), (Reg.UPD_AREA.BASE, 4), (Reg.TGT_LOG_BASE.BASE, 0x5000), (Reg.FLT_LOG_BASE.BASE, 0x1401),
      (Reg.UPD_UNDO_BASE.DA, 0), (Reg.UPD_UNDO_LEN.LEN, 0x10000)].foldl (fun d e => d.setFld e.1 e.2) Dev.init).lockMask = 0 := by
  decide +kernel

/-- The check value of the cyclic redundancy checks that the spec names, for the nine digits "123456789" (their published value). -/
theorem test_crc : crc32c [49, 50, 51, 52, 53, 54, 55, 56, 57] = 0xE3069283 ∧ crc32 [49, 50, 51, 52, 53, 54, 55, 56, 57] = 0xCBF43926 ∧
    crc16 [49, 50, 51, 52, 53, 54, 55, 56, 57] = 0x29B1 := by decide +kernel

/-- R61: the largest finite value of FP16, FP8-E4M3, FP8-E5M2, FP6-E3M2, FP6-E2M3 and FP4-E2M1 is what saturation writes. -/
theorem test_largest : [3, 4, 5, 6, 7, 8].map (fun f => (fmtValue f 0 (convert ⟨f, 0, true, 0, false, 0⟩ .rne (fp32 0x49800000)).code).eqv
      (fp32 ([0x477FE000, 0x43E00000, 0x47600000, 0x41E00000, 0x40F00000, 0x40C00000].getD (f - 3) 0))) =
    [true, true, true, true, true, true] := by decide +kernel

/-- After reset setup is not locked. -/
theorem test_reset_locked : State.reset.dev.locked = false := by decide +kernel

/-! ### Ill-formed commands -/

/-- A command that names a unit, a field or a length that does not exist, for every check of Instr.wf. -/
theorem test_ill_formed_1 : ([.resetRelease { tRom with towerWords := [] }, .resetRelease { tRom with profile := 4 },
   .resetRelease { tRom with railsBad := 2 ^ 16 }, .firmwareStartDone [(320, ⟨[]⟩)], .pllLockLoss 21, .pllRelock 20,
   .pllRelockTimeout 20, .refCheck 65536, .d2dPacketStart 20 0 0 0x80 (tP 0 0 0 0 0 []),
   .d2dPacketStart 0 2 0 0x80 (tP 0 0 0 0 0 []), .d2dPacketStart 0 0 255 0x80 (tP 0 0 0 0 0 []),
   .d2dPacketStart 0 0 0 255 (tP 0 0 0 0 0 []), .d2dPacketStart 0 0 0 0x80 (tP 4 0 0 0 0 []),
   .d2dPacketStart 0 0 0 0x80 (tP 0 0 0 0 0 (zeros 4097)), .d2dFlitReceive 20 0 0 (zeros 128),
   .d2dFlitReceive 0 99 0 (zeros 128), .d2dFlitReceive 0 0 2 (zeros 128), .d2dFlitReceive 0 0 0 [],
   .d2dReplayTimeout 20 0 0, .d2dReplayTimeout 0 0 2, .d2dRetrainDone 20 0 ⟨[]⟩, .d2dRetrainDone 0 0 ⟨[68]⟩,
   .d2dRetrainDone 0 0 ⟨[1, 1]⟩, .d2dRecoveryFlitSend 20 0 0, .d2dRecoveryFlitSend 0 0 2,
   .d2dRecoveryFlitReceive 20 0 (zeros 128), .d2dRecoveryFlitReceive 0 2 (zeros 128), .d2dRecoveryFlitReceive 0 0 [],
   .d2dRecoveryTimeout 20 0 0, .d2dRecoveryTimeout 0 0 2, .d2dBandSetDone 20 0,
   .d2dMarginBundleDone 20 0 ⟨0, 0, 0, 0, 0, 0, 0⟩, .seqDispatch 192 ⟨[], []⟩, .runCheckDone 16 0, .wLoad 192 0 tStart,
   .wLoadComplete 192 0, .cbLoad 192 0 tStart, .cbLoadComplete 192 0, .stream 192 0 tStart, .passEnd 192 0 ⟨0, 0,
      0⟩] : List Instr).all (fun i => !i.wf) = true := by decide +kernel

theorem test_ill_formed_2 : ([.faultCountClear 192, .bubbleWindowStart 192, .drain 192 0 tStart, .convRecordRead 192 0, .drainEnd 192 0,
   .overflowReplay 192, .vec 192 0 tStart, .vecEnd 192 0, .move 192 0 tStart, .moveComplete 192 0, .gather 192 0 tStart,
   .gatherComplete 192 0, .xfer 192 0 tStart, .xferComplete 192 0, .wait 192, .waitMet 192, .waitTimeout 192,
   .coreStopAtBoundary 192, .signal 192, .signalFire 192, .barrier 192, .localBarrierRelease 16 0 0,
   .localBarrierRelease 0 0 256, .replayMark 192, .endOp 192, .programComplete 192, .arrayFault 192 1 1, .arrayFault 0 0 1,
   .arrayFault 0 6 1, .arrayFault 0 1 0, .arrayFault 0 1 16, .arrayFault 0 0 1, .preemptRequest 192, .preemptSave 192 0,
   .preemptSaveDone 192 0, .preemptRestore 192, .preemptRestoreDone 192 0, .halt 256, .vfp 256,
      .vint 256] : List Instr).all (fun i => !i.wf) = true := by decide +kernel

theorem test_ill_formed_3 : ([.vcmp 256, .vperm 256, .vred 256, .vcvt 256, .vscl 256, .vpred 256, .vld 256 ⟨[], []⟩, .vlds 256 ⟨[], []⟩,
   .vldx 256 ⟨[], []⟩, .vldw 256 ⟨[], []⟩, .vldb 256 ⟨[], []⟩, .vst 256, .vsts 256, .vstx 256, .vstn 256, .vstb 256,
   .salu 256, .saddi 256, .slui 256, .sori 256, .sld 256 ⟨[], []⟩, .sst 256, .mtc 256, .mfc 256, .beq 256, .bne 256,
   .blt 256, .bltu 256, .jmp 256, .vecUndefined 256, .vecLimitExceeded 256,
   .vaultRead 192 0 1 ⟨[], 0, false, vaultBase 192, 0, false, false⟩,
   .vaultRead 0 0 0 ⟨[], 0, false, vaultBase 0, 0, false, false⟩,
   .vaultRead 0 0 257 ⟨[], 0, false, vaultBase 0, 0, false, false⟩,
   .vaultRead 0 0xFFFFFFFF 2 ⟨[], 0, false, vaultBase 0, 0, false, false⟩,
   .vaultRead 0 0 1 ⟨[], 0, false, vaultBase 1, 0, false, false⟩,
   .vaultRead 0 0 1 ⟨[0, 0], 0, false, vaultBase 0, 0, false, false⟩,
   .vaultRead 0 0 1 ⟨[0], 1, true, vaultBase 0, 0, false, false⟩, .rowRepairFused 114688 0,
      .rowRepairFused 17 0] : List Instr).all (fun i => !i.wf) = true := by decide +kernel

theorem test_ill_formed_4 : ([.rowRepairFused 0 8192, .bankSpareDone 192 0, .bankSpareDone 0xFF 17, .refreshDue 224 0 0, .refreshDue 0 16 0,
   .refreshDue 0 0 17, .patrolScrub 8 0 0 false false, .patrolScrub 0 28 0 false false, .pipeRetrainDone 192 0 false,
   .pipeRetrainDone 0 20 false, .vaultMarginPipeDone 192 0 ⟨0, 0, 0, 0, 0, 0, 0, 0⟩,
   .vaultMarginPipeDone 0 20 ⟨0, 0, 0, 0, 0, 0, 0, 0⟩, .migrationStart 8, .migrationInitDone 8, .migrationCopyDone 8 [],
   .migrationVerifyDone 8 false [], .spareZeroDone 192, .descUndefined 16, .descWaitTimeout 16 false, .irqHoldoffExpire 256,
   .bar2Read 0 0 ⟨[], []⟩, .bar2Write 0 [] ⟨[], []⟩, .pcieD0Return true ⟨29, 128, 128, 1, 1⟩,
   .pcieD0Return true ⟨41, 128, 128, 1, 1⟩, .pcieD0Return true ⟨30, 64, 128, 1, 1⟩,
   .pcieD0Return true ⟨30, 128, 8192, 1, 1⟩, .pcieD0Return true ⟨30, 128, 128, 8, 1⟩,
   .pcieD0Return true ⟨30, 128, 128, 1, 3⟩, .nop 16, .eventAdd 16, .eventSet 16, .eventRead 16, .run 16, .dma 16,
   .dmaComplete 16 0 ⟨[], []⟩, .collAllReduce 16, .collReduceScatter 16, .collAllGather 16, .collBroadcast 16,
   .collReduce 16] : List Instr).all (fun i => !i.wf) = true := by decide +kernel

theorem test_ill_formed_5 : ([.collGroup 16, .collGroupDelete 16, .get 16, .getCached 16, .put 16, .putLine 16, .invalidate 16, .invalidateAll 16,
   .aIadd 16, .aFadd 16, .aSwap 16, .aCas 16, .aUmax 16, .aUmin 16, .aOr 16, .aAnd 16, .rFadd 16, .rIadd 16, .rFmax 16,
   .rFmin 16, .updBind 16, .updUnbind 16, .updFreeze 16, .updThaw 16, .stepCfg 16, .setCap 16, .setPolicyDramBand 16,
   .setPolicyHighestPoint 16, .setPolicyCollWatchdog 16, .setPolicyAtomicRetry 16, .actSelect 16, .calReqOptical 16,
   .calReqD2d 16, .calReqVault 16, .calReqThermal 16, .marginVault 16, .marginOptical 16, .marginD2d 16,
   .optMarginLaneDone 48 0 ⟨0, 0, 0, 0, 0, 0⟩, .optMarginLaneDone 0 18 ⟨0, 0, 0, 0, 0,
      0⟩] : List Instr).all (fun i => !i.wf) = true := by decide +kernel

theorem test_ill_formed_6 : ([.spareCore 16, .spareLimelight 16, .handoverExport 16, .handoverImport 16, .quiesce 16, .resume 16, .attest 16,
   .fwStage 16, .fwCommit 16, .evtDataWrite (2 ^ 32), .srTestWrite false (2 ^ 64), .dbgSelWrite (2 ^ 32),
   .registerWrite 0x1000000 4 0, .registerWrite 0 4097 0, .registerWrite 0 4 (2 ^ 32), .linkBlockReceive 48 (zeros 256),
   .linkBlockReceive 0 [], .resendTimer 48, .alignmentBeat 48 (List.replicate 18 (zeros 16)), .alignmentBeat 0 [],
   .alignmentBeat 0 (List.replicate 18 []), .laneMove 48 [], .laneMoveAck 48 [], .laneMoveSwitch 48 false 0,
   .laneMoveSwitch 0 false 16, .ident 48 [], .time 48 [], .marginReport 48 [], .calLane 48 [], .retrain 48 [],
   .controlResendTimer 48, .lightDetected 48, .lossOfLight 48 false [], .lossOfLight 0 false [18],
   .trainingComplete 48 ⟨List.range 12, List.range 12⟩, .trainingComplete 0 ⟨[], []⟩, .trainingPhaseTimeout 48 false,
   .trainingRetryTimer 48, .miswireHoldExpire 48, .laneCalDue 48] : List Instr).all (fun i => !i.wf) = true := by decide +kernel

theorem test_ill_formed_7 : ([.laneCalDone 48 false, .portCalDue 48, .portCalDrained 48, .timeBlockSend 48, .marginEstimate 48 (List.replicate 18 0),
   .marginEstimate 0 [], .marginEstimate 0 (List.replicate 18 65536), .ringLockLoss 48 false [], .ringLockLoss 0 false [18],
   .ringRelock 48 false 0, .ringRelock 0 false 18, .recoveryNoticeTimeout 48, .lmPresence 10, .cartridgeCheck 10 none,
   .cartridgeCheck 0 (some ([], zeros 3840, zeros 384)), .cartridgeCheck 0 (some (zeros 72, [], zeros 384)),
   .cartridgeCheck 0 (some (zeros 72, zeros 3840, [])), .lmRemoval 10, .cartridgePoll 10 none,
   .cartridgePoll 0 (some ⟨0, [], false, false⟩), .lifeAccounting 10, .warmingTimeout 10, .switchSettled 7 0,
   .switchLightTimeout 7, .collWatchdog 16 0, .blockDispatch 64, .updateBlockEnd 64 false, .coreRingStart 16,
   .hotLineWrite (2 ^ 34), .tightropeSample ⟨List.replicate 16 none, 0, 0, 0, []⟩,
   .tightropeSample ⟨[], 0, 0, 0, List.replicate 484 0⟩, .sensorRead 484 0, .sensorRead 448 0, .sensorRead 225 0,
   .bandDemotion 9, .suspectHoldExpire 65536, .suspectCountUpdate 65536,
   .internalResetPulseEnd { tRom with towerWords := [] }, .internalResetPulseEnd { tRom with profile := 4 },
   .internalResetPulseEnd { tRom with railsBad := 2 ^ 16 }] : List Instr).all (fun i => !i.wf) = true := by decide +kernel

theorem test_ill_formed_8 : ([.fwStageComplete 16 0 ⟨[], []⟩, .msixTableWrite 1024 0,
      .msixTableWrite 0 (2 ^ 32)] : List Instr).all (fun i => !i.wf) = true := by decide +kernel

/-! ### Witnesses: each statement has states and operands that meet its hypotheses -/

theorem witness_IdleStepTicks :
    ∃ s : State, s.pending = [] ∧ s.dev.st ≠ .reset :=
  ⟨tS (tDev .ready), by decide +kernel⟩

theorem witness_FaultIffIllFormed :
    ∃ c : Instr, ∃ s : State, ∃ t : State, exec c s = .next t :=
  ⟨.nop 0, tS (tDev .ready), tS (tDev .ready), rfl⟩

theorem witness_WellFormedQueueRuns :
    ∃ s : State, (∀ c ∈ s.pending, c.wf = true) :=
  ⟨⟨tDev .ready, [.setupLock, .nop 0]⟩, by decide +kernel⟩

theorem witness_MemoryCanonical :
    ∃ s : State, ∃ t : State, memWf s.dev.mem = true ∧ step s = .next t :=
  ⟨⟨tDev .ready, [.setupLock]⟩, tS (tDev .ready), by decide +kernel, rfl⟩

theorem witness_ResetState :
    ∃ e : Field × Nat, e ∈ resetShown :=
  ⟨((Reg.GLB_ID.DEVICE, 0xC28) : Field × Nat), by decide +kernel⟩

theorem witness_BootStart :
    (∃ s : State, ∃ r : RomInputs, ∃ c : Instr, r.towerWords.length = 8 ∧ r.profile < 4 ∧ r.railsBad < 2 ^ 16 ∧ s.dev.st = .reset ∧
      (c = .resetRelease r ∧ s.dev.boot.pulse = false ∨
      c = .internalResetPulseEnd r ∧ s.dev.boot.pulse = true ∧ s.dev.pins.pwrgood = true ∧ s.dev.pins.resetN = true) ∧ r.rootLock = true ∧
      strapFault r = none ∧ r.railsBad = 0) ∧
    (∃ s : State, ∃ r : RomInputs, ∃ c : Instr, r.towerWords.length = 8 ∧ r.profile < 4 ∧ r.railsBad < 2 ^ 16 ∧ s.dev.st = .reset ∧
      (c = .resetRelease r ∧ s.dev.boot.pulse = false ∨
      c = .internalResetPulseEnd r ∧ s.dev.boot.pulse = true ∧ s.dev.pins.pwrgood = true ∧ s.dev.pins.resetN = true) ∧ r.rootLock = true ∧
      strapFault r ≠ none) ∧
    (∃ s : State, ∃ r : RomInputs, ∃ c : Instr, r.towerWords.length = 8 ∧ r.profile < 4 ∧ r.railsBad < 2 ^ 16 ∧ s.dev.st = .reset ∧
      (c = .resetRelease r ∧ s.dev.boot.pulse = false ∨
      c = .internalResetPulseEnd r ∧ s.dev.boot.pulse = true ∧ s.dev.pins.pwrgood = true ∧ s.dev.pins.resetN = true) ∧ r.rootLock = true ∧
      strapFault r = none ∧ r.railsBad ≠ 0) ∧
    (∃ s : State, ∃ r : RomInputs, ∃ c : Instr, r.towerWords.length = 8 ∧ r.profile < 4 ∧ r.railsBad < 2 ^ 16 ∧ s.dev.st = .reset ∧
      (c = .resetRelease r ∧ s.dev.boot.pulse = false ∨
      c = .internalResetPulseEnd r ∧ s.dev.boot.pulse = true ∧ s.dev.pins.pwrgood = true ∧ s.dev.pins.resetN = true) ∧ r.rootLock = false) ∧
    (∃ s : State, ∃ r : RomInputs, ∃ c : Instr, ∃ t : State, r.towerWords.length = 8 ∧ r.profile < 4 ∧ r.railsBad < 2 ^ 16 ∧ s.dev.st = .reset ∧
      (c = .resetRelease r ∧ s.dev.boot.pulse = false ∨
      c = .internalResetPulseEnd r ∧ s.dev.boot.pulse = true ∧ s.dev.pins.pwrgood = true ∧ s.dev.pins.resetN = true) ∧ r.rootLock = false ∧
      t.dev.st = .boot ∧ t.dev.boot.phase = .waitRoot ∧ ms 2 ≤ t.dev.clk) :=
  ⟨⟨tReset false, tRom, .resetRelease tRom, by decide +kernel⟩,
   ⟨tReset true, { tRom with hubWord := 0 }, .internalResetPulseEnd { tRom with hubWord := 0 }, by decide +kernel⟩,
   ⟨tReset false, { tRom with railsBad := 5 }, .resetRelease { tRom with railsBad := 5 }, by decide +kernel⟩,
   ⟨tReset false, { tRom with rootLock := false }, .resetRelease { tRom with rootLock := false }, by decide +kernel⟩,
   ⟨tReset false, { tRom with rootLock := false }, .resetRelease { tRom with rootLock := false }, tBoot .waitRoot 0, by decide +kernel⟩⟩

theorem witness_BootImage :
    ∃ s : State, s.dev.st = .boot ∧ s.dev.boot.phase = .rom :=
  ⟨tBoot .rom 1, by decide +kernel⟩

theorem witness_BootToReady :
    (∃ s : State, ∃ res : List (Nat × LaneResult), res.all (fun e => e.1 < 320) = true ∧ s.dev.st = .boot ∧ s.dev.boot.phase = .image) ∧
    (∃ s : State, s.dev.st = .boot ∧ s.dev.boot.phase = .firmware) ∧
    (∃ s : State, s.dev.st = .boot ∧ sec 10 ≤ s.dev.clk) ∧
    (∃ s : State, s.dev.up = true ∧ s.dev.fld Reg.SEC_FUSE.ADVANCE_PENDING = 1) :=
  ⟨⟨tBoot .image 0, [(0, ⟨List.range 68⟩)], by decide +kernel⟩,
   ⟨tBoot .firmware 0, by decide +kernel⟩,
   ⟨tBoot .rom 0, by decide +kernel⟩,
   ⟨tS (({ tDev .ready with boot := { Boot.init with header := fill 1024 [(6, 2), (7, 1), (12, 5)], advance := true } } : Dev).setFld
      Reg.SEC_FUSE.ADVANCE_PENDING 1), by decide +kernel⟩⟩

theorem witness_RecoveryProgram :
    (∃ s : State, s.dev.st = .recovery) ∧
    (∃ s : State, s.dev.st = .recovery ∧ s.dev.fld Reg.SEC_RCV_CTRL.STATUS ≠ 1) ∧
    (∃ s : State, ∃ j : FlashJob, s.dev.st = .recovery ∧ s.dev.boot.rcvJob = true ∧ s.dev.boot.flashJob = some j) :=
  ⟨⟨tS (tDev .recovery), by decide +kernel⟩,
   ⟨tS (tDev .recovery), by decide +kernel⟩,
   ⟨tS (({ tDev .recovery with boot := { Boot.init with rcvJob := true, flashJob := some ⟨0, fill 16 [(0, 7)], none, none⟩ } } : Dev).setFld
      Reg.SEC_RCV_CTRL.STATUS 1), ⟨0, fill 16 [(0, 7)], none, none⟩, by decide +kernel⟩⟩

theorem witness_HaltedUntilReset :
    ∃ s : State, ∃ t : State, s.dev.st = .halted ∧ step s = .next t :=
  ⟨⟨tDev .halted, [.nop 0]⟩, tS (tDev .halted), by decide +kernel, rfl⟩

theorem witness_ResetUntilRelease :
    ∃ s : State, ∃ t : State, s.dev.st = .reset ∧ step s = .next t :=
  ⟨⟨tDev .reset, [.nop 0]⟩, tS (tDev .reset), by decide +kernel, rfl⟩

theorem witness_LockRequests :
    (∃ s : State, s.dev.barUp = true ∧ (s.dev.st ≠ .ready ∨ s.dev.locked = true)) ∧
    (∃ s : State, s.dev.barUp = true ∧ s.dev.st = .ready ∧ s.dev.locked = false) ∧
    (∃ s : State, s.dev.barUp = true ∧ s.dev.locked = false) ∧
    (∃ s : State, s.dev.barUp = true) :=
  ⟨⟨tS (tDev .ready), by decide +kernel⟩,
   ⟨tS { tDev .ready with locked := false }, by decide +kernel⟩,
   ⟨tS { tDev .ready with locked := false }, by decide +kernel⟩,
   ⟨tS { tDev .ready with locked := false }, by decide +kernel⟩⟩

theorem witness_SetupLock :
    (∃ s : State, s.dev.barUp = true ∧ (s.dev.st ≠ .ready ∨ s.dev.locked = true)) ∧
    (∃ s : State, s.dev.barUp = true ∧ s.dev.st = .ready ∧ s.dev.locked = false ∧ s.dev.lockMask ≠ 0) ∧
    (∃ s : State, s.dev.barUp = true ∧ s.dev.st = .ready ∧ s.dev.locked = false ∧ s.dev.lockMask = 0) :=
  ⟨⟨tS (tDev .ready), by decide +kernel⟩,
   ⟨tS { tDev .ready with locked := false }, by decide +kernel⟩,
   ⟨tS (((({ tDev .ready with locked := false } : Dev).setFld Reg.UPD_AREA.BASE 2).setFld Reg.FLT_LOG_BASE.BASE 0x1000).setFld Reg.TGT_LOG_BASE.BASE
      0x3100), by decide +kernel⟩⟩

theorem witness_EventAndTestWrites :
    (∃ s : State, ∃ v : Nat, s.dev.barUp = true ∧ v < 2 ^ 32 ∧ s.dev.answers 0x20004 = true ∧ s.dev.locked = false) ∧
    (∃ s : State, ∃ v : Nat, s.dev.barUp = true ∧ v < 2 ^ 32 ∧ s.dev.answers 0x20004 = true ∧ s.dev.locked = true) ∧
    (∃ s : State, ∃ v : Nat, s.dev.barUp = true ∧ v < 2 ^ 64 ∧ s.dev.answers 0x70408 = true) ∧
    (∃ s : State, ∃ v : Nat, s.dev.barUp = true ∧ v < 2 ^ 64 ∧ s.dev.answers 0x70408 = true) :=
  ⟨⟨tS (({ tDev .ready with locked := false } : Dev).setFld Reg.EVT_SEL.INDEX 7), 99, by decide +kernel⟩,
   ⟨tS (tDev .ready), 99, by decide +kernel⟩,
   ⟨tS (tDev .ready), 0x0005000000000003, by decide +kernel⟩,
   ⟨tS (tDev .ready), 0x0000000600000009, by decide +kernel⟩⟩

theorem witness_RegisterAccessCodes :
    (∃ s : State, ∃ off : Nat, ∃ n : Nat, ∃ v : Nat, s.dev.barUp = true ∧ off < 0x1000000 ∧ n ≤ 4096 ∧ v < 2 ^ (8 * n) ∧ ¬(n = 4 ∧ off % 4 = 0) ∧
      ¬(n = 8 ∧ off % 8 = 0)) ∧
    (∃ s : State, ∃ off : Nat, ∃ v : Nat, s.dev.barUp = true ∧ off < 0x1000000 ∧ v < 2 ^ 32 ∧ s.dev.answers off = false) ∧
    (∃ s : State, ∃ v : Nat, s.dev.barUp = true ∧ v < 2 ^ 32) ∧
    (∃ s : State, ∃ v : Nat, s.dev.barUp = true ∧ v < 2 ^ 32 ∧ s.dev.answers 0x20000 = true) ∧
    (∃ s : State, ∃ v : Nat, s.dev.barUp = true ∧ v < 2 ^ 32) ∧
    (∃ s : State, ∃ v : Nat, s.dev.barUp = true ∧ v < 2 ^ 32 ∧ s.dev.answers 0x1000C = true ∧ s.dev.locked = false) ∧
    (∃ s : State, ∃ v : Nat, s.dev.barUp = true ∧ v < 2 ^ 32 ∧ s.dev.answers 0x1000C = true ∧ s.dev.locked = true) :=
  ⟨⟨tS (tDev .ready), 2, 4, 1, by decide +kernel⟩,
   ⟨tS (tDev .recovery), 0x20000, 5, by decide +kernel⟩,
   ⟨tS (tDev .ready), 5, by decide +kernel⟩,
   ⟨tS (tDev .ready), 0x12345, by decide +kernel⟩,
   ⟨tS ((tDev .ready).setFld Reg.GLB_STATE_CHANGE.STATE 1), 0xF, by decide +kernel⟩,
   ⟨tS { tDev .ready with locked := false }, 0x10077, by decide +kernel⟩,
   ⟨tS (tDev .ready), 0x77, by decide +kernel⟩⟩

theorem witness_RegisterWriteFrame :
    ∃ s : State, ∃ t : State, ∃ off : Nat, ∃ n : Nat, ∃ v : Nat, exec (.registerWrite off n v) s = .next t ∧ off ≠ 0xC ∧ off + n ≠ 0x10 ∧
      off ≠ 0x100064 ∧ off + n ≠ 0x100068 :=
  ⟨tS (tDev .ready), (tS ((tDev .ready).setFld Reg.EVT_SEL.INDEX 5)), 0x20000, 4, 5, rfl, by decide +kernel, by decide +kernel, by decide +kernel,
      by decide +kernel⟩

theorem witness_DebugPorts :
    (∃ s : State, ∃ v : Nat, v < 2 ^ 32 ∧ s.dev.barUp = true ∧ s.dev.answers 0x120004 = true) ∧
    (∃ s : State, s.dev.pins.trstN = true) ∧
    (∃ s : State, s.dev.pins.trstN = true ∧ s.dev.st = .reset ∧ s.dev.pins.resetN = false) ∧
    (∃ s : State, s.dev.pins.trstN = true ∧ (s.dev.st ≠ .reset ∨ s.dev.pins.resetN = true)) :=
  ⟨⟨tS (tDev .ready), 0xC004, by decide +kernel⟩,
   ⟨tS (tDev .ready), by decide +kernel⟩,
   ⟨tS Dev.init, by decide +kernel⟩,
   ⟨tS (tDev .ready), by decide +kernel⟩⟩

theorem witness_LinkAndVectors :
    (∃ s : State, s.dev.hq.pcieUp = true) ∧
    (∃ s : State, ∃ v : Nat, ∃ t : Nat, v < 256 ∧ Tab.get .idle s.dev.hq.holdoff v = .holding t ∧ s.dev.holdoffOver v = true) ∧
    (∃ s : State, ∃ v : Nat, ∃ t : Nat, v < 256 ∧ Tab.get .idle s.dev.hq.holdoff v = .waiting t ∧ s.dev.holdoffOver v = true) ∧
    (∃ s : State, ∃ dw : Nat, ∃ v : Nat, dw < 1024 ∧ v < 2 ^ 32 ∧ s.dev.hq.pcieUp = true ∧ Tab.get false s.dev.hq.pba (dw / 4) = false) ∧
    (∃ s : State, ∃ n : Nat, ∃ v : Nat, n < 256 ∧ v < 2 ^ 32 ∧ v % 2 = 0 ∧ s.dev.hq.pcieUp = true ∧ s.dev.hq.msixOn = true ∧
      Tab.get false s.dev.hq.pba n = true ∧ Tab.get .idle s.dev.hq.holdoff n = .idle) :=
  ⟨⟨tS (tDev .ready), by decide +kernel⟩,
   ⟨tS { tDev .ready with hq := { (tDev .ready).hq with holdoff := [(3, .holding 0)] } }, 3, (0 : Nat), by decide +kernel⟩,
   ⟨tS { tDev .ready with hq := { (tDev .ready).hq with holdoff := [(3, .waiting 0)] } }, 3, (0 : Nat), by decide +kernel⟩,
   ⟨tS (tDev .ready), 7, 0xFFFFFFFF, by decide +kernel⟩,
   ⟨tS { tDev .ready with hq := { (tDev .ready).hq with pba := [(3, true)] } }, 3, 2, by decide +kernel⟩⟩

theorem witness_PollingResumes :
    (∃ s : State, ∃ c : PcieSetup, pcieSetupOk c = true ∧ s.dev.st ≠ .reset ∧ s.dev.pins.perstN = true) ∧
    (∃ s : State, s.dev.up = true ∧ s.dev.polls = true) :=
  ⟨⟨tS ((tDev .ready).setRing 0 { Ring.init with held := [⟨fill 32 [(0, 1)], true⟩] }), PcieSetup.init, by decide +kernel⟩,
   ⟨tS (tDev .ready), by decide +kernel⟩⟩

theorem witness_PlainDescriptors_1 :
    (∃ s : State, ∃ r : Nat, ∃ j : Desc, r < 16 ∧ Starts s r j ∧ j.opc = 0x01 ∧ j.reservedByte [] = none) ∧
    (∃ s : State, ∃ r : Nat, ∃ j : Desc, r < 16 ∧ Starts s r j ∧ opcDefined j.opc = false) ∧
    (∃ s : State, ∃ r : Nat, ∃ j : Desc, r < 16 ∧ Starts s r j ∧ isEvent 0 j = true ∧ s.dev.eventCheck j = none) ∧
    (∃ s : State, ∃ r : Nat, ∃ j : Desc, r < 16 ∧ Starts s r j ∧ isEvent 1 j = true ∧ s.dev.eventCheck j = none) ∧
    (∃ s : State, ∃ r : Nat, ∃ j : Desc, r < 16 ∧ Starts s r j ∧ isEvent 2 j = true ∧ s.dev.eventCheck j = none ∧
      s.dev.refDev (j.refIdx 32) = false) ∧
    (∃ s : State, ∃ r : Nat, ∃ j : Desc, ∃ e : Ending, r < 16 ∧ Starts s r j ∧ isEvent 0 j = true ∧ s.dev.eventCheck j = some e) ∧
    (∃ s : State, ∃ r : Nat, ∃ j : Desc, r < 16 ∧ Starts s r j ∧ isEvent 2 j = true ∧ j.fb 24 0 2 = 3 ∧
      j.reservedByte [(24, 0, 2), (26, 0, 16), (28, 0, 32), (32, 0, 64)] = none) ∧
    (∃ s : State, ∃ r : Nat, ∃ j : Desc, r < 16 ∧ s.dev.head? r = some j ∧ s.dev.up = true ∧ s.dev.ringOn r = true ∧ s.dev.startRoom r = true ∧
      s.dev.waitsMet j = false ∧ s.dev.fld Reg.HQ_WAIT_LIMIT.MS ≠ 0 ∧ ms (s.dev.fld Reg.HQ_WAIT_LIMIT.MS) ≤ s.dev.clk - j.since) :=
  ⟨⟨tHead (tDev .ready) (tJ [(0, 1)]), 0, tJ [(0, 1)], by decide +kernel⟩,
   ⟨tHead (tDev .ready) (tJ [(0, 0xFF)]), 0, tJ [(0, 0xFF)], by decide +kernel⟩,
   ⟨tHead (tDev .ready) (tJ [(0, 2), (26, 5), (28, 7)]), 0, tJ [(0, 2), (26, 5), (28, 7)], by decide +kernel⟩,
   ⟨tHead (tDev .ready) (tJ [(0, 2), (24, 1), (26, 65535), (28, 7)]), 0, tJ [(0, 2), (24, 1), (26, 65535), (28, 7)], by decide +kernel⟩,
   ⟨tHead (tReg (tDev .ready) 3 0x1000 64 false) (tJ [(0, 2), (24, 2), (26, 5), (32, 3), (34, 60)]), 0, tJ [(0, 2), (24, 2), (26, 5), (32, 3), (34,
      60)], by decide +kernel⟩,
   ⟨tHead (tDev .ready) (tJ [(0, 2), (40, 1)]), 0, tJ [(0, 2), (40, 1)], (⟨.badField, { Detail.none with fieldByte := 40 }⟩ : Ending),
      by decide +kernel⟩,
   ⟨tHead (tDev .ready) (tJ [(0, 2), (24, 3)]), 0, tJ [(0, 2), (24, 3)], by decide +kernel⟩,
   ⟨tHead { tDev .ready with stp := { Stp.init with time := 800000 * 10000 } } (tJ [(0, 1), (1, 1), (2, 9), (4, 1)]), 0, tJ [(0, 1), (1, 1), (2, 9),
      (4, 1)], by decide +kernel⟩⟩

theorem witness_PlainDescriptors_2 :
    ∃ s : State, ∃ r : Nat, ∃ j : Desc, r < 16 ∧ s.dev.coreHead r = true ∧ s.dev.nextCoreDesc r = j ∧ s.dev.waitsMet j = false ∧
      s.dev.fld Reg.HQ_WAIT_LIMIT.MS ≠ 0 ∧ ms (s.dev.fld Reg.HQ_WAIT_LIMIT.MS) ≤ s.dev.clk - Tab.get 0 s.dev.mfb.ringSince r :=
  ⟨tS (tCR [(0, 1), (1, 1), (2, 9), (4, 1)]), 0, (tCR [(0, 1), (1, 1), (2, 9), (4, 1)]).nextCoreDesc 0, by decide +kernel⟩

theorem witness_CompletionRecord :
    (∃ d : Dev, ∃ j : Desc, j.ring < 16 ∧ (d.ring j.ring).held = [] ∧ (d.ring j.ring).cqTail < 2 ^ 32) ∧
    (∃ d : Dev, ∃ j : Desc, ∃ x : Ending, j.ring < 16 ∧ (d.ring j.ring).held = [] ∧ (d.ring j.ring).cqTail < 2 ^ 32 ∧ j.fb 1 2 1 = 1 ∧
      x.st.good = true) ∧
    (∃ d : Dev, ∃ j : Desc, j.ring < 16 ∧ (d.ring j.ring).held = [] ∧ (d.ring j.ring).cqTail < 2 ^ 32 ∧ j.fb 1 2 1 = 0) ∧
    (∃ d : Dev, ∃ j : Desc, j.ring < 16 ∧ (d.ring j.ring).held = [] ∧ (d.ring j.ring).cqTail < 2 ^ 32 ∧ d.polls = true ∧ d.cqRoom j.ring = true) ∧
    (∃ d : Dev, ∃ j : Desc, j.ring < 16 ∧ (d.ring j.ring).held = [] ∧ (d.ring j.ring).cqTail < 2 ^ 32 ∧
      (d.polls = false ∨ d.cqRoom j.ring = false)) :=
  ⟨⟨tDev .ready, tJ [(0, 1), (20, 0x1234)], by decide +kernel⟩,
   ⟨tDev .ready, tJ [(0, 1), (1, 4), (10, 8), (16, 3)], ⟨.done, Detail.none⟩, by decide +kernel⟩,
   ⟨tDev .ready, tJ [(0, 1), (10, 8), (16, 3)], by decide +kernel⟩,
   ⟨(tDev .ready).setFld (Reg.HQ_CQ_BASE.ADDR 0) 0x5000, tJ [(0, 1), (1, 0x14), (20, 0x1234)], by decide +kernel⟩,
   ⟨{ tDev .ready with hq := { (tDev .ready).hq with busMaster := false } }, tJ [(0, 1)], by decide +kernel⟩⟩

theorem witness_DmaCopies :
    (∃ s : State, ∃ r : Nat, ∃ j : Desc, r < 16 ∧ Starts s r j ∧ j.opc = 0x20 ∧ s.dev.dmaCheck j = none ∧ j.dmaLen = 0) ∧
    (∃ s : State, ∃ r : Nat, ∃ j : Desc, r < 16 ∧ Starts s r j ∧ j.opc = 0x20 ∧ s.dev.dmaCheck j = none ∧ j.dmaLen ≠ 0) ∧
    (∃ s : State, ∃ r : Nat, ∃ j : Desc, ∃ e : Ending, r < 16 ∧ Starts s r j ∧ j.opc = 0x20 ∧ s.dev.dmaCheck j = some e) ∧
    (∃ s : State, ∃ r : Nat, ∃ j : Desc, ∃ l : Nat, ∃ o : Nat, r < 16 ∧ Starts s r j ∧ j.opc = 0x20 ∧
      j.reserved [(24, 0, 64), (32, 0, 64), (40, 0, 32)] = none ∧ s.dev.refOk (j.refIdx 24) true false = true ∧
      s.dev.refOk (j.refIdx 32) false true = true ∧ l = s.dev.fld (Reg.HQ_REGION_LEN.LEN (j.refIdx 24)) ∧ o = j.refOff 24 ∧
      (s.dev.dmaDev j 24 = true ∨ s.dev.dmaDev j 32 = true) ∧ s.dev.dmaDev j 32 = false ∧ l < o + j.dmaLen) ∧
    (∃ s : State, ∃ r : Nat, ∃ k : Nat, ∃ j : Desc, ∃ x : Ecc, r < 16 ∧ s.dev.up = true ∧ s.dev.desc? (r, k) = some j ∧ j.opc = 0x20 ∧ x.ue = [] ∧
      s.dev.dmaDev j 24 = false ∧ s.dev.dmaDev j 32 = true ∧ s.dev.dmaSrcErr j = none ∧ s.dev.dmaDstErr j = none) ∧
    (∃ s : State, ∃ r : Nat, ∃ k : Nat, ∃ j : Desc, ∃ x : Ecc, r < 16 ∧ s.dev.up = true ∧ s.dev.desc? (r, k) = some j ∧ j.opc = 0x20 ∧ x.ue = [] ∧
      s.dev.dmaDev j 24 = true ∧ s.dev.dmaDev j 32 = true ∧ s.dev.dmaSrcErr j = none ∧ s.dev.dmaDstErr j = none ∧ s.dev.dmaSrc j < mirrorBase ∧
      overlaps (s.dev.dmaSrc j) j.dmaLen (s.dev.dmaDst j) j.dmaLen = false) ∧
    (∃ s : State, ∃ r : Nat, ∃ k : Nat, ∃ j : Desc, ∃ x : Ecc, r < 16 ∧ s.dev.up = true ∧ s.dev.desc? (r, k) = some j ∧ j.opc = 0x20 ∧ x.ue = [] ∧
      s.dev.dmaDev j 32 = false ∧ s.dev.dmaSrcErr j = none) ∧
    (∃ s : State, ∃ r : Nat, ∃ k : Nat, ∃ j : Desc, ∃ x : Ecc, ∃ c : Nat, r < 16 ∧ s.dev.up = true ∧ s.dev.desc? (r, k) = some j ∧ j.opc = 0x20 ∧
      x.ue = [] ∧ s.dev.dmaSrcErr j = some (.lostCore c)) :=
  ⟨⟨tHead (tReg (tReg (tDev .ready) 1 0x1000 64 false) 2 0x2000 64 true) (tJ [(0, 0x20), (24, 1), (32, 2)]), 0, tJ [(0, 0x20), (24, 1), (32, 2)],
      by decide +kernel⟩,
   ⟨tHead (tReg (tReg (tDev .ready) 1 0x1000 64 false) 2 0x2000 64 true) (tJ [(0, 0x20), (24, 1), (32, 2), (40, 64)]), 0, tJ [(0, 0x20), (24, 1),
      (32, 2), (40, 64)], by decide +kernel⟩,
   ⟨tHead (tDev .ready) (tJ [(0, 0x20), (24, 1), (32, 2), (40, 64)]), 0, tJ [(0, 0x20), (24, 1), (32, 2), (40, 64)], (⟨.badField,
      { Detail.none with fieldByte := 24 }⟩ : Ending), by decide +kernel⟩,
   ⟨tHead (tReg (tReg (tDev .ready) 1 0x1000 64 true) 2 0x2000 64 false) (tJ [(0, 0x20), (24, 1), (26, 1), (32, 2), (40, 64)]), 0, tJ [(0, 0x20),
      (24, 1), (26, 1), (32, 2), (40, 64)], 64, 1, by decide +kernel⟩,
   ⟨tFly (({ (tReg (tReg (tDev .ready) 1 0x1000 64 false) 2 0x2000 64 true) with hq := { (tReg (tReg (tDev .ready) 1 0x1000 64 false) 2 0x2000 64 true).hq with host := [(0x1000, 5), (0x1003, 6)] } } : Dev)) (tJ [(0, 0x20), (24, 1), (32, 2), (40, 8)]), 0, 0, tJ [(0, 0x20), (24, 1), (32, 2), (40, 8)], ⟨[], []⟩, by decide +kernel⟩,
   ⟨tFly ((tReg (tReg (tDev .ready) 1 0x1000 64 true) 2 0x2000 64 true).write 0x1001 [7, 8, 9]) (tJ [(0, 0x20), (24, 1), (32, 2), (40, 8)]), 0, 0,
      tJ [(0, 0x20), (24, 1), (32, 2), (40, 8)], ⟨[], [0xE000000000]⟩, by decide +kernel⟩,
   ⟨tFly ((tReg (tReg (tDev .ready) 1 0x1000 64 true) 2 0x2000 64 false).write 0x1001 [7, 8, 9]) (tJ [(0, 0x20), (24, 1), (32, 2), (40, 8)]), 0, 0,
      tJ [(0, 0x20), (24, 1), (32, 2), (40, 8)], ⟨[], []⟩, by decide +kernel⟩,
   ⟨tFly ((tReg (tReg (tDev .ready) 1 0x1000 64 true) 2 0x2000 64 false).setFld (Reg.TWR_CORE.STATE 0) 2) (tJ [(0, 0x20), (24, 1), (32, 2), (40,
      8)]), 0, 0, tJ [(0, 0x20), (24, 1), (32, 2), (40, 8)], ⟨[], []⟩, 0, by decide +kernel⟩⟩

theorem witness_Bar2Accesses :
    (∃ s : State, ∃ o : Nat, ∃ n : Nat, ∃ a : Nat, bar2Ok o n = true ∧ s.dev.bar2Up o n = true ∧ s.dev.bar2Addr o = some a ∧ a < mirrorBase ∧
      s.dev.readErr a n = none) ∧
    (∃ s : State, ∃ o : Nat, ∃ n : Nat, ∃ a : Nat, bar2Ok o n = true ∧ s.dev.bar2Up o n = true ∧ s.dev.bar2Addr o = some a ∧ a < mirrorBase ∧
      (s.dev.readErr a n = some .unpopulated ∨ ∃ c, s.dev.readErr a n = some (.lostCore c))) ∧
    (∃ s : State, ∃ o : Nat, ∃ l : List Nat, ∃ a : Nat, bar2Ok o l.length = true ∧ s.dev.bar2Up o l.length = true ∧ s.dev.bar2Addr o = some a ∧
      s.dev.accErr a l.length = none ∧ s.dev.partAt a l.length = none) ∧
    (∃ s : State, ∃ o : Nat, ∃ l : List Nat, ∃ a : Nat, bar2Ok o l.length = true ∧ s.dev.bar2Up o l.length = true ∧ s.dev.bar2Addr o = some a ∧
      (s.dev.accErr a l.length ≠ none ∨ s.dev.partAt a l.length ≠ none)) ∧
    (∃ s : State, ∃ o : Nat, ∃ l : List Nat, bar2Ok o l.length = true ∧ s.dev.bar2Up o l.length = true ∧ s.dev.bar2Addr o = none) :=
  ⟨⟨tS ((tDev .ready).write 0x1001 [7, 8, 9]), 0x1000, 8, 0x1000, by decide +kernel⟩,
   ⟨tS (tDev .ready), 0xC000000000, 8, 0xC000000000, by decide +kernel, by decide +kernel, by decide +kernel, by decide +kernel,
      .inl (by decide +kernel)⟩,
   ⟨tS (tDev .ready), 0x1000, [1, 2, 3], 0x1000, by decide +kernel⟩,
   ⟨tS ((tDev .ready).setPoison 0x1000), 0x1000, [1, 2, 3], 0x1000, by decide +kernel⟩,
   ⟨tS ((tDev .boot).setPoison 0x1000), 0x1000, [1, 2, 3], by decide +kernel⟩⟩

theorem witness_ClockEvents :
    (∃ s : State, s.dev.inSt [.boot, .recovery, .ready, .running, .quiesced] = true ∧ s.dev.fld Reg.CLK_STATUS.ROOT_LOCK = 1) ∧
    (∃ s : State, ∃ k : Nat, k < 8 ∧ s.dev.inSt [.boot, .recovery, .ready, .running, .quiesced] = true ∧ s.dev.linkLocked k = true ∧
      (∀ i, i < 24 → (s.dev.core (24 * k + i)).passes = [])) ∧
    (∃ s : State, ∃ k : Nat, 8 ≤ k ∧ k < 20 ∧ s.dev.inSt [.boot, .recovery, .ready, .running, .quiesced] = true ∧ s.dev.linkLocked k = true) ∧
    (∃ s : State, ∃ k : Nat, 8 ≤ k ∧ k < 20 ∧ s.dev.st ≠ .reset ∧ s.dev.linkLocked k = false ∧ s.dev.lossOpen k = true) ∧
    (∃ s : State, ∃ k : Nat, k < 8 ∧ s.dev.st ≠ .reset ∧ s.dev.linkLocked k = false ∧ s.dev.lossOpen k = true ∧
      (∀ i, i < 24 → (s.dev.core (24 * k + i)).passes = [])) ∧
    (∃ s : State, ∃ k : Nat, k < 8 ∧ s.dev.live = true ∧ s.dev.linkLocked k = false ∧ s.dev.lossOpen k = true) ∧
    (∃ s : State, ∃ v : Nat, v < 65536 ∧ s.dev.live = true ∧ s.dev.fld Reg.CLK_STATUS.ROOT_LOCK = 1) :=
  ⟨⟨tS (tLink .running), by decide +kernel⟩,
   ⟨tS (tLink .running), 7, by decide +kernel⟩,
   ⟨tS (tLink .running), 19, by decide +kernel⟩,
   ⟨tS { (tLink .ready).setFld Reg.CLK_STATUS.ENG_LOCK 0x7FF with pllOpen := 2 ^ 19 }, 19, by decide +kernel⟩,
   ⟨tS { (tLink .ready).setFld Reg.CLK_STATUS.TWR_LOCK 0x7F with pllOpen := 2 ^ 7 }, 7, by decide +kernel⟩,
   ⟨tS { (tLink .ready).setFld Reg.CLK_STATUS.TWR_LOCK 0x7F with pllOpen := 2 ^ 7 }, 7, by decide +kernel⟩,
   ⟨tS { tLink .ready with refRun := 9 }, 0x8000, by decide +kernel⟩⟩

theorem witness_LinkFlits :
    (∃ s : State, ∃ l : Nat, ∃ b : Nat, ∃ dir : Nat, ∃ src : Nat, ∃ dst : Nat, ∃ p : Packet, l < 20 ∧ b < bundlesOf l ∧ dir < 2 ∧
      s.dev.bundleRuns l b = true ∧ unitsOk l dir src dst = true ∧ p.cls < 4 ∧ p.payload.length ≤ 4096 ∧ s.dev.upMask l ≠ 0 ∧
      s.dev.readyPkts l dir = [] ∧ s.dev.bundleOf l src dst p = b ∧ s.dev.remapHeld l dir src dst p = false ∧ s.dev.flitsFit l b dir p = true) ∧
    (∃ s : State, ∃ l : Nat, ∃ b : Nat, ∃ dir : Nat, ∃ src : Nat, ∃ dst : Nat, ∃ p : Packet, l < 20 ∧ b < bundlesOf l ∧ dir < 2 ∧
      s.dev.bundleRuns l b = true ∧ unitsOk l dir src dst = true ∧ p.cls < 4 ∧ p.payload.length ≤ 4096 ∧ s.dev.upMask l ≠ 0 ∧
      s.dev.readyPkts l dir = [] ∧ s.dev.unitFits l dir ⟨src, dst, p⟩ = false) ∧
    (∃ s : State, ∃ l : Nat, ∃ b : Nat, ∃ dir : Nat, ∃ f : List Byte, l < 20 ∧ b < bundlesOf l ∧ dir < 2 ∧ s.dev.bundleRuns l b = true ∧
      f.length = 128 ∧ flitGood f = false ∧ flitType f = 0 ∧ leAt f 121 1 = ((s.dev.bundle l b dir).rxLast + 1) % 256 ∧
      (s.dev.bundle l b dir).failRun + 1 < s.dev.retryLimit) ∧
    (∃ s : State, ∃ l : Nat, ∃ b : Nat, ∃ dir : Nat, ∃ f : List Byte, l < 20 ∧ b < bundlesOf l ∧ dir < 2 ∧ s.dev.bundleRuns l b = true ∧
      f.length = 128 ∧ flitGood f = false ∧ flitType f ≠ 0) ∧
    (∃ s : State, ∃ l : Nat, ∃ b : Nat, ∃ dir : Nat, ∃ f : List Byte, l < 20 ∧ b < bundlesOf l ∧ dir < 2 ∧ s.dev.bundleRuns l b = true ∧
      f.length = 128 ∧ flitGood f = true ∧ flitType f = 1) ∧
    (∃ s : State, ∃ l : Nat, ∃ b : Nat, ∃ dir : Nat, ∃ f : List Byte, l < 20 ∧ b < bundlesOf l ∧ dir < 2 ∧ s.dev.bundleRuns l b = true ∧
      f.length = 128 ∧ flitGood f = true ∧ flitType f = 0 ∧ leAt f 121 1 = (((s.dev.flitHeader l b dir f).bundle l b dir).rxLast + 1) % 256) ∧
    (∃ s : State, ∃ l : Nat, ∃ b : Nat, ∃ dir : Nat, ∃ f : List Byte, l < 20 ∧ b < bundlesOf l ∧ dir < 2 ∧ s.dev.bundleRuns l b = true ∧
      f.length = 128 ∧ flitGood f = true ∧ flitType f = 2) ∧
    (∃ s : State, ∃ l : Nat, ∃ b : Nat, ∃ dir : Nat, l < 20 ∧ b < bundlesOf l ∧ dir < 2 ∧ s.dev.bundleRuns l b = true ∧
      s.dev.replayOver l b dir = true) :=
  ⟨⟨tS (tLink .ready), 0, (tLink .ready).bundleOf 0 3 0x84 (tP 1 2 5 0x1000 7 (fill 200 [(0, 9)])), 0, 3, 0x84, tP 1 2 5 0x1000 7 (fill 200 [(0,
      9)]), by decide +kernel⟩,
   ⟨tS ((tLink .ready).modBundle 0 ((tLink .ready).bundleOf 0 3 0x84 (tP 1 2 5 0x1000 7 (fill 200 [(0,
      9)]))) 0 (fun x => { x with spent := (List.range 8).map (fun v => (v, 48)) })), 0, 5, 0, 3, 0x84, tP 1 2 5 0x1000 7 (fill 200 [(0, 9)]),
      by decide +kernel⟩,
   ⟨tS (tLink .ready), 8, 4, 1, fill 128 [(121, 1)], by decide +kernel⟩,
   ⟨tS ((tLink .ready).modBundle 8 4 0 (fun x =>
      { x with txSeq := 3, replay := [⟨1, 0, true, true, fill 120 [], 1, 2, none, 0⟩, ⟨2, 0, true, true, fill 120 [], 1, 2, none, 0⟩] })), 8, 4, 1,
      fill 128 [(120, 0x20), (122, 1)], by decide +kernel⟩,
   ⟨tS ((tLink .ready).modBundle 8 4 0 (fun x =>
      { x with txSeq := 3, replay := [⟨1, 0, true, true, fill 120 [], 1, 2, none, 0⟩, ⟨2, 0, true, true, fill 120 [], 1, 2, none, 0⟩] })), 8, 4, 1,
      tFlit [(120, 0x20), (122, 1)], by decide +kernel⟩,
   ⟨tS (tLink .ready), 8, 4, 1, tFlit [(121, 1)], by decide +kernel⟩,
   ⟨tS ((tLink .ready).modBundle 8 4 0 (fun x =>
      { x with txSeq := 3, replay := [⟨1, 0, true, true, fill 120 [], 1, 2, none, 0⟩, ⟨2, 0, true, true, fill 120 [], 1, 2, none, 0⟩] })), 8, 4, 1,
      tFlit [(120, 0x40), (122, 1)], by decide +kernel⟩,
   ⟨tS ((tLink .ready).modBundle 8 4 0 (fun x => { x with txSeq := 2, replay := [⟨1, 0, true, true, fill 120 [], 1, 2, none, 0⟩] })), 8, 4, 0,
      by decide +kernel⟩⟩

theorem witness_BundleService :
    (∃ s : State, ∃ l : Nat, ∃ b : Nat, ∃ dir : Nat, ∃ res : LaneResult, ∃ ok : List Nat, ∃ d : Dev, l < 20 ∧ b < bundlesOf l ∧ dir < 2 ∧
      s.dev.live = true ∧ res.passing.all (· < 68) = true ∧ res.passing.Nodup ∧ s.dev.linkLocked l = true ∧ (s.dev.ctl l b).retraining = true ∧
      ok = res.passing.filter (fun n => (s.dev.goodLanes (bundleIdx l b)).contains n) ∧ d = { s.dev.selectLanes l b ok with d2d := { s.dev.d2d with
      calJobs := s.dev.d2d.calJobs.map (fun j => { j with busy := j.busy.erase (l, b) }) } } ∧ 64 ≤ ok.length) ∧
    (∃ s : State, ∃ l : Nat, ∃ b : Nat, ∃ dir : Nat, ∃ res : LaneResult, ∃ ok : List Nat, ∃ d : Dev, l < 20 ∧ b < bundlesOf l ∧ dir < 2 ∧
      s.dev.live = true ∧ res.passing.all (· < 68) = true ∧ res.passing.Nodup ∧ s.dev.linkLocked l = true ∧ (s.dev.ctl l b).retraining = true ∧
      ok = res.passing.filter (fun n => (s.dev.goodLanes (bundleIdx l b)).contains n) ∧ d = { s.dev.selectLanes l b ok with d2d := { s.dev.d2d with
      calJobs := s.dev.d2d.calJobs.map (fun j => { j with busy := j.busy.erase (l, b) }) } } ∧ ok.length < 64) ∧
    (∃ s : State, ∃ l : Nat, ∃ b : Nat, ∃ dir : Nat, l < 20 ∧ b < bundlesOf l ∧ dir < 2 ∧ s.dev.live = true) ∧
    (∃ s : State, ∃ l : Nat, ∃ b : Nat, ∃ dir : Nat, l < 20 ∧ b < bundlesOf l ∧ dir < 2 ∧ s.dev.live = true ∧ s.dev.linkLocked l = true ∧
      s.dev.upMask l ≠ 0 ∧ Tab.get 0 (s.dev.ctl l b).rxRecover dir ≠ 0 ∧ s.dev.clk + 1 ≤ Tab.get 0 (s.dev.ctl l b).rxRecover dir + us 100) ∧
    (∃ s : State, ∃ l : Nat, ∃ b : Nat, ∃ dir : Nat, ∃ f : List Byte, l < 20 ∧ b < bundlesOf l ∧ dir < 2 ∧ s.dev.live = true ∧ f.length = 128 ∧
      s.dev.bundleRuns l (s.dev.lowBundle l) = true ∧ flitGood f = true ∧ flitType f = 3 ∧ leAt f 0 1 < bundlesOf l ∧
      Tab.get 0 (s.dev.ctl l (leAt f 0 1)).txHold (1 - dir) = 0) ∧
    (∃ s : State, ∃ l : Nat, ∃ b : Nat, ∃ dir : Nat, l < 20 ∧ b < bundlesOf l ∧ dir < 2 ∧ s.dev.live = true ∧ s.dev.upMask l ≠ 0 ∧
      Tab.get 0 (s.dev.ctl l b).txHold dir ≠ 0 ∧ Tab.get false (s.dev.ctl l b).noticed dir = false ∧
      Tab.get 0 (s.dev.ctl l b).txHold dir + us 100 ≤ s.dev.clk + 1) ∧
    (∃ s : State, ∃ l : Nat, ∃ b : Nat, ∃ dir : Nat, l < 20 ∧ b < bundlesOf l ∧ dir < 2 ∧ s.dev.live = true ∧ s.dev.bandBundle l = some b) :=
  ⟨⟨tS ((tLink .ready).modCtl 8 4 (fun c => { c with retraining := true })), 8, 4, 0, ⟨List.range 66⟩, List.range 66, _, by decide +kernel,
      by decide +kernel, by decide +kernel, by decide +kernel, by decide +kernel, by decide +kernel, by decide +kernel, by decide +kernel,
      by decide +kernel, rfl, by decide +kernel⟩,
   ⟨tS ((tLink .ready).modCtl 8 4 (fun c => { c with retraining := true })), 8, 4, 0, ⟨List.range 63⟩, List.range 63,
      { ((tLink .ready).modCtl 8 4 (fun c => { c with retraining := true })).selectLanes 8 4 (List.range 63) with d2d := ((tLink .ready).modCtl 8 4 (fun c => { c with retraining := true })).d2d }, by decide +kernel⟩,
   ⟨tS (tLink .ready), 19, 4, 1, by decide +kernel⟩,
   ⟨tS ((tLink .ready).modCtl 8 4 (fun c => { c with rxRecover := [(0, 16000000000)] })), 8, 4, 0, by decide +kernel⟩,
   ⟨tS (tLink .ready), 8, 4, 0, tFlit [(0, 4), (1, 2), (120, 0x60), (122, 0)], by decide +kernel⟩,
   ⟨tS ({ (tLink .ready).modCtl 8 4 (fun c => { c with txHold := [(0, 5)] }) with stp := { Stp.init with time := 800000 } } : Dev), 8, 4, 0,
      by decide +kernel⟩,
   ⟨tS ((tLink .ready).modCtl 8 4 (fun c => { c with bandDue := true })), 8, 4, 0, by decide +kernel⟩⟩

theorem witness_LinkMaintenance :
    (∃ s : State, ∃ r : Nat, ∃ j : Desc, r < 16 ∧ Starts s r j ∧ j.opc = 0x90 ∧ j.num 24 1 = 1 ∧ j.reserved [(24, 0, 8), (26, 0, 192)] = none ∧
      j.mask < 2 ^ 20) ∧
    (∃ s : State, ∃ r : Nat, ∃ j : Desc, r < 16 ∧ Starts s r j ∧ j.opc = 0xE0 ∧ j.num 24 1 = 2 ∧ s.dev.marginCheck j 20 (d2dNeed j.mask) [] = none) ∧
    (∃ s : State, ∃ r : Nat, ∃ j : Desc, r < 16 ∧ Starts s r j ∧ j.opc = 0xE0 ∧ 3 ≤ j.num 24 1) ∧
    (∃ s : State, ∃ l : Nat, ∃ b : Nat, ∃ i : SweepJob, l < 20 ∧ b < bundlesOf l ∧ s.dev.live = true ∧
      s.dev.d2d.marginJobs.find? (fun j => j.busy.contains (l, b)) = some i) :=
  ⟨⟨tHead (tLink .ready) (tJ [(0, 0x90), (24, 1), (26, 0x101)]), 0, tJ [(0, 0x90), (24, 1), (26, 0x101)], by decide +kernel⟩,
   ⟨tHead (tReg (tLink .ready) 1 0x1000 0x1000 false) (tJ [(0, 0xE0), (24, 2), (26, 0x101), (50, 1), (58, 0x200)]), 0, tJ [(0, 0xE0), (24, 2), (26,
      0x101), (50, 1), (58, 0x200)], by decide +kernel⟩,
   ⟨tHead (tLink .ready) (tJ [(0, 0xE0), (24, 3)]), 0, tJ [(0, 0xE0), (24, 3)], by decide +kernel⟩,
   ⟨tS ({ ((tFly (tReg (tLink .ready) 1 0x1000 0x1000 false) (tJ [(0, 0xE0), (24, 2), (26, 0x100), (50, 1), (58, 0x200)])).dev.modCtl 8 4 (fun c => { c with sweeping := true })) with d2d := { ((tLink .ready).modCtl 8 4 (fun c => { c with sweeping := true })).d2d with marginJobs := [⟨(0, 0), [], [(8, 4)], []⟩] } } : Dev), 8, 4, (⟨(0, 0), [], [(8, 4)], []⟩ : SweepJob), by decide +kernel⟩⟩

theorem witness_RunStarts :
    (∃ s : State, ∃ r : Nat, ∃ j : Desc, r < 16 ∧ Starts s r j ∧ j.opc = 0x10 ∧ s.dev.runDescCheck j = none ∧
      (j.num 52 5 = 0 ∨ (s.dev.popHead r).readErr (j.num 52 5) 768 = none)) ∧
    (∃ s : State, ∃ r : Nat, ∃ j : Desc, ∃ e : Ending, r < 16 ∧ Starts s r j ∧ j.opc = 0x10 ∧ s.dev.runDescCheck j = some e) ∧
    (∃ s : State, ∃ k : Nat, ∃ i : Nat, ∃ q : Run, k < 16 ∧ s.dev.up = true ∧ s.dev.run? (k, i) = some q ∧ q.acquired = true ∧ q.checked = false ∧
      s.dev.checkRun q.prog = none) ∧
    (∃ s : State, ∃ k : Nat, ∃ i : Nat, ∃ q : Run, ∃ c : Nat, ∃ p : Nat, k < 16 ∧ s.dev.up = true ∧ s.dev.run? (k, i) = some q ∧ q.acquired = true ∧
      q.checked = false ∧ s.dev.checkRun q.prog = some (c, p)) ∧
    (∃ s : State, ∃ c : Nat, ∃ x : Ecc, ∃ d : Dev, ∃ a : Nat, c < 192 ∧ d = s.dev.meetEcc x ∧ d.dispatchDue c = true ∧
      d.firstPoison (sramAt c ((d.core c).hdr + 32 + 32 * (d.core c).next)) 32 = some a) ∧
    (∃ s : State, ∃ c : Nat, ∃ x : Ecc, ∃ d : Dev, c < 192 ∧ d = s.dev.meetEcc x ∧ d.dispatchDue c = true ∧
      d.firstPoison (sramAt c ((d.core c).hdr + 32 + 32 * (d.core c).next)) 32 = none ∧ opDefined (opCode (d.nextOp c)) = true) ∧
    (∃ s : State, ∃ c : Nat, ∃ x : Ecc, ∃ d : Dev, c < 192 ∧ d = s.dev.meetEcc x ∧ d.dispatchDue c = true ∧
      d.firstPoison (sramAt c ((d.core c).hdr + 32 + 32 * (d.core c).next)) 32 = none ∧ opDefined (opCode (d.nextOp c)) = false) :=
  ⟨⟨tHead { tLink .running with stp := { Stp.init with phase := .open } } (tJ [(0, 0x10), (24, 3), (48, 0x100)]), 0, tJ [(0, 0x10), (24, 3), (48,
      0x100)], by decide +kernel⟩,
   ⟨tHead { tLink .running with stp := { Stp.init with phase := .open } } (tJ [(0, 0x10)]), 0, tJ [(0, 0x10)], (⟨.badField,
      { Detail.none with fieldByte := 24 }⟩ : Ending), by decide +kernel⟩,
   ⟨tS ({ tCore [[(0, 0x3F)]] (fun x => { x with phase := .checking }) with runs := [⟨(0, 5), 2 ^ 191, [(191, 0x100)], 0, 0, true, false, false, [], 0, 0, [], []⟩] } : Dev), 0, 5, (⟨(0, 5), 2 ^ 191, [(191, 0x100)], 0, 0, true, false, false, [], 0, 0, [], []⟩ : Run), by decide +kernel⟩,
   ⟨tS ({ tCore [[(0, 0x3E)]] (fun x => { x with phase := .checking }) with runs := [⟨(0, 5), 2 ^ 191, [(191, 0x100)], 0, 0, true, false, false, [], 0, 0, [], []⟩] } : Dev), 0, 5, (⟨(0, 5), 2 ^ 191, [(191, 0x100)], 0, 0, true, false, false, [], 0, 0, [], []⟩ : Run), 191, 0, by decide +kernel⟩,
   ⟨tS (tCore [[(0, 5)]] id), 191, (⟨[sramAt 191 0x120], []⟩ : Ecc), _, sramAt 191 0x120, by decide +kernel, rfl, by decide +kernel,
      by decide +kernel⟩,
   ⟨tS (tCore [[(0, 1)]] id), 191, (⟨[], []⟩ : Ecc), _, by decide +kernel, rfl, by decide +kernel, by decide +kernel, by decide +kernel⟩,
   ⟨tS (tCore [[(0, 5)]] id), 191, (⟨[], []⟩ : Ecc), _, by decide +kernel, rfl, by decide +kernel, by decide +kernel, by decide +kernel⟩⟩

theorem witness_TileLoads :
    (∃ s : State, ∃ c : Nat, ∃ pos : Nat, ∃ o : OpRec, ∃ t : Start, c < 192 ∧ (s.dev.core c).op? pos = some o ∧ s.dev.st = .running ∧
      s.dev.startable c pos 1 = true ∧ (s.dev.core c).shadow = none ∧ (s.dev.countStart t).poisonOf (wlSram c o.bytes) = none) ∧
    (∃ s : State, ∃ c : Nat, ∃ pos : Nat, ∃ o : OpRec, ∃ t : Start, ∃ a : Nat, c < 192 ∧ (s.dev.core c).op? pos = some o ∧ s.dev.st = .running ∧
      s.dev.startable c pos 1 = true ∧ (s.dev.core c).shadow = none ∧ (s.dev.countStart t).poisonOf (wlSram c o.bytes) = some a) ∧
    (∃ s : State, ∃ c : Nat, ∃ pos : Nat, ∃ o : OpRec, c < 192 ∧ (s.dev.core c).op? pos = some o ∧ s.dev.up = true ∧
      s.dev.startedOp c pos 1 = some o) ∧
    (∃ s : State, ∃ c : Nat, ∃ pos : Nat, ∃ o : OpRec, ∃ t : Start, c < 192 ∧ (s.dev.core c).op? pos = some o ∧ s.dev.st = .running ∧
      s.dev.startable c pos 2 = true ∧ (s.dev.countStart t).poisonOf [(sramAt c (opNum o.bytes 8 4), cbBytes o.bytes)] = none) ∧
    (∃ s : State, ∃ c : Nat, ∃ pos : Nat, ∃ o : OpRec, ∃ t : Start, ∃ a : Nat, c < 192 ∧ (s.dev.core c).op? pos = some o ∧ s.dev.st = .running ∧
      s.dev.startable c pos 2 = true ∧ (s.dev.countStart t).poisonOf [(sramAt c (opNum o.bytes 8 4), cbBytes o.bytes)] = some a) ∧
    (∃ s : State, ∃ c : Nat, ∃ pos : Nat, ∃ o : OpRec, c < 192 ∧ (s.dev.core c).op? pos = some o ∧ s.dev.up = true ∧
      s.dev.startedOp c pos 2 = some o) ∧
    (∃ s : State, ∃ c : Nat, ∃ pos : Nat, ∃ o : OpRec, c < 192 ∧ (s.dev.core c).op? pos = some o ∧ s.dev.st = .running ∧
      s.dev.startable c pos 1 = true ∧ (s.dev.core c).shadow ≠ none) :=
  ⟨⟨tS (tOpCore [(0, 1), (1, 0x19), (3, 1), (4, 1), (8, 0x2000), (12, 64)] id), 191, 0, tOp [(0, 1), (1, 0x19), (3, 1), (4, 1), (8, 0x2000), (12,
      64)], tStart, by decide +kernel⟩,
   ⟨tS ((tOpCore [(0, 1), (1, 0x19), (3, 1), (4, 1), (8, 0x2000), (12, 64)] id).setPoison (sramAt 191 0x2000)), 191, 0, tOp [(0, 1), (1, 0x19), (3,
      1), (4, 1), (8, 0x2000), (12, 64)], tStart, sramAt 191 0x2000, by decide +kernel⟩,
   ⟨tS (tOpCore [(0, 1), (1, 0x19)] (fun o => { o with started := true, tile := some ⟨0, [], []⟩ })), 191, 0,
      { tOp [(0, 1), (1, 0x19)] with started := true, tile := some ⟨0, [], []⟩ }, by decide +kernel⟩,
   ⟨tS (tOpCore [(0, 2), (1, 3), (8, 0x2000)] id), 191, 0, tOp [(0, 2), (1, 3), (8, 0x2000)], tStart, by decide +kernel⟩,
   ⟨tS ((tOpCore [(0, 2), (1, 3), (8, 0x2000)] id).setPoison (sramAt 191 0x2000)), 191, 0, tOp [(0, 2), (1, 3), (8, 0x2000)], tStart,
      sramAt 191 0x2000, by decide +kernel⟩,
   ⟨tS (tOpCore [(0, 2), (1, 3), (8, 0x2000)] (fun o => { o with started := true, conv := fill 16 [(0, 1)] })), 191, 0,
      { tOp [(0, 2), (1, 3), (8, 0x2000)] with started := true, conv := fill 16 [(0, 1)] }, by decide +kernel⟩,
   ⟨tS (tCore [[(0, 1), (1,
      0x19)]] (fun x => { x with ops := [tOp [(0, 1), (1, 0x19)]], next := 1, shadow := some ⟨7, fill 32 [(0, 1), (1, 0x19)], []⟩ })), 191, 0,
      tOp [(0, 1), (1, 0x19)], by decide +kernel⟩⟩

theorem witness_Passes_1 :
    (∃ s : State, ∃ c : Nat, ∃ pos : Nat, ∃ o : OpRec, c < 192 ∧ (s.dev.core c).op? pos = some o ∧ s.dev.st = .running ∧
      s.dev.startable c pos 3 = true ∧ (s.dev.core c).nothingToSwitch o = true) ∧
    (∃ s : State, ∃ c : Nat, ∃ pos : Nat, ∃ o : OpRec, ∃ t : Start, ∃ a : Nat, c < 192 ∧ (s.dev.core c).op? pos = some o ∧ s.dev.st = .running ∧
      s.dev.startable c pos 3 = true ∧ (s.dev.core c).nothingToSwitch o = false ∧ (o.sw = false ∨ (s.dev.core c).shadow ≠ none) ∧
      (s.dev.countStart t).poisonOf (passSram c o.bytes ((s.dev.core c).tileOf o)) = some a) ∧
    (∃ s : State, ∃ c : Nat, ∃ pos : Nat, ∃ o : OpRec, ∃ t : Start, c < 192 ∧ (s.dev.core c).op? pos = some o ∧ s.dev.st = .running ∧
      s.dev.startable c pos 3 = true ∧ (s.dev.core c).nothingToSwitch o = false ∧ (o.sw = false ∨ (s.dev.core c).shadow ≠ none) ∧
      (s.dev.countStart t).poisonOf (passSram c o.bytes ((s.dev.core c).tileOf o)) = none ∧ o.sw = true) ∧
    (∃ s : State, ∃ c : Nat, ∃ pos : Nat, ∃ o : OpRec, ∃ t : Start, c < 192 ∧ (s.dev.core c).op? pos = some o ∧ s.dev.st = .running ∧
      s.dev.startable c pos 3 = true ∧ (s.dev.core c).nothingToSwitch o = false ∧ (o.sw = false ∨ (s.dev.core c).shadow ≠ none) ∧
      (s.dev.countStart t).poisonOf (passSram c o.bytes ((s.dev.core c).tileOf o)) = none ∧ o.sw = false) ∧
    (∃ s : State, ∃ c : Nat, ∃ pos : Nat, ∃ o : OpRec, ∃ t : Tile, ∃ p : PassTiming, ∃ d : Dev, c < 192 ∧ s.dev.up = true ∧
      s.dev.startedOp c pos 3 = some o ∧ (s.dev.core c).passes.head?.map (·.pos) = some pos ∧ o.tile = some t ∧
      d = ((s.dev.bump Reg.ARR_SHADOW_WAIT.COUNT p.wait).bump Reg.ARR_BUBBLE_SLOTS.COUNT p.bubble).bump
      Reg.ARR_FEED_STARVE.COUNT p.starve ∧ d.poisonOf (passSram c o.bytes t.op) = none ∧
      d.partOf ((List.range (stM o.bytes)).map (fun m => (passRowAt c o.bytes true m, 4 * wlN t.op))) = none ∧
      s.dev.fld (Reg.ARR_CORE_FAULT.PENDING c) = 0) ∧
    (∃ s : State, ∃ c : Nat, ∃ pos : Nat, ∃ o : OpRec, ∃ t : Tile, ∃ p : PassTiming, ∃ d : Dev, c < 192 ∧ s.dev.up = true ∧
      s.dev.startedOp c pos 3 = some o ∧ (s.dev.core c).passes.head?.map (·.pos) = some pos ∧ o.tile = some t ∧
      d = ((s.dev.bump Reg.ARR_SHADOW_WAIT.COUNT p.wait).bump Reg.ARR_BUBBLE_SLOTS.COUNT p.bubble).bump
      Reg.ARR_FEED_STARVE.COUNT p.starve ∧ d.poisonOf (passSram c o.bytes t.op) = none ∧
      d.partOf ((List.range (stM o.bytes)).map (fun m => (passRowAt c o.bytes true m, 4 * wlN t.op))) = none ∧
      s.dev.fld (Reg.ARR_CORE_FAULT.PENDING c) = 1) ∧
    (∃ s : State, ∃ c : Nat, c < 192 ∧ s.dev.up = true ∧ s.dev.fld (Reg.ARR_CORE_FAULT.PENDING c) = 1 ∧
      s.dev.faultWindow ≤ Tab.get 0 s.dev.cleanPasses c) ∧
    (∃ s : State, ∃ c : Nat, c < 192 ∧ s.dev.up = true) :=
  ⟨⟨tS (tCore [[(0, 3), (1, 0x19), (16, 0x3000), (20,
      64)]] (fun x => { x with ops := [{ tOp [(0, 3), (1, 0x19), (16, 0x3000), (20, 64)] with sw := true }], next := 1 })), 191, 0,
      { tOp [(0, 3), (1, 0x19), (16, 0x3000), (20, 64)] with sw := true }, by decide +kernel⟩,
   ⟨tS ((tCore [[(0, 3), (1, 0x19), (16, 0x3000), (20,
      64)]] (fun x =>
      { x with ops := [{ tOp [(0, 3), (1, 0x19), (16, 0x3000), (20, 64)] with sw := true }], next := 1, shadow := some ⟨0, fill 32 [(0, 1), (1, 0x19)], [[]]⟩ })).setPoison (sramAt 191 0x3000)), 191, 0, { tOp [(0, 3), (1, 0x19), (16, 0x3000), (20, 64)] with sw := true }, tStart, sramAt 191 0x3000, by decide +kernel⟩,
   ⟨tS (tCore [[(0, 3), (1, 0x19), (16, 0x3000), (20,
      64)]] (fun x =>
      { x with ops := [{ tOp [(0, 3), (1, 0x19), (16, 0x3000), (20, 64)] with sw := true }], next := 1, shadow := some ⟨0, fill 32 [(0, 1), (1, 0x19)], [[]]⟩ })), 191, 0, { tOp [(0, 3), (1, 0x19), (16, 0x3000), (20, 64)] with sw := true }, tStart, by decide +kernel⟩,
   ⟨tS (tCore [[(0, 3), (1, 9), (16, 0x3000), (20,
      64)]] (fun x =>
      { x with ops := [tOp [(0, 3), (1, 9), (16, 0x3000), (20, 64)]], next := 1, active := some ⟨0, fill 32 [(0, 1), (1, 0x19)], [[]]⟩ })), 191, 0,
      tOp [(0, 3), (1, 9), (16, 0x3000), (20, 64)], tStart, by decide +kernel⟩,
   ⟨tS (tCore [[(0, 3), (1, 9), (16, 0x3000), (20,
      64)]] (fun x =>
      { x with ops := [{ tOp [(0, 3), (1, 9), (16, 0x3000), (20, 64)] with started := true, tile := some ⟨0, fill 32 [(0, 1), (1, 0x19)], [[.fin 2 0 false]]⟩ }], next := 1 })), 191, 0, { tOp [(0, 3), (1, 9), (16, 0x3000), (20, 64)] with started := true, tile := some ⟨0, fill 32 [(0, 1), (1, 0x19)], [[.fin 2 0 false]]⟩ }, (⟨0, fill 32 [(0, 1), (1, 0x19)], [[.fin 2 0 false]]⟩ : Tile), (⟨0, 0, 0⟩ : PassTiming), _, by decide +kernel, by decide +kernel, by decide +kernel, by decide +kernel, by decide +kernel, rfl, by decide +kernel, by decide +kernel, by decide +kernel⟩,
   ⟨tS ((tCore [[(0, 3), (1, 9), (16, 0x3000), (20,
      64)]] (fun x =>
      { x with ops := [{ tOp [(0, 3), (1, 9), (16, 0x3000), (20, 64)] with started := true, tile := some ⟨0, fill 32 [(0, 1), (1, 0x19)], [[.fin 2 0 false]]⟩ }], next := 1 })).setFld (Reg.ARR_CORE_FAULT.PENDING 191) 1), 191, 0, { tOp [(0, 3), (1, 9), (16, 0x3000), (20, 64)] with started := true, tile := some ⟨0, fill 32 [(0, 1), (1, 0x19)], [[.fin 2 0 false]]⟩ }, (⟨0, fill 32 [(0, 1), (1, 0x19)], [[.fin 2 0 false]]⟩ : Tile), (⟨0, 0, 0⟩ : PassTiming), _, by decide +kernel, by decide +kernel, by decide +kernel, by decide +kernel, by decide +kernel, rfl, by decide +kernel, by decide +kernel, by decide +kernel⟩,
   ⟨tS ({ (tCore [] id).setFld (Reg.ARR_CORE_FAULT.PENDING 191) 1 with cleanPasses := [(191, 2 ^ 32)] } : Dev), 191, by decide +kernel⟩,
   ⟨tS ((tCore [] id).setFld Reg.ARR_STATUS.BUBBLE 5), 191, by decide +kernel⟩⟩

theorem witness_Passes_2 :
    (∃ s : State, ∃ c : Nat, ∃ cause : Nat, ∃ arrays : Nat, ∃ d : Dev, c < 192 ∧ 1 ≤ cause ∧ cause ≤ 5 ∧ 1 ≤ arrays ∧ arrays < 16 ∧ s.dev.up = true ∧
      (s.dev.core c).passes ≠ [] ∧ s.dev.fld (Reg.ARR_CORE_FAULT.PENDING c) = 0 ∧ d = (s.dev.markFault c cause arrays false).discardPasses c ∧
      d.core c = s.dev.core c ∧ (s.dev.core c).afterOverflow = false ∧ d.budgetLeft c ≠ 0) ∧
    (∃ s : State, ∃ c : Nat, ∃ cause : Nat, ∃ arrays : Nat, ∃ d : Dev, c < 192 ∧ 1 ≤ cause ∧ cause ≤ 5 ∧ 1 ≤ arrays ∧ arrays < 16 ∧ s.dev.up = true ∧
      (s.dev.core c).passes ≠ [] ∧ s.dev.fld (Reg.ARR_CORE_FAULT.PENDING c) = 1 ∧ d = (s.dev.markFault c cause arrays true).discardPasses c) ∧
    (∃ s : State, ∃ c : Nat, c < 192 ∧ s.dev.up = true ∧ s.dev.vecBusy c = true) :=
  ⟨⟨tS (tCore [[(0, 3), (1,
      9)]] (fun x => { x with ops := [{ tOp [(0, 3), (1, 9)] with started := true, tile := some ⟨0, fill 32 [(0, 1)], []⟩ }], next := 1 })), 191, 5,
      15, _, by decide +kernel, by decide +kernel, by decide +kernel, by decide +kernel, by decide +kernel, by decide +kernel, by decide +kernel,
      by decide +kernel, rfl, by decide +kernel, by decide +kernel, by decide +kernel⟩,
   ⟨tS ((tCore [[(0, 3), (1,
      9)]] (fun x => { x with ops := [{ tOp [(0, 3), (1, 9)] with started := true, tile := some ⟨0, fill 32 [(0, 1)], []⟩ }], next := 1 })).setFld
      (Reg.ARR_CORE_FAULT.PENDING 191) 1), 191, 5, 15, _, by decide +kernel, by decide +kernel, by decide +kernel, by decide +kernel,
      by decide +kernel, by decide +kernel, by decide +kernel, by decide +kernel, rfl⟩,
   ⟨tS (tVec 0 id), 191, by decide +kernel⟩⟩

theorem witness_DrainsAndReplays :
    (∃ s : State, ∃ c : Nat, ∃ pos : Nat, ∃ o : OpRec, c < 192 ∧ (s.dev.core c).op? pos = some o ∧ s.dev.st = .running ∧
      s.dev.convReadable c pos = true ∧ s.dev.firstPoison (sramAt c (drConv o.bytes)) 64 = none) ∧
    (∃ s : State, ∃ c : Nat, ∃ pos : Nat, ∃ o : OpRec, ∃ t : Start, c < 192 ∧ (s.dev.core c).op? pos = some o ∧ s.dev.st = .running ∧
      s.dev.startable c pos 4 = true ∧ o.conv ≠ [] ∧ (s.dev.countStart t).poisonOf (drSource c o.bytes) = none ∧ convRefused o.bytes o.conv = false ∧
      (s.dev.countStart t).poisonOf (if cvColmul o.conv then [(sramAt c (cvMul o.conv), 256)] else []) = none) ∧
    (∃ s : State, ∃ c : Nat, ∃ pos : Nat, ∃ o : OpRec, ∃ t : Start, c < 192 ∧ (s.dev.core c).op? pos = some o ∧ s.dev.st = .running ∧
      s.dev.startable c pos 4 = true ∧ o.conv ≠ [] ∧ (s.dev.countStart t).poisonOf (drSource c o.bytes) = none ∧ convRefused o.bytes o.conv = true) ∧
    (∃ s : State, ∃ c : Nat, ∃ pos : Nat, ∃ o : OpRec, c < 192 ∧ s.dev.up = true ∧ s.dev.startedOp c pos 4 = some o ∧
      s.dev.partOf (drainPuts c o.bytes o.conv) = none ∧ drReplay o.bytes = false ∧ cvGrad o.conv = false ∧ s.dev.drainSat c o.bytes = false ∧
      countOuts (s.dev.drainRows c o.bytes o.conv 0) (·.ovf) = 0) ∧
    (∃ s : State, ∃ c : Nat, ∃ pos : Nat, ∃ o : OpRec, ∃ rows : List DrainRow, c < 192 ∧ s.dev.up = true ∧ s.dev.startedOp c pos 4 = some o ∧
      s.dev.partOf (drainPuts c o.bytes o.conv) = none ∧ drReplay o.bytes = true ∧ cvGrad o.conv = false ∧ s.dev.drainSat c o.bytes = false ∧
      rows = s.dev.drainRows c o.bytes o.conv (Tab.get 0 (s.dev.core c).lower pos) ∧ countOuts rows (·.ovf) ≠ 0 ∧ (s.dev.core c).attempts < 2 ∧
      s.dev.budgetLeft c ≠ 0 ∧ (s.dev.core c).phase ≠ .stopped) ∧
    (∃ s : State, ∃ c : Nat, ∃ m : Nat, c < 192 ∧ s.dev.up = true ∧ (s.dev.core c).replayDue = true ∧ (s.dev.core c).live = true ∧
      (s.dev.core c).mark = some m ∧ s.dev.budgetLeft c ≠ 0) ∧
    (∃ s : State, ∃ c : Nat, c < 192 ∧ s.dev.atOp c 0x38 = true ∧ (s.dev.core c).verdictOpen = false) :=
  ⟨⟨tS (tOpCore [(0, 4), (2, 1), (6, 1), (8, 0x5000), (16, 0x4000)] id), 191, 0, tOp [(0, 4), (2, 1), (6, 1), (8, 0x5000), (16, 0x4000)],
      by decide +kernel⟩,
   ⟨tS (tOpCore [(0, 4), (2, 1), (6, 1), (8, 0x5000), (16, 0x4000)] (fun o => { o with conv := fill 64 [(0, 2)] })), 191, 0,
      { tOp [(0, 4), (2, 1), (6, 1), (8, 0x5000), (16, 0x4000)] with conv := fill 64 [(0, 2)] }, tStart, by decide +kernel⟩,
   ⟨tS (tOpCore [(0, 4), (2, 1), (6, 1), (8, 0x5000), (16, 0x4000)] (fun o => { o with conv := fill 64 [(0, 2), (9, 1)] })), 191, 0,
      { tOp [(0, 4), (2, 1), (6, 1), (8, 0x5000), (16, 0x4000)] with conv := fill 64 [(0, 2), (9, 1)] }, tStart, by decide +kernel⟩,
   ⟨tS (tOpCore [(0, 4), (2, 1), (6, 1), (8, 0x5000), (16, 0x4000)] (fun o => { o with started := true, conv := fill 64 [(0, 2)] })), 191, 0,
      { tOp [(0, 4), (2, 1), (6, 1), (8, 0x5000), (16, 0x4000)] with started := true, conv := fill 64 [(0, 2)] }, by decide +kernel⟩,
   ⟨tS ((tOpCore [(0, 4), (1, 2), (2, 1), (6, 1), (8, 0x5000), (16,
      0x4000)] (fun o => { o with started := true, conv := fill 64 [(0, 4)] })).write (accRow 191 false 0 0) (leBytes 4 0x447A0000)), 191, 0,
      { tOp [(0, 4), (1, 2), (2, 1), (6, 1), (8, 0x5000), (16, 0x4000)] with started := true, conv := fill 64 [(0, 4)] }, _, by decide +kernel,
      by decide +kernel, by decide +kernel, by decide +kernel, by decide +kernel, by decide +kernel, by decide +kernel, rfl, by decide +kernel,
      by decide +kernel, by decide +kernel, by decide +kernel⟩,
   ⟨tS (tCore [[(0, 0x38), (1, 1)], [(0, 4), (1, 2), (2, 1), (6,
      1)]] (fun x => { x with ops := [], next := 2, mark := some 0, delta := 1, overs := [1], replayDue := true })), 191, 0, by decide +kernel⟩,
   ⟨tS (tCore [[(0, 0x38), (1, 2)]] id), 191, by decide +kernel⟩⟩

theorem witness_DataMovement_1 :
    (∃ s : State, ∃ c : Nat, ∃ pos : Nat, ∃ o : OpRec, c < 192 ∧ (s.dev.core c).op? pos = some o ∧ s.dev.st = .running ∧
      s.dev.startable c pos 0x10 = true) ∧
    (∃ s : State, ∃ c : Nat, ∃ pos : Nat, ∃ o : OpRec, c < 192 ∧ (s.dev.core c).op? pos = some o ∧ s.dev.up = true ∧
      s.dev.startedOp c pos 0x10 = some o ∧ (Tab.get VecCtx.init s.dev.vec c).ended = true) ∧
    (∃ s : State, ∃ c : Nat, ∃ pos : Nat, ∃ o : OpRec, ∃ t : Start, c < 192 ∧ (s.dev.core c).op? pos = some o ∧ s.dev.st = .running ∧
      s.dev.startable c pos 0x20 = true ∧
      (∀ go : Dev → Dev, (s.dev.countStart t).opAccess c pos (moveReads o.bytes) (moveWrites o.bytes) go = go (s.dev.countStart t))) ∧
    (∃ s : State, ∃ c : Nat, ∃ pos : Nat, ∃ o : OpRec, c < 192 ∧ (s.dev.core c).op? pos = some o ∧ s.dev.up = true ∧
      s.dev.startedOp c pos 0x20 = some o ∧ (∀ go : Dev → Dev, s.dev.opAccess c pos (moveReads o.bytes) (moveWrites o.bytes) go = go s.dev)) ∧
    (∃ s : State, ∃ c : Nat, ∃ pos : Nat, ∃ o : OpRec, ∃ t : Start, c < 192 ∧ (s.dev.core c).op? pos = some o ∧ s.dev.st = .running ∧
      s.dev.startable c pos 0x21 = true ∧ (s.dev.countStart t).poisonOf [(sramAt c (opNum o.bytes 8 4), 4 * dmLen o.bytes)] = none) ∧
    (∃ s : State, ∃ c : Nat, ∃ pos : Nat, ∃ o : OpRec, c < 192 ∧ (s.dev.core c).op? pos = some o ∧ s.dev.up = true ∧
      s.dev.startedOp c pos 0x21 = some o) ∧
    (∃ s : State, ∃ c : Nat, ∃ pos : Nat, ∃ o : OpRec, c < 192 ∧ (s.dev.core c).op? pos = some o ∧ s.dev.up = true ∧
      s.dev.startedOp c pos 0x21 = some o ∧ dmLen o.bytes = 0) ∧
    (∃ s : State, ∃ c : Nat, ∃ pos : Nat, ∃ o : OpRec, ∃ k : Nat, c < 192 ∧ (s.dev.core c).op? pos = some o ∧ s.dev.up = true ∧
      s.dev.startedOp c pos 0x21 = some o ∧ dmLen o.bytes = k + 1 ∧ 0x100000000 < s.dev.gatherFrom c o.bytes 0 + gaSize o.bytes) :=
  ⟨⟨tS (tOpCore [(0, 0x10), (2, 3), (4, 0x6000), (24, 0x7000), (28, 64)] id), 191, 0, tOp [(0, 0x10), (2, 3), (4, 0x6000), (24, 0x7000), (28, 64)],
      by decide +kernel⟩,
   ⟨tS ({ tOpCore [(0, 0x10), (2, 3), (4, 0x6000)] (fun o => { o with started := true }) with vec := [(191, { VecCtx.init with ended := true })] } :
      Dev), 191, 0, { tOp [(0, 0x10), (2, 3), (4, 0x6000)] with started := true }, by decide +kernel⟩,
   ⟨tS (tOpCore [(0, 0x20), (2, 1), (4, 8), (8, vaultBase 191 + 0x100), (13, sramAt 191 0x8000), (20, 64), (24, 32)] id), 191, 0, tOp [(0, 0x20), (2,
      1), (4, 8), (8, vaultBase 191 + 0x100), (13, sramAt 191 0x8000), (20, 64), (24, 32)], tStart, by decide +kernel, by decide +kernel,
      by decide +kernel, by decide +kernel, fun _ => rfl⟩,
   ⟨tS ((tOpCore [(0, 0x20), (2, 1), (4, 8), (8, vaultBase 191 + 0x100), (13, sramAt 191 0x8000), (20, 64), (24,
      32)] (fun o => { o with started := true })).write (vaultBase 191 + 0x100) [1, 2, 3]), 191, 0,
      { tOp [(0, 0x20), (2, 1), (4, 8), (8, vaultBase 191 + 0x100), (13, sramAt 191 0x8000), (20, 64), (24, 32)] with started := true },
      by decide +kernel, by decide +kernel, by decide +kernel, by decide +kernel, fun _ => rfl⟩,
   ⟨tS (tOpCore [(0, 0x21), (4, 1), (8, 0x6000), (13, vaultBase 191), (20, 0x8000), (24, 32)] id), 191, 0, tOp [(0, 0x21), (4, 1), (8, 0x6000), (13,
      vaultBase 191), (20, 0x8000), (24, 32)], tStart, by decide +kernel⟩,
   ⟨tS (tOpCore [(0, 0x21), (8, 0x6000), (13, vaultBase 191), (20, 0x8000), (24, 32)] (fun o => { o with started := true })), 191, 0,
      { tOp [(0, 0x21), (8, 0x6000), (13, vaultBase 191), (20, 0x8000), (24, 32)] with started := true }, by decide +kernel⟩,
   ⟨tS (tOpCore [(0, 0x21), (8, 0x6000), (13, vaultBase 191), (20, 0x8000), (24, 32)] (fun o => { o with started := true })), 191, 0,
      { tOp [(0, 0x21), (8, 0x6000), (13, vaultBase 191), (20, 0x8000), (24, 32)] with started := true }, by decide +kernel⟩,
   ⟨tS ((tOpCore [(0, 0x21), (4, 1), (8, 0x6000), (13, vaultBase 191), (20, 0x8000), (24,
      32)] (fun o => { o with started := true })).write (sramAt 191 0x6000) [0, 0, 0, 8]), 191, 0,
      { tOp [(0, 0x21), (4, 1), (8, 0x6000), (13, vaultBase 191), (20, 0x8000), (24, 32)] with started := true }, (0 : Nat), by decide +kernel⟩⟩

theorem witness_DataMovement_2 :
    (∃ s : State, ∃ c : Nat, ∃ pos : Nat, ∃ o : OpRec, ∃ k : Nat, c < 192 ∧ (s.dev.core c).op? pos = some o ∧ s.dev.up = true ∧
      s.dev.startedOp c pos 0x21 = some o ∧ dmLen o.bytes = k + 1 ∧ s.dev.gatherFrom c o.bytes 0 + gaSize o.bytes ≤ 0x100000000 ∧
      s.dev.firstPoison (vaultBase c + s.dev.gatherFrom c o.bytes 0) (gaSize o.bytes) = none ∧
      s.dev.partOf [(sramAt c (dmC o.bytes), gaSize o.bytes)] = none) ∧
    (∃ s : State, ∃ c : Nat, ∃ pos : Nat, ∃ o : OpRec, ∃ t : Start, ∃ d : Dev, c < 192 ∧ (s.dev.core c).op? pos = some o ∧ s.dev.st = .running ∧
      s.dev.startable c pos 0x22 = true ∧ d = s.dev.countStart t ∧ d.noRoute (xfHome o.bytes) = true) ∧
    (∃ s : State, ∃ c : Nat, ∃ pos : Nat, ∃ o : OpRec, ∃ t : Start, ∃ d : Dev, c < 192 ∧ (s.dev.core c).op? pos = some o ∧ s.dev.st = .running ∧
      s.dev.startable c pos 0x22 = true ∧ d = s.dev.countStart t ∧ d.noRoute (xfHome o.bytes) = false ∧ d.peerGone (xfHome o.bytes) = true ∧
      dmLen o.bytes ≠ 0) ∧
    (∃ s : State, ∃ c : Nat, ∃ pos : Nat, ∃ o : OpRec, ∃ t : Start, ∃ d : Dev, c < 192 ∧ (s.dev.core c).op? pos = some o ∧ s.dev.st = .running ∧
      s.dev.startable c pos 0x22 = true ∧ d = s.dev.countStart t ∧ d.noRoute (xfHome o.bytes) = false ∧
      (d.peerGone (xfHome o.bytes) = false ∨ dmLen o.bytes = 0) ∧
      (∀ go : Dev → Dev, d.opAccess c pos (if xfGet o.bytes then [] else [(dmA o.bytes, dmLen o.bytes)])
      (if xfGet o.bytes then [(dmA o.bytes, dmLen o.bytes)] else []) go = go d)) ∧
    (∃ s : State, ∃ c : Nat, ∃ pos : Nat, ∃ o : OpRec, ∃ q : MfbOp, c < 192 ∧ (s.dev.core c).op? pos = some o ∧ s.dev.up = true ∧
      s.dev.startedOp c pos 0x22 = some o ∧ s.dev.xferOp c pos = some q ∧ q.pkts.all (·.acked) = true) :=
  ⟨⟨tS ((tOpCore [(0, 0x21), (4, 1), (8, 0x6000), (13, vaultBase 191), (20, 0x8000), (24,
      32)] (fun o => { o with started := true })).write (sramAt 191 0x6000) [5]), 191, 0,
      { tOp [(0, 0x21), (4, 1), (8, 0x6000), (13, vaultBase 191), (20, 0x8000), (24, 32)] with started := true }, (0 : Nat), by decide +kernel⟩,
   ⟨tS (tOpCore [(0, 0x22), (2, 9), (4, 8), (8, sramAt 191 0x8000), (13, 0x1000)] id), 191, 0, tOp [(0, 0x22), (2, 9), (4, 8), (8,
      sramAt 191 0x8000), (13, 0x1000)], tStart, _, by decide +kernel, by decide +kernel, by decide +kernel, by decide +kernel, rfl,
      by decide +kernel⟩,
   ⟨tS (((tOpCore [(0, 0x22), (2, 9), (4, 8), (8, sramAt 191 0x8000), (13,
      0x1000)] id).setFld (Reg.FAB_ROUTE.KIND 9) 1).setFld (Reg.FAB_ROUTE.LOST 9) 1), 191, 0, tOp [(0, 0x22), (2, 9), (4, 8), (8, sramAt 191 0x8000),
      (13, 0x1000)], tStart, _, by decide +kernel, by decide +kernel, by decide +kernel, by decide +kernel, rfl, by decide +kernel,
      by decide +kernel, by decide +kernel⟩,
   ⟨tS (((tOpCore [(0, 0x22), (1, 4), (2, 9), (4, 8), (8, sramAt 191 0x8000), (13,
      0x1000)] id).setFld (Reg.FAB_ROUTE.KIND 9) 1).setFld Reg.FAB_SELF.FLAT_ID 8), 191, 0, tOp [(0, 0x22), (1, 4), (2, 9), (4, 8), (8,
      sramAt 191 0x8000), (13, 0x1000)], tStart, _, by decide +kernel, by decide +kernel, by decide +kernel, by decide +kernel, rfl,
      by decide +kernel, by decide +kernel, fun _ => rfl⟩,
   ⟨tS ({ tOpCore [(0, 0x22), (2, 9), (4, 8), (8, sramAt 191 0x8000), (13, 0x1000)] (fun o => { o with started := true }) with mfb := { Mfb.init with ops := [⟨3, 3, .xfer 191 0, 9, 0, 0x1000, 8, true, sramAt 191 0x8000, none, [⟨0x1000, 8, [], true, 0, 0, true, false⟩], 0, 0, 0, 0, 0, []⟩] } } : Dev), 191, 0, { tOp [(0, 0x22), (2, 9), (4, 8), (8, sramAt 191 0x8000), (13, 0x1000)] with started := true }, (⟨3, 3, .xfer 191 0, 9, 0, 0x1000, 8, true, sramAt 191 0x8000, none, [⟨0x1000, 8, [], true, 0, 0, true, false⟩], 0, 0, 0, 0, 0, []⟩ : MfbOp), by decide +kernel⟩⟩

theorem witness_EventsAndBarriers_1 :
    (∃ s : State, ∃ c : Nat, c < 192 ∧ s.dev.atOp c 0x30 = true ∧ opNum (s.dev.nextOp c) 4 4 ≤ s.dev.evtGet (opNum (s.dev.nextOp c) 2 2)) ∧
    (∃ s : State, ∃ c : Nat, c < 192 ∧ s.dev.atOp c 0x30 = true ∧ s.dev.evtGet (opNum (s.dev.nextOp c) 2 2) < opNum (s.dev.nextOp c) 4 4) ∧
    (∃ s : State, ∃ c : Nat, ∃ i : Nat, ∃ v : Nat, c < 192 ∧ s.dev.up = true ∧ (s.dev.core c).phase = .waitEvent i v ∧ v ≤ s.dev.evtGet i ∧
      (s.dev.core c).preempt = false ∧ s.dev.stopping c = false) ∧
    (∃ s : State, ∃ c : Nat, c < 192 ∧ s.dev.up = true ∧ s.dev.waitExpired c = true) ∧
    (∃ s : State, ∃ c : Nat, c < 192 ∧ s.dev.up = true ∧ s.dev.stopsNow c = true) ∧
    (∃ s : State, ∃ c : Nat, c < 192 ∧ s.dev.atOp c 0x31 = true ∧ opNum (s.dev.nextOp c) 4 1 = 0 ∧ (s.dev.core c).signals = []) ∧
    (∃ s : State, ∃ c : Nat, c < 192 ∧ s.dev.atOp c 0x31 = true ∧ (opNum (s.dev.nextOp c) 4 1 ≠ 0 ∨ (s.dev.core c).signals ≠ []) ∧
      (s.dev.core c).signals.length < 8) ∧
    (∃ s : State, ∃ c : Nat, ∃ g : OpRec, ∃ rest : List OpRec, c < 192 ∧ s.dev.up = true ∧ (s.dev.core c).signals = g :: rest ∧
      (s.dev.core c).fenceMet g = true) :=
  ⟨⟨tS ({ tCore [[(0, 0x30), (2, 65535), (4, 7)]] id with evt := [(65535, 7)] } : Dev), 191, by decide +kernel⟩,
   ⟨tS ({ tCore [[(0, 0x30), (2, 65535), (4, 7)]] id with evt := [(65535, 6)] } : Dev), 191, by decide +kernel⟩,
   ⟨tS ({ tCore [[(0, 0x30)]] (fun x => { x with phase := .waitEvent 3 7 }) with evt := [(3, 7)] } : Dev), 191, 3, 7, by decide +kernel⟩,
   ⟨tS ((tCore [[(0, 0x30)]] (fun x => { x with phase := .waitEvent 3 7 })).modStp (fun t => { t with time := ms 101 })), 191, by decide +kernel⟩,
   ⟨tS ({ tCore [] id with runs := [⟨(0, 5), 2 ^ 191, [(191, 0x100)], 0, 0, true, true, true, [], 0, 0, [], []⟩] } : Dev), 191, by decide +kernel⟩,
   ⟨tS ({ tCore [[(0, 0x31), (2, 9), (8, 0xFFFFFFFF)]] id with evt := [(9, 2)] } : Dev), 191, by decide +kernel⟩,
   ⟨tS (tCore [[(0, 0x31), (2, 9), (4, 1), (8, 1)]] id), 191, by decide +kernel⟩,
   ⟨tS (tCore [[(0, 0x31), (2, 9), (4, 1), (8, 1)]] (fun x => { x with signals := [tOp [(0, 0x31), (2, 9), (4, 1), (8, 1)]] })), 191, tOp [(0, 0x31),
      (2, 9), (4, 1), (8, 1)], ([] : List OpRec), by decide +kernel⟩⟩

theorem witness_EventsAndBarriers_2 :
    (∃ s : State, ∃ c : Nat, c < 192 ∧ s.dev.atOp c 0x32 = true ∧ (s.dev.core c).fenced = true ∧ bit (opNum (s.dev.nextOp c) 1 1) 0 = false) ∧
    (∃ s : State, ∃ c : Nat, c < 192 ∧ s.dev.atOp c 0x32 = true ∧ (s.dev.core c).fenced = true ∧ bit (opNum (s.dev.nextOp c) 1 1) 0 = true) ∧
    (∃ s : State, ∃ c : Nat, ∃ k : Nat, ∃ i : Nat, ∃ id : Nat, ∃ q : Run, c < 192 ∧ k < 16 ∧ id < 256 ∧ s.dev.up = true ∧
      s.dev.run? (k, i) = some q ∧ q.checked = true ∧ q.stopping = false ∧ s.dev.barrierFull q id = false) ∧
    (∃ s : State, ∃ c : Nat, ∃ k : Nat, ∃ i : Nat, ∃ id : Nat, ∃ q : Run, c < 192 ∧ k < 16 ∧ id < 256 ∧ s.dev.up = true ∧
      s.dev.run? (k, i) = some q ∧ q.checked = true ∧ q.stopping = false ∧ s.dev.barrierFull q id = true ∧ q.mask.testBit c = true ∧
      (s.dev.core c).owner = some q.key ∧ (s.dev.core c).phase = .barrier id (Tab.get 0 q.released id)) :=
  ⟨⟨tS (tCore [[(0, 0x32), (2, 255)]] id), 191, by decide +kernel⟩,
   ⟨tS (tCore [[(0, 0x32), (1, 1)]] id), 191, by decide +kernel⟩,
   ⟨tS (tCore [[(0, 0x32), (2, 255)]] (fun x => { x with phase := .barrier 255 0 })), 191, 0, 5, 255, (⟨(0, 5), 2 ^ 191, [(191, 0x100)], 0, 0, true,
      true, false, [], 0, 0, [], []⟩ : Run), by decide +kernel⟩,
   ⟨tS (tCore [[(0, 0x32), (2, 255)]] (fun x => { x with phase := .barrier 255 0, arrivals := [(255, 1)] })), 191, 0, 5, 255, (⟨(0, 5), 2 ^ 191,
      [(191, 0x100)], 0, 0, true, true, false, [], 0, 0, [], []⟩ : Run), by decide +kernel⟩⟩

theorem witness_Preemption :
    (∃ s : State, ∃ c : Nat, c < 192 ∧ (s.dev.atOp c 0x3F = true ∨ (s.dev.dispatches c = true ∧ s.dev.pastEnd c = true)) ∧
      (s.dev.core c).verdictOpen = false) ∧
    (∃ s : State, ∃ c : Nat, c < 192 ∧ s.dev.up = true ∧ (s.dev.core c).phase = .ending ∧ (s.dev.core c).ops = [] ∧ (s.dev.core c).signals = []) ∧
    (∃ s : State, ∃ c : Nat, c < 192 ∧ s.dev.up = true ∧ (s.dev.core c).phase = .ending ∧ (s.dev.core c).ops = [] ∧ (s.dev.core c).signals = [] ∧
      (s.dev.core c).owner = none) ∧
    (∃ s : State, ∃ c : Nat, c < 192 ∧ s.dev.up = true ∧ s.dev.preemptDue c = true) ∧
    (∃ s : State, ∃ c : Nat, c < 192 ∧ s.dev.up = true ∧ (s.dev.core c).savable = true) ∧
    (∃ s : State, ∃ c : Nat, c < 192 ∧ s.dev.up = true ∧ (s.dev.core c).phase = .saving) ∧
    (∃ s : State, ∃ c : Nat, ∃ x : Core, c < 192 ∧ s.dev.up = true ∧ (s.dev.core c).phase = .restoring ∧ s.dev.savedCore c = some x) ∧
    (∃ s : State, ∃ c : Nat, ∃ x : Core, ∃ q : Run, c < 192 ∧ s.dev.up = true ∧ (s.dev.core c).phase = .reloading ∧ s.dev.savedCore c = some x ∧
      s.dev.ownerRun c = some q ∧ x.active = none ∧ x.phase = .running) :=
  ⟨⟨tS (tCore [[(0, 0x3F)]] (fun x => { x with next := 0 })), 191, by decide +kernel⟩,
   ⟨tS (tCore [[(0, 0x3F)]] (fun x => { x with phase := .ending })), 191, by decide +kernel⟩,
   ⟨tS (tCore [[(0, 0x3F)]] (fun x => { x with phase := .ending, owner := none })), 191, by decide +kernel⟩,
   ⟨tS ({ (tCore [[(0, 0x3F)]] id).write (sramAt 191 0x101) [0] with runs := [⟨(0, 5), 2 ^ 191, [(191, 0x100)], 0, 0, true, true, false, [], 0, 0, [], []⟩, ⟨(0, 6), 2 ^ 191, [(191, 0x100)], 1, 0, false, false, false, [], 0, 0, [], []⟩] } : Dev), 191, by decide +kernel⟩,
   ⟨tS (tCore [[(0, 0x3F)]] (fun x => { x with preempt := true })), 191, by decide +kernel⟩,
   ⟨tS (tCore [[(0, 0x3F)]] (fun x => { x with phase := .saving, area := (0, 0, 0x2000) })), 191, by decide +kernel⟩,
   ⟨tS ({ tCore [] (fun x => { x with phase := .restoring }) with runs := [⟨(0, 5), 2 ^ 191, [(191, 0x100)], 0, 0, true, true, false, [], 0, 0, [], [(191, { Core.init with phase := .running, next := 1, area := (0, 0x1800000, 0x2000) })]⟩] } : Dev), 191, { Core.init with phase := .running, next := 1, area := (0, 0x1800000, 0x2000) }, by decide +kernel⟩,
   ⟨tS ({ tCore [] (fun x => { x with phase := .reloading }) with runs := [⟨(0, 5), 2 ^ 191, [(191, 0x100)], 0, 0, true, true, false, [], 0, 0, [], [(191, { Core.init with phase := .running, next := 1 })]⟩] } : Dev), 191, { Core.init with phase := .running, next := 1 }, (⟨(0, 5), 2 ^ 191, [(191, 0x100)], 0, 0, true, true, false, [], 0, 0, [], [(191, { Core.init with phase := .running, next := 1 })]⟩ : Run), by decide +kernel⟩⟩

theorem witness_VectorSteps :
    (∃ s : State, ∃ x : Nat, ∃ w : Nat, ∃ c : Instr, ∃ op : Nat, x < 256 ∧ VecGoes s.dev x w ∧
      (c, op) ∈ ([(.halt x, 0x00), (.vfp x, 0x01), (.vint x, 0x02), (.vcmp x, 0x03), (.vperm x, 0x04), (.vred x, 0x05),
      (.vcvt x, 0x06), (.vscl x, 0x07), (.vpred x, 0x08), (.vst x, 0x18), (.vsts x, 0x19), (.vstx x, 0x1A), (.vstn x, 0x1B),
      (.vstb x, 0x1C), (.salu x, 0x20), (.saddi x, 0x21), (.slui x, 0x22), (.sori x, 0x23), (.sst x, 0x25), (.mtc x, 0x26),
      (.mfc x, 0x27), (.beq x, 0x30), (.bne x, 0x31), (.blt x, 0x32), (.bltu x, 0x33), (.jmp x, 0x34)] : List (Instr × Nat)) ∧ vOp w = op) ∧
    (∃ s : State, ∃ x : Nat, ∃ w : Nat, ∃ k : Ecc, ∃ d : Dev, ∃ c : Instr, ∃ op : Nat, x < 256 ∧ VecGoes s.dev x w ∧
      d = (if isUpd x then s.dev else s.dev.meetEcc k) ∧ d.loadPoison x w = none ∧
      (c, op) ∈ ([(.vld x k, 0x10), (.vlds x k, 0x11), (.vldx x k, 0x12), (.vldw x k, 0x13), (.vldb x k, 0x14),
      (.sld x k, 0x24)] : List (Instr × Nat)) ∧ vOp w = op) :=
  ⟨⟨tS (tVec (tW 0 0 0 0 0) (fun v => { v with s := [0, 5, 0x7000, 7, 3, 8] ++ List.replicate 26 0 })), 191, (tW 0 0 0 0 0), (.halt 191 : Instr), 0,
      by decide +kernel⟩,
   ⟨tS (tVec (tW 0x10 1 2 0 0) (fun v => { v with s := [0, 5, 0x7000, 7, 3, 8] ++ List.replicate 26 0 })), 191, (tW 0x10 1 2 0 0), (⟨[], []⟩ : Ecc),
      _, (.vld 191 ⟨[], []⟩ : Instr), 0x10, by decide +kernel, by decide +kernel, rfl, by decide +kernel, by decide +kernel, by decide +kernel⟩⟩

theorem witness_VectorScalars :
    ∃ s : State, ∃ x : Nat, ∃ w : Nat, ∃ c : Instr, ∃ op : Nat, ∃ v : Word, x < 192 ∧ VecGoes s.dev x w ∧ (s.dev.ctx x).s.length = 32 ∧
      (c, op, v) ∈ ([(.salu x, 0x20, salu (vFn w) ((s.dev.ctx x).sr (vA w)) ((s.dev.ctx x).sr (vB w))),
      (.saddi x, 0x21, (s.dev.ctx x).sr (vA w) + BitVec.ofInt 32 (sext 16 (w % 65536))),
      (.slui x, 0x22, BitVec.ofNat 32 (w % 65536 * 65536)),
      (.sori x, 0x23, (s.dev.ctx x).sr (vA w) ||| BitVec.ofNat 32 (w % 65536)),
      (.sld x noEcc, 0x24, BitVec.ofNat 32 (s.dev.readLE (sramAt x ((s.dev.ctx x).sr (vA w) + immWord w).toNat) 4)),
      (.mfc x, 0x27, BitVec.ofNat 32 (readCtl (s.dev.vecEnv x) (s.dev.ctx x) (w % 16)))] : List (Instr × Nat × Word)) ∧ vOp w = op :=
  ⟨tS (tVec (tW 32 3 1 2 0) (fun v => { v with s := [0, 5, 0x7000, 7, 3, 8] ++ List.replicate 26 0 })), 191, (tW 32 3 1 2 0), (.salu 191 : Instr),
      32, (salu (vFn ((tW 32 3 1 2 0))) (((tS (tVec (tW 32 3 1 2 0) (fun v =>
      { v with s := [0, 5, 0x7000, 7, 3, 8] ++ List.replicate 26 0 }))).dev.ctx (191)).sr (vA ((tW 32 3 1 2 0)))) (((tS (tVec (tW 32 3 1 2 0) (fun v
      => { v with s := [0, 5, 0x7000, 7, 3, 8] ++ List.replicate 26 0 }))).dev.ctx (191)).sr (vB ((tW 32 3 1 2 0)))) : Word), by decide +kernel⟩

theorem witness_VectorBranches :
    (∃ s : State, ∃ x : Nat, ∃ w : Nat, ∃ c : Instr, ∃ op : Nat, ∃ b : Bool, x < 192 ∧ VecGoes s.dev x w ∧
      (c, op, b) ∈ ([(.beq x, 0x30, decide ((s.dev.ctx x).sr (vD w) = (s.dev.ctx x).sr (vA w))),
      (.bne x, 0x31, decide ((s.dev.ctx x).sr (vD w) ≠ (s.dev.ctx x).sr (vA w))),
      (.blt x, 0x32, ((s.dev.ctx x).sr (vD w)).slt ((s.dev.ctx x).sr (vA w))),
      (.bltu x, 0x33, decide ((s.dev.ctx x).sr (vD w) < (s.dev.ctx x).sr (vA w))), (.jmp x, 0x34, true)] :
      List (Instr × Nat × Bool)) ∧ vOp w = op) ∧
    (∃ s : State, ∃ x : Nat, ∃ w : Nat, x < 192 ∧ VecGoes s.dev x w ∧ vOp w = 0) :=
  ⟨⟨tS (tVec (tW 48 1 1 0 1) (fun v => { v with s := [0, 5, 0x7000, 7, 3, 8] ++ List.replicate 26 0 })), 191, (tW 48 1 1 0 1), (.beq 191 : Instr),
      48, (decide (((tS (tVec (tW 48 1 1 0 1) (fun v => { v with s := [0, 5, 0x7000, 7, 3, 8] ++ List.replicate 26 0 }))).dev.ctx (191)).sr (vD ((tW
      48 1 1 0 1))) = ((tS (tVec (tW 48 1 1 0 1) (fun v => { v with s := [0, 5, 0x7000, 7, 3, 8] ++ List.replicate 26 0 }))).dev.ctx (191)).sr (vA
      ((tW 48 1 1 0 1)))) : Bool), by decide +kernel⟩,
   ⟨tS (tVec (tW 0 0 0 0 0) id), 191, (tW 0 0 0 0 0), by decide +kernel⟩⟩

theorem witness_VectorLanes :
    (∃ s : State, ∃ x : Nat, ∃ w : Nat, ∃ c : Instr, ∃ op : Nat, ∃ f : Nat → BitVec 32, x < 192 ∧ VecGoes s.dev x w ∧ (s.dev.ctx x).v.length = 32 ∧
      (c, op, f) ∈ ([(.vfp x, 0x01, fun l => BitVec.ofNat 32 (vfpLane (vFn w) ((s.dev.ctx x).lane (vA w) l).toNat
      ((s.dev.ctx x).opB w l).toNat ((s.dev.ctx x).lane (vD w) l).toNat).1),
      (.vint x, 0x02, fun l => vintLane (vFn w) l ((s.dev.ctx x).lane (vA w) l) ((s.dev.ctx x).opB w l)
      ((s.dev.ctx x).lane (vD w) l)),
      (.vld x noEcc, 0x10, loadLane (s.dev.vecLoad x) (s.dev.ctx x) w),
      (.vlds x noEcc, 0x11, loadLane (s.dev.vecLoad x) (s.dev.ctx x) w),
      (.vldx x noEcc, 0x12, loadLane (s.dev.vecLoad x) (s.dev.ctx x) w),
      (.vldw x noEcc, 0x13, loadLane (s.dev.vecLoad x) (s.dev.ctx x) w),
      (.vldb x noEcc, 0x14, loadLane (s.dev.vecLoad x) (s.dev.ctx x) w)] : List (Instr × Nat × (Nat → Word))) ∧ vOp w = op) ∧
    (∃ s : State, ∃ x : Nat, ∃ w : Nat, x < 192 ∧ VecGoes s.dev x w ∧ (s.dev.ctx x).p.length = 8 ∧ vOp w = 0x03 ∧ vD w ≠ 0) ∧
    (∃ s : State, ∃ x : Nat, ∃ w : Nat, x < 192 ∧ VecGoes s.dev x w ∧ (s.dev.ctx x).p.length = 8 ∧ vOp w = 0x08 ∧ vD w ≠ 0 ∧
      (vFn w = 0 ∨ vFn w = 1 ∨ vFn w = 2)) ∧
    (∃ s : State, ∃ x : Nat, ∃ w : Nat, x < 192 ∧ VecGoes s.dev x w ∧ (s.dev.ctx x).p.length = 8 ∧ vOp w = 0x03 ∧ vD w = 0) :=
  ⟨⟨tS (tVec (tW 1 3 1 2 0) (fun v => { v with s := [0, 5, 0x7000, 7, 3, 8] ++ List.replicate 26 0 })), 191, (tW 1 3 1 2 0), (.vfp 191 : Instr), 1,
      _, by decide +kernel, by decide +kernel, by decide +kernel, .head _, by decide +kernel⟩,
   ⟨tS (tVec (tW 3 2 1 2 257) (fun v =>
      { v with p := [2 ^ 256 - 1, 0xF0, 0xFF, 3, 0, 1, 2, 3], v := (List.range 32).map (fun i => (List.range 256).map (fun l => BitVec.ofNat 32 (i * l))) })), 191, (tW 3 2 1 2 257), by decide +kernel⟩,
   ⟨tS (tVec (tW 8 2 1 3 0) (fun v =>
      { v with p := [2 ^ 256 - 1, 0xF0, 0xFF, 3, 0, 1, 2, 3], v := (List.range 32).map (fun i => (List.range 256).map (fun l => BitVec.ofNat 32 (i * l))) })), 191, (tW 8 2 1 3 0), by decide +kernel⟩,
   ⟨tS (tVec (tW 3 0 1 2 257) (fun v =>
      { v with p := [2 ^ 256 - 1, 0xF0, 0xFF, 3, 0, 1, 2, 3], v := (List.range 32).map (fun i => (List.range 256).map (fun l => BitVec.ofNat 32 (i * l))) })), 191, (tW 3 0 1 2 257), by decide +kernel⟩⟩

theorem witness_VectorStores :
    (∃ s : State, ∃ x : Nat, ∃ w : Nat, x < 192 ∧ VecGoes s.dev x w ∧
      s.dev.storePart (storeCells x (vecEffect (s.dev.vecEnv x) (s.dev.updExp ((s.dev.ctx x).cr 1 % 4096)) (s.dev.vecLoad x)
      (s.dev.ctx x) w).stores) = none ∧ vOp w = 0x25) ∧
    (∃ s : State, ∃ x : Nat, ∃ w : Nat, ∃ c : Instr, ∃ op : Nat, x < 192 ∧ VecGoes s.dev x w ∧
      s.dev.storePart (storeCells x (vecEffect (s.dev.vecEnv x) (s.dev.updExp ((s.dev.ctx x).cr 1 % 4096)) (s.dev.vecLoad x)
      (s.dev.ctx x) w).stores) = none ∧
      (c, op) ∈ ([(.vst x, 0x18), (.vsts x, 0x19), (.vstx x, 0x1A), (.vstn x, 0x1B), (.vstb x, 0x1C)] : List (Instr × Nat)) ∧ vOp w = op) :=
  ⟨⟨tS (tVec (tW 37 3 2 0 8) (fun v => { v with s := [0, 5, 0x7000, 7, 3, 8] ++ List.replicate 26 0 })), 191, (tW 37 3 2 0 8), by decide +kernel⟩,
   ⟨tS (tVec (tW 24 3 2 0 0) (fun v => { v with s := [0, 5, 0x7000, 7, 3, 8] ++ List.replicate 26 0 })), 191, (tW 24 3 2 0 0), (.vst 191 : Instr),
      24, by decide +kernel⟩⟩

theorem witness_VectorStops :
    (∃ s : State, ∃ x : Nat, x < 192 ∧ s.dev.vecRuns x = true ∧ vecDefined (s.dev.vecWord x) = false ∧
      s.dev.firstPoison (s.dev.ctx x).fetchAt 4 = none) ∧
    (∃ s : State, ∃ x : Nat, x < 192 ∧ s.dev.vecRuns x = true ∧ s.dev.vecSpent x = true ∧
      vecStopOf (s.dev.vecEnv x) (s.dev.ctx x) (s.dev.vecWord x) = none) ∧
    (∃ s : State, ∃ x : Nat, x < 192 ∧ s.dev.vecRuns x = true ∧ vOp (s.dev.vecWord x) = 0x25 ∧ vecDefined (s.dev.vecWord x) = true ∧
      s.dev.firstPoison (s.dev.ctx x).fetchAt 4 = none ∧ (vecStopOf (s.dev.vecEnv x) (s.dev.ctx x) (s.dev.vecWord x) = some .misaligned ∨
      vecStopOf (s.dev.vecEnv x) (s.dev.ctx x) (s.dev.vecWord x) = some .range)) :=
  ⟨⟨tS (tVec (tW 63 0 0 0 0) id), 191, by decide +kernel⟩,
   ⟨tS (tVec (tW 52 0 0 0 0) (fun v => { v with executed := 2 ^ 24 })), 191, by decide +kernel⟩,
   ⟨tS (tVec (tW 37 3 2 0 1) (fun v => { v with s := [0, 5, 0x7000, 7, 3, 8] ++ List.replicate 26 0 })), 191, by decide +kernel⟩⟩

theorem witness_VaultAccess :
    (∃ s : State, ∃ c : Nat, ∃ off : Nat, ∃ n : Nat, ∃ p : Nat, ∃ x : Nat, c < 192 ∧ s.dev.live = true ∧ 1 ≤ n ∧ n ≤ 256 ∧ off + n ≤ 0x100000000 ∧
      p < 20 ∧ x % 64 = 0 ∧ vaultBase c ≤ x ∧ x < vaultBase (c + 1) ∧ s.dev.coreGone c = false ∧ s.dev.poisonIn (vaultBase c + off) n = false) ∧
    (∃ s : State, ∃ c : Nat, ∃ off : Nat, ∃ n : Nat, ∃ e : VaultErr, c < 192 ∧ s.dev.live = true ∧ 1 ≤ n ∧ n ≤ 256 ∧ off + n ≤ 0x100000000 ∧
      vaultErrOk c e = true ∧ s.dev.mirrorOut = 0 ∧ s.dev.coreGone c = true) ∧
    (∃ s : State, ∃ c : Nat, ∃ off : Nat, ∃ l : List Byte, ∃ p : Nat, ∃ x : Nat, c < 192 ∧ s.dev.live = true ∧ 1 ≤ l.length ∧ l.length ≤ 256 ∧
      off + l.length ≤ 0x100000000 ∧ p < 20 ∧ x % 64 = 0 ∧ vaultBase c ≤ x ∧ x < vaultBase (c + 1) ∧ s.dev.coreGone c = false) ∧
    (∃ s : State, ∃ c : Nat, ∃ off : Nat, ∃ l : List Byte, ∃ e : VaultErr, ∃ m : List Nat, c < 192 ∧ s.dev.live = true ∧ 1 ≤ l.length ∧
      l.length ≤ 256 ∧ off + l.length ≤ 0x100000000 ∧ vaultErrOk c e = true ∧ againOk e m = true ∧ s.dev.mirrorOut = 0 ∧ s.dev.coreGone c = true) ∧
    (∃ s : State, ∃ k : Nat, ∃ row : Nat, ∃ x : Nat × Nat × Nat, bankOk k = true ∧ row < 8192 ∧ s.dev.up = true ∧
      s.dev.vlt.unfused.find? (fun e => e.1 = k && e.2.1 = row) = some x) ∧
    (∃ s : State, ∃ c : Nat, ∃ k : Nat, (c < 192 ∨ c = 0xFF) ∧ bankOk k = true ∧ s.dev.up = true ∧ s.dev.vlt.copies.contains (c, k) = true) ∧
    (∃ s : State, ∃ x : Nat, ∃ y : Nat, ∃ k : Nat, x < 224 ∧ y < 16 ∧ k < 17 ∧ s.dev.live = true) ∧
    (∃ s : State, ∃ t : Nat, ∃ i : Nat, t < 8 ∧ i < 28 ∧ s.dev.live = true ∧ s.dev.siteUsed t i = true ∧
      Tab.get 0 s.dev.vlt.scrub (28 * t + i) < 2 ^ 26 ∧ (∀ k, s.dev.coreAt t i = some k →
      s.dev.poisonIn (vaultBase k + 64 * Tab.get 0 s.dev.vlt.scrub (28 * t + i)) 64 = false)) :=
  ⟨⟨tS ((tLink .ready).write (vaultBase 191 + 0xFFFFFF00) [1, 2, 3]), 191, 0xFFFFFF00, 256, 19, vaultBase 191, by decide +kernel⟩,
   ⟨tS ((tLink .ready).setFld (Reg.TWR_CORE.STATE 7) 2), 7, 0, 3, (⟨[], 0, false, vaultBase 7, 0, false, false⟩ : VaultErr), by decide +kernel⟩,
   ⟨tS ((tLink .ready).write (vaultBase 0) [1, 2, 3]), 0, 1, ([9, 8] : List Byte), 0, vaultBase 0, by decide +kernel⟩,
   ⟨tS ((tLink .ready).setFld (Reg.TWR_CORE.STATE 7) 3), 7, 0, ([1] : List Byte), (⟨[], 0, false, vaultBase 7, 0, false, false⟩ : VaultErr),
      ([] : List Nat), by decide +kernel⟩,
   ⟨tS ((tLink .ready).modVlt (fun v => { v with unfused := [(114672, 8191, 31)], rowsUsed := [(114672, 2 ^ 31)] })), 114672, 8191, ((114672, 8191,
      31) : Nat × Nat × Nat), by decide +kernel⟩,
   ⟨tS ((tLink .running).modVlt (fun v => { v with copies := [(191, 114671)] })), 191, 114671, by decide +kernel⟩,
   ⟨tS ((tLink .running).modVlt (fun v => { v with refresh := [] })), (223 : Nat), 15, 16, by decide +kernel⟩,
   ⟨tS (((tLink .running).setFld (Reg.TWR_SPARE_SITES.SPARE 7) (2 ^ 27)).modVlt (fun v => { v with scrub := [(223, 2 ^ 26 - 1)] })), 7, 27,
      by decide +kernel⟩⟩

theorem witness_CoreMigration_1 :
    (∃ s : State, ∃ c : Nat, ∃ p : Nat, ∃ d : Dev, c < 192 ∧ p < 20 ∧ s.dev.up = true ∧ s.dev.vlt.retrain.contains (c, p) = true ∧
      d = s.dev.modVlt (fun v => { v with
      retrain := v.retrain.erase (c, p)
      fails := Tab.set 0 v.fails (32 * s.dev.column c + p) 0
      secFails := Tab.set [] v.secFails (32 * s.dev.column c + p) []
      calJobs := v.calJobs.map (fun j => j.advance c p) }) ∧ s.dev.coreGone c = false) ∧
    (∃ s : State, ∃ c : Nat, ∃ p : Nat, ∃ d : Dev, c < 192 ∧ p < 20 ∧ s.dev.up = true ∧ s.dev.vlt.retrain.contains (c, p) = true ∧
      d = s.dev.modVlt (fun v => { v with
      retrain := v.retrain.erase (c, p)
      fails := Tab.set 0 v.fails (32 * s.dev.column c + p) 0
      secFails := Tab.set [] v.secFails (32 * s.dev.column c + p) []
      calJobs := v.calJobs.map (fun j => j.advance c p) }) ∧ s.dev.coreGone c = true) ∧
    (∃ s : State, s.dev.up = true ∧ s.dev.fld Reg.VLT_MIRROR_PEER.STATE = 3 ∧ s.dev.mirrorOut = 0) ∧
    (∃ s : State, ∃ t : Nat, ∃ m : Migr, ∃ site : Nat, t < 8 ∧ s.dev.up = true ∧ s.dev.migRuns t = false ∧ s.dev.migIn t .waiting = some m ∧
      s.dev.lowSpare t = some site) ∧
    (∃ s : State, ∃ t : Nat, ∃ m : Migr, t < 8 ∧ s.dev.up = true ∧ s.dev.migIn t .init = some m) ∧
    (∃ s : State, ∃ t : Nat, ∃ m : Migr, t < 8 ∧ s.dev.up = true ∧ s.dev.migIn t .copy = some m ∧ s.dev.corePoison m.core = []) ∧
    (∃ s : State, ∃ t : Nat, ∃ m : Migr, t < 8 ∧ s.dev.up = true ∧ s.dev.migIn t .verify = some m) ∧
    (∃ s : State, ∃ t : Nat, ∃ m : Migr, t < 8 ∧ s.dev.up = true ∧ s.dev.migIn t .verify = some m ∧ m.target < 32) :=
  ⟨⟨tS ((tLink .running).modVlt (fun v => { v with retrain := [(191, 19)] })), 191, 19, _, by decide +kernel, by decide +kernel, by decide +kernel,
      by decide +kernel, rfl, by decide +kernel⟩,
   ⟨tS (((tLink .running).setFld (Reg.TWR_CORE.STATE 191) 3).modVlt (fun v => { v with retrain := [(191, 19)] })), 191, 19, _, by decide +kernel,
      by decide +kernel, by decide +kernel, by decide +kernel, rfl, by decide +kernel⟩,
   ⟨tS ((tLink .ready).setFld Reg.VLT_MIRROR_PEER.STATE 3), by decide +kernel⟩,
   ⟨tS ((tMigs .waiting).setFld (Reg.TWR_SPARE_SITES.SPARE 0) 0xC000000), 0, tMig .waiting none, 26, by decide +kernel⟩,
   ⟨tS (tMigs .init), 0, tMig .init none, by decide +kernel⟩,
   ⟨tS (tMigs .copy), 0, tMig .copy none, by decide +kernel⟩,
   ⟨tS (tMigs .verify), 0, tMig .verify none, by decide +kernel⟩,
   ⟨tS (tMigs .verify), 0, tMig .verify none, by decide +kernel⟩⟩

theorem witness_CoreMigration_2 :
    (∃ s : State, ∃ r : Nat, ∃ j : Desc, r < 16 ∧ Starts s r j ∧ j.opc = 0xA0 ∧ j.reservedByte [(24, 0, 8)] = none ∧ j.num 24 1 < 192 ∧
      s.dev.coreSt (j.num 24 1) = 1) ∧
    (∃ s : State, ∃ r : Nat, ∃ j : Desc, r < 16 ∧ Starts s r j ∧ j.opc = 0xA0 ∧ j.reservedByte [(24, 0, 8)] = none ∧ j.num 24 1 < 192 ∧
      s.dev.coreSt (j.num 24 1) = 3) ∧
    (∃ s : State, ∃ r : Nat, ∃ j : Desc, r < 16 ∧ Starts s r j ∧ j.opc = 0xA0 ∧ j.reservedByte [(24, 0, 8)] = none ∧ j.num 24 1 < 192 ∧
      s.dev.st ≠ .running ∧ s.dev.coreSt (j.num 24 1) = 0) ∧
    (∃ s : State, ∃ r : Nat, ∃ j : Desc, r < 16 ∧ Starts s r j ∧ j.opc = 0xA0 ∧ j.reservedByte [(24, 0, 8)] = none ∧ j.num 24 1 < 192 ∧
      s.dev.st ≠ .running ∧ s.dev.coreSt (j.num 24 1) = 2) ∧
    (∃ s : State, ∃ r : Nat, ∃ j : Desc, r < 16 ∧ Starts s r j ∧ j.opc = 0xA0 ∧ j.reservedByte [(24, 0, 8)] = none ∧ j.num 24 1 < 192 ∧
      s.dev.st = .running ∧ s.dev.stp.phase ≠ .gap ∧ s.dev.coreSt (j.num 24 1) ≠ 1 ∧ s.dev.coreSt (j.num 24 1) ≠ 3) ∧
    (∃ s : State, ∃ c : Nat, ∃ m : Migr, c < 192 ∧ s.dev.up = true ∧ s.dev.migs.find? (fun m => m.core = c && m.phase = .zero) = some m) ∧
    (∃ s : State, ∃ r : Nat, ∃ j : Desc, r < 16 ∧ Starts s r j ∧ j.opc = 0x90 ∧ j.num 24 1 = 2 ∧ j.reservedByte [(24, 0, 8), (26, 0, 192)] = none ∧
      s.dev.namedMigrating j = false) ∧
    (∃ s : State, ∃ r : Nat, ∃ j : Desc, r < 16 ∧ Starts s r j ∧ j.opc = 0xE0 ∧ j.num 24 1 = 0 ∧ s.dev.marginCheck j 192 (320 * popCount 192 j.mask)
      [failIf (s.dev.namedMigrating j) s.dev.conflict, ((onesOf 192 j.mask).find? s.dev.coreGone).map Ending.lost] = none ∧ j.mask = 0) :=
  ⟨⟨tHead ((tLink .ready).setFld (Reg.TWR_CORE.STATE 5) 1) (tJ [(0, 0xA0), (24, 5)]), 0, tJ [(0, 0xA0), (24, 5)], by decide +kernel⟩,
   ⟨tHead ((tLink .ready).setFld (Reg.TWR_CORE.STATE 5) 3) (tJ [(0, 0xA0), (24, 5)]), 0, tJ [(0, 0xA0), (24, 5)], by decide +kernel⟩,
   ⟨tHead ((tLink .ready).setFld (Reg.TWR_SPARE_SITES.SPARE 0) 0xC000000) (tJ [(0, 0xA0), (24, 5)]), 0, tJ [(0, 0xA0), (24, 5)], by decide +kernel⟩,
   ⟨tHead (((tLink .ready).setFld (Reg.TWR_CORE.STATE 5) 2).setFld (Reg.TWR_SPARE_SITES.SPARE 0) 0xC000000) (tJ [(0, 0xA0), (24, 5)]), 0, tJ [(0,
      0xA0), (24, 5)], by decide +kernel⟩,
   ⟨tHead (tLink .running) (tJ [(0, 0xA0), (24, 191)]), 0, tJ [(0, 0xA0), (24, 191)], by decide +kernel⟩,
   ⟨tS (((tMigs .zero).write (vaultBase 5) [1, 2]).write (sramAt 5 0) [3]), 5, tMig .zero none, by decide +kernel⟩,
   ⟨tHead (tLink .ready) (tJ [(0, 0x90), (24, 2), (26, 1)]), 0, tJ [(0, 0x90), (24, 2), (26, 1)], by decide +kernel⟩,
   ⟨tHead (tReg (tLink .ready) 0 0 4096 false) (tJ [(0, 0xE0), (58, 16)]), 0, tJ [(0, 0xE0), (58, 16)], by decide +kernel⟩⟩

theorem witness_CoreMigration_3 :
    (∃ s : State, ∃ r : Nat, ∃ j : Desc, r < 16 ∧ Starts s r j ∧ j.opc = 0xE0 ∧ j.num 24 1 = 0 ∧ s.dev.marginCheck j 192 (320 * popCount 192 j.mask)
      [failIf (s.dev.namedMigrating j) s.dev.conflict, ((onesOf 192 j.mask).find? s.dev.coreGone).map Ending.lost] = none ∧ j.mask ≠ 0) ∧
    (∃ s : State, ∃ c : Nat, ∃ p : Nat, ∃ x : PipeSweep, ∃ w : SweepJob, ∃ d : Dev, c < 192 ∧ p < 20 ∧ s.dev.up = true ∧
      s.dev.vlt.marginJobs.find? (fun j => j.busy.contains (c, p)) = some w ∧
      d = s.dev.modVlt (fun v => { v with timing := Tab.set (0, 0, 0) v.timing c (s.dev.sweepTiming c p x) })) :=
  ⟨⟨tHead (tReg (tLink .ready) 0 0 4096 false) (tJ [(0, 0xE0), (26, 5), (58, 640)]), 0, tJ [(0, 0xE0), (26, 5), (58, 640)], by decide +kernel⟩,
   ⟨tS ({ tReg (tLink .ready) 0 0 4096 false with vlt := { Vlt.init with marginJobs := [⟨(0, 0), [(0, 1)], [(0, 0)], []⟩] }, hq := { (tLink .ready).hq with rings := [(0, { Ring.init with started := [tJ [(0, 0xE0), (26, 1), (58, 320)]] })] } } : Dev), 0, 0, (⟨1, 2, 3, 4, 5, 6, 7, 8⟩ : PipeSweep), (⟨(0, 0), [(0, 1)], [(0, 0)], []⟩ : SweepJob), _, by decide +kernel, by decide +kernel, by decide +kernel, by decide +kernel, rfl⟩⟩

theorem witness_PortBlocks_1 :
    (∃ s : State, ∃ p : Nat, p < 48 ∧ s.dev.live = true ∧ s.dev.carries p = true) ∧
    (∃ s : State, ∃ p : Nat, ∃ b : List Byte, p < 48 ∧ s.dev.live = true ∧ s.dev.carries p = true ∧ b.length = 256 ∧ blkGood b = false) ∧
    (∃ s : State, ∃ p : Nat, ∃ b : List Byte, p < 48 ∧ s.dev.live = true ∧ s.dev.carries p = true ∧ b.length = 256 ∧ blkGood b = true ∧
      blkType b = 1) ∧
    (∃ s : State, ∃ p : Nat, ∃ b : List Byte, p < 48 ∧ s.dev.live = true ∧ s.dev.carries p = true ∧ b.length = 256 ∧ blkGood b = true ∧
      blkType b = 0 ∧ ((s.dev.blkHeader p b).rxData p b).carries p = true) ∧
    (∃ s : State, ∃ p : Nat, ∃ b : BlkBuf, p < 48 ∧ s.dev.live = true ∧ s.dev.carries p = true ∧ b ∈ (s.dev.port p).unacked ∧
      b.at' + us (max 2 (s.dev.fld Reg.OPT_CFG.RESEND_US)) ≤ s.dev.clk) ∧
    (∃ s : State, ∃ p : Nat, ∃ l : List (List Byte), p < 48 ∧ s.dev.live = true ∧ s.dev.carries p = true ∧ l.length = 18 ∧ (∀ u ∈ l, u.length = 16) ∧
      (∀ u ∈ l, unitOk u = true) ∧
      (∀ n, n < 18 → popCount 16 (alignNext (Tab.get 0 (s.dev.port p).align n) false) < max 1 (s.dev.fld Reg.OPT_LANE_CFG.ALIGN_ERR))) ∧
    (∃ s : State, ∃ p : Nat, ∃ b : List Byte, ∃ d : Dev, ∃ x : Dev, ∃ m : SlotMove, p < 48 ∧ s.dev.live = true ∧ s.dev.carries p = true ∧
      ctlIs b 2 = true ∧ leAt b 9 1 < 16 ∧ x = s.dev.blkHeader p b ∧ d = (if leAt b 12 1 = 0 then
      (x.modPort p (fun y => { y with txFailed := setBit y.txFailed (leAt b 10 1) true })).laneReason p 1 (x.port p).txFailed
      (setBit (x.port p).txFailed (leAt b 10 1) true)
      else if leAt b 12 1 = 2 then x.modPort p (fun y => { y with txFailed := setBit y.txFailed (leAt b 11 1) false })
      else x) ∧ leAt b 11 1 < 18 ∧ (d.port p).txMoves.find? (fun m => m.slot = leAt b 9 1 && m.new = leAt b 11 1) = some m) ∧
    (∃ s : State, ∃ p : Nat, ∃ b : List Byte, ∃ d : Dev, ∃ x : Dev, p < 48 ∧ s.dev.live = true ∧ s.dev.carries p = true ∧ ctlIs b 2 = true ∧
      leAt b 9 1 < 16 ∧ x = s.dev.blkHeader p b ∧ d = (if leAt b 12 1 = 0 then
      (x.modPort p (fun y => { y with txFailed := setBit y.txFailed (leAt b 10 1) true })).laneReason p 1 (x.port p).txFailed
      (setBit (x.port p).txFailed (leAt b 10 1) true)
      else if leAt b 12 1 = 2 then x.modPort p (fun y => { y with txFailed := setBit y.txFailed (leAt b 11 1) false })
      else x) ∧ leAt b 11 1 < 18 ∧ (d.port p).txMoves.find? (fun m => m.slot = leAt b 9 1 && m.new = leAt b 11 1) = none) :=
  ⟨⟨tS (tPort 47 2 id), 47, by decide +kernel⟩,
   ⟨tS (tPort 47 2 id), 47, zeros 255 ++ [1], by decide +kernel⟩,
   ⟨tS (tPort 47 2 id), 47, tBlk [(0, 1)], by decide +kernel⟩,
   ⟨tS (tPort 0 2 id), 0, tBlk [(0, 0xC0), (1, 1), (8, 3)], by decide +kernel⟩,
   ⟨tS (tPort 0 4 (fun x => { x with replay := [⟨1, true, true, 0, [], 1, none, 0⟩], txSeq := 2 })), 0, (⟨1, true, true, 0, [], 1, none,
      0⟩ : BlkBuf), by decide +kernel⟩,
   ⟨tS (tPort 0 2 (fun x => { x with acount := 65535 })), 0, List.replicate 18 (tUnit 7), by decide +kernel⟩,
   ⟨tS (tPort 0 2 (fun x => { x with txMoves := [⟨15, 15, 17, 1, some 5⟩] })), 0, tCtl 2 [(9, 15), (10, 15), (11, 17), (12, 1)], _, _, (⟨15, 15, 17,
      1, some 5⟩ : SlotMove), by decide +kernel, by decide +kernel, by decide +kernel, by decide +kernel, by decide +kernel, rfl, rfl,
      by decide +kernel, by decide +kernel⟩,
   ⟨tS (tPort 0 2 (fun x => { x with txMoves := [⟨15, 15, 16, 1, some 5⟩] })), 0, tCtl 2 [(9, 15), (10, 15), (11, 17), (12, 1)], _, _,
      by decide +kernel, by decide +kernel, by decide +kernel, by decide +kernel, by decide +kernel, rfl, rfl, by decide +kernel, by decide +kernel⟩⟩

theorem witness_PortBlocks_2 :
    (∃ s : State, ∃ p : Nat, ∃ b : List Byte, p < 48 ∧ s.dev.live = true ∧ s.dev.carries p = true ∧ ctlIs b 3 = true) ∧
    (∃ s : State, ∃ p : Nat, ∃ i : Nat, ∃ m : SlotMove, p < 48 ∧ s.dev.live = true ∧ s.dev.carries p = true ∧ i < 16 ∧
      s.dev.moveReady p true i = some m) ∧
    (∃ s : State, ∃ p : Nat, ∃ i : Nat, ∃ m : SlotMove, p < 48 ∧ s.dev.live = true ∧ s.dev.carries p = true ∧ i < 16 ∧
      s.dev.moveReady p false i = some m) ∧
    (∃ s : State, ∃ p : Nat, ∃ b : List Byte, p < 48 ∧ s.dev.live = true ∧ s.dev.carries p = true ∧ ctlIs b 5 = true) ∧
    (∃ s : State, ∃ p : Nat, ∃ b : List Byte, p < 48 ∧ s.dev.live = true ∧ s.dev.carries p = true ∧ ctlIs b 6 = true ∧ leAt b 9 1 < 18) ∧
    (∃ s : State, ∃ p : Nat, ∃ b : List Byte, p < 48 ∧ s.dev.live = true ∧ s.dev.carries p = true ∧ ctlIs b 7 = true ∧
      (s.dev.blkHeader p b).carries p = true ∧ leAt b 9 1 % 8 ≠ 0) ∧
    (∃ s : State, ∃ p : Nat, ∃ b : List Byte, p < 48 ∧ s.dev.live = true ∧ s.dev.carries p = true ∧ ctlIs b 7 = true ∧
      (s.dev.blkHeader p b).carries p = true ∧ leAt b 9 1 % 8 = 0) ∧
    (∃ s : State, ∃ p : Nat, p < 48 ∧ s.dev.live = true ∧ s.dev.carries p = true ∧
      (s.dev.port p).ctl.any (fun c => c.at' + us 1 ≤ s.dev.clk) = true ∧
      (s.dev.port p).ctl.all (fun c => decide (s.dev.clk < c.at' + us 1) || decide (c.sends < 16)) = true) :=
  ⟨⟨tS (tPort 0 2 (fun x => { x with rxMoves := [⟨15, 15, 17, 1, none⟩], ctl := [⟨2, leBytes 1 15, 1, 0⟩] })), 0, tCtl 3 [(9, 15), (10, 7)],
      by decide +kernel⟩,
   ⟨tS (tPort 0 2 (fun x => { x with rxMoves := [⟨15, 15, 17, 1, some 7⟩], rxAcount := 7 })), 0, 15, (⟨15, 15, 17, 1, some 7⟩ : SlotMove),
      by decide +kernel⟩,
   ⟨tS (tPort 0 2 (fun x => { x with txMoves := [⟨0, 0, 17, 1, some 7⟩], acount := 8 })), 0, 0, (⟨0, 0, 17, 1, some 7⟩ : SlotMove),
      by decide +kernel⟩,
   ⟨tS (tPort 0 2 id), 0, tCtl 5 [(9, 0xF0), (10, 0xFF)], by decide +kernel⟩,
   ⟨tS (tPort 0 2 id), 0, tCtl 6 [(9, 17)], by decide +kernel⟩,
   ⟨tS (tPort 0 2 id), 0, tCtl 7 [(9, 6)], by decide +kernel⟩,
   ⟨tS (tPort 0 2 id), 0, tCtl 7 [], by decide +kernel⟩,
   ⟨tS (tPort 0 2 (fun x => { x with ctl := [⟨2, leBytes 1 15, 15, 0⟩] })), 0, by decide +kernel⟩⟩

theorem witness_PortBlocks_3 :
    (∃ s : State, ∃ p : Nat, ∃ c : CtlBuf, p < 48 ∧ s.dev.live = true ∧ s.dev.carries p = true ∧ c ∈ (s.dev.port p).ctl ∧ c.at' + us 1 ≤ s.dev.clk ∧
      16 ≤ c.sends) ∧
    (∃ s : State, ∃ p : Nat, ∃ l : List Nat, ∃ m : Nat, p < 48 ∧ s.dev.live = true ∧ s.dev.carries p = true ∧ l.length = 18 ∧
      l.all (· < 65536) = true ∧ m = minSigned (((List.range 18).filter (fun n => (s.dev.slotOf p n).isSome)).map (fun n => l.getD n 0))) :=
  ⟨⟨tS (tPort 0 2 (fun x => { x with ctl := [⟨2, leBytes 1 15, 16, 0⟩] })), 0, (⟨2, leBytes 1 15, 16, 0⟩ : CtlBuf), by decide +kernel⟩,
   ⟨tS (tPort 0 2 id), 0, (List.replicate 17 5 ++ [0xFFFF] : List Nat), _, by decide +kernel, by decide +kernel, by decide +kernel,
      by decide +kernel, by decide +kernel, rfl⟩⟩

theorem witness_PortStates_1 :
    (∃ s : State, ∃ p : Nat, ∃ d : Dev, p < 48 ∧ s.dev.live = true ∧ s.dev.lightStarts p = true ∧
      d = (s.dev.setFeedLost p false).modPort p (fun x => { x with lightLost := false }) ∧ d.portSt p = 5) ∧
    (∃ s : State, ∃ p : Nat, ∃ d : Dev, p < 48 ∧ s.dev.live = true ∧ s.dev.lightStarts p = true ∧
      d = (s.dev.setFeedLost p false).modPort p (fun x => { x with lightLost := false }) ∧ d.portSt p ≠ 5) ∧
    (∃ s : State, ∃ p : Nat, ∃ l : List Nat, p < 48 ∧ s.dev.live = true ∧ l.all (· < 18) = true ∧ (List.range 18).all l.contains = false ∧
      s.dev.carries p = true) ∧
    (∃ s : State, ∃ p : Nat, ∃ l : List Nat, p < 48 ∧ s.dev.live = true ∧ l.all (· < 18) = true ∧ (List.range 18).all l.contains = false ∧
      s.dev.carries p = true ∧ (s.dev.setFeedLost p true).carries p = true) ∧
    (∃ s : State, ∃ p : Nat, ∃ l : List Nat, p < 48 ∧ s.dev.live = true ∧ l.all (· < 18) = true ∧ (List.range 18).all l.contains = false ∧
      (s.dev.setFeedLost p true).portSt p = 1) ∧
    (∃ s : State, ∃ p : Nat, p < 48 ∧ s.dev.live = true ∧ s.dev.portSt p = 1) ∧
    (∃ s : State, ∃ p : Nat, ∃ r : TrainResult, p < 48 ∧ s.dev.live = true ∧ trainOk r = true ∧ s.dev.portSt p = 1 ∧ (s.dev.port p).ident = true) ∧
    (∃ s : State, ∃ p : Nat, ∃ b : Bool, ∃ d : Dev, p < 48 ∧ s.dev.live = true ∧ s.dev.portSt p = 1 ∧ d = s.dev.trainFails p (if b then 1 else 2) ∧
      d.st = .running) :=
  ⟨⟨tS ((tPort 47 5 (fun x => { x with lightLost := true })).setFld Reg.OPT_CFG.CAL_PERIOD_S 1), 47, _, by decide +kernel, by decide +kernel,
      by decide +kernel, rfl, by decide +kernel⟩,
   ⟨tS ((tPort 47 0 id).setFld Reg.OPT_CFG.CAL_PERIOD_S 1), 47, _, by decide +kernel, by decide +kernel, by decide +kernel, rfl, by decide +kernel⟩,
   ⟨tS (tPort 47 2 id), 47, [3, 17], by decide +kernel⟩,
   ⟨tS (tPort 47 2 id), 47, ([] : List Nat), by decide +kernel⟩,
   ⟨tS (tPort 47 1 id), 47, ([] : List Nat), by decide +kernel⟩,
   ⟨tS (tPort 47 1 id), 47, by decide +kernel⟩,
   ⟨tS (tPort 47 1 (fun x => { x with ident := true })), 47, (⟨List.range 12, List.range 16⟩ : TrainResult), by decide +kernel⟩,
   ⟨tS ({ tPort 47 1 id with st := .running } : Dev), 47, true, _, by decide +kernel, by decide +kernel, by decide +kernel, rfl, by decide +kernel⟩⟩

theorem witness_PortStates_2 :
    (∃ s : State, ∃ p : Nat, ∃ b : Bool, ∃ d : Dev, p < 48 ∧ s.dev.live = true ∧ s.dev.portSt p = 1 ∧ d = s.dev.trainFails p (if b then 1 else 2) ∧
      d.st ≠ .running) ∧
    (∃ s : State, ∃ p : Nat, p < 48 ∧ s.dev.live = true ∧ s.dev.engineUp p = true ∧ (s.dev.port p).since + ms 10 ≤ s.dev.clk ∧ ((s.dev.portSt p = 0 ∧
      s.dev.fld (Reg.OPT_PORT_STATUS.CAUSE p) ∈ [1, 2, 5]) ∨
      (s.dev.portSt p = 5 ∧ s.dev.fld (Reg.OPT_PORT_STATUS.ENG_LINK p) = 0 ∧
      s.dev.fld (Reg.OPT_PORT_STATUS.TRIES p) < max 1 (s.dev.fld Reg.OPT_CFG.TRAIN_TRIES)))) ∧
    (∃ s : State, ∃ p : Nat, p < 48 ∧ s.dev.live = true ∧ s.dev.portSt p = 0 ∧ (s.dev.port p).miswire = true ∧
      (s.dev.port p).since + sec 1 ≤ s.dev.clk) ∧
    (∃ s : State, ∃ p : Nat, ∃ b : List Byte, ∃ d : Dev, p < 48 ∧ s.dev.live = true ∧ ctlIs b 1 = true ∧ s.dev.portSt p = 1 ∧ identOk p b = true ∧
      d = ((s.dev.setFld (Reg.OPT_PEER.FLAT_ID p) (leAt b 9 2)).setFld (Reg.OPT_PEER.PORT p) (leAt b 11 1 % 64)).setFld
      (Reg.OPT_PEER.SWITCH p) (leAt b 12 1 % 2)) ∧
    (∃ s : State, ∃ p : Nat, ∃ b : List Byte, p < 48 ∧ s.dev.live = true ∧ ctlIs b 1 = true ∧ s.dev.portSt p = 1 ∧ identOk p b = false) ∧
    (∃ s : State, ∃ p : Nat, ∃ d : Dev, ∃ i : Nat, ∃ n : Nat, p < 48 ∧ s.dev.live = true ∧ s.dev.laneCalFree p = true ∧
      d = s.dev.modPort p (fun x => { x with calRx := ((s.dev.port p).calRx + 1) % 18 }) ∧ d.slotOf p (s.dev.port p).calRx = some i ∧
      (d.rxSpares p).head? = some n ∧ (d.port p).rxMoves.length < 2 ∧ (d.port p).rxMoves.any (fun m => m.slot = i) = false) ∧
    (∃ s : State, ∃ p : Nat, ∃ d : Dev, ∃ i : Nat, p < 48 ∧ s.dev.live = true ∧ s.dev.laneCalFree p = true ∧
      d = s.dev.modPort p (fun x => { x with calRx := ((s.dev.port p).calRx + 1) % 18 }) ∧ d.slotOf p (s.dev.port p).calRx = some i ∧
      d.rxSpares p = []) ∧
    (∃ s : State, ∃ p : Nat, ∃ d : Dev, p < 48 ∧ s.dev.live = true ∧ s.dev.laneCalFree p = true ∧
      d = s.dev.modPort p (fun x => { x with calRx := ((s.dev.port p).calRx + 1) % 18 }) ∧ d.slotOf p (s.dev.port p).calRx = none ∧
      (d.port p).rxMoves.any (fun m => m.new = (s.dev.port p).calRx) = false ∧ d.laneSwept p (s.dev.port p).calRx = false) :=
  ⟨⟨tS (tPort 47 1 id), 47, false, _, by decide +kernel, by decide +kernel, by decide +kernel, rfl, by decide +kernel⟩,
   ⟨tS (((tPort 47 0 id).setFld (Reg.OPT_PORT_STATUS.CAUSE 47) 2).modStp (fun t => { t with time := ms 10 })), 47, by decide +kernel⟩,
   ⟨tS ((tPort 47 0 (fun x => { x with miswire := true })).modStp (fun t => { t with time := sec 1 })), 47, by decide +kernel⟩,
   ⟨tS (tPort 0 1 id), 0, tCtl 1 [(9, 9), (11, 6)], _, by decide +kernel, by decide +kernel, by decide +kernel, by decide +kernel, by decide +kernel,
      rfl⟩,
   ⟨tS (tPort 0 1 id), 0, tCtl 1 [(9, 9), (11, 7)], by decide +kernel⟩,
   ⟨tS (tPort 0 2 (fun x => { x with everUp := true })), 0, _, 0, 16, by decide +kernel, by decide +kernel, by decide +kernel, rfl,
      by decide +kernel, by decide +kernel, by decide +kernel, by decide +kernel⟩,
   ⟨tS ((tPort 0 2 id).setFld (Reg.OPT_LANE_STATE.RX_FAILED 0) 0x30000), 0, _, 0, by decide +kernel, by decide +kernel, by decide +kernel, rfl,
      by decide +kernel, by decide +kernel⟩,
   ⟨tS (tPort 0 2 (fun x => { x with calRx := 17 })), 0, _, by decide +kernel, by decide +kernel, by decide +kernel, rfl, by decide +kernel,
      by decide +kernel, by decide +kernel⟩⟩

theorem witness_PortStates_3 :
    (∃ s : State, ∃ p : Nat, ∃ d : Dev, ∃ n : Nat, p < 48 ∧ s.dev.live = true ∧ s.dev.carries p = true ∧
      n = s.dev.fld (Reg.OPT_LANE_STATE.RX_CAL p) ∧ n ≠ 0x1F ∧ d = s.dev.setFld (Reg.OPT_LANE_STATE.RX_CAL p) 0x1F) ∧
    (∃ s : State, ∃ p : Nat, ∃ l : List Nat, p < 48 ∧ s.dev.live = true ∧ l.all (· < 18) = true ∧ s.dev.carries p = true) ∧
    (∃ s : State, ∃ p : Nat, ∃ n : Nat, p < 48 ∧ s.dev.live = true ∧ n < 18 ∧ s.dev.carries p = true ∧ bit (s.dev.port p).txRingLost n = true) ∧
    (∃ s : State, ∃ p : Nat, ∃ n : Nat, ∃ d : Dev, p < 48 ∧ s.dev.live = true ∧ n < 18 ∧ s.dev.carries p = true ∧
      bit (s.dev.port p).ringLost n = true ∧ d = s.dev.modPort p (fun x => { x with ringLost := setBit x.ringLost n false }) ∧
      d.rxFailed p n = true) ∧
    (∃ s : State, ∃ p : Nat, ∃ n : Nat, ∃ d : Dev, p < 48 ∧ s.dev.live = true ∧ n < 18 ∧ s.dev.carries p = true ∧
      bit (s.dev.port p).ringLost n = true ∧ d = s.dev.modPort p (fun x => { x with ringLost := setBit x.ringLost n false }) ∧
      d.rxFailed p n = false) ∧
    (∃ s : State, ∃ p : Nat, p < 48 ∧ s.dev.live = true ∧ s.dev.carries p = true ∧ (s.dev.port p).calDue = false ∧
      ((s.dev.fld Reg.OPT_CFG.PORT_CAL_H ≠ 0 ∧ (s.dev.port p).trained + sec (3600 * s.dev.fld Reg.OPT_CFG.PORT_CAL_H) ≤ s.dev.clk) ∨
      s.dev.fld (Reg.OPT_CAL_REC.POWER_BAND p) + 1 < s.dev.fld Reg.TGT_STATUS.POWER_BAND ∨
      s.dev.fld Reg.TGT_STATUS.POWER_BAND + 1 < s.dev.fld (Reg.OPT_CAL_REC.POWER_BAND p))) ∧
    (∃ s : State, ∃ p : Nat, ∃ m : Bool, p < 48 ∧ s.dev.live = true ∧ s.dev.carries p = true ∧ (s.dev.port p).withdrawn = true ∧
      (s.dev.port p).unacked = [] ∧ m = ((s.dev.port p).moveDue && s.dev.onBackup p != bit s.dev.lim.toBackup (p % 8))) ∧
    (∃ s : State, ∃ p : Nat, ∃ r : Nat, ∃ j : Desc, p < 48 ∧ s.dev.live = true ∧ r < 16 ∧ Starts s r j ∧ j.opc = 0x90 ∧ j.num 24 1 = 0 ∧
      j.reservedByte [(24, 0, 8), (26, 0, 192)] = none ∧ j.mask < 2 ^ 48) :=
  ⟨⟨tS ((List.range 5).foldl (fun d i => d.setFld (Reg.OPT_MAP.RX_SLOT_LANE 0 i) 31) ((tPort 0 3 id).setFld (Reg.OPT_LANE_STATE.RX_CAL 0) 17)), 0, _,
      17, by decide +kernel, by decide +kernel, by decide +kernel, by decide +kernel, by decide +kernel, rfl⟩,
   ⟨tS (tPort 0 3 id), 0, [17, 3], by decide +kernel⟩,
   ⟨tS (tPort 0 3 (fun x => { x with txRingLost := 0x20000 })), 0, 17, by decide +kernel⟩,
   ⟨tS ((tPort 0 3 (fun x => { x with ringLost := 0x20000 })).setFld (Reg.OPT_LANE_STATE.RX_FAILED 0) 0x20000), 0, 17, _, by decide +kernel,
      by decide +kernel, by decide +kernel, by decide +kernel, by decide +kernel, rfl, by decide +kernel⟩,
   ⟨tS (tPort 0 3 (fun x => { x with ringLost := 0x20000 })), 0, 17, _, by decide +kernel, by decide +kernel, by decide +kernel, by decide +kernel,
      by decide +kernel, rfl, by decide +kernel⟩,
   ⟨tS ((tPort 0 2 id).setFld (Reg.OPT_CAL_REC.POWER_BAND 0) 2), 0, by decide +kernel⟩,
   ⟨tS (tPort 0 2 (fun x => { x with withdrawn := true })), 0, false, by decide +kernel⟩,
   ⟨tHead (tPort 0 2 id) (tJ [(0, 0x90), (26, 1)]), 0, 0, tJ [(0, 0x90), (26, 1)], by decide +kernel⟩⟩

theorem witness_PortStates_4 :
    (∃ s : State, ∃ p : Nat, ∃ r : Nat, ∃ j : Desc, p < 48 ∧ s.dev.live = true ∧ r < 16 ∧ Starts s r j ∧ j.opc = 0xE0 ∧ j.num 24 1 = 1 ∧
      s.dev.marginCheck j 48 (288 * popCount 48 j.mask) [] = none) ∧
    (∃ s : State, ∃ p : Nat, ∃ n : Nat, ∃ j : SweepJob, p < 48 ∧ s.dev.live = true ∧ n < 18 ∧ s.dev.up = true ∧
      s.dev.opt.marginJobs.find? (fun j => j.busy.contains (p, n)) = some j ∧ s.dev.slotOf p n = none) ∧
    (∃ s : State, ∃ p : Nat, ∃ q : Packet, ∃ w : Recovery, p < 48 ∧ s.dev.live = true ∧ s.dev.canTake q = true ∧ q.cls = 3 ∧ q.op = 1 ∧
      (s.dev.take q).noticePort q = some p ∧ ((s.dev.take q).port p).recovery = some w) ∧
    (∃ s : State, ∃ p : Nat, p < 48 ∧ s.dev.live = true ∧ s.dev.recoveryOver p = true) :=
  ⟨⟨tHead (tReg (tPort 0 2 id) 0 0 4096 false) (tJ [(0, 0xE0), (24, 1), (26, 1), (58, 288)]), 0, 0, tJ [(0, 0xE0), (24, 1), (26, 1), (58, 288)],
      by decide +kernel⟩,
   ⟨tS ({ tReg (tPort 0 2 id) 0 0 4096 false with opt := { (tPort 0 2 id).opt with marginJobs := [⟨(0, 0), [(0, 1)], [(0, 17)], []⟩] }, hq := { (tLink .ready).hq with rings := [(0, { Ring.init with started := [tJ [(0, 0xE0), (24, 1), (26, 1), (58, 288)]] })] } } : Dev), 0, 17, (⟨(0, 0), [(0, 1)], [(0, 17)], []⟩ : SweepJob), by decide +kernel⟩,
   ⟨tS ({ (((tPort 3 0 (fun x => { x with recovery := some ⟨0, 9, [⟨1, true, true, 0, leBytes 16 0, 1, none, 0⟩]⟩ })).setFld (Reg.OPT_PEER.FLAT_ID 3) 9).setFld (Reg.OPT_PEER.VALID 3) 1).setFld (Reg.OPT_PEER.PORT 3) 3 with fab := { Fab.init with inbox := [tP 3 1 9 0 0 [3, 0, 0]] } } : Dev), 3, tP 3 1 9 0 0 [3, 0, 0], (⟨0, 9, [⟨1, true, true, 0, leBytes 16 0, 1, none, 0⟩]⟩ : Recovery), by decide +kernel⟩,
   ⟨tS ((tPort 3 0 (fun x => { x with recovery := some ⟨0, 9, []⟩ })).modStp (fun t => { t with time := ms 10 })), 3, by decide +kernel⟩⟩

theorem witness_Cartridges_1 :
    (∃ s : State, ∃ i : Nat, i < 10 ∧ s.dev.present i = false) ∧
    (∃ s : State, ∃ i : Nat, ∃ a : Option CartCheck, i < 10 ∧ a.all (fun e => e.1.length = 72 && e.2.1.length = 3840 && e.2.2.length = 384) = true ∧
      s.dev.live = true ∧ s.dev.present i = true ∧ s.dev.slotSt i = 0 ∧ Tab.get 0 s.dev.pins.lmAt i + ms 500 ≤ s.dev.clk) ∧
    (∃ s : State, ∃ i : Nat, ∃ d : Dev, i < 10 ∧ s.dev.present i = true ∧
      d = { s.dev with pins := { s.dev.pins with lmPresent := setBit s.dev.pins.lmPresent i false } } ∧ s.dev.st = .halted) ∧
    (∃ s : State, ∃ i : Nat, ∃ d : Dev, i < 10 ∧ s.dev.present i = true ∧
      d = { s.dev with pins := { s.dev.pins with lmPresent := setBit s.dev.pins.lmPresent i false } } ∧ s.dev.st ≠ .halted) ∧
    (∃ s : State, ∃ i : Nat, ∃ d : Dev, i < 10 ∧ s.dev.present i = true ∧
      d = { s.dev with pins := { s.dev.pins with lmPresent := setBit s.dev.pins.lmPresent i false } } ∧ s.dev.st ≠ .halted ∧ s.dev.slotSt i ≠ 0 ∧
      s.dev.slotLit i = false ∧ (i < 8 ∨ s.dev.spareGroup i = none)) ∧
    (∃ s : State, ∃ i : Nat, i < 10 ∧ s.dev.live = true ∧ s.dev.slotSt i ≠ 0 ∧ s.dev.slotSt i ≠ 6 ∧ (s.dev.slot i).silent + 1 < 10) ∧
    (∃ s : State, ∃ i : Nat, ∃ r : CartReading, i < 10 ∧ r.power.length = 18 ∧ s.dev.live = true ∧ s.dev.slotSt i ≠ 0 ∧ s.dev.slotSt i ≠ 6) ∧
    (∃ s : State, ∃ i : Nat, ∃ r : CartReading, i < 10 ∧ r.power.length = 18 ∧ s.dev.live = true ∧ s.dev.slotSt i ≠ 0 ∧ s.dev.slotSt i ≠ 6 ∧
      s.dev.slotSt i = 1 ∧ bit s.dev.pins.lmEn i = true ∧ (s.dev.slot i).ready r = true ∧ 8 ≤ i ∧ s.dev.spareGroup i = none) :=
  ⟨⟨tS (tLink .ready), 9, by decide +kernel⟩,
   ⟨tS (tLm 0 0 id), 0, (none : Option CartCheck), by decide +kernel⟩,
   ⟨tS ({ tLm 0 1 id with st := .halted } : Dev), 0, _, by decide +kernel, by decide +kernel, rfl, by decide +kernel⟩,
   ⟨tS ({ tLm 0 0 id with st := .reset } : Dev), 0, _, by decide +kernel, by decide +kernel, rfl, by decide +kernel⟩,
   ⟨tS (tLm 9 1 id), 9, _, by decide +kernel, by decide +kernel, rfl, by decide +kernel, by decide +kernel, by decide +kernel, by decide +kernel⟩,
   ⟨tS (tLm 0 1 (fun x => { x with silent := 8 })), 0, by decide +kernel⟩,
   ⟨tS (tLm 0 1 (fun x => { x with card := tCard })), 0, tReading, by decide +kernel⟩,
   ⟨tS (tLm 8 1 (fun x => { x with card := tCard })), 8, tReading, by decide +kernel⟩⟩

theorem witness_Cartridges_2 :
    (∃ s : State, ∃ i : Nat, i < 10 ∧ s.dev.live = true ∧ bit s.dev.pins.lmEn i = true ∧ s.dev.slotSt i ≠ 0 ∧ sec 3600 ≤ s.dev.emission i ∧
      (s.dev.slot i).card.length = 72) ∧
    (∃ s : State, ∃ i : Nat, i < 10 ∧ s.dev.live = true ∧ s.dev.slotSt i = 1 ∧ (s.dev.slot i).since + sec 120 ≤ s.dev.clk) ∧
    (∃ s : State, ∃ i : Nat, i < 10 ∧ s.dev.live = true ∧ s.dev.slotSt i = 1 ∧ (s.dev.slot i).since + sec 120 ≤ s.dev.clk ∧
      (i < 8 ∨ s.dev.spareGroup i = none)) ∧
    (∃ s : State, ∃ i : Nat, ∃ k : Nat, i < 10 ∧ 8 ≤ i ∧ s.dev.live = true ∧ s.dev.spareGroup i = some k ∧
      Tab.get 0 s.dev.lim.selAt (i - 8) + ms 10 ≤ s.dev.clk ∧ s.dev.slotSt i = 3) ∧
    (∃ s : State, ∃ i : Nat, ∃ g : Nat, ∃ k : Nat, i < 10 ∧ 8 ≤ i ∧ s.dev.live = true ∧ s.dev.spareGroup i = some k ∧
      Tab.get 0 s.dev.lim.selAt (i - 8) + ms 10 ≤ s.dev.clk ∧ (s.dev.slotSt i = 2 ∨ s.dev.slotSt i = 4) ∧
      Tab.get false s.dev.lim.confirmed (i - 8) = false ∧ g % 64 = 63) ∧
    (∃ s : State, ∃ i : Nat, ∃ k : Nat, i < 10 ∧ 8 ≤ i ∧ s.dev.live = true ∧ s.dev.spareGroup i = some k ∧
      Tab.get false s.dev.lim.confirmed (i - 8) = false ∧ (s.dev.slotSt i = 2 ∨ s.dev.slotSt i = 4) ∧
      Tab.get 0 s.dev.lim.selAt (i - 8) + ms 20 ≤ s.dev.clk) ∧
    (∃ s : State, ∃ i : Nat, ∃ r : Nat, ∃ j : Desc, ∃ k : Nat, ∃ d : Dev, i < 10 ∧ r < 16 ∧ Starts s r j ∧ j.opc = 0xA1 ∧
      j.reservedByte [(24, 0, 16)] = none ∧ k = j.num 24 1 ∧ k < 8 ∧ (j.num 25 1 = 0xFF ∨ j.num 25 1 = spareOf k) ∧
      d = (s.dev.popHead r).switchStart k ∧ d.spareGroup (spareOf k) ≠ some k) ∧
    (∃ s : State, ∃ i : Nat, ∃ r : Nat, ∃ j : Desc, ∃ k : Nat, ∃ d : Dev, i < 10 ∧ r < 16 ∧ Starts s r j ∧ j.opc = 0xA1 ∧
      j.reservedByte [(24, 0, 16)] = none ∧ k = j.num 24 1 ∧ k < 8 ∧ (j.num 25 1 = 0xFF ∨ j.num 25 1 = spareOf k) ∧
      d = (s.dev.popHead r).switchStart k ∧ d.spareGroup (spareOf k) = some k ∧ d.backupLit k = true ∧ (∀ p ∈ groupPorts k, d.onBackup p = true ∧
      (d.port p).moving = false)) :=
  ⟨⟨tS ({ tLm 9 2 (fun x => { x with card := tCard }) with clock := sec 3601 } : Dev), 9, by decide +kernel⟩,
   ⟨tS (tLm 7 1 (fun x => { x with since := 5 })|> fun d => { d with clock := sec 120 + 5 }), 7, by decide +kernel⟩,
   ⟨tS ({ tLm 8 1 id with clock := sec 120 } : Dev), 8, by decide +kernel⟩,
   ⟨tS (tSpare 9 3 7), 9, 7, by decide +kernel⟩,
   ⟨tS (tSpare 9 2 7), 9, 63, 7, by decide +kernel⟩,
   ⟨tS (tSpare 8 2 0), 8, 0, by decide +kernel⟩,
   ⟨tHead (tLink .ready) (tJ [(0, 0xA1), (25, 0xFF)]), 8, 0, tJ [(0, 0xA1), (25, 0xFF)], 0, _, by decide +kernel, by decide +kernel,
      by decide +kernel, by decide +kernel, by decide +kernel, by decide +kernel, by decide +kernel, by decide +kernel, rfl, by decide +kernel⟩,
   ⟨tHead ((groupPorts 0).foldl (fun d p => d.setFld (Reg.OPT_PORT_STATUS.FEED p) 1) (tSpare 8 2 0) |> fun d =>
      { d with lim := { d.lim with confirmed := [(0, true)] } }) (tJ [(0, 0xA1), (25, 0xFF)]), 8, 0, tJ [(0, 0xA1), (25, 0xFF)], 0, _,
      by decide +kernel, by decide +kernel, by decide +kernel, by decide +kernel, by decide +kernel, by decide +kernel, by decide +kernel,
      by decide +kernel, rfl, by decide +kernel, by decide +kernel, by decide +kernel⟩⟩

theorem witness_Cartridges_3 :
    ∃ s : State, ∃ i : Nat, ∃ r : Nat, ∃ j : Desc, ∃ k : Nat, ∃ d : Dev, i < 10 ∧ r < 16 ∧ Starts s r j ∧ j.opc = 0xA1 ∧
      j.reservedByte [(24, 0, 16)] = none ∧ k = j.num 24 1 ∧ k < 8 ∧ (j.num 25 1 = 0xFF ∨ j.num 25 1 = spareOf k) ∧
      d = (s.dev.popHead r).switchStart k ∧ d.spareGroup (spareOf k) = some k ∧ (d.backupLit k = false ∨ ∃ p ∈ groupPorts k, d.onBackup p = false) :=
  ⟨tHead (tSpare 8 2 0) (tJ [(0, 0xA1), (25, 0xFF)]), 8, 0, tJ [(0, 0xA1), (25, 0xFF)], 0, _, by decide +kernel, by decide +kernel,
      by decide +kernel, by decide +kernel, by decide +kernel, by decide +kernel, by decide +kernel, by decide +kernel, rfl, by decide +kernel,
      by decide +kernel⟩

theorem witness_HandoverProtocol_1 :
    (∃ s : State, ∃ r : Nat, ∃ j : Desc, r < 16 ∧ Starts s r j ∧ s.dev.migs = [] ∧ j.opc = 0xB0 ∧ j.reservedByte [(24, 0, 16)] = none ∧
      s.dev.st = .quiesced ∧ s.dev.flt.exported = false) ∧
    (∃ s : State, ∃ r : Nat, ∃ j : Desc, r < 16 ∧ Starts s r j ∧ s.dev.migs = [] ∧ j.opc = 0xB1 ∧ j.reservedByte [(24, 0, 16), (26, 0, 16)] = none ∧
      s.dev.st = .ready) ∧
    (∃ s : State, ∃ h : Handover, s.dev.up = true ∧ s.dev.flt.handover = some h ∧ h.isExport = true ∧ h.phase = .manifest ∧
      h.asked + ms 1 ≤ s.dev.clk) ∧
    (∃ s : State, ∃ h : Handover, s.dev.up = true ∧ s.dev.flt.handover = some h ∧ h.phase = .manifest ∧ h.start + s.dev.hoWait ≤ s.dev.clk) ∧
    (∃ s : State, ∃ h : Handover, s.dev.up = true ∧ s.dev.flt.handover = some h ∧ (h.phase = .copy ∨ (h.phase = .takeover ∧ h.isExport = true)) ∧
      h.progress + sec 1 ≤ s.dev.clk) ∧
    (∃ s : State, ∃ p : Packet, ∃ h : Handover, (s.dev.take p).flt.handover = some h ∧ p.src = h.peer ∧ h.isExport = true ∧
      s.dev.hoTakes p 0x51 = true ∧ s.dev.unitsWait = false ∧ h.phase = .manifest ∧ leAt p.payload 0 1 = 0) ∧
    (∃ s : State, ∃ p : Packet, ∃ h : Handover, (s.dev.take p).flt.handover = some h ∧ p.src = h.peer ∧ h.isExport = true ∧
      s.dev.hoTakes p 0x51 = true ∧ s.dev.unitsWait = false ∧ h.phase = .manifest ∧ leAt p.payload 0 1 = 1) ∧
    (∃ s : State, ∃ p : Packet, ∃ h : Handover, ∃ d : Dev, (s.dev.take p).flt.handover = some h ∧ p.src = h.peer ∧ h.isExport = true ∧
      s.dev.hoTakes p 0x54 = true ∧ s.dev.unitsWait = false ∧ h.phase = .copy ∧ leAt p.payload 4 4 = 0xFFFFFFFF ∧
      d = ((s.dev.take p).modHo (fun x => { x with
      verified := max h.verified (leAt p.payload 0 4)
      progress := (s.dev.take p).clk
      buddy := x.buddy.filter (fun e => max h.verified (leAt p.payload 0 4) ≤ e.1) })).setFld
      Reg.FLT_HANDOVER.UNITS (max h.verified (leAt p.payload 0 4)) ∧ max h.verified (leAt p.payload 0 4) < h.units) :=
  ⟨⟨tHead (tLink .quiesced) (tJ [(0, 0xB0), (24, 9)]), 0, tJ [(0, 0xB0), (24, 9)], by decide +kernel⟩,
   ⟨tHead (tLink .ready) (tJ [(0, 0xB1), (24, 9), (26, 7)]), 0, tJ [(0, 0xB1), (24, 9), (26, 7)], by decide +kernel⟩,
   ⟨tS (tHo .quiesced true .manifest 3 id), (⟨true, 9, 7, (0, 0), .manifest, 0, 0, 0, 1, 3, 0, 0, [], [], [], 0, []⟩ : Handover), by decide +kernel⟩,
   ⟨tS ((tHo .ready false .manifest 0 id).modStp (fun t => { t with time := sec 3600 })), (⟨false, 9, 7, (0, 0), .manifest, 0, 0, 0, 1, 0, 0, 0, [],
      [], [], 0, []⟩ : Handover), by decide +kernel⟩,
   ⟨tS ((tHo .quiesced true .copy 3 id).modStp (fun t => { t with time := sec 1 })), (⟨true, 9, 7, (0, 0), .copy, 0, 0, 0, 1, 3, 0, 0, [], [], [], 0,
      []⟩ : Handover), by decide +kernel⟩,
   ⟨tS (tIn (tHo .quiesced true .manifest 3 id) (tP 2 0x51 9 0 0 [0, 0, 0, 0])), tP 2 0x51 9 0 0 [0, 0, 0, 0], (⟨true, 9, 7, (0, 0), .manifest, 0, 0,
      0, 1, 3, 0, 0, [], [], [], 0, []⟩ : Handover), by decide +kernel⟩,
   ⟨tS (tIn (tHo .quiesced true .manifest 3 id) (tP 2 0x51 9 0 0 [1, 0, 0, 0])), tP 2 0x51 9 0 0 [1, 0, 0, 0], (⟨true, 9, 7, (0, 0), .manifest, 0, 0,
      0, 1, 3, 0, 0, [], [], [], 0, []⟩ : Handover), by decide +kernel⟩,
   ⟨tS (tIn (tHo .quiesced true .copy 3 id) (tP 2 0x54 9 0 0 [2, 0, 0, 0, 0xFF, 0xFF, 0xFF, 0xFF])), tP 2 0x54 9 0 0 [2, 0, 0, 0, 0xFF, 0xFF, 0xFF,
      0xFF], (⟨true, 9, 7, (0, 0), .copy, 0, 0, 0, 1, 3, 0, 0, [], [], [], 0, []⟩ : Handover), _, by decide +kernel, by decide +kernel,
      by decide +kernel, by decide +kernel, by decide +kernel, by decide +kernel, by decide +kernel, rfl, by decide +kernel⟩⟩

theorem witness_HandoverProtocol_2 :
    (∃ s : State, ∃ p : Packet, ∃ h : Handover, ∃ d : Dev, (s.dev.take p).flt.handover = some h ∧ p.src = h.peer ∧ h.isExport = true ∧
      s.dev.hoTakes p 0x54 = true ∧ s.dev.unitsWait = false ∧ h.phase = .copy ∧ leAt p.payload 4 4 = 0xFFFFFFFF ∧
      d = ((s.dev.take p).modHo (fun x => { x with
      verified := max h.verified (leAt p.payload 0 4)
      progress := (s.dev.take p).clk
      buddy := x.buddy.filter (fun e => max h.verified (leAt p.payload 0 4) ≤ e.1) })).setFld
      Reg.FLT_HANDOVER.UNITS (max h.verified (leAt p.payload 0 4)) ∧ h.units ≤ max h.verified (leAt p.payload 0 4)) ∧
    (∃ s : State, ∃ p : Packet, ∃ h : Handover, (s.dev.take p).flt.handover = some h ∧ p.src = h.peer ∧ h.isExport = true ∧
      s.dev.hoTakes p 0x55 = true ∧ h.phase = .takeover) ∧
    (∃ s : State, ∃ p : Packet, ∃ h : Handover, (s.dev.take p).flt.handover = some h ∧ h.isExport = false ∧ s.dev.hoTakes p 0x50 = true ∧
      leAt p.payload 0 2 = h.peer ∧ h.phase = .manifest ∧ (s.dev.take p).manifestCode p.payload = 0) ∧
    (∃ s : State, ∃ p : Packet, ∃ h : Handover, (s.dev.take p).flt.handover = some h ∧ h.isExport = false ∧ s.dev.hoTakes p 0x50 = true ∧
      leAt p.payload 0 2 = h.peer ∧ h.phase = .manifest ∧ (s.dev.take p).manifestCode p.payload = 1) ∧
    (∃ s : State, ∃ p : Packet, ∃ h : Handover, (s.dev.take p).flt.handover = some h ∧ h.isExport = false ∧ s.dev.hoTakes p 0x52 = true ∧
      p.src = h.peer ∧ h.phase = .copy ∧ memRange p.da p.payload.length = true) ∧
    (∃ s : State, ∃ p : Packet, ∃ h : Handover, (s.dev.take p).flt.handover = some h ∧ h.isExport = false ∧ s.dev.hoTakes p 0x53 = true ∧
      p.src = h.peer ∧ h.phase = .copy) ∧
    (∃ s : State, ∃ p : Packet, s.dev.up = true ∧ s.dev.takes p 3 2 = true ∧ leAt p.payload 0 2 = (s.dev.take p).selfId) ∧
    (∃ s : State, ∃ p : Packet, s.dev.up = true ∧ s.dev.takes p 3 2 = true ∧ leAt p.payload 0 2 ≠ (s.dev.take p).selfId) :=
  ⟨⟨tS (tIn (tHo .quiesced true .copy 3 id) (tP 2 0x54 9 0 0 [3, 0, 0, 0, 0xFF, 0xFF, 0xFF, 0xFF])), tP 2 0x54 9 0 0 [3, 0, 0, 0, 0xFF, 0xFF, 0xFF,
      0xFF], (⟨true, 9, 7, (0, 0), .copy, 0, 0, 0, 1, 3, 0, 0, [], [], [], 0, []⟩ : Handover), _, by decide +kernel, by decide +kernel,
      by decide +kernel, by decide +kernel, by decide +kernel, by decide +kernel, by decide +kernel, rfl, by decide +kernel⟩,
   ⟨tS (tIn (tHo .quiesced true .takeover 3 id) (tP 2 0x55 9 0 0 [])), tP 2 0x55 9 0 0 [], (⟨true, 9, 7, (0, 0), .takeover, 0, 0, 0, 1, 3, 0, 0, [],
      [], [], 0, []⟩ : Handover), by decide +kernel⟩,
   ⟨tS (tIn (tHo .ready false .manifest 0 id) (tP 2 0x50 9 0 0 (leBytes 4 9 ++ leBytes 4 (crc32c (leBytes 8 ((tLink .ready).fld Reg.ARR_SR_KEY.KEY)))
      ++ leBytes 24 (2 ^ 191) ++ leBytes 8 4096))),
      tP 2 0x50 9 0 0 (leBytes 4 9 ++ leBytes 4 (crc32c (leBytes 8 ((tLink .ready).fld Reg.ARR_SR_KEY.KEY))) ++ leBytes 24 (2 ^ 191) ++ leBytes 8
      4096), (⟨false, 9, 7, (0, 0), .manifest, 0, 0, 0, 1, 0, 0, 0, [], [], [], 0, []⟩ : Handover), by decide +kernel⟩,
   ⟨tS ((tIn (tHo .ready false .manifest 0 id) (tP 2 0x50 9 0 0 (leBytes 8 9 ++ leBytes 24 (2 ^ 191) ++ leBytes 8 4096))).setFld (Reg.TWR_CORE.STATE
      191) 3), tP 2 0x50 9 0 0 (leBytes 8 9 ++ leBytes 24 (2 ^ 191) ++ leBytes 8 4096), (⟨false, 9, 7, (0, 0), .manifest, 0, 0, 0, 1, 0, 0, 0, [],
      [], [], 0, []⟩ : Handover), by decide +kernel⟩,
   ⟨tS (tIn (tHo .ready false .copy 3 id) (tP 2 0x52 9 (vaultBase 191) 0 [1, 2, 3])), tP 2 0x52 9 (vaultBase 191) 0 [1, 2, 3], (⟨false, 9, 7, (0, 0),
      .copy, 0, 0, 0, 1, 3, 0, 0, [], [], [], 0, []⟩ : Handover), by decide +kernel⟩,
   ⟨tS (tIn (tHo .ready false .copy 3 id) (tP 2 0x53 9 0 0 (leBytes 12 1))), tP 2 0x53 9 0 0 (leBytes 12 1), (⟨false, 9, 7, (0, 0), .copy, 0, 0, 0,
      1, 3, 0, 0, [], [], [], 0, []⟩ : Handover), by decide +kernel⟩,
   ⟨tS (tIn ((tLink .running).setFld Reg.FAB_SELF.FLAT_ID 7) (tP 3 2 9 0 0 (leBytes 4 7))), tP 3 2 9 0 0 (leBytes 4 7), by decide +kernel⟩,
   ⟨tS (tIn (((tLink .running).setFld Reg.FAB_SELF.FLAT_ID 7).setFld (Reg.FAB_ROUTE.KIND 9) 1) (tP 3 2 9 0 0 (leBytes 4 8))),
      tP 3 2 9 0 0 (leBytes 4 8), by decide +kernel⟩⟩

theorem witness_HandoverProtocol_3 :
    (∃ s : State, ∃ p : Packet, ∃ t : Takeover, s.dev.up = true ∧ s.dev.takes p 3 3 = true ∧ (s.dev.take p).fab.takeover = some t ∧
      leAt p.payload 0 2 = t.id ∧ t.members.any (fun e => e.1 = p.src) = true) ∧
    (∃ s : State, ∃ t : Takeover, s.dev.up = true ∧ s.dev.fab.takeover = some t ∧ t.at' + ms 1 ≤ s.dev.clk ∧
      t.members.all (fun e => 10 ≤ e.2) = true) ∧
    (∃ s : State, ∃ t : Takeover, s.dev.up = true ∧ s.dev.fab.takeover = some t ∧ t.at' + ms 1 ≤ s.dev.clk ∧
      t.members.all (fun e => 10 ≤ e.2) = false) :=
  ⟨⟨tS ({ tIn (tLink .running) (tP 3 3 9 0 0 (leBytes 4 8)) with fab := { Fab.init with inbox := [tP 3 3 9 0 0 (leBytes 4 8)], takeover := some ⟨8, [(9, 1)], 0⟩ } } : Dev), tP 3 3 9 0 0 (leBytes 4 8), (⟨8, [(9, 1)], 0⟩ : Takeover), by decide +kernel⟩,
   ⟨tS ({ tLink .running with fab := { Fab.init with takeover := some ⟨8, [(9, 10)], 0⟩ } } : Dev), (⟨8, [(9, 10)], 0⟩ : Takeover),
      by decide +kernel⟩,
   ⟨tS ({ (tLink .running).setFld (Reg.FAB_ROUTE.KIND 10) 1 with fab := { Fab.init with takeover := some ⟨8, [(9, 10), (10, 9)], 0⟩ } } : Dev), (⟨8,
      [(9, 10), (10, 9)], 0⟩ : Takeover), by decide +kernel⟩⟩

theorem witness_RoutingAndSuspects :
    (∃ s : State, ∃ a : Again, ∃ l : List Again, s.dev.live = true ∧ s.dev.fab.again = a :: l) ∧
    (∃ s : State, ∃ e : Option Nat × Packet, ∃ l : List (Option Nat × Packet), s.dev.live = true ∧ s.dev.fab.again = [] ∧
      s.dev.fab.arrived = e :: l) ∧
    (∃ s : State, ∃ w : TreeWait, ∃ l : List TreeWait, s.dev.live = true ∧ s.dev.fab.treeWait = w :: l ∧ w.since + s.dev.treeWaitTime ≤ s.dev.clk) ∧
    (∃ s : State, ∃ p : Packet, ∃ x : Nat, ∃ d : Dev, s.dev.live = true ∧ s.dev.canTake p = true ∧ p.cls = 3 ∧ p.op = 0x40 ∧ x = leAt p.payload 0 2 ∧
      d = (if leAt p.payload 3 1 < 2 then ((s.dev.take p).holdNotice x).noticeLine (leAt p.payload 3 1 + 1) p.payload
      else (s.dev.take p).holdNotice x) ∧ d.flt.handover.any (fun h => h.peer = x) = false) ∧
    (∃ s : State, ∃ p : Packet, ∃ x : Nat, ∃ d : Dev, s.dev.live = true ∧ s.dev.canTake p = true ∧ p.cls = 3 ∧ p.op = 0x40 ∧ x = leAt p.payload 0 2 ∧
      d = (if leAt p.payload 3 1 < 2 then ((s.dev.take p).holdNotice x).noticeLine (leAt p.payload 3 1 + 1) p.payload
      else (s.dev.take p).holdNotice x) ∧ d.flt.handover.any (fun h => h.peer = x) = true) ∧
    (∃ s : State, ∃ x : Nat, ∃ n : Nat × Nat, x < 65536 ∧ s.dev.up = true ∧ (s.dev.flt.notices.any (fun n => n.1 = x && s.dev.holdOver n.2) = true ∨
      s.dev.flt.suspects.any (fun e => e.2.id = x && e.2.origin && s.dev.holdOver e.2.last) = true)) ∧
    (∃ s : State, ∃ x : Nat, ∃ i : Nat, x < 65536 ∧ s.dev.up = true ∧ s.dev.suspectAt x = some i ∧
      s.dev.flt.suspects.any (fun e => e.2.id = x && e.2.origin && e.2.grown && e.2.told + sec 1 ≤ s.dev.clk) = true) :=
  ⟨⟨tS ({ (tLink .running).setFld Reg.FAB_SELF.FLAT_ID 7 with fab := { Fab.init with again := [⟨0, none, tP 0 1 9 0 0 []⟩] } } : Dev), (⟨0, none,
      tP 0 1 9 0 0 []⟩ : Again), ([] : List Again), by decide +kernel⟩,
   ⟨tS ({ (tLink .running).setFld Reg.FAB_SELF.FLAT_ID 7 with fab := { Fab.init with arrived := [(none, tP 0 1 9 0 0 [])] } } : Dev), ((none,
      tP 0 1 9 0 0 []) : Option Nat × Packet), ([] : List (Option Nat × Packet)), by decide +kernel⟩,
   ⟨tS ({ tLink .running with fab := { Fab.init with treeWait := [⟨0, none, tP 0 1 9 0 0 [], 0, false⟩] } } : Dev), (⟨0, none, tP 0 1 9 0 0 [], 0,
      false⟩ : TreeWait), ([] : List TreeWait), by decide +kernel⟩,
   ⟨tS (tIn (tLink .running) (tP 3 0x40 9 0 0 (leBytes 4 0x01000008 ++ zeros 12))), tP 3 0x40 9 0 0 (leBytes 4 0x01000008 ++ zeros 12), 8, _,
      by decide +kernel, by decide +kernel, by decide +kernel, by decide +kernel, by decide +kernel, rfl, by decide +kernel⟩,
   ⟨tS (tIn (tHo .running true .copy 3 id) (tP 3 0x40 9 0 0 (leBytes 4 0x02000009 ++ zeros 12))), tP 3 0x40 9 0 0 (leBytes 4 0x02000009 ++ zeros 12),
      9, _, by decide +kernel, by decide +kernel, by decide +kernel, by decide +kernel, by decide +kernel, rfl, by decide +kernel⟩,
   ⟨tS ({ tLink .running with clock := sec 4000, flt := { Flt.init with notices := [(8, 0), (9, 0)] } } : Dev), 8, ((8, 0) : Nat × Nat),
      by decide +kernel⟩,
   ⟨tS ({ tLink .running with flt := { Flt.init with suspects := [(0, ⟨8, 1, true, 3, 0, true, 0xFF, 0⟩)] } } : Dev), 8, 0, by decide +kernel⟩⟩

theorem witness_ManagementPort_1 :
    (∃ s : State, ∃ m : List Byte, ∃ c : Instr, ∃ n : Nat, s.dev.mgmtServes = true ∧
      (c, n) ∈ [(Instr.getState m, 1), (.getRecords m, 2), (.getSuspects m, 3), (.setLost m, 4), (.request m, 5), (.mgmtReset m, 6)] ∧
      leAt m 0 1 = 0x10 ∧ leAt m 24 1 = n ∧ s.dev.mgmtTagOk m = false) ∧
    (∃ s : State, ∃ m : List Byte, ∃ c : Instr, ∃ n : Nat, s.dev.mgmtServes = true ∧
      (c, n) ∈ [(Instr.getState m, 1), (.getRecords m, 2), (.getSuspects m, 3), (.setLost m, 4), (.request m, 5), (.mgmtReset m, 6)] ∧
      leAt m 0 1 = 0x10 ∧ leAt m 24 1 = n ∧ s.dev.mgmtTagOk m = true ∧ (leAt m 20 4 ≠ s.dev.flt.session ∨ ∃ k, s.dev.flt.lastCmd = some k ∧
      leAt m 16 4 ≤ k)) ∧
    (∃ s : State, ∃ m : List Byte, ∃ d : Dev, s.dev.mgmtServes = true ∧ leAt m 0 1 = 0x10 ∧ s.dev.mgmtTagOk m = true ∧
      leAt m 20 4 = s.dev.flt.session ∧ m.length = 80 ∧ leAt m 25 7 = 0 ∧ (∀ n, s.dev.flt.lastCmd = some n → n < leAt m 16 4) ∧
      d = { s.dev with flt := { s.dev.flt with lastCmd := some (leAt m 16 4) } } ∧ leAt m 24 1 = 1) ∧
    (∃ s : State, ∃ m : List Byte, ∃ d : Dev, s.dev.mgmtServes = true ∧ leAt m 0 1 = 0x10 ∧ s.dev.mgmtTagOk m = true ∧
      leAt m 20 4 = s.dev.flt.session ∧ m.length = 80 ∧ leAt m 25 7 = 0 ∧ (∀ n, s.dev.flt.lastCmd = some n → n < leAt m 16 4) ∧
      d = { s.dev with flt := { s.dev.flt with lastCmd := some (leAt m 16 4) } } ∧ leAt m 24 1 = 2 ∧ leAt m 36 1 ≠ 0 ∧ leAt m 36 1 ≤ 32 ∧
      s.dev.inSt [.ready, .running, .quiesced, .halted] = true) ∧
    (∃ s : State, ∃ m : List Byte, ∃ d : Dev, s.dev.mgmtServes = true ∧ leAt m 0 1 = 0x10 ∧ s.dev.mgmtTagOk m = true ∧
      leAt m 20 4 = s.dev.flt.session ∧ m.length = 80 ∧ leAt m 25 7 = 0 ∧ (∀ n, s.dev.flt.lastCmd = some n → n < leAt m 16 4) ∧
      d = { s.dev with flt := { s.dev.flt with lastCmd := some (leAt m 16 4) } } ∧ leAt m 24 1 = 3 ∧
      s.dev.inSt [.ready, .running, .quiesced, .halted] = true) ∧
    (∃ s : State, ∃ m : List Byte, ∃ d : Dev, s.dev.mgmtServes = true ∧ leAt m 0 1 = 0x10 ∧ s.dev.mgmtTagOk m = true ∧
      leAt m 20 4 = s.dev.flt.session ∧ m.length = 80 ∧ leAt m 25 7 = 0 ∧ (∀ n, s.dev.flt.lastCmd = some n → n < leAt m 16 4) ∧
      d = { s.dev with flt := { s.dev.flt with lastCmd := some (leAt m 16 4) } } ∧ leAt m 24 1 = 4 ∧ s.dev.up = true ∧ leAt m 34 1 = 1) ∧
    (∃ s : State, ∃ m : List Byte, ∃ d : Dev, s.dev.mgmtServes = true ∧ leAt m 0 1 = 0x10 ∧ s.dev.mgmtTagOk m = true ∧
      leAt m 20 4 = s.dev.flt.session ∧ m.length = 80 ∧ leAt m 25 7 = 0 ∧ (∀ n, s.dev.flt.lastCmd = some n → n < leAt m 16 4) ∧
      d = { s.dev with flt := { s.dev.flt with lastCmd := some (leAt m 16 4) } } ∧ leAt m 24 1 = 4 ∧ s.dev.up = true ∧ leAt m 34 1 = 0) ∧
    (∃ s : State, ∃ m : List Byte, ∃ d : Dev, s.dev.mgmtServes = true ∧ leAt m 0 1 = 0x10 ∧ s.dev.mgmtTagOk m = true ∧
      leAt m 20 4 = s.dev.flt.session ∧ m.length = 80 ∧ leAt m 25 7 = 0 ∧ (∀ n, s.dev.flt.lastCmd = some n → n < leAt m 16 4) ∧
      d = { s.dev with flt := { s.dev.flt with lastCmd := some (leAt m 16 4) } } ∧ leAt m 24 1 = 5 ∧ s.dev.up = true ∧ leAt m 32 1 ≠ 0 ∧
      leAt m 32 1 ≤ 6 ∧ s.dev.fld Reg.FLT_MGMT_REQ.VALID = 0) :=
  ⟨⟨tS tMgmt, fill 80 [(0, 0x10), (24, 1)], (.getState (fill 80 [(0, 0x10), (24, 1)]) : Instr), 1, by decide +kernel⟩,
   ⟨tS tMgmt, tMsg [(0, 0x10), (20, 5), (24, 1)], (.getState (tMsg [(0, 0x10), (20, 5), (24, 1)]) : Instr), 1, by decide +kernel⟩,
   ⟨tS tMgmt, tMsg [(0, 0x10), (16, 1), (24, 1)], _, by decide +kernel, by decide +kernel, by decide +kernel, by decide +kernel, by decide +kernel,
      by decide +kernel, (fun n h => by cases h), rfl, by decide +kernel⟩,
   ⟨tS tMgmt, tMsg [(0, 0x10), (16, 1), (24, 2), (36, 32)], _, by decide +kernel, by decide +kernel, by decide +kernel, by decide +kernel,
      by decide +kernel, by decide +kernel, (fun n h => by cases h), rfl, by decide +kernel, by decide +kernel, by decide +kernel, by decide +kernel⟩,
   ⟨tS tMgmt, tMsg [(0, 0x10), (16, 1), (24, 3)], _, by decide +kernel, by decide +kernel, by decide +kernel, by decide +kernel, by decide +kernel,
      by decide +kernel, (fun n h => by cases h), rfl, by decide +kernel, by decide +kernel⟩,
   ⟨tS tMgmt, tMsg [(0, 0x10), (16, 1), (24, 4), (32, 9), (34, 1)], _, by decide +kernel, by decide +kernel, by decide +kernel, by decide +kernel,
      by decide +kernel, by decide +kernel, (fun n h => by cases h), rfl, by decide +kernel, by decide +kernel, by decide +kernel⟩,
   ⟨tS tMgmt, tMsg [(0, 0x10), (16, 1), (24, 4), (32, 9), (34, 0)], _, by decide +kernel, by decide +kernel, by decide +kernel, by decide +kernel,
      by decide +kernel, by decide +kernel, (fun n h => by cases h), rfl, by decide +kernel, by decide +kernel, by decide +kernel⟩,
   ⟨tS tMgmt, tMsg [(0, 0x10), (16, 1), (24, 5), (32, 6), (34, 9)], _, by decide +kernel, by decide +kernel, by decide +kernel, by decide +kernel,
      by decide +kernel, by decide +kernel, (fun n h => by cases h), rfl, by decide +kernel, by decide +kernel, by decide +kernel, by decide +kernel,
      by decide +kernel⟩⟩

theorem witness_ManagementPort_2 :
    (∃ s : State, ∃ m : List Byte, ∃ d : Dev, s.dev.mgmtServes = true ∧ leAt m 0 1 = 0x10 ∧ s.dev.mgmtTagOk m = true ∧
      leAt m 20 4 = s.dev.flt.session ∧ m.length = 80 ∧ leAt m 25 7 = 0 ∧ (∀ n, s.dev.flt.lastCmd = some n → n < leAt m 16 4) ∧
      d = { s.dev with flt := { s.dev.flt with lastCmd := some (leAt m 16 4) } } ∧ leAt m 24 1 = 5 ∧ s.dev.up = true ∧ leAt m 32 1 ≠ 0 ∧
      leAt m 32 1 ≤ 6 ∧ s.dev.fld Reg.FLT_MGMT_REQ.VALID = 1) ∧
    (∃ s : State, ∃ m : List Byte, ∃ d : Dev, s.dev.mgmtServes = true ∧ leAt m 0 1 = 0x10 ∧ s.dev.mgmtTagOk m = true ∧
      leAt m 20 4 = s.dev.flt.session ∧ m.length = 80 ∧ leAt m 25 7 = 0 ∧ (∀ n, s.dev.flt.lastCmd = some n → n < leAt m 16 4) ∧
      d = { s.dev with flt := { s.dev.flt with lastCmd := some (leAt m 16 4) } } ∧ leAt m 24 1 = 6 ∧ s.dev.boot.flashJob = none ∧
      s.dev.boot.rcvJob = false) ∧
    (∃ s : State, ∃ m : List Byte, s.dev.mgmtServes = true ∧ leAt m 0 1 = 2 ∧ s.dev.mgmtTagOk m = true) ∧
    (∃ s : State, s.dev.mgmtServes = true ∧ s.dev.flt.unacked.any s.dev.reportDue = true) ∧
    (∃ s : State, s.dev.st ≠ .reset ∧ s.dev.mgmtOn = true) ∧
    (∃ s : State, s.dev.st ≠ .reset ∧ s.dev.fld Reg.FLT_MGMT_STATUS.LINK_UP = 1) ∧
    (∃ s : State, s.dev.st ≠ .reset ∧ s.dev.fld Reg.FLT_MGMT_REQ.VALID = 1) :=
  ⟨⟨tS (tMgmt.setFld Reg.FLT_MGMT_REQ.VALID 1), tMsg [(0, 0x10), (16, 1), (24, 5), (32, 6), (34, 9)], _, by decide +kernel, by decide +kernel,
      by decide +kernel, by decide +kernel, by decide +kernel, by decide +kernel, (fun n h => by cases h), rfl, by decide +kernel, by decide +kernel,
      by decide +kernel, by decide +kernel, by decide +kernel⟩,
   ⟨tS tMgmt, tMsg [(0, 0x10), (16, 1), (24, 6)], _, by decide +kernel, by decide +kernel, by decide +kernel, by decide +kernel, by decide +kernel,
      by decide +kernel, (fun n h => by cases h), rfl, by decide +kernel, by decide +kernel, by decide +kernel⟩,
   ⟨tS ({ tMgmt with flt := { Flt.init with unacked := [⟨5, [], 0⟩, ⟨6, [], 0⟩] } } : Dev), tMsg [(0, 2), (4, 5)], by decide +kernel⟩,
   ⟨tS ({ tMgmt with flt := { Flt.init with unacked := [⟨5, [], 0⟩, ⟨6, [], 0⟩] } } : Dev), by decide +kernel⟩,
   ⟨tS tMgmt, by decide +kernel⟩,
   ⟨tS (tMgmt.setFld Reg.FLT_MGMT_REQ.VALID 1), by decide +kernel⟩,
   ⟨tS (tMgmt.setFld Reg.FLT_MGMT_REQ.VALID 1), by decide +kernel⟩⟩

theorem witness_SecurityCommands :
    (∃ s : State, ∃ r : Nat, ∃ j : Desc, r < 16 ∧ Starts s r j ∧ j.opc = 0x80) ∧
    (∃ s : State, ∃ r : Nat, ∃ j : Desc, r < 16 ∧ Starts s r j ∧ j.opc = 0xD0 ∧ s.dev.attestCheck j = none) ∧
    (∃ s : State, ∃ k : Nat × Nat, ∃ l : List (Nat × Nat), ∃ j : Desc, s.dev.up = true ∧ s.dev.boot.attests = k :: l ∧ s.dev.desc? k = some j) ∧
    (∃ s : State, ∃ r : Nat, ∃ j : Desc, r < 16 ∧ Starts s r j ∧ j.opc = 0xD1 ∧ s.dev.stageCheck j = none ∧ j.stageLen = 0) ∧
    (∃ s : State, ∃ r : Nat, ∃ j : Desc, r < 16 ∧ Starts s r j ∧ j.opc = 0xD1 ∧ s.dev.stageCheck j = none ∧ j.stageLen ≠ 0) ∧
    (∃ s : State, ∃ r : Nat, ∃ k : Nat, ∃ j : Desc, ∃ l : List Byte, ∃ x : Ecc, ∃ d : Dev, r < 16 ∧ s.dev.up = true ∧
      s.dev.flies (r, k) 0xD1 = true ∧ s.dev.desc? (r, k) = some j ∧ d = s.dev.meetEcc x ∧
      (∀ go : Dev → List Byte → Dev, d.withList j 24 j.stageLen go = go d l) ∧ d.partAt (s.dev.stageBase + j.imageOff) l.length = none) ∧
    (∃ s : State, ∃ r : Nat, ∃ j : Desc, ∃ c : Nat, r < 16 ∧ Starts s r j ∧ j.opc = 0xD2 ∧ j.reservedByte [(24, 0, 32)] = none ∧ s.dev.st = .ready ∧
      s.dev.readErr s.dev.stageBase (min j.imageLen 16777216) = none ∧ c = s.dev.commitCause (s.dev.package j.imageLen) j.imageLen) ∧
    (∃ s : State, ∃ w : FlashJob, ∃ k : Nat × Nat, s.dev.up = true ∧ s.dev.boot.flashJob = some w ∧ w.desc = some k) :=
  ⟨⟨tHead (tLink .running) (tJ [(0, 0x80), (24, 1)]), 0, tJ [(0, 0x80), (24, 1)], by decide +kernel⟩,
   ⟨tHead (tReg (tLink .ready) 0 0 4096 false) (tJ [(0, 0xD0), (48, 1024)]), 0, tJ [(0, 0xD0), (48, 1024)], by decide +kernel⟩,
   ⟨tS ({ tReg (tLink .ready) 0 0 4096 false with boot := { Boot.init with attests := [(0, 0)] }, hq := { (tReg (tLink .ready) 0 0 4096 false).hq with rings := [(0, { Ring.init with started := [tJ [(0, 0xD0), (48, 1024)]] })] } } : Dev), ((0, 0) : Nat × Nat), ([] : List (Nat × Nat)), tJ [(0, 0xD0), (48, 1024)], by decide +kernel⟩,
   ⟨tHead (tReg (tLink .ready) 0 0 4096 false) (tJ [(0, 0xD1)]), 0, tJ [(0, 0xD1)], by decide +kernel⟩,
   ⟨tHead (tReg (tLink .ready) 0 0 4096 false) (tJ [(0, 0xD1), (32, 16), (36, 16)]), 0, tJ [(0, 0xD1), (32, 16), (36, 16)], by decide +kernel⟩,
   ⟨tFly (tReg (tLink .ready) 0 0 4096 false) (tJ [(0, 0xD1), (32, 16), (36, 16)]), 0, 0, tJ [(0, 0xD1), (32, 16), (36, 16)], (zeros 16 : List Byte),
      (⟨[], []⟩ : Ecc), _, by decide +kernel, by decide +kernel, by decide +kernel, by decide +kernel, rfl, fun _ => rfl, by decide +kernel⟩,
   ⟨tHead (tLink .ready) (tJ [(0, 0xD2), (24, 1024)]), 0, tJ [(0, 0xD2), (24, 1024)], _, by decide +kernel, by decide +kernel, by decide +kernel,
      by decide +kernel, by decide +kernel, by decide +kernel, rfl⟩,
   ⟨tS ({ tLink .ready with boot := { Boot.init with flashJob := some ⟨0x1000, [1], none, some (0, 0)⟩ } } : Dev), (⟨0x1000, [1], none, some (0,
      0)⟩ : FlashJob), ((0, 0) : Nat × Nat), by decide +kernel⟩⟩

theorem witness_CollectivePosting_1 :
    (∃ s : State, ∃ r : Nat, ∃ j : Desc, ∃ c : Instr, ∃ d : Dev, ∃ e : Ending, r < 16 ∧ Starts s r j ∧ j.opc = 0x30 ∧ d = s.dev.popHead r ∧
      (c, true) ∈ [(Instr.collAllReduce r, decide (j.kind = 0)), (.collReduceScatter r, decide (j.kind = 1)),
      (.collAllGather r, decide (j.kind = 2)), (.collBroadcast r, decide (j.kind = 3)), (.collReduce r, decide (4 ≤ j.kind))] ∧
      s.dev.collCheck j = some e) ∧
    (∃ s : State, ∃ r : Nat, ∃ j : Desc, ∃ c : Instr, ∃ d : Dev, ∃ e : Ending, r < 16 ∧ Starts s r j ∧ j.opc = 0x30 ∧ d = s.dev.popHead r ∧
      (c, true) ∈ [(Instr.collAllReduce r, decide (j.kind = 0)), (.collReduceScatter r, decide (j.kind = 1)),
      (.collAllGather r, decide (j.kind = 2)), (.collBroadcast r, decide (j.kind = 3)), (.collReduce r, decide (4 ≤ j.kind))] ∧
      s.dev.collCheck j = some e ∧ s.dev.st = .running) ∧
    (∃ s : State, ∃ r : Nat, ∃ j : Desc, ∃ c : Instr, ∃ d : Dev, ∃ send : List (List Byte), ∃ recv : List (List Byte), r < 16 ∧ Starts s r j ∧
      j.opc = 0x30 ∧ d = s.dev.popHead r ∧ (c, true) ∈ [(Instr.collAllReduce r, decide (j.kind = 0)), (.collReduceScatter r, decide (j.kind = 1)),
      (.collAllGather r, decide (j.kind = 2)), (.collBroadcast r, decide (j.kind = 3)), (.collReduce r, decide (4 ≤ j.kind))] ∧
      s.dev.collCheck j = none ∧ d.collList j 32 true = .inr send ∧ d.collList j 40 false = .inr recv ∧ d.listOk j true (j.num 48 4) send = true ∧
      d.listOk j false (j.num 52 4) recv = true) ∧
    (∃ s : State, ∃ j : Desc, ∃ x : Coll, ∃ send : List (Nat × Nat), ∃ recv : List (Nat × Nat), x = s.dev.collOf j send recv ∧
      x.sendRanges.all (fun q => q.2 = 0 || memRange q.1 q.2) = true ∧ x.recvRanges.all (fun q => q.2 = 0 || memRange q.1 q.2) = true ∧
      (∀ q ∈ x.sendRanges, ∀ w ∈ x.recvRanges, overlaps q.1 q.2 w.1 w.2 = false)) ∧
    (∃ s : State, ∃ x : Coll, x.update = false ∧ x.members.find? (fun i => s.dev.on (Reg.FAB_ROUTE.LOST i)) = none ∧
      (∀ e ∈ s.dev.car.early, leAt e.pkt.payload 0 4 ≠ x.tag)) ∧
    (∃ s : State, ∃ i : Nat, ∃ c : Coll, s.dev.up = true ∧ s.dev.freeSlot = some i ∧ s.dev.nextQueued = some c) ∧
    (∃ s : State, ∃ r : Nat, ∃ j : Desc, r < 16 ∧ Starts s r j ∧ j.opc = 0x31 ∧ s.dev.groupCheck j = none ∧ j.deletes = true) ∧
    (∃ s : State, ∃ r : Nat, ∃ j : Desc, ∃ l : List Byte, ∃ ids : List Nat, r < 16 ∧ Starts s r j ∧ j.opc = 0x31 ∧ s.dev.groupCheck j = none ∧
      j.deletes = false ∧ (∀ go : Dev → List Byte → Dev, (s.dev.popHead r).withList j 32 (2 * j.num 28 4) go = go (s.dev.popHead r) l) ∧
      ids = (List.range (j.num 28 4)).map (fun i => leAt l (2 * i) 2) ∧ ids.count s.dev.selfId = 1 ∧
      s.dev.groupUsed (j.num 24 2) + ids.length ≤ 1048576) :=
  ⟨⟨tHead (tCar .running []) (tJ [(0, 0x30), (24, 2), (26, 4)]), 0, tJ [(0, 0x30), (24, 2), (26, 4)], (.collReduce 0 : Instr), _,
      (((tHead (tCar .running []) (tJ [(0, 0x30), (24, 2), (26, 4)])).dev.collCheck (tJ [(0, 0x30), (24, 2), (26, 4)])).getD ⟨.done,
      Detail.none⟩ : Ending), by decide +kernel, by decide +kernel, by decide +kernel, rfl, by decide +kernel, by decide +kernel⟩,
   ⟨tHead (tCar .running []) (tJ [(0, 0x30), (24, 2), (26, 4)]), 0, tJ [(0, 0x30), (24, 2), (26, 4)], (.collReduce 0 : Instr), _,
      (((tHead (tCar .running []) (tJ [(0, 0x30), (24, 2), (26, 4)])).dev.collCheck (tJ [(0, 0x30), (24, 2), (26, 4)])).getD ⟨.done,
      Detail.none⟩ : Ending), by decide +kernel, by decide +kernel, by decide +kernel, rfl, by decide +kernel, by decide +kernel, by decide +kernel⟩,
   ⟨tHead (tReg (tCar .running []) 0 (vaultBase 0) 8192 true) (tJ [(0, 0x30), (24, 1), (26, 0), (28, 5), (43, 0x10), (48, 64), (52, 128)]), 0,
      tJ [(0, 0x30), (24, 1), (26, 0), (28, 5), (43, 0x10), (48, 64), (52, 128)], (.collAllReduce 0 : Instr), _, ([] : List (List Byte)),
      ([] : List (List Byte)), by decide +kernel, by decide +kernel, by decide +kernel, rfl, by decide +kernel, by decide +kernel, rfl, rfl,
      by decide +kernel, by decide +kernel⟩,
   ⟨tS (tReg (tCar .running []) 0 (vaultBase 0) 8192 true), tJ [(0, 0x30), (24, 1), (26, 0), (28, 5), (43, 0x10), (48, 64), (52, 128)], _,
      [(vaultBase 0, 64)], [(vaultBase 0 + 0x1000, 128)], rfl, by decide +kernel, by decide +kernel, by decide +kernel⟩,
   ⟨tHead (tCar .running []) (tJ [(0, 0x30), (24, 2), (26, 3)]), tColl 5 id, by decide +kernel⟩,
   ⟨tS (tCar .running [tColl 5 id, tColl 6 (fun c => { c with key := (0, 1), slot := none })]), 1,
      tColl 6 (fun c => { c with key := (0, 1), slot := none }), by decide +kernel⟩,
   ⟨tHead (tCar .ready [] |> fun d => ({ d with stp := Stp.init } : Dev)) (tJ [(0, 0x31), (24, 1), (26, 1)]), 0, tJ [(0, 0x31), (24, 1), (26, 1)],
      by decide +kernel⟩,
   ⟨tHead (tReg ((tCar .ready [] |> fun d => ({ d with stp := Stp.init } : Dev)).write (vaultBase 0) [7, 0, 9,
      0]) 0 (vaultBase 0) 4096 true) (tJ [(0, 0x31), (24, 1), (28, 2)]), 0, tJ [(0, 0x31), (24, 1), (28, 2)], ([7, 0, 9, 0] : List Byte), ([7,
      9] : List Nat), by decide +kernel, by decide +kernel, by decide +kernel, by decide +kernel, by decide +kernel, fun _ => rfl, by decide +kernel,
      by decide +kernel, by decide +kernel⟩⟩

theorem witness_CollectivePosting_2 :
    ∃ s : State, ∃ r : Nat, ∃ j : Desc, ∃ l : List Byte, ∃ ids : List Nat, r < 16 ∧ Starts s r j ∧ j.opc = 0x31 ∧ s.dev.groupCheck j = none ∧
      j.deletes = false ∧ (∀ go : Dev → List Byte → Dev, (s.dev.popHead r).withList j 32 (2 * j.num 28 4) go = go (s.dev.popHead r) l) ∧
      ids = (List.range (j.num 28 4)).map (fun i => leAt l (2 * i) 2) ∧ ids.count s.dev.selfId ≠ 1 :=
  ⟨tHead (tReg ((tCar .ready [] |> fun d => ({ d with stp := Stp.init } : Dev)).write (vaultBase 0) [7, 0, 7, 0]) 0 (vaultBase 0) 4096 true) (tJ [(0,
      0x31), (24, 1), (28, 2)]), 0, tJ [(0, 0x31), (24, 1), (28, 2)], ([7, 0, 7, 0] : List Byte), ([7, 7] : List Nat), by decide +kernel,
      by decide +kernel, by decide +kernel, by decide +kernel, by decide +kernel, fun _ => rfl, by decide +kernel, by decide +kernel⟩

theorem witness_CollectiveTraffic_1 :
    (∃ s : State, ∃ p : Packet, s.dev.takes p 3 0x20 = true) ∧
    (∃ s : State, ∃ p : Packet, ∃ d : Dev, ∃ c : Coll, s.dev.takes p 3 0x21 = true ∧
      d = { s.dev.take p with car := { s.dev.car with sends := s.dev.car.sends.filter (fun x => !answers p x) } } ∧
      d.collTag (leAt p.payload 0 4) = some c) ∧
    (∃ s : State, ∃ p : Packet, ∃ d : Dev, s.dev.takes p 3 0x21 = true ∧
      d = { s.dev.take p with car := { s.dev.car with sends := s.dev.car.sends.filter (fun x => !answers p x) } } ∧
      d.collTag (leAt p.payload 0 4) = none) ∧
    (∃ s : State, s.dev.live = true ∧ s.dev.car.sends.any (fun x => x.at' + us 20 ≤ s.dev.clk) = true) ∧
    (∃ s : State, ∃ p : Packet, ∃ d : Dev, ∃ c : Coll, ∃ x : InXfer, s.dev.takes p 2 0x10 = true ∧ d = s.dev.take p ∧ d.collLow p.tag = some c ∧
      c.inFrom (bits p.da 32 8) p.src = some x ∧ p.da % 2 ^ 32 = x.got ∧ x.got + p.payload.length ≤ x.limit) ∧
    (∃ s : State, ∃ p : Packet, ∃ d : Dev, ∃ c : Coll, ∃ x : InXfer, s.dev.takes p 2 0x10 = true ∧ d = s.dev.take p ∧ d.collLow p.tag = some c ∧
      c.inFrom (bits p.da 32 8) p.src = some x ∧ (p.da % 2 ^ 32 ≠ x.got ∨ x.limit < x.got + p.payload.length)) ∧
    (∃ s : State, ∃ p : Packet, ∃ d : Dev, ∃ c : Coll, ∃ x : InXfer, ∃ sc : List Byte, s.dev.takes p 2 0x11 = true ∧ d = s.dev.take p ∧
      d.collTag (leAt p.payload 0 4) = some c ∧ c.inFrom (leAt p.payload 4 1) p.src = some x ∧ leAt p.payload 8 4 = x.now ∧
      leAt p.payload 8 4 < x.granted ∧ sc = (if bit (leAt p.payload 5 1) 0 then p.payload.drop 16 else []) ∧
      crc32c (x.nextBytes ++ sc) = leAt p.payload 12 4 ∧ x.nextBytes ≠ [] ∧ x.nextBytes.length ≤ segLeft x.chunks (leAt p.payload 8 4)) ∧
    (∃ s : State, ∃ p : Packet, ∃ d : Dev, ∃ c : Coll, ∃ x : InXfer, ∃ sc : List Byte, s.dev.takes p 2 0x11 = true ∧ d = s.dev.take p ∧
      d.collTag (leAt p.payload 0 4) = some c ∧ c.inFrom (leAt p.payload 4 1) p.src = some x ∧ leAt p.payload 8 4 = x.now ∧
      leAt p.payload 8 4 < x.granted ∧ sc = (if bit (leAt p.payload 5 1) 0 then p.payload.drop 16 else []) ∧
      crc32c (x.nextBytes ++ sc) = leAt p.payload 12 4 ∧ x.nextBytes ≠ [] ∧ x.nextBytes.length ≤ segLeft x.chunks (leAt p.payload 8 4) ∧
      c.wired (leAt p.payload 4 1) = true) :=
  ⟨⟨tS (tIn (tCar .running [tColl 5 id]) (tP 3 0x20 9 0 0 (leBytes 4 5 ++ leBytes 2 1 ++ [0, 0] ++ leBytes 4 1 ++ leBytes 4 1 ++ leBytes 12 64))),
      tP 3 0x20 9 0 0 (leBytes 4 5 ++ leBytes 2 1 ++ [0, 0] ++ leBytes 4 1 ++ leBytes 4 1 ++ leBytes 12 64), by decide +kernel⟩,
   ⟨tS (tIn (tCar .running [tColl 5 id]) (tP 3 0x21 9 0 0 (leBytes 4 5 ++ [0, 0, 0, 0] ++ leBytes 4 0))), tP 3 0x21 9 0 0 (leBytes 4 5 ++ [0, 0, 0,
      0] ++ leBytes 4 0), _, tColl 5 id, by decide +kernel, rfl, by decide +kernel⟩,
   ⟨tS (tIn (tCar .running [tColl 5 id]) (tP 3 0x21 9 0 0 (leBytes 4 6 ++ [0, 0, 0, 0] ++ leBytes 4 0))), tP 3 0x21 9 0 0 (leBytes 4 6 ++ [0, 0, 0,
      0] ++ leBytes 4 0), _, by decide +kernel, rfl, by decide +kernel⟩,
   ⟨tS ({ tCar .running [tColl 5 id] with car := { Car.init with sends := [⟨(0, 0), 9, tP 3 0x20 7 0 0 [], 0⟩] } } : Dev), by decide +kernel⟩,
   ⟨tS (tIn (tCar .running [tColl 5 (tData [])]) (tP 2 0x10 9 0 5 (zeros 128))), tP 2 0x10 9 0 5 (zeros 128), _, tColl 5 (tData []), (⟨0, 1, [⟨0, 0,
      128⟩], 1, 0, [], []⟩ : InXfer), by decide +kernel, rfl, by decide +kernel, by decide +kernel, by decide +kernel, by decide +kernel⟩,
   ⟨tS (tIn (tCar .running [tColl 5 (tData [])]) (tP 2 0x10 9 4 5 (zeros 128))), tP 2 0x10 9 4 5 (zeros 128), _, tColl 5 (tData []), (⟨0, 1, [⟨0, 0,
      128⟩], 1, 0, [], []⟩ : InXfer), by decide +kernel, rfl, by decide +kernel, by decide +kernel, by decide +kernel⟩,
   ⟨tS (tIn (tCar .running [tColl 5 (tData (zeros 128))]) (tP 2 0x11 9 0 0 (leBytes 4 5 ++ zeros 8 ++ leBytes 4 (crc32c (zeros 128))))),
      tP 2 0x11 9 0 0 (leBytes 4 5 ++ zeros 8 ++ leBytes 4 (crc32c (zeros 128))), _, tColl 5 (tData (zeros 128)), (⟨0, 1, [⟨0, 0, 128⟩], 1, 0,
      (zeros 128), []⟩ : InXfer), ([] : List Byte), by decide +kernel, rfl, by decide +kernel, by decide +kernel, by decide +kernel,
      by decide +kernel, by decide +kernel, by decide +kernel, by decide +kernel, by decide +kernel⟩,
   ⟨tS (tIn (tCar .running [tColl 5 (tData (zeros 128))]) (tP 2 0x11 9 0 0 (leBytes 4 5 ++ zeros 8 ++ leBytes 4 (crc32c (zeros 128))))),
      tP 2 0x11 9 0 0 (leBytes 4 5 ++ zeros 8 ++ leBytes 4 (crc32c (zeros 128))), _, tColl 5 (tData (zeros 128)), (⟨0, 1, [⟨0, 0, 128⟩], 1, 0,
      (zeros 128), []⟩ : InXfer), ([] : List Byte), by decide +kernel, rfl, by decide +kernel, by decide +kernel, by decide +kernel,
      by decide +kernel, by decide +kernel, by decide +kernel, by decide +kernel, by decide +kernel, by decide +kernel⟩⟩

theorem witness_CollectiveTraffic_2 :
    (∃ s : State, ∃ p : Packet, ∃ d : Dev, ∃ c : Coll, ∃ x : InXfer, ∃ sc : List Byte, s.dev.takes p 2 0x11 = true ∧ d = s.dev.take p ∧
      d.collTag (leAt p.payload 0 4) = some c ∧ c.inFrom (leAt p.payload 4 1) p.src = some x ∧ leAt p.payload 8 4 = x.now ∧
      leAt p.payload 8 4 < x.granted ∧ sc = (if bit (leAt p.payload 5 1) 0 then p.payload.drop 16 else []) ∧
      crc32c (x.nextBytes ++ sc) ≠ leAt p.payload 12 4) ∧
    (∃ s : State, ∃ p : Packet, s.dev.takes p 2 0x12 = true ∧ (s.dev.take p).collTag (leAt p.payload 0 4) = none) ∧
    (∃ s : State, ∃ p : Packet, ∃ d : Dev, ∃ c : Coll, s.dev.takes p 2 0x12 = true ∧ d = s.dev.take p ∧ d.collTag (leAt p.payload 0 4) = some c ∧
      c.slot ≠ none ∧ c.data = true) ∧
    (∃ s : State, ∃ p : Packet, ∃ d : Dev, ∃ c : Coll, s.dev.takes p 2 0x12 = true ∧ d = s.dev.take p ∧ d.collTag (leAt p.payload 0 4) = some c ∧
      c.slot ≠ none ∧ c.data = false) ∧
    (∃ s : State, ∃ p : Packet, ∃ d : Dev, d = s.dev.take p ∧ s.dev.takes p 3 0x22 = true ∧ d.car.seen.contains (0x22, p.payload) = true) ∧
    (∃ s : State, ∃ p : Packet, ∃ d : Dev, d = s.dev.take p ∧ s.dev.takes p 3 0x22 = true ∧ d.car.seen.contains (0x22, p.payload) = false) ∧
    (∃ s : State, ∃ p : Packet, ∃ d : Dev, d = s.dev.take p ∧ s.dev.takes p 3 0x23 = true ∧ d.car.seen.contains (0x23, p.payload) = true) ∧
    (∃ s : State, ∃ p : Packet, ∃ d : Dev, d = s.dev.take p ∧ s.dev.takes p 3 0x23 = true ∧ d.car.seen.contains (0x23, p.payload) = false) :=
  ⟨⟨tS (tIn (tCar .running [tColl 5 (tData (zeros 128))]) (tP 2 0x11 9 0 0 (leBytes 4 5 ++ zeros 8 ++ leBytes 4 7))),
      tP 2 0x11 9 0 0 (leBytes 4 5 ++ zeros 8 ++ leBytes 4 7), _, tColl 5 (tData (zeros 128)), (⟨0, 1, [⟨0, 0, 128⟩], 1, 0, (zeros 128),
      []⟩ : InXfer), ([] : List Byte), by decide +kernel, rfl, by decide +kernel, by decide +kernel, by decide +kernel, by decide +kernel,
      by decide +kernel, by decide +kernel⟩,
   ⟨tS (tIn (tCar .running [tColl 5 (tData [])]) (tP 2 0x12 9 0 0 (leBytes 4 6 ++ zeros 8))), tP 2 0x12 9 0 0 (leBytes 4 6 ++ zeros 8),
      by decide +kernel⟩,
   ⟨tS (tIn (tCar .running [tColl 5 (tData [])]) (tP 2 0x12 9 0 0 (leBytes 4 5 ++ zeros 4 ++ leBytes 4 1))),
      tP 2 0x12 9 0 0 (leBytes 4 5 ++ zeros 4 ++ leBytes 4 1), _, tColl 5 (tData []), by decide +kernel, rfl, by decide +kernel, by decide +kernel,
      by decide +kernel⟩,
   ⟨tS (tIn (tCar .running [tColl 5 id]) (tP 2 0x12 9 0 0 (leBytes 4 5 ++ zeros 4 ++ leBytes 4 1))),
      tP 2 0x12 9 0 0 (leBytes 4 5 ++ zeros 4 ++ leBytes 4 1), _, tColl 5 id, by decide +kernel, rfl, by decide +kernel, by decide +kernel,
      by decide +kernel⟩,
   ⟨tS (tIn ({ tCar .running [tColl 5 id] with car := { Car.init with seen := [(0x22, leBytes 4 5 ++ leBytes 2 1 ++ zeros 10)] } } : Dev) (tP 3 0x22
      9 0 0 (leBytes 4 5 ++ leBytes 2 1 ++ zeros 10))), tP 3 0x22 9 0 0 (leBytes 4 5 ++ leBytes 2 1 ++ zeros 10), _, rfl, by decide +kernel,
      by decide +kernel⟩,
   ⟨tS (tIn (tCar .running [tColl 5 id]) (tP 3 0x22 9 0 0 (leBytes 4 5 ++ leBytes 2 1 ++ zeros 10))),
      tP 3 0x22 9 0 0 (leBytes 4 5 ++ leBytes 2 1 ++ zeros 10), _, rfl, by decide +kernel, by decide +kernel⟩,
   ⟨tS (tIn ({ tCar .running [tColl 5 id] with car := { Car.init with seen := [(0x23, leBytes 4 5 ++ leBytes 2 1 ++ zeros 10)] } } : Dev) (tP 3 0x23
      9 0 0 (leBytes 4 5 ++ leBytes 2 1 ++ zeros 10))), tP 3 0x23 9 0 0 (leBytes 4 5 ++ leBytes 2 1 ++ zeros 10), _, rfl, by decide +kernel,
      by decide +kernel⟩,
   ⟨tS (tIn (tCar .running [tColl 5 id]) (tP 3 0x23 9 0 0 (leBytes 4 5 ++ leBytes 2 1 ++ zeros 10))),
      tP 3 0x23 9 0 0 (leBytes 4 5 ++ leBytes 2 1 ++ zeros 10), _, rfl, by decide +kernel, by decide +kernel⟩⟩

theorem witness_CollectiveTraffic_3 :
    (∃ s : State, ∃ p : Packet, ∃ c : Coll, s.dev.collTag (leAt p.payload 0 4) = some c ∧ p.op = 0x22) ∧
    (∃ s : State, ∃ r : Nat, ∃ k : Nat, ∃ c : Coll, r < 16 ∧ s.dev.up = true ∧ s.dev.coll? (r, k) = some c ∧ c.last + s.dev.watchdog ≤ s.dev.clk) ∧
    (∃ s : State, ∃ e : Early, s.dev.up = true ∧ e ∈ s.dev.car.early ∧ e.time + 2 * s.dev.watchdog ≤ s.dev.clk) :=
  ⟨⟨tS (tCar .running [tColl 5 id]), tP 3 0x22 9 0 0 (leBytes 4 5 ++ leBytes 2 1 ++ zeros 10), tColl 5 id, by decide +kernel⟩,
   ⟨tS ((tCar .running [tColl 5 id]).modStp (fun t => { t with time := ms 100 })), 0, 0, tColl 5 id, by decide +kernel⟩,
   ⟨tS ((tCar .running [] |> fun d => ({ d with car := { d.car with early := [⟨tP 3 0x20 9 0 0 [], 0⟩] } } : Dev)).modStp (fun t =>
      { t with time := ms 200 })), (⟨tP 3 0x20 9 0 0 [], 0⟩ : Early), by decide +kernel⟩⟩

theorem witness_UpdateEngine_1 :
    (∃ s : State, ∃ r : Nat, ∃ j : Desc, ∃ h : List Byte, ∃ b : Binding, ∃ p : Nat, r < 16 ∧ Starts s r j ∧ j.opc = 0x50 ∧ s.dev.bindCheck j = none ∧
      s.dev.stageRoom = true ∧ j.unbinds = false ∧ s.dev.readErr (midwayBase + j.num 48 4) 32 = none ∧ h = s.dev.read (midwayBase + j.num 48 4) 32 ∧
      updHdrOk h = true ∧ b = j.binding h 0 ∧ s.dev.arrayOk (j.num 33 5) (4 * b.slots * j.cp) = true ∧
      freezeRun (s.dev.besides j.tensor) b.blocks = some p ∧ s.dev.allBinds.length < 4096 ∧ s.dev.undoPlaced = true ∧
      undoNeed (b :: s.dev.besides j.tensor) ≤ s.dev.fld Reg.UPD_UNDO_LEN.LEN ∧ s.dev.st ≠ .running) ∧
    (∃ s : State, ∃ r : Nat, ∃ j : Desc, ∃ h : List Byte, ∃ b : Binding, ∃ p : Nat, r < 16 ∧ Starts s r j ∧ j.opc = 0x50 ∧ s.dev.bindCheck j = none ∧
      s.dev.stageRoom = true ∧ j.unbinds = false ∧ s.dev.readErr (midwayBase + j.num 48 4) 32 = none ∧ h = s.dev.read (midwayBase + j.num 48 4) 32 ∧
      updHdrOk h = true ∧ b = j.binding h 0 ∧ s.dev.arrayOk (j.num 33 5) (4 * b.slots * j.cp) = true ∧
      freezeRun (s.dev.besides j.tensor) b.blocks = some p ∧ s.dev.allBinds.length < 4096 ∧ s.dev.undoPlaced = true ∧
      undoNeed (b :: s.dev.besides j.tensor) ≤ s.dev.fld Reg.UPD_UNDO_LEN.LEN ∧ s.dev.st = .running) ∧
    (∃ s : State, ∃ r : Nat, ∃ j : Desc, r < 16 ∧ Starts s r j ∧ j.opc = 0x50 ∧ s.dev.bindCheck j = none ∧ s.dev.stageRoom = true ∧
      j.unbinds = true ∧ s.dev.st ≠ .running) ∧
    (∃ s : State, ∃ r : Nat, ∃ j : Desc, r < 16 ∧ Starts s r j ∧ j.opc = 0x50 ∧ s.dev.bindCheck j = none ∧ s.dev.stageRoom = true ∧
      j.unbinds = true ∧ s.dev.st = .running) ∧
    (∃ s : State, ∃ r : Nat, ∃ j : Desc, ∃ c : Instr, ∃ b : Bool, r < 16 ∧ Starts s r j ∧ j.opc = 0x51 ∧ s.dev.freezeCheck j = none ∧
      s.dev.stageRoom = true ∧ (c, b) ∈ [(Instr.updFreeze r, true), (.updThaw r, false)] ∧ j.freezes = b ∧ s.dev.st ≠ .running) ∧
    (∃ s : State, ∃ r : Nat, ∃ j : Desc, ∃ c : Instr, ∃ b : Bool, r < 16 ∧ Starts s r j ∧ j.opc = 0x51 ∧ s.dev.freezeCheck j = none ∧
      s.dev.stageRoom = true ∧ (c, b) ∈ [(Instr.updFreeze r, true), (.updThaw r, false)] ∧ j.freezes = b ∧ s.dev.st = .running) ∧
    (∃ d : Dev, ∃ t : Nat, ∃ f : Nat, ∃ n : Nat, ∃ b : Binding, ∃ i : Nat, d.bind? t = some b ∧ f ≤ i ∧ i < f + n ∧ i < b.blocks) ∧
    (∃ d : Dev, ∃ b : Binding, ∃ q : Binding, q ∈ (d.putBind b).upd.binds ∧ q.tensor = b.tensor) :=
  ⟨⟨tHead (tUpd .ready []) (tJ [(0, 0x50), (24, 5), (27, 0), (28, vaultBase 0), (33, vaultBase 0 + 0x10000), (38, vaultBase 0 + 0x20000), (44, 256),
      (52, 4), (54, 3)]), 0, tJ [(0, 0x50), (24, 5), (27, 0), (28, vaultBase 0), (33, vaultBase 0 + 0x10000), (38, vaultBase 0 + 0x20000), (44, 256),
      (52, 4), (54, 3)], _, _, 0, by decide +kernel, by decide +kernel, by decide +kernel, by decide +kernel, by decide +kernel, by decide +kernel,
      by decide +kernel, rfl, by decide +kernel, rfl, by decide +kernel, by decide +kernel, by decide +kernel, by decide +kernel, by decide +kernel,
      by decide +kernel⟩,
   ⟨tHead (tUpd .running []) (tJ [(0, 0x50), (24, 5), (27, 0), (28, vaultBase 0), (33, vaultBase 0 + 0x10000), (38, vaultBase 0 + 0x20000), (44,
      256), (52, 4), (54, 3)]), 0, tJ [(0, 0x50), (24, 5), (27, 0), (28, vaultBase 0), (33, vaultBase 0 + 0x10000), (38, vaultBase 0 + 0x20000), (44,
      256), (52, 4), (54, 3)], _, _, 0, by decide +kernel, by decide +kernel, by decide +kernel, by decide +kernel, by decide +kernel,
      by decide +kernel, by decide +kernel, rfl, by decide +kernel, rfl, by decide +kernel, by decide +kernel, by decide +kernel, by decide +kernel,
      by decide +kernel, by decide +kernel⟩,
   ⟨tHead (tUpd .ready [tBind]) (tJ [(0, 0x50), (24, 5), (27, 16)]), 0, tJ [(0, 0x50), (24, 5), (27, 16)], by decide +kernel⟩,
   ⟨tHead (tUpd .running [tBind]) (tJ [(0, 0x50), (24, 5), (27, 16)]), 0, tJ [(0, 0x50), (24, 5), (27, 16)], by decide +kernel⟩,
   ⟨tHead (tUpd .ready [tBind]) (tJ [(0, 0x51), (24, 5), (27, 1), (32, 1)]), 0, tJ [(0, 0x51), (24, 5), (27, 1), (32, 1)], (.updFreeze 0 : Instr),
      true, by decide +kernel⟩,
   ⟨tHead (tUpd .running [tBind]) (tJ [(0, 0x51), (24, 5), (27, 1), (32, 1)]), 0, tJ [(0, 0x51), (24, 5), (27, 1), (32, 1)], (.updFreeze 0 : Instr),
      true, by decide +kernel⟩,
   ⟨tUpd .ready [tBind], 5, 0, 1, (tBind : Binding), 0, by decide +kernel⟩,
   ⟨tUpd .ready [tBind], ({ tBind with fmt := 1 } : Binding), ({ tBind with fmt := 1 } : Binding), by decide +kernel⟩⟩

theorem witness_UpdateEngine_2 :
    (∃ s : State, ∃ k : Nat, ∃ e : Coll × Nat, k < 64 ∧ s.dev.up = true ∧ s.dev.updRoom k = true ∧ s.dev.nextDue = some e) ∧
    (∃ s : State, ∃ k : Nat, ∃ j : BlkJob, ∃ c : Coll, ∃ b : Binding, ∃ i : Nat, ∃ d : Dev, k < 64 ∧ s.dev.up = true ∧
      Tab.get none s.dev.upd.running k = some j ∧ (Tab.get VecCtx.init s.dev.vec (192 + k)).ended = true ∧ d = s.dev.clearRun k ∧
      d.coll? j.key = some c ∧ d.collBlock c j.block = some (b, i) ∧ d.rangeErr (b.ranges i) = none) ∧
    (∃ s : State, ∃ k : Nat, ∃ j : BlkJob, ∃ c : Coll, ∃ b : Binding, ∃ i : Nat, ∃ d : Dev, ∃ e : MemErr, k < 64 ∧ s.dev.up = true ∧
      Tab.get none s.dev.upd.running k = some j ∧ (Tab.get VecCtx.init s.dev.vec (192 + k)).ended = true ∧ d = s.dev.clearRun k ∧
      d.coll? j.key = some c ∧ d.collBlock c j.block = some (b, i) ∧ d.rangeErr (b.ranges i) = some e) ∧
    (∃ s : State, ∃ k : Nat, ∃ j : BlkJob, ∃ d : Dev, k < 64 ∧ s.dev.up = true ∧ Tab.get none s.dev.upd.running k = some j ∧
      Tab.get none s.dev.upd.next k = none ∧ d = ((s.dev.bumpSat Reg.UPD_FAULTS.CORE_FAULTS 1).clearRun k).retireUpd k ∧
      (∀ c ∈ d.car.colls, Tab.get 0 c.faults j.block = 0) ∧ d.updCoresUp ≠ 0) ∧
    (∃ s : State, ∃ k : Nat, ∃ j : BlkJob, k < 64 ∧ s.dev.up = true ∧ Tab.get none s.dev.upd.running k = some j) :=
  ⟨⟨tS (tUC [] []), 63, (tUColl [], 0), by decide +kernel⟩,
   ⟨tS ({ tUC [(63, some ⟨(0, 0), 0⟩)] [(0, .out)] with vec := [(255, { VecCtx.init with ended := true })] } : Dev), 63, (⟨(0, 0), 0⟩ : BlkJob),
      tUColl [(0, .out)], tBind, 0, _, by decide +kernel, by decide +kernel, by decide +kernel, by decide +kernel, rfl, by decide +kernel,
      by decide +kernel, by decide +kernel⟩,
   ⟨tS (({ tUC [(63, some ⟨(0, 0), 0⟩)] [(0, .out)] with vec := [(255, { VecCtx.init with ended := true })] } : Dev).setFld (Reg.TWR_CORE.STATE 0)
      3), 63, (⟨(0, 0), 0⟩ : BlkJob), tUColl [(0, .out)], tBind, 0, _, MemErr.lostCore 0, by decide +kernel, by decide +kernel, by decide +kernel,
      by decide +kernel, rfl, by decide +kernel, by decide +kernel, by decide +kernel⟩,
   ⟨tS ({ tUC [(63, some ⟨(0, 0), 0⟩)] [(0, .out)] with vec := [(255, { VecCtx.init with ended := true })] } : Dev), 63, (⟨(0, 0), 0⟩ : BlkJob), _,
      by decide +kernel, by decide +kernel, by decide +kernel, by decide +kernel, rfl, by decide +kernel, by decide +kernel⟩,
   ⟨tS (tUC [(63, some ⟨(0, 0), 0⟩)] [(0, .out)]), 63, (⟨(0, 0), 0⟩ : BlkJob), by decide +kernel⟩⟩

theorem witness_FabricDescriptors_1 :
    (∃ s : State, ∃ r : Nat, ∃ j : Desc, ∃ c : Instr, ∃ e : Ending, r < 16 ∧ Starts s r j ∧ j.opc = 0x40 ∧ s.dev.seqWaits j = false ∧
      (c, j.mop) ∈ [(Instr.get r, 1), (.getCached r, 2), (.put r, 3), (.putLine r, 4), (.invalidate r, 5), (.invalidateAll r, 6),
      (.aIadd r, 0x10), (.aFadd r, 0x11), (.aSwap r, 0x12), (.aCas r, 0x13), (.aUmax r, 0x14), (.aUmin r, 0x15), (.aOr r, 0x16),
      (.aAnd r, 0x17), (.rFadd r, 0x20), (.rIadd r, 0x21), (.rFmax r, 0x22), (.rFmin r, 0x23)] ∧ s.dev.mfabCheck j = some e) ∧
    (∃ s : State, ∃ r : Nat, ∃ j : Desc, ∃ c : Instr, r < 16 ∧ Starts s r j ∧ j.opc = 0x40 ∧ s.dev.seqWaits j = false ∧
      (c, j.mop) ∈ [(Instr.get r, 1), (.getCached r, 2), (.put r, 3), (.putLine r, 4), (.invalidate r, 5), (.invalidateAll r, 6),
      (.aIadd r, 0x10), (.aFadd r, 0x11), (.aSwap r, 0x12), (.aCas r, 0x13), (.aUmax r, 0x14), (.aUmin r, 0x15), (.aOr r, 0x16),
      (.aAnd r, 0x17), (.rFadd r, 0x20), (.rIadd r, 0x21), (.rFmax r, 0x22), (.rFmin r, 0x23)] ∧ s.dev.mfabCheck j = none) ∧
    (∃ j : Desc, j.mop ≠ 5 ∧ j.mop ≠ 6 ∧ j.len = 0) ∧
    (∃ j : Desc, j.mop = 6) ∧
    (∃ j : Desc, j.mop = 5) ∧
    (∃ d : Dev, ∃ j : Desc, j.mop ≠ 4 ∧ j.mop ≠ 5 ∧ j.mop ≠ 6 ∧ j.len ≠ 0 ∧ d.peerGone (j.num 26 2) = true) ∧
    (∃ d : Dev, ∃ j : Desc, j.len ≠ 0 ∧ d.peerGone (j.num 26 2) = false ∧ j.mop = 1 ∧ d.localErr j j.len = none) ∧
    (∃ d : Dev, ∃ j : Desc, ∃ a : Nat, j.len ≠ 0 ∧ d.peerGone (j.num 26 2) = false ∧ (j.mop = 3 ∨ mopReduce j.mop = true) ∧
      d.refDev (j.refIdx 40) = true ∧ a = d.refAddr (j.refIdx 40) (j.refOff 40) ∧ d.readErr a j.len = none) :=
  ⟨⟨tHead (tMfb []) (tJ [(0, 0x40), (24, 1), (25, 2)]), 0, tJ [(0, 0x40), (24, 1), (25, 2)], (.get 0 : Instr), (((tHead (tMfb []) (tJ [(0, 0x40),
      (24, 1), (25, 2)])).dev.mfabCheck (tJ [(0, 0x40), (24, 1), (25, 2)])).getD ⟨.done, Detail.none⟩ : Ending), by decide +kernel⟩,
   ⟨tHead (tReg (tMfb []) 0 (vaultBase 0) 4096 true) (tJ [(0, 0x40), (24, 1), (26, 9), (36, 64)]), 0, tJ [(0, 0x40), (24, 1), (26, 9), (36, 64)],
      (.get 0 : Instr), by decide +kernel⟩,
   ⟨tJ [(0, 0x40), (24, 1), (26, 9)], by decide +kernel⟩,
   ⟨tJ [(0, 0x40), (24, 6)], by decide +kernel⟩,
   ⟨tJ [(0, 0x40), (24, 5), (26, 9), (36, 64)], by decide +kernel⟩,
   ⟨tReg (tMfb []) 0 (vaultBase 0) 4096 true, tJ [(0, 0x40), (24, 1), (26, 8), (36, 64)], by decide +kernel⟩,
   ⟨tReg (tMfb []) 0 (vaultBase 0) 4096 true, tJ [(0, 0x40), (24, 1), (26, 9), (36, 64)], by decide +kernel⟩,
   ⟨tReg (tMfb []) 0 (vaultBase 0) 4096 true, tJ [(0, 0x40), (24, 3), (26, 9), (36, 64)], vaultBase 0, by decide +kernel⟩⟩

theorem witness_FabricDescriptors_2 :
    (∃ d : Dev, ∃ j : Desc, j.len ≠ 0 ∧ d.peerGone (j.num 26 2) = false ∧ mopAtomic j.mop = true ∧ d.localErr j j.len = none) ∧
    (∃ s : State, ∃ r : Nat, ∃ j : Desc, ∃ d : Dev, ∃ e : Ending, r < 16 ∧ s.dev.coreDue r = true ∧ j = s.dev.nextCoreDesc r ∧ d = s.dev.popCore r ∧
      s.dev.firstPoison (s.dev.coreDescAt r j.sub) 64 = none ∧ d.coreCheck j = some e) ∧
    (∃ s : State, ∃ r : Nat, ∃ j : Desc, ∃ d : Dev, r < 16 ∧ s.dev.coreDue r = true ∧ j = s.dev.nextCoreDesc r ∧ d = s.dev.popCore r ∧
      s.dev.firstPoison (s.dev.coreDescAt r j.sub) 64 = none ∧ d.coreCheck j = none ∧ j.opc = 1) ∧
    (∃ s : State, ∃ r : Nat, ∃ j : Desc, ∃ d : Dev, r < 16 ∧ s.dev.coreDue r = true ∧ j = s.dev.nextCoreDesc r ∧ d = s.dev.popCore r ∧
      s.dev.firstPoison (s.dev.coreDescAt r j.sub) 64 = none ∧ d.coreCheck j = none ∧ j.opc ≠ 1) ∧
    (∃ s : State, ∃ k : Nat, ∃ o : MfbOp, s.dev.up = true ∧ s.dev.op? k = some o ∧ mopGet o.mop = true ∧ s.dev.unanswered o ≠ []) ∧
    (∃ s : State, ∃ k : Nat, ∃ o : MfbOp, ∃ d : Dev, ∃ q : MfbOp, s.dev.up = true ∧ s.dev.op? k = some o ∧ mopAtomic o.mop = true ∧
      s.dev.unanswered o ≠ [] ∧ s.dev.now < o.issued + ms 10 ∧ d = s.dev.modOp k (fun o => { o with tries := o.tries + 1 }) ∧ d.op? k = some q) ∧
    (∃ s : State, ∃ k : Nat, ∃ o : MfbOp, s.dev.up = true ∧ s.dev.op? k = some o ∧ mopAtomic o.mop = true ∧ o.pkts.any (·.sent) = true ∧
      o.issued + ms 12 ≤ s.dev.now) ∧
    (∃ s : State, ∃ k : Nat, ∃ o : MfbOp, s.dev.up = true ∧ s.dev.op? k = some o ∧ mopGet o.mop = false ∧ mopAtomic o.mop = false ∧
      o.pkts.all (·.acked) = false ∧ o.start + s.dev.respTime ≤ s.dev.clk ∧ o.mop ≠ 4) :=
  ⟨⟨tReg (tMfb []) 0 (vaultBase 0) 4096 true, tJ [(0, 0x40), (24, 0x10), (26, 9), (36, 8)], by decide +kernel⟩,
   ⟨tS (tCR [(0, 0xFF)]), 0, _, _, (⟨.badOpcode, Detail.none⟩ : Ending), by decide +kernel, by decide +kernel, rfl, rfl, by decide +kernel,
      by decide +kernel⟩,
   ⟨tS (tCR [(0, 1)]), 0, _, _, by decide +kernel, by decide +kernel, rfl, rfl, by decide +kernel, by decide +kernel, by decide +kernel⟩,
   ⟨tS ((tReg (tCR [(0, 0x40), (24, 3), (26, 9), (36, 64)]) 0 (vaultBase 0) 4096 true).setFld (Reg.FAB_ROUTE.KIND 9) 1), 0, _, _, by decide +kernel,
      by decide +kernel, rfl, rfl, by decide +kernel, by decide +kernel, by decide +kernel⟩,
   ⟨tS ((tMfb [tMOp 1 id]).modStp (fun t => { t with time := ms 5 })), 3, tMOp 1 id, by decide +kernel⟩,
   ⟨tS ((tMfb [tMOp 0x10 id]).modStp (fun t => { t with time := ms 5 })), 3, tMOp 0x10 id, _, tMOp 0x10 (fun o => { o with tries := 1 }),
      by decide +kernel, by decide +kernel, by decide +kernel, by decide +kernel, by decide +kernel, rfl, by decide +kernel⟩,
   ⟨tS ((tMfb [tMOp 0x17 id]).modStp (fun t => { t with time := ms 12 })), 3, tMOp 0x17 id, by decide +kernel⟩,
   ⟨tS ((tMfb [tMOp 3 id]).modStp (fun t => { t with time := sec 1 })), 3, tMOp 3 id, by decide +kernel⟩⟩

theorem witness_FabricDescriptors_3 :
    (∃ s : State, ∃ k : Nat, ∃ o : MfbOp, ∃ x : Nat, s.dev.up = true ∧ s.dev.op? k = some o ∧ mopGet o.mop = false ∧ mopAtomic o.mop = false ∧
      o.pkts.all (·.acked) = false ∧ o.start + s.dev.respTime ≤ s.dev.clk ∧ o.mop = 4 ∧
      (s.dev.lineMembers o.home).find? (fun x => !o.ackedBy x) = some x) ∧
    (∃ s : State, s.dev.up = true ∧ s.dev.homes.any s.dev.windowDue = true) ∧
    (∃ s : State, s.dev.up = true ∧ s.dev.seqOver s.dev.mfb.seq = true) :=
  ⟨⟨tS ((((tMfb [tMOp 4 (fun o => { o with home := 0 })]).setFld Reg.FAB_TORUS_DIM.DX 3).setFld Reg.FAB_BLOCK_SIZE.SX 3).setFld (Reg.FAB_ROUTE.KIND
      1) 1 |> fun d => d.setFld (Reg.FAB_ROUTE.X 1) 1), 3, tMOp 4 (fun o => { o with home := 0 }), 1, by decide +kernel⟩,
   ⟨tS ({ tMfb [] with mfb := { Mfb.init with windows := [(9, ⟨64, true, 0⟩)] } } : Dev), by decide +kernel⟩,
   ⟨tS ({ tMfb [] with mfb := { Mfb.init with seqTime := [(0, 1)] } } : Dev), by decide +kernel⟩⟩

theorem witness_HomeAgent_1 :
    (∃ s : State, ∃ p : Packet, s.dev.homeTakes p 1 = true ∧ (s.dev.take p).readStatus p = 0) ∧
    (∃ s : State, ∃ p : Packet, s.dev.homeTakes p 1 = true ∧ (s.dev.take p).readStatus p ≠ 0) ∧
    (∃ s : State, ∃ p : Packet, ∃ h : Bool, ∃ c : Instr, (c, p.op) ∈ [(Instr.mfbPutPacket p h, 2), (.mfbReductionPacket p h, 4),
      (.mfbMirrorWrite p h, 5),
      (.mfbPutLineCopy p h, 6)] ∧ s.dev.homeTakes p p.op = true ∧ h = false ∧ s.dev.mfb.hot.any (writeWaits p) = false) ∧
    (∃ s : State, ∃ p : Packet, ∃ h : Bool, ∃ c : Instr, (c, p.op) ∈ [(Instr.mfbPutPacket p h, 2), (.mfbReductionPacket p h, 4),
      (.mfbMirrorWrite p h, 5),
      (.mfbPutLineCopy p h, 6)] ∧ s.dev.homeTakes p p.op = true ∧ (h = true ∨ s.dev.mfb.hot.any (writeWaits p) = true)) ∧
    (∃ s : State, ∃ p : Packet, ∃ h : Bool, s.dev.atInput p 3 = true ∧ s.dev.tableFull = false ∧ h = false ∧
      s.dev.mfb.hot.any (writeWaits p) = false ∧ s.dev.mfb.heldAtomics = []) ∧
    (∃ s : State, ∃ p : Packet, s.dev.atInput p 3 = true ∧ s.dev.tableFull = true ∧ s.dev.mfb.heldAtomics.contains p = false) ∧
    (∃ d : Dev, ∃ p : Packet, (p.op = 2 ∨ p.op = 6) ∧ d.homeStatus p = 0) ∧
    (∃ d : Dev, ∃ p : Packet, (p.op = 2 ∨ p.op = 6) ∧ d.homeStatus p ≠ 0) :=
  ⟨⟨tS (tIn (tMfb []) (tP 0 1 9 (vaultBase 0) 7 (leBytes 4 64))), tP 0 1 9 (vaultBase 0) 7 (leBytes 4 64), by decide +kernel⟩,
   ⟨tS (tIn (tMfb []) (tP 0 1 9 (vaultBase 0) 7 (leBytes 4 0))), tP 0 1 9 (vaultBase 0) 7 (leBytes 4 0), by decide +kernel⟩,
   ⟨tS (tIn (tMfb []) (tP 0 2 9 (vaultBase 0) 7 [1, 2])), tP 0 2 9 (vaultBase 0) 7 [1, 2], false, (.mfbPutPacket (tP 0 2 9 (vaultBase 0) 7 [1,
      2]) (false) : Instr), by decide +kernel⟩,
   ⟨tS (tIn (tMfb []) (tP 0 2 9 (vaultBase 0) 7 [1, 2])), tP 0 2 9 (vaultBase 0) 7 [1, 2], true, (.mfbPutPacket (tP 0 2 9 (vaultBase 0) 7 [1,
      2]) (true) : Instr), by decide +kernel⟩,
   ⟨tS (tIn (tMfb []) (tP 0 3 9 (vaultBase 0) 7 (leBytes 1 0x10 ++ leBytes 1 8 ++ zeros 6 ++ leBytes 8 3 ++ zeros 16))),
      tP 0 3 9 (vaultBase 0) 7 (leBytes 1 0x10 ++ leBytes 1 8 ++ zeros 6 ++ leBytes 8 3 ++ zeros 16), false, by decide +kernel⟩,
   ⟨tS (tIn ({ tMfb [] with mfb := { Mfb.init with table := List.replicate 65536 ⟨9, 7, 5, 0⟩ } } : Dev) (tP 0 3 9 (vaultBase 0) 7 (zeros 32))),
      tP 0 3 9 (vaultBase 0) 7 (zeros 32), by decide +kernel, by simp only [Dev.tableFull, tIn, tS, List.length_replicate]; decide +kernel,
      by decide +kernel⟩,
   ⟨tMfb [], tP 0 2 9 (vaultBase 0) 7 [1, 2], by decide +kernel⟩,
   ⟨tMfb [], tP 0 2 8 (vaultBase 0) 7 [1, 2], by decide +kernel⟩⟩

theorem witness_HomeAgent_2 :
    (∃ d : Dev, ∃ p : Packet, p.op = 5 ∧ d.homeStatus p = 0) ∧
    (∃ d : Dev, ∃ p : Packet, p.op = 5 ∧ d.homeStatus p ≠ 0) ∧
    (∃ d : Dev, ∃ p : Packet, p.op = 3 ∧ d.homeAdmits p.src = true ∧ reqMalformed p = false ∧
      (leAt p.payload 24 8 + ms 10 ≤ d.now ∨ leAt p.payload 24 8 < d.mfb.since)) ∧
    (∃ d : Dev, ∃ p : Packet, ∃ e : MfbResult, p.op = 3 ∧ d.homeAdmits p.src = true ∧ reqMalformed p = false ∧ d.now < leAt p.payload 24 8 + ms 10 ∧
      d.mfb.since ≤ leAt p.payload 24 8 ∧ d.mfb.table.find? (fun e => e.src = p.src && e.tag = p.tag) = some e) ∧
    (∃ d : Dev, ∃ p : Packet, ∃ n : Nat, ∃ l : List Byte, p.op = 3 ∧ d.homeAdmits p.src = true ∧ reqMalformed p = false ∧
      d.now < leAt p.payload 24 8 + ms 10 ∧ d.mfb.since ≤ leAt p.payload 24 8 ∧ d.mfb.table.find? (fun e => e.src = p.src && e.tag = p.tag) = none ∧
      d.readStatus p = 0 ∧ n = leAt p.payload 1 1 ∧
      l = leBytes n (atomicNew (leAt p.payload 0 1) n (d.readLE p.da n) (leAt p.payload 8 8) (leAt p.payload 16 8))) ∧
    (∃ d : Dev, ∃ p : Packet, p.op = 4 ∧ d.readStatus p = 0) ∧
    (∃ s : State, ∃ p : Packet, s.dev.homeTakes p 7 = true ∧ s.dev.homeAdmits p.src = true) ∧
    (∃ s : State, ∃ p : Packet, s.dev.homeTakes p 7 = true ∧ s.dev.homeAdmits p.src = false) :=
  ⟨⟨tMfb [], tP 0 5 9 (vaultBase 0) 7 [1, 2], by decide +kernel⟩,
   ⟨tMfb [], tP 0 5 8 (vaultBase 0) 7 [1, 2], by decide +kernel⟩,
   ⟨{ tMfb [] with mfb := { Mfb.init with since := 1 } },
      tP 0 3 9 (vaultBase 0) 7 (leBytes 1 0x10 ++ leBytes 1 8 ++ zeros 6 ++ leBytes 8 3 ++ zeros 16), by decide +kernel⟩,
   ⟨{ tMfb [] with mfb := { Mfb.init with table := [⟨9, 7, 5, 0⟩] } },
      tP 0 3 9 (vaultBase 0) 7 (leBytes 1 0x10 ++ leBytes 1 8 ++ zeros 6 ++ leBytes 8 3 ++ zeros 16), (⟨9, 7, 5, 0⟩ : MfbResult), by decide +kernel⟩,
   ⟨(tMfb []).write (vaultBase 0) [9], tP 0 3 9 (vaultBase 0) 7 (leBytes 1 0x10 ++ leBytes 1 8 ++ zeros 6 ++ leBytes 8 3 ++ zeros 16), 8,
      leBytes 8 (atomicNew 0x10 8 9 3 0), by decide +kernel⟩,
   ⟨(tMfb []).write (vaultBase 0) [9], tP 0 4 9 (vaultBase 0) 7 (leBytes 4 0x21 ++ leBytes 4 5), by decide +kernel⟩,
   ⟨tS (tIn (tMfb []) (tP 0 7 9 0 7 (leBytes 2 65535))), tP 0 7 9 0 7 (leBytes 2 65535), by decide +kernel⟩,
   ⟨tS (tIn (tMfb []) (tP 0 7 8 0 7 (leBytes 2 65535))), tP 0 7 8 0 7 (leBytes 2 65535), by decide +kernel⟩⟩

theorem witness_HomeAgent_3 :
    (∃ s : State, ∃ l : Nat, ∃ p : Packet, l < 2 ^ 34 ∧ s.dev.up = true ∧ s.dev.hotNext l = some p) ∧
    (∃ s : State, ∃ e : MfbResult, ∃ l : List MfbResult, ∃ d : Dev, s.dev.up = true ∧ s.dev.mfb.table = e :: l ∧ e.time + ms 10 ≤ s.dev.now ∧
      d = { s.dev with mfb := { s.dev.mfb with table := l } } ∧ d.mfb.heldAtomics.find? (fun p => d.homeTakes p 3) = none) ∧
    (∃ s : State, ∃ e : MfbResult, ∃ l : List MfbResult, ∃ d : Dev, ∃ p : Packet, s.dev.up = true ∧ s.dev.mfb.table = e :: l ∧
      e.time + ms 10 ≤ s.dev.now ∧ d = { s.dev with mfb := { s.dev.mfb with table := l } } ∧
      d.mfb.heldAtomics.find? (fun p => d.homeTakes p 3) = some p) ∧
    (∃ s : State, ∃ p : Packet, ∃ o : MfbOp, ∃ d : Dev, d = s.dev.take p ∧ d.opOf false p.src p.tag p.da = some o ∧ s.dev.respTakes p 1 = true ∧
      mopGet o.mop = true) ∧
    (∃ s : State, ∃ p : Packet, ∃ o : MfbOp, ∃ d : Dev, d = s.dev.take p ∧ d.opOf false p.src p.tag p.da = some o ∧ s.dev.respTakes p 2 = true ∧
      leAt p.payload 0 1 ≠ 0) ∧
    (∃ s : State, ∃ p : Packet, ∃ o : MfbOp, ∃ d : Dev, d = s.dev.take p ∧ d.opOf false p.src p.tag p.da = some o ∧ s.dev.respTakes p 2 = true ∧
      leAt p.payload 0 1 = 0 ∧ o.mop = 4) ∧
    (∃ s : State, ∃ p : Packet, ∃ o : MfbOp, ∃ d : Dev, d = s.dev.take p ∧ d.opOf false p.src p.tag p.da = some o ∧ s.dev.respTakes p 2 = true ∧
      leAt p.payload 0 1 = 0 ∧ o.mop ≠ 4) ∧
    (∃ s : State, ∃ p : Packet, ∃ o : MfbOp, ∃ d : Dev, d = s.dev.take p ∧ d.opOf false p.src p.tag p.da = some o ∧ s.dev.respTakes p 4 = true ∧
      leAt p.payload 0 1 ≠ 0) :=
  ⟨⟨tS ({ tMfb [] with mfb := { Mfb.init with hot := [tP 0 2 9 (vaultBase 0) 7 [1, 2]] } } : Dev), vaultBase 0 / 64, tP 0 2 9 (vaultBase 0) 7 [1, 2],
      by decide +kernel⟩,
   ⟨tS (({ tMfb [] with mfb := { Mfb.init with table := [⟨9, 7, 5, 0⟩] } } : Dev).modStp (fun t => { t with time := ms 10 })), (⟨9, 7, 5,
      0⟩ : MfbResult), ([] : List MfbResult), _, by decide +kernel, by decide +kernel, by decide +kernel, rfl, by decide +kernel⟩,
   ⟨tS (tIn (({ tMfb [] with mfb := { Mfb.init with table := [⟨9, 7, 5, 0⟩], heldAtomics := [tP 0 3 9 (vaultBase 0) 8 (zeros 32)] } } : Dev).modStp
      (fun t => { t with time := ms 10 })) (tP 0 3 9 (vaultBase 0) 8 (zeros 32))), (⟨9, 7, 5, 0⟩ : MfbResult), ([] : List MfbResult), _,
      tP 0 3 9 (vaultBase 0) 8 (zeros 32), by decide +kernel, by decide +kernel, by decide +kernel, rfl, by decide +kernel⟩,
   ⟨tS (tIn (tMfb [tMOp 1 id]) (tP 1 1 9 (vaultBase 0) 7 (zeros 8))), tP 1 1 9 (vaultBase 0) 7 (zeros 8), tMOp 1 id, _, rfl, by decide +kernel,
      by decide +kernel, by decide +kernel⟩,
   ⟨tS (tIn (tMfb [tMOp 3 id]) (tP 1 2 9 (vaultBase 0) 7 ([2]))), tP 1 2 9 (vaultBase 0) 7 ([2]), tMOp 3 id, _, rfl, by decide +kernel,
      by decide +kernel, by decide +kernel⟩,
   ⟨tS (tIn (tMfb [tMOp 4 id]) (tP 1 2 9 (vaultBase 0) 7 ([0]))), tP 1 2 9 (vaultBase 0) 7 ([0]), tMOp 4 id, _, rfl, by decide +kernel,
      by decide +kernel, by decide +kernel, by decide +kernel⟩,
   ⟨tS (tIn (tMfb [tMOp 3 id]) (tP 1 2 9 (vaultBase 0) 7 ([0]))), tP 1 2 9 (vaultBase 0) 7 ([0]), tMOp 3 id, _, rfl, by decide +kernel,
      by decide +kernel, by decide +kernel, by decide +kernel⟩,
   ⟨tS (tIn (tMfb [tMOp 1 id]) (tP 1 4 9 (vaultBase 0) 7 ([2]))), tP 1 4 9 (vaultBase 0) 7 ([2]), tMOp 1 id, _, rfl, by decide +kernel,
      by decide +kernel, by decide +kernel⟩⟩

theorem witness_HomeAgent_4 :
    (∃ d : Dev, ∃ k : Nat, ∃ o : MfbOp, d.op? k = some o ∧ o.pkts.all (·.acked) = true ∧ o.mop ≠ 4 ∧ o.notify = none ∧
      (∀ c n, o.origin ≠ .xfer c n)) ∧
    (∃ s : State, ∃ p : Packet, ∃ d : Dev, ∃ o : MfbOp, d = s.dev.take p ∧ s.dev.respTakes p 3 = true ∧ d.opOf true p.src p.tag p.da = some o ∧
      leAt p.payload 0 1 = 0) ∧
    (∃ s : State, ∃ p : Packet, ∃ d : Dev, d = s.dev.take p ∧ s.dev.respTakes p 3 = true ∧ d.opOf true p.src p.tag p.da = none) :=
  ⟨⟨tMfb [tMOp 3 (fun o => { o with pkts := [] })], 3, tMOp 3 (fun o => { o with pkts := [] }), by decide +kernel, by decide +kernel,
      by decide +kernel, by decide +kernel, fun _ _ h => by cases h⟩,
   ⟨tS (tIn (tMfb [tMOp 16 id]) (tP 1 3 9 (vaultBase 0) 7 (zeros 16))), tP 1 3 9 (vaultBase 0) 7 (zeros 16), _, tMOp 16 id, rfl, by decide +kernel,
      by decide +kernel, by decide +kernel⟩,
   ⟨tS (tIn (tMfb [tMOp 16 id]) (tP 1 3 9 (vaultBase 0) 8 (zeros 16))), tP 1 3 9 (vaultBase 0) 8 (zeros 16), _, rfl, by decide +kernel,
      by decide +kernel⟩⟩

theorem witness_StepsAndBarrier_1 :
    (∃ s : State, ∃ r : Nat, ∃ j : Desc, r < 16 ∧ Starts s r j ∧ j.opc = 0x60 ∧ s.dev.stepCfgCheck j = none ∧ s.dev.st = .ready) ∧
    (∃ s : State, ∃ r : Nat, ∃ j : Desc, r < 16 ∧ Starts s r j ∧ j.opc = 0x60 ∧ s.dev.stepCfgCheck j = none ∧ s.dev.st = .running) ∧
    (∃ s : State, ∃ r : Nat, ∃ j : Desc, r < 16 ∧ Starts s r j ∧ j.opc = 0xC0 ∧ j.reservedByte [] = none ∧ s.dev.st = .running) ∧
    (∃ s : State, ∃ r : Nat, ∃ j : Desc, r < 16 ∧ Starts s r j ∧ j.opc = 0xC1 ∧ j.reservedByte [] = none ∧ s.dev.st = .quiesced ∧
      s.dev.flt.exported = false) ∧
    (∃ s : State, s.dev.arrives = true) ∧
    (∃ s : State, ∃ p : Packet, ∃ d : Dev, ∃ e : BarHeld, s.dev.up = true ∧ s.dev.takes p 3 0x30 = true ∧ d = s.dev.take p ∧ e = barRecord p ∧
      d.barAge e.step e.attempt = .own) ∧
    (∃ s : State, ∃ p : Packet, ∃ d : Dev, ∃ e : BarHeld, s.dev.up = true ∧ s.dev.takes p 3 0x30 = true ∧ d = s.dev.take p ∧ e = barRecord p ∧
      d.barAge e.step e.attempt = .ahead) ∧
    (∃ s : State, ∃ p : Packet, ∃ d : Dev, ∃ e : BarHeld, s.dev.up = true ∧ s.dev.takes p 3 0x30 = true ∧ d = s.dev.take p ∧ e = barRecord p ∧
      d.barAge e.step e.attempt = .older) :=
  ⟨⟨tHead (tCar .ready [] |> fun d => ({ d with stp := Stp.init } : Dev)) (tJ [(0, 0x60), (24, 77), (28, 4), (38, 1)]), 0, tJ [(0, 0x60), (24, 77),
      (28, 4), (38, 1)], by decide +kernel⟩,
   ⟨tHead (tCar .running []) (tJ [(0, 0x60), (24, 77), (28, 4), (38, 1)]), 0, tJ [(0, 0x60), (24, 77), (28, 4), (38, 1)], by decide +kernel⟩,
   ⟨tHead (tCar .running []) (tJ [(0, 0xC0)]), 0, tJ [(0, 0xC0)], by decide +kernel⟩,
   ⟨tHead (tCar .quiesced []) (tJ [(0, 0xC1)]), 0, tJ [(0, 0xC1)], by decide +kernel⟩,
   ⟨tS (tCar .running []), by decide +kernel⟩,
   ⟨tS (tIn (tCar .running []) (tP 3 0x30 9 0 0 (leBytes 4 0 ++ leBytes 2 1 ++ [0, 0] ++ leBytes 4 1 ++ zeros 20))),
      tP 3 0x30 9 0 0 (leBytes 4 0 ++ leBytes 2 1 ++ [0, 0] ++ leBytes 4 1 ++ zeros 20), _,
      barRecord (tP 3 0x30 9 0 0 (leBytes 4 0 ++ leBytes 2 1 ++ [0, 0] ++ leBytes 4 1 ++ zeros 20)), by decide +kernel, by decide +kernel, rfl,
      by decide +kernel, by decide +kernel⟩,
   ⟨tS (tIn (tCar .running []) (tP 3 0x30 9 0 0 (leBytes 4 0 ++ leBytes 2 1 ++ [0, 2] ++ leBytes 4 1 ++ zeros 20))),
      tP 3 0x30 9 0 0 (leBytes 4 0 ++ leBytes 2 1 ++ [0, 2] ++ leBytes 4 1 ++ zeros 20), _,
      barRecord (tP 3 0x30 9 0 0 (leBytes 4 0 ++ leBytes 2 1 ++ [0, 2] ++ leBytes 4 1 ++ zeros 20)), by decide +kernel, by decide +kernel, rfl,
      by decide +kernel, by decide +kernel⟩,
   ⟨tS (tIn (tCar .running []) (tP 3 0x30 9 0 0 (leBytes 4 0xFFFFFFFF ++ leBytes 2 1 ++ [0, 0] ++ leBytes 4 1 ++ zeros 20))),
      tP 3 0x30 9 0 0 (leBytes 4 0xFFFFFFFF ++ leBytes 2 1 ++ [0, 0] ++ leBytes 4 1 ++ zeros 20), _,
      barRecord (tP 3 0x30 9 0 0 (leBytes 4 0xFFFFFFFF ++ leBytes 2 1 ++ [0, 0] ++ leBytes 4 1 ++ zeros 20)), by decide +kernel, by decide +kernel,
      rfl, by decide +kernel, by decide +kernel⟩⟩

theorem witness_StepsAndBarrier_2 :
    (∃ s : State, ∃ p : Packet, ∃ d : Dev, ∃ e : BarHeld, s.dev.up = true ∧ s.dev.takes p 3 0x30 = true ∧ d = s.dev.take p ∧ e = barRecord p ∧
      d.barAge e.step e.attempt = .other) ∧
    (∃ s : State, ∃ p : Packet, s.dev.up = true ∧ s.dev.takes p 3 0x31 = true) ∧
    (∃ s : State, s.dev.st = .running ∧ s.dev.stp.sends.any s.dev.barDue = true) ∧
    (∃ s : State, ∃ d : Dev, s.dev.st = .running ∧ (s.dev.stp.lastEdge = 0 ∨ us 1 + s.dev.stp.lastEdge ≤ s.dev.clk + 1) ∧
      d = s.dev.modStp (fun t => { t with lastEdge := s.dev.clk + 1 }) ∧ s.dev.stp.cfg.syncEn = false) ∧
    (∃ s : State, ∃ d : Dev, s.dev.st = .running ∧ (s.dev.stp.lastEdge = 0 ∨ us 1 + s.dev.stp.lastEdge ≤ s.dev.clk + 1) ∧
      d = s.dev.modStp (fun t => { t with lastEdge := s.dev.clk + 1 }) ∧ s.dev.stp.cfg.syncEn = true ∧ s.dev.stp.phase = .syncWait ∧
      s.dev.now ≤ s.dev.stp.winEnd) ∧
    (∃ s : State, ∃ d : Dev, s.dev.st = .running ∧ (s.dev.stp.lastEdge = 0 ∨ us 1 + s.dev.stp.lastEdge ≤ s.dev.clk + 1) ∧
      d = s.dev.modStp (fun t => { t with lastEdge := s.dev.clk + 1 }) ∧ s.dev.stp.cfg.syncEn = true ∧ s.dev.stp.phase ≠ .syncWait) ∧
    (∃ s : State, s.dev.st = .running ∧ s.dev.stp.phase = .syncWait ∧ s.dev.stp.winEnd ≤ s.dev.now) ∧
    (∃ s : State, s.dev.st = .running ∧ s.dev.stp.phase = .gap ∧ s.dev.stp.gapStart + s.dev.gapMax ≤ s.dev.now) :=
  ⟨⟨tS (tIn (tCar .running []) (tP 3 0x30 9 0 0 (leBytes 4 9 ++ leBytes 2 1 ++ [0, 0] ++ leBytes 4 1 ++ zeros 20))),
      tP 3 0x30 9 0 0 (leBytes 4 9 ++ leBytes 2 1 ++ [0, 0] ++ leBytes 4 1 ++ zeros 20), _,
      barRecord (tP 3 0x30 9 0 0 (leBytes 4 9 ++ leBytes 2 1 ++ [0, 0] ++ leBytes 4 1 ++ zeros 20)), by decide +kernel, by decide +kernel, rfl,
      by decide +kernel, by decide +kernel⟩,
   ⟨tS (tIn (tCar .running [] |> fun d => d.modStp (fun t => { t with sends := [⟨0, tP 3 0x30 7 0 0 (zeros 32), 0⟩] })) (tP 3 0x31 9 0 0 (zeros 8))),
      tP 3 0x31 9 0 0 (zeros 8), by decide +kernel⟩,
   ⟨tS (tCar .running [] |> fun d => d.modStp (fun t => { t with sends := [⟨0, tP 3 0x30 7 0 0 (zeros 32), 0⟩] })), by decide +kernel⟩,
   ⟨tS (tCar .running []), _, by decide +kernel, by decide +kernel, rfl, by decide +kernel⟩,
   ⟨tS ((tCar .running []).modStp (fun t => { t with phase := .syncWait, winEnd := 5, cfg := { t.cfg with syncEn := true } })), _, by decide +kernel,
      by decide +kernel, rfl, by decide +kernel, by decide +kernel, by decide +kernel⟩,
   ⟨tS ((tCar .running []).modStp (fun t => { t with cfg := { t.cfg with syncEn := true } })), _, by decide +kernel, by decide +kernel, rfl,
      by decide +kernel, by decide +kernel⟩,
   ⟨tS ((tCar .running []).modStp (fun t => { t with phase := .syncWait, committed := true })), by decide +kernel⟩,
   ⟨tS ((tCar .running []).modStp (fun t => { t with phase := .gap, time := ms 1 })), by decide +kernel⟩⟩

theorem witness_StepsAndBarrier_3 :
    (∃ s : State, s.dev.st = .running ∧ s.dev.stp.phase = .committing ∧ s.dev.blocksIdle = true ∧ s.dev.mirrorOut = 0) ∧
    (∃ s : State, s.dev.st = .running ∧ s.dev.stp.phase = .rolling ∧ s.dev.upd.phase ≠ .rolling ∧ s.dev.car.colls = [] ∧ s.dev.stp.timed = false) ∧
    (∃ s : State, s.dev.st = .running ∧ s.dev.stp.phase = .rolling ∧ s.dev.upd.phase = .rolling) ∧
    (∃ d : Dev, d.stp.cfg.syncEn = false) ∧
    (∃ s : State, s.dev.st = .running ∧ [.gap, .open, .arrived].contains s.dev.stp.phase = true ∧ s.dev.stp.fallback ≤ s.dev.now ∧ s.dev.runs = [] ∧
      s.dev.car.colls = []) ∧
    (∃ s : State, ∃ k : Nat × Nat, ∃ r : Run, s.dev.run? k = some r ∧ r.acquired = false) ∧
    (∃ s : State, ∃ p : Nat, ∃ b : List Byte, p < 48 ∧ s.dev.live = true ∧ s.dev.carries p = true ∧ ctlIs b 4 = true) ∧
    (∃ p : Nat, p < 48) :=
  ⟨⟨tS ((tCar .running []).modStp (fun t => { t with phase := .committing })), by decide +kernel⟩,
   ⟨tS ((tCar .running []).modStp (fun t => { t with phase := .rolling })), by decide +kernel⟩,
   ⟨tS ({ (tCar .running []).modStp (fun t => { t with phase := .rolling }) with upd := { Upd.init with phase := .rolling } } : Dev),
      by decide +kernel⟩,
   ⟨tCar .running [], by decide +kernel⟩,
   ⟨tS ((tCar .running []).modStp (fun t => { t with fallback := 5, time := 5 })), by decide +kernel⟩,
   ⟨tS ({ tCar .running [] with runs := [⟨(0, 0), 1, [(0, 0x100)], 0, 0, false, true, false, [], 0, 0, [], []⟩] } : Dev), (0, 0), (⟨(0, 0), 1, [(0,
      0x100)], 0, 0, false, true, false, [], 0, 0, [], []⟩ : Run), by decide +kernel⟩,
   ⟨tS (tPort 47 2 id), 47, tCtl 4 [], by decide +kernel⟩,
   ⟨47, by decide +kernel⟩⟩

theorem witness_Tightrope_1 :
    (∃ s : State, s.dev.inSt [.boot, .recovery, .ready, .running, .quiesced] = true) ∧
    (∃ s : State, ∃ j : Nat, s.dev.live = true ∧ s.dev.dividerTarget = some j ∧ j ≤ 5) ∧
    (∃ s : State, ∃ c : OpChange, s.dev.live = true ∧ s.dev.tgt.change = some c ∧ c.waits = true) ∧
    (∃ s : State, ∃ c : OpChange, s.dev.live = true ∧ s.dev.tgt.change = some c ∧ c.waits = true ∧ c.up = true ∧ c.since + us 500 ≤ s.dev.clk) ∧
    (∃ s : State, ∃ x : PowerSample, s.dev.live = true ∧ x.rails.length = 16 ∧ x.temps.length = 484 ∧ s.dev.tgt.sampleAt + us 10 ≤ s.dev.clk) ∧
    (∃ s : State, s.dev.live = true ∧ s.dev.fld Reg.TGT_STATUS.CRITICAL = 0 ∧ s.dev.fld Reg.TGT_STATUS.UNATTAINABLE = 0 ∧
      s.dev.fld Reg.TGT_STATUS.TARGET < 16 ∧ s.dev.bubble < 16 ∧ s.dev.bubble ≠ s.dev.fld Reg.TGT_STATUS.TARGET ∧
      s.dev.tgt.rampAt + s.dev.rampTime ≤ s.dev.clk) ∧
    (∃ s : State, ∃ n : Nat, s.dev.live = true ∧ n < 484 ∧ hasSensor n = true ∧ n < s.dev.tgt.temps.length) ∧
    (∃ s : State, s.dev.live = true ∧ s.dev.fld Reg.ARR_STATUS.EMERGENCY = 1 ∧ s.dev.tgt.holdAt + 100 ≤ s.dev.tgt.n ∧ s.dev.tgt.rho ≤ 1200) :=
  ⟨⟨tS (tLink .running), by decide +kernel⟩,
   ⟨tS ({ tLink .running with tgt := { Tgt.init with change := some ⟨5, false, false, 0⟩ } } : Dev), 5, by decide +kernel⟩,
   ⟨tS ({ tLink .running with tgt := { Tgt.init with change := some ⟨1, true, true, 0⟩ } } : Dev), (⟨1, true, true, 0⟩ : OpChange),
      by decide +kernel⟩,
   ⟨tS ({ tLink .running with tgt := { Tgt.init with change := some ⟨1, true, true, 0⟩ } } : Dev), (⟨1, true, true, 0⟩ : OpChange),
      by decide +kernel⟩,
   ⟨tS (tLink .running), (⟨List.replicate 16 (some (1000, 20000)), 0, 0, 0, List.replicate 484 30000⟩ : PowerSample), by decide +kernel⟩,
   ⟨tS (((tLink .running).setFld Reg.TGT_STATUS.TARGET 15).setFld Reg.ARR_STATUS.BUBBLE 14), by decide +kernel⟩,
   ⟨tS ({ tLink .running with tgt := { Tgt.init with temps := List.replicate 484 30000 } } : Dev), 483, by decide +kernel⟩,
   ⟨tS ({ (tLink .running).setFld Reg.ARR_STATUS.EMERGENCY 1 with tgt := { Tgt.init with n := 100, rho := 1200 } } : Dev), by decide +kernel⟩⟩

theorem witness_Tightrope_2 :
    (∃ s : State, s.dev.live = true ∧ s.dev.fld Reg.ARR_STATUS.EMERGENCY = 1 ∧ s.dev.tgt.holdAt + 100 ≤ s.dev.tgt.n ∧ 1200 < s.dev.tgt.rho) ∧
    (∃ s : State, s.dev.live = true ∧ s.dev.fld Reg.TGT_STATUS.RAMP_SLOW = 1 ∧ 100 ≤ s.dev.tgt.rhoLow) ∧
    (∃ s : State, s.dev.live = true ∧ s.dev.fld Reg.TGT_STATUS.CRITICAL = 1 ∧ s.dev.opPoint = 5 ∧ 100 ≤ s.dev.tgt.coolRun) ∧
    (∃ s : State, ∃ u : Nat, s.dev.live = true ∧ u < 9 ∧ 10000 ≤ Tab.get 0 s.dev.tgt.bandLow u ∧ 0 < s.dev.bandAt u) ∧
    (∃ s : State, s.dev.live = true ∧ s.dev.fld Reg.TGT_STATUS.TELEM_FAULT = 1 ∧ s.dev.tgt.faultAt + 6000000 < s.dev.tgt.n) ∧
    (∃ s : State, s.dev.live = true ∧ s.dev.fld Reg.TGT_STATUS.TELEM_FAULT = 0 ∧ s.dev.tgt.goodAt + 6000000 ≤ s.dev.tgt.n) ∧
    (∃ s : State, ∃ d : Dev, s.dev.live = true ∧ s.dev.tgt.tickAt + ms 1 ≤ s.dev.clk ∧
      d = (s.dev.modTgt (fun t => { t with tickAt := s.dev.clk })).powerBand ∧ (d.mayStep = false ∨ (d.stepDownWhy = none ∧ d.stepsUp = false))) ∧
    (∃ s : State, ∃ d : Dev, ∃ w : Nat, s.dev.live = true ∧ s.dev.tgt.tickAt + ms 1 ≤ s.dev.clk ∧
      d = (s.dev.modTgt (fun t => { t with tickAt := s.dev.clk })).powerBand ∧ d.mayStep = true ∧ d.stepDownWhy = some w) :=
  ⟨⟨tS ({ (tLink .running).setFld Reg.ARR_STATUS.EMERGENCY 1 with tgt := { Tgt.init with n := 100, rho := 1201 } } : Dev), by decide +kernel⟩,
   ⟨tS ({ (tLink .running).setFld Reg.TGT_STATUS.RAMP_SLOW 1 with tgt := { Tgt.init with rhoLow := 100 } } : Dev), by decide +kernel⟩,
   ⟨tS ({ ((tLink .running).setFld Reg.TGT_STATUS.CRITICAL 1).setFld Reg.TGT_STATUS.OP 5 with tgt := { Tgt.init with coolRun := 100 } } : Dev),
      by decide +kernel⟩,
   ⟨tS ({ (tLink .running).setFld Reg.TGT_STATUS.MIDWAY_BAND 1 with tgt := { Tgt.init with bandLow := [(8, 10000)] } } : Dev), 8, by decide +kernel⟩,
   ⟨tS ({ (tLink .running).setFld Reg.TGT_STATUS.TELEM_FAULT 1 with tgt := { Tgt.init with n := 6000001 } } : Dev), by decide +kernel⟩,
   ⟨tS ({ tLink .running with tgt := { Tgt.init with n := 6000000 } } : Dev), by decide +kernel⟩,
   ⟨tS ({ tLink .running with tgt := { Tgt.init with cnt := 1, lastChange := 1 } } : Dev), _, by decide +kernel, by decide +kernel, rfl,
      by decide +kernel⟩,
   ⟨tS ({ tLink .running with tgt := { Tgt.init with polHigh := 3, cnt := 1, pSum := 5000000, n := 99, lastChange := 0 } } : Dev), _, 3,
      by decide +kernel, by decide +kernel, rfl, by decide +kernel, by decide +kernel⟩⟩

theorem witness_Tightrope_3 :
    (∃ s : State, ∃ d : Dev, s.dev.live = true ∧ s.dev.tgt.tickAt + ms 1 ≤ s.dev.clk ∧
      d = (s.dev.modTgt (fun t => { t with tickAt := s.dev.clk })).powerBand ∧ d.mayStep = true ∧ d.stepDownWhy = none ∧ d.stepsUp = true) ∧
    (∃ s : State, ∃ r : Nat, ∃ j : Desc, s.dev.live = true ∧ r < 16 ∧ Starts s r j ∧ j.opc = 0x70 ∧ j.reservedByte [(24, 0, 32)] = none ∧
      1200 ≤ j.num 24 4 ∧ j.num 24 4 ≤ 3200 ∧ s.dev.tgt.setCap = none) ∧
    (∃ s : State, ∃ r : Nat, ∃ j : Desc, s.dev.live = true ∧ r < 16 ∧ Starts s r j ∧ j.opc = 0x70 ∧ j.reservedByte [(24, 0, 32)] = none ∧
      (j.num 24 4 < 1200 ∨ 3200 < j.num 24 4)) ∧
    (∃ s : State, ∃ r : Nat, ∃ j : Desc, s.dev.live = true ∧ r < 16 ∧ Starts s r j ∧ j.opc = 0x71 ∧
      j.reservedByte [(24, 0, 16), (28, 0, 32)] = none ∧ j.num 24 2 = 1 ∧ j.num 28 4 ≤ 1) ∧
    (∃ s : State, ∃ r : Nat, ∃ j : Desc, s.dev.live = true ∧ r < 16 ∧ Starts s r j ∧ j.opc = 0x71 ∧
      j.reservedByte [(24, 0, 16), (28, 0, 32)] = none ∧ j.num 24 2 = 2 ∧ j.num 28 4 ≤ 5) ∧
    (∃ s : State, ∃ r : Nat, ∃ j : Desc, s.dev.live = true ∧ r < 16 ∧ Starts s r j ∧ j.opc = 0x71 ∧
      j.reservedByte [(24, 0, 16), (28, 0, 32)] = none ∧ j.num 24 2 = 3 ∧ 1 ≤ j.num 28 4 ∧ j.num 28 4 ≤ 10000) ∧
    (∃ s : State, ∃ r : Nat, ∃ j : Desc, s.dev.live = true ∧ r < 16 ∧ Starts s r j ∧ j.opc = 0x71 ∧
      j.reservedByte [(24, 0, 16), (28, 0, 32)] = none ∧ j.num 24 2 = 4 ∧ 100 ≤ j.num 28 4 ∧ j.num 28 4 ≤ 10000) ∧
    (∃ s : State, ∃ r : Nat, ∃ j : Desc, s.dev.live = true ∧ r < 16 ∧ Starts s r j ∧ j.opc = 0x71 ∧
      j.reservedByte [(24, 0, 16), (28, 0, 32)] = none ∧ j.num 24 2 = 1 ∧ 1 < j.num 28 4) :=
  ⟨⟨tS ({ (tLink .running).setFld Reg.TGT_STATUS.OP 5 with tgt := { Tgt.init with cnt := 1, bZero := 1000, headroom := 100000000, calm := 1000 } } :
      Dev), _, by decide +kernel, by decide +kernel, rfl, by decide +kernel, by decide +kernel, by decide +kernel⟩,
   ⟨tHead (tLink .running) (tJ [(0, 0x70), (24, 3200)]), 0, tJ [(0, 0x70), (24, 3200)], by decide +kernel⟩,
   ⟨tHead (tLink .running) (tJ [(0, 0x70), (24, 3201)]), 0, tJ [(0, 0x70), (24, 3201)], by decide +kernel⟩,
   ⟨tHead (tLink .running) (tJ [(0, 0x71), (24, 1), (28, 1)]), 0, tJ [(0, 0x71), (24, 1), (28, 1)], by decide +kernel⟩,
   ⟨tHead (tLink .running) (tJ [(0, 0x71), (24, 2), (28, 5)]), 0, tJ [(0, 0x71), (24, 2), (28, 5)], by decide +kernel⟩,
   ⟨tHead (tLink .running) (tJ [(0, 0x71), (24, 3), (28, 10000)]), 0, tJ [(0, 0x71), (24, 3), (28, 10000)], by decide +kernel⟩,
   ⟨tHead (tLink .running) (tJ [(0, 0x71), (24, 4), (28, 100)]), 0, tJ [(0, 0x71), (24, 4), (28, 100)], by decide +kernel⟩,
   ⟨tHead (tLink .running) (tJ [(0, 0x71), (24, 1), (28, 2)]), 0, tJ [(0, 0x71), (24, 1), (28, 2)], by decide +kernel⟩⟩

theorem witness_Tightrope_4 :
    ∃ s : State, ∃ r : Nat, ∃ j : Desc, s.dev.live = true ∧ r < 16 ∧ Starts s r j ∧ j.opc = 0x90 ∧ j.num 24 1 = 3 ∧
      j.reservedByte [(24, 0, 8)] = none :=
  ⟨tHead (tLink .running) (tJ [(0, 0x90), (24, 3)]), 0, tJ [(0, 0x90), (24, 3)], by decide +kernel⟩

/-! ### A signed image and a sealed Act

Whether one is valid rests on constants of the part: what follows holds for a part whose key slot 0 is fused to the image's key, and
one whose storage key is zero. -/

/-- An image header signed with a key made for these tests, for a body of one zero byte. -/
def tHdr : List Byte :=
  fill 1024 [(0, 0x57465A43),
    (4, 1),
    (8, 1),
    (32, 0x1DA0AF1706A31185763837B33F1D90782C0A78BBE644A59C987AB3FF9C0B346E),
    (64, 0x855CC1C12DC59BCD110899E66D8252510E8B0A337B8BE8C8668B40C858078FB2C4CDE6F398B1F6C5CCBA7BF70393C1BC),
    (112, 0xE54D54E8DDFF967A3785E7F450D719CF126B20E7F12764317569AFA3249281DEAC20F216F4CC18DCD3647900A5E6C5E6),
    (160, 0x88FEC16C60F6ADCB087D4E1B15B35B6AE23CD0B76605CD163D7EF56E4AC4A9B4D44D19065EDD78536DA4FFF92E2E03BA),
    (208, 0x953E05C7B01AFCBA074A3798B061FF6A4243629956D78D5FBE54BDE77D77B21BC79A2CD6FEB89501A386247E90936DAC),
    (256, 0x55FAA0C391561D5644F770F16AB65660831B051FC2B8EBCFADBB974593FCFCE1F39E155FBD0A4402AC8B5DDFE1D87ED6),
    (304, 0xF62E88F88D5BFB45C65272FDA751F62C34B764BD1BDA28647322FDEDE199EC9F773072C1E8C588D2236C208795FE4BC1),
    (352, 0x4D8499AD03310B2EEAAF866ABE9003C850060727F6260FDEE46567FD85BE5BEE75146C20BEFC9855A592B38275F80654),
    (400, 0x73F841531BDAF7711140EC967D545A949BC185F95A90AEEB006331E2090518D5E5A15CA78E60DAF9B8417563335C9E66),
    (448, 0x10001),
    (640, 0xE80A4A7002636A346EA3B21B970D56872A6C9DBC4C8F4DDF4E374D4FE40E4C372378B532DE7C4BA78F3A32DEED0FAC7F),
    (688, 0xB5A686A94B8577457EF47A6D320AE5108D446D610709AB6D7D87B77248D729F973859F44C8C1740E7CB6698E6D39D072),
    (736, 0x41D087CD8FA7A8448AB41DBEA6B8AFEF90E5F406C8411C5DE06B1EC9720259127AB4CEBCACC02A71F5716086205BE4BF),
    (784, 0x5250EB188CA5F2D21BB6A7A2027E26095A67B28A46C1FCD34186A2F611862E2DA08F9C106228497EB95E1C80DB92B686),
    (832, 0x386201D1C0A083400DA4FFD1F6E28D2265B57A4C87A845440AE2DD748ECB706E26C0FD0F7282D201EDCFEDCADE0093EA),
    (880, 0x7C8E2D5282A7E030C9B9D45B473516A580247AA2331254E2C85A1C50797C08E75648B1F633E27EB77656E9F1C47C1BB5),
    (928, 0x6C0C41D89EA41D3D4C590B993C8E9F1757D9CBA6B8D127D6A4A6401A66839A59582F20CFE63FB94729B15FA397B01D46),
    (976, 0xFA36728908FE4441E75CE4FAECAE289C4CA4C4E63F024A7E4542229AA0A11223907D84FE5B45399EC80061E6FB7C3F37)]

/-- An image that passes every check. -/
theorem imageCause_zero (d : Dev) (h b : List Byte) (h1 : hdrFormatOk h = true) (h2 : Config.keyHash (leAt h 6 1) = sha256 (slice h 64 388))
    (h3 : bit d.fuses.revoked (leAt h 6 1) = false) (h4 : pssVerify (slice h 64 384) 65537 (slice h 640 384) (slice h 0 640) = true)
    (h5 : sha256 (b.take (leAt h 8 4)) = slice h 32 32) (h6 : d.fuses.svn ≤ leAt h 12 1) : d.imageCause h b = 0 := by
  simp [Dev.imageCause, h1, h2, h3, h4, h5, Nat.not_lt.mpr h6]

theorem tHdr_format : hdrFormatOk tHdr = true := by decide +kernel

theorem tHdr_signed : pssVerify (slice tHdr 64 384) 65537 (slice tHdr 640 384) (slice tHdr 0 640) = true := by decide +kernel

/-- The image passes on a part with its key. -/
theorem tHdr_cause (hk : Config.keyHash 0 = sha256 (slice tHdr 64 388)) (d : Dev) (hr : d.fuses = Fuses.init) :
    d.imageCause tHdr [0] = 0 :=
  imageCause_zero d tHdr [0] tHdr_format (by rw [show leAt tHdr 6 1 = 0 by decide +kernel]; exact hk)
    (by rw [hr]; decide +kernel) tHdr_signed (by decide +kernel) (by rw [hr]; decide +kernel)

/-- Bytes that stand in a table from an address on. -/
def tTab (a : Nat) (l : List Byte) : Tab Byte := (List.range' a l.length).zip l

theorem get_tTab (z : Byte) (l : List Byte) : ∀ a i, i < l.length → Tab.get z (tTab a l) (a + i) = l.getD i z := by
  induction l with
  | nil => intro a i h; simp at h
  | cons b r ih =>
    intro a i h
    cases i with
    | zero => simp [tTab, Tab.get, List.range'_succ]
    | succ k =>
      have := ih (a + 1) k (by simpa using h)
      simp only [tTab, List.length_cons, List.range'_succ, List.zip_cons_cons, Tab.get] at this ⊢
      rw [if_neg (by omega), show a + (k + 1) = a + 1 + k by omega, this]
      simp

theorem map_tTab (z : Byte) (l : List Byte) (a k n : Nat) (h : k + n ≤ l.length) :
    (List.range n).map (fun i => Tab.get z (tTab a l) (a + k + i)) = (l.drop k).take n := by
  apply List.ext_getElem
  · simp; omega
  · intro i h1 h2
    simp only [List.length_map, List.length_range] at h1
    rw [List.getElem_map, List.getElem_range, show a + k + i = a + (k + i) by omega, get_tTab z l a (k + i) (by omega)]
    simp [List.getElem?_eq_getElem (show k + i < l.length by omega)]

theorem tHdr_length : tHdr.length = 1024 := by
  rw [tHdr, fill, length_leBytes]

theorem tHdr_body : leAt tHdr 8 4 = 1 := by decide +kernel

/-- The image passes where its bytes stand in a table. -/
theorem tImage_take (z : Byte) (a : Nat) : (List.range 1024).map (fun i => Tab.get z (tTab a (tHdr ++ [0])) (a + i)) = tHdr ∧
    (List.range 1).map (fun i => Tab.get z (tTab a (tHdr ++ [0])) (a + 1024 + i)) = [0] ∧
    (List.range 1025).map (fun i => Tab.get z (tTab a (tHdr ++ [0])) (a + i)) = tHdr ++ [0] := by
  have h0 := map_tTab z (tHdr ++ [0]) a 0 1024 (by simp [tHdr_length])
  have h1 := map_tTab z (tHdr ++ [0]) a 1024 1 (by simp [tHdr_length])
  have h2 := map_tTab z (tHdr ++ [0]) a 0 1025 (by simp [tHdr_length])
  refine ⟨?_, ?_, ?_⟩
  · simpa [List.take_append_of_le_length, List.take_of_length_le, tHdr_length] using h0
  · simpa [List.drop_append_of_le_length, List.drop_of_length_le, tHdr_length] using h1
  · simpa [List.take_of_length_le, tHdr_length] using h2

/-- A device in BOOT whose flash holds the image. -/
def tFlashBoot : Dev := { tDev .boot with boot := { Boot.init with phase := .rom }, flash := tTab 0 (tHdr ++ [0]) }

theorem witness_BootImage_signed (hk : Config.keyHash 0 = sha256 (slice tHdr 64 388)) :
    ∃ s : State, s.dev.st = .boot ∧ s.dev.boot.phase = .rom ∧ s.dev.flashCause false = 0 := by
  refine ⟨tS tFlashBoot, rfl, rfl, ?_⟩
  have h1 : tFlashBoot.flashRead 0 1024 = tHdr := (tImage_take 0xFF 0).1
  have h2 : tFlashBoot.flashRead 1024 1 = [0] := by
    have := (tImage_take 0xFF 0).2.1
    rw [Nat.zero_add] at this
    exact this
  simp only [tS, Dev.flashCause, h1, tHdr_body, h2, tHdr_format, Bool.false_eq_true, if_false, if_true]
  exact tHdr_cause hk _ rfl

/-- A device in a state with the image at Midway offset 0. -/
def tImage (st : DevState) : Dev := { ((tLink st).setFld Reg.SEC_RCV_LEN.LEN 1025).setFld Reg.SEC_STAGE_BASE.BASE 0 with mem := tTab midwayBase (tHdr ++ [0]) }

theorem witness_RecoveryProgram_signed (hk : Config.keyHash 0 = sha256 (slice tHdr 64 388)) :
    ∃ s : State, s.dev.st = .recovery ∧ s.dev.fld Reg.SEC_RCV_CTRL.STATUS ≠ 1 ∧ s.dev.rcvCause = 0 := by
  refine ⟨tS (tImage .recovery), rfl, by decide +kernel, ?_⟩
  have h1 : (tImage .recovery).rcvHeader = tHdr := (tImage_take 0 midwayBase).1
  have h2 : (tImage .recovery).read (midwayBase + 1024) 1 = [0] := (tImage_take 0 midwayBase).2.1
  have h3 : ((tImage .recovery).fld Reg.SEC_RCV_LEN.LEN != 1024 + 1) = false := by decide +kernel
  simp only [tS, Dev.rcvCause, h1, tHdr_body, h2, h3, tHdr_format, Bool.false_eq_true, if_false, if_true]
  exact tHdr_cause hk _ rfl

theorem slice_of_le (l : List Byte) (a n : Nat) (h : a + n ≤ l.length) : slice l a n = (l.drop a).take n := by
  rw [slice, padTo, List.take_append_of_le_length (by simp; omega)]

theorem slice_append (l m : List Byte) (a n : Nat) (h : a + n ≤ l.length) : slice (l ++ m) a n = slice l a n := by
  rw [slice_of_le _ _ _ h, slice_of_le _ _ _ (by simp; omega), List.drop_append_of_le_length (by omega),
    List.take_append_of_le_length (by simp; omega)]

theorem slice_self (l m : List Byte) (n : Nat) (h : l.length = n) : slice (l ++ m) 0 n = l := by
  rw [slice_append _ _ _ _ (by omega), slice_of_le _ _ _ (by omega), List.drop_zero, List.take_of_length_le (by omega)]

theorem slice_rest (l m : List Byte) (a n : Nat) (h : l.length = a) (hm : m.length = n) : slice (l ++ m) a n = m := by
  rw [slice_of_le _ _ _ (by simp; omega), List.drop_append_of_le_length (by omega), List.drop_of_length_le (by omega), List.nil_append,
    List.take_of_length_le (by omega)]

theorem read_tTab (d : Dev) (a : Nat) (l : List Byte) (h : d.mem = tTab a l) (n : Nat) (hn : l.length = n) : d.read a n = l := by
  have := map_tTab 0 l a 0 n (by omega)
  rw [List.drop_zero, List.take_of_length_le (by omega), Nat.add_zero] at this
  rw [← this, ← h]; rfl

theorem flashRead_tTab (d : Dev) (a : Nat) (l : List Byte) (h : d.flash = tTab a l) (n : Nat) (hn : l.length = n) :
    d.flashRead a n = l := by
  have := map_tTab 0xFF l a 0 n (by omega)
  rw [List.drop_zero, List.take_of_length_le (by omega), Nat.add_zero] at this
  rw [← this, ← h]; rfl

/-- A package that is an image passes where the image's checks pass. -/
theorem commitCause_image (d : Dev) (h b : List Byte) (n : Nat) (hl : h.length = 1024) (hi : isImage h = true) (hn : n = 1024 + leAt h 8 4)
    (hc : d.imageCause h b = 0) : d.commitCause (h ++ b) n = 0 := by
  have h2 : isImage (h ++ b) = true := by rw [isImage, slice_append _ _ _ _ (by omega)]; exact hi
  have h3 : leAt (h ++ b) 8 4 = leAt h 8 4 := by rw [leAt, slice_append _ _ _ _ (by omega), leAt]
  have h5 : (h ++ b).drop 1024 = b := by
    rw [List.drop_append_of_le_length (by omega), List.drop_of_length_le (by omega), List.nil_append]
  rw [Dev.commitCause, h2, h3, slice_self _ _ _ hl, h5, hc, hn]
  simp

/-- Copy c of slot a holds a valid Act: its key unwraps, its tag holds. -/
theorem actCopy_of (d : Dev) (a c : Nat) (l t k : List Byte) (hl : l.length = 4064) (ht : t.length = 32)
    (hf : d.flash = tTab (actAddr a c) (l ++ t)) (hu : keyUnwrap Config.storageKey (slice l 56 40) = some k) (hh : hmac k l = t)
    (hm : slice l 0 4 = [0x43, 0x5A, 0x41, 0x43]) : d.actCopy a c = some (l ++ t) := by
  have h0 := flashRead_tTab d _ _ hf 4096 (by simp [hl, ht])
  have hk : actKey (l ++ t) = some k := by
    rw [actKey, slice_append _ _ _ _ (by omega), hu]
    simp [slice_self _ _ _ hl, slice_rest _ _ _ _ hl ht, hh]
  have h4 : slice (l ++ t) 0 4 = [0x43, 0x5A, 0x41, 0x43] := by rw [slice_append _ _ _ _ (by omega), hm]
  unfold Dev.actCopy
  simp only [h0, hk, h4]
  simp

/-- An Act of copy 0 is in force. -/
theorem actInForce_of (d : Dev) (a : Nat) (r : List Byte) (h : d.actCopy a 0 = some r) : (d.actInForce a).isNone = false := by
  unfold Dev.actInForce
  rw [h]
  cases d.actCopy a 1 with
  | none => rfl
  | some y => simp only; split <;> rfl

theorem witness_SecurityCommands_signed (hk : Config.keyHash 0 = sha256 (slice tHdr 64 388)) :
    ∃ (s : State) (j : Desc), Starts s 0 j ∧ j.opc = 0xD2 ∧ j.reservedByte [(24, 0, 32)] = none ∧ s.dev.st = .ready ∧
      s.dev.readErr s.dev.stageBase (min j.imageLen 16777216) = none ∧ s.dev.commitCause (s.dev.package j.imageLen) j.imageLen = 0 := by
  refine ⟨tHead (tImage .ready) (tJ [(0, 0xD2), (24, 1025)]), tJ [(0, 0xD2), (24, 1025)], by decide +kernel, by decide +kernel,
    by decide +kernel, rfl, by decide +kernel, ?_⟩
  have h0 : (tJ [(0, 0xD2), (24, 1025)]).imageLen = 1025 := by decide +kernel
  have hb : (tHead (tImage .ready) (tJ [(0, 0xD2), (24, 1025)])).dev.stageBase = midwayBase := by decide +kernel
  have hm : min 1025 16777216 = 1025 := by decide
  have hr := read_tTab (tHead (tImage .ready) (tJ [(0, 0xD2), (24, 1025)])).dev midwayBase (tHdr ++ [0]) rfl 1025 (by simp [tHdr_length])
  rw [h0, Dev.package, hb, hm, hr]
  exact commitCause_image _ _ _ _ tHdr_length (by decide +kernel) (by rw [tHdr_body]) (tHdr_cause hk _ rfl)

/-- A key of zeros wrapped under a storage key of zeros. -/
def tWrap : List Byte := leBytes 40 393150570641865168032619564001187215054311728603841309567518613402294347106851600390913302737303

/-- An Act sealed with a key of zeros that its bytes 56 to 95 wrap; 0xFF where nothing is checked. -/
def tAct : List Byte := (leBytes 4 0x43415A43 ++ List.replicate 52 0xFF ++ tWrap) ++ List.replicate 3968 0xFF

/-- A device whose flash holds that Act in slot 0. -/
def tActDev : Dev := { tLink .ready with flash := tTab (actAddr 0 0) (tAct ++ hmac (zeros 32) tAct) }

theorem tHead_flash (d : Dev) (f : Tab Byte) (j : Desc) : (tHead ({ d with flash := f } : Dev) j).dev.flash = f := rfl

theorem witness_SecurityCommands_sealed (hk : keyUnwrap Config.storageKey tWrap = some (zeros 32)) :
    ∃ (s : State) (j : Desc), Starts s 0 j ∧ j.opc = 0x80 ∧ s.dev.actSelectCheck j = none := by
  refine ⟨tHead tActDev (tJ [(0, 0x80)]), tJ [(0, 0x80)], by decide +kernel, by decide +kernel, ?_⟩
  have hl : tAct.length = 4064 := by
    rw [tAct, List.length_append, List.length_replicate]; decide +kernel
  have hs : ∀ a n, a + n ≤ 96 → slice tAct a n = slice (leBytes 4 0x43415A43 ++ List.replicate 52 0xFF ++ tWrap) a n := by
    intro a n h
    rw [tAct, slice_append]
    exact h
  have hf := tHead_flash (tLink .ready) (tTab (actAddr 0 0) (tAct ++ hmac (zeros 32) tAct)) (tJ [(0, 0x80)])
  have h1 := actInForce_of (tHead tActDev (tJ [(0, 0x80)])).dev 0 _ (actCopy_of _ 0 0 tAct (hmac (zeros 32) tAct) (zeros 32) hl (length_hmac _ _) hf
    (by rw [hs 56 40 (by decide), show slice (leBytes 4 0x43415A43 ++ List.replicate 52 0xFF ++ tWrap) 56 40 = tWrap by decide +kernel]
        exact hk) rfl
    (by rw [hs 0 4 (by decide)]; decide +kernel))
  have h2 : (tJ [(0, 0x80)]).fb 24 0 2 = 0 := by decide +kernel
  have h3 : (tHead tActDev (tJ [(0, 0x80)])).dev.stateCheck [.ready] = none := by decide +kernel
  have h4 : (tJ [(0, 0x80)]).reserved [(24, 0, 2)] = none := by decide +kernel
  rw [Dev.actSelectCheck, h2, h3, h4, h1]
  rfl

end Sys2Proof.Machine
end

section
/-! # The scope of the model: the state after reset, the queue, and what HALTED leaves running

Settles O6 and O4, and refutes O13. -/

namespace Sys2Proof.Machine

/-! ## The state after reset -/

/-- Settles O6: every clause is a computation on `Dev.init`. -/
theorem resetState : Obligations.ResetState := by
  unfold Obligations.ResetState
  exact ⟨rfl, rfl, rfl, memWf_reset, fun _ => rfl, rfl, rfl, rfl, rfl, rfl, rfl, rfl, by decide⟩

/-! ## The queue -/

/-- A step with a well-formed command at the front of the queue answers a next state that holds the queue's rest. -/
theorem step_front_pending {c : Instr} {rest : List Instr} {s : State} (hp : s.pending = c :: rest) (hc : c.wf = true) :
    ∃ t, step s = .next t ∧ t.pending = rest := by
  obtain ⟨due, f, hx⟩ := exec_shape c { s with pending := rest }
  have hs : step s = State.run { s with pending := rest } c.wf due f := by rw [step, hp]; exact hx
  cases due with
  | false => exact ⟨_, hs.trans (State.run_idle hc rfl), rfl⟩
  | true => exact ⟨_, hs.trans (State.run_next hc rfl), rfl⟩

/-- Settles O4: a step keeps the queue, when it is empty, or takes its well-formed front away. -/
theorem wellFormedQueueRuns : Obligations.WellFormedQueueRuns := by
  unfold Obligations.WellFormedQueueRuns
  intro s h
  cases hp : s.pending with
  | nil =>
    refine ⟨{ s with dev := s.dev.tick }, ?_, ?_⟩
    · rw [step, hp]
    · simp [hp]
  | cons c rest =>
    rw [hp] at h
    obtain ⟨t, ht, hr⟩ := step_front_pending hp (h c List.mem_cons_self)
    exact ⟨t, ht, hr ▸ fun x hx => h x (List.mem_cons_of_mem c hx)⟩

/-! ## What HALTED leaves running

A write of the host into a mirrored page goes to the mirror's peer in HALTED too (BAR2 answers there, R6), and before it go the
packets of PUT_LINE that wait for the line: the write moves what the optical ports hold. -/

/-- The fabric's self, torus and route to element 5, the mirror of page 0 to element 5, and port 0 UP. -/
def mirrorRegs : List (Field × Nat) :=
  [(Reg.FAB_SELF.FLAT_ID, 7), (Reg.FAB_TORUS_DIM.DX, 2), (Reg.FAB_BLOCK_SIZE.SX, 2), (Reg.FAB_ROUTE.KIND 5, 1),
   (Reg.FAB_ROUTE.X 5, 1), (Reg.VLT_MIRROR_PEER.FLAT_ID, 5), (Reg.VLT_MIRROR_PEER.ENABLE, 1),
   (Reg.VLT_MIRROR_PEER.STATE, 1), (Reg.VLT_MIRROR_SRC.PAGES 0, 1), (Reg.OPT_PORT_STATUS.STATE 0, 2)]

/-- A PUT_LINE along axis 0 with one packet of one byte unsent. -/
def unsentPutLine : MfbOp := ⟨1, 4, .desc 0 0, 0, 0, 0, 1, true, 0, none, [freshPkt 0 1 [0]], 0, 0, 0, 0, 0, []⟩

/-- A locked device in HALTED that mirrors page 0 to element 5 and holds that PUT_LINE. -/
def mirrorHalted : Dev :=
  mirrorRegs.foldl (fun d e => d.setFld e.1 e.2)
    { Dev.init with
      st := .halted
      locked := true
      hq := { HQ.init with pcieUp := true }
      mfb := { Mfb.init with ops := [unsentPutLine] } }

/-- The device after one step on the command `c`, when the step answers a next state. -/
def devAfter (d : Dev) (c : Instr) : Option Dev :=
  match step ⟨d, [c]⟩ with
  | .next t => some t.dev
  | _ => none

theorem step_of_devAfter {d e : Dev} {c : Instr} (h : devAfter d c = some e) : ∃ t, step ⟨d, [c]⟩ = .next t ∧ t.dev = e := by
  unfold devAfter at h
  cases hs : step ⟨d, [c]⟩ with
  | next t => rw [hs] at h; exact ⟨t, rfl, Option.some.inj h⟩
  | fault r => rw [hs] at h; cases h
  | refused r => rw [hs] at h; cases h

/-- The host's write of one byte at BAR2 address 0 keeps `mirrorHalted` in HALTED and changes what its optical ports hold. -/
theorem mirrorHalted_bar2Write :
    (devAfter mirrorHalted (.bar2Write 0 [1] ⟨[], []⟩)).map (fun e => (decide (e.st = .halted), decide (e.opt = mirrorHalted.opt))) =
      some (true, false) := by
  decide +kernel

/-- Refutes O13: in HALTED the host's write into a mirrored page sends the waiting packet of PUT_LINE to an optical port. -/
theorem not_haltedUntilReset : ¬ Obligations.HaltedUntilReset := by
  unfold Obligations.HaltedUntilReset
  intro h
  obtain ⟨e, he, hv⟩ := Option.map_eq_some_iff.mp mirrorHalted_bar2Write
  obtain ⟨t, hs, rfl⟩ := step_of_devAfter he
  have hst : t.dev.st = .halted := of_decide_eq_true (congrArg Prod.fst hv)
  have hopt : t.dev.opt ≠ mirrorHalted.opt := of_decide_eq_false (congrArg Prod.snd hv)
  rcases h ⟨mirrorHalted, _⟩ t (by decide +kernel) hs with hr | ⟨_, _, _, _, _, ho, _⟩
  · rw [hst] at hr; cases hr
  · exact hopt ho

end Sys2Proof.Machine
end

section
/-! # Register writes: their frame, and the access codes

Settles O19 and O18. -/

namespace Sys2Proof.Machine

variable {d e : Dev}

/-! ## The frame of a register write -/

/-- Register fields and event counters change alone, and the times since when waits on counters are met. -/
def Dev.RegsOnly (d e : Dev) : Prop :=
  e = { d with regs := e.regs, evt := e.evt, mfb := e.mfb, met := e.met } ∧ e.mfb = { d.mfb with ringSince := e.mfb.ringSince }

theorem Dev.RegsOnly.refl (d : Dev) : d.RegsOnly d := ⟨rfl, rfl⟩

theorem Dev.RegsOnly.trans {g : Dev} (h : d.RegsOnly e) (h' : e.RegsOnly g) : d.RegsOnly g := by
  obtain ⟨hd, hm⟩ := h
  obtain ⟨hd', hm'⟩ := h'
  exact ⟨by rw [hd', hd], by rw [hm', hm]⟩

theorem Dev.RegsOnly.of_regs {r : Tab Nat} (h : e = { d with regs := r }) : d.RegsOnly e := by
  subst h
  exact ⟨rfl, rfl⟩

theorem Dev.evtSet_regsOnly (d : Dev) (i v : Nat) : d.RegsOnly (d.evtSet i v) := ⟨rfl, rfl⟩

theorem Dev.evtData_regsOnly (d : Dev) (v : Nat) : d.RegsOnly (d.evtData v) := by
  unfold Dev.evtData
  split
  · exact .of_regs rfl
  · exact d.evtSet_regsOnly _ _

theorem Dev.writeReg_regsOnly (d : Dev) (g : RegRow) (i v : Nat) : d.RegsOnly (d.writeReg g i v) := by
  unfold Dev.writeReg
  split
  · exact d.evtData_regsOnly v
  · split
    · exact .refl d
    · obtain ⟨r, hr⟩ := Dev.writeFields_shape (g.fields.map (g.field i)) v d
      simp only [hr]
      split <;> split <;> exact .of_regs rfl

theorem Dev.write32_regsOnly (d : Dev) (off v : Nat) : d.RegsOnly (d.write32 off v) := by
  unfold Dev.write32
  split
  · split
    · exact .refl d
    · exact d.writeReg_regsOnly _ _ _
  · exact .refl d

theorem Dev.write64_regsOnly (d : Dev) (off v : Nat) : d.RegsOnly (d.write64 off v) := by
  unfold Dev.write64
  split
  · split
    · exact d.writeReg_regsOnly _ _ _
    · exact (d.writeReg_regsOnly _ _ _).trans (Dev.write32_regsOnly _ _ _)
  · exact d.write32_regsOnly _ _

theorem Dev.bar32_regsOnly (d : Dev) {off : Nat} (v : Nat) (hl : off ≠ 0xC) (hr : off ≠ 0x100064) : d.RegsOnly (d.bar32 off v) := by
  unfold Dev.bar32
  rw [if_neg hl, if_neg hr]
  split
  · exact .refl d
  · split
    · exact .of_regs rfl
    · exact d.write32_regsOnly off v

/-- A write of BAR0 that reaches neither GLB_SETUP_LOCK nor SEC_RCV_CTRL, in its low word or in its high word. -/
theorem Dev.barWrite_regsOnly (d : Dev) {off n : Nat} (v : Nat) (hl : off ≠ 0xC) (hl' : off + n ≠ 0x10) (hr : off ≠ 0x100064)
    (hr' : off + n ≠ 0x100068) : d.RegsOnly (d.barWrite off n v) := by
  unfold Dev.barWrite
  split
  · exact d.bar32_regsOnly v hl hr
  · split
    next h8 =>
      obtain ⟨rfl, _⟩ : n = 8 ∧ off % 8 = 0 := by simpa using h8
      have high (e : Dev) : e.RegsOnly (e.bar32 (off + 4) (v / 2 ^ 32)) := e.bar32_regsOnly _ (by omega) (by omega)
      split
      · split
        · split
          · exact d.write64_regsOnly off v
          · exact .refl d
        · exact (d.bar32_regsOnly _ hl hr).trans (high _)
      · exact high d
    next => exact .refl d

/-- Settles O19: what `barWrite` changes, whatever the width of the write and the state of the device. -/
theorem registerWriteFrame : Obligations.RegisterWriteFrame := by
  unfold Obligations.RegisterWriteFrame
  intro s t off n v h hl hl' hr hr'
  rw [exec, execRegisterWrite] at h
  obtain ⟨_, ⟨_, rfl⟩ | ⟨_, rfl⟩⟩ := State.run_cases h
  · exact s.dev.barWrite_regsOnly v hl hl' hr hr'
  · exact Dev.RegsOnly.refl _

/-! ## The access codes -/

/-- A write of BAR0 that PCIe carries and whose operands are in range does what `barWrite` does. -/
theorem gives_registerWrite {s : State} {off n v : Nat} (hs : s.dev.barUp = true) (ho : off < 0x1000000) (hn : n ≤ 4096)
    (hv : v < 2 ^ (8 * n)) : Gives (.registerWrite off n v) s (s.dev.barWrite off n v) := by
  simp only [Gives, exec, execRegisterWrite]
  exact State.run_gives (by simp [ho, hn, hv]) hs rfl

theorem Dev.barWrite_of_not_access (d : Dev) {off n : Nat} (v : Nat) (h4 : ¬(n = 4 ∧ off % 4 = 0)) (h8 : ¬(n = 8 ∧ off % 8 = 0)) :
    d.barWrite off n v = d := by
  unfold Dev.barWrite
  rw [if_neg (by simpa only [Bool.and_eq_true, decide_eq_true_eq] using h4),
    if_neg (by simpa only [Bool.and_eq_true, decide_eq_true_eq] using h8)]

/-- A 32-bit write of a block that does not answer reaches nothing, aligned or not. -/
theorem Dev.barWrite_of_not_answers {off : Nat} (v : Nat) (h : d.answers off = false) : d.barWrite off 4 v = d := by
  simp [Dev.barWrite, Dev.bar32, h]

/-- A 32-bit write that a register takes by the access codes of its fields alone. -/
theorem Dev.barWrite_plain {off v : Nat} {g : RegRow} (hp : off % 4 = 0 ∧ off ∉ [0x0C, 0x100064, 0x120004])
    (ha : d.answers off = true) (hr : findReg off = some (g, 0)) (hw : g.wide = false) (hv : v < 2 ^ 32) :
    d.barWrite off 4 v = d.writeReg g 0 v := by
  simp only [List.mem_cons, List.not_mem_nil, not_or] at hp
  have hm : v % 4294967296 = v := Nat.mod_eq_of_lt hv
  simp [Dev.barWrite, Dev.bar32, Dev.write32, hp, ha, hr, hw, hm]

/-- A register that has no effect of its own takes the write field by field, and counts it when lock forbids it. -/
theorem Dev.writeReg_plain (d : Dev) {g : RegRow} {v : Nat} (hb : g.base ∉ [0x20004, 0x100060, 0x70408, 0x70410])
    (hf : g.fields.map (g.field 0) = g.fields) :
    d.writeReg g 0 v =
      (let e := g.fields.foldl (fun d f => d.writeField f v) d
       if d.locked && g.fields.any (fun f => f.acc = .rwl) then e.bumpSat Reg.GLB_LOCK_CHECK.IGNORED 1 else e) := by
  obtain ⟨r, hl⟩ := Dev.writeFields_shape g.fields v d
  simp only [List.mem_cons, List.not_mem_nil, not_or] at hb
  simp [Dev.writeReg, hb, hf, hl]

def evtSelRow : RegRow := ⟨0x20000, 0x0, 1, false, [Reg.EVT_SEL.INDEX]⟩

def stateChangeRow : RegRow :=
  ⟨0x8, 0x0, 1, false, [Reg.GLB_STATE_CHANGE.STATE, Reg.GLB_STATE_CHANGE.FLAGS, Reg.GLB_STATE_CHANGE.RECORD, Reg.GLB_STATE_CHANGE.REQUEST]⟩

def waitLimitRow : RegRow := ⟨0x1000C, 0x0, 1, false, [Reg.HQ_WAIT_LIMIT.MS]⟩

theorem findReg_evtSel : findReg 0x20000 = some (evtSelRow, 0) := by decide +kernel

theorem findReg_stateChange : findReg 0x8 = some (stateChangeRow, 0) := by decide +kernel

theorem findReg_waitLimit : findReg 0x1000C = some (waitLimitRow, 0) := by decide +kernel

theorem findReg_srTestA : (findReg 0x70408).map (fun x => x.1.wide) = some true := by decide +kernel

/-- A register of 64 bits ignores a 32-bit write. -/
theorem Dev.write32_wide (d : Dev) {off : Nat} (v : Nat) (h : (findReg off).map (fun x => x.1.wide) = some true) : d.write32 off v = d := by
  obtain ⟨⟨g, i⟩, hg, hw⟩ := Option.map_eq_some_iff.mp h
  have hw : g.wide = true := hw
  simp [Dev.write32, hg, hw]

theorem Dev.barWrite_srTestA (d : Dev) (v : Nat) : d.barWrite 0x70408 4 v = d := by
  simp [Dev.barWrite, Dev.bar32, d.write32_wide v findReg_srTestA]

theorem Dev.barWrite_evtSel {v : Nat} (ha : d.answers 0x20000 = true) (hv : v < 2 ^ 32) :
    d.barWrite 0x20000 4 v = d.setFld Reg.EVT_SEL.INDEX (bits v 0 16) := by
  rw [Dev.barWrite_plain (by decide) ha findReg_evtSel rfl hv, Dev.writeReg_plain d (by decide) rfl]
  simp [evtSelRow, Dev.writeField, Reg.EVT_SEL.INDEX]

theorem Dev.barWrite_waitLimit {v : Nat} (ha : d.answers 0x1000C = true) (hv : v < 2 ^ 32) :
    d.barWrite 0x1000C 4 v =
      if d.locked then d.bumpSat Reg.GLB_LOCK_CHECK.IGNORED 1 else d.setFld Reg.HQ_WAIT_LIMIT.MS (bits v 0 16) := by
  rw [Dev.barWrite_plain (by decide) ha findReg_waitLimit rfl hv, Dev.writeReg_plain d (by decide) rfl]
  cases hl : d.locked <;> simp [waitLimitRow, Dev.writeField, Reg.HQ_WAIT_LIMIT.MS, hl]

/-- The value that a write of v leaves in a W1C field. -/
def Dev.w1c (d : Dev) (f : Field) (v : Nat) : Dev := d.setFld f (d.fld f &&& ((2 ^ f.w - 1) ^^^ bits v f.lo f.w))

theorem Dev.barWrite_stateChange {v : Nat} (ha : d.answers 0x8 = true) (hv : v < 2 ^ 32) :
    d.barWrite 0x8 4 v = (((d.w1c Reg.GLB_STATE_CHANGE.STATE v).w1c Reg.GLB_STATE_CHANGE.FLAGS v).w1c
      Reg.GLB_STATE_CHANGE.RECORD v).w1c Reg.GLB_STATE_CHANGE.REQUEST v := by
  rw [Dev.barWrite_plain (by decide) ha findReg_stateChange rfl hv, Dev.writeReg_plain d (by decide) rfl]
  simp [stateChangeRow, Dev.writeField, Dev.w1c, Reg.GLB_STATE_CHANGE.STATE, Reg.GLB_STATE_CHANGE.FLAGS,
    Reg.GLB_STATE_CHANGE.RECORD, Reg.GLB_STATE_CHANGE.REQUEST]

theorem Dev.onlyFields_w1c (d : Dev) {f : Field} (v : Nat) {l : List Field} (h : f.key ∈ l.map Field.key) : OnlyFields l d (d.w1c f v) :=
  .setFld d f _ l h

theorem Dev.fld_w1c_ne (d : Dev) {f g : Field} (v : Nat) (h : g.key ≠ f.key) : (d.w1c f v).fld g = d.fld g :=
  d.fld_setFld_ne _ h

/-- A W1C field of one bit clears where the value has a 1. -/
theorem Dev.fld_w1c_one (d : Dev) {f : Field} {v : Nat} (hw : f.w = 1) (hb : bits v f.lo 1 = 1) : (d.w1c f v).fld f = 0 := by
  simp [Dev.w1c, hw, hb]

/-- A W1C field of one bit stays where the value has a 0. -/
theorem Dev.fld_w1c_zero (d : Dev) {f : Field} {v : Nat} (hw : f.w = 1) (hb : bits v f.lo 1 = 0) (hf : d.fld f < 2) :
    (d.w1c f v).fld f = d.fld f := by
  simp [Dev.w1c, hw, hb, Nat.and_one_is_mod, Nat.mod_eq_of_lt hf]

theorem fld_stateChange (d : Dev) (v : Nat) :
    ((((d.w1c Reg.GLB_STATE_CHANGE.STATE v).w1c Reg.GLB_STATE_CHANGE.FLAGS v).w1c Reg.GLB_STATE_CHANGE.RECORD v).w1c
      Reg.GLB_STATE_CHANGE.REQUEST v).fld Reg.GLB_STATE_CHANGE.STATE =
      (d.w1c Reg.GLB_STATE_CHANGE.STATE v).fld Reg.GLB_STATE_CHANGE.STATE := by
  rw [Dev.fld_w1c_ne _ _ (by decide), Dev.fld_w1c_ne _ _ (by decide), Dev.fld_w1c_ne _ _ (by decide)]

/-- The registers below 0x10000 answer in every state in which the BARs answer. -/
theorem Dev.answers_of_barUp {off : Nat} (hs : d.barUp = true) (ho : off < 0x10000) : d.answers off = true := by
  unfold Dev.barUp at hs
  unfold Dev.answers
  cases h : d.st <;> simp_all

/-- Settles O18: each clause is what `barWrite` does at one register. -/
theorem registerAccessCodes : Obligations.RegisterAccessCodes := by
  unfold Obligations.RegisterAccessCodes
  intro s hs
  have write32 {off v : Nat} (ho : off < 0x1000000) (hv : v < 2 ^ 32) : Gives (.registerWrite off 4 v) s (s.dev.barWrite off 4 v) :=
    gives_registerWrite hs ho (by decide) hv
  refine ⟨?width, ?silent, ?wide, ?rw, ?w1c, ?rwl, ?locked⟩
  case width =>
    intro off n v ho hn hv h4 h8
    have h := gives_registerWrite hs ho hn hv
    rwa [Dev.barWrite_of_not_access _ v h4 h8] at h
  case silent =>
    intro off v ho hv ha
    have h := write32 ho hv
    rwa [Dev.barWrite_of_not_answers v ha] at h
  case wide =>
    intro v hv
    have h := write32 (off := 0x70408) (by decide) hv
    rwa [Dev.barWrite_srTestA] at h
  case rw =>
    intro v hv ha
    refine (write32 (by decide) hv).runs ?_
    rw [Dev.barWrite_evtSel ha hv]
    exact ⟨.setFld _ _ _ _ (by decide), by simp [bits, Reg.EVT_SEL.INDEX]⟩
  case w1c =>
    intro v hv
    refine (write32 (by decide) hv).runs ?_
    rw [Dev.barWrite_stateChange (Dev.answers_of_barUp hs (by decide)) hv, fld_stateChange]
    refine ⟨?_, fun h1 => Dev.fld_w1c_one _ rfl h1, fun h0 hf => Dev.fld_w1c_zero _ rfl h0 hf⟩
    exact (((Dev.onlyFields_w1c _ v (by decide)).trans (Dev.onlyFields_w1c _ v (by decide))).trans
      (Dev.onlyFields_w1c _ v (by decide))).trans (Dev.onlyFields_w1c _ v (by decide))
  case rwl =>
    intro v hv ha hl
    refine (write32 (by decide) hv).runs ?_
    rw [Dev.barWrite_waitLimit ha hv, hl]
    exact ⟨.setFld _ _ _ _ (by decide), by simp [bits, Reg.HQ_WAIT_LIMIT.MS]⟩
  case locked =>
    intro v hv ha hl
    refine (write32 (by decide) hv).runs ?_
    rw [Dev.barWrite_waitLimit ha hv, hl]
    exact ⟨.setFld _ _ _ _ (by decide), Dev.fld_bumpSat_ne _ _ (by decide), by simp [Reg.GLB_LOCK_CHECK.IGNORED]⟩

end Sys2Proof.Machine
end

section
/-! # What every change of the device keeps

One lemma per function of the model that answers a device. Most functions change neither the canonical form of device memory nor
the device state, so one predicate speaks of both: `Dev.Inv M Q` asks for canonical memory where M holds, and for Q of the device
state. The functions that set the device state keep canonical memory alone (`Dev.MemOk`).
The lemmas stand in the order of the definitions, under the names of the functions; each proof has the function's own shape. -/

namespace Sys2Proof.Machine

/-- Device memory is in its canonical form, where M holds, and the device state meets Q. -/
@[reducible] def Dev.Inv (M : Prop) (Q : DevState → Prop) (d : Dev) : Prop := (M → memWf d.mem = true) ∧ Q d.st

/-- Device memory is in its canonical form. -/
@[reducible] def Dev.MemOk (d : Dev) : Prop := d.Inv True (fun _ => True)

theorem Dev.Inv.ite {M : Prop} {Q : DevState → Prop} {c : Prop} [Decidable c] {a b : Dev} (ha : a.Inv M Q) (hb : b.Inv M Q) :
    (if c then a else b).Inv M Q := by
  split
  · exact ha
  · exact hb

theorem Dev.Inv.foldl {M : Prop} {Q : DevState → Prop} {α : Type} {f : Dev → α → Dev} {l : List α} {d : Dev}
    (hf : ∀ d a, d.Inv M Q → (f d a).Inv M Q) (h : d.Inv M Q) : (l.foldl f d).Inv M Q := by
  induction l generalizing d with
  | nil => exact h
  | cons a l ih => exact ih (hf d a h)


section Both

variable {M : Prop} {Q : DevState → Prop} {d : Dev}

/-! ## Machine/Ops -/

theorem Dev.Inv.setFld {f : Field} {n : Nat} (hm : d.Inv M Q) : (d.setFld f n).Inv M Q := hm

theorem Dev.Inv.setOn {f : Field} {b : Bool} (hm : d.Inv M Q) : (d.setOn f b).Inv M Q := hm.setFld

theorem Dev.Inv.bump {f : Field} {n : Nat} (hm : d.Inv M Q) : (d.bump f n).Inv M Q := hm.setFld

theorem Dev.Inv.bumpSat {f : Field} {n : Nat} (hm : d.Inv M Q) : (d.bumpSat f n).Inv M Q := hm.setFld

theorem Dev.Inv.setFldBit {f : Field} {i : Nat} {b : Bool} (hm : d.Inv M Q) : (d.setFldBit f i b).Inv M Q := hm.setFld

theorem Dev.Inv.draw (hm : d.Inv M Q) : (d.draw).Inv M Q := hm

theorem Dev.Inv.write {a : Nat} {l : List Byte} (hm : d.Inv M Q) : (d.write a l).Inv M Q :=
  ⟨fun h => Dev.memWf_write _ _ _ (hm.1 h), hm.2⟩

theorem Dev.Inv.zero {a n : Nat} (hm : d.Inv M Q) : (d.zero a n).Inv M Q := ⟨fun h => Dev.memWf_zero _ _ _ (hm.1 h), hm.2⟩

theorem Dev.Inv.copy {src dst n : Nat} (hm : d.Inv M Q) : (d.copy src dst n).Inv M Q :=
  ⟨fun h => Dev.memWf_copy _ _ _ _ (hm.1 h), hm.2⟩

theorem Dev.Inv.scramble {a n : Nat} (hm : d.Inv M Q) : (d.scramble a n).Inv M Q := hm.write.draw

theorem Dev.Inv.setPoison {a : Nat} (hm : d.Inv M Q) : (d.setPoison a).Inv M Q := hm

theorem Dev.Inv.hostWrite {a : Nat} {l : List Byte} (hm : d.Inv M Q) : (d.hostWrite a l).Inv M Q := hm

theorem Dev.Inv.hostChange {c : HostChange} (hm : d.Inv M Q) : (d.hostChange c).Inv M Q := hm

theorem Dev.Inv.emit {e : Emit} (hm : d.Inv M Q) : (d.emit e).Inv M Q := hm

theorem Dev.Inv.msix {v : Nat} (hm : d.Inv M Q) : (d.msix v).Inv M Q := hm

theorem Dev.Inv.logRecord {r : FaultRec} (hm : d.Inv M Q) : (d.logRecord r).Inv M Q :=
  ⟨fun h => Dev.memWf_logRecord _ _ (hm.1 h), hm.2⟩

theorem Dev.Inv.mgmtOut {l : List Byte} (hm : d.Inv M Q) : (d.mgmtOut l).Inv M Q := hm.emit

theorem Dev.Inv.sendReport {r : Report} (hm : d.Inv M Q) : (d.sendReport r).Inv M Q := hm.mgmtOut

theorem Dev.Inv.pumpReports {n : Nat} (hm : d.Inv M Q) : (Dev.pumpReports n d).Inv M Q := by
  induction n generalizing d with
  | zero => exact hm
  | succ n ih =>
    unfold Dev.pumpReports
    exact .ite (ih (.sendReport hm)) hm

theorem Dev.Inv.record {r : FaultRec} (hm : d.Inv M Q) : (d.record r).Inv M Q := .ite hm hm.logRecord.msix.pumpReports

theorem Dev.Inv.refreshFlags (hm : d.Inv M Q) : (d.refreshFlags).Inv M Q := .ite hm (.msix (.setFld hm))

theorem Dev.Inv.setReason {i : Nat} (hm : d.Inv M Q) : (d.setReason i).Inv M Q := .ite hm hm.setFldBit.setFld.record

theorem Dev.Inv.clearReason {i : Nat} (hm : d.Inv M Q) : (d.clearReason i).Inv M Q := .ite hm.setFldBit.setFld.record hm

theorem Dev.Inv.setCoreSt {core st oldSite newSite : Nat} (hm : d.Inv M Q) : (d.setCoreSt core st oldSite newSite).Inv M Q :=
  hm.setFld.record.refreshFlags

theorem Dev.Inv.loseCore {core : Nat} (hm : d.Inv M Q) : (d.loseCore core).Inv M Q := .ite hm hm.setCoreSt

theorem Dev.Inv.putEvt {t : Tab Nat} (hm : d.Inv M Q) : (d.putEvt t).Inv M Q := hm

theorem Dev.Inv.evtSet {i v : Nat} (hm : d.Inv M Q) : (d.evtSet i v).Inv M Q := hm.putEvt

theorem Dev.Inv.evtAdd {i n : Nat} (hm : d.Inv M Q) : (d.evtAdd i n).Inv M Q := hm.evtSet.bump

theorem Dev.Inv.send {p : Packet} (hm : d.Inv M Q) : (d.send p).Inv M Q := hm

theorem Dev.Inv.take {p : Packet} (hm : d.Inv M Q) : (d.take p).Inv M Q := hm

/-! ## Machine/HostOps -/

theorem Dev.Inv.setRing {r : Nat} {x : Ring} (hm : d.Inv M Q) : (d.setRing r x).Inv M Q := hm

theorem Dev.Inv.writeCpl {r : Nat} {h : HeldRec} (hm : d.Inv M Q) : (d.writeCpl r h).Inv M Q :=
  .ite (.msix (.bump hm)) (.bump hm)

theorem Dev.Inv.flushHeld {r n : Nat} (hm : d.Inv M Q) : (Dev.flushHeld r n d).Inv M Q := by
  induction n generalizing d with
  | zero => exact hm
  | succ n ih =>
    unfold Dev.flushHeld
    split
    · exact hm
    · exact .ite (ih hm.setRing.writeCpl) hm

theorem Dev.Inv.putCpl {r : Nat} {h : HeldRec} (hm : d.Inv M Q) : (d.putCpl r h).Inv M Q := .ite hm.writeCpl hm.setRing

theorem Dev.Inv.signal {j : Desc} {st : Status} (hm : d.Inv M Q) : (d.signal j st).Inv M Q := .ite hm.evtAdd hm

theorem Dev.Inv.finish {j : Desc} {e : Ending} (hm : d.Inv M Q) : (d.finish j e).Inv M Q := hm.signal.setRing.putCpl

theorem Dev.Inv.finishKey {k : Nat × Nat} {e : Ending} (hm : d.Inv M Q) : (d.finishKey k e).Inv M Q := by
  unfold Dev.finishKey
  split
  · exact hm.finish
  · exact hm

theorem Dev.Inv.markStep {on : Bool} (hm : d.Inv M Q) : (d.markStep on).Inv M Q := hm

theorem Dev.Inv.finishStep {k : Nat × Nat} {e : Ending} (hm : d.Inv M Q) : (d.finishStep k e).Inv M Q := hm.markStep.finishKey

theorem Dev.Inv.pcieReset (hm : d.Inv M Q) : (d.pcieReset).Inv M Q := hm

theorem Dev.Inv.popHead {r : Nat} (hm : d.Inv M Q) : (d.popHead r).Inv M Q := by
  unfold Dev.popHead
  split
  · exact hm
  · exact .setRing hm

theorem Dev.Inv.refuse {j : Desc} {e : Ending} (hm : d.Inv M Q) : (d.refuse j e).Inv M Q := .ite hm.markStep.finish hm.finish

theorem Dev.Inv.startDesc {r : Nat} {chk : Dev → Desc → Option Ending} {go : Dev → Desc → Dev} (hm : d.Inv M Q)
    (hgo : ∀ d x, d.Inv M Q → (go d x).Inv M Q) : (d.startDesc r chk go).Inv M Q := by
  unfold Dev.startDesc
  split
  · exact hm
  · split
    · exact hm.popHead.refuse
    · exact hgo _ _ hm.popHead

theorem Dev.Inv.deferGap {g : GapAct} (hm : d.Inv M Q) : (d.deferGap g).Inv M Q := .ite hm hm

/-! ## Machine/Fab -/

theorem Dev.Inv.setPort {p : Nat} {x : Port} (hm : d.Inv M Q) : (d.setPort p x).Inv M Q := hm

theorem Dev.Inv.timeCheck (hm : d.Inv M Q) : (d.timeCheck).Inv M Q := .ite hm (.ite hm.setFld (.ite (.setFld hm) hm))

theorem Dev.Inv.setTxLane {p s lane : Nat} (hm : d.Inv M Q) : (d.setTxLane p s lane).Inv M Q := .ite hm.setFld hm.setFld.setPort

theorem Dev.Inv.sendAlign {p : Nat} (hm : d.Inv M Q) : (d.sendAlign p).Inv M Q := hm.setPort.emit

theorem Dev.Inv.sendBlock {p ty vc : Nat} {sop eop : Bool} {seq : Nat} {body : List Byte} (hm : d.Inv M Q) :
    (d.sendBlock p ty vc sop eop seq body).Inv M Q :=
  hm.setPort.emit

theorem Dev.Inv.sendCtl {p sub : Nat} {body : List Byte} (hm : d.Inv M Q) : (d.sendCtl p sub body).Inv M Q := hm.sendBlock

theorem Dev.Inv.askCtl {p sub : Nat} {body : List Byte} (hm : d.Inv M Q) : (d.askCtl p sub body).Inv M Q := hm.sendCtl.setPort

theorem Dev.Inv.sendPktBlocks {p : Nat} {q : Queued} {l : List Byte} {total n : Nat} (hm : d.Inv M Q) :
    (Dev.sendPktBlocks p q l total n d).Inv M Q := by
  induction n generalizing d with
  | zero => exact hm
  | succ n ih =>
    unfold Dev.sendPktBlocks
    exact ih hm.sendBlock.setPort

theorem Dev.Inv.pumpN {p n : Nat} (hm : d.Inv M Q) : (Dev.pumpN p n d).Inv M Q := by
  induction n generalizing d with
  | zero => exact hm
  | succ n ih =>
    unfold Dev.pumpN
    split
    · exact hm
    · exact ih (.sendPktBlocks (.ite hm.setPort.bump hm.setPort))

theorem Dev.Inv.pump {p : Nat} (hm : d.Inv M Q) : (d.pump p).Inv M Q := hm.pumpN

theorem Dev.Inv.pumpAll {p : Nat} (hm : d.Inv M Q) : (d.pumpAll p).Inv M Q := .foldl (fun _ _ h => h.pump) hm

theorem Dev.Inv.enqueue {p : Nat} {q : Queued} (hm : d.Inv M Q) : (d.enqueue p q).Inv M Q := hm.setPort.pump

theorem Dev.Inv.leave {n : Nat} {src : Option Nat} {q : Nat} {p out : Packet} {fallback : Bool} (hm : d.Inv M Q) :
    (d.leave n src q p out fallback).Inv M Q :=
  .ite hm.bumpSat hm.enqueue

theorem Dev.Inv.toTree {n : Nat} {src : Option Nat} {p : Packet} {fallback : Bool} (hm : d.Inv M Q) :
    (d.toTree n src p fallback).Inv M Q := by
  unfold Dev.toTree
  split
  · exact hm
  · exact hm.leave

theorem Dev.Inv.deliver {p : Packet} (hm : d.Inv M Q) : (d.deliver p).Inv M Q := hm

theorem Dev.Inv.lineCopy {n : Nat} {src : Option Nat} {p : Packet} (hm : d.Inv M Q) : (d.lineCopy n src p).Inv M Q := by
  unfold Dev.lineCopy
  extract_lets dir out
  split
  · exact hm.bumpSat
  · exact .ite hm.bumpSat hm.leave

theorem Dev.Inv.lineArrive {n : Nat} {src : Option Nat} {p : Packet} (hm : d.Inv M Q) : (d.lineArrive n src p).Inv M Q :=
  .ite hm.deliver hm.deliver.lineCopy

theorem Dev.Inv.numbered {f : Nat → Dev → Dev} (hm : d.Inv M Q) (hf : ∀ x d, d.Inv M Q → (f x d).Inv M Q) :
    (d.numbered f).Inv M Q :=
  hf _ _ (.bump hm)

theorem Dev.Inv.lineOut {p : Packet} {code count : Nat} (hm : d.Inv M Q) : (d.lineOut p code count).Inv M Q :=
  .ite hm (hm.numbered (fun _ _ h => h.lineCopy))

theorem Dev.Inv.lineSend {a : Nat} {p : Packet} (hm : d.Inv M Q) : (d.lineSend a p).Inv M Q := .ite hm hm.bumpSat.lineOut.lineOut

theorem Dev.Inv.putSuspect {i : Nat} {e : Suspect} (hm : d.Inv M Q) : (d.putSuspect i e).Inv M Q := hm

theorem Dev.Inv.suspectReport {code : Nat} {e : Suspect} (hm : d.Inv M Q) : (d.suspectReport code e).Inv M Q := hm.record

theorem Dev.Inv.noticeLine {stage : Nat} {body : List Byte} (hm : d.Inv M Q) : (d.noticeLine stage body).Inv M Q :=
  .ite hm hm.lineSend

theorem Dev.Inv.sendNotice {x cause : Nat} (hm : d.Inv M Q) : (d.sendNotice x cause).Inv M Q :=
  hm.noticeLine.noticeLine.noticeLine

theorem Dev.Inv.sight {x cause port : Nat} (hm : d.Inv M Q) : (d.sight x cause port).Inv M Q := by
  unfold Dev.sight
  extract_lets held
  split
  · exact .ite hm.putSuspect (.ite hm.putSuspect.putSuspect.suspectReport.sendNotice hm.putSuspect.putSuspect.suspectReport)
  · split
    · exact hm
    · exact .ite hm.putSuspect (.ite hm.putSuspect.suspectReport.sendNotice hm.putSuspect.suspectReport)

theorem Dev.Inv.holdMirrors (hm : d.Inv M Q) : (d.holdMirrors).Inv M Q := hm

theorem Dev.Inv.mirrorWay {p : Packet} {tree : Bool} (hm : d.Inv M Q) : (d.mirrorWay p tree).Inv M Q :=
  .ite (.ite (.holdMirrors hm) hm) hm

theorem Dev.Inv.routeUni {n : Nat} {src : Option Nat} {p : Packet} (hm : d.Inv M Q) : (d.routeUni n src p).Inv M Q := by
  unfold Dev.routeUni
  refine .ite ?_ ?_
  · exact hm.bumpSat
  · refine .ite ?_ ?_
    · exact hm.bumpSat.sight
    · refine .ite ?_ ?_
      · exact hm.deliver
      · refine .ite ?_ ?_
        · exact hm.toTree
        · refine .ite ?_ ?_
          · exact hm.toTree
          · split
            · exact hm.bumpSat
            · split
              · exact hm.mirrorWay.leave
              · exact hm.mirrorWay.toTree

theorem Dev.Inv.route {src : Option Nat} {p : Packet} (hm : d.Inv M Q) : (d.route src p).Inv M Q :=
  .ite hm (hm.numbered (fun _ _ h => .ite h.bumpSat (.ite (.ite h.deliver h.bumpSat) (.ite
    (.ite h.bumpSat h.lineArrive) h.routeUni))))

theorem Dev.Inv.releaseTree (hm : d.Inv M Q) : (d.releaseTree).Inv M Q := .ite hm (.foldl (fun _ _ h => h.toTree) hm)

theorem Dev.Inv.takeBack {l : List Queued} (hm : d.Inv M Q) : (d.takeBack l).Inv M Q := hm

theorem Dev.Inv.reroute {l : List (Option Nat × Packet)} (hm : d.Inv M Q) : (d.reroute l).Inv M Q := hm

theorem Dev.Inv.routeAgain {a : Again} (hm : d.Inv M Q) : (d.routeAgain a).Inv M Q := .ite hm.bump.lineCopy hm.bump.routeUni

theorem Dev.Inv.changeEntry {i : Nat} {f : Dev → Dev} (hm : d.Inv M Q) (hf : ∀ d, d.Inv M Q → (f d).Inv M Q) :
    (d.changeEntry i f).Inv M Q :=
  .record (hf _ hm)

theorem Dev.Inv.dropFor {i : Nat} (hm : d.Inv M Q) : (d.dropFor i).Inv M Q := .foldl (fun _ _ h => h.sight) (.bumpSat hm)

theorem Dev.Inv.markLost {i : Nat} {b : Bool} (hm : d.Inv M Q) : (d.markLost i b).Inv M Q :=
  .ite hm (.ite (.dropFor (.bump (hm.changeEntry (fun _ h => h.setOn)))) (.setFld (hm.changeEntry (fun _ h => h.setOn))))

theorem Dev.Inv.selfCheck (hm : d.Inv M Q) : (d.selfCheck).Inv M Q :=
  .ite hm (.ite hm (.foldl (fun _ _ h => h.changeEntry (fun _ h => h.setFld)) (.ite hm.setFld (hm.setFld.changeEntry
    (fun _ h => h.setFld)))))

theorem Dev.Inv.coordCheck {p : Nat} (hm : d.Inv M Q) : (d.coordCheck p).Inv M Q :=
  .ite hm (.ite hm.setFldBit.timeCheck.record hm.setFldBit.timeCheck)

theorem Dev.Inv.lockChecks (hm : d.Inv M Q) : (d.lockChecks).Inv M Q :=
  .setOn (.foldl (fun _ _ h => h.coordCheck) hm.selfCheck.setOn)

/-! ## Machine/MfbOps -/

theorem Dev.Inv.modOp {id : Nat} {f : MfbOp → MfbOp} (hm : d.Inv M Q) : (d.modOp id f).Inv M Q := hm

theorem Dev.Inv.sendReq {o : MfbOp} {k : MfbPkt} (hm : d.Inv M Q) : (d.sendReq o k).Inv M Q :=
  .modOp (.ite (.lineSend (.ite hm hm)) (.send (.ite hm hm)))

theorem Dev.Inv.pumpHomeN {home n : Nat} (hm : d.Inv M Q) : (Dev.pumpHomeN home n d).Inv M Q := by
  induction n generalizing d with
  | zero => exact hm
  | succ n ih =>
    unfold Dev.pumpHomeN
    split
    · exact hm
    · exact ih hm.sendReq

theorem Dev.Inv.pumpHome {home : Nat} (hm : d.Inv M Q) : (d.pumpHome home).Inv M Q := .pumpHomeN hm

theorem Dev.Inv.pumpOp {o : MfbOp} (hm : d.Inv M Q) : (d.pumpOp o).Inv M Q := .foldl (fun _ _ h => h.pumpHome) hm

theorem Dev.Inv.rlcSetTo {i : Nat} {l : List RlcLine} (hm : d.Inv M Q) : (d.rlcSetTo i l).Inv M Q := hm

theorem Dev.Inv.rlcPut {l : RlcLine} (hm : d.Inv M Q) : (d.rlcPut l).Inv M Q := hm.rlcSetTo

theorem Dev.Inv.rlcDrop {p : Nat → Nat → Bool} (hm : d.Inv M Q) : (d.rlcDrop p).Inv M Q := hm

theorem Dev.Inv.rlcDropRange {id a n : Nat} (hm : d.Inv M Q) : (d.rlcDropRange id a n).Inv M Q := hm.rlcDrop

theorem Dev.Inv.rlcDropAll (hm : d.Inv M Q) : (d.rlcDropAll).Inv M Q := hm.rlcDrop

theorem Dev.Inv.rlcWrite {o : MfbOp} (hm : d.Inv M Q) : (d.rlcWrite o).Inv M Q :=
  .ite (.foldl (fun _ _ h => h.rlcDropRange) hm) (.ite hm.rlcDropRange hm)

theorem Dev.Inv.startOp {o : MfbOp} (hm : d.Inv M Q) : (d.startOp o).Inv M Q := .pumpOp hm.rlcWrite

theorem Dev.Inv.takeTag (hm : d.Inv M Q) : (d.takeTag).Inv M Q := hm

theorem Dev.Inv.issueOp {mop : Nat} {origin : MfbOrigin} {home remote len : Nat} {loc : Bool × Nat} {notify : Option Nat}
    {pkts : List MfbPkt} (hm : d.Inv M Q) : (d.issueOp mop origin home remote len loc notify pkts).Inv M Q :=
  hm.takeTag.startOp

theorem Dev.Inv.dropOp {id : Nat} (hm : d.Inv M Q) : (d.dropOp id).Inv M Q := hm

theorem Dev.Inv.sendNotify {o : MfbOp} (hm : d.Inv M Q) : (d.sendNotify o).Inv M Q := by
  unfold Dev.sendNotify
  split
  · exact hm
  · exact .foldl (fun _ _ h => h.startOp) hm

theorem Dev.Inv.mirrorSend {a n : Nat} (hm : d.Inv M Q) : (d.mirrorSend a n).Inv M Q := hm.issueOp

theorem Dev.Inv.handoverBuddyLost (hm : d.Inv M Q) : (d.handoverBuddyLost).Inv M Q := by
  unfold Dev.handoverBuddyLost
  split
  · exact hm
  · exact .foldl (fun _ _ h => h.send) hm

theorem Dev.Inv.setMirror {st : Nat} (hm : d.Inv M Q) : (d.setMirror st).Inv M Q :=
  .record (.setFld (.ite hm hm.handoverBuddyLost))

theorem Dev.Inv.breakMirror (hm : d.Inv M Q) : (d.breakMirror).Inv M Q := .ite (.setMirror hm) hm

theorem Dev.Inv.mirror {a n : Nat} (hm : d.Inv M Q) : (d.mirror a n).Inv M Q :=
  .ite hm (.ite hm (.ite hm.breakMirror (.foldl (fun _ _ h => h.mirrorSend) hm)))

theorem Dev.Inv.besideLive {a n : Nat} {f : Dev → Nat → Nat → Dev} (hm : d.Inv M Q) (hf : ∀ d x y, d.Inv M Q →
    (f d x y).Inv M Q) : (d.besideLive a n f).Inv M Q :=
  .ite (.ite (hf _ _ _ (.ite (hf _ _ _ hm) hm)) (.ite (hf _ _ _ hm) hm)) (hf _ _ _ hm)

theorem Dev.Inv.store {a : Nat} {l : List Byte} (hm : d.Inv M Q) : (d.store a l).Inv M Q :=
  hm.besideLive (fun _ _ _ h => h.write.mirror)

theorem Dev.Inv.storeCopy {src dst n : Nat} (hm : d.Inv M Q) : (d.storeCopy src dst n).Inv M Q :=
  hm.besideLive (fun _ _ _ h => h.copy.mirror)

theorem Dev.Inv.storeZero {a n : Nat} (hm : d.Inv M Q) : (d.storeZero a n).Inv M Q :=
  hm.besideLive (fun _ _ _ h => h.zero.mirror)

theorem Dev.Inv.storeFree {a n : Nat} (hm : d.Inv M Q) : (d.storeFree a n).Inv M Q :=
  hm.besideLive (fun _ _ _ h => h.scramble.mirror)

theorem Dev.Inv.refWrite {i off : Nat} {l : List Byte} (hm : d.Inv M Q) : (d.refWrite i off l).Inv M Q :=
  .ite hm.store hm.hostWrite

/-! ## Machine/OptOps -/

theorem Dev.Inv.modPort {p : Nat} {f : Port → Port} (hm : d.Inv M Q) : (d.modPort p f).Inv M Q := hm.setPort

theorem Dev.Inv.laneReason {p dir old new : Nat} (hm : d.Inv M Q) : (d.laneReason p dir old new).Inv M Q :=
  .ite hm.record.setReason hm

theorem Dev.Inv.setPortSt {p st cause : Nat} (hm : d.Inv M Q) : (d.setPortSt p st cause).Inv M Q := by
  unfold Dev.setPortSt
  extract_lets old d1 d2 d3 d4
  have h1 : d1.Inv M Q := hm.setFld.timeCheck
  have h2 : d2.Inv M Q := .ite h1.setFld h1
  have h4 : d4.Inv M Q := .ite h2.setFldBit h2.setFldBit.record
  exact .ite h2 h4.refreshFlags

theorem Dev.Inv.emptyQueue {p : Nat} (hm : d.Inv M Q) : (d.emptyQueue p).Inv M Q := hm.modPort.takeBack

theorem Dev.Inv.recoveryNotice {p : Nat} (hm : d.Inv M Q) : (d.recoveryNotice p).Inv M Q := .ite hm.send hm

theorem Dev.Inv.modOptMargin {f : SweepJob → SweepJob} (hm : d.Inv M Q) : (d.modOptMargin f).Inv M Q := hm

theorem Dev.Inv.putLane {k : Nat × Nat} {p lane : Nat} {l : List Byte} (hm : d.Inv M Q) : (d.putLane k p lane l).Inv M Q := by
  unfold Dev.putLane
  split
  · exact hm.refWrite
  · exact hm

theorem Dev.Inv.closeOptMargins (hm : d.Inv M Q) : (d.closeOptMargins).Inv M Q := .foldl (fun _ _ h => h.finishKey) hm

theorem Dev.Inv.marginGone {p : Nat} (hm : d.Inv M Q) : (d.marginGone p).Inv M Q :=
  .closeOptMargins (.modOptMargin (.foldl (fun _ _ h => .foldl (fun _ _ h => h.putLane) h) hm))

theorem Dev.Inv.closeOptCals (hm : d.Inv M Q) : (d.closeOptCals).Inv M Q := .foldl (fun _ _ h => h.finishKey) hm

theorem Dev.Inv.calEnded {p : Nat} (hm : d.Inv M Q) : (d.calEnded p).Inv M Q := .closeOptCals hm

theorem Dev.Inv.clearLink {p : Nat} (hm : d.Inv M Q) : (d.clearLink p).Inv M Q := hm.modPort.modPort.setFld.setFld

theorem Dev.Inv.holdPackets {p : Nat} {keep : Bool} (hm : d.Inv M Q) : (d.holdPackets p keep).Inv M Q :=
  .ite hm.recoveryNotice.modPort.emptyQueue hm

theorem Dev.Inv.failPort {p cause : Nat} (hm : d.Inv M Q) : (d.failPort p cause).Inv M Q :=
  .calEnded (.marginGone (.setPortSt (.ite hm.holdPackets.clearLink.modPort.sight hm.holdPackets.clearLink.modPort)))

theorem Dev.Inv.engineLost {e : Nat} (hm : d.Inv M Q) : (d.engineLost e).Inv M Q :=
  .foldl (fun _ _ h => .ite h.setFld.setFld.record h.setFld.failPort) hm

theorem Dev.Inv.portDown {p : Nat} (hm : d.Inv M Q) : (d.portDown p).Inv M Q :=
  .ite hm hm.holdPackets.clearLink.modPort.setFld.setPortSt.marginGone.calEnded

theorem Dev.Inv.slotsChanged {p : Nat} (hm : d.Inv M Q) : (d.slotsChanged p).Inv M Q :=
  .ite hm (.ite hm.failPort (.ite hm.setPortSt (.ite hm.setPortSt hm.setPortSt)))

theorem Dev.Inv.startMove {p : Nat} {m : SlotMove} (hm : d.Inv M Q) : (d.startMove p m).Inv M Q := hm.modPort.askCtl

theorem Dev.Inv.vacate {p s : Nat} (hm : d.Inv M Q) : (d.vacate p s).Inv M Q := hm.setFld.askCtl

theorem Dev.Inv.leaveVacant {p s : Nat} (hm : d.Inv M Q) : (d.leaveVacant p s).Inv M Q :=
  .slotsChanged (.vacate (.ite hm hm.setFld.modPort))

theorem Dev.Inv.moveOff {p s lane : Nat} {room : Bool} (hm : d.Inv M Q) : (d.moveOff p s lane room).Inv M Q := by
  unfold Dev.moveOff
  split
  · exact .ite hm.startMove hm.modPort
  · exact hm.leaveVacant

theorem Dev.Inv.markLane {p lane : Nat} (hm : d.Inv M Q) : (d.markLane p lane).Inv M Q := .ite hm hm.setFldBit.bumpSat.laneReason

theorem Dev.Inv.lanesFail {p : Nat} {l : List Nat} (hm : d.Inv M Q) : (d.lanesFail p l).Inv M Q :=
  .foldl (fun _ _ h => .ite h.moveOff h) (.foldl (fun _ _ h => h.markLane) hm)

theorem Dev.Inv.fillVacant {p : Nat} (hm : d.Inv M Q) : (d.fillVacant p).Inv M Q := by
  unfold Dev.fillVacant
  split
  · exact .ite hm.startMove hm
  · exact hm

theorem Dev.Inv.moveNow {p : Nat} {m : SlotMove} (hm : d.Inv M Q) : (d.moveNow p m).Inv M Q := by
  unfold Dev.moveNow
  split
  · exact hm.startMove
  · exact hm.leaveVacant

theorem Dev.Inv.nextMove {p : Nat} (hm : d.Inv M Q) : (d.nextMove p).Inv M Q :=
  .ite hm.fillVacant (.foldl (fun _ _ h => .ite h.modPort.moveNow h) hm)

theorem Dev.Inv.marginTake {k : Nat × Nat} {p n : Nat} (hm : d.Inv M Q) : (Dev.marginTake k p n d).Inv M Q := by
  induction n generalizing d with
  | zero => exact hm
  | succ n ih =>
    unfold Dev.marginTake
    split
    · exact hm
    · refine .ite ?_ ?_
      · exact hm
      · split
        · exact hm
        · refine .ite ?_ ?_
          · exact ih hm.putLane.modOptMargin
          · split
            · split
              · exact .ite hm.modOptMargin.startMove hm
              · exact ih hm.putLane.modOptMargin
            · exact .ite hm hm.modOptMargin

theorem Dev.Inv.laneFree {p : Nat} (hm : d.Inv M Q) : (d.laneFree p).Inv M Q :=
  .ite (.closeOptMargins (.foldl (fun _ _ h => h.marginTake) hm.nextMove)) hm

theorem Dev.Inv.startLaneCal {p lane : Nat} (hm : d.Inv M Q) : (d.startLaneCal p lane).Inv M Q := hm.setFld.sendCtl.slotsChanged

theorem Dev.Inv.startTraining {p : Nat} (hm : d.Inv M Q) : (d.startTraining p).Inv M Q := hm.clearLink.modPort.setPortSt.sendCtl

theorem Dev.Inv.trainFails {p cause : Nat} (hm : d.Inv M Q) : (d.trainFails p cause).Inv M Q := by
  unfold Dev.trainFails
  extract_lets d1 back d2 d3 d4
  have h2 : d2.Inv M Q := hm.bumpSat.clearLink.modPort
  have h3 : d3.Inv M Q := .ite h2.setFld.deferGap h2
  have h4 : d4.Inv M Q := .ite h3.bumpSat.setPortSt h3.setPortSt
  exact h4.calEnded

theorem Dev.Inv.tryAgain {p : Nat} (hm : d.Inv M Q) : (d.tryAgain p).Inv M Q := hm.setFld.startTraining

theorem Dev.Inv.withdraw {p : Nat} (hm : d.Inv M Q) : (d.withdraw p).Inv M Q :=
  hm.setFld.modPort.timeCheck.slotsChanged.sendCtl.emptyQueue

theorem Dev.Inv.startPortCal {p : Nat} (hm : d.Inv M Q) : (d.startPortCal p).Inv M Q := hm.modPort.withdraw

theorem Dev.Inv.pumpPortCals (hm : d.Inv M Q) : (d.pumpPortCals).Inv M Q :=
  .closeOptCals (.foldl (fun _ _ h => .foldl (fun _ _ h => .ite h (.ite (.ite h (.tryAgain h)) (.ite h (.ite h (.ite
    (.startPortCal h) h))))) h) hm)

theorem Dev.Inv.announce (hm : d.Inv M Q) : (d.announce).Inv M Q := .emit hm

/-! ## Machine/LimOps -/

theorem Dev.Inv.modLim {f : Lim → Lim} (hm : d.Inv M Q) : (d.modLim f).Inv M Q := hm

theorem Dev.Inv.modSlot {s : Nat} {f : Slot → Slot} (hm : d.Inv M Q) : (d.modSlot s f).Inv M Q := hm.modLim

theorem Dev.Inv.setSlotSt {s st cause : Nat} (hm : d.Inv M Q) : (d.setSlotSt s st cause).Inv M Q :=
  .ite hm (.refreshFlags (.ite hm.setFld.setFld.record hm.setFld.setFld.record.setFld))

theorem Dev.Inv.setLmEn {s : Nat} {b : Bool} (hm : d.Inv M Q) : (d.setLmEn s b).Inv M Q := .ite hm hm

theorem Dev.Inv.wantHome {k : Nat} (hm : d.Inv M Q) : (d.wantHome k).Inv M Q := hm.modLim.setReason

theorem Dev.Inv.wantSpare {s : Nat} (hm : d.Inv M Q) : (d.wantSpare s).Inv M Q := hm.modLim.setReason

theorem Dev.Inv.slotFilled {s : Nat} (hm : d.Inv M Q) : (d.slotFilled s).Inv M Q :=
  .ite (.ite hm.modLim.clearReason hm.modLim) (.ite hm.modLim.clearReason hm.modLim)

theorem Dev.Inv.emptyCheck {k : Nat} (hm : d.Inv M Q) : (d.emptyCheck k).Inv M Q := .ite hm.wantHome hm

theorem Dev.Inv.lightUp (hm : d.Inv M Q) : (d.lightUp).Inv M Q := .ite hm (.foldl (fun _ _ h => .ite h.setLmEn h) hm)

theorem Dev.Inv.warm {s : Nat} (hm : d.Inv M Q) : (d.warm s).Inv M Q := hm.modSlot.setSlotSt.lightUp

theorem Dev.Inv.limDone {k : Nat} {e : Ending} (hm : d.Inv M Q) : (d.limDone k e).Inv M Q :=
  .foldl (fun _ _ h => h.finishKey) hm.modLim

theorem Dev.Inv.switchStart {k : Nat} (hm : d.Inv M Q) : (d.switchStart k).Inv M Q :=
  .ite hm.modLim (.ite hm.wantSpare (.ite hm (.modLim (.setFld hm))))

theorem Dev.Inv.spareReady {s : Nat} (hm : d.Inv M Q) : (d.spareReady s).Inv M Q := by
  unfold Dev.spareReady
  split
  · exact hm.switchStart
  · exact hm

theorem Dev.Inv.relight {k : Nat} (hm : d.Inv M Q) : (d.relight k).Inv M Q := .ite hm.switchStart hm.switchStart.modLim

theorem Dev.Inv.unassign {s : Nat} (hm : d.Inv M Q) : (d.unassign s).Inv M Q := hm.modLim

theorem Dev.Inv.releaseSpare {k : Nat} (hm : d.Inv M Q) : (d.releaseSpare k).Inv M Q :=
  .ite hm (.ite hm.modLim hm.setLmEn.setSlotSt.unassign.spareReady)

theorem Dev.Inv.dropMoves {k : Nat} (hm : d.Inv M Q) : (d.dropMoves k).Inv M Q := .foldl (fun _ _ h => h.modPort) hm

theorem Dev.Inv.movesDone {k : Nat} (hm : d.Inv M Q) : (d.movesDone k).Inv M Q :=
  .ite hm (.ite (.limDone (.ite hm.setLmEn.setSlotSt.wantHome hm)) (.ite hm.releaseSpare hm))

theorem Dev.Inv.moveMade {p : Nat} (hm : d.Inv M Q) : (d.moveMade p).Inv M Q := .movesDone (.ite hm hm.bumpSat)

theorem Dev.Inv.flipFeed {p : Nat} (hm : d.Inv M Q) : (d.flipFeed p).Inv M Q := hm.setFld

theorem Dev.Inv.takeBackup {k : Nat} (hm : d.Inv M Q) : (d.takeBackup k).Inv M Q :=
  .movesDone (.foldl (fun _ _ h => h.flipFeed.modPort) hm.dropMoves.modLim)

theorem Dev.Inv.confirmBackup {k : Nat} (hm : d.Inv M Q) : (d.confirmBackup k).Inv M Q :=
  .ite (.movesDone (.foldl (fun _ _ h => h.deferGap) hm.modLim.setSlotSt)) hm.modLim.takeBackup

theorem Dev.Inv.feedsLost {l : List Nat} (hm : d.Inv M Q) : (d.feedsLost l).Inv M Q :=
  .foldl (fun _ _ h => .ite (.failPort h) (.ite (.trainFails h) (.refreshFlags h))) hm

theorem Dev.Inv.spareLost {s k : Nat} (hm : d.Inv M Q) : (d.spareLost s k).Inv M Q :=
  .limDone (.emptyCheck (.wantSpare (.ite hm.unassign.dropMoves.modLim.modLim hm.unassign.dropMoves.modLim)))

theorem Dev.Inv.stopFeeding {s st cause : Nat} (hm : d.Inv M Q) : (d.stopFeeding s st cause).Inv M Q := by
  unfold Dev.stopFeeding
  extract_lets ports fed group d1 d2 d3 d4
  have h2 : d2.Inv M Q := by
    unfold d2
    cases group with
    | none => exact hm.setLmEn.setSlotSt
    | some k => exact hm.setLmEn.setSlotSt.spareLost
  have h3 : d3.Inv M Q := .ite h2.bumpSat.feedsLost h2
  have h4 : d4.Inv M Q := .ite h3.wantHome h3.emptyCheck
  exact .ite (.ite (.ite h4.takeBackup h4.relight) h4) h3

theorem Dev.Inv.homeOnline {k : Nat} (hm : d.Inv M Q) : (d.homeOnline k).Inv M Q :=
  .ite hm.dropMoves.modLim.limDone.releaseSpare (.foldl (fun _ _ h => h.deferGap) hm.dropMoves.modLim.limDone)

/-! ## Machine/Regs -/

theorem Dev.Inv.writeField {f : Field} {v : Nat} (hm : d.Inv M Q) : (d.writeField f v).Inv M Q := by
  unfold Dev.writeField
  extract_lets x
  split
  · exact hm
  · exact hm
  · exact hm.setFld
  · exact .ite hm hm.setFld
  · exact hm.setFld
  · exact hm.setFld

theorem Dev.Inv.srTest (hm : d.Inv M Q) : (d.srTest).Inv M Q := hm.setFld

theorem Dev.Inv.evtData {v : Nat} (hm : d.Inv M Q) : (d.evtData v).Inv M Q := .ite hm.bumpSat hm.evtSet

theorem Dev.Inv.writeReg {r : RegRow} {idx v : Nat} (hm : d.Inv M Q) : (d.writeReg r idx v).Inv M Q := by
  unfold Dev.writeReg
  extract_lets d1 d2
  have h1 : d1.Inv M Q := .foldl (fun _ _ h => h.writeField) hm
  have h2 : d2.Inv M Q := .ite h1.bumpSat h1
  exact .ite hm.evtData (.ite hm (.ite h2.srTest h2))

theorem Dev.Inv.write32 {off v : Nat} (hm : d.Inv M Q) : (d.write32 off v).Inv M Q := by
  unfold Dev.write32
  split
  · exact .ite hm hm.writeReg
  · exact hm

theorem Dev.Inv.write64 {off v : Nat} (hm : d.Inv M Q) : (d.write64 off v).Inv M Q := by
  unfold Dev.write64
  split
  · exact .ite hm.writeReg hm.writeReg.write32
  · exact hm.write32

theorem Dev.Inv.zeroUpdArea (hm : d.Inv M Q) : (d.zeroUpdArea).Inv M Q := hm.zero

theorem Dev.Inv.lockNow (hm : d.Inv M Q) : (d.lockNow).Inv M Q := by
  unfold Dev.lockNow
  extract_lets d1 d2 d3 d4 d5 d6
  have h4 : d4.Inv M Q := Dev.Inv.zeroUpdArea (Dev.Inv.lockChecks ⟨hm.1, hm.2⟩)
  clear_value d4
  have h5 : d5.Inv M Q := .ite h4.setFld h4
  clear_value d5
  have h6 : d6.Inv M Q := h5.setFld
  exact ⟨h6.1, h6.2⟩

theorem Dev.Inv.lockRequest (hm : d.Inv M Q) : (d.lockRequest).Inv M Q := .ite hm.lockNow hm.setFld.setFld

/-! ## Machine/Boot -/

theorem Dev.Inv.flashWrite {a : Nat} {l : List Byte} (hm : d.Inv M Q) : (d.flashWrite a l).Inv M Q := hm

theorem Dev.Inv.flashErase {a n : Nat} (hm : d.Inv M Q) : (d.flashErase a n).Inv M Q := hm

theorem Dev.Inv.interruptFlash (hm : d.Inv M Q) : (d.interruptFlash).Inv M Q := by
  unfold Dev.interruptFlash
  split
  · exact hm
  · extract_lets _ d1
    split
    · exact .flashErase hm
    · exact .flashWrite (.flashErase hm)

theorem Dev.Inv.loadAct {pins : Nat} (hm : d.Inv M Q) : (d.loadAct pins).Inv M Q :=
  .foldl (fun _ _ h => h.setFld) (.setOn (.setFld (.setOn (.setOn (.setFld hm)))))

theorem Dev.Inv.showStraps {r : RomInputs} (hm : d.Inv M Q) : (d.showStraps r).Inv M Q := hm.setFld.setFld.setFld

theorem Dev.Inv.imageAccepted {h : List Byte} (hm : d.Inv M Q) : (d.imageAccepted h).Inv M Q :=
  .foldl (fun _ _ h => h.setFld) (.setFld (.setFld (.setFld (.setFld hm))))

theorem Dev.Inv.selectLanes {l b : Nat} {passing : List Nat} (hm : d.Inv M Q) : (d.selectLanes l b passing).Inv M Q :=
  .ite hm.setFld.setFld.setFld.setFld.setFld.setReason hm.setFld.setFld.setFld.setFld.setFld

theorem Dev.Inv.linkLost {l : Nat} (hm : d.Inv M Q) : (d.linkLost l).Inv M Q :=
  .ite (.foldl (fun _ _ h => h.loseCore) hm) (.foldl (fun _ _ h => h.setFld.setFld.setFld.setFldBit.record.refreshFlags) hm)

theorem Dev.Inv.startBundle {res : List (Nat × LaneResult)} {e : Nat × Nat} (hm : d.Inv M Q) :
    (Dev.startBundle res d e).Inv M Q := by
  unfold Dev.startBundle
  extract_lets pass n d1
  have h1 : d1.Inv M Q := hm.selectLanes
  exact .ite h1.setFldBit (.record (.setFldBit h1))

theorem Dev.Inv.applyPreset {p : Nat × Bool × Nat} (hm : d.Inv M Q) : (d.applyPreset p).Inv M Q := .ite hm.write64 hm.write32

theorem Dev.Inv.applyPresets (hm : d.Inv M Q) : (d.applyPresets).Inv M Q := by
  unfold Dev.applyPresets
  split
  · exact hm
  · exact .setFld (.foldl (fun _ _ h => h.applyPreset) hm)

theorem Dev.Inv.rcvProgram (hm : d.Inv M Q) : (d.rcvProgram).Inv M Q := .ite (.setFld hm) hm.setFld.setFld

/-! ## Machine/Cores -/

theorem Dev.Inv.setCore {c : Nat} {x : Core} (hm : d.Inv M Q) : (d.setCore c x).Inv M Q := hm

theorem Dev.Inv.modCore {c : Nat} {f : Core → Core} (hm : d.Inv M Q) : (d.modCore c f).Inv M Q := hm.setCore

theorem Dev.Inv.modRun {k : Nat × Nat} {f : Run → Run} (hm : d.Inv M Q) : (d.modRun k f).Inv M Q := hm

theorem Dev.Inv.modOwner {c : Nat} {f : Run → Run} (hm : d.Inv M Q) : (d.modOwner c f).Inv M Q := by
  unfold Dev.modOwner
  split
  · exact hm.modRun
  · exact hm

theorem Dev.Inv.showMigs {t : Nat} (hm : d.Inv M Q) : (d.showMigs t).Inv M Q := hm.setFldBit.setFldBit

theorem Dev.Inv.noSpareSite {c : Nat} {cause : MigCause} {desc : Option (Nat × Nat)} (hm : d.Inv M Q) :
    (d.noSpareSite c cause desc).Inv M Q := by
  unfold Dev.noSpareSite
  extract_lets _ d1 d2
  split
  · exact .finishKey (.setReason (.ite hm.loseCore (.refreshFlags (.ite (.setCoreSt hm) hm))))
  · exact .setReason (.ite hm.loseCore (.refreshFlags (.ite (.setCoreSt hm) hm)))

theorem Dev.Inv.askMigration {c : Nat} {cause : MigCause} {desc : Option (Nat × Nat)} (hm : d.Inv M Q) :
    (d.askMigration c cause desc).Inv M Q :=
  .ite hm (.ite (.showMigs (.setCoreSt hm)) hm.noSpareSite)

theorem Dev.Inv.memFault {a reader : Nat} (hm : d.Inv M Q) : (d.memFault a reader).Inv M Q := .record (.ite hm.bumpSat hm)

theorem Dev.Inv.meetEcc {e : Ecc} (hm : d.Inv M Q) : (d.meetEcc e).Inv M Q := .foldl (fun _ _ h => h.setPoison) hm

theorem Dev.Inv.freeCores {r : Run} (hm : d.Inv M Q) : (d.freeCores r).Inv M Q := .foldl (fun _ _ h => .ite h.setCore h) hm

theorem Dev.Inv.grant {r : Run} (hm : d.Inv M Q) : (d.grant r).Inv M Q :=
  .ite (.foldl (fun _ _ h => h.setCore) hm) (.modRun (.foldl (fun _ _ h => h.setCore) hm))

theorem Dev.Inv.grantList {rs : List Run} {kept : List Nat} (hm : d.Inv M Q) : (Dev.grantList rs kept d).Inv M Q := by
  induction rs generalizing d kept with
  | nil => exact hm
  | cons r rs ih => exact ih (.ite hm.grant hm)

theorem Dev.Inv.grantRuns (hm : d.Inv M Q) : (d.grantRuns).Inv M Q := hm.grantList

theorem Dev.Inv.finishRun {r : Run} {e : Ending} (hm : d.Inv M Q) : (d.finishRun r e).Inv M Q :=
  .grantRuns (.finishStep (.ite (.bumpSat hm.freeCores) hm.freeCores))

theorem Dev.Inv.checkRunEnd {k : Nat × Nat} (hm : d.Inv M Q) : (d.checkRunEnd k).Inv M Q := by
  unfold Dev.checkRunEnd
  split
  · exact .ite hm.finishRun hm
  · exact hm

theorem Dev.Inv.checkOwnerEnd {c : Nat} (hm : d.Inv M Q) : (d.checkOwnerEnd c).Inv M Q := by
  unfold Dev.checkOwnerEnd
  split
  · exact hm.checkRunEnd
  · exact hm

theorem Dev.Inv.haltCore {c : Nat} {e : Option Ending} (hm : d.Inv M Q) : (d.haltCore c e).Inv M Q := by
  unfold Dev.haltCore
  split
  · exact hm
  · exact .checkRunEnd (.modRun (.ite hm.modCore hm))

theorem Dev.Inv.stopCore {c : Nat} {e : Ending} (hm : d.Inv M Q) : (d.stopCore c e).Inv M Q := hm.haltCore

theorem Dev.Inv.stopOp {c pos : Nat} {e : Ending} (hm : d.Inv M Q) : (d.stopOp c pos e).Inv M Q := hm.modCore.stopCore

theorem Dev.Inv.stopMem {c pos a reader : Nat} (hm : d.Inv M Q) : (d.stopMem c pos a reader).Inv M Q := hm.memFault.stopOp

theorem Dev.Inv.opDone {c pos : Nat} (hm : d.Inv M Q) : (d.opDone c pos).Inv M Q := hm.modCore.bump.checkOwnerEnd

theorem Dev.Inv.putPassRow {c : Nat} {l : List Byte} {e : Nat × List Nat × Bool} (hm : d.Inv M Q) :
    (Dev.putPassRow c l d e).Inv M Q :=
  .ite hm.write hm.write

theorem Dev.Inv.passOutput {c : Nat} {l : List Byte} {t : Tile} (hm : d.Inv M Q) : (d.passOutput c l t).Inv M Q :=
  .foldl (fun _ _ h => h.putPassRow) hm

theorem Dev.Inv.scrambleSet {l : List Rng} (hm : d.Inv M Q) : (d.scrambleSet l).Inv M Q := .foldl (fun _ _ h => h.scramble) hm

theorem Dev.Inv.gradCount {layer unf ovf : Nat} (hm : d.Inv M Q) : (d.gradCount layer unf ovf).Inv M Q := hm

theorem Dev.Inv.putDrainRow {c : Nat} {l r : List Byte} {x : DrainRow} (hm : d.Inv M Q) : (Dev.putDrainRow c l r d x).Inv M Q :=
  .ite (.write (.ite hm.write.write hm.write)) (.ite hm.write.write hm.write)

theorem Dev.Inv.drainOutput {c : Nat} {l r : List Byte} {rows : List DrainRow} {e : Int} {attempts : Nat} {sat : Bool}
    (hm : d.Inv M Q) : (d.drainOutput c l r rows e attempts sat).Inv M Q :=
  .ite (.write (.foldl (fun _ _ h => h.putDrainRow) hm)) (.foldl (fun _ _ h => h.putDrainRow) hm)

theorem Dev.Inv.takeBudget {c : Nat} (hm : d.Inv M Q) : (d.takeBudget c).Inv M Q := .modOwner hm

theorem Dev.Inv.discardPasses {c : Nat} (hm : d.Inv M Q) : (d.discardPasses c).Inv M Q := .foldl (fun _ _ h => h.scrambleSet) hm

theorem Dev.Inv.passPoison {c pos a : Nat} (hm : d.Inv M Q) : (d.passPoison c pos a).Inv M Q := by
  unfold Dev.passPoison
  exact hm.discardPasses.modCore.stopMem

theorem Dev.Inv.markFault {c cause arrays : Nat} {second : Bool} (hm : d.Inv M Q) :
    (d.markFault c cause arrays second).Inv M Q := by
  unfold Dev.markFault
  extract_lets d1 d2 d3 d4
  have h1 : d1.Inv M Q := hm.bumpSat.setFldBit.bumpSat
  have h2 : d2.Inv M Q := h1.setFld.setFld.setFld
  have h3 : d3.Inv M Q := ⟨h2.1, h2.2⟩
  have h4 : d4.Inv M Q := .ite h3.bumpSat h3
  exact h4.record

theorem Dev.Inv.replayFault {c : Nat} (hm : d.Inv M Q) : (d.replayFault c).Inv M Q :=
  .ite hm.setCore (.ite hm.setCore.stopCore hm.modCore.takeBudget)

theorem Dev.Inv.failRun {k : Nat × Nat} (hm : d.Inv M Q) : (d.failRun k).Inv M Q := by
  unfold Dev.failRun
  split
  · exact hm
  · split
    · exact hm
    · exact .ite hm.finishRun (.ite hm.modCore.stopCore (.ite hm.modRun.checkRunEnd hm))

theorem Dev.Inv.failRuns (hm : d.Inv M Q) : (d.failRuns).Inv M Q := .foldl (fun _ _ h => h.failRun) hm

theorem Dev.Inv.withList {j : Desc} {a n : Nat} {go : Dev → List Byte → Dev} (hm : d.Inv M Q)
    (hgo : ∀ d x, d.Inv M Q → (go d x).Inv M Q) : (d.withList j a n go).Inv M Q := by
  unfold Dev.withList
  refine .ite ?_ ?_
  · split
    · exact hm.memFault.finish
    · exact hm.finish
    · exact hm.finish
    · exact hgo _ _ hm
  · exact .ite hm.finish (hgo _ _ hm)

theorem Dev.Inv.retireCore {c : Nat} {e : Ending} (hm : d.Inv M Q) : (d.retireCore c e).Inv M Q :=
  hm.markStep.modCore.askMigration.stopCore.failRuns

theorem Dev.Inv.arrayFault {c cause arrays : Nat} (hm : d.Inv M Q) : (d.arrayFault c cause arrays).Inv M Q :=
  .ite hm.markFault.discardPasses.retireCore (.ite hm.markFault.discardPasses hm.markFault.discardPasses.replayFault)

/-! ## Machine/CarBase -/

theorem Dev.Inv.modColl {k : Nat × Nat} {f : Coll → Coll} (hm : d.Inv M Q) : (d.modColl k f).Inv M Q := hm

theorem Dev.Inv.carConv {ovf nonfin : Nat} (hm : d.Inv M Q) : (d.carConv ovf nonfin).Inv M Q := hm.bumpSat.bumpSat

theorem Dev.Inv.finishColl {c : Coll} {e : Ending} (hm : d.Inv M Q) : (d.finishColl c e).Inv M Q := by
  unfold Dev.finishColl
  extract_lets d1 _ d2 _ d3 d4 d5
  have h1 : d5.Inv M Q := by
    unfold d5
    split
    · exact .bumpSat (.bump (.ite hm hm.scrambleSet))
    · exact .bumpSat (.bump (.ite hm hm.scrambleSet))
    · exact .bumpSat (.bump (.ite hm hm.scrambleSet))
    · exact .bump (.ite hm hm.scrambleSet)
  exact h1.finishStep

theorem Dev.Inv.noteSeen {op : Nat} {body : List Byte} (hm : d.Inv M Q) : (d.noteSeen op body).Inv M Q := hm

theorem Dev.Inv.relay {members : List Nat} {op : Nat} {body : List Byte} (hm : d.Inv M Q) : (d.relay members op body).Inv M Q :=
  .ite (.foldl (fun _ _ h => h.send) hm) hm

theorem Dev.Inv.poisonColl {c : Coll} {round chunk : Nat} {e : Ending} (hm : d.Inv M Q) :
    (d.poisonColl c round chunk e).Inv M Q :=
  hm.noteSeen.relay.markStep.finishColl

theorem Dev.Inv.abortColl {c : Coll} {cause x : Nat} {e : Ending} (hm : d.Inv M Q) : (d.abortColl c cause x e).Inv M Q :=
  hm.noteSeen.relay.finishColl

theorem Dev.Inv.collPeerLost {c : Coll} {x : Nat} (hm : d.Inv M Q) : (d.collPeerLost c x).Inv M Q := hm.sight.abortColl

theorem Dev.Inv.carSend {k : Nat × Nat} {p : Packet} (hm : d.Inv M Q) : (d.carSend k p).Inv M Q := by
  unfold Dev.carSend
  split
  · exact .ite hm.send.collPeerLost hm.send
  · exact hm

theorem Dev.Inv.collsLost {x : Nat} (hm : d.Inv M Q) : (d.collsLost x).Inv M Q := .foldl (fun _ _ h => h.collPeerLost) hm

theorem Dev.Inv.collFault {c : Coll} {a : Nat} (hm : d.Inv M Q) : (d.collFault c a).Inv M Q := by
  unfold Dev.collFault
  have h1 : (d.memFault a 2).Inv M Q := hm.memFault
  exact h1.poisonColl

/-! ## Machine/UpdOps -/

theorem Dev.Inv.countDamaged (hm : d.Inv M Q) : (d.countDamaged).Inv M Q := hm.setFld

theorem Dev.Inv.unbind {t : Nat} (hm : d.Inv M Q) : (d.unbind t).Inv M Q := by
  unfold Dev.unbind
  split
  · exact hm
  · exact .countDamaged hm

theorem Dev.Inv.putBind {b : Binding} (hm : d.Inv M Q) : (d.putBind b).Inv M Q := hm.unbind

theorem Dev.Inv.freeze {t first n : Nat} {on : Bool} (hm : d.Inv M Q) : (d.freeze t first n on).Inv M Q := by
  unfold Dev.freeze
  split
  · exact hm
  · exact hm

theorem Dev.Inv.putNarrow {b : Binding} {i : Nat} {l : List Byte} (hm : d.Inv M Q) : (d.putNarrow b i l).Inv M Q :=
  .ite hm.store.store hm.store

theorem Dev.Inv.writeUndo {b : Binding} {i : Nat} {owner : Bool} (hm : d.Inv M Q) : (d.writeUndo b i owner).Inv M Q :=
  .ite hm (.bump hm.store)

theorem Dev.Inv.blockErr {c : Coll} {e : MemErr} (hm : d.Inv M Q) : (d.blockErr c e).Inv M Q := by
  unfold Dev.blockErr
  split
  · exact hm.collFault
  · exact hm.poisonColl
  · exact hm.poisonColl

theorem Dev.Inv.clearRun {k : Nat} (hm : d.Inv M Q) : (d.clearRun k).Inv M Q := ⟨hm.1, hm.2⟩

theorem Dev.Inv.startBlock {k : Nat} {j : BlkJob} (hm : d.Inv M Q) : (d.startBlock k j).Inv M Q := by
  unfold Dev.startBlock
  split
  · exact hm.clearRun
  · split
    · exact hm.clearRun
    · split
      · exact hm.clearRun.blockErr
      · exact ⟨hm.1, hm.2⟩

theorem Dev.Inv.nextBlock {k : Nat} (hm : d.Inv M Q) : (d.nextBlock k).Inv M Q := by
  unfold Dev.nextBlock
  split
  · exact hm
  · exact .startBlock hm

theorem Dev.Inv.giveBlock {k : Nat} {c : Coll} {n : Nat} (hm : d.Inv M Q) : (d.giveBlock k c n).Inv M Q :=
  .ite hm.modColl.startBlock hm

theorem Dev.Inv.writeBlock {c : Coll} {x : VecCtx} {b : Binding} {i n : Nat} (hm : d.Inv M Q) :
    (d.writeBlock c x b i n).Inv M Q :=
  .modColl (.bump (.bumpSat (.bumpSat (.putNarrow (.foldl (fun _ _ h => h.store) hm.writeUndo.store)))))

theorem Dev.Inv.returnFrozen {c : Coll} {b : Binding} {i n : Nat} (hm : d.Inv M Q) : (d.returnFrozen c b i n).Inv M Q := by
  unfold Dev.returnFrozen
  split
  · exact hm.blockErr
  · exact hm.bump.modColl

theorem Dev.Inv.takeBlock {c : Coll} {n : Nat} {l : List Byte} (hm : d.Inv M Q) : (d.takeBlock c n l).Inv M Q := by
  unfold Dev.takeBlock
  split
  · exact hm
  · split
    · exact hm.blockErr
    · exact hm.writeUndo.putNarrow

theorem Dev.Inv.blockStop {k : Nat} {st : Status} {pc : Nat} (hm : d.Inv M Q) : (d.blockStop k st pc).Inv M Q := by
  unfold Dev.blockStop
  extract_lets d1
  split
  · exact hm.bumpSat.clearRun.nextBlock
  · exact hm.bumpSat.clearRun.poisonColl.nextBlock

theorem Dev.Inv.blockAgain {j : BlkJob} {errs : Nat} (hm : d.Inv M Q) : (d.blockAgain j errs).Inv M Q := hm.modColl

theorem Dev.Inv.retireUpd {k : Nat} (hm : d.Inv M Q) : (d.retireUpd k).Inv M Q :=
  .refreshFlags (.ite (.setReason (.record hm)) (.record hm))

theorem Dev.Inv.noUpdCores (hm : d.Inv M Q) : (d.noUpdCores).Inv M Q := .ite (.foldl (fun _ _ h => h.poisonColl) hm) hm

theorem Dev.Inv.updFault {k : Nat} (hm : d.Inv M Q) : (d.updFault k).Inv M Q := by
  unfold Dev.updFault
  extract_lets run wait d1 u d2 d3 d4
  have h1 : d1.Inv M Q := hm.bumpSat.clearRun.retireUpd
  have h2 : d2.Inv M Q := ⟨h1.1, h1.2⟩
  have h3 : d3.Inv M Q := by
    unfold d3
    cases wait with
    | none => exact h2
    | some j => exact h2.blockAgain
  have h4 : d4.Inv M Q := by
    unfold d4
    cases run with
    | none => exact h3
    | some j =>
      dsimp only
      split
      · exact h3.blockAgain
      · exact .ite h3.blockAgain.poisonColl h3.blockAgain
  exact h4.noUpdCores

/-! ## Machine/CarOps -/

theorem Dev.Inv.exSend {c : Coll} {code q : Nat} {ranks : List Nat} (hm : d.Inv M Q) : (d.exSend c code q ranks).Inv M Q :=
  .foldl (fun _ _ h => .carSend h) hm.modColl

theorem Dev.Inv.exPump {k : Nat × Nat} {n : Nat} (hm : d.Inv M Q) : (Dev.exPump k n d).Inv M Q := by
  induction n generalizing d with
  | zero => exact hm
  | succ n ih =>
    unfold Dev.exPump
    split
    · exact hm
    · split
      · exact hm
      · exact ih hm.exSend

theorem Dev.Inv.sendChunk {c : Coll} {o : OutXfer} {k : Chunk} (hm : d.Inv M Q) : (d.sendChunk c o k).Inv M Q :=
  .carSend (.foldl (fun _ _ h => h.carSend) hm.carConv.bump.modColl)

theorem Dev.Inv.sendGrant {c : Coll} {x : InXfer} {upto : Nat} (hm : d.Inv M Q) : (d.sendGrant c x upto).Inv M Q := hm.carSend

theorem Dev.Inv.withPartials {c : Coll} {e n : Nat} {f : Dev} (hm : d.Inv M Q) (hf : f.Inv M Q) :
    (d.withPartials c e n f).Inv M Q := by
  unfold Dev.withPartials
  split
  · exact hm.collFault
  · exact hf

theorem Dev.Inv.takeBlocks {c : Coll} {s off len : Nat} {seg : List Byte} (hm : d.Inv M Q) :
    (d.takeBlocks c s off len seg).Inv M Q := by
  unfold Dev.takeBlocks
  refine .foldl (fun _ _ h => ?_) ?_
  · refine .ite ?_ ?_
    · split
      · exact h.takeBlock
      · exact h
    · exact h
  · exact hm

theorem Dev.Inv.takeChunk {c : Coll} {x : InXfer} (hm : d.Inv M Q) : (d.takeChunk c x).Inv M Q := by
  unfold Dev.takeChunk
  split
  · extract_lets data x' d1 seg d2 d3
    have h1 : d1.Inv M Q := hm.bump.modColl
    have h3 : d3.Inv M Q := .ite h1.modColl (.ite h1.modColl.takeBlocks h1.modColl)
    exact .ite h3.sendGrant h3
  · exact hm

theorem Dev.Inv.consume {c : Coll} {x : InXfer} (hm : d.Inv M Q) : (d.consume c x).Inv M Q := by
  unfold Dev.consume
  split
  · exact .ite (hm.withPartials hm.takeChunk) hm.takeChunk
  · exact hm

theorem Dev.Inv.readAndSend {c : Coll} {o : OutXfer} {k : Chunk} (hm : d.Inv M Q) : (d.readAndSend c o k).Inv M Q :=
  .ite (hm.withPartials hm.sendChunk) hm.sendChunk

theorem Dev.Inv.convertSegs {c : Coll} (hm : d.Inv M Q) : (d.convertSegs c).Inv M Q :=
  .foldl (fun _ _ h => h.carConv.modColl) hm.modColl

theorem Dev.Inv.convertOwn {c : Coll} (hm : d.Inv M Q) : (d.convertOwn c).Inv M Q := by
  unfold Dev.convertOwn
  split
  · exact hm.collFault
  · exact hm.convertSegs

theorem Dev.Inv.putBufs {f : Nat} {bs : List (Nat × Nat)} {l : List Byte} (hm : d.Inv M Q) : (Dev.putBufs f bs l d).Inv M Q := by
  induction bs generalizing d l with
  | nil => exact hm
  | cons b r ih => exact ih (.ite hm hm.store)

theorem Dev.Inv.collDone {c : Coll} (hm : d.Inv M Q) : (d.collDone c).Inv M Q := by
  unfold Dev.collDone
  split
  · exact hm.collFault
  · exact hm.scrambleSet.putBufs.finishColl

theorem Dev.Inv.collAct {d e : Dev} {c : Coll} (hm : d.Inv M Q) (he : d.collAct c = some e) : e.Inv M Q := by
  unfold Dev.collAct at he
  split at he
  · cases he; exact hm.consume
  · split at he
    · cases he; exact hm.convertOwn
    · split at he
      · cases he; exact hm.returnFrozen
      · dsimp only at he
        split at he
        · cases he; exact hm.modColl.sendGrant
        · split at he
          · split at he <;> cases he
            exact hm.readAndSend
          · split at he <;> cases he
            exact hm.collDone

theorem Dev.Inv.collPump {k : Nat × Nat} {n : Nat} (hm : d.Inv M Q) : (Dev.collPump k n d).Inv M Q := by
  induction n generalizing d with
  | zero => exact hm
  | succ n ih =>
    unfold Dev.collPump
    split
    · exact hm
    · refine .ite hm ?_
      split
      next e he => exact ih (hm.collAct he)
      · exact hm

theorem Dev.Inv.pumpColl {k : Nat × Nat} (hm : d.Inv M Q) : (d.pumpColl k).Inv M Q := by
  unfold Dev.pumpColl
  split
  · exact hm.collPump
  · exact hm

theorem Dev.Inv.startData {c : Coll} (hm : d.Inv M Q) : (d.startData c).Inv M Q := by
  unfold Dev.startData
  split
  · exact hm.collFault
  · exact hm.scrambleSet.modColl.pumpColl

theorem Dev.Inv.exStep {k : Nat × Nat} (hm : d.Inv M Q) : (d.exStep k).Inv M Q := by
  unfold Dev.exStep
  extract_lets d1
  have h1 : d1.Inv M Q := by
    unfold d1
    split
    · exact hm.exPump
    · exact hm
  split
  · exact h1
  · refine .ite ?_ ?_
    · exact h1
    · split
      · exact h1.startData
      · exact .ite h1.finishColl h1.bumpSat.finishColl

theorem Dev.Inv.takeSlot {c : Coll} {slot : Nat} (hm : d.Inv M Q) : (d.takeSlot c slot).Inv M Q := hm.modColl.exStep

/-! ## Machine/Host -/

theorem Dev.Inv.readDoorbell {r tail cq : Nat} (hm : d.Inv M Q) : (d.readDoorbell r tail cq).Inv M Q :=
  .ite hm.setRing (.ite hm.setRing hm.setRing.bumpSat)

theorem Dev.Inv.fetch {r n : Nat} (hm : d.Inv M Q) : (Dev.fetch r n d).Inv M Q := by
  induction n generalizing d with
  | zero => exact hm
  | succ n ih =>
    unfold Dev.fetch
    exact .ite hm (ih hm.setRing)

theorem Dev.Inv.poll (hm : d.Inv M Q) : (d.poll).Inv M Q := by
  unfold Dev.poll
  extract_lets a l old d1 moved d2 d3 q d4
  have h1 : d1.Inv M Q := .ite hm (.foldl (fun _ _ h => h.readDoorbell) hm)
  have h2 : d2.Inv M Q := .foldl (fun _ _ h => h.fetch) h1
  have h3 : d3.Inv M Q := .ite h2.hostWrite h2
  have h4 : d4.Inv M Q := ⟨h3.1, h3.2⟩
  exact .foldl (fun _ _ h => h.flushHeld) h4

theorem Dev.Inv.sendPending {v : Nat} (hm : d.Inv M Q) : (d.sendPending v).Inv M Q := .ite (.msix hm) hm

theorem Dev.Inv.putResult {j : Desc} {a : Nat} {l : List Byte} {go : Dev → Dev} (hm : d.Inv M Q) (hgo : ∀ d, d.Inv M Q →
    (go d).Inv M Q) : (d.putResult j a l go).Inv M Q := by
  unfold Dev.putResult
  refine .ite ?_ ?_
  · split
    · exact hm.finish
    · exact hm.finish
    · exact hgo _ hm.store
  · exact hgo _ hm.hostWrite

theorem Dev.Inv.startRun {met : Nat} {j : Desc} (hm : d.Inv M Q) : (Dev.startRun met d j).Inv M Q := by
  unfold Dev.startRun
  split
  · exact hm.memFault.finishStep
  · exact hm.finishStep
  · exact hm.finishStep
  · exact .grantRuns hm

/-! ## Machine/Carousel -/

theorem Dev.Inv.readFusion {d e : Dev} {j : Desc} {a : Nat} {send : Bool} {k off : Nat} {acc : List (List Byte)} {f : Dev → Dev}
    (hm : e.Inv M Q) (hf : d.readFusion j a send k off acc = .inl f) : (f e).Inv M Q := by
  induction k generalizing off acc with
  | zero => cases hf
  | succ k ih =>
    unfold Dev.readFusion at hf
    dsimp only at hf
    split at hf
    · cases hf; exact hm.refuse
    · split at hf
      next g hg =>
        cases hf
        split at hg
        · split at hg <;> cases hg
          · exact hm.memFault.refuse
          · exact hm.refuse
          · exact hm.refuse
        · split at hg <;> cases hg
          exact hm.refuse
      · split at hf
        · cases hf
        · split at hf
          · cases hf; exact hm.refuse
          · exact ih hf

theorem Dev.Inv.collList {d e : Dev} {j : Desc} {a : Nat} {send : Bool} {f : Dev → Dev} (hm : e.Inv M Q)
    (hf : d.collList j a send = .inl f) : (f e).Inv M Q := by
  unfold Dev.collList at hf
  split at hf
  · cases hf
  · exact hm.readFusion hf

theorem Dev.Inv.post {c : Coll} (hm : d.Inv M Q) : (d.post c).Inv M Q := by
  unfold Dev.post
  extract_lets xchg held c c _ d1
  split
  · exact .finishColl hm
  · exact .collPeerLost hm
  · refine .ite ?_ ?_
    · exact hm
    · refine .ite ?_ ?_
      · exact .abortColl hm
      · refine .ite ?_ ?_
        · exact .finishColl hm
        · split
          · exact .blockErr hm
          · exact .modColl hm

theorem Dev.Inv.postBufs {j : Desc} {send recv : List (Nat × Nat)} (hm : d.Inv M Q) : (d.postBufs j send recv).Inv M Q :=
  .ite hm.refuse (.ite hm.refuse (.ite hm.refuse hm.post))

theorem Dev.Inv.startColl {j : Desc} (hm : d.Inv M Q) : (d.startColl j).Inv M Q := by
  unfold Dev.startColl
  split
  next f hf => exact hm.collList hf
  next f hf _ => exact hm.collList hf
  next => exact .ite hm.refuse (.ite hm.refuse hm.postBufs)

theorem Dev.Inv.setGroup {g : Nat} {l : List Nat} (hm : d.Inv M Q) : (d.setGroup g l).Inv M Q := hm

theorem Dev.Inv.startGroup {j : Desc} (hm : d.Inv M Q) : (d.startGroup j).Inv M Q :=
  .ite hm.setGroup.finish (hm.withList (fun _ _ h => .ite h.finish (.ite h.finish h.setGroup.finish)))

theorem Dev.Inv.progress {c : Coll} (hm : d.Inv M Q) : (d.progress c).Inv M Q := hm.modColl

theorem Dev.Inv.holdEarly {p : Packet} (hm : d.Inv M Q) : (d.holdEarly p).Inv M Q := hm

theorem Dev.Inv.exAck {p : Packet} (hm : d.Inv M Q) : (d.exAck p).Inv M Q := hm.send

theorem Dev.Inv.exArrive {p : Packet} (hm : d.Inv M Q) : (d.exArrive p).Inv M Q := by
  unfold Dev.exArrive
  dsimp only
  split
  · have h1 : (d.exAck p).Inv M Q := hm.exAck
    exact .ite h1.progress.modColl.exStep h1.progress.modColl
  · exact .ite hm.exAck (.ite hm.holdEarly.exAck hm.bumpSat)

theorem Dev.Inv.crcFail {c : Coll} {code chunk : Nat} (hm : d.Inv M Q) : (d.crcFail c code chunk).Inv M Q := by
  unfold Dev.crcFail
  extract_lets d1 d2
  have h2 : d2.Inv M Q := hm.bumpSat.record
  exact h2.poisonColl

theorem Dev.Inv.adderFail {c : Coll} {code chunk : Nat} (hm : d.Inv M Q) : (d.adderFail c code chunk).Inv M Q :=
  hm.bumpSat.poisonColl

theorem Dev.Inv.relayNotice {p : Packet} (hm : d.Inv M Q) : (d.relayNotice p).Inv M Q := by
  unfold Dev.relayNotice
  extract_lets d1
  split
  · exact hm.noteSeen.relay
  · exact hm.noteSeen.relay

theorem Dev.Inv.applyNotice {p : Packet} (hm : d.Inv M Q) : (d.applyNotice p).Inv M Q := by
  unfold Dev.applyNotice
  extract_lets tag
  split
  · exact .finishColl (.ite hm.sight hm)
  · exact .ite hm hm.holdEarly

/-! ## Machine/Seq -/

theorem Dev.Inv.runChecked {r : Run} (hm : d.Inv M Q) : (d.runChecked r).Inv M Q := by
  unfold Dev.runChecked
  split
  · exact hm.finishRun
  · exact .foldl (fun _ _ h => h.modCore) hm.modRun

theorem Dev.Inv.dispatchNext {c : Nat} (hm : d.Inv M Q) : (d.dispatchNext c).Inv M Q := by
  unfold Dev.dispatchNext
  extract_lets x a
  split
  · exact hm.stopMem
  · exact .ite hm.stopOp hm.setCore

theorem Dev.Inv.countStart {t : Start} (hm : d.Inv M Q) : (d.countStart t).Inv M Q := hm.bump.bump.meetEcc

theorem Dev.Inv.startOpAt {c pos : Nat} {t : Start} {reader : Nat} {reads : OpRec → List Rng} {go : Dev → OpRec → Dev}
    (hm : d.Inv M Q) (hgo : ∀ d x, d.Inv M Q → (go d x).Inv M Q) : (d.startOpAt c pos t reader reads go).Inv M Q := by
  unfold Dev.startOpAt
  extract_lets d1
  split
  · exact hm.countStart
  · split
    · exact hm.countStart.stopMem
    · exact hgo _ _ hm.countStart

theorem Dev.Inv.begun {c pos : Nat} {f : OpRec → OpRec} (hm : d.Inv M Q) : (d.begun c pos f).Inv M Q := hm.modCore

theorem Dev.Inv.inject {c pos : Nat} {o : OpRec} (hm : d.Inv M Q) : (d.inject c pos o).Inv M Q := hm.setCore

theorem Dev.Inv.startStream {c pos : Nat} {t : Start} (hm : d.Inv M Q) : (d.startStream c pos t).Inv M Q := by
  unfold Dev.startStream
  have h1 : (d.countStart t).Inv M Q := hm.countStart
  generalize d.countStart t = e at h1 ⊢
  dsimp only
  split
  · exact h1
  · refine .ite h1.stopOp ?_
    split
    · exact h1.passPoison
    · exact h1.inject

theorem Dev.Inv.endPass {c pos : Nat} {o : OpRec} {t : Tile} (hm : d.Inv M Q) : (d.endPass c pos o t).Inv M Q := by
  unfold Dev.endPass
  split
  · exact hm.passPoison
  · split
    · exact hm.passPoison
    · extract_lets d1 d2 d3
      have h2 : d2.Inv M Q := hm.passOutput.bump.bump
      have h3 : d3.Inv M Q := .ite ⟨h2.1, h2.2⟩ h2
      exact h3.opDone

theorem Dev.Inv.vecUnitFault {c : Nat} (hm : d.Inv M Q) : (d.vecUnitFault c).Inv M Q :=
  .ite (.retireCore (.modCore (.discardPasses hm.markFault))) (.stopOp hm.markFault)

theorem Dev.Inv.countSaturated {c : Nat} (hm : d.Inv M Q) : (d.countSaturated c).Inv M Q := hm.bump.modOwner

theorem Dev.Inv.abandon {c m : Nat} (hm : d.Inv M Q) : (d.abandon c m).Inv M Q :=
  .modCore (.foldl (fun _ _ h => h.scrambleSet) hm)

theorem Dev.Inv.exhausted {c pos : Nat} (hm : d.Inv M Q) : (d.exhausted c pos).Inv M Q := by
  unfold Dev.exhausted
  refine .stopOp ?_
  split
  · exact hm.abandon
  · exact hm

theorem Dev.Inv.drainVerdict {c pos : Nat} {o : OpRec} {rows : List DrainRow} {e : Int} {sat overs : Bool} (hm : d.Inv M Q) :
    (d.drainVerdict c pos o rows e sat overs).Inv M Q :=
  .ite (.ite hm.exhausted (.ite hm.scrambleSet.modCore.checkOwnerEnd hm.setCore)) (.opDone
    (.ite hm.drainOutput.countSaturated hm.drainOutput))

theorem Dev.Inv.endDrain {c pos : Nat} {o : OpRec} (hm : d.Inv M Q) : (d.endDrain c pos o).Inv M Q := by
  unfold Dev.endDrain
  extract_lets l r
  split
  · exact hm.stopMem
  · exact .drainVerdict (.ite (.bump (.ite hm.bump.gradCount hm.bump)) (.ite hm.bump.gradCount hm.bump))

theorem Dev.Inv.overflowReplay {c : Nat} (hm : d.Inv M Q) : (d.overflowReplay c).Inv M Q := by
  unfold Dev.overflowReplay
  extract_lets x
  split
  · exact hm
  · exact .ite hm.exhausted hm.abandon.modCore.takeBudget.bump

theorem Dev.Inv.opAccess {c pos : Nat} {reads writes : List Rng} {go : Dev → Dev} (hm : d.Inv M Q) (hgo : ∀ d, d.Inv M Q →
    (go d).Inv M Q) : (d.opAccess c pos reads writes go).Inv M Q := by
  unfold Dev.opAccess
  split
  · exact hm.stopOp
  · split
    · exact hm.stopMem
    · split
      · exact hm.stopMem
      · exact hgo _ hm

theorem Dev.Inv.gatherFromN {c pos : Nat} {l : List Byte} {n i : Nat} (hm : d.Inv M Q) :
    (Dev.gatherFromN c pos l n i d).Inv M Q := by
  induction n generalizing d i with
  | zero => exact hm.opDone
  | succ n ih =>
    unfold Dev.gatherFromN
    refine .ite ?_ ?_
    · exact .stopOp (.ite hm hm.scramble)
    · split
      · exact hm.stopMem
      · split
        · exact hm.stopMem
        · exact ih hm.copy

theorem Dev.Inv.startXfer {c pos : Nat} {l : List Byte} (hm : d.Inv M Q) : (d.startXfer c pos l).Inv M Q := hm.begun.issueOp

theorem Dev.Inv.passNext {c : Nat} (hm : d.Inv M Q) : (d.passNext c).Inv M Q := hm.modCore

theorem Dev.Inv.fire {l : List Byte} (hm : d.Inv M Q) : (d.fire l).Inv M Q := hm.evtAdd.bump

/-! ## Machine/Preempt -/

theorem Dev.Inv.copyKept {src dst n : Nat} (hm : d.Inv M Q) : (d.copyKept src dst n).Inv M Q :=
  .mirror (.foldl (fun _ _ h => h.setPoison) hm.copy)

theorem Dev.Inv.readBack {c : Nat} {x : Core} (hm : d.Inv M Q) : (d.readBack c x).Inv M Q :=
  .setCore (.ite hm.scramble.scramble hm.scramble.scramble.copyKept)

theorem Dev.Inv.reloadActive {c : Nat} (hm : d.Inv M Q) : (d.reloadActive c).Inv M Q := by
  unfold Dev.reloadActive
  extract_lets x
  split
  · exact hm
  · extract_lets l
    split
    · exact hm.stopMem
    · exact hm.setCore

/-! ## Machine/Vault -/

theorem Dev.Inv.modVlt {f : Vlt → Vlt} (hm : d.Inv M Q) : (d.modVlt f).Inv M Q := hm

theorem Dev.Inv.askAtGap {c : Nat} {cause : MigCause} (hm : d.Inv M Q) : (d.askAtGap c cause).Inv M Q :=
  .ite hm.deferGap hm.askMigration.failRuns

theorem Dev.Inv.spareBank {c bk : Nat} (hm : d.Inv M Q) : (d.spareBank c bk).Inv M Q :=
  .ite hm (.ite (.ite hm.setReason.askAtGap hm.setReason) hm.modVlt)

theorem Dev.Inv.spareRow {c bk row : Nat} (hm : d.Inv M Q) : (d.spareRow c bk row).Inv M Q := by
  unfold Dev.spareRow
  split
  · exact hm.modVlt.bumpSat
  · exact hm.spareBank

theorem Dev.Inv.ueRow {c bk row : Nat} (hm : d.Inv M Q) : (d.ueRow c bk row).Inv M Q :=
  .ite hm.spareRow.modVlt.spareBank hm.spareRow.modVlt

theorem Dev.Inv.pipeFail {c p : Nat} (hm : d.Inv M Q) : (d.pipeFail c p).Inv M Q :=
  .ite hm.modVlt.modVlt (.ite hm.modVlt.deferGap hm.modVlt)

theorem Dev.Inv.pipeGood {c p : Nat} (hm : d.Inv M Q) : (d.pipeGood c p).Inv M Q := hm.modVlt

theorem Dev.Inv.attempts {c : Nat} {failed : List Nat} {pipe : Nat} (hm : d.Inv M Q) : (d.attempts c failed pipe).Inv M Q :=
  .ite (.bump (.foldl (fun _ _ h => h.pipeFail) hm)) (.pipeGood (.bump (.foldl (fun _ _ h => h.pipeFail) hm)))

theorem Dev.Inv.pipeTraffic {c : Nat} {e : VaultErr} (hm : d.Inv M Q) : (d.pipeTraffic c e).Inv M Q := hm.attempts

theorem Dev.Inv.sectorLost {c a : Nat} (hm : d.Inv M Q) : (d.sectorLost c a).Inv M Q :=
  .record (.ueRow (.ite hm.bumpSat.bumpSat hm.bumpSat.setPoison))

theorem Dev.Inv.sectorRead {c : Nat} {e : VaultErr} {lost : Bool} (hm : d.Inv M Q) : (d.sectorRead c e lost).Inv M Q :=
  .ite hm.bump.sectorLost (.ite hm.bump.spareRow hm.bump)

theorem Dev.Inv.poisonRead {a : Nat} (hm : d.Inv M Q) : (d.poisonRead a).Inv M Q :=
  .ite (.record (.bumpSat (.bumpSat hm))) hm.memFault

theorem Dev.Inv.scrubSector {t site ce : Nat} {hard ue : Bool} (hm : d.Inv M Q) : (d.scrubSector t site ce hard ue).Inv M Q := by
  unfold Dev.scrubSector
  extract_lets col n off c bk row cnt d1 d2 d3
  have h1 : d3.Inv M Q := by
    refine .ite ?_ ?_
    · split
      · exact hm.bump.modVlt.sectorLost
      · exact hm.bump.modVlt.bumpSat.ueRow.record
    · exact .ite hm.bump.modVlt.spareRow hm.bump.modVlt
  exact .ite (.modVlt (.ite h1.poisonRead h1)) (.bump (.modVlt (.ite h1.poisonRead h1)))

theorem Dev.Inv.migrationEnd {m : Migr} {result : Nat} (hm : d.Inv M Q) : (d.migrationEnd m result).Inv M Q :=
  hm.setFld.setFld.setFld.setFld.record

theorem Dev.Inv.returnSite {t site : Nat} (hm : d.Inv M Q) : (d.returnSite t site).Inv M Q := hm.setFldBit.setFld

theorem Dev.Inv.takeSite {t site : Nat} (hm : d.Inv M Q) : (d.takeSite t site).Inv M Q := hm.setFldBit.setFld

theorem Dev.Inv.retireSite {t site : Nat} (hm : d.Inv M Q) : (d.retireSite t site).Inv M Q := hm.setFldBit

theorem Dev.Inv.dropMig {c : Nat} (hm : d.Inv M Q) : (d.dropMig c).Inv M Q := .showMigs hm

theorem Dev.Inv.dropHandovers {c : Nat} (hm : d.Inv M Q) : (d.dropHandovers c).Inv M Q :=
  .foldl (fun _ _ h => .ite (h.startDesc (fun _ _ h => h.finish)) h) hm

theorem Dev.Inv.closeVaultCals (hm : d.Inv M Q) : (d.closeVaultCals).Inv M Q := .foldl (fun _ _ h => h.finishKey) hm.modVlt

theorem Dev.Inv.feedRetrains (hm : d.Inv M Q) : (d.feedRetrains).Inv M Q := hm.modVlt

theorem Dev.Inv.trainSet {c p : Nat} (hm : d.Inv M Q) : (d.trainSet c p).Inv M Q := hm.modVlt

theorem Dev.Inv.calVaultGo {j : Desc} (hm : d.Inv M Q) : (d.calVaultGo j).Inv M Q := hm.modVlt.feedRetrains.closeVaultCals

theorem Dev.Inv.atGap {j : Desc} {go : Dev → Desc → Dev} (hm : d.Inv M Q) (hgo : ∀ d x, d.Inv M Q → (go d x).Inv M Q) :
    (d.atGap j go).Inv M Q :=
  .ite hm.deferGap (hgo _ _ hm)

theorem Dev.Inv.putRecord {k : Nat × Nat} {f : Desc → Nat} {l : List Byte} (hm : d.Inv M Q) : (d.putRecord k f l).Inv M Q := by
  unfold Dev.putRecord
  split
  · exact hm.refWrite
  · exact hm

theorem Dev.Inv.closeVaultMargins (hm : d.Inv M Q) : (d.closeVaultMargins).Inv M Q := .foldl (fun _ _ h => h.finishKey) hm.modVlt

theorem Dev.Inv.startResync (hm : d.Inv M Q) : (d.startResync).Inv M Q :=
  .foldl (fun _ _ h => h.mirror) (.foldl (fun _ _ h => h.memFault) hm.setMirror.modVlt)

theorem Dev.Inv.modMig {c : Nat} {f : Migr → Migr} (hm : d.Inv M Q) : (d.modMig c f).Inv M Q := ⟨hm.1, hm.2⟩

theorem Dev.Inv.revive {c : Nat} {k : Nat × Nat} (hm : d.Inv M Q) : (d.revive c k).Inv M Q := by
  unfold Dev.revive
  extract_lets t d1
  split
  · exact hm.retireSite.setCoreSt.finishKey
  · exact .showMigs (.setCoreSt hm)

theorem Dev.Inv.spareCoreGo {j : Desc} (hm : d.Inv M Q) : (d.spareCoreGo j).Inv M Q := by
  unfold Dev.spareCoreGo
  extract_lets c
  split
  · exact hm.askMigration.failRuns
  · exact hm.finish
  · exact hm.revive
  · exact hm.finish

/-! ## Machine/Opt -/

theorem Dev.Inv.resendBlock {p : Nat} {b : BlkBuf} (hm : d.Inv M Q) : (d.resendBlock p b).Inv M Q :=
  .ite hm (.ite hm.failPort hm.sendBlock.bump.modPort)

theorem Dev.Inv.blkHeader {p : Nat} {b : List Byte} (hm : d.Inv M Q) : (d.blkHeader p b).Inv M Q := by
  unfold Dev.blkHeader
  extract_lets h d1 d2
  have h1 : d2.Inv M Q := by
    refine .ite ?_ ?_
    · split
      · exact hm.modPort.resendBlock
      · exact hm.modPort
    · exact hm.modPort
  exact .ite h1.pumpAll h1

theorem Dev.Inv.rxDeliver {p n : Nat} (hm : d.Inv M Q) : (Dev.rxDeliver p n d).Inv M Q := by
  induction n generalizing d with
  | zero => exact hm
  | succ n ih =>
    unfold Dev.rxDeliver
    refine .ite ?_ ?_
    · exact hm
    · refine .ite ?_ ?_
      · refine ih ?_
        split
        · exact hm
        · exact hm.setPort.bumpSat
      · exact ih hm.setPort

theorem Dev.Inv.rxData {p : Nat} {b : List Byte} (hm : d.Inv M Q) : (d.rxData p b).Inv M Q :=
  .ite hm.bump hm.bump.setPort.rxDeliver

theorem Dev.Inv.answerN {p n : Nat} (hm : d.Inv M Q) : (Dev.answerN p n d).Inv M Q := by
  induction n generalizing d with
  | zero => exact hm
  | succ n ih =>
    unfold Dev.answerN
    exact .ite hm.sendBlock (ih hm.sendBlock)

theorem Dev.Inv.answer {p : Nat} (hm : d.Inv M Q) : (d.answer p).Inv M Q := hm.answerN

theorem Dev.Inv.rxSwitch {p : Nat} {m : SlotMove} (hm : d.Inv M Q) : (d.rxSwitch p m).Inv M Q := by
  unfold Dev.rxSwitch
  extract_lets d1 d2 d3 d4
  have h2 : d2.Inv M Q := hm.setFld.modPort
  have h3 : d3.Inv M Q := .ite h2.moveOff h2
  have h4 : d4.Inv M Q := .ite h3.startLaneCal h3.slotsChanged
  exact h4.laneFree

theorem Dev.Inv.setFeedLost {p : Nat} {b : Bool} (hm : d.Inv M Q) : (d.setFeedLost p b).Inv M Q := .refreshFlags hm

theorem Dev.Inv.setMaps {p : Nat} {r : TrainResult} (hm : d.Inv M Q) : (d.setMaps p r).Inv M Q :=
  .foldl (fun _ _ h => h.setFld.setFld) hm

theorem Dev.Inv.trainDone {p : Nat} {r : TrainResult} (hm : d.Inv M Q) : (d.trainDone p r).Inv M Q := by
  unfold Dev.trainDone
  extract_lets failed oldRx oldTx band d1 d2 d3 d4 d5 d6 d7 d8 d9 d10 d11
  have h4 : d4.Inv M Q := .setFld (.setFld (.bumpSat (.setFld (.setFld (.setMaps hm)))))
  have h10 : d10.Inv M Q := h4.modPort.laneReason.laneReason.markLost.setPortSt.coordCheck.releaseTree.pumpAll.calEnded
  have h11 : d11.Inv M Q := .ite h10.modPort.moveMade h10
  exact .ite h11 h11.pumpPortCals

theorem Dev.Inv.calOptGo {j : Desc} (hm : d.Inv M Q) : (d.calOptGo j).Inv M Q := .pumpPortCals hm

/-! ## Machine/D2d -/

theorem Dev.Inv.modBundle {l b dir : Nat} {f : Bundle → Bundle} (hm : d.Inv M Q) : (d.modBundle l b dir f).Inv M Q := hm

theorem Dev.Inv.modCtl {l b : Nat} {f : BundleCtl → BundleCtl} (hm : d.Inv M Q) : (d.modCtl l b f).Inv M Q := hm

theorem Dev.Inv.sendFlit {l b dir ty vc : Nat} {sop eop : Bool} {seq : Nat} {body : List Byte} (hm : d.Inv M Q) :
    (d.sendFlit l b dir ty vc sop eop seq body).Inv M Q :=
  hm.modBundle.emit

theorem Dev.Inv.sendBuf {l b dir : Nat} {f : FlitBuf} (hm : d.Inv M Q) : (d.sendBuf l b dir f).Inv M Q := hm.sendFlit

theorem Dev.Inv.sendFlits {l b dir src dst vc : Nat} {again : Option Nat} {bytes : List Byte} {total n : Nat} (hm : d.Inv M Q) :
    (Dev.sendFlits l b dir src dst vc again bytes total n d).Inv M Q := by
  induction n generalizing d with
  | zero => exact hm
  | succ n ih =>
    unfold Dev.sendFlits
    exact ih hm.sendBuf.modBundle

theorem Dev.Inv.startPkt {l b dir src dst : Nat} {p : Packet} {again : Option Nat} (hm : d.Inv M Q) :
    (d.startPkt l b dir src dst p again).Inv M Q :=
  hm.sendFlits

theorem Dev.Inv.pumpHeld {l dir : Nat} {us kept : List (Nat × UnitPkt)} (hm : d.Inv M Q) :
    (Dev.pumpHeld l dir us kept d).1.Inv M Q := by
  induction us generalizing kept d with
  | nil => exact hm
  | cons x us ih =>
    unfold Dev.pumpHeld
    dsimp only
    split
    · exact ih hm
    · exact ih hm.startPkt

theorem Dev.Inv.startUnit {l dir : Nat} {u : UnitPkt} (hm : d.Inv M Q) : (d.startUnit l dir u).Inv M Q := hm.modBundle.startPkt

theorem Dev.Inv.pumpBundle {l dir b n : Nat} (hm : d.Inv M Q) : (Dev.pumpBundle l dir b n d).Inv M Q := by
  induction n generalizing d with
  | zero => exact hm
  | succ n ih =>
    unfold Dev.pumpBundle
    split
    · exact hm
    · exact ih (.startUnit hm)

theorem Dev.Inv.pumpReady {l dir : Nat} (hm : d.Inv M Q) : (d.pumpReady l dir).Inv M Q := .foldl (fun _ _ h => h.pumpBundle) hm

theorem Dev.Inv.pumpDir {l dir : Nat} (hm : d.Inv M Q) : (d.pumpDir l dir).Inv M Q :=
  .pumpReady (.foldl (fun _ _ h => .ite h.modCtl h) hm.pumpHeld)

theorem Dev.Inv.closeD2dCals (hm : d.Inv M Q) : (d.closeD2dCals).Inv M Q := .foldl (fun _ _ h => h.finishKey) hm

theorem Dev.Inv.closeD2dMargins (hm : d.Inv M Q) : (d.closeD2dMargins).Inv M Q := .foldl (fun _ _ h => h.finishKey) hm

theorem Dev.Inv.beginRetrain {l b : Nat} (hm : d.Inv M Q) : (d.beginRetrain l b).Inv M Q := hm.modCtl.bumpSat

theorem Dev.Inv.askRetrain {l b : Nat} (hm : d.Inv M Q) : (d.askRetrain l b).Inv M Q := .ite hm (.ite hm.beginRetrain hm)

theorem Dev.Inv.putBundle {k : Nat × Nat} {l b : Nat} {bytes : List Byte} (hm : d.Inv M Q) :
    (d.putBundle k l b bytes).Inv M Q := by
  unfold Dev.putBundle
  split
  · exact hm.refWrite
  · exact hm

theorem Dev.Inv.sweepNext {k : Nat × Nat} {l n : Nat} (hm : d.Inv M Q) : (Dev.sweepNext k l n d).Inv M Q := by
  induction n generalizing d with
  | zero => exact hm
  | succ n ih =>
    unfold Dev.sweepNext
    split
    · exact hm
    · refine .ite ?_ ?_
      · exact hm
      · split
        · exact hm
        · exact .ite hm (.ite (.modCtl hm) (ih (.putBundle hm)))

theorem Dev.Inv.fillPlaces {l : Nat} (hm : d.Inv M Q) : (d.fillPlaces l).Inv M Q :=
  .closeD2dMargins (.closeD2dCals (.foldl (fun _ _ h => h.sweepNext) (.foldl (fun _ _ h => .foldl (fun _ _ h => .ite (.ite
    (.beginRetrain h) h) h) h) (.foldl (fun _ _ h => .ite (.ite (.beginRetrain h) h) h) hm))))

theorem Dev.Inv.recoveryFlit {l f dir : Nat} (hm : d.Inv M Q) : (d.recoveryFlit l f dir).Inv M Q := .ite hm.sendFlit hm

theorem Dev.Inv.emptyLink {l : Nat} (hm : d.Inv M Q) : (d.emptyLink l).Inv M Q :=
  .foldl (fun _ _ h => .foldl (fun _ _ h => h.modBundle) h) hm

theorem Dev.Inv.clearUp {l b : Nat} (hm : d.Inv M Q) : (d.clearUp l b).Inv M Q := .refreshFlags (.record hm)

theorem Dev.Inv.dropBundle {l b : Nat} (hm : d.Inv M Q) : (d.dropBundle l b).Inv M Q :=
  .foldl (fun _ _ h => .ite h.putBundle h) hm

theorem Dev.Inv.restamp {l b dir : Nat} (hm : d.Inv M Q) : (d.restamp l b dir).Inv M Q := hm.modBundle

theorem Dev.Inv.resendFlits {l b dir : Nat} (hm : d.Inv M Q) : (d.resendFlits l b dir).Inv M Q :=
  .foldl (fun _ _ h => h.sendBuf) (.restamp (.ite hm.bumpSat.modCtl.deferGap hm.bumpSat.modCtl))

theorem Dev.Inv.flitHeader {l b dir : Nat} {f : List Byte} (hm : d.Inv M Q) : (d.flitHeader l b dir f).Inv M Q :=
  .pumpDir (.ite hm.modBundle.resendFlits hm.modBundle)

theorem Dev.Inv.answerFlits {l b dir n : Nat} (hm : d.Inv M Q) : (Dev.answerFlits l b dir n d).Inv M Q := by
  induction n generalizing d with
  | zero => exact hm
  | succ n ih =>
    unfold Dev.answerFlits
    exact .ite hm.sendFlit (ih hm.sendFlit)

theorem Dev.Inv.flitDeliver {l b dir vc seq : Nat} {bytes : List Byte} {n : Nat} (hm : d.Inv M Q) :
    (d.flitDeliver l b dir vc seq bytes n).Inv M Q := by
  unfold Dev.flitDeliver
  extract_lets d1
  split
  · exact hm.modBundle.emit
  · exact hm.modBundle.bumpSat

theorem Dev.Inv.takeFlit {l b dir : Nat} {f : List Byte} (hm : d.Inv M Q) : (d.takeFlit l b dir f).Inv M Q := by
  unfold Dev.takeFlit
  extract_lets h s again d1
  have h1 : d1.Inv M Q := by
    unfold d1
    cases again with
    | none => exact hm
    | some g => exact hm.modCtl
  exact .ite h1.modBundle.flitDeliver h1.modBundle

theorem Dev.Inv.dataFails {l b dir : Nat} {f : List Byte} (hm : d.Inv M Q) : (d.dataFails l b dir f).Inv M Q :=
  .ite hm.modBundle.askRetrain hm.modBundle

theorem Dev.Inv.flitFails {l b dir : Nat} {f : List Byte} (hm : d.Inv M Q) : (d.flitFails l b dir f).Inv M Q :=
  .ite (.ite hm.modBundle.dataFails hm.modBundle.dataFails.answerFlits) hm.modBundle

theorem Dev.Inv.retrained {l b : Nat} {cal : Bool} (hm : d.Inv M Q) : (d.retrained l b cal).Inv M Q :=
  .foldl (fun _ _ h => .pumpDir (.foldl (fun _ _ h => h.sendBuf) h.restamp)) (.foldl (fun _ _ h => h.modBundle) hm.modCtl)

theorem Dev.Inv.bandChanged {l : Nat} (hm : d.Inv M Q) : (d.bandChanged l).Inv M Q := .foldl (fun _ _ h => h.modCtl) hm

theorem Dev.Inv.bandApplied {l b : Nat} (hm : d.Inv M Q) : (d.bandApplied l b).Inv M Q :=
  .foldl (fun _ _ h => h.pumpDir) hm.modCtl

theorem Dev.Inv.calD2dGo {j : Desc} (hm : d.Inv M Q) : (d.calD2dGo j).Inv M Q :=
  .foldl (fun _ _ h => h.fillPlaces) (.closeD2dCals hm)

theorem Dev.Inv.pllRecord {k : Nat} {ok : Bool} (hm : d.Inv M Q) : (d.pllRecord k ok).Inv M Q := hm.record

theorem Dev.Inv.lossRecord {k : Nat} {ok : Bool} (hm : d.Inv M Q) : (d.lossRecord k ok).Inv M Q := .ite (.pllRecord hm) hm

theorem Dev.Inv.relockTower {k : Nat} (hm : d.Inv M Q) : (d.relockTower k).Inv M Q :=
  .foldl (fun _ _ h => .ite h h.arrayFault) hm

theorem Dev.Inv.engineUnlocked {e : Nat} (hm : d.Inv M Q) : (d.engineUnlocked e).Inv M Q :=
  .foldl (fun _ _ h => .ite h h.setFld.failPort) hm

/-! ## Machine/Update -/

theorem Dev.Inv.stage {x : Staged} (hm : d.Inv M Q) : (d.stage x).Inv M Q := hm

theorem Dev.Inv.bindNow {j : Desc} {b : Binding} (hm : d.Inv M Q) : (d.bindNow j b).Inv M Q := .ite hm.stage hm.putBind.finish

theorem Dev.Inv.bindHdr {j : Desc} {h : List Byte} (hm : d.Inv M Q) : (d.bindHdr j h).Inv M Q := by
  unfold Dev.bindHdr
  refine .ite ?_ ?_
  · exact hm.finish
  · refine .ite ?_ ?_
    · exact hm.finish
    · extract_lets others
      split
      · exact hm.finish
      · exact .ite hm.finish hm.bindNow

theorem Dev.Inv.startBind {j : Desc} (hm : d.Inv M Q) : (d.startBind j).Inv M Q := by
  unfold Dev.startBind
  refine .ite ?_ ?_
  · exact .ite hm.stage hm.unbind.finish
  · split
    · exact hm.memFault.finish
    · exact hm.finish
    · exact hm.bindHdr

theorem Dev.Inv.startFreeze {j : Desc} (hm : d.Inv M Q) : (d.startFreeze j).Inv M Q := .ite hm.stage hm.freeze.finish

theorem Dev.Inv.endBlock {k : Nat} (hm : d.Inv M Q) : (d.endBlock k).Inv M Q := by
  unfold Dev.endBlock
  split
  · exact hm
  · extract_lets x d1 d2
    have h1 : d2.Inv M Q := by
      unfold d2
      split
      · exact hm.clearRun
      · split
        · exact hm.clearRun
        · split
          · exact hm.clearRun.blockErr
          · exact hm.clearRun.writeBlock
    exact h1.nextBlock.pumpColl

theorem Dev.Inv.putCopy {a n : Nat} {cells : List Host.Cell} (hm : d.Inv M Q) : (d.putCopy a n cells).Inv M Q :=
  .foldl (fun _ _ h => h.write) hm.zero

theorem Dev.Inv.refreshCopies (hm : d.Inv M Q) : (d.refreshCopies).Inv M Q := hm.putCopy.putCopy.putCopy.putCopy

theorem Dev.Inv.applyStaged (hm : d.Inv M Q) : (d.applyStaged).Inv M Q := by
  unfold Dev.applyStaged
  refine .foldl (fun _ _ h => ?_) ?_
  · split
    · exact h.putBind.finishKey
    · exact h.unbind.finishKey
    · exact h.freeze.finishKey
  · exact hm

theorem Dev.Inv.updCommit (hm : d.Inv M Q) : (d.updCommit).Inv M Q := .bump (.applyStaged (.refreshCopies hm))

theorem Dev.Inv.damage {r : UndoRec} (hm : d.Inv M Q) : (d.damage r).Inv M Q := .record (.bumpSat (.countDamaged hm))

theorem Dev.Inv.restore {r : UndoRec} (hm : d.Inv M Q) : (d.restore r).Inv M Q := by
  unfold Dev.restore
  split
  · exact hm
  · exact .ite hm.damage (.ite (.putNarrow (.foldl (fun _ _ h => h.store) hm.store)) hm.putNarrow)

theorem Dev.Inv.updRestore (hm : d.Inv M Q) : (d.updRestore).Inv M Q := by
  unfold Dev.updRestore
  extract_lets d1 u d2
  have h1 : d1.Inv M Q := .foldl (fun _ _ h => h.clearRun) hm
  clear_value d1
  have h2 : d2.Inv M Q := ⟨h1.1, h1.2⟩
  exact .foldl (fun _ _ h => h.restore) h2

theorem Dev.Inv.updRollback (hm : d.Inv M Q) : (d.updRollback).Inv M Q := .bumpSat (.applyStaged (.refreshCopies hm))

/-! ## Machine/VecCmd -/

theorem Dev.Inv.setCtx {x : Nat} {v : VecCtx} (hm : d.Inv M Q) : (d.setCtx x v).Inv M Q := hm

theorem Dev.Inv.vecStop {x : Nat} {st : Status} {aux : Nat} (hm : d.Inv M Q) : (d.vecStop x st aux).Inv M Q :=
  .ite hm.blockStop hm.setCtx.stopOp

theorem Dev.Inv.vecRefuse {x : Nat} {r : VecStop} (hm : d.Inv M Q) : (d.vecRefuse x r).Inv M Q :=
  .ite hm.vecStop (.vecStop (.ite hm.bumpSat.bumpSat hm.bumpSat))

theorem Dev.Inv.vecFault {x a : Nat} (hm : d.Inv M Q) : (d.vecFault x a).Inv M Q := by
  unfold Dev.vecFault
  refine .ite ?_ ?_
  · split
    · exact hm.clearRun.collFault.nextBlock
    · exact hm.clearRun
  · exact hm.bumpSat.memFault.vecStop

theorem Dev.Inv.vecWrite {l : List Host.Cell} (hm : d.Inv M Q) : (d.vecWrite l).Inv M Q :=
  ⟨fun h => Tab.wf_setAll 0 _ _ (hm.1 h), hm.2⟩

theorem Dev.Inv.vecApply {x : Nat} {o : VecOut} (hm : d.Inv M Q) : (d.vecApply x o).Inv M Q := by
  unfold Dev.vecApply
  refine .ite ?_ ?_
  · exact hm.gradCount.setCtx
  · split
    · exact hm.vecFault
    · exact hm.gradCount.setCtx.vecWrite.bump.bump

theorem Dev.Inv.vecExec {x : Nat} {e : Ecc} (hm : d.Inv M Q) : (d.vecExec x e).Inv M Q := by
  unfold Dev.vecExec
  have he : (if isUpd x then d else d.meetEcc e).Inv M Q := .ite hm hm.meetEcc
  dsimp only
  split
  · exact hm.vecFault
  · split
    · exact hm.vecRefuse
    · split
      · exact he.vecFault
      · split
        · exact he.vecRefuse
        · exact he.vecApply

/-! ## Machine/Mfb -/

theorem Dev.Inv.coreRecord {j : Desc} {e : Ending} (hm : d.Inv M Q) : (d.coreRecord j e).Inv M Q := .store hm.signal

theorem Dev.Inv.endDesc {org : MfbOrigin} {j : Desc} {e : Ending} (hm : d.Inv M Q) : (d.endDesc org j e).Inv M Q := by
  unfold Dev.endDesc
  split
  · exact hm.coreRecord
  · exact hm.finish

theorem Dev.Inv.countEnd {e : Ending} (hm : d.Inv M Q) : (d.countEnd e).Inv M Q := by
  unfold Dev.countEnd
  split
  · exact hm.bumpSat.sight
  · exact hm.bumpSat
  · exact hm.sight
  · exact hm

theorem Dev.Inv.withLocal {org : MfbOrigin} {j : Desc} {go : Dev → List Byte → Dev} (hm : d.Inv M Q)
    (hgo : ∀ d x, d.Inv M Q → (go d x).Inv M Q) : (d.withLocal org j go).Inv M Q := by
  unfold Dev.withLocal
  refine .ite ?_ ?_
  · split
    · exact hm.memFault.endDesc
    · exact hm.endDesc
    · exact hm.endDesc
    · exact hgo _ _ hm
  · exact .ite hm.endDesc (hgo _ _ hm)

theorem Dev.Inv.putLocal {o : MfbOp} {a : Nat} {l : List Byte} (hm : d.Inv M Q) : (d.putLocal o a l).Inv M Q :=
  .ite hm.store hm.hostWrite

theorem Dev.Inv.putLine {o : MfbOp} {line : Nat} {l : List Byte} (hm : d.Inv M Q) : (d.putLine o line l).Inv M Q :=
  .ite hm.putLocal hm

theorem Dev.Inv.startCached {org : MfbOrigin} {j : Desc} (hm : d.Inv M Q) : (d.startCached org j).Inv M Q := by
  unfold Dev.startCached
  extract_lets home lines miss o d1
  have h1 : d1.Inv M Q := by
    refine .foldl (fun _ _ h => ?_) ?_
    · split
      · exact h.putLine.rlcPut.bumpSat
      · exact h
    · exact hm
  exact .ite h1.bump.endDesc h1.takeTag.startOp

theorem Dev.Inv.startGet {org : MfbOrigin} {j : Desc} (hm : d.Inv M Q) : (d.startGet org j).Inv M Q := by
  unfold Dev.startGet
  split
  · exact hm.endDesc
  · exact .ite hm.startCached hm.takeTag.startOp

theorem Dev.Inv.takeSeq (hm : d.Inv M Q) : (d.takeSeq).Inv M Q := hm

theorem Dev.Inv.startAtomic {org : MfbOrigin} {j : Desc} (hm : d.Inv M Q) : (d.startAtomic org j).Inv M Q := by
  unfold Dev.startAtomic
  split
  · exact hm.endDesc
  · exact hm.takeSeq.startOp

theorem Dev.Inv.mfabGo {org : MfbOrigin} {j : Desc} (hm : d.Inv M Q) : (d.mfabGo org j).Inv M Q :=
  .ite hm.rlcDropRange.bump.endDesc (.ite hm.rlcDropAll.bump.endDesc (.ite hm.bump.endDesc (.ite (.ite hm.bump.endDesc
    (hm.withLocal (fun _ _ h => h.takeTag.startOp))) (.ite hm.bump.sight.endDesc (.ite hm.startGet (.ite hm.startAtomic
    (hm.withLocal (fun _ _ h => h.takeTag.startOp))))))))

theorem Dev.Inv.startMfab {r : Nat} (hm : d.Inv M Q) : (d.startMfab r).Inv M Q := hm.startDesc (fun _ _ h => h.mfabGo)

theorem Dev.Inv.popCore {r : Nat} (hm : d.Inv M Q) : (d.popCore r).Inv M Q := hm

theorem Dev.Inv.startCore {r : Nat} (hm : d.Inv M Q) : (d.startCore r).Inv M Q := by
  unfold Dev.startCore
  dsimp only
  split
  · exact hm.popCore.memFault.coreRecord
  · split
    · exact hm.popCore.coreRecord
    · exact .ite hm.popCore.coreRecord hm.popCore.mfabGo

theorem Dev.Inv.countStatus {st : Nat} (hm : d.Inv M Q) : (d.countStatus st).Inv M Q :=
  .ite hm.bumpSat (.ite hm.bumpSat (.ite hm.bumpSat (.ite hm.bumpSat hm)))

theorem Dev.Inv.respond {p : Packet} {op : Nat} {l : List Byte} (hm : d.Inv M Q) : (d.respond p op l).Inv M Q := hm.send

theorem Dev.Inv.respondAck {p : Packet} {st : Nat} (hm : d.Inv M Q) : (d.respondAck p st).Inv M Q := hm.countStatus.respond

theorem Dev.Inv.respondAtomic {p : Packet} {st dup old : Nat} (hm : d.Inv M Q) : (d.respondAtomic p st dup old).Inv M Q :=
  hm.countStatus.respond

theorem Dev.Inv.homeFault {p : Packet} {st : Nat} (hm : d.Inv M Q) : (d.homeFault p st).Inv M Q := by
  unfold Dev.homeFault
  split
  · exact hm.memFault
  · exact hm

theorem Dev.Inv.tablePut {e : MfbResult} (hm : d.Inv M Q) : (d.tablePut e).Inv M Q := hm

theorem Dev.Inv.doAtomic {p : Packet} (hm : d.Inv M Q) : (d.doAtomic p).Inv M Q := by
  unfold Dev.doAtomic
  refine .ite ?_ ?_
  · exact hm.respondAtomic
  · refine .ite ?_ ?_
    · exact hm.respondAtomic
    · refine .ite ?_ ?_
      · exact hm.bumpSat.respondAtomic
      · split
        · exact hm.bumpSat.respondAtomic
        · exact .ite hm.homeFault.respondAtomic hm.store.bump.tablePut.respondAtomic

theorem Dev.Inv.doReduce {p : Packet} (hm : d.Inv M Q) : (d.doReduce p).Inv M Q := hm.store

theorem Dev.Inv.applyWrite {p : Packet} (hm : d.Inv M Q) : (d.applyWrite p).Inv M Q :=
  .ite hm.doAtomic (.ite (.ite hm.homeFault.respondAck hm.doReduce.respondAck) (.ite hm.respondAck
    (.ite hm.write.respondAck hm.store.respondAck)))

theorem Dev.Inv.writeArrive {p : Packet} {hot : Bool} (hm : d.Inv M Q) : (d.writeArrive p hot).Inv M Q :=
  .ite (.setFld hm) hm.applyWrite

theorem Dev.Inv.admitAtomic {p : Packet} {hot : Bool} (hm : d.Inv M Q) : (d.admitAtomic p hot).Inv M Q := .writeArrive hm

theorem Dev.Inv.holdAtomic {p : Packet} (hm : d.Inv M Q) : (d.holdAtomic p).Inv M Q := .bumpSat hm

theorem Dev.Inv.noteLate {o : MfbOp} {home da : Nat} (hm : d.Inv M Q) : (d.noteLate o home da).Inv M Q := .ite hm hm

theorem Dev.Inv.ackPkt {o : MfbOp} {da : Nat} (hm : d.Inv M Q) : (d.ackPkt o da).Inv M Q := hm.noteLate.modOp

theorem Dev.Inv.windowTick {home : Nat} (hm : d.Inv M Q) : (d.windowTick home).Inv M Q := .pumpHome (.ite hm.bumpSat hm)

/-! ## Machine/Mgmt -/

theorem Dev.Inv.endHandover {h : Handover} {e : Ending} (hm : d.Inv M Q) : (d.endHandover h e).Inv M Q :=
  .finishKey (.record (.setFld (.setFld hm)))

theorem Dev.Inv.zeroImport {h : Handover} (hm : d.Inv M Q) : (d.zeroImport h).Inv M Q :=
  .foldl (fun _ _ h => h.zero) (.foldl (fun _ _ h => h.storeZero.zero) hm)

theorem Dev.Inv.abortHandover {h : Handover} {e : Ending} (hm : d.Inv M Q) : (d.abortHandover h e).Inv M Q :=
  .endHandover (.ite hm hm.zeroImport)

theorem Dev.Inv.mgmtReject {cmd status : Nat} (hm : d.Inv M Q) : (d.mgmtReject cmd status).Inv M Q := hm.bumpSat.record

theorem Dev.Inv.mgmtReply {m : List Byte} {status : Nat} {data : List Byte} (hm : d.Inv M Q) :
    (d.mgmtReply m status data).Inv M Q :=
  .mgmtOut hm

theorem Dev.Inv.mgmtCmd {m : List Byte} {bad : Bool} {states : List DevState} {busy : Bool} {data : List Byte} {go : Dev → Dev}
    (hm : d.Inv M Q) (hgo : ∀ d, d.Inv M Q → (go d).Inv M Q) : (d.mgmtCmd m bad states busy data go).Inv M Q :=
  .ite hm.mgmtReject (.ite (hgo _ (.bumpSat (.mgmtReply (.ite hm hm)))) (.mgmtReject (.mgmtReply (.ite hm hm))))

/-! ## Machine/Limelight -/

theorem Dev.Inv.showLife {s : Nat} (hm : d.Inv M Q) : (d.showLife s).Inv M Q := hm.setFld.setFld

theorem Dev.Inv.checked {s : Nat} {card : List Byte} {c : Nat} (hm : d.Inv M Q) : (d.checked s card c).Inv M Q :=
  .ite (.ite hm.modLim.setFld.showLife.setFld.slotFilled.warm
    hm.modLim.setFld.showLife.setFld.slotFilled.setSlotSt.spareReady.lightUp)
    (.ite hm.modLim.setFld.showLife.bumpSat.setSlotSt.lightUp.wantHome hm.modLim.setFld.showLife.bumpSat.setSlotSt.lightUp)

theorem Dev.Inv.slotBare {s : Nat} (hm : d.Inv M Q) : (d.slotBare s).Inv M Q :=
  hm.setFld.setFld.setFld.setFld.setFld.setFld.setFld

theorem Dev.Inv.showPredict {s : Nat} (hm : d.Inv M Q) : (d.showPredict s).Inv M Q := hm.setFld

theorem Dev.Inv.fadeStep {s : Nat} (hm : d.Inv M Q) : (d.fadeStep s).Inv M Q :=
  .ite (.switchStart (.ite hm.modSlot hm)) (.ite hm.modSlot hm)

theorem Dev.Inv.online {s : Nat} (hm : d.Inv M Q) : (d.online s).Inv M Q := by
  unfold Dev.online
  refine .ite ?_ ?_
  · exact hm.setSlotSt.homeOnline
  · split
    · exact .ite hm.setSlotSt.releaseSpare hm.setSlotSt
    · exact hm.setSlotSt

theorem Dev.Inv.watchPassed {s : Nat} (hm : d.Inv M Q) : (d.watchPassed s).Inv M Q :=
  .ite (.wantSpare (.showPredict (.setSlotSt (.ite hm hm.modSlot)))) (.showPredict (.setSlotSt (.ite hm hm.modSlot)))

theorem Dev.Inv.cartAnswer {s : Nat} {r : CartReading} (hm : d.Inv M Q) : (d.cartAnswer s r).Inv M Q := by
  unfold Dev.cartAnswer
  extract_lets x worst d1 d2 d3 d4
  have h2 : d2.Inv M Q := hm.setFld.setFld.modSlot
  have h3 : d3.Inv M Q := .ite h2.modSlot h2
  have h4 : d4.Inv M Q := .ite h3.watchPassed h3
  exact .ite h3.stopFeeding (.ite (.ite h3.online h3) (.ite h4.fadeStep h4))

theorem Dev.Inv.gapFeedMove {p : Nat} (hm : d.Inv M Q) : (d.gapFeedMove p).1.Inv M Q := by
  unfold Dev.gapFeedMove
  split
  · exact hm.movesDone
  · split
    · exact hm
    · split
      · split
        · exact hm.startPortCal
        · exact hm
      · split
        · split
          · exact hm.flipFeed.modPort.startTraining
          · exact hm
        · exact hm.flipFeed.moveMade

theorem Dev.Inv.gapPortCal {p : Nat} (hm : d.Inv M Q) : (d.gapPortCal p).1.Inv M Q := by
  unfold Dev.gapPortCal
  split
  · exact hm.modPort
  · split
    · exact hm.startPortCal
    · exact hm

/-! ## Machine/Tightrope -/

theorem Dev.Inv.modTgt {f : Tgt → Tgt} (hm : d.Inv M Q) : (d.modTgt f).Inv M Q := hm

theorem Dev.Inv.throttle {ev value unit : Nat} (hm : d.Inv M Q) : (d.throttle ev value unit).Inv M Q := .ite hm.write.bump hm

theorem Dev.Inv.setBubble {b : Nat} (hm : d.Inv M Q) : (d.setBubble b).Inv M Q := .ite hm.setFld.announce hm.setFld

theorem Dev.Inv.telemetry {ok : Bool} (hm : d.Inv M Q) : (d.telemetry ok).Inv M Q :=
  .ite (.ite hm.modTgt.modTgt.setFld.throttle hm.modTgt) (.ite hm hm.modTgt.setFld.bumpSat.throttle)

theorem Dev.Inv.modelSource {m e : Nat} (hm : d.Inv M Q) : (d.modelSource m e).Inv M Q :=
  .ite (.ite hm.modTgt.modTgt.setFld.bumpSat.throttle hm.modTgt) (.ite hm.modTgt.modTgt.setFld.throttle hm.modTgt)

theorem Dev.Inv.powerInputs {x : PowerSample} (hm : d.Inv M Q) : (d.powerInputs x).Inv M Q := by
  unfold Dev.powerInputs
  extract_lets meas ok m d1 d2 d3 p e jump d4 d5
  have h2 : d2.Inv M Q := hm.setFld.setFld.telemetry
  have h3 : d3.Inv M Q := .ite h2.modelSource h2.modTgt
  have h5 : d5.Inv M Q := h3.bump.modTgt.setFld
  exact .ite h5.announce h5

theorem Dev.Inv.showChange (hm : d.Inv M Q) : (d.showChange).Inv M Q := hm.setOn

theorem Dev.Inv.abandonStep (hm : d.Inv M Q) : (d.abandonStep).Inv M Q := by
  unfold Dev.abandonStep
  split
  · exact .ite hm.modTgt.showChange.emit hm
  · exact hm

theorem Dev.Inv.beginStep {j : Nat} (hm : d.Inv M Q) : (d.beginStep j).Inv M Q :=
  .ite hm.modTgt.showChange.emit hm.modTgt.showChange

theorem Dev.Inv.changeDivider {j : Nat} (hm : d.Inv M Q) : (d.changeDivider j).Inv M Q := by
  unfold Dev.changeDivider
  extract_lets i d1 d2 d3 d4 d5
  have h2 : d2.Inv M Q := .ite hm.setFld.setFld hm.setFld.setFld.bump
  have h3 : d3.Inv M Q := .ite h2 h2.setBubble
  have h4 : d4.Inv M Q := .ite h3.emit h3
  exact h4.modTgt.showChange.throttle.announce

theorem Dev.Inv.setBand {u b : Nat} (hm : d.Inv M Q) : (d.setBand u b).Inv M Q :=
  .throttle (.ite hm.setFld.setFld.bandChanged (.foldl (fun _ _ h => h.bandChanged) hm.setFld))

theorem Dev.Inv.bandUpdate {u : Nat} (hm : d.Inv M Q) : (d.bandUpdate u).Inv M Q := by
  unfold Dev.bandUpdate
  split
  · exact hm
  · exact .ite hm.modTgt.setBand hm.modTgt

theorem Dev.Inv.advanceModel {temps : List Int} (hm : d.Inv M Q) : (d.advanceModel temps).Inv M Q :=
  .setFld (.setFld (.foldl (fun _ _ h => h.setFld.setFld.setFld) hm.modTgt.modTgt))

theorem Dev.Inv.critical (hm : d.Inv M Q) : (d.critical).Inv M Q := by
  unfold Dev.critical
  split
  · exact hm
  · exact .ite hm hm.setFld.bumpSat.setBubble.modTgt.showChange.throttle

theorem Dev.Inv.emergency (hm : d.Inv M Q) : (d.emergency).Inv M Q := hm.setFld.modTgt.setBubble.abandonStep.bumpSat.throttle

theorem Dev.Inv.rateActions (hm : d.Inv M Q) : (d.rateActions).Inv M Q :=
  .ite (.emergency (.modTgt (.ite hm.setFld.throttle hm))) (.modTgt (.ite hm.setFld.throttle hm))

theorem Dev.Inv.retarget {arr : Nat} (hm : d.Inv M Q) : (d.retarget arr).Inv M Q := hm.modTgt.setFld

theorem Dev.Inv.attain (hm : d.Inv M Q) : (d.attain).Inv M Q :=
  .ite (.ite hm.modTgt.modTgt.setFld.throttle hm.modTgt) (.ite hm.modTgt.setFld.setFld.bumpSat.throttle hm.modTgt)

theorem Dev.Inv.capWait {found : Bool} (hm : d.Inv M Q) : (d.capWait found).Inv M Q := by
  unfold Dev.capWait
  split
  · exact hm
  · exact .ite hm.modTgt.finishKey (.ite hm.modTgt.finishKey (.ite hm.modTgt.setFld.finishKey hm.modTgt))

theorem Dev.Inv.countSample (hm : d.Inv M Q) : (d.countSample).Inv M Q := .modTgt (.foldl (fun _ _ h => h.bump) hm)

theorem Dev.Inv.guardRecord {i : Nat} (hm : d.Inv M Q) : (d.guardRecord i).Inv M Q := by
  unfold Dev.guardRecord
  extract_lets had d1
  have h1 : d1.Inv M Q := .ite hm hm.setFld.deferGap
  exact .ite h1 h1.setFld.throttle

theorem Dev.Inv.powerBand (hm : d.Inv M Q) : (d.powerBand).Inv M Q := by
  unfold Dev.powerBand
  extract_lets p b d1
  have h1 : d1.Inv M Q := hm.setFld.modTgt
  exact .ite hm (.foldl (fun _ _ h => .ite h.guardRecord h) h1)

theorem Dev.Inv.refit {i : Nat} (hm : d.Inv M Q) : (d.refit i).Inv M Q :=
  .throttle (.ite (.modTgt (.setFld (.setFld (.setFld hm)))) (.setFld hm))

theorem Dev.Inv.refitAll {j : Desc} (hm : d.Inv M Q) : (d.refitAll j).Inv M Q := .finish (.foldl (fun _ _ h => h.refit) hm)

/-! ## Machine/Gap -/

theorem Dev.Inv.gapSramRow {core bank row : Nat} (hm : d.Inv M Q) : (d.gapSramRow core bank row).Inv M Q :=
  .ite hm.setReason (.record hm)

theorem Dev.Inv.gapDesc {k : Nat × Nat} (hm : d.Inv M Q) : (d.gapDesc k).Inv M Q := by
  unfold Dev.gapDesc
  split
  · exact hm
  · refine .ite ?_ ?_
    · exact hm.spareCoreGo
    · split
      · exact hm.calOptGo
      · exact hm.calD2dGo
      · exact hm.calVaultGo
      · exact hm.refitAll

theorem Dev.Inv.gapAct {g : GapAct} (hm : d.Inv M Q) : (d.gapAct g).1.Inv M Q := by
  cases g with
  | refit i => exact hm.refit
  | d2dRetrain l b => exact hm.askRetrain
  | pipeRetrain c p => exact hm.modVlt
  | sramRow c b r => exact hm.gapSramRow
  | migration c cause => exact hm.askMigration.failRuns
  | portCal p => exact hm.gapPortCal
  | feedMove p => exact hm.gapFeedMove
  | calReq r s => exact hm.gapDesc

theorem Dev.Inv.gapOne {all : List GapAct} {g : GapAct} (hm : d.Inv M Q) : (Dev.gapOne all d g).Inv M Q :=
  .ite hm (.ite hm.gapAct hm.gapAct)

theorem Dev.Inv.gapSets {c : Nat} (hm : d.Inv M Q) : (d.gapSets c).Inv M Q := .ite hm hm.modVlt.feedRetrains.closeVaultCals

theorem Dev.Inv.gapResync (hm : d.Inv M Q) : (d.gapResync).Inv M Q := .ite hm.startResync hm

theorem Dev.Inv.runGap (hm : d.Inv M Q) : (d.runGap).Inv M Q :=
  .pumpPortCals (.foldl (fun _ _ h => h.gapOne) (.foldl (fun _ _ h => h.gapOne) (.foldl (fun _ _ h => h.gapOne) (.gapResync
    (.foldl (fun _ _ h => h.gapSets) (.foldl (fun _ _ h => h.gapOne) (.foldl (fun _ _ h => h.gapOne)
    (.ite hm.rlcDropAll hm))))))))

/-! ## Machine/Steps -/

theorem Dev.Inv.modStp {f : Stp → Stp} (hm : d.Inv M Q) : (d.modStp f).Inv M Q := hm

theorem Dev.Inv.openStep {cfg : StepCfg} {attempt start : Nat} (hm : d.Inv M Q) : (d.openStep cfg attempt start).Inv M Q :=
  .ite (.setFld hm) (.record (.setFld hm))

theorem Dev.Inv.barSend {code dst : Nat} (hm : d.Inv M Q) : (d.barSend code dst).Inv M Q := hm.send.modStp

theorem Dev.Inv.barMerge {code : Nat} {e : BarHeld} (hm : d.Inv M Q) : (d.barMerge code e).Inv M Q := hm.modStp

theorem Dev.Inv.barHalf {d e : Dev} (hm : d.Inv M Q) (he : d.barHalf = some e) : e.Inv M Q := by
  unfold Dev.barHalf at he
  dsimp only at he
  split at he
  · cases he
  · split at he
    · split at he <;> cases he
      · exact hm.barSend.modStp
      · exact hm.modStp
    · split at he
      · cases he; exact hm.modStp
      · split at he <;> cases he
        exact hm.barMerge.modStp

theorem Dev.Inv.barRun {n : Nat} (hm : d.Inv M Q) : (Dev.barRun n d).Inv M Q := by
  induction n generalizing d with
  | zero => exact hm
  | succ n ih =>
    unfold Dev.barRun
    split
    next e he => exact ih (hm.barHalf he)
    · exact hm

theorem Dev.Inv.releaseCores (hm : d.Inv M Q) : (d.releaseCores).Inv M Q := .foldl (fun _ _ h => .ite h.modCore.bump h) hm

theorem Dev.Inv.barRelease (hm : d.Inv M Q) : (d.barRelease).Inv M Q := by
  unfold Dev.barRelease
  extract_lets h d1 u1
  have h1 : d1.Inv M Q := hm.setFld.releaseCores
  clear_value d1
  split
  · split
    · exact h1.bumpSat.modStp
    · exact ⟨h1.1, h1.2⟩
  · exact hm

theorem Dev.Inv.barPump (hm : d.Inv M Q) : (d.barPump).Inv M Q := .ite hm.barRun.barRelease hm

theorem Dev.Inv.barAck {p : Packet} (hm : d.Inv M Q) : (d.barAck p).Inv M Q := hm.send

theorem Dev.Inv.barKeep {e : BarHeld} {own : Bool} (hm : d.Inv M Q) : (d.barKeep e own).Inv M Q := .ite hm hm.modStp

theorem Dev.Inv.skewReport (hm : d.Inv M Q) : (d.skewReport).Inv M Q := hm.record.modStp

theorem Dev.Inv.takeSkew (hm : d.Inv M Q) : (d.takeSkew).Inv M Q :=
  .ite hm.setFld.setFld.modStp.skewReport hm.setFld.setFld.modStp

theorem Dev.Inv.timeoutRun {k : Nat × Nat} (hm : d.Inv M Q) : (d.timeoutRun k).Inv M Q := by
  unfold Dev.timeoutRun
  split
  · exact hm
  · exact .ite (.checkRunEnd (.foldl (fun _ _ h => h.modCore) hm)) (.ite hm.finishRun hm.modRun.checkRunEnd)

theorem Dev.Inv.timeState {off : Int} (hm : d.Inv M Q) : (d.timeState off).Inv M Q := by
  unfold Dev.timeState
  extract_lets inside d1 reset
  split
  · exact hm.modStp.modStp.setFld
  · exact .ite hm.modStp.modStp.setFld hm.modStp
  · exact .ite hm.modStp.modStp.setFld hm.modStp
  · exact hm.modStp

theorem Dev.Inv.newTrim (hm : d.Inv M Q) : (d.newTrim).Inv M Q := hm.draw.modStp.setFld

theorem Dev.Inv.sinceMoved {old : Nat} (hm : d.Inv M Q) : (d.sinceMoved old).Inv M Q := hm

theorem Dev.Inv.discipline {off : Int} (hm : d.Inv M Q) : (d.discipline off).Inv M Q :=
  .ite hm.setFld.timeState.newTrim.modStp.sinceMoved hm.setFld.timeState.newTrim

theorem Dev.Inv.timeBlock {p : Nat} {b : List Byte} (hm : d.Inv M Q) : (d.timeBlock p b).Inv M Q :=
  .ite hm.setFld.modPort.discipline hm.setFld.modPort

/-! ## Machine/Handover -/

theorem Dev.Inv.modHo {f : Handover → Handover} (hm : d.Inv M Q) : (d.modHo f).Inv M Q := hm

theorem Dev.Inv.showHo {isExport : Bool} {phase : Nat} (hm : d.Inv M Q) : (d.showHo isExport phase).Inv M Q := hm.setFld.setFld

theorem Dev.Inv.sendManifest {h : Handover} (hm : d.Inv M Q) : (d.sendManifest h).Inv M Q := hm.send

theorem Dev.Inv.beginHo {j : Desc} {isExport : Bool} {takeId cores units : Nat} (hm : d.Inv M Q) :
    (d.beginHo j isExport takeId cores units).Inv M Q :=
  .ite (.abortHandover (.setFld (.showHo hm))) (.ite (.sendManifest (.setFld (.showHo hm))) (.setFld (.showHo hm)))

theorem Dev.Inv.unitPackets {h : Handover} {n a : Nat} {l : List Byte} {bad : Bool} (hm : d.Inv M Q) :
    (d.unitPackets h n a l bad).Inv M Q :=
  .send (.foldl (fun _ _ h => h.send) hm)

theorem Dev.Inv.sendUnit {n : Nat} (hm : d.Inv M Q) : (d.sendUnit n).Inv M Q := by
  unfold Dev.sendUnit
  split
  · exact hm
  · split
    · exact hm.unitPackets.draw
    · extract_lets l l' bad fetched d1 d2 d3
      have h1 : d3.Inv M Q := by
        unfold d3
        split
        · exact .bumpSat hm
        · exact .modHo (.bumpSat hm)
      exact h1.unitPackets

theorem Dev.Inv.sendUnits {n : Nat} (hm : d.Inv M Q) : (Dev.sendUnits n d).Inv M Q := by
  induction n generalizing d with
  | zero => exact hm
  | succ n ih =>
    unfold Dev.sendUnits
    split
    · exact hm
    · exact .ite (ih hm.sendUnit.modHo) hm

theorem Dev.Inv.sendAccept {h : Handover} {code : Nat} (hm : d.Inv M Q) : (d.sendAccept h code).Inv M Q := hm.send

theorem Dev.Inv.putEntry {i w : Nat} (hm : d.Inv M Q) : (d.putEntry i w).Inv M Q :=
  hm.setFld.setFld.setFld.setFld.setFld.setFld.setFld

theorem Dev.Inv.importEntry {takeId : Nat} {e : Nat × Nat} (hm : d.Inv M Q) : (Dev.importEntry takeId d e).Inv M Q :=
  .ite hm.putEntry (hm.putEntry.changeEntry (fun _ h => h.setFld))

theorem Dev.Inv.importTable {takeId : Nat} {l : List (Nat × Nat)} (hm : d.Inv M Q) : (d.importTable takeId l).Inv M Q :=
  .selfCheck (.setFld (.setFld (.foldl (fun _ _ h => h.importEntry) hm)))

theorem Dev.Inv.importParts {x : HandoverParts} (hm : d.Inv M Q) : (d.importParts x).Inv M Q :=
  .setFld (.countDamaged (.putEvt (.foldl (fun _ _ h => .ite h h.setCoreSt) hm)))

theorem Dev.Inv.sendTake {id upto : Nat} (hm : d.Inv M Q) : (d.sendTake id upto).Inv M Q := hm.send

theorem Dev.Inv.ackUnit {h : Handover} {v again : Nat} (hm : d.Inv M Q) : (d.ackUnit h v again).Inv M Q := hm.send

theorem Dev.Inv.requeue {x : Nat} (hm : d.Inv M Q) : (d.requeue x).Inv M Q := .takeBack hm

theorem Dev.Inv.applyTake {x : Nat} (hm : d.Inv M Q) : (d.applyTake x).Inv M Q := by
  unfold Dev.applyTake
  extract_lets was same set d1 d2 d3 d4
  have h1 : d1.Inv M Q := .ite hm (hm.changeEntry (fun _ h => h.setFld.setFld.setFld))
  have h2 : d2.Inv M Q := .ite h1.setFld h1
  have h4 : d4.Inv M Q := .ite h2.rlcDrop.holdMirrors h2.rlcDrop
  exact h4.setFld.bumpSat.requeue

/-! ## Machine/HostMem -/

theorem Dev.Inv.memEnd {j : Desc} {a : Nat} {e : MemErr} (hm : d.Inv M Q) : (d.memEnd j a e).Inv M Q := by
  cases e with
  | unpopulated => exact hm.finish
  | lostCore c => exact hm.finish
  | poisoned x => exact hm.memFault.finish

theorem Dev.Inv.dmaMove {j : Desc} (hm : d.Inv M Q) : (d.dmaMove j).Inv M Q :=
  .ite (.ite (.ite hm.store hm.storeCopy) hm.store) hm.hostWrite

theorem Dev.Inv.dmaEnd {j : Desc} (hm : d.Inv M Q) : (d.dmaEnd j).Inv M Q := by
  unfold Dev.dmaEnd
  split
  · exact hm.memEnd
  · exact hm.memEnd
  · exact hm.dmaMove.finish

theorem Dev.Inv.bar2Poisoned {n : Nat} (hm : d.Inv M Q) : (d.bar2Poisoned n).Inv M Q := hm.bumpSat.emit.draw

theorem Dev.Inv.bar2ReadAt {a n : Nat} (hm : d.Inv M Q) : (d.bar2ReadAt a n).Inv M Q := by
  unfold Dev.bar2ReadAt
  split
  · exact hm.emit
  · exact hm.memFault.bar2Poisoned
  · exact hm.bar2Poisoned

theorem Dev.Inv.bar2WriteAt {a : Nat} {l : List Byte} (hm : d.Inv M Q) : (d.bar2WriteAt a l).Inv M Q := .ite hm.bumpSat hm.store

/-! ## Machine/RegCmd -/

theorem Dev.Inv.lockWrite {v : Nat} (hm : d.Inv M Q) : (d.lockWrite v).Inv M Q := .ite hm.lockRequest hm

theorem Dev.Inv.dbgSel {v : Nat} (hm : d.Inv M Q) : (d.dbgSel v).Inv M Q := hm.setFld.setFld

theorem Dev.Inv.observe (hm : d.Inv M Q) : (d.observe).Inv M Q := .ite hm (.ite hm hm)

theorem Dev.Inv.setJtag {i : JtagInstr} (hm : d.Inv M Q) : (d.setJtag i).Inv M Q := hm

theorem Dev.Inv.tick (hm : d.Inv M Q) : (d.tick).Inv M Q := .ite hm (.observe hm)

/-! ## Machine/Route -/

theorem Dev.Inv.pumpPorts (hm : d.Inv M Q) : (d.pumpPorts).Inv M Q := .foldl (fun _ _ h => h.pump) hm

theorem Dev.Inv.holdNotice {x : Nat} (hm : d.Inv M Q) : (d.holdNotice x).Inv M Q := hm

/-! ## Machine/Sec -/

theorem Dev.Inv.attestEnd {j : Desc} (hm : d.Inv M Q) : (d.attestEnd j).Inv M Q :=
  hm.draw.bumpSat.putResult (fun _ h => h.finish)

theorem Dev.Inv.stageEnd {j : Desc} {l : List Byte} (hm : d.Inv M Q) : (d.stageEnd j l).Inv M Q := by
  unfold Dev.stageEnd
  split
  · exact hm.memEnd
  · exact hm.store.finish

theorem Dev.Inv.commitShows {cause result : Nat} (hm : d.Inv M Q) : (d.commitShows cause result).Inv M Q := hm.setFld.setFld

theorem Dev.Inv.commitGo {j : Desc} {p : List Byte} (hm : d.Inv M Q) : (d.commitGo j p).Inv M Q :=
  .ite (.ite hm.setOn hm) (.finish (.commitShows (.ite hm.setOn hm)))

theorem Dev.Inv.commitDone {w : FlashJob} (hm : d.Inv M Q) : (d.commitDone w).Inv M Q := by
  unfold Dev.commitDone
  extract_lets d1 d2
  split
  · exact hm.flashWrite.setFld.commitShows.setFld
  · exact hm

theorem Dev.Inv.commitFails {w : FlashJob} (hm : d.Inv M Q) : (d.commitFails w).Inv M Q := by
  unfold Dev.commitFails
  refine .commitShows ?_
  split
  · exact hm.flashErase
  · exact hm.flashErase

end Both

section MemoryAlone

/-! ## The functions that set the device state, and their callers -/

variable {d : Dev}

theorem Dev.Inv.setState {st : DevState} (hm : d.MemOk) : (d.setState st).MemOk := .msix (.setFld hm)

theorem Dev.Inv.enterHalted {cause seq : Nat} (hm : d.MemOk) : (d.enterHalted cause seq).MemOk := .record (.setState hm)

theorem Dev.Inv.enterReset {power : Bool} : (d.enterReset power).MemOk := by
  unfold Dev.enterReset
  exact .ite ⟨fun _ => rfl, trivial⟩ ⟨fun _ => rfl, trivial⟩

theorem Dev.Inv.trip {unit : Nat} {pin : Bool} {hottest : Nat} (hm : d.MemOk) : (d.trip unit pin hottest).MemOk := by
  unfold Dev.trip
  have h1 : (d.interruptFlash).MemOk := hm.interruptFlash
  exact .enterHalted (.record h1)

theorem Dev.Inv.romChecks {r : RomInputs} (hm : d.MemOk) : (d.romChecks r).MemOk := by
  unfold Dev.romChecks
  split
  · exact hm.record.enterHalted
  · exact .ite hm hm.setFld.enterHalted

theorem Dev.Inv.romStart {r : RomInputs} (hm : d.MemOk) : (d.romStart r).MemOk :=
  .ite (.romChecks (.showStraps (.setFld (.loadAct (.setFld hm))))) (.loadAct (.setFld hm))

theorem Dev.Inv.enterRecovery {cause : Nat} (hm : d.MemOk) : (d.enterRecovery cause).MemOk := .setState (.setFld hm)

theorem Dev.Inv.quiesceNow (hm : d.MemOk) : (d.quiesceNow).MemOk := by
  unfold Dev.quiesceNow
  split
  · exact hm
  · exact .ite (.finishKey (.setState hm)) hm

theorem Dev.Inv.abortMig {m : Migr} (hm : d.MemOk) : (d.abortMig m).MemOk := by
  unfold Dev.abortMig
  extract_lets t d1 d2 d3 d4 d5
  have h1 : d1.MemOk := .ite hm hm.setCoreSt
  have h2 : d2.MemOk := .ite h1 h1.retireSite
  have h3 : d3.MemOk := .ite h2 h2.returnSite
  have h4 : d4.MemOk := h3.setFld.dropMig
  have h5 : d5.MemOk := by
    unfold d5
    split
    · exact h4.finishKey
    · exact h4
  exact h5.migrationEnd.dropHandovers.failRuns.quiesceNow

theorem Dev.Inv.coreLost {c : Nat} (hm : d.MemOk) : (d.coreLost c).MemOk := by
  unfold Dev.coreLost
  split
  · exact hm.abortMig
  · exact .ite hm hm.loseCore.failRuns

theorem Dev.Inv.towerLost {t : Nat} (hm : d.MemOk) : (d.towerLost t).MemOk := .foldl (fun _ _ h => h.coreLost) hm

theorem Dev.Inv.fetchLost (hm : d.MemOk) : (d.fetchLost).MemOk := .foldl (fun _ _ h => h.abortMig) hm

theorem Dev.Inv.buddyLost (hm : d.MemOk) : (d.buddyLost).MemOk := hm.breakMirror.fetchLost

theorem Dev.Inv.pipeOut {c p : Nat} (hm : d.MemOk) : (d.pipeOut c p).MemOk :=
  .ite hm.setFldBit.bumpSat.setFld.record.coreLost
    (.ite hm.setFldBit.bumpSat.setFld.record.askAtGap hm.setFldBit.bumpSat.setFld.record)

theorem Dev.Inv.migTurn {m : Migr} (hm : d.MemOk) : (d.migTurn m).MemOk := by
  unfold Dev.migTurn
  extract_lets t
  split
  · exact hm.dropMig.noSpareSite.failRuns.grantRuns.quiesceNow
  · exact hm.takeSite.setFld.modVlt.modMig.showMigs

theorem Dev.Inv.copied {m : Migr} {bad : List Nat} {go : Dev → Dev} (hm : d.MemOk) (hgo : ∀ d, d.MemOk → (go d).MemOk) :
    (d.copied m bad go).MemOk := by
  unfold Dev.copied
  extract_lets l known all d1
  have h1 : d1.MemOk := .foldl (fun _ _ h => .ite h.bumpSat.record (.ite h.memFault h.setPoison.memFault)) hm
  clear_value d1
  exact .ite (hgo _ h1.bumpSat.modMig) h1.abortMig

theorem Dev.Inv.cutOver {m : Migr} (hm : d.MemOk) : (d.cutOver m).MemOk := by
  unfold Dev.cutOver
  extract_lets t old d1 d2 d3 d4 d5 d6 d7
  have h3 : d3.MemOk := Dev.Inv.setFld (Dev.Inv.setFld (Dev.Inv.retireSite (Dev.Inv.bumpSat (Dev.Inv.setFld
    (Dev.Inv.setFld ⟨hm.1, hm.2⟩)))))
  clear_value d3
  have h6 : d6.MemOk := Dev.Inv.migrationEnd (Dev.Inv.setCoreSt (Dev.Inv.dropMig (Dev.Inv.setFld ⟨h3.1, h3.2⟩)))
  have h7 : d7.MemOk := by
    unfold d7
    split
    · exact h6.finishKey
    · exact h6
  exact h7.grantRuns.quiesceNow

theorem Dev.Inv.targetFailed {m : Migr} (hm : d.MemOk) : (d.targetFailed m).MemOk := hm.retireSite.setFld.migTurn

theorem Dev.Inv.linkGone {l : Nat} (hm : d.MemOk) : (d.linkGone l).MemOk :=
  .ite hm.emptyLink.towerLost hm.emptyLink.engineLost.reroute

theorem Dev.Inv.bundleGone {l b : Nat} (hm : d.MemOk) : (d.bundleGone l b).MemOk :=
  .ite hm.clearUp.linkGone (.foldl (fun _ _ h => h.recoveryFlit) (.modCtl (.foldl (fun _ _ h => h.modBundle) hm.clearUp)))

theorem Dev.Inv.linkFails {l : Nat} (hm : d.MemOk) : (d.linkFails l).MemOk :=
  .fillPlaces (.linkGone (.foldl (fun _ _ h => h.clearUp.dropBundle) hm))

theorem Dev.Inv.tellIssuer {org : MfbOrigin} {e : Ending} (hm : d.MemOk) : (d.tellIssuer org e).MemOk := by
  unfold Dev.tellIssuer
  split
  · exact .ite hm hm.stopOp
  · exact .ite hm hm.buddyLost
  · split
    · exact hm.endDesc
    · exact hm

theorem Dev.Inv.opEnd {o : MfbOp} {e : Ending} (hm : d.MemOk) : (d.opEnd o e).MemOk :=
  .ite hm.dropOp.pumpOp hm.dropOp.bump.countEnd.tellIssuer.pumpOp

theorem Dev.Inv.notifyEnd {o : MfbOp} {e : Ending} (hm : d.MemOk) : (d.notifyEnd o e).MemOk := hm.dropOp.sendNotify.opEnd

theorem Dev.Inv.opGood {o : MfbOp} (hm : d.MemOk) : (d.opGood o).MemOk := by
  unfold Dev.opGood
  split
  · exact hm.pumpOp
  · exact hm.notifyEnd

theorem Dev.Inv.opRefused {o : MfbOp} {home da status : Nat} (hm : d.MemOk) : (d.opRefused o home da status).MemOk :=
  .ite (.notifyEnd (.ite hm.record hm)) (.opEnd (.ite hm.record hm))

theorem Dev.Inv.checkOp {id : Nat} (hm : d.MemOk) : (d.checkOp id).MemOk := by
  unfold Dev.checkOp
  split
  · exact hm
  · exact .ite hm.opGood hm.pumpOp

theorem Dev.Inv.getData {o : MfbOp} {p : Packet} (hm : d.MemOk) : (d.getData o p).MemOk := by
  unfold Dev.getData
  split
  · exact hm
  · refine .ite ?_ ?_
    · exact hm
    · extract_lets a
      split
      · exact hm.opEnd
      · exact hm.opEnd
      · exact .checkOp (.ackPkt (.ite (.ite hm.putLine.bumpSat.rlcPut hm.putLine.bumpSat) hm.putLocal))

theorem Dev.Inv.lineAck {o : MfbOp} {src da : Nat} (hm : d.MemOk) : (d.lineAck o src da).MemOk := by
  unfold Dev.lineAck
  extract_lets d1 d2
  split
  · exact hm.noteLate.modOp
  · exact .ite hm.noteLate.modOp.opGood hm.noteLate.modOp.pumpHome

theorem Dev.Inv.atomicDone {o : MfbOp} {old : Nat} (hm : d.MemOk) : (d.atomicDone o old).MemOk := by
  unfold Dev.atomicDone
  split
  · exact hm.opEnd
  · exact hm.opEnd
  · exact hm.putLocal.opEnd

theorem Dev.Inv.lostOp {o : MfbOp} (hm : d.MemOk) : (d.lostOp o).MemOk := .ite hm.opEnd hm.opEnd

theorem Dev.Inv.setLost {x : Nat} (hm : d.MemOk) : (d.setLost x).MemOk := by
  unfold Dev.setLost
  extract_lets d1 d2 d3 d4 d5
  have h2 : d2.MemOk := .foldl (fun _ _ h => .ite h.lostOp h) hm.markLost
  have h4 : d4.MemOk := h2.rlcDrop.collsLost
  have h5 : d5.MemOk := .ite h4.fetchLost h4
  refine .ite hm ?_
  split
  · exact .ite h5.abortHandover h5
  · exact h5

theorem Dev.Inv.peerLost {p : Nat} (hm : d.MemOk) : (d.peerLost p).MemOk := by
  unfold Dev.peerLost
  split
  · exact hm
  · exact hm.modPort.sight.record.setLost.takeBack.pumpAll

theorem Dev.Inv.sample {x : PowerSample} (hm : d.MemOk) : (d.sample x).MemOk := by
  unfold Dev.sample
  extract_lets d1 d2 d3 d4 was d5
  have h1 : d1.MemOk := by
    unfold d1
    split
    · exact hm.setFld.modTgt
    · exact hm
  have h2 : d2.MemOk := h1.powerInputs.advanceModel
  have h3 : d3.MemOk := .foldl (fun _ _ h => h.bandUpdate) h2.critical.rateActions
  have h5 : d5.MemOk := h3.retarget.attain
  split
  · exact h2.trip
  · exact h5.capWait.countSample

theorem Dev.Inv.stepCfgGo {j : Desc} (hm : d.MemOk) : (d.stepCfgGo j).MemOk := .ite hm.setState.openStep.finish hm.modStp.finish

theorem Dev.Inv.resumeGo {j : Desc} (hm : d.MemOk) : (d.resumeGo j).MemOk := hm.setState.openStep.finish

theorem Dev.Inv.boundary {time : Nat} {committed : Bool} (hm : d.MemOk) : (d.boundary time committed).MemOk :=
  .ite hm.emit.setFld.modStp.runGap.quiesceNow
    (.ite hm.emit.setFld.openStep.modStp.runGap.modStp hm.emit.setFld.openStep.modStp.runGap)

theorem Dev.Inv.stepOver {committed : Bool} (hm : d.MemOk) : (d.stepOver committed).MemOk :=
  .ite hm.modStp.boundary (.ite hm.modStp.bumpSat.modStp.bumpSat.boundary hm.modStp.bumpSat.modStp.modStp)

theorem Dev.Inv.importDone (hm : d.MemOk) : (d.importDone).MemOk := by
  unfold Dev.importDone
  split
  · exact hm
  · extract_lets d1 d2 d3
    have h2 : d2.MemOk := .foldl (fun _ _ h => h.coreLost) (hm.numbered (fun _ _ h => h.toTree))
    have h3 : d3.MemOk := .ite h2.setMirror h2
    exact h3.endHandover

theorem Dev.Inv.takeoverEnd {lost : List Nat} (hm : d.MemOk) : (d.takeoverEnd lost).MemOk :=
  .importDone (.ite (.setFld hm) (.record (.setFld hm)))

theorem Dev.Inv.takeOver {h : Handover} {x : HandoverParts} (hm : d.MemOk) : (d.takeOver h x).MemOk :=
  .ite hm.modHo.showHo.importParts.importTable.setFld.takeoverEnd (.foldl
    (fun _ _ h => h.sendTake) hm.modHo.showHo.importParts.importTable)

theorem Dev.Inv.unitEnd {h : Handover} {p : Packet} {x : HandoverParts} (hm : d.MemOk) : (d.unitEnd h p x).MemOk :=
  .ite hm.modHo.ackUnit (.ite (.ite hm.modHo.ackUnit.abortHandover hm.modHo.ackUnit.modHo)
    (.ite hm.modHo.modHo.setFld.ackUnit.takeOver hm.modHo.modHo.setFld.ackUnit))

theorem Dev.Inv.takeAcked {x : Nat} (hm : d.MemOk) : (d.takeAcked x).MemOk := by
  unfold Dev.takeAcked
  split
  · exact hm
  · exact .ite hm.takeoverEnd hm

theorem Dev.Inv.rcvWrite {v : Nat} (hm : d.MemOk) : (d.rcvWrite v).MemOk := by
  unfold Dev.rcvWrite
  have hr : (d.enterReset true).MemOk := .enterReset
  exact .ite hm (.ite (.ite hm.rcvProgram hm) (.ite hr hm))

theorem Dev.Inv.bar32 {off v : Nat} (hm : d.MemOk) : (d.bar32 off v).MemOk :=
  .ite hm (.ite hm.lockWrite (.ite hm.rcvWrite (.ite hm.dbgSel hm.write32)))

theorem Dev.Inv.barWrite {off n v : Nat} (hm : d.MemOk) : (d.barWrite off n v).MemOk := by
  unfold Dev.barWrite
  refine .ite ?_ ?_
  · exact hm.bar32
  · refine .ite ?_ ?_
    · split
      · exact .ite (.ite hm.write64 hm) hm.bar32.bar32
      · exact hm.bar32
    · exact hm

end MemoryAlone

end Sys2Proof.Machine
end

section
/-! # Canonical memory under every command

Settles O5: each command's effect is a composition of the functions of the model, all of which keep canonical memory. -/

namespace Sys2Proof.Machine

/-- The device after the outcome o of a command in the state s meets `Dev.Inv M Q`, if it did in s. -/
def State.Keeps (M : Prop) (Q : DevState → Prop) (s : State) (o : Host.Outcome State Fault Refusal) : Prop :=
  s.dev.Inv M Q → ∀ t, o = .next t → t.dev.Inv M Q

/-- The outcome o of a command in the state s holds canonical memory, if s does. -/
@[reducible] def State.KeepsMem (s : State) (o : Host.Outcome State Fault Refusal) : Prop := s.Keeps True (fun _ => True) o

variable {s : State} {M : Prop} {Q : DevState → Prop}

theorem State.run_keeps {unit due : Bool} {f : Dev → Dev} (hf : s.dev.Inv M Q → (f s.dev).Inv M Q) :
    s.Keeps M Q (s.run unit due f) := by
  intro hm t ht
  obtain ⟨_, ⟨_, rfl⟩ | ⟨_, rfl⟩⟩ := State.run_cases ht
  · exact hf hm
  · exact hm

theorem State.run_keepsMem {unit due : Bool} {f : Dev → Dev} (hf : s.dev.MemOk → (f s.dev).MemOk) :
    s.KeepsMem (s.run unit due f) :=
  State.run_keeps hf

theorem State.startCmd_keepsMem {c pos code : Nat} {f : Dev → Dev} (hf : s.dev.MemOk → (f s.dev).MemOk) :
    s.KeepsMem (s.startCmd c pos code f) :=
  State.run_keepsMem hf

theorem State.endCmd_keepsMem {c pos code : Nat} {f : Dev → OpRec → Dev} (hf : ∀ o, s.dev.MemOk → (f s.dev o).MemOk) :
    s.KeepsMem (s.endCmd c pos code f) := by
  refine State.run_keepsMem fun hm => ?_
  split
  · exact hf _ hm
  · exact hm

theorem State.vecCmd_keepsMem {x op : Nat} : s.KeepsMem (s.vecCmd x op) := State.run_keepsMem fun hm => hm.vecExec

theorem State.vecLoadCmd_keepsMem {x op : Nat} {e : Ecc} : s.KeepsMem (s.vecLoadCmd x op e) :=
  State.run_keepsMem fun hm => hm.vecExec

theorem State.policy_keepsMem {r : Nat} {is : Nat → Bool} {key lo hi : Nat} {f : Nat → Tgt → Tgt} :
    s.KeepsMem (s.policy r is key lo hi f) :=
  State.run_keepsMem fun hm => hm.startDesc fun _ _ h => h.modTgt.finish

/-! ## Commands whose effect is more than one composition -/

theorem execResetNAssert_keepsMem : s.KeepsMem (execResetNAssert s) :=
  State.run_keepsMem fun _ => .enterReset

theorem execPwrgoodFall_keepsMem : s.KeepsMem (execPwrgoodFall s) :=
  State.run_keepsMem fun _ => .enterReset

theorem execFirmwareStartDone_keepsMem {res : List (Nat × LaneResult)} : s.KeepsMem (execFirmwareStartDone res s) := by
  refine State.run_keepsMem fun hm => ?_
  extract_lets b d1 d2 d3 d4 d5
  have h2 : d2.MemOk := .setFld (.setFld (.emit (.emit hm)))
  have h3 : d3.MemOk := ⟨fun _ => Tab.wf_clear _ _ _ _ (h2.1 trivial), trivial⟩
  have h4 : d4.MemOk := .foldl (fun _ _ h => h.startBundle) h3
  have h5 : d5.MemOk := .foldl (fun _ _ h => .ite h.linkLost h) h4
  exact h5.refreshFlags

theorem execBootFinish_keepsMem : s.KeepsMem (execBootFinish s) :=
  State.run_keepsMem fun hm => .refreshFlags (.lightUp (.foldl (fun _ _ h => h.emptyCheck) (.setState (.setOn (.setFld
    (.applyPresets hm))))))

theorem execRcvFlashDone_keepsMem {ok : Bool} : s.KeepsMem (execRcvFlashDone ok s) := by
  refine State.run_keepsMem fun hm => ?_
  split
  · exact hm
  · exact .ite (.setFld (.flashWrite hm)) (.setFld (.setFld (.flashErase hm)))

theorem execRcvReset_keepsMem : s.KeepsMem (execRcvReset s) := by
  refine State.run_keepsMem fun hm => ?_
  have hr : (s.dev.enterReset true).MemOk := .enterReset
  exact ⟨hr.1, hr.2⟩

theorem execPllLockLoss_keepsMem {k : Nat} : s.KeepsMem (execPllLockLoss k s) :=
  State.run_keepsMem fun hm => .ite hm.setFld.setFld.interruptFlash.pllRecord.enterHalted (.ite (.foldl (fun _ _ h =>
    .ite h h.discardPasses) (.setFldBit (.setFldBit hm))) (.foldl (fun _ _ h => h.portDown) (.setFldBit (.setFldBit hm))))

theorem execPllRelock_keepsMem {k : Nat} : s.KeepsMem (execPllRelock k s) :=
  State.run_keepsMem fun hm => .ite (.ite hm.lossRecord.setFldBit.relockTower hm.lossRecord.setFldBit) hm.lossRecord.setFldBit

theorem execPllRelockTimeout_keepsMem {k : Nat} : s.KeepsMem (execPllRelockTimeout k s) :=
  State.run_keepsMem fun hm => .ite hm.lossRecord (.ite hm.lossRecord.towerLost hm.lossRecord.engineUnlocked)

theorem execDividerChange_keepsMem : s.KeepsMem (execDividerChange s) := by
  refine State.run_keepsMem fun hm => ?_
  split
  · exact hm.changeDivider
  · exact hm

theorem execD2dFlitReceive_keepsMem {l b dir : Nat} {f : List Byte} : s.KeepsMem (execD2dFlitReceive l b dir f s) :=
  State.run_keepsMem fun hm => .ite hm.flitFails (.ite (.answerFlits (.ite hm.flitHeader.takeFlit hm.flitHeader))
    (.ite hm.flitHeader.askRetrain hm.flitHeader))

theorem execD2dRetrainDone_keepsMem {l b : Nat} {res : LaneResult} : s.KeepsMem (execD2dRetrainDone l b res s) := by
  refine State.run_keepsMem fun hm => ?_
  extract_lets pass d1 cal x d2 d3
  have h1 : d1.MemOk := hm.selectLanes
  have h2 : d2.MemOk := ⟨h1.1, h1.2⟩
  have h3 : d3.MemOk := .ite h2.retrained h2.bundleGone
  exact h3.fillPlaces

theorem execD2dRecoveryFlitReceive_keepsMem {l dir : Nat} {f : List Byte} : s.KeepsMem (execD2dRecoveryFlitReceive l dir f s) := by
  refine State.run_keepsMem fun hm => ?_
  extract_lets g o d1 x done d2 d3 w y d4
  have h1 : d1.MemOk := hm.modBundle
  have h3 : d3.MemOk := h1.modBundle.modCtl
  have h4 : d4.MemOk := ⟨h3.1, h3.2⟩
  exact .ite h1 h4.pumpDir

theorem execD2dMarginBundleDone_keepsMem {l b : Nat} {x : D2DSweep} : s.KeepsMem (execD2dMarginBundleDone l b x s) := by
  refine State.run_keepsMem fun hm => ?_
  split
  · exact hm
  · exact .fillPlaces (.beginRetrain (.modCtl hm.putBundle))

theorem execRunCheckDone_keepsMem {ring sub : Nat} : s.KeepsMem (execRunCheckDone ring sub s) := by
  refine State.run_keepsMem fun hm => ?_
  split
  · exact hm.runChecked
  · exact hm

theorem execPassEnd_keepsMem {c pos : Nat} {p : PassTiming} : s.KeepsMem (execPassEnd c pos p s) := by
  refine State.run_keepsMem fun hm => ?_
  extract_lets d
  split
  · split
    · exact hm.bump.bump.bump.endPass
    · exact hm.bump.bump.bump
  · exact hm.bump.bump.bump

theorem execDrain_keepsMem {c pos : Nat} {t : Start} : s.KeepsMem (execDrain c pos t s) := by
  refine State.startCmd_keepsMem fun hm => ?_
  refine .startOpAt hm (fun _ _ h => ?_)
  refine .ite ?_ ?_
  · exact h.stopOp
  · split
    · exact h.stopMem
    · exact h.begun

theorem execConvRecordRead_keepsMem {c pos : Nat} : s.KeepsMem (execConvRecordRead c pos s) := by
  refine State.run_keepsMem fun hm => ?_
  split
  · exact hm
  · split
    · exact hm.stopMem
    · exact hm.modCore

theorem execXfer_keepsMem {c pos : Nat} {t : Start} : s.KeepsMem (execXfer c pos t s) :=
  State.startCmd_keepsMem fun hm => hm.startOpAt (fun _ _ h => .ite h.stopOp (.ite h.sight.stopOp (h.opAccess
    (fun _ h => h.startXfer))))

theorem execXferComplete_keepsMem {c pos : Nat} : s.KeepsMem (execXferComplete c pos s) := by
  refine State.run_keepsMem fun hm => ?_
  split
  · exact hm
  · exact hm.dropOp.bump.sendNotify.opDone

theorem execSignalFire_keepsMem {c : Nat} : s.KeepsMem (execSignalFire c s) := by
  refine State.run_keepsMem fun hm => ?_
  split
  · exact hm
  · exact hm.modCore.fire

theorem execLocalBarrierRelease_keepsMem {ring sub id : Nat} : s.KeepsMem (execLocalBarrierRelease ring sub id s) := by
  refine State.run_keepsMem fun hm => ?_
  split
  · exact hm
  · exact .bump (.modRun (.foldl (fun _ _ h => .ite h.modCore h) hm))

theorem execPreemptSaveDone_keepsMem {c micros : Nat} : s.KeepsMem (execPreemptSaveDone c micros s) := by
  refine State.run_keepsMem fun hm => ?_
  extract_lets w d1 d2 d3 d4 k d5
  have h2 : d2.MemOk := .ite hm.storeFree hm.storeFree.copyKept
  have h5 : d5.MemOk := .grantRuns (.setCore (.setFld (.bumpSat h2)))
  cases k with
  | none => exact h5
  | some k => exact h5.checkRunEnd

theorem execPreemptRestore_keepsMem {c : Nat} : s.KeepsMem (execPreemptRestore c s) := by
  refine State.run_keepsMem fun hm => ?_
  split
  · exact hm.readBack
  · exact hm

theorem execPreemptRestoreDone_keepsMem {c micros : Nat} : s.KeepsMem (execPreemptRestoreDone c micros s) := by
  refine State.run_keepsMem fun hm => ?_
  split
  · exact hm.setCore.modCore.modRun.bumpSat.setFld.reloadActive.grantRuns
  · exact hm

theorem execVaultRead_keepsMem {c off len : Nat} {e : VaultErr} : s.KeepsMem (execVaultRead c off len e s) :=
  State.run_keepsMem fun hm => .ite hm.emit (.emit (.foldl (fun _ _ h => h.poisonRead) hm.pipeTraffic.sectorRead))

theorem execVaultWrite_keepsMem {c off : Nat} {data : List Byte} {e : VaultErr} {again : List Nat} :
    s.KeepsMem (execVaultWrite c off data e again s) := by
  refine State.run_keepsMem fun hm => ?_
  extract_lets bank d1 d2 d3 d4
  have h2 : d2.MemOk := .pipeTraffic (.ite hm.sectorRead hm)
  have h3 : d3.MemOk := .ite h2.spareRow.attempts h2
  have h4 : d4.MemOk := .ite h3.spareBank h3
  exact .ite hm h4.store

theorem execRowRepairFused_keepsMem {bk row : Nat} : s.KeepsMem (execRowRepairFused bk row s) := by
  refine State.run_keepsMem fun hm => ?_
  split
  · exact hm
  · exact hm

theorem execPipeRetrainDone_keepsMem {c p : Nat} {ok : Bool} : s.KeepsMem (execPipeRetrainDone c p ok s) :=
  State.run_keepsMem fun hm => .closeVaultCals (.feedRetrains (.ite hm.modVlt (.ite hm.modVlt.trainSet hm.modVlt.pipeOut)))

theorem execVaultMarginPipeDone_keepsMem {c p : Nat} {x : PipeSweep} : s.KeepsMem (execVaultMarginPipeDone c p x s) := by
  refine State.run_keepsMem fun hm => ?_
  split
  · exact hm
  · exact hm.modVlt.putRecord.modVlt.closeVaultMargins

theorem execMigrationStart_keepsMem {t : Nat} : s.KeepsMem (execMigrationStart t s) := by
  refine State.run_keepsMem fun hm => ?_
  split
  · exact hm.migTurn
  · exact hm

theorem execMigrationInitDone_keepsMem {t : Nat} : s.KeepsMem (execMigrationInitDone t s) := by
  refine State.run_keepsMem fun hm => ?_
  split
  · exact hm.modMig
  · exact hm

theorem execMigrationCopyDone_keepsMem {t : Nat} {bad : List Nat} : s.KeepsMem (execMigrationCopyDone t bad s) := by
  refine State.run_keepsMem fun hm => ?_
  split
  · exact hm
  · exact hm.copied (fun _ h => h.modMig)

theorem execMigrationVerifyDone_keepsMem {t : Nat} {mismatch : Bool} {bad : List Nat} :
    s.KeepsMem (execMigrationVerifyDone t mismatch bad s) := by
  refine State.run_keepsMem fun hm => ?_
  split
  · exact hm
  · extract_lets go
    have hgo : ∀ d : Dev, d.MemOk → (go d).MemOk := by
      intro d h
      unfold go
      split
      · exact .ite h.targetFailed h.cutOver
      · exact h
    exact .ite (hgo _ hm) (hm.copied hgo)

theorem execSpareZeroDone_keepsMem {c : Nat} : s.KeepsMem (execSpareZeroDone c s) := by
  refine State.run_keepsMem fun hm => ?_
  split
  · exact hm
  · refine .quiesceNow ?_
    refine .grantRuns ?_
    split
    · exact .finishKey (.setCoreSt (.dropMig hm.storeZero.zero))
    · exact .setCoreSt (.dropMig hm.storeZero.zero)

theorem execDescWaitTimeout_keepsMem {r : Nat} {core : Bool} : s.KeepsMem (execDescWaitTimeout r core s) := by
  refine State.run_keepsMem fun hm => ?_
  refine .ite ?_ ?_
  · exact hm.popCore.coreRecord
  · split
    · exact hm.popHead.finish
    · exact hm

theorem execBar2Read_keepsMem {o n : Nat} {e : Ecc} : s.KeepsMem (execBar2Read o n e s) := by
  refine State.run_keepsMem fun hm => ?_
  split
  · exact hm.meetEcc.bar2ReadAt
  · exact hm.bar2Poisoned

theorem execBar2Write_keepsMem {o : Nat} {l : List Byte} {e : Ecc} : s.KeepsMem (execBar2Write o l e s) := by
  refine State.run_keepsMem fun hm => ?_
  split
  · extract_lets was d1 d2
    have h1 : d2.MemOk := by
      unfold d2
      split
      · exact hm.meetEcc.memFault
      · exact hm.meetEcc
    exact h1.bar2WriteAt
  · exact hm.bumpSat

theorem execPcieD0Return_keepsMem {msix : Bool} {c : PcieSetup} : s.KeepsMem (execPcieD0Return msix c s) :=
  State.run_keepsMem fun hm => .foldl (fun _ _ h => h.sendPending) (.ite (.foldl (fun _ _ h => h.flushHeld) hm) hm)

theorem execDmaComplete_keepsMem {r k : Nat} {e : Ecc} : s.KeepsMem (execDmaComplete r k e s) := by
  refine State.run_keepsMem fun hm => ?_
  split
  · exact hm.meetEcc.dmaEnd
  · exact hm

theorem execSetCap_keepsMem {r : Nat} : s.KeepsMem (execSetCap r s) := by
  refine State.run_keepsMem fun hm => ?_
  refine .startDesc hm (fun _ _ h => ?_)
  extract_lets d
  have h1 : d.MemOk := by
    unfold d
    split
    · exact h.finishKey
    · exact h
  exact h1.modTgt

theorem execMarginOptical_keepsMem {r : Nat} : s.KeepsMem (execMarginOptical r s) :=
  State.run_keepsMem fun hm => hm.startDesc (fun _ _ h => .closeOptMargins (.foldl (fun _ _ h => h.marginTake) h))

theorem execMarginD2d_keepsMem {r : Nat} : s.KeepsMem (execMarginD2d r s) :=
  State.run_keepsMem fun hm => hm.startDesc (fun _ _ h => .foldl (fun _ _ h => h.fillPlaces) (.closeD2dMargins h))

theorem execOptMarginLaneDone_keepsMem {p lane : Nat} {x : LaneSweep} : s.KeepsMem (execOptMarginLaneDone p lane x s) := by
  refine State.run_keepsMem fun hm => ?_
  split
  · exact hm
  · exact hm.putLane.modOptMargin.laneFree

theorem execSpareLimelight_keepsMem {r : Nat} {t : State} : t.KeepsMem (execSpareLimelight r t) :=
  State.run_keepsMem fun hm => hm.startDesc (fun _ _ h => .ite h.switchStart.finish
    (.ite h.switchStart.finish h.switchStart.modLim))

theorem execFwCommit_keepsMem {r : Nat} : s.KeepsMem (execFwCommit r s) := by
  refine State.run_keepsMem fun hm => ?_
  refine .startDesc hm (fun _ _ h => ?_)
  split
  · exact h.memEnd
  · exact h.commitGo

theorem execFlashWriteDone_keepsMem {ok : Bool} : s.KeepsMem (execFlashWriteDone ok s) := by
  refine State.run_keepsMem fun hm => ?_
  split
  · extract_lets _ d1 d2
    split
    · exact .finishKey (.ite (.commitDone hm) (.commitFails hm))
    · exact .ite (.commitDone hm) (.commitFails hm)
  · exact hm

theorem execLinkBlockReceive_keepsMem {p : Nat} {b : List Byte} : s.KeepsMem (execLinkBlockReceive p b s) :=
  State.run_keepsMem fun hm => .ite hm.bumpSat (.ite (.ite hm.blkHeader.rxData.answer hm.blkHeader.rxData) (.ite hm.blkHeader hm))

theorem execLaneMove_keepsMem {p : Nat} {b : List Byte} : s.KeepsMem (execLaneMove p b s) := by
  refine State.run_keepsMem fun hm => ?_
  refine .ite ?_ ?_
  · exact .slotsChanged (.sendCtl (.setTxLane (.modPort (.ite hm.blkHeader.modPort.laneReason
    (.ite hm.blkHeader.modPort hm.blkHeader)))))
  · split
    · exact .sendCtl (.ite hm.blkHeader.modPort.laneReason (.ite hm.blkHeader.modPort hm.blkHeader))
    · exact .sendCtl (.modPort (.ite hm.blkHeader.modPort.laneReason (.ite hm.blkHeader.modPort hm.blkHeader)))

theorem execLaneMoveSwitch_keepsMem {p : Nat} {rx : Bool} {slot : Nat} : s.KeepsMem (execLaneMoveSwitch p rx slot s) := by
  refine State.run_keepsMem fun hm => ?_
  split
  · exact hm
  · exact .ite hm.rxSwitch hm.setTxLane.modPort.slotsChanged

theorem execIdent_keepsMem {p : Nat} {b : List Byte} : s.KeepsMem (execIdent p b s) :=
  State.run_keepsMem fun hm => .ite
    (.modPort hm) hm.setFld.setFld.setFld.setOn.clearLink.modPort.bumpSat.setPortSt.record.calEnded

theorem execRetrain_keepsMem {p : Nat} {b : List Byte} : s.KeepsMem (execRetrain p b s) :=
  State.run_keepsMem fun hm => .ite hm.blkHeader
    (.ite hm.blkHeader.setFld.modPort.timeCheck.slotsChanged.emptyQueue hm.blkHeader.failPort)

theorem execLightDetected_keepsMem {p : Nat} : s.KeepsMem (execLightDetected p s) :=
  State.run_keepsMem fun hm => .ite hm.setFeedLost.modPort.tryAgain hm.setFeedLost.modPort.startTraining

theorem execLossOfLight_keepsMem {p : Nat} {feed : Bool} {lanes : List Nat} : s.KeepsMem (execLossOfLight p feed lanes s) := by
  refine State.run_keepsMem fun hm => ?_
  extract_lets dark d1 d2
  have h1 : d1.MemOk := .ite hm.setFeedLost hm
  have h2 : d2.MemOk := .ite h1.modPort h1
  exact .ite (.ite h2.failPort h2.lanesFail) (.ite h2.trainFails h2)

theorem execLaneCalDue_keepsMem {p : Nat} : s.KeepsMem (execLaneCalDue p s) := by
  refine State.run_keepsMem fun hm => ?_
  extract_lets lane d
  split
  · split
    · exact .ite hm.modPort.startMove hm.modPort
    · exact hm.modPort
  · exact .ite hm.modPort hm.modPort.startLaneCal

theorem execLaneCalDone_keepsMem {p : Nat} {pass : Bool} : s.KeepsMem (execLaneCalDone p pass s) :=
  State.run_keepsMem fun hm => .laneFree (.slotsChanged (.sendCtl (.ite hm.setFld.setFldBit.modPort hm.setFld)))

theorem execLinkRecoveryNotice_keepsMem {p : Packet} : s.KeepsMem (execLinkRecoveryNotice p s) := by
  refine State.run_keepsMem fun hm => ?_
  extract_lets d
  split
  · exact hm.take
  · split
    · exact hm.take
    · exact hm.take.modPort.takeBack.pumpAll

theorem execLmRemoval_keepsMem {s : Nat} {t : State} : t.KeepsMem (execLmRemoval s t) :=
  State.run_keepsMem fun hm => .ite (.slotBare (.setFld hm)) (.lightUp (.slotBare (.modLim (.ite hm (.stopFeeding hm)))))

theorem execCartridgePoll_keepsMem {s : Nat} {r : Option CartReading} {t : State} : t.KeepsMem (execCartridgePoll s r t) := by
  refine State.run_keepsMem fun hm => ?_
  split
  · exact hm.cartAnswer
  · exact .ite hm.modSlot.stopFeeding hm.modSlot

theorem execSwitchSettled_keepsMem {s lit : Nat} {t : State} : t.KeepsMem (execSwitchSettled s lit t) := by
  refine State.run_keepsMem fun hm => ?_
  split
  · exact hm
  · exact .ite hm.warm (.ite hm.confirmBackup hm)

theorem execSwitchLightTimeout_keepsMem {s : Nat} {t : State} : t.KeepsMem (execSwitchLightTimeout s t) := by
  refine State.run_keepsMem fun hm => ?_
  split
  · exact hm
  · exact hm.setFldBit.record.releaseSpare.limDone

theorem execPacketRoute_keepsMem : s.KeepsMem (execPacketRoute s) := by
  refine State.run_keepsMem fun hm => ?_
  split
  · exact .pumpPorts (.routeAgain hm)
  · exact .route hm
  · exact hm

theorem execTakeoverResend_keepsMem : s.KeepsMem (execTakeoverResend s) := by
  refine State.run_keepsMem fun hm => ?_
  split
  · exact hm
  · exact .ite hm.takeoverEnd (.foldl (fun _ _ h => h.sendTake) hm)

theorem execCollSlotAssign_keepsMem : s.KeepsMem (execCollSlotAssign s) := by
  refine State.run_keepsMem fun hm => ?_
  split
  · exact hm.takeSlot
  · exact hm

theorem execExchangeAck_keepsMem {p : Packet} : s.KeepsMem (execExchangeAck p s) := by
  refine State.run_keepsMem fun hm => ?_
  extract_lets d1 _ d2
  split
  · exact .progress hm
  · exact hm

theorem execExchangeResend_keepsMem : s.KeepsMem (execExchangeResend s) := by
  refine State.run_keepsMem fun hm => ?_
  refine .foldl (fun _ _ h => ?_) ?_
  · split
    · exact h.carSend
    · exact h.send
  · exact hm

theorem execCarouselData_keepsMem {p : Packet} : s.KeepsMem (execCarouselData p s) := by
  refine State.run_keepsMem fun hm => ?_
  extract_lets d
  split
  · exact hm.take
  · split
    · exact hm.take
    · exact .ite hm.take.modColl.progress hm.take.progress

theorem execChunkEnd_keepsMem {p : Packet} {adder : Bool} : s.KeepsMem (execChunkEnd p adder s) := by
  refine State.run_keepsMem fun hm => ?_
  extract_lets d
  split
  · exact hm.take
  · extract_lets code
    split
    · exact hm.take
    · exact .ite hm.take.progress (.ite hm.take.progress.crcFail
      (.ite hm.take.progress.adderFail hm.take.progress.modColl.pumpColl))

theorem execGrant_keepsMem {p : Packet} : s.KeepsMem (execGrant p s) := by
  refine State.run_keepsMem fun hm => ?_
  extract_lets d
  split
  · exact hm.take
  · exact .ite hm.take (.ite hm.take.progress.modColl.pumpColl hm.take.progress.modColl)

theorem execCollWatchdog_keepsMem {r sub : Nat} : s.KeepsMem (execCollWatchdog r sub s) := by
  refine State.run_keepsMem fun hm => ?_
  split
  · exact hm
  · exact hm.record.abortColl

theorem execBlockDispatch_keepsMem {k : Nat} : s.KeepsMem (execBlockDispatch k s) := by
  refine State.run_keepsMem fun hm => ?_
  split
  · exact hm.giveBlock
  · exact hm

theorem execHotLineWrite_keepsMem {line : Nat} : s.KeepsMem (execHotLineWrite line s) := by
  refine State.run_keepsMem fun hm => ?_
  split
  · exact hm
  · exact .applyWrite hm

theorem execMfbGetData_keepsMem {p : Packet} : s.KeepsMem (execMfbGetData p s) := by
  refine State.run_keepsMem fun hm => ?_
  extract_lets d
  split
  · exact .ite hm.take.getData hm.take
  · exact hm.take

theorem execMfbAcknowledgement_keepsMem {p : Packet} : s.KeepsMem (execMfbAcknowledgement p s) := by
  refine State.run_keepsMem fun hm => ?_
  extract_lets d
  split
  · exact hm.take
  · exact .ite hm.take.opRefused (.ite hm.take.lineAck hm.take.ackPkt.checkOp)

theorem execMfbAtomicResult_keepsMem {p : Packet} : s.KeepsMem (execMfbAtomicResult p s) := by
  refine State.run_keepsMem fun hm => ?_
  extract_lets d
  split
  · exact hm.take.bumpSat
  · exact .ite hm.take.atomicDone hm.take.opRefused

theorem execMfbError_keepsMem {p : Packet} : s.KeepsMem (execMfbError p s) := by
  refine State.run_keepsMem fun hm => ?_
  extract_lets d
  split
  · exact hm.take
  · exact .ite hm.take hm.take.opRefused

theorem execGetRetry_keepsMem {id : Nat} : s.KeepsMem (execGetRetry id s) := by
  refine State.run_keepsMem fun hm => ?_
  split
  · exact hm
  · exact .foldl (fun _ _ h => h.sendReq) hm

theorem execAtomicRetry_keepsMem {id : Nat} : s.KeepsMem (execAtomicRetry id s) := by
  refine State.run_keepsMem fun hm => ?_
  extract_lets d
  split
  · exact hm.modOp
  · exact .foldl (fun _ _ h => h.sendReq) hm.modOp

theorem execAtomicDeadline_keepsMem {id : Nat} : s.KeepsMem (execAtomicDeadline id s) := by
  refine State.run_keepsMem fun hm => ?_
  split
  · exact hm
  · exact hm.opEnd

theorem execMfbRespTimeout_keepsMem {id : Nat} : s.KeepsMem (execMfbRespTimeout id s) := by
  refine State.run_keepsMem fun hm => ?_
  split
  · exact hm
  · exact .ite hm.notifyEnd hm.opEnd

theorem execOpPointTick_keepsMem : s.KeepsMem (execOpPointTick s) := by
  refine State.run_keepsMem fun hm => ?_
  extract_lets d1 d2
  have h1 : d2.MemOk := by
    refine .ite ?_ ?_
    · exact hm.modTgt.powerBand
    · split
      · exact hm.modTgt.powerBand.modTgt.beginStep
      · exact .ite hm.modTgt.powerBand.beginStep hm.modTgt.powerBand
  exact h1.modTgt

theorem execBarrierRecord_keepsMem {p : Packet} : s.KeepsMem (execBarrierRecord p s) := by
  refine State.run_keepsMem fun hm => ?_
  extract_lets d e
  split
  · exact hm.take.barAck.barKeep.barPump
  · exact hm.take.barAck.barKeep
  · exact hm.take.barAck
  · exact hm.take.bumpSat

theorem execTimedFallback_keepsMem : s.KeepsMem (execTimedFallback s) :=
  State.run_keepsMem fun hm => .record (.bumpSat (.modStp (.foldl (fun _ _ h => h.abortColl) (.foldl
    (fun _ _ h => h.timeoutRun) hm.modStp))))

theorem execMgmtReset_keepsMem {m : List Byte} : s.KeepsMem (execMgmtReset m s) := by
  refine State.run_keepsMem fun hm => ?_
  refine hm.mgmtCmd fun d h => ?_
  have hr : (d.enterReset true).MemOk := .enterReset
  exact ⟨hr.1, hr.2⟩

theorem execSuspectNotice_keepsMem {p : Packet} : s.KeepsMem (execSuspectNotice p s) :=
  State.run_keepsMem fun hm => .ite (.sight (.ite hm.take.holdNotice.noticeLine hm.take.holdNotice))
    (.ite hm.take.holdNotice.noticeLine hm.take.holdNotice)

theorem execSuspectCountUpdate_keepsMem {x : Nat} : s.KeepsMem (execSuspectCountUpdate x s) := by
  refine State.run_keepsMem fun hm => ?_
  split
  · exact hm
  · exact hm.putSuspect.suspectReport

theorem execManifest_keepsMem {p : Packet} : s.KeepsMem (execManifest p s) := by
  refine State.run_keepsMem fun hm => ?_
  extract_lets d
  split
  · exact hm.take
  · refine .ite ?_ ?_
    · exact hm.take
    · refine .ite ?_ ?_
      · split
        · exact hm.take.modHo.showHo.sendAccept
        · exact hm.take.sendAccept.endHandover
        · exact hm.take.sendAccept.endHandover
      · exact .ite hm.take.sendAccept hm.take

theorem execAccept_keepsMem {p : Packet} : s.KeepsMem (execAccept p s) := by
  refine State.run_keepsMem fun hm => ?_
  extract_lets d
  split
  · exact hm.take
  · refine .ite ?_ ?_
    · exact hm.take
    · split
      · exact hm.take.modHo.showHo.sendUnits
      · exact hm.take.endHandover
      · exact hm.take.endHandover

theorem execHandoverData_keepsMem {p : Packet} : s.KeepsMem (execHandoverData p s) := by
  refine State.run_keepsMem fun hm => ?_
  extract_lets d
  split
  · exact hm.take
  · exact .ite hm.take (.ite hm.take.modHo.store hm.take.modHo)

theorem execUnitEnd_keepsMem {p : Packet} {x : HandoverParts} : s.KeepsMem (execUnitEnd p x s) := by
  refine State.run_keepsMem fun hm => ?_
  extract_lets d
  split
  · exact hm.take
  · exact .ite hm.take hm.take.unitEnd

theorem execUnitAck_keepsMem {p : Packet} : s.KeepsMem (execUnitAck p s) := by
  refine State.run_keepsMem fun hm => ?_
  extract_lets d again
  have ht : d.MemOk := hm.take
  clear_value d
  split
  · exact ht
  next h _ =>
    extract_lets v d1 d2
    have h1 : d1.MemOk := ht.modHo.setFld
    have h2 : d2.MemOk := .ite h1 (.ite h1.abortHandover h1.modHo.sendUnit)
    exact .ite ht (.ite h2.modHo.showHo h2.sendUnits)

theorem execHandoverDone_keepsMem {p : Packet} : s.KeepsMem (execHandoverDone p s) := by
  refine State.run_keepsMem fun hm => ?_
  extract_lets d
  split
  · exact hm.take
  · exact .ite hm.take (.endHandover (hm.take.setFld.changeEntry (fun _ h => h.setFld.setFld)))

theorem execManifestResend_keepsMem : s.KeepsMem (execManifestResend s) := by
  refine State.run_keepsMem fun hm => ?_
  split
  · exact hm.modHo.sendManifest
  · exact hm

theorem execHandoverWaitTimeout_keepsMem : s.KeepsMem (execHandoverWaitTimeout s) := by
  refine State.run_keepsMem fun hm => ?_
  split
  · exact hm.abortHandover
  · exact hm

theorem execHandoverStall_keepsMem : s.KeepsMem (execHandoverStall s) := by
  refine State.run_keepsMem fun hm => ?_
  split
  · exact hm.abortHandover
  · exact hm

theorem execResultTableEntryExpire_keepsMem : s.KeepsMem (execResultTableEntryExpire s) := by
  refine State.run_keepsMem fun hm => ?_
  extract_lets _ d
  split
  · exact .admitAtomic hm
  · exact hm

theorem execAttestComplete_keepsMem : s.KeepsMem (execAttestComplete s) := by
  refine State.run_keepsMem fun hm => ?_
  split
  · exact hm
  · extract_lets _ d
    split
    · exact .attestEnd hm
    · exact hm

theorem execFwStageComplete_keepsMem {r k : Nat} {e : Ecc} : s.KeepsMem (execFwStageComplete r k e s) := by
  refine State.run_keepsMem fun hm => ?_
  split
  · exact hm.meetEcc.withList (fun _ _ h => h.stageEnd)
  · exact hm

/-! ## Every command, and every step -/

theorem exec_keepsMem (c : Instr) (s : State) : s.KeepsMem (exec c s) := by
  cases c with (dsimp only [exec])
  | resetRelease _ => exact State.run_keepsMem fun hm => .romStart hm
  | resetNAssert => exact execResetNAssert_keepsMem
  | pwrgoodFall => exact execPwrgoodFall_keepsMem
  | perstNAssert => exact State.run_keepsMem fun hm => .pcieReset hm
  | perstNRelease => exact State.run_keepsMem fun hm => hm
  | thermtripAssert => exact State.run_keepsMem fun hm => hm.trip
  | rootPllLockTimeout => exact State.run_keepsMem fun hm => hm.enterHalted
  | imageLoaded _ => exact State.run_keepsMem fun hm => .ite hm.imageAccepted (.ite hm hm.enterRecovery)
  | firmwareStartDone _ => exact execFirmwareStartDone_keepsMem
  | bootFinish => exact execBootFinish_keepsMem
  | bootWatchdog => exact State.run_keepsMem fun hm => hm.enterRecovery
  | fuseAdvance => exact State.run_keepsMem fun hm => .setFld hm
  | rcvProgram => exact State.run_keepsMem fun hm => hm.rcvProgram
  | rcvFlashDone _ => exact execRcvFlashDone_keepsMem
  | rcvReset => exact execRcvReset_keepsMem
  | pllLockLoss _ => exact execPllLockLoss_keepsMem
  | pllRelock _ => exact execPllRelock_keepsMem
  | pllRelockTimeout _ => exact execPllRelockTimeout_keepsMem
  | refCheck _ => exact State.run_keepsMem fun hm => .ite (.record (.setOn hm)) (.setOn hm)
  | dividerChange => exact execDividerChange_keepsMem
  | regulatorReport => exact State.run_keepsMem fun hm => hm.modTgt
  | stepUpAbandon => exact State.run_keepsMem fun hm => hm.abandonStep.modTgt.record
  | d2dPacketStart _ _ _ _ _ => exact State.run_keepsMem fun hm => .ite hm.startUnit (.pumpReady hm)
  | d2dFlitReceive _ _ _ _ => exact execD2dFlitReceive_keepsMem
  | d2dReplayTimeout _ _ _ => exact State.run_keepsMem fun hm => hm.resendFlits
  | d2dRetrainDone _ _ _ => exact execD2dRetrainDone_keepsMem
  | d2dRecoveryFlitSend _ _ _ => exact State.run_keepsMem fun hm => hm.recoveryFlit
  | d2dRecoveryFlitReceive _ _ _ => exact execD2dRecoveryFlitReceive_keepsMem
  | d2dRecoveryTimeout _ _ _ => exact State.run_keepsMem fun hm => hm.linkFails
  | d2dBandSetDone _ _ => exact State.run_keepsMem fun hm => hm.bandApplied
  | d2dMarginBundleDone _ _ _ => exact execD2dMarginBundleDone_keepsMem
  | seqDispatch _ _ => exact State.run_keepsMem fun hm => hm.meetEcc.dispatchNext
  | runCheckDone _ _ => exact execRunCheckDone_keepsMem
  | wLoad _ _ _ => exact State.run_keepsMem fun hm => hm.startOpAt (fun _ _ h => h.begun)
  | wLoadComplete _ _ => exact State.endCmd_keepsMem fun _ hm => hm.modCore.opDone
  | cbLoad _ _ _ => exact State.startCmd_keepsMem fun hm => hm.startOpAt (fun _ _ h => h.begun)
  | cbLoadComplete _ _ => exact State.endCmd_keepsMem fun _ hm => hm.modCore.opDone
  | stream _ _ _ => exact State.run_keepsMem fun hm => hm.startStream
  | passEnd _ _ _ => exact execPassEnd_keepsMem
  | faultCountClear _ => exact State.run_keepsMem fun hm => .setFld hm
  | bubbleWindowStart _ => exact State.run_keepsMem fun hm => hm
  | drain _ _ _ => exact execDrain_keepsMem
  | convRecordRead _ _ => exact execConvRecordRead_keepsMem
  | drainEnd _ _ => exact State.endCmd_keepsMem fun _ hm => hm.endDrain
  | overflowReplay _ => exact State.run_keepsMem fun hm => hm.overflowReplay
  | vec _ _ _ => exact State.startCmd_keepsMem fun hm => hm.startOpAt (fun _ _ h => .begun h)
  | vecEnd _ _ => exact State.run_keepsMem fun hm => .opDone hm
  | move _ _ _ => exact State.startCmd_keepsMem fun hm => hm.startOpAt (fun _ _ h => h.opAccess (fun _ h => h.begun))
  | moveComplete _ _ => exact State.endCmd_keepsMem fun _ hm => hm.opAccess (fun _ h => .opDone (.foldl
    (fun _ _ h => h.storeCopy) h))
  | gather _ _ _ => exact State.startCmd_keepsMem fun hm => hm.startOpAt (fun _ _ h => h.begun)
  | gatherComplete _ _ => exact State.endCmd_keepsMem fun _ hm => hm.gatherFromN
  | xfer _ _ _ => exact execXfer_keepsMem
  | xferComplete _ _ => exact execXferComplete_keepsMem
  | wait _ => exact State.run_keepsMem fun hm => .ite hm.passNext.bump hm.modCore
  | waitMet _ => exact State.run_keepsMem fun hm => hm.passNext.bump
  | waitTimeout _ => exact State.run_keepsMem fun hm => hm.stopCore
  | coreStopAtBoundary _ => exact State.run_keepsMem fun hm => hm.haltCore
  | signal _ => exact State.run_keepsMem fun hm => .ite hm.passNext.fire hm.setCore.passNext
  | signalFire _ => exact execSignalFire_keepsMem
  | barrier _ => exact State.run_keepsMem fun hm => hm.modCore
  | localBarrierRelease _ _ _ => exact execLocalBarrierRelease_keepsMem
  | replayMark _ => exact State.run_keepsMem fun hm => hm.modCore.passNext.bump
  | endOp _ => exact State.run_keepsMem fun hm => hm.modCore
  | programComplete _ => exact State.run_keepsMem fun hm => hm.modCore.bump.checkOwnerEnd
  | arrayFault _ _ _ => exact State.run_keepsMem fun hm => .ite hm.vecUnitFault hm.arrayFault
  | preemptRequest _ => exact State.run_keepsMem fun hm => hm.modCore
  | preemptSave _ _ => exact State.run_keepsMem fun hm => hm.modOwner.setFld.setCore
  | preemptSaveDone _ _ => exact execPreemptSaveDone_keepsMem
  | preemptRestore _ => exact execPreemptRestore_keepsMem
  | preemptRestoreDone _ _ => exact execPreemptRestoreDone_keepsMem
  | halt _ => exact State.vecCmd_keepsMem
  | vfp _ => exact State.vecCmd_keepsMem
  | vint _ => exact State.vecCmd_keepsMem
  | vcmp _ => exact State.vecCmd_keepsMem
  | vperm _ => exact State.vecCmd_keepsMem
  | vred _ => exact State.vecCmd_keepsMem
  | vcvt _ => exact State.vecCmd_keepsMem
  | vscl _ => exact State.vecCmd_keepsMem
  | vpred _ => exact State.vecCmd_keepsMem
  | vld _ _ => exact State.vecLoadCmd_keepsMem
  | vlds _ _ => exact State.vecLoadCmd_keepsMem
  | vldx _ _ => exact State.vecLoadCmd_keepsMem
  | vldw _ _ => exact State.vecLoadCmd_keepsMem
  | vldb _ _ => exact State.vecLoadCmd_keepsMem
  | vst _ => exact State.vecCmd_keepsMem
  | vsts _ => exact State.vecCmd_keepsMem
  | vstx _ => exact State.vecCmd_keepsMem
  | vstn _ => exact State.vecCmd_keepsMem
  | vstb _ => exact State.vecCmd_keepsMem
  | salu _ => exact State.vecCmd_keepsMem
  | saddi _ => exact State.vecCmd_keepsMem
  | slui _ => exact State.vecCmd_keepsMem
  | sori _ => exact State.vecCmd_keepsMem
  | sld _ _ => exact State.vecLoadCmd_keepsMem
  | sst _ => exact State.vecCmd_keepsMem
  | mtc _ => exact State.vecCmd_keepsMem
  | mfc _ => exact State.vecCmd_keepsMem
  | beq _ => exact State.vecCmd_keepsMem
  | bne _ => exact State.vecCmd_keepsMem
  | blt _ => exact State.vecCmd_keepsMem
  | bltu _ => exact State.vecCmd_keepsMem
  | jmp _ => exact State.vecCmd_keepsMem
  | vecUndefined _ => exact State.run_keepsMem fun hm => hm.vecExec
  | vecLimitExceeded _ => exact State.run_keepsMem fun hm => .vecStop (.ite hm hm.bumpSat)
  | vaultRead _ _ _ _ => exact execVaultRead_keepsMem
  | vaultWrite _ _ _ _ _ => exact execVaultWrite_keepsMem
  | rowRepairFused _ _ => exact execRowRepairFused_keepsMem
  | bankSpareDone _ _ => exact State.run_keepsMem fun hm => hm.modVlt.bumpSat.record
  | refreshDue _ _ _ => exact State.run_keepsMem fun hm => hm.modVlt
  | patrolScrub _ _ _ _ _ => exact State.run_keepsMem fun hm => hm.scrubSector
  | pipeRetrainDone _ _ _ => exact execPipeRetrainDone_keepsMem
  | mirrorResyncDone => exact State.run_keepsMem fun hm => hm.setMirror
  | vaultMarginPipeDone _ _ _ => exact execVaultMarginPipeDone_keepsMem
  | migrationStart _ => exact execMigrationStart_keepsMem
  | migrationInitDone _ => exact execMigrationInitDone_keepsMem
  | migrationCopyDone _ _ => exact execMigrationCopyDone_keepsMem
  | migrationVerifyDone _ _ _ => exact execMigrationVerifyDone_keepsMem
  | spareZeroDone _ => exact execSpareZeroDone_keepsMem
  | doorbellPoll _ => exact State.run_keepsMem fun hm => hm.hostChange.poll
  | descUndefined _ => exact State.run_keepsMem fun hm => hm.startDesc (fun _ _ h => h)
  | descWaitTimeout _ _ => exact execDescWaitTimeout_keepsMem
  | irqHoldoffExpire _ => exact State.run_keepsMem fun hm => .ite (.msix hm) hm
  | bar2Read _ _ _ => exact execBar2Read_keepsMem
  | bar2Write _ _ _ => exact execBar2Write_keepsMem
  | pcieLinkReset => exact State.run_keepsMem fun hm => hm.pcieReset
  | pcieD0Return _ _ => exact execPcieD0Return_keepsMem
  | nop _ => exact State.run_keepsMem fun hm => hm.startDesc (fun _ _ h => h.finish)
  | eventAdd _ => exact State.run_keepsMem fun hm => hm.startDesc (fun _ _ h => h.evtAdd.finish)
  | eventSet _ => exact State.run_keepsMem fun hm => hm.startDesc (fun _ _ h => h.evtSet.bump.finish)
  | eventRead _ => exact State.run_keepsMem fun hm => hm.startDesc (fun _ _ h => h.putResult (fun _ h => h.finish))
  | run _ => exact State.run_keepsMem fun hm => hm.startDesc (fun _ _ h => h.startRun)
  | dma _ => exact State.run_keepsMem fun hm => hm.startDesc (fun _ _ h => .ite h.finish h)
  | dmaComplete _ _ _ => exact execDmaComplete_keepsMem
  | collAllReduce _ => exact State.run_keepsMem fun hm => hm.startDesc (fun _ _ h => h.startColl)
  | collReduceScatter _ => exact State.run_keepsMem fun hm => hm.startDesc (fun _ _ h => h.startColl)
  | collAllGather _ => exact State.run_keepsMem fun hm => hm.startDesc (fun _ _ h => h.startColl)
  | collBroadcast _ => exact State.run_keepsMem fun hm => hm.startDesc (fun _ _ h => h.startColl)
  | collReduce _ => exact State.run_keepsMem fun hm => hm.startDesc (fun _ _ h => h.startColl)
  | collGroup _ => exact State.run_keepsMem fun hm => hm.startDesc (fun _ _ h => h.startGroup)
  | collGroupDelete _ => exact State.run_keepsMem fun hm => hm.startDesc (fun _ _ h => h.startGroup)
  | get _ => exact State.run_keepsMem fun hm => hm.startMfab
  | getCached _ => exact State.run_keepsMem fun hm => hm.startMfab
  | put _ => exact State.run_keepsMem fun hm => hm.startMfab
  | putLine _ => exact State.run_keepsMem fun hm => hm.startMfab
  | invalidate _ => exact State.run_keepsMem fun hm => hm.startMfab
  | invalidateAll _ => exact State.run_keepsMem fun hm => hm.startMfab
  | aIadd _ => exact State.run_keepsMem fun hm => hm.startMfab
  | aFadd _ => exact State.run_keepsMem fun hm => hm.startMfab
  | aSwap _ => exact State.run_keepsMem fun hm => hm.startMfab
  | aCas _ => exact State.run_keepsMem fun hm => hm.startMfab
  | aUmax _ => exact State.run_keepsMem fun hm => hm.startMfab
  | aUmin _ => exact State.run_keepsMem fun hm => hm.startMfab
  | aOr _ => exact State.run_keepsMem fun hm => hm.startMfab
  | aAnd _ => exact State.run_keepsMem fun hm => hm.startMfab
  | rFadd _ => exact State.run_keepsMem fun hm => hm.startMfab
  | rIadd _ => exact State.run_keepsMem fun hm => hm.startMfab
  | rFmax _ => exact State.run_keepsMem fun hm => hm.startMfab
  | rFmin _ => exact State.run_keepsMem fun hm => hm.startMfab
  | updBind _ => exact State.run_keepsMem fun hm => hm.startDesc (fun _ _ h => h.startBind)
  | updUnbind _ => exact State.run_keepsMem fun hm => hm.startDesc (fun _ _ h => h.startBind)
  | updFreeze _ => exact State.run_keepsMem fun hm => hm.startDesc (fun _ _ h => h.startFreeze)
  | updThaw _ => exact State.run_keepsMem fun hm => hm.startDesc (fun _ _ h => h.startFreeze)
  | stepCfg _ => exact State.run_keepsMem fun hm => hm.startDesc (fun _ _ h => h.stepCfgGo)
  | setCap _ => exact execSetCap_keepsMem
  | setPolicyDramBand _ => exact State.policy_keepsMem
  | setPolicyHighestPoint _ => exact State.policy_keepsMem
  | setPolicyCollWatchdog _ => exact State.policy_keepsMem
  | setPolicyAtomicRetry _ => exact State.policy_keepsMem
  | actSelect _ => exact State.run_keepsMem fun hm => hm.startDesc (fun _ _ h => h.setFld.setFld.finish)
  | calReqOptical _ => exact State.run_keepsMem fun hm => hm.startDesc (fun _ _ h => h.atGap (fun _ _ h => h.calOptGo))
  | calReqD2d _ => exact State.run_keepsMem fun hm => hm.startDesc (fun _ _ h => h.atGap (fun _ _ h => h.calD2dGo))
  | calReqVault _ => exact State.run_keepsMem fun hm => hm.startDesc (fun _ _ h => h.atGap (fun _ _ h => h.calVaultGo))
  | calReqThermal _ => exact State.run_keepsMem fun hm => hm.startDesc (fun _ _ h => h.atGap (fun _ _ h => h.refitAll))
  | marginVault _ => exact State.run_keepsMem fun hm => hm.startDesc (fun _ _ h => .ite h.finish h.modVlt)
  | marginOptical _ => exact execMarginOptical_keepsMem
  | marginD2d _ => exact execMarginD2d_keepsMem
  | optMarginLaneDone _ _ _ => exact execOptMarginLaneDone_keepsMem
  | spareCore _ => exact State.run_keepsMem fun hm => hm.startDesc (fun _ _ h => h.atGap (fun _ _ h => h.spareCoreGo))
  | spareLimelight _ => exact execSpareLimelight_keepsMem
  | handoverExport _ => exact State.run_keepsMem fun hm => hm.startDesc (fun _ _ h => h.beginHo)
  | handoverImport _ => exact State.run_keepsMem fun hm => hm.startDesc (fun _ _ h => h.beginHo)
  | quiesce _ => exact State.run_keepsMem fun hm => hm.startDesc (fun _ _ h => h.modStp)
  | resume _ => exact State.run_keepsMem fun hm => hm.startDesc (fun _ _ h => h.resumeGo)
  | attest _ => exact State.run_keepsMem fun hm => hm.startDesc (fun _ _ h => h)
  | fwStage _ => exact State.run_keepsMem fun hm => hm.startDesc (fun _ _ h => .ite h.finish h)
  | fwCommit _ => exact execFwCommit_keepsMem
  | flashWriteDone _ => exact execFlashWriteDone_keepsMem
  | setupLock => exact State.run_keepsMem fun hm => hm.lockWrite
  | evtDataWrite _ => exact State.run_keepsMem fun hm => hm.evtData
  | srTestWrite _ _ => exact State.run_keepsMem fun hm => hm.write64
  | mgmtReqTake => exact State.run_keepsMem fun hm => hm.setFld
  | dbgSelWrite _ => exact State.run_keepsMem fun hm => hm.dbgSel
  | registerWrite _ _ _ => exact State.run_keepsMem fun hm => hm.barWrite
  | linkBlockReceive _ _ => exact execLinkBlockReceive_keepsMem
  | resendTimer _ => exact State.run_keepsMem fun hm => .foldl (fun _ _ h => h.resendBlock) hm
  | alignmentBeat _ _ => exact State.run_keepsMem fun hm => hm.setPort.sendAlign.lanesFail
  | laneMove _ _ => exact execLaneMove_keepsMem
  | laneMoveAck _ _ => exact State.run_keepsMem fun hm => hm.blkHeader.modPort
  | laneMoveSwitch _ _ _ => exact execLaneMoveSwitch_keepsMem
  | ident _ _ => exact execIdent_keepsMem
  | time _ _ => exact State.run_keepsMem fun hm => hm.blkHeader.timeBlock
  | marginReport _ _ => exact State.run_keepsMem fun hm => hm.blkHeader.setFld
  | calLane _ _ => exact State.run_keepsMem fun hm => hm.blkHeader.setFld.slotsChanged
  | retrain _ _ => exact execRetrain_keepsMem
  | controlResendTimer _ => exact State.run_keepsMem fun hm => .ite hm.failPort (.modPort (.foldl (fun _ _ h => h.sendCtl) hm))
  | lightDetected _ => exact execLightDetected_keepsMem
  | lossOfLight _ _ _ => exact execLossOfLight_keepsMem
  | trainingComplete _ _ => exact State.run_keepsMem fun hm => hm.trainDone
  | trainingPhaseTimeout _ _ => exact State.run_keepsMem fun hm => .ite hm.trainFails hm.trainFails.pumpPortCals
  | trainingRetryTimer _ => exact State.run_keepsMem fun hm => hm.startTraining
  | miswireHoldExpire _ => exact State.run_keepsMem fun hm => hm.modPort
  | laneCalDue _ => exact execLaneCalDue_keepsMem
  | laneCalDone _ _ => exact execLaneCalDone_keepsMem
  | portCalDue _ => exact State.run_keepsMem fun hm => hm.modPort.deferGap
  | portCalDrained _ => exact State.run_keepsMem fun hm => .startTraining (.modPort (.ite hm.flipFeed hm))
  | timeBlockSend _ => exact State.run_keepsMem fun hm => hm.sendCtl
  | marginEstimate _ _ => exact State.run_keepsMem fun hm => hm.setFld.sendCtl
  | ringLockLoss _ _ _ => exact State.run_keepsMem fun hm => .ite hm.modPort.lanesFail hm.modPort
  | ringRelock _ _ _ => exact State.run_keepsMem fun hm => .ite (.ite hm.modPort hm.modPort.laneFree) hm.modPort
  | linkRecoveryNotice _ => exact execLinkRecoveryNotice_keepsMem
  | recoveryNoticeTimeout _ => exact State.run_keepsMem fun hm => hm.peerLost
  | lmPresence _ => exact State.run_keepsMem fun hm => hm
  | cartridgeCheck _ _ => exact State.run_keepsMem fun hm => hm.draw.emit.checked
  | lmRemoval _ => exact execLmRemoval_keepsMem
  | cartridgePoll _ _ => exact execCartridgePoll_keepsMem
  | lifeAccounting _ => exact State.run_keepsMem fun hm => hm.modSlot.showLife.showPredict
  | warmingTimeout _ => exact State.run_keepsMem fun hm => hm.stopFeeding
  | switchSettled _ _ => exact execSwitchSettled_keepsMem
  | switchLightTimeout _ => exact execSwitchLightTimeout_keepsMem
  | packetRoute => exact execPacketRoute_keepsMem
  | treeWaitTimeout => exact State.run_keepsMem fun hm => .bumpSat hm
  | takeoverNotice _ => exact State.run_keepsMem fun hm => .ite hm.take.record hm.take.applyTake.send
  | takeoverAck _ => exact State.run_keepsMem fun hm => .ite hm.take.takeAcked hm.take
  | takeoverResend => exact execTakeoverResend_keepsMem
  | collSlotAssign => exact execCollSlotAssign_keepsMem
  | exchangePacket _ => exact State.run_keepsMem fun hm => hm.take.exArrive
  | exchangeAck _ => exact execExchangeAck_keepsMem
  | exchangeResend => exact execExchangeResend_keepsMem
  | carouselData _ => exact execCarouselData_keepsMem
  | chunkEnd _ _ => exact execChunkEnd_keepsMem
  | grant _ => exact execGrant_keepsMem
  | poisonNotice _ => exact State.run_keepsMem fun hm => .ite hm.take hm.take.relayNotice.markStep.applyNotice
  | abortNotice _ => exact State.run_keepsMem fun hm => .ite hm.take hm.take.relayNotice.applyNotice
  | collWatchdog _ _ => exact execCollWatchdog_keepsMem
  | earlyEntryExpire => exact State.run_keepsMem fun hm => hm
  | blockDispatch _ => exact execBlockDispatch_keepsMem
  | updateBlockEnd _ _ => exact State.run_keepsMem fun hm => .ite hm.updFault hm.endBlock
  | coreRingStart _ => exact State.run_keepsMem fun hm => hm.startCore
  | mfbGetRequest _ => exact State.run_keepsMem fun hm => .ite hm.take.respond hm.take.homeFault.countStatus.respond
  | mfbPutPacket _ _ => exact State.run_keepsMem fun hm => hm.take.writeArrive
  | mfbAtomicRequest _ _ => exact State.run_keepsMem fun hm => .ite hm.holdAtomic hm.admitAtomic
  | mfbReductionPacket _ _ => exact State.run_keepsMem fun hm => hm.take.writeArrive
  | mfbMirrorWrite _ _ => exact State.run_keepsMem fun hm => hm.take.writeArrive
  | mfbPutLineCopy _ _ => exact State.run_keepsMem fun hm => hm.take.writeArrive
  | mfbNotify _ => exact State.run_keepsMem fun hm => .ite hm.take.evtAdd.respondAck hm.take.respondAck
  | hotLineWrite _ => exact execHotLineWrite_keepsMem
  | mfbGetData _ => exact execMfbGetData_keepsMem
  | mfbAcknowledgement _ => exact execMfbAcknowledgement_keepsMem
  | mfbAtomicResult _ => exact execMfbAtomicResult_keepsMem
  | mfbError _ => exact execMfbError_keepsMem
  | getRetry _ => exact execGetRetry_keepsMem
  | atomicRetry _ => exact execAtomicRetry_keepsMem
  | atomicDeadline _ => exact execAtomicDeadline_keepsMem
  | mfbRespTimeout _ => exact execMfbRespTimeout_keepsMem
  | mfbWindowTimer => exact State.run_keepsMem fun hm => .foldl (fun _ _ h => h.windowTick) hm
  | tightropeSample _ => exact State.run_keepsMem fun hm => hm.modTgt.sample
  | ratioRamp => exact State.run_keepsMem fun hm => hm.modTgt.setBubble
  | opPointTick => exact execOpPointTick_keepsMem
  | sensorRead _ _ => exact State.run_keepsMem fun hm => hm.modTgt
  | emergencyHoldEnd => exact State.run_keepsMem fun hm => .ite hm.emergency hm.setFld
  | rampSlowEnd => exact State.run_keepsMem fun hm => hm.setFld
  | criticalRelease => exact State.run_keepsMem fun hm => hm.setFld
  | bandDemotion _ => exact State.run_keepsMem fun hm => hm.modTgt.setBand
  | telemetryReasonTimer => exact State.run_keepsMem fun hm => .ite hm.setReason hm.clearReason
  | stepArrival => exact State.run_keepsMem fun hm => hm.modStp.barPump
  | barrierRecord _ => exact execBarrierRecord_keepsMem
  | stepCommitDone => exact State.run_keepsMem fun hm => hm.updCommit.bump.takeSkew.stepOver
  | stepRollback => exact State.run_keepsMem fun hm => hm.updRestore
  | stepRollbackDone => exact State.run_keepsMem fun hm => hm.updRollback.stepOver
  | barrierAck _ => exact State.run_keepsMem fun hm => hm.take.modStp
  | barrierResend => exact State.run_keepsMem fun hm => .foldl (fun _ _ h => h.send) hm.modStp
  | stepSyncEdge => exact State.run_keepsMem fun hm => .ite hm.modStp (.ite hm.modStp.bumpSat.boundary hm.modStp.modStp)
  | syncWindowEnd => exact State.run_keepsMem fun hm => hm.bumpSat.boundary
  | stepGapEnd => exact State.run_keepsMem fun hm => hm.modStp
  | timedFallback => exact execTimedFallback_keepsMem
  | getState _ => exact State.run_keepsMem fun hm => hm.mgmtCmd (fun _ h => h)
  | getRecords _ => exact State.run_keepsMem fun hm => hm.mgmtCmd (fun _ h => h)
  | getSuspects _ => exact State.run_keepsMem fun hm => hm.mgmtCmd (fun _ h => h)
  | setLost _ => exact State.run_keepsMem fun hm => hm.mgmtCmd (fun _ h => .ite h.setLost h.markLost)
  | request _ => exact State.run_keepsMem fun hm => hm.mgmtCmd (fun _ h => h.setFld.setFld.setFld.setFld.setFld.msix)
  | mgmtReset _ => exact execMgmtReset_keepsMem
  | reportAck _ => exact State.run_keepsMem fun hm => .ite hm.bumpSat (.pumpReports hm)
  | reportResend => exact State.run_keepsMem fun hm => .foldl (fun _ _ h => h.sendReport) hm
  | suspectNotice _ => exact execSuspectNotice_keepsMem
  | suspectHoldExpire _ => exact State.run_keepsMem fun hm => hm
  | suspectCountUpdate _ => exact execSuspectCountUpdate_keepsMem
  | manifest _ => exact execManifest_keepsMem
  | accept _ => exact execAccept_keepsMem
  | handoverData _ => exact execHandoverData_keepsMem
  | unitEnd _ _ => exact execUnitEnd_keepsMem
  | unitAck _ => exact execUnitAck_keepsMem
  | handoverDone _ => exact execHandoverDone_keepsMem
  | manifestResend => exact execManifestResend_keepsMem
  | handoverWaitTimeout => exact execHandoverWaitTimeout_keepsMem
  | handoverStall => exact execHandoverStall_keepsMem
  | jtagBypass => exact State.run_keepsMem fun hm => hm.setJtag
  | jtagIdcode => exact State.run_keepsMem fun hm => hm.setJtag.emit
  | jtagSamplePreload => exact State.run_keepsMem fun hm => hm.setJtag
  | jtagExtest => exact State.run_keepsMem fun hm => hm.setJtag
  | jtagExtestPulse => exact State.run_keepsMem fun hm => hm.setJtag
  | jtagTrst _ => exact State.run_keepsMem fun hm => hm
  | internalResetPulseEnd _ => exact State.run_keepsMem fun hm => hm.romStart
  | mgmtLinkUp => exact State.run_keepsMem fun hm => hm.setFld.pumpReports
  | mgmtLinkDown => exact State.run_keepsMem fun hm => hm.setFld
  | resultTableEntryExpire => exact execResultTableEntryExpire_keepsMem
  | atomicSequenceFree => exact State.run_keepsMem fun hm => hm
  | attestComplete => exact execAttestComplete_keepsMem
  | fwStageComplete _ _ _ => exact execFwStageComplete_keepsMem
  | msixTableWrite _ _ => exact State.run_keepsMem fun hm => .sendPending hm

/-- Settles O5: a step with an empty queue ticks, any other runs the command at the front. -/
theorem memoryCanonical : Obligations.MemoryCanonical := by
  unfold Obligations.MemoryCanonical
  intro s t hm hs
  have hd : s.dev.MemOk := ⟨fun _ => hm, trivial⟩
  cases hp : s.pending with
  | nil =>
    rw [step, hp] at hs
    cases hs
    exact hd.tick.1 trivial
  | cons c rest =>
    rw [step, hp] at hs
    exact (exec_keepsMem c { s with pending := rest } hd t hs).1 trivial

end Sys2Proof.Machine
end

section
/-! # RESET and its release

Settles O14: in RESET a command is not due, or no function of its effect sets the device state, or it enters RESET, or it is one of
the two that release reset. -/

namespace Sys2Proof.Machine

variable {s : State}

/-- The device is in RESET. -/
@[reducible] def Dev.InReset (d : Dev) : Prop := d.Inv False (· = .reset)

/-- The outcome o of a command in RESET is in RESET. -/
@[reducible] def State.KeepsReset (s : State) (o : Host.Outcome State Fault Refusal) : Prop := s.Keeps False (· = .reset) o

/-- A command that is not due in RESET. -/
theorem State.keepsReset_of_idle {unit due : Bool} {f : Dev → Dev} (hd : s.dev.st = .reset → due = false) :
    s.KeepsReset (s.run unit due f) := by
  intro hm t ht
  obtain ⟨_, ⟨hdue, _⟩ | ⟨_, rfl⟩⟩ := State.run_cases ht
  · exact absurd ((hd hm.2).symm.trans hdue) Bool.false_ne_true
  · exact hm

/-! ## What RESET stops -/

section
variable {d : Dev} (hr : d.st = .reset)
include hr

theorem Dev.up_of_reset : d.up = false := by simp [Dev.up, Dev.inSt, hr]

theorem Dev.live_of_reset : d.live = false := by simp [Dev.live, Dev.up_of_reset hr, hr]

theorem Dev.mgmtServes_of_reset : d.mgmtServes = false := by simp [Dev.mgmtServes, hr]

theorem Dev.tick_of_reset : d.tick = d := if_pos hr

end

theorem Dev.meetEcc_st (d : Dev) (e : Ecc) : (d.meetEcc e).st = d.st := by
  simp only [Dev.meetEcc]
  exact foldl_keeps Dev.st (fun (d : Dev) a => d.setPoison a) (fun _ _ => rfl) _ _

theorem State.startCmd_keepsReset {c pos code : Nat} {f : Dev → Dev} : s.KeepsReset (s.startCmd c pos code f) :=
  State.keepsReset_of_idle fun hr => by simp [hr]

theorem State.endCmd_keepsReset {c pos code : Nat} {f : Dev → OpRec → Dev} : s.KeepsReset (s.endCmd c pos code f) :=
  State.keepsReset_of_idle fun hr => by simp [Dev.up_of_reset hr]

theorem State.vecCmd_keepsReset {x op : Nat} : s.KeepsReset (s.vecCmd x op) :=
  State.keepsReset_of_idle fun hr => Dev.vecDue_off _ _ _ (Dev.up_of_reset hr)

theorem State.vecLoadCmd_keepsReset {x op : Nat} {e : Ecc} : s.KeepsReset (s.vecLoadCmd x op e) :=
  State.keepsReset_of_idle fun hr => Dev.vecDue_off _ _ _ (Dev.up_of_reset hr)

theorem State.policy_keepsReset {r : Nat} {is : Nat → Bool} {key lo hi : Nat} {f : Nat → Tgt → Tgt} :
    s.KeepsReset (s.policy r is key lo hi f) :=
  State.keepsReset_of_idle fun hr => Dev.descDue_off _ _ _ (Dev.up_of_reset hr)

/-! ## What acts in RESET -/

theorem Dev.enterReset_inReset (d : Dev) (power : Bool) : (d.enterReset power).InReset := by
  unfold Dev.enterReset
  exact .ite ⟨False.elim, rfl⟩ ⟨False.elim, rfl⟩

/-- What a cartridge fed goes dark, and no function on the way sets the device state. -/
theorem execLmRemoval_keepsReset {x : Nat} : s.KeepsReset (execLmRemoval x s) := by
  refine State.run_keeps fun hm => ?_
  extract_lets p d1 q d2
  have h1 : d1.InReset := ⟨hm.1, hm.2⟩
  have h2 : d2.InReset := .ite h1 h1.stopFeeding
  exact .ite (.slotBare (.setFld ⟨h1.1, h1.2⟩)) h2.modLim.slotBare.lightUp

theorem execIrqHoldoffExpire_keepsReset {v : Nat} : s.KeepsReset (execIrqHoldoffExpire v s) := by
  refine State.run_keeps fun hm => ?_
  exact .ite (.msix hm) hm

/-- Every command but the two that release reset keeps RESET. -/
theorem exec_keepsReset (c : Instr) (hpins : ∀ r, c ≠ .resetRelease r) (hpulse : ∀ r, c ≠ .internalResetPulseEnd r) :
    s.KeepsReset (exec c s) := by
  cases c
  all_goals dsimp only [exec]
  case resetRelease r => exact absurd rfl (hpins r)
  case internalResetPulseEnd r => exact absurd rfl (hpulse r)
  case resetNAssert => exact State.run_keeps fun _ => Dev.enterReset_inReset _ _
  case pwrgoodFall => exact State.run_keeps fun _ => Dev.enterReset_inReset _ _
  case perstNAssert => exact State.run_keeps fun hm => .pcieReset hm
  case perstNRelease => exact State.run_keeps fun hm => ⟨hm.1, hm.2⟩
  case irqHoldoffExpire v => exact execIrqHoldoffExpire_keepsReset
  case pcieLinkReset => exact State.run_keeps fun hm => hm.pcieReset
  case msixTableWrite dw v => exact State.run_keeps fun hm => .sendPending hm
  case lmPresence x => exact State.run_keeps fun hm => ⟨hm.1, hm.2⟩
  case lmRemoval x => exact execLmRemoval_keepsReset
  case jtagBypass => exact State.run_keeps fun hm => hm.setJtag
  case jtagIdcode => exact State.run_keeps fun hm => hm.setJtag.emit
  case jtagSamplePreload => exact State.run_keeps fun hm => hm.setJtag
  case jtagExtest => exact State.run_keeps fun hm => hm.setJtag
  case jtagExtestPulse => exact State.run_keeps fun hm => hm.setJtag
  case jtagTrst high => exact State.run_keeps fun hm => ⟨hm.1, hm.2⟩
  case mgmtLinkDown => exact State.run_keeps fun hm => hm.setFld
  all_goals first
    | refine State.keepsReset_of_idle fun hr => ?_
    | exact State.startCmd_keepsReset
    | exact State.endCmd_keepsReset
    | exact State.vecCmd_keepsReset
    | exact State.vecLoadCmd_keepsReset
    | exact State.policy_keepsReset
  all_goals
    have hup := Dev.up_of_reset hr
    simp [hr, hup, Dev.live_of_reset, Dev.mgmtServes_of_reset, Dev.inSt, Dev.barUp, Dev.bar2Up, Dev.mgmtIs, Dev.dispatchDue,
      Dev.meetEcc_st, Dev.descDue_off, Dev.collDue, Dev.vecRuns, Dev.takes, Dev.hoTakes, Dev.rcvReady, Dev.dispatches, Dev.atOp,
      Dev.bundleRuns, Dev.arrives, Dev.coreDue, Dev.coreHead, Dev.respTakes, Dev.atInput, Dev.homeTakes, Dev.coreWaitOver,
      Dev.mfabDue]

/-- Settles O14: a step with an empty queue does nothing in RESET, any other runs the command at the front. -/
theorem resetUntilRelease : Obligations.ResetUntilRelease := by
  unfold Obligations.ResetUntilRelease
  intro s t hr hs
  cases hp : s.pending with
  | nil =>
    rw [step, hp] at hs
    cases hs
    exact .inl (by rw [Dev.tick_of_reset hr]; exact hr)
  | cons c rest =>
    rw [step, hp] at hs
    by_cases hpins : ∃ r, c = .resetRelease r
    · obtain ⟨r, rfl⟩ := hpins
      exact .inr ⟨r, rest, .inl rfl⟩
    · by_cases hpulse : ∃ r, c = .internalResetPulseEnd r
      · obtain ⟨r, rfl⟩ := hpulse
        exact .inr ⟨r, rest, .inr rfl⟩
      · have hk := exec_keepsReset (s := { s with pending := rest }) c (not_exists.mp hpins) (not_exists.mp hpulse)
        exact .inl (hk ⟨False.elim, hr⟩ t hs).2

end Sys2Proof.Machine
end

section
/-! # How a descriptor at the head of its ring starts

What a command does whose meaning is `Dev.startDesc`: the descriptor goes on when its checks pass (R183), and completes with the
outcome of the first that fails. -/

namespace Sys2Proof.Machine

/-! ## Checks -/

@[simp] theorem firstFail_nil : firstFail [] = none := rfl

@[simp] theorem firstFail_none_cons (l : List (Option Ending)) : firstFail (none :: l) = firstFail l := rfl

@[simp] theorem firstFail_some_cons (e : Ending) (l : List (Option Ending)) : firstFail (some e :: l) = some e := rfl

theorem badIf_of {c : Bool} (b : Nat) (h : c = true) : badIf c b = some (Ending.bad b) := if_pos h

theorem Dev.stateCheck_of_inSt {d : Dev} {l : List DevState} (h : d.inSt l = true) : d.stateCheck l = none := by
  simp [Dev.stateCheck, failIf, h]

/-! ## Starting -/

section
variable {s : State} {r : Nat} {j : Desc} {p : Desc → Bool} {chk : Dev → Desc → Option Ending} {go : Dev → Desc → Dev}

theorem Starts.up (h : Starts s r j) : s.dev.up = true := by
  obtain ⟨-, -, hs⟩ := h
  simp only [Dev.starts, Bool.and_eq_true] at hs
  tauto

theorem Starts.stateCheck (h : Starts s r j) : s.dev.stateCheck [.ready, .running, .quiesced] = none :=
  Dev.stateCheck_of_inSt h.up

theorem Starts.descDue (h : Starts s r j) (hp : p j = true) : s.dev.descDue r p = true := by
  obtain ⟨hh, hr, hs⟩ := h
  simp [Dev.descDue, hh, hr, hp, hs]

/-- A descriptor that starts and whose checks pass goes on. -/
theorem Starts.run_go (h : Starts s r j) (hr : r < 16) (hp : p j = true) (hc : chk s.dev j = none) :
    s.run (r < 16) (s.dev.descDue r p) (fun d => d.startDesc r chk go) = .next { s with dev := go (s.dev.popHead r) j } :=
  State.run_gives (decide_eq_true hr) (h.descDue hp) (by simp only [Dev.startDesc, h.1, hc])

/-- A descriptor that starts and that a check refuses completes; one that is no RUN and no COLL marks no step failed. -/
theorem Starts.run_finish {e : Ending} (h : Starts s r j) (hr : r < 16) (hp : p j = true) (hc : chk s.dev j = some e)
    (ho : j.opc ≠ 0x10 ∧ j.opc ≠ 0x30) :
    s.run (r < 16) (s.dev.descDue r p) (fun d => d.startDesc r chk go) = .next { s with dev := (s.dev.popHead r).finish j e } :=
  State.run_gives (decide_eq_true hr) (h.descDue hp) (by simp [Dev.startDesc, h.1, hc, Dev.refuse, ho.1, ho.2])

end

end Sys2Proof.Machine
end

section
/-! # Die-to-die packets and flits

Settles O28. -/

namespace Sys2Proof.Machine

/-! ## The state of bundles -/

/-- A change of one direction of a bundle leaves the other direction. -/
theorem Dev.bundle_modBundle_other (d : Dev) (l b : Nat) {dir : Nat} (f : Bundle → Bundle) (h : dir < 2) :
    (d.modBundle l b (1 - dir) f).bundle l b dir = d.bundle l b dir :=
  Tab.get_set_ne _ _ _ (by omega)

@[simp] theorem Dev.bundleHeld_modBundle (d : Dev) (l b dir : Nat) (f : Bundle → Bundle) (m k : Nat) :
    (d.modBundle l b dir f).bundleHeld m k = d.bundleHeld m k := rfl

section
variable {d : Dev} {l b : Nat}

/-- What a bundle that moves flits meets. -/
theorem Dev.bundleRuns_iff : d.bundleRuns l b = true ↔
    d.live = true ∧ d.linkLocked l = true ∧ d.bundleUp l b = true ∧ d.bundleHeld l b = false ∧ d.bandBundle l ≠ some b := by
  simp [Dev.bundleRuns, and_assoc]

/-! ## Receiving -/

/-- The awaited data flit fails, below the limit of failed sends: the failure is counted and NAK is asked. -/
theorem Dev.dataFails_below {dir : Nat} {f : List Byte} (hs : leAt f 121 1 = ((d.bundle l b dir).rxLast + 1) % 256)
    (hn : (d.bundle l b dir).failRun + 1 < d.retryLimit) :
    d.dataFails l b dir f = d.modBundle l b dir (fun x => { x with nak := true, failRun := (d.bundle l b dir).failRun + 1 }) := by
  simp only [Dev.dataFails, hs, if_true, if_neg (Nat.not_le.mpr hn)]

/-- A flit other than a data flit fails its CRC: the credits it carried are owed again, and nothing else. -/
theorem Dev.flitFails_other {dir : Nat} {f : List Byte} (ht : flitType f ≠ 0) :
    d.flitFails l b dir f = d.modBundle l b (1 - dir) (fun x => x.crdCome false) := by
  simp only [Dev.flitFails, if_neg ht]

/-- The awaited data flit fails on a bundle that is not held, below the limit of failed sends: it is answered. -/
theorem Dev.flitFails_below {dir : Nat} {f : List Byte} (hd : dir < 2) (hh : d.bundleHeld l b = false) (ht : flitType f = 0)
    (hs : leAt f 121 1 = ((d.bundle l b dir).rxLast + 1) % 256) (hn : (d.bundle l b dir).failRun + 1 < d.retryLimit) :
    d.flitFails l b dir f = Dev.answerFlits l b dir 8 ((d.modBundle l b (1 - dir) (fun x => x.crdCome false)).modBundle l b dir
      (fun x => { x with nak := true, failRun := (d.bundle l b dir).failRun + 1 })) := by
  have ho := d.bundle_modBundle_other l b (fun x => x.crdCome false) hd
  simp only [Dev.flitFails, if_pos ht]
  rw [Dev.dataFails_below (by rw [ho]; exact hs) (by rw [ho]; exact hn), ho]
  simp [hh]

/-! ## Sending again -/

@[simp] theorem Dev.deferGap_regs (d : Dev) (g : GapAct) : (d.deferGap g).regs = d.regs := by
  unfold Dev.deferGap; split <;> rfl

@[simp] theorem Dev.deferGap_cores (d : Dev) (g : GapAct) : (d.deferGap g).cores = d.cores := by
  unfold Dev.deferGap; split <;> rfl

/-- A re-send episode counts itself, and changes no other register field and no core. -/
theorem Dev.resendFlits_shows (d : Dev) (l b dir : Nat) :
    (d.resendFlits l b dir).regs = (d.bumpSat (Reg.D2D_ERR_CNT.RETRIES l b) 1).regs ∧ (d.resendFlits l b dir).cores = d.cores := by
  unfold Dev.resendFlits
  extract_lets d1 d2 d3
  have h3 : d3.regs = d1.regs ∧ d3.cores = d.cores := by
    unfold d3
    split
    · exact ⟨d2.deferGap_regs _, d2.deferGap_cores _⟩
    · exact ⟨rfl, rfl⟩
  constructor
  · rw [foldl_keeps Dev.regs (fun d f => d.sendBuf l b dir f) (fun _ _ => rfl)]; exact h3.1
  · rw [foldl_keeps Dev.cores (fun d f => d.sendBuf l b dir f) (fun _ _ => rfl)]; exact h3.2

end

/-! ## The commands -/

variable {s : State} {l b dir : Nat}

/-- A flit reaches a bundle that moves flits; a good one is no recovery flit. -/
theorem gives_d2dFlitReceive {f : List Byte} {e : Dev} (hl : l < 20) (hb : b < bundlesOf l) (hd : dir < 2)
    (hr : s.dev.bundleRuns l b = true) (hf : f.length = 128) (ht : flitGood f = true → flitType f ≠ 3)
    (he : (if !flitGood f then s.dev.flitFails l b dir f
      else if flitType f = 0 then Dev.answerFlits l b dir 8
        (if leAt f 121 1 = (((s.dev.flitHeader l b dir f).bundle l b dir).rxLast + 1) % 256 then
          (s.dev.flitHeader l b dir f).takeFlit l b dir f else s.dev.flitHeader l b dir f)
      else if flitType f = 2 then (s.dev.flitHeader l b dir f).askRetrain l b
      else s.dev.flitHeader l b dir f) = e) : Gives (.d2dFlitReceive l b dir f) s e := by
  rw [Gives, exec, execD2dFlitReceive]
  exact State.run_gives (by simp [bundleOk, hl, hb, hd, hf]) (by simpa [hr, imp_iff_not_or] using ht) he

/-- Settles O28: each clause is the branch of a packet's start, of a flit's receipt or of the timeout that its hypotheses choose. -/
theorem linkFlits : Obligations.LinkFlits := by
  unfold Obligations.LinkFlits
  intro s l b dir hl hb hd hr
  obtain ⟨hlive, hlock, -, hheld, -⟩ := Dev.bundleRuns_iff.mp hr
  refine ⟨?start, ?fails, ?failsOther, ?idle, ?data, ?retrain, ?timeout⟩
  case start =>
    intro src dst p hu hc hp hup hready
    have hunit : (l < 20 && dir < 2 && unitsOk l dir src dst && p.cls < 4 && p.payload.length ≤ 4096) = true := by
      simp [hl, hd, hu, hc, hp]
    have hdue : (s.dev.live && s.dev.linkLocked l && s.dev.upMask l != 0) = true := by simp [hlive, hlock, hup]
    constructor
    · intro hbundle hheld hfit
      have hfits : s.dev.unitFits l dir ⟨src, dst, p⟩ = true := by simp [Dev.unitFits, hbundle, hr, hheld, hfit]
      rw [Gives, exec, execD2dPacketStart]
      exact State.run_gives hunit hdue (by simp [hready, hfits])
    · intro hfits
      rw [Gives, exec, execD2dPacketStart]
      exact State.run_gives hunit hdue (by simp [hready, hfits])
  case fails =>
    intro f hf hg ht hseq hn
    exact gives_d2dFlitReceive hl hb hd hr hf (by simp [hg]) (by simp only [hg]; exact Dev.flitFails_below hd hheld ht hseq hn)
  case failsOther =>
    intro f hf hg ht
    exact gives_d2dFlitReceive hl hb hd hr hf (by simp [hg]) (by simp only [hg]; exact Dev.flitFails_other ht)
  case idle => exact fun f hf hg ht => gives_d2dFlitReceive hl hb hd hr hf (by simp [ht]) (by simp [hg, ht])
  case data => exact fun f hf hg ht hseq => gives_d2dFlitReceive hl hb hd hr hf (by simp [ht]) (by simp [hg, ht, hseq])
  case retrain => exact fun f hf hg ht => gives_d2dFlitReceive hl hb hd hr hf (by simp [ht]) (by simp [hg, ht])
  case timeout =>
    intro ho
    obtain ⟨hregs, hcores⟩ := s.dev.resendFlits_shows l b dir
    refine ⟨?_, ?_, hcores⟩
    · rw [Gives, exec, execD2dReplayTimeout]
      exact State.run_gives (by simp [bundleOk, hl, hb, hd]) (by simp [hr, ho]) rfl
    · rw [Dev.fld_of_regs hregs, Dev.fld_bumpSat_same]

end Sys2Proof.Machine
end

section
/-! # Retraining and loss of die-to-die bundles

Settles O29. -/

namespace Sys2Proof.Machine

/-! ## Fields -/

theorem Dev.fld_refreshFlags (d : Dev) {g : Field} (h : g.key ≠ Reg.GLB_STATE_CHANGE.FLAGS.key) : d.refreshFlags.fld g = d.fld g :=
  Dev.get_refreshFlags d _ _ h

/-- A bit that is cleared in a field reads 0. -/
theorem Dev.bit_setFldBit_clear (d : Dev) (f : Field) (i : Nat) : bit ((d.setFldBit f i false).fld f) i = false := by
  rw [Dev.setFldBit, Dev.fld_setFld_same, bit_eq_testBit, Nat.testBit_mod_two_pow, ← bit_eq_testBit, bit_setBit]
  simp

/-! ## A bundle leaves service -/

/-- BUNDLE_UP of a link is none of the fields that announce a bundle's loss. -/
theorem bundleUp_key_ne (l : Nat) {f : Field} (h : f ∈ [Reg.D2D_BUNDLE_DOWN.LINK, Reg.GLB_STATE_CHANGE.FLAGS, Reg.FLT_LOG_HEAD.COUNT,
    Reg.GLB_STATE_CHANGE.RECORD, Reg.FLT_MGMT_STATUS.DROPPED]) : (Reg.D2D_LINK_STATUS.BUNDLE_UP l).key ≠ f.key := by
  have hlt : f.key < (Reg.D2D_LINK_STATUS.BUNDLE_UP 0).key := by
    revert f; decide
  simp only [Field.key, Reg.D2D_LINK_STATUS.BUNDLE_UP] at hlt ⊢
  omega

theorem Dev.clearUp_bundleUp (d : Dev) (l b : Nat) : (d.clearUp l b).bundleUp l b = false := by
  have hk : (d.clearUp l b).fld (Reg.D2D_LINK_STATUS.BUNDLE_UP l) =
      (d.setFldBit (Reg.D2D_LINK_STATUS.BUNDLE_UP l) b false).fld (Reg.D2D_LINK_STATUS.BUNDLE_UP l) := by
    unfold Dev.clearUp
    rw [Dev.fld_refreshFlags _ (bundleUp_key_ne l (by simp)), Dev.fld_record _ _ (bundleUp_key_ne l (by simp))
      (bundleUp_key_ne l (by simp)) (bundleUp_key_ne l (by simp))]
    exact Dev.fld_setFldBit_ne _ _ _ (bundleUp_key_ne l (by simp))
  rw [Dev.bundleUp, Dev.upMask, hk, Dev.bit_setFldBit_clear]

/-! ## The commands -/

@[simp] theorem Dev.selectLanes_d2d (d : Dev) (l b : Nat) (p : List Nat) : (d.selectLanes l b p).d2d = d.d2d := by
  unfold Dev.selectLanes
  simp only
  split <;> simp

variable {s : State} {l b : Nat}

/-- A retrain ends: the lanes that serve are selected, and the bundle returns or goes (R24, R25). -/
theorem gives_d2dRetrainDone {res : LaneResult} {ok : List Nat} {d : Dev} (hl : l < 20) (hb : b < bundlesOf l)
    (hs : s.dev.live = true) (hp : res.passing.all (· < 68) = true) (hn : res.passing.Nodup) (hk : s.dev.linkLocked l = true)
    (hr : (s.dev.ctl l b).retraining = true) (hok : ok = res.passing.filter (fun n => (s.dev.goodLanes (bundleIdx l b)).contains n))
    (hd : d = { s.dev.selectLanes l b ok with d2d := { s.dev.d2d with
      calJobs := s.dev.d2d.calJobs.map (fun j => { j with busy := j.busy.erase (l, b) }) } }) :
    Gives (.d2dRetrainDone l b res) s
      ((if 64 ≤ ok.length then d.retrained l b (s.dev.d2d.calJobs.any (fun j => j.busy.contains (l, b))) else d.bundleGone l b).fillPlaces l) := by
  rw [Gives, exec, execD2dRetrainDone]
  refine State.run_gives (by simp only [bundleOk, hl, hb, hp, hn]; rfl) (by simp [hs, hk, hr]) ?_
  simp only [← hok, Dev.selectLanes_d2d, ← hd]

/-- A good recovery flit for a bundle that holds no flow brings its acknowledgement alone. -/
theorem gives_d2dRecoveryFlitReceive_idle {dir : Nat} {f : List Byte} (hl : l < 20) (hd : dir < 2) (hf : f.length = 128)
    (hr : s.dev.bundleRuns l (s.dev.lowBundle l) = true) (hg : flitGood f = true) (ht : flitType f = 3)
    (hb : leAt f 0 1 < bundlesOf l) (hh : Tab.get 0 (s.dev.ctl l (leAt f 0 1)).txHold (1 - dir) = 0) :
    Gives (.d2dRecoveryFlitReceive l dir f) s
      (s.dev.modBundle l (s.dev.lowBundle l) (1 - dir) (fun x => (x.crdCome true).acked (leAt f 122 1))) := by
  rw [Gives, exec, execD2dRecoveryFlitReceive]
  refine State.run_gives (by simp [hl, hd, hf]) (by simp [hr, hg, ht, hb]) (if_pos ?_)
  have hc (f : Bundle → Bundle) (b k o : Nat) : (s.dev.modBundle l b o f).ctl l k = s.dev.ctl l k := rfl
  simp [hc, hh]

/-- Settles O29: each clause is the command's effect in the case that its hypotheses choose. -/
theorem bundleService : Obligations.BundleService := by
  unfold Obligations.BundleService
  intro s l b dir hl hb hdir hs
  have hunit : (bundleOk l b && dir < 2) = true := by simp [bundleOk, hl, hb, hdir]
  refine ⟨?retrain, ?gone, ?resend, ?recover, ?lost, ?band⟩
  case retrain =>
    intro res ok d hp hn hk hr hok hd
    have h := gives_d2dRetrainDone hl hb hs hp hn hk hr hok hd
    exact ⟨fun hlen => by rwa [if_pos hlen] at h, fun hlen => by rwa [if_neg (Nat.not_le.mpr hlen)] at h⟩
  case gone => exact fun d => d.clearUp_bundleUp l b
  case resend =>
    intro hk hu hr hc
    rw [Gives, exec, execD2dRecoveryFlitSend]
    exact State.run_gives hunit (by simp [hs, hk, hu, hr, hc]) rfl
  case recover => exact fun f hf hr hg ht hb hh => gives_d2dRecoveryFlitReceive_idle hl hdir hf hr hg ht hb hh
  case lost =>
    intro hu ht hn hc
    rw [Gives, exec, execD2dRecoveryTimeout]
    exact State.run_gives hunit (by simp [hs, hu, ht, hn, hc]) rfl
  case band =>
    intro ha
    rw [Gives, exec, execD2dBandSetDone]
    exact State.run_gives (by simp [bundleOk, hl, hb]) (by simp [hs, ha]) rfl

end Sys2Proof.Machine
end

section
/-! # Calibration and margining of die-to-die links

Settles O30. -/

namespace Sys2Proof.Machine

variable {s : State} {r : Nat} {j : Desc}

theorem gives_calReqD2d (hr : r < 16) (h : Starts s r j) (ho : j.opc = 0x90) (hk : j.num 24 1 = 1)
    (hv : j.reserved [(24, 0, 8), (26, 0, 192)] = none) (hm : j.mask < 2 ^ 20) :
    Gives (.calReqD2d r) s ((s.dev.popHead r).atGap j Dev.calD2dGo) := by
  rw [Gives, exec, execCalReqD2d]
  have hw : badIf (decide (2 ^ 20 ≤ j.mask)) 26 = none := if_neg (by simpa only [decide_eq_true_eq, Nat.not_le] using hm)
  exact h.run_go hr (by simp [ho, hk]) (by rw [hv, hw, h.stateCheck]; rfl)

theorem gives_marginD2d_badKind (hr : r < 16) (h : Starts s r j) (ho : j.opc = 0xE0) (hk : 3 ≤ j.num 24 1) :
    Gives (.marginD2d r) s ((s.dev.popHead r).finish j (Ending.bad 24)) := by
  rw [Gives, exec, execMarginD2d]
  refine h.run_finish hr (by simp [ho]; omega) ?_ (by simp [ho])
  rw [badIf_of 24 (by simp; omega), firstFail_some_cons]

/-- Settles O30: each clause is the command's effect where its checks have the outcome that the clause names. -/
theorem linkMaintenance : Obligations.LinkMaintenance := by
  unfold Obligations.LinkMaintenance
  intro s
  refine ⟨?cal, ?margin, ?badKind, ?swept⟩
  case cal => exact fun r j hr h ho hk hv hm => gives_calReqD2d hr h ho hk hv hm
  case margin =>
    intro r j hr h ho hk hc
    rw [Gives, exec, execMarginD2d]
    exact h.run_go hr (by simp [ho, hk]) (by simp [hc, hk, badIf, failIf])
  case badKind => exact fun r j hr h ho hk => gives_marginD2d_badKind hr h ho hk
  case swept =>
    intro l b x i hl hb hs hi
    have hany : s.dev.d2d.marginJobs.any (fun j => j.busy.contains (l, b)) = true :=
      List.any_eq_true.mpr ⟨i, List.mem_of_find?_eq_some hi, List.find?_some (p := fun j : SweepJob => j.busy.contains (l, b)) hi⟩
    rw [Gives, exec, execD2dMarginBundleDone]
    exact State.run_gives (by simp [bundleOk, hl, hb]) (by simp only [hs, hany, Bool.and_self]) (by simp only [hi])

end Sys2Proof.Machine
end

section
/-! # What a port that goes DOWN leaves of its engine's PLL

When an engine's follower PLL loses lock its four ports go DOWN, and on the way packets are held back, margin records are stored and
mirrored, and descriptors complete. One lemma per function, under the function's name and in the order of the definitions, says that
it keeps what the loss has written. -/

namespace Sys2Proof.Machine

/-- What the loss of an engine's PLL writes: the notes of losses without a record, the lock bits and the bits of CLK_LOCK_LOSS. -/
def Dev.engPll (d : Dev) : Nat × Nat × Nat := (d.pllOpen, d.fld Reg.CLK_STATUS.ENG_LOCK, d.fld Reg.CLK_LOCK_LOSS.ENG)

/-- The field lies in neither CLK_STATUS nor CLK_LOCK_LOSS. -/
@[reducible] def Field.OffPll (f : Field) : Prop := f.key < Reg.CLK_STATUS.ROOT_LOCK.key ∨ Reg.CLK_REF_DEV.DEV.key ≤ f.key

/-- A field of a port lies far above the clock registers. -/
theorem Field.OffPll.optField {base p lo w : Nat} {acc : Access} {reset : Nat} (h : 0x40008 ≤ base) :
    (⟨base + 0x4 * p, lo, w, acc, reset⟩ : Field).OffPll := .inr (by
  simp only [Field.key, Reg.CLK_REF_DEV.DEV]
  omega)

/-- The state of the engines' PLLs is x. -/
@[reducible] def Dev.EngPll (x : Nat × Nat × Nat) (d : Dev) : Prop := d.engPll = x

namespace Dev.EngPll

variable {x : Nat × Nat × Nat} {d : Dev}

theorem ite {c : Prop} [Decidable c] {a b : Dev} (ha : a.EngPll x) (hb : b.EngPll x) : (if c then a else b).EngPll x := by
  split
  · exact ha
  · exact hb

theorem foldl {α : Type} {f : Dev → α → Dev} {l : List α} (hm : d.EngPll x) (hf : ∀ d a, d.EngPll x → (f d a).EngPll x) :
    (l.foldl f d).EngPll x := by
  induction l generalizing d with
  | nil => exact hm
  | cons a l ih => exact ih (hf d a hm)

/-! ## Machine/Ops -/

theorem setFld {f : Field} {n : Nat} (hm : d.EngPll x) (h : f.OffPll := by decide) : (d.setFld f n).EngPll x := by
  have hlock : Reg.CLK_STATUS.ENG_LOCK.key ≠ f.key := by rintro e; rw [Field.OffPll, ← e] at h; revert h; decide
  have hloss : Reg.CLK_LOCK_LOSS.ENG.key ≠ f.key := by rintro e; rw [Field.OffPll, ← e] at h; revert h; decide
  rw [EngPll, engPll, Dev.fld_setFld_ne _ _ hlock, Dev.fld_setFld_ne _ _ hloss]
  exact hm

theorem record {r : FaultRec} (hm : d.EngPll x) : (d.record r).EngPll x := by
  rw [EngPll, engPll, Dev.record_pllOpen, Dev.fld_record _ _ (by decide) (by decide) (by decide),
    Dev.fld_record _ _ (by decide) (by decide) (by decide)]
  exact hm

theorem msix {v : Nat} (hm : d.EngPll x) : (d.msix v).EngPll x := hm

theorem refreshFlags (hm : d.EngPll x) : d.refreshFlags.EngPll x := .ite hm (.msix (.setFld hm))

theorem evtSet {i v : Nat} (hm : d.EngPll x) : (d.evtSet i v).EngPll x := hm

theorem evtAdd {i n : Nat} (hm : d.EngPll x) : (d.evtAdd i n).EngPll x := hm.evtSet.setFld

theorem send {p : Packet} (hm : d.EngPll x) : (d.send p).EngPll x := hm

/-! ## Machine/HostOps -/

theorem setRing {r : Nat} {y : Ring} (hm : d.EngPll x) : (d.setRing r y).EngPll x := hm

theorem writeCpl {r : Nat} {h : HeldRec} (hm : d.EngPll x) : (d.writeCpl r h).EngPll x := .ite (.msix (.setFld hm)) (.setFld hm)

theorem putCpl {r : Nat} {h : HeldRec} (hm : d.EngPll x) : (d.putCpl r h).EngPll x := .ite hm.writeCpl hm.setRing

theorem signal {j : Desc} {st : Status} (hm : d.EngPll x) : (d.signal j st).EngPll x := .ite hm.evtAdd hm

theorem finish {j : Desc} {e : Ending} (hm : d.EngPll x) : (d.finish j e).EngPll x := hm.signal.setRing.putCpl

theorem finishKey {k : Nat × Nat} {e : Ending} (hm : d.EngPll x) : (d.finishKey k e).EngPll x := by
  unfold Dev.finishKey
  split
  · exact hm.finish
  · exact hm

/-! ## Machine/Fab -/

theorem setPort {p : Nat} {y : Port} (hm : d.EngPll x) : (d.setPort p y).EngPll x := hm

theorem timeCheck (hm : d.EngPll x) : d.timeCheck.EngPll x := .ite hm (.ite hm.setFld (.ite (.setFld hm) hm))

theorem sendBlock {p ty vc : Nat} {sop eop : Bool} {seq : Nat} {body : List Byte} (hm : d.EngPll x) :
    (d.sendBlock p ty vc sop eop seq body).EngPll x := hm

theorem sendPktBlocks {p : Nat} {q : Queued} {l : List Byte} {total n : Nat} (hm : d.EngPll x) :
    (Dev.sendPktBlocks p q l total n d).EngPll x := by
  induction n generalizing d with
  | zero => exact hm
  | succ n ih =>
    unfold Dev.sendPktBlocks
    exact ih hm.sendBlock.setPort

theorem pumpN {p n : Nat} (hm : d.EngPll x) : (Dev.pumpN p n d).EngPll x := by
  induction n generalizing d with
  | zero => exact hm
  | succ n ih =>
    unfold Dev.pumpN
    split
    · exact hm
    · exact ih (.sendPktBlocks (.ite hm.setPort.setFld hm.setPort))

theorem leave {n : Nat} {src : Option Nat} {q : Nat} {p out : Packet} {fallback : Bool} (hm : d.EngPll x) :
    (d.leave n src q p out fallback).EngPll x :=
  .ite hm.setFld hm.setPort.pumpN

theorem lineCopy {n : Nat} {src : Option Nat} {p : Packet} (hm : d.EngPll x) : (d.lineCopy n src p).EngPll x := by
  unfold Dev.lineCopy
  extract_lets dir out
  split
  · exact hm.setFld
  · exact .ite hm.setFld hm.leave

theorem lineOut {p : Packet} {code count : Nat} (hm : d.EngPll x) : (d.lineOut p code count).EngPll x :=
  .ite hm (.lineCopy (.setFld hm))

theorem lineSend {a : Nat} {p : Packet} (hm : d.EngPll x) : (d.lineSend a p).EngPll x :=
  .ite hm (.lineOut (.lineOut hm.setFld))

/-! ## Machine/MfbOps -/

theorem modOp {id : Nat} {f : MfbOp → MfbOp} (hm : d.EngPll x) : (d.modOp id f).EngPll x := hm

theorem sendReq {o : MfbOp} {k : MfbPkt} (hm : d.EngPll x) : (d.sendReq o k).EngPll x :=
  .modOp (.ite (.lineSend (.ite hm hm)) (.send (.ite hm hm)))

theorem pumpHomeN {home n : Nat} (hm : d.EngPll x) : (Dev.pumpHomeN home n d).EngPll x := by
  induction n generalizing d with
  | zero => exact hm
  | succ n ih =>
    unfold Dev.pumpHomeN
    split
    · exact hm
    · exact ih hm.sendReq

theorem pumpOp {o : MfbOp} (hm : d.EngPll x) : (d.pumpOp o).EngPll x := .foldl hm (fun _ _ h => .pumpHomeN h)

theorem rlcWrite {o : MfbOp} (hm : d.EngPll x) : (d.rlcWrite o).EngPll x := .ite (.foldl hm (fun _ _ h => h)) (.ite hm hm)

theorem mirrorSend {a n : Nat} (hm : d.EngPll x) : (d.mirrorSend a n).EngPll x := .pumpOp (rlcWrite (d := d.takeTag) hm)

theorem handoverBuddyLost (hm : d.EngPll x) : d.handoverBuddyLost.EngPll x := by
  unfold Dev.handoverBuddyLost
  split
  · exact hm
  · exact .foldl hm (fun _ _ h => h)

theorem breakMirror (hm : d.EngPll x) : d.breakMirror.EngPll x := .ite (.record (.setFld (.ite hm (.handoverBuddyLost hm)))) hm

theorem mirror {a n : Nat} (hm : d.EngPll x) : (d.mirror a n).EngPll x :=
  .ite hm (.ite hm (.ite hm.breakMirror (.foldl hm (fun _ _ h => h.mirrorSend))))

theorem store {a : Nat} {l : List Byte} (hm : d.EngPll x) : (d.store a l).EngPll x := by
  have hf (d : Dev) (y n : Nat) (h : d.EngPll x) : ((d.write y (slice l (y - a) n)).mirror y n).EngPll x := mirror (d := d.write y _) h
  exact .ite (.ite (hf _ _ _ (.ite (hf _ _ _ hm) hm)) (.ite (hf _ _ _ hm) hm)) (hf _ _ _ hm)

theorem refWrite {i off : Nat} {l : List Byte} (hm : d.EngPll x) : (d.refWrite i off l).EngPll x := .ite hm.store hm

/-! ## Machine/OptOps -/

theorem modPort {p : Nat} {f : Port → Port} (hm : d.EngPll x) : (d.modPort p f).EngPll x := hm

theorem emptyQueue {p : Nat} (hm : d.EngPll x) : (d.emptyQueue p).EngPll x := hm

theorem recoveryNotice {p : Nat} (hm : d.EngPll x) : (d.recoveryNotice p).EngPll x := .ite hm.send hm

theorem setPortSt {p st cause : Nat} (hm : d.EngPll x) : (d.setPortSt p st cause).EngPll x := by
  unfold Dev.setPortSt
  extract_lets old d1 d2 d3 d4
  have h1 : d1.EngPll x := timeCheck (hm.setFld (.optField (by decide)))
  have h2 : d2.EngPll x := .ite (h1.setFld (.optField (by decide))) h1
  have h3 : d3.EngPll x := h2.setFld
  have h4 : d4.EngPll x := .ite h3 h3.record
  exact .ite h2 h4.refreshFlags

theorem putLane {k : Nat × Nat} {p lane : Nat} {l : List Byte} (hm : d.EngPll x) : (d.putLane k p lane l).EngPll x := by
  unfold Dev.putLane
  split
  · exact hm.refWrite
  · exact hm

theorem closeOptMargins (hm : d.EngPll x) : d.closeOptMargins.EngPll x := .foldl hm (fun _ _ h => h.finishKey)

theorem marginGone {p : Nat} (hm : d.EngPll x) : (d.marginGone p).EngPll x := by
  have hl : ∀ j : SweepJob, ∀ d : Dev, d.EngPll x → (((j.busy ++ j.left).filter (fun e => e.1 = p)).foldl (fun d e =>
      d.putLane j.desc p e.2 (d.laneRecord p e.2 3 ((d.slotOf p e.2).getD 0x1F) none)) d).EngPll x :=
    fun j d h => .foldl h (fun _ _ h => h.putLane)
  exact closeOptMargins (d := Dev.modOptMargin _ _) (foldl hm (fun _ j h => hl j _ h))

theorem calEnded {p : Nat} (hm : d.EngPll x) : (d.calEnded p).EngPll x := .foldl hm (fun _ _ h => h.finishKey)

theorem clearLink {p : Nat} (hm : d.EngPll x) : (d.clearLink p).EngPll x :=
  .setFld (.setFld hm.modPort.modPort (.optField (by decide))) (.optField (by decide))

theorem holdPackets {p : Nat} {keep : Bool} (hm : d.EngPll x) : (d.holdPackets p keep).EngPll x :=
  .ite hm.recoveryNotice.modPort.emptyQueue hm

theorem portDown {p : Nat} (hm : d.EngPll x) : (d.portDown p).EngPll x :=
  .ite hm (.calEnded (.marginGone (.setPortSt (.setFld hm.holdPackets.clearLink.modPort (.optField (by decide))))))

end Dev.EngPll

end Sys2Proof.Machine
end

section
/-! # PLL lock loss and relock, and the reference check

Settles O27. -/

namespace Sys2Proof.Machine

/-- A fold whose steps change nothing. -/
theorem foldl_fixed_of_mem {α β : Type} {f : β → α → β} {b : β} {l : List α} (h : ∀ a ∈ l, f b a = b) : l.foldl f b = b := by
  induction l with
  | nil => rfl
  | cons a l ih =>
    rw [List.foldl_cons, h a List.mem_cons_self]
    exact ih (fun a ha => h a (List.mem_cons_of_mem _ ha))

/-! ## Fields -/

theorem Dev.on_iff (d : Dev) (f : Field) : d.on f = true ↔ d.fld f = 1 := decide_eq_true_iff

theorem Dev.fld_setFldBit_same (d : Dev) (f : Field) (i : Nat) (b : Bool) :
    (d.setFldBit f i b).fld f = setBit (d.fld f) i b % 2 ^ f.w := Dev.fld_setFld_same d f _

theorem Dev.fld_enterHalted (d : Dev) (c q : Nat) {f : Field} (h : f.key ∉ Reg.GLB_STATE_CHANGE.STATE.key :: recordFields.map Field.key) :
    (d.enterHalted c q).fld f = d.fld f := by
  simp only [recordFields, List.map_cons, List.map_nil, List.mem_cons, List.not_mem_nil, or_false, not_or] at h
  obtain ⟨hs, hc, hr, hd⟩ := h
  exact Dev.get_enterHalted d c q _ _ hs hc hr hd

theorem Dev.fld_interruptFlash (d : Dev) (f : Field) : d.interruptFlash.fld f = d.fld f := by
  obtain ⟨_, _, h, -⟩ := d.interruptFlash_shape
  rw [h]; rfl

theorem Dev.interruptFlash_runs (d : Dev) : d.interruptFlash.cores = d.cores ∧ d.interruptFlash.runs = d.runs := by
  obtain ⟨_, _, h, -⟩ := d.interruptFlash_shape
  rw [h]; exact ⟨rfl, rfl⟩

/-! ## Towers with no pass in flight -/

section
variable {d : Dev} {k : Nat} (h : ∀ i, i < 24 → (d.core (24 * k + i)).passes = [])
include h

theorem Dev.relockTower_idle : d.relockTower k = d :=
  foldl_fixed_of_mem fun i hi => by simp [h i (List.mem_range.mp hi)]

theorem Dev.discardTower_idle :
    (List.range 24).foldl (fun d i => if (d.core (24 * k + i)).passes.isEmpty then d else d.discardPasses (24 * k + i)) d = d :=
  foldl_fixed_of_mem fun i hi => by simp [h i (List.mem_range.mp hi)]

end

/-! ## The records -/

@[simp] theorem Dev.record_live (d : Dev) (r : FaultRec) : (d.record r).live = d.live := by
  simp [Dev.live, Dev.up, Dev.inSt]

theorem Dev.lossRecord_open {d : Dev} {k : Nat} (ok : Bool) (h : d.lossOpen k = true) :
    d.lossRecord k ok = ({ d with pllOpen := setBit d.pllOpen k false } : Dev).record (.mk1 1 2 (pllUnit k) (leBytes 1 (flag ok))) :=
  if_pos h

theorem pllUnit_tower {k : Nat} (h : k < 8) : pllUnit k = k := if_pos h

theorem pllUnit_engine {k : Nat} (h : 8 ≤ k) (h' : k < 20) : pllUnit k = 0x10 + (k - 8) := by
  rw [pllUnit, if_neg (by omega), if_pos h']

theorem Dev.ne_reset_of_live {d : Dev} (h : d.live = true) : d.st ≠ .reset := fun hr => by
  rw [Dev.live_of_reset hr] at h
  cases h

/-! ## The commands -/

variable {s : State} {k : Nat}

/-- The root PLL loses lock: CLK_STATUS and CLK_LOCK_LOSS show it, and the device halts. -/
theorem runs_pllLockLoss_root (hk : k = 20) (hs : s.dev.inSt [.boot, .recovery, .ready, .running, .quiesced] = true)
    (hl : s.dev.fld Reg.CLK_STATUS.ROOT_LOCK = 1) :
    Runs (.pllLockLoss k) s (fun e => e.st = .halted ∧ e.fld Reg.CLK_STATUS.ROOT_LOCK = 0 ∧
      e.fld Reg.CLK_LOCK_LOSS.ROOT = 1 ∧ e.cores = s.dev.cores ∧ e.runs = s.dev.runs) := by
  simp only [Runs, exec, execPllLockLoss]
  refine State.run_meets (by simp [hk]) (by simp [hs, hk, Dev.on_iff, hl]) ?_
  simp only [if_pos hk]
  generalize hd : (s.dev.setFld Reg.CLK_STATUS.ROOT_LOCK 0).setFld Reg.CLK_LOCK_LOSS.ROOT 1 = d
  have hroot : d.fld Reg.CLK_STATUS.ROOT_LOCK = 0 := by
    rw [← hd, Dev.fld_setFld_ne _ _ (by decide), Dev.fld_setFld_same]; rfl
  have hloss : d.fld Reg.CLK_LOCK_LOSS.ROOT = 1 := by rw [← hd, Dev.fld_setFld_same]; rfl
  obtain ⟨hc, hr⟩ := d.interruptFlash_runs
  refine ⟨Dev.enterHalted_st .., ?_, ?_, ?_, ?_⟩
  · rw [Dev.fld_enterHalted _ _ _ (by decide), Dev.pllRecord, Dev.fld_record _ _ (by decide) (by decide) (by decide),
      Dev.fld_interruptFlash, hroot]
  · rw [Dev.fld_enterHalted _ _ _ (by decide), Dev.pllRecord, Dev.fld_record _ _ (by decide) (by decide) (by decide),
      Dev.fld_interruptFlash, hloss]
  · rw [Dev.enterHalted_cores, Dev.pllRecord, Dev.record_cores, hc, ← hd]; rfl
  · rw [Dev.enterHalted_runs, Dev.pllRecord, Dev.record_runs, hr, ← hd]; rfl

section
variable (hs : s.dev.inSt [.boot, .recovery, .ready, .running, .quiesced] = true) (hl : s.dev.linkLocked k = true)
include hs hl

/-- A tower's PLL loses lock with no pass in flight there: its two bits and the open record are all that changes. -/
theorem runs_pllLockLoss_tower (hk : k < 8) (hp : ∀ i, i < 24 → (s.dev.core (24 * k + i)).passes = []) :
    Runs (.pllLockLoss k) s (fun e =>
      OnlyFields [Reg.CLK_STATUS.TWR_LOCK, Reg.CLK_LOCK_LOSS.TWR] { s.dev with pllOpen := setBit s.dev.pllOpen k true } e ∧
      e.fld Reg.CLK_STATUS.TWR_LOCK = setBit (s.dev.fld Reg.CLK_STATUS.TWR_LOCK) k false % 256 ∧
      e.fld Reg.CLK_LOCK_LOSS.TWR = setBit (s.dev.fld Reg.CLK_LOCK_LOSS.TWR) k true % 256) := by
  have hne : k ≠ 20 := by omega
  simp only [Runs, exec, execPllLockLoss]
  refine State.run_meets (by simp; omega) (by simp [hs, hl, hne]) ?_
  simp only [if_neg hne, if_pos hk]
  generalize hd : (Dev.setFldBit _ Reg.CLK_STATUS.TWR_LOCK k false).setFldBit Reg.CLK_LOCK_LOSS.TWR k true = d
  rw [Dev.discardTower_idle (d := d) (by rw [← hd]; exact hp), ← hd]
  refine ⟨(OnlyFields.setFld _ _ _ _ (by decide)).trans (.setFld _ _ _ _ (by decide)), ?_, ?_⟩
  · rw [Dev.fld_setFldBit_ne _ _ _ (by decide), Dev.fld_setFldBit_same]; rfl
  · rw [Dev.fld_setFldBit_same, Dev.fld_setFldBit_ne _ _ _ (by decide)]; rfl

/-- An engine's PLL loses lock: whatever its four ports do as they go DOWN, the loss stands. -/
theorem runs_pllLockLoss_engine (hk : 8 ≤ k) (hk' : k < 20) : Runs (.pllLockLoss k) s (fun e => e.lossOpen k = true ∧
    e.fld Reg.CLK_STATUS.ENG_LOCK = setBit (s.dev.fld Reg.CLK_STATUS.ENG_LOCK) (k - 8) false % 4096 ∧
    e.fld Reg.CLK_LOCK_LOSS.ENG = setBit (s.dev.fld Reg.CLK_LOCK_LOSS.ENG) (k - 8) true % 4096) := by
  have hne : k ≠ 20 := by omega
  simp only [Runs, exec, execPllLockLoss]
  refine State.run_meets (by simp; omega) (by simp [hs, hl, hne]) ?_
  simp only [if_neg hne, if_neg (Nat.not_lt.mpr hk)]
  generalize hd : (Dev.setFldBit _ Reg.CLK_STATUS.ENG_LOCK (k - 8) false).setFldBit Reg.CLK_LOCK_LOSS.ENG (k - 8) true = d
  have hpll : d.EngPll (setBit s.dev.pllOpen k true, setBit (s.dev.fld Reg.CLK_STATUS.ENG_LOCK) (k - 8) false % 4096,
      setBit (s.dev.fld Reg.CLK_LOCK_LOSS.ENG) (k - 8) true % 4096) := by
    rw [← hd, Dev.EngPll, Dev.engPll, Dev.fld_setFldBit_ne _ _ _ (by decide), Dev.fld_setFldBit_same, Dev.fld_setFldBit_same,
      Dev.fld_setFldBit_ne _ _ _ (by decide)]
    rfl
  obtain ⟨hopen, hlock, hloss⟩ : _ ∧ _ ∧ _ := by
    simpa only [Dev.EngPll, Dev.engPll, Prod.mk.injEq] using
      Dev.EngPll.foldl (f := fun d i => d.portDown (4 * (k - 8) + i)) (l := List.range 4) hpll (fun _ _ h => h.portDown)
  exact ⟨by rw [Dev.lossOpen, hopen, bit_setBit, if_pos rfl], hlock, hloss⟩

end

section
variable (hl : s.dev.linkLocked k = false) (ho : s.dev.lossOpen k = true)
include hl ho

theorem gives_pllRelock_engine (hk : 8 ≤ k) (hk' : k < 20) (hs : s.dev.st ≠ .reset) :
    Gives (.pllRelock k) s ((({ s.dev with pllOpen := setBit s.dev.pllOpen k false } : Dev).record
      (.mk1 1 2 (0x10 + (k - 8)) [1])).setFldBit Reg.CLK_STATUS.ENG_LOCK (k - 8) true) := by
  simp only [Gives, exec, execPllRelock]
  refine State.run_gives (by simp [hk']) (by simp [hs, hl, ho]) ?_
  rw [if_neg (Nat.not_lt.mpr hk), Dev.lossRecord_open _ ho, pllUnit_engine hk hk']
  rfl

/-- A tower whose PLL relocks with no pass in flight there gets its record and its lock bit, and has nothing to replay. -/
theorem gives_pllRelock_tower (hk : k < 8) (hs : s.dev.st ≠ .reset) (hp : ∀ i, i < 24 → (s.dev.core (24 * k + i)).passes = []) :
    Gives (.pllRelock k) s ((({ s.dev with pllOpen := setBit s.dev.pllOpen k false } : Dev).record
      (.mk1 1 2 k [1])).setFldBit Reg.CLK_STATUS.TWR_LOCK k true) := by
  simp only [Gives, exec, execPllRelock]
  refine State.run_gives (by simp; omega) (by simp [hs, hl, ho]) ?_
  rw [if_pos hk, Dev.lossRecord_open _ ho, pllUnit_tower hk, Dev.relockTower_idle, ite_self]
  · rfl
  · intro i hi
    have hc : ∀ (d e : Dev) (n : Nat), d.cores = e.cores → d.core n = e.core n := fun d e n h => by rw [Dev.core, h, Dev.core]
    rw [hc _ s.dev _ (by simp [Dev.setFldBit]), hp i hi]

theorem gives_pllRelockTimeout_tower (hk : k < 8) (hs : s.dev.live = true) :
    Gives (.pllRelockTimeout k) s ((({ s.dev with pllOpen := setBit s.dev.pllOpen k false } : Dev).record (.mk1 1 2 k [0])).towerLost k) := by
  have hlive (n : Nat) (r : FaultRec) : (({ s.dev with pllOpen := n } : Dev).record r).live = true := by
    rw [Dev.record_live]; exact hs
  simp only [Gives, exec, execPllRelockTimeout]
  refine State.run_gives (by simp; omega) (by simp [Dev.ne_reset_of_live hs, hl, ho]) ?_
  rw [Dev.lossRecord_open _ ho, pllUnit_tower hk, hlive, if_pos hk]
  rfl

end

/-- The reference check below, at and above the tenth deviation in a row. -/
theorem runs_refCheck {v : Nat} (hv : v < 65536) (hs : s.dev.live = true) (hl : s.dev.fld Reg.CLK_STATUS.ROOT_LOCK = 1) :
    Runs (.refCheck v) s (fun e => e.fld Reg.CLK_REF_DEV.DEV = v ∧
      e.refRun = (if s.dev.fld Reg.CLK_REF_TOL.TOL < (sext 16 v).natAbs then s.dev.refRun + 1 else 0) ∧
      (e.fld Reg.TGT_ALERT.REF_DEV = 1 ↔ 10 ≤ e.refRun) ∧ e.st = s.dev.st ∧
      (e.refRun ≠ 10 → MemKept s.dev e ∧ FieldsKept [Reg.CLK_REF_DEV.DEV, Reg.TGT_ALERT.REF_DEV] s.dev e)) := by
  simp only [Runs, exec, execRefCheck]
  refine State.run_meets (by simpa using hv) (by simp [hs, Dev.on_iff, hl]) ?_
  rw [Dev.fld_setFld_ne _ _ (by decide), refDev]
  simp only [Dev.setFld_refRun]
  generalize (if s.dev.fld Reg.CLK_REF_TOL.TOL < (sext 16 v).natAbs then s.dev.refRun + 1 else 0) = n
  generalize hd : (Dev.setOn { s.dev.setFld Reg.CLK_REF_DEV.DEV v with refRun := n } Reg.TGT_ALERT.REF_DEV (decide (10 ≤ n))) = d
  have hdev : d.fld Reg.CLK_REF_DEV.DEV = v := by
    rw [← hd, Dev.fld_setOn_ne _ _ (by decide)]
    exact (Dev.fld_setFld_same _ _ _).trans (Nat.mod_eq_of_lt hv)
  have halert : d.fld Reg.TGT_ALERT.REF_DEV = 1 ↔ 10 ≤ n := by
    rw [← hd, Dev.fld_setOn_same _ _ _ (by decide)]
    by_cases h : 10 ≤ n <;> simp [h]
  have hrun : d.refRun = n := by rw [← hd]; rfl
  have hst : d.st = s.dev.st := by rw [← hd]; rfl
  have hmem : MemKept s.dev d := by rw [← hd]; exact fun _ => rfl
  have hfields : FieldsKept [Reg.CLK_REF_DEV.DEV, Reg.TGT_ALERT.REF_DEV] s.dev d := by
    rw [← hd]
    exact (FieldsKept.setFld s.dev Reg.CLK_REF_DEV.DEV v _ (by decide)).trans
      (FieldsKept.setFld { s.dev.setFld Reg.CLK_REF_DEV.DEV v with refRun := n } _ _ _ (by decide))
  split
  · rename_i h10
    rw [Dev.fld_record _ _ (by decide) (by decide) (by decide), Dev.fld_record _ _ (by decide) (by decide) (by decide),
      Dev.record_refRun, Dev.record_st, hrun]
    exact ⟨hdev, rfl, halert, hst, fun h => absurd h10 h⟩
  · rw [hrun]
    exact ⟨hdev, rfl, halert, hst, fun _ => ⟨hmem, hfields⟩⟩

/-- Settles O27: each clause is the command's effect on the unit it names. -/
theorem clockEvents : Obligations.ClockEvents := by
  unfold Obligations.ClockEvents
  intro s
  exact ⟨runs_pllLockLoss_root rfl, fun k hk hs hl hp => runs_pllLockLoss_tower hs hl hk hp,
    fun k hk hk' hs hl => runs_pllLockLoss_engine hs hl hk hk', fun k hk hk' hs hl ho => gives_pllRelock_engine hl ho hk hk' hs,
    fun k hk hs hl ho hp => gives_pllRelock_tower hl ho hk hs hp, fun k hk hs hl ho => gives_pllRelockTimeout_tower hl ho hk hs,
    fun v hv hs hl => runs_refCheck hv hs hl⟩

end Sys2Proof.Machine
end

section
/-! # Operating points: the ratio after a change of point

Refutes O59. -/

namespace Sys2Proof.Machine

/-! ## Fields that the operations of Tightrope leave -/

section
variable {f : Field}

theorem Dev.fld_showChange (d : Dev) (h : f.key ≠ Reg.TGT_STATUS.OP_CHANGING.key) : d.showChange.fld f = d.fld f := d.fld_setOn_ne _ h

theorem Dev.fld_throttle (d : Dev) (ev value unit : Nat) (h : f.key ≠ Reg.TGT_LOG_HEAD.COUNT.key) :
    (d.throttle ev value unit).fld f = d.fld f := by
  unfold Dev.throttle
  split
  · exact Dev.fld_bump_ne _ _ h
  · rfl

theorem Dev.fld_announce (d : Dev) : d.announce.fld f = d.fld f := rfl

end

/-- The ratio in force has room for four bits. -/
theorem Dev.bubble_setBubble (d : Dev) (b : Nat) : (d.setBubble b).bubble = b % 16 := by
  unfold Dev.setBubble
  extract_lets old e
  have he : e.bubble = b % 16 := d.fld_setFld_same _ _
  split
  · exact he
  · exact he

/-- Unless the critical action holds the ratio, a change of point brings the compensated one, cut to the four bits of BUBBLE (R338). -/
theorem Dev.bubble_changeDivider {d : Dev} (j : Nat) (hc : d.on Reg.TGT_STATUS.CRITICAL = false) :
    (d.changeDivider j).bubble = d.ratioAfter d.opPoint j % 16 := by
  unfold Dev.changeDivider
  extract_lets i d1 d2 d3 d4 d5
  have h2 {f : Field} (h : f.key ∉ [Reg.TGT_STATUS.OP.key, Reg.CLK_STATUS.CORE_DIV.key, Reg.CLK_DIV_CHANGES.COUNT.key]) :
      d2.fld f = d.fld f := by
    simp only [List.mem_cons, List.not_mem_nil, or_false, not_or] at h
    obtain ⟨hop, hdiv, hcount⟩ := h
    have h1 : d1.fld f = d.fld f := (Dev.fld_setFld_ne _ _ hdiv).trans (Dev.fld_setFld_ne _ _ hop)
    unfold d2
    split
    · exact h1
    · exact (d1.fld_bump_ne _ hcount).trans h1
  have hratio : d2.ratioAfter i j = d.ratioAfter i j := by
    simp only [Dev.ratioAfter, Dev.bubble, h2 (f := Reg.ARR_STATUS.BUBBLE) (by decide), h2 (f := Reg.ARR_STATUS.EMERGENCY) (by decide)]
  have h3 : d3.bubble = d.ratioAfter i j % 16 := by
    have hc2 : d2.on Reg.TGT_STATUS.CRITICAL = false := by rw [Dev.on, h2 (by decide)]; exact hc
    rw [← hratio, ← Dev.bubble_setBubble]
    unfold d3
    rw [hc2]
    rfl
  have h4 : d4.bubble = d.ratioAfter i j % 16 := by
    unfold d4
    split
    · exact h3
    · exact h3
  rw [Dev.bubble, Dev.fld_announce, Dev.fld_throttle _ _ _ _ (by decide)]
  exact (Dev.fld_showChange _ (by decide)).trans h4

/-- A change of point runs when it awaits its alignment point (R338). -/
theorem exec_dividerChange {s : State} {j : Nat} (hs : s.dev.live = true) (hj : s.dev.dividerTarget = some j) :
    exec .dividerChange s = .next { s with dev := s.dev.changeDivider j } := by
  rw [exec, execDividerChange]
  exact State.run_gives rfl (by simp [hs, hj]) (by simp only [hj])

/-- A device in READY that is to change from point 0 to point 1, its register table holding 2 at the field EMERGENCY, which has one
bit. -/
def wideEmergency : Dev :=
  { Dev.init with
    st := .ready
    regs := [(Reg.ARR_STATUS.EMERGENCY.key, 2)]
    tgt := { Tgt.init with change := some ⟨1, false, false, 0⟩ } }

/-- Refutes O59: the statement ranges over register tables whose values do not fit their fields; with 2 for EMERGENCY the ratio after
the change is 16, of which BUBBLE keeps 0. -/
theorem not_tightrope : ¬ Obligations.Tightrope := by
  unfold Obligations.Tightrope
  intro h
  obtain ⟨-, hlive⟩ := h ⟨wideEmergency, []⟩
  obtain ⟨hdivider, -⟩ := hlive (by decide)
  obtain ⟨e, he, -, -, -, -, -, -, hbubble, -⟩ := hdivider 1 (by decide) (by decide)
  have hx := exec_dividerChange (s := ⟨wideEmergency, []⟩) (j := 1) (by decide) (by decide)
  have hdev : e = wideEmergency.changeDivider 1 := congrArg State.dev (Host.Outcome.next.inj (he.symm.trans hx))
  have h16 : wideEmergency.ratioAfter wideEmergency.opPoint 1 = 16 := by decide
  have hratio := hbubble (by decide)
  rw [hdev, Dev.bubble_changeDivider 1 (by decide), h16] at hratio
  exact absurd hratio (by decide)

end Sys2Proof.Machine
end

section
/-! # How a tile operation starts and ends

What a start command of SEQ does once the operation stands at its position (R93, R97), and what its completion command does. -/

namespace Sys2Proof.Machine

/-! ## What every start counts -/

theorem coreOk_of {c : Nat} (h : c < 192) : coreOk c = true := decide_eq_true h

@[simp] theorem Dev.meetEcc_cores (d : Dev) (e : Ecc) : (d.meetEcc e).cores = d.cores :=
  foldl_keeps Dev.cores (fun d a => d.setPoison a) Dev.setPoison_cores _ d

@[simp] theorem Dev.countStart_core (d : Dev) (t : Start) (c : Nat) : (d.countStart t).core c = d.core c := by
  simp [Dev.core, Dev.countStart]

/-! ## Starts -/

section
variable {d : Dev} {c pos r : Nat} {t : Start} {reads : OpRec → List Rng} {go : Dev → OpRec → Dev} {o : OpRec}
  (ho : (d.core c).op? pos = some o)
include ho

/-- An operation that reads no poison goes. -/
theorem Dev.startOpAt_go (hp : (d.countStart t).poisonOf (reads o) = none) :
    d.startOpAt c pos t r reads go = go (d.countStart t) o := by
  simp only [Dev.startOpAt, Dev.countStart_core, ho, hp]

/-- Poison among what an operation reads stops the program. -/
theorem Dev.startOpAt_stop {a : Nat} (hp : (d.countStart t).poisonOf (reads o) = some a) :
    d.startOpAt c pos t r reads go = (d.countStart t).stopMem c pos a r := by
  simp only [Dev.startOpAt, Dev.countStart_core, ho, hp]

end

section
variable {s : State} {c pos code : Nat} {o : OpRec} (hc : c < 192)
include hc

/-- A start command whose operation can start has its effect. -/
theorem State.startCmd_gives {f : Dev → Dev} {e : Dev} (hr : s.dev.st = .running) (hs : s.dev.startable c pos code = true)
    (he : f s.dev = e) : s.startCmd c pos code f = .next { s with dev := e } :=
  State.run_gives (coreOk_of hc) (by simp [hr, hs]) he

/-- A completion command ends the started operation at its position. -/
theorem State.endCmd_gives {f : Dev → OpRec → Dev} {e : Dev} (hu : s.dev.up = true) (ho : s.dev.startedOp c pos code = some o)
    (he : f s.dev o = e) : s.endCmd c pos code f = .next { s with dev := e } :=
  State.run_gives (coreOk_of hc) (by simp [hu, ho]) (by simp only [ho]; exact he)

end

end Sys2Proof.Machine
end

section
/-! # Loads of tiles and of codebook tables

Settles O32. -/

namespace Sys2Proof.Machine

section
variable {s : State} {c pos : Nat} {t : Start} {e : Dev} (hc : c < 192)
include hc

/-- A W_LOAD that can start begins when the shadow registers are free (R45). -/
theorem gives_wLoad (hr : s.dev.st = .running) (hs : s.dev.startable c pos 1 = true) (hx : (s.dev.core c).shadow = none)
    (he : (s.dev.startOpAt c pos t 0 (fun o => wlSram c o.bytes) (fun d o =>
      d.begun c pos (fun q => { q with tile := some (d.tileFrom c pos o.bytes) }))) = e) : Gives (.wLoad c pos t) s e := by
  rw [Gives, exec, execWLoad]
  exact State.run_gives (coreOk_of hc) (by simp [hr, hs, hx]) he

/-- A W_LOAD waits while the shadow registers hold a tile that no token has consumed (R48). -/
theorem gives_wLoad_idle (hx : (s.dev.core c).shadow ≠ none) : Gives (.wLoad c pos t) s s.dev := by
  rw [Gives, exec, execWLoad]
  exact State.run_idle (coreOk_of hc) (by simp [Option.isNone_eq_false_iff, Option.isSome_iff_ne_none, hx])

theorem gives_cbLoad (hr : s.dev.st = .running) (hs : s.dev.startable c pos 2 = true)
    (he : (s.dev.startOpAt c pos t 0 (fun o => [(sramAt c (opNum o.bytes 8 4), cbBytes o.bytes)]) (fun d o =>
      d.begun c pos (fun q => { q with conv := d.read (sramAt c (opNum o.bytes 8 4)) (cbBytes o.bytes) }))) = e) :
    Gives (.cbLoad c pos t) s e := by
  rw [Gives, exec, execCbLoad]
  exact State.startCmd_gives hc hr hs he

end

/-- Settles O32: a load's start is that of an operation with its reads, and its end the completion of the started operation. -/
theorem tileLoads : Obligations.TileLoads := by
  unfold Obligations.TileLoads
  intro s c pos o hc ho
  refine ⟨?wLoad, ?wLoadComplete, ?cbLoad, ?cbLoadComplete, ?shadowFull⟩
  case wLoad =>
    intro t hr hs hx
    exact ⟨fun hp => gives_wLoad hc hr hs hx (Dev.startOpAt_go ho hp),
      fun a hp => gives_wLoad hc hr hs hx (Dev.startOpAt_stop ho hp)⟩
  case wLoadComplete =>
    intro hu hso
    rw [Gives, exec, execWLoadComplete]
    exact State.endCmd_gives hc hu hso rfl
  case cbLoad =>
    intro t hr hs
    exact ⟨fun hp => gives_cbLoad hc hr hs (Dev.startOpAt_go ho hp), fun a hp => gives_cbLoad hc hr hs (Dev.startOpAt_stop ho hp)⟩
  case cbLoadComplete =>
    intro hu hso
    rw [Gives, exec, execCbLoadComplete]
    exact State.endCmd_gives hc hu hso rfl
  case shadowFull => exact fun t _ _ hx => gives_wLoad_idle hc hx

end Sys2Proof.Machine
end

section
/-! # Passes and the faults of arrays and vector units

Settles O33. -/

namespace Sys2Proof.Machine

/-! ## The start of a STREAM -/

section
variable {d : Dev} {c pos : Nat} {o : OpRec}

/-- A STREAM that switches takes in the shadow's tile and leaves the shadow registers free (R46). -/
theorem Dev.inject_switching (h : o.sw = true) : d.inject c pos o = d.setCore c
    { (d.core c).setOp pos (fun q => { q with started := true, tile := (d.core c).shadow }) with
      active := (d.core c).shadow, shadow := none } := by
  simp only [Dev.inject, h, if_true]

/-- A STREAM that does not switch runs with the tile already active. -/
theorem Dev.inject_staying (h : o.sw = false) : d.inject c pos o =
    d.setCore c ((d.core c).setOp pos (fun q => { q with started := true, tile := (d.core c).active })) := by
  simp only [Dev.inject, h, Bool.false_eq_true, if_false]
  rfl

variable {t : Start} (ho : (d.core c).op? pos = some o)
include ho

theorem Dev.startStream_stop (hn : (d.core c).nothingToSwitch o = true) :
    d.startStream c pos t = (d.countStart t).stopOp c pos (Ending.at .badField c pos 0) := by
  simp only [Dev.startStream, Dev.countStart_core, ho, hn, if_true]

variable (hn : (d.core c).nothingToSwitch o = false)
include hn

theorem Dev.startStream_poison {a : Nat}
    (hp : (d.countStart t).poisonOf (passSram c o.bytes ((d.core c).tileOf o)) = some a) :
    d.startStream c pos t = (d.countStart t).passPoison c pos a := by
  simp only [Dev.startStream, Dev.countStart_core, ho, hn, hp, Bool.false_eq_true, if_false]

theorem Dev.startStream_inject (hp : (d.countStart t).poisonOf (passSram c o.bytes ((d.core c).tileOf o)) = none) :
    d.startStream c pos t = (d.countStart t).inject c pos o := by
  simp only [Dev.startStream, Dev.countStart_core, ho, hn, hp, Bool.false_eq_true, if_false]

end

/-! ## The end of a pass -/

/-- A field that lies below or above the fault words of the 192 cores is no core's fault count. -/
theorem pending_key_ne {c : Nat} (hc : c < 192) {f : Field}
    (hf : f.key < (Reg.ARR_CORE_FAULT.PENDING 0).key ∨ (Reg.ARR_CORE_FAULT.PENDING 192).key ≤ f.key := by decide) :
    (Reg.ARR_CORE_FAULT.PENDING c).key ≠ f.key := by
  simp only [Field.key, Reg.ARR_CORE_FAULT.PENDING] at hf ⊢
  omega

/-- Of the register fields, the tower locks alone take part in whether an operation has started. -/
theorem Dev.startedOp_bump (d : Dev) {f : Field} (n c pos code : Nat) (h : Reg.CLK_STATUS.TWR_LOCK.key ≠ f.key) :
    (d.bump f n).startedOp c pos code = d.startedOp c pos code := by
  have hclock : (d.bump f n).towerClock c = d.towerClock c := by simp only [Dev.towerClock, Dev.fld_bump_ne d n h]
  rw [Dev.startedOp, hclock, Dev.core, Dev.bump_cores]
  rfl

/-- A row of a pass changes no register field and no count of clean passes. -/
theorem Dev.putPassRow_keeps (c : Nat) (l : List Byte) (d : Dev) (x : Nat × List Nat × Bool) :
    (Dev.putPassRow c l d x).regs = d.regs ∧ (Dev.putPassRow c l d x).cleanPasses = d.cleanPasses := by
  unfold Dev.putPassRow
  dsimp only
  split <;> exact ⟨rfl, rfl⟩

@[simp] theorem Dev.passOutput_regs (d : Dev) (c : Nat) (l : List Byte) (t : Tile) : (d.passOutput c l t).regs = d.regs :=
  foldl_keeps Dev.regs (Dev.putPassRow c l) (fun d x => (d.putPassRow_keeps c l x).1) _ d

@[simp] theorem Dev.passOutput_cleanPasses (d : Dev) (c : Nat) (l : List Byte) (t : Tile) :
    (d.passOutput c l t).cleanPasses = d.cleanPasses :=
  foldl_keeps Dev.cleanPasses (Dev.putPassRow c l) (fun d x => (d.putPassRow_keeps c l x).2) _ d

/-- A pass as its end shows it (R43, R50): its rows visible, the pass and its data slots counted. -/
def Dev.passCounted (d : Dev) (c : Nat) (l : List Byte) (t : Tile) : Dev :=
  ((d.passOutput c l t).bump Reg.ARR_PASSES.COUNT 1).bump Reg.ARR_INJECT_CYCLES.COUNT (ceilDiv (stM l) 4)

section
variable {d : Dev} {c pos : Nat} {o : OpRec} {t : Tile}

theorem Dev.fld_passCounted {l : List Byte} (hc : c < 192) :
    (d.passCounted c l t).fld (Reg.ARR_CORE_FAULT.PENDING c) = d.fld (Reg.ARR_CORE_FAULT.PENDING c) := by
  rw [Dev.passCounted, Dev.fld_bump_ne _ _ (pending_key_ne hc), Dev.fld_bump_ne _ _ (pending_key_ne hc),
    Dev.fld_of_regs (d.passOutput_regs c l t)]

theorem Dev.passCounted_cleanPasses {l : List Byte} : (d.passCounted c l t).cleanPasses = d.cleanPasses := by
  simp [Dev.passCounted]

variable (hc : c < 192) (hp : d.poisonOf (passSram c o.bytes t.op) = none) (hw : d.partOf (passPuts c o.bytes t) = none)
include hc hp hw

/-- A pass that meets no poison, on a core with no fault counted, becomes visible, is counted and is done. -/
theorem Dev.endPass_faultless (h : d.fld (Reg.ARR_CORE_FAULT.PENDING c) = 0) :
    d.endPass c pos o t = (d.passCounted c o.bytes t).opDone c pos := by
  have hon : (d.passCounted c o.bytes t).on (Reg.ARR_CORE_FAULT.PENDING c) = false := by
    simp [Dev.on, Dev.fld_passCounted hc, h]
  simp only [Dev.endPass, hp, hw]
  exact congrArg (fun e : Dev => e.opDone c pos) (if_neg (Bool.eq_false_iff.mp hon))

/-- On a core whose first fault is counted, such a pass is one clean pass more (R59). -/
theorem Dev.endPass_faulted (h : d.fld (Reg.ARR_CORE_FAULT.PENDING c) = 1) : d.endPass c pos o t =
    ({ d.passCounted c o.bytes t with
      cleanPasses := Tab.set 0 d.cleanPasses c (Tab.get 0 d.cleanPasses c + 1) } : Dev).opDone c pos := by
  have hon : (d.passCounted c o.bytes t).on (Reg.ARR_CORE_FAULT.PENDING c) = true := by
    simp [Dev.on, Dev.fld_passCounted hc, h]
  rw [← d.passCounted_cleanPasses (c := c) (t := t) (l := o.bytes)]
  simp only [Dev.endPass, hp, hw]
  exact congrArg (fun e : Dev => e.opDone c pos) (if_pos hon)

end

/-- What a pass's end counts of its timing. -/
def Dev.passTimed (d : Dev) (p : PassTiming) : Dev :=
  ((d.bump Reg.ARR_SHADOW_WAIT.COUNT p.wait).bump Reg.ARR_BUBBLE_SLOTS.COUNT p.bubble).bump Reg.ARR_FEED_STARVE.COUNT p.starve

theorem Dev.passTimed_startedOp (d : Dev) (p : PassTiming) (c pos code : Nat) :
    (d.passTimed p).startedOp c pos code = d.startedOp c pos code := by
  rw [Dev.passTimed, Dev.startedOp_bump _ _ _ _ _ (by decide), Dev.startedOp_bump _ _ _ _ _ (by decide),
    Dev.startedOp_bump _ _ _ _ _ (by decide)]

theorem Dev.fld_passTimed (d : Dev) (p : PassTiming) {c : Nat} (hc : c < 192) :
    (d.passTimed p).fld (Reg.ARR_CORE_FAULT.PENDING c) = d.fld (Reg.ARR_CORE_FAULT.PENDING c) := by
  rw [Dev.passTimed, Dev.fld_bump_ne _ _ (pending_key_ne hc), Dev.fld_bump_ne _ _ (pending_key_ne hc),
    Dev.fld_bump_ne _ _ (pending_key_ne hc)]

/-! ## Array faults -/

section
variable {d e : Dev} {c cause arrays : Nat}

/-- A first fault that no overflow precedes, with budget left, replays the passes in flight (R58). -/
theorem Dev.arrayFault_first (hf : d.fld (Reg.ARR_CORE_FAULT.PENDING c) = 0)
    (he : e = (d.markFault c cause arrays false).discardPasses c) (hx : e.core c = d.core c) (hp : (d.core c).passes ≠ [])
    (ha : (d.core c).afterOverflow = false) (hb : e.budgetLeft c ≠ 0) :
    d.arrayFault c cause arrays = (e.setCore c (d.core c).faultReplay).takeBudget c := by
  have hon : d.on (Reg.ARR_CORE_FAULT.PENDING c) = false := by simp [Dev.on, hf]
  simp only [Dev.arrayFault, hon, ← he, hx, List.isEmpty_eq_false_iff.mpr hp, Bool.false_eq_true, if_false]
  simp only [Dev.replayFault, hx, ha, if_neg hb, Bool.false_eq_true, if_false, Dev.modCore]

/-- A second fault retires the core (R59). -/
theorem Dev.arrayFault_second (hf : d.fld (Reg.ARR_CORE_FAULT.PENDING c) = 1)
    (he : e = (d.markFault c cause arrays true).discardPasses c) : d.arrayFault c cause arrays =
      e.retireCore c (Ending.at .deviceFault c (((e.core c).passes.map (·.pos)).headD 0xFFFF) d.flt.seq) := by
  have hon : d.on (Reg.ARR_CORE_FAULT.PENDING c) = true := by simp [Dev.on, hf]
  simp only [Dev.arrayFault, hon, ← he, if_true]

end

/-! ## The commands -/

section
variable {s : State} {c pos : Nat} {e : Dev} (hc : c < 192)
include hc

/-- A STREAM that can start acts unless it switches and its tile is still on its way (R47). -/
theorem gives_stream {o : OpRec} {t : Start} (ho : (s.dev.core c).op? pos = some o) (hr : s.dev.st = .running)
    (hs : s.dev.startable c pos 3 = true)
    (hw : o.sw = false ∨ (s.dev.core c).shadow ≠ none ∨ (s.dev.core c).nothingToSwitch o = true)
    (he : s.dev.startStream c pos t = e) : Gives (.stream c pos t) s e := by
  rw [Gives, exec, execStream]
  refine State.run_gives (coreOk_of hc) ?_ he
  simpa [hr, hs, ho, Option.isSome_iff_ne_none, or_assoc] using hw

/-- The end of the oldest pass in flight. -/
theorem gives_passEnd {o : OpRec} {t : Tile} {p : PassTiming} (hu : s.dev.up = true) (ho : s.dev.startedOp c pos 3 = some o)
    (hh : (s.dev.core c).passes.head?.map (·.pos) = some pos) (ht : o.tile = some t)
    (he : (s.dev.passTimed p).endPass c pos o t = e) : Gives (.passEnd c pos p) s e := by
  rw [Gives, exec, execPassEnd]
  refine State.run_gives (coreOk_of hc) (by simp [hu, ho, hh]) ?_
  have hso : (s.dev.passTimed p).startedOp c pos 3 = some o := by rw [Dev.passTimed_startedOp, ho]
  rw [Dev.passTimed] at hso he
  simp only [hso, ht]
  exact he

theorem runs_faultCountClear (hu : s.dev.up = true) (hf : s.dev.fld (Reg.ARR_CORE_FAULT.PENDING c) = 1)
    (hw : s.dev.faultWindow ≤ Tab.get 0 s.dev.cleanPasses c) :
    Runs (.faultCountClear c) s (fun e => e.fld (Reg.ARR_CORE_FAULT.PENDING c) = 0 ∧ Tab.get 0 e.cleanPasses c = 0 ∧
      OnlyFields [Reg.ARR_CORE_FAULT.PENDING c] { s.dev with cleanPasses := e.cleanPasses } e) := by
  simp only [Runs, exec, execFaultCountClear]
  exact State.run_meets (coreOk_of hc) (by simp [hu, Dev.on_iff, hf, hw])
    ⟨Dev.fld_setFld_same _ _ _, Tab.get_set_same 0 s.dev.cleanPasses c 0, OnlyFields.setFld _ _ _ _ (by simp)⟩

theorem gives_bubbleWindowStart (hu : s.dev.up = true) : Gives (.bubbleWindowStart c) s
    { s.dev with ratio := Tab.set 0 s.dev.ratio c (s.dev.fld Reg.ARR_STATUS.BUBBLE) } := by
  rw [Gives, exec, execBubbleWindowStart]
  exact State.run_gives (coreOk_of hc) hu rfl

/-- An array of a core with a pass in flight detects a fault (R57). -/
theorem gives_arrayFault {cause arrays : Nat} (hl : 1 ≤ cause) (hh : cause ≤ 5) (ha : 1 ≤ arrays) (ha' : arrays < 16)
    (hu : s.dev.up = true) (hp : (s.dev.core c).passes ≠ []) (he : s.dev.arrayFault c cause arrays = e) :
    Gives (.arrayFault c cause arrays) s e := by
  have hne : arrays ≠ 0 := by omega
  rw [Gives, exec, execArrayFault]
  exact State.run_gives (by simp [coreOk_of hc, faultOk, hl, hh, ha, ha']) (by simp [hu, hne, hp]) (by rw [if_neg hne]; exact he)

/-- The vector unit of a core that runs vector code detects a fault (R136). -/
theorem gives_arrayFault_vec (hu : s.dev.up = true) (hv : s.dev.vecBusy c = true) :
    Gives (.arrayFault c 0 0) s (s.dev.vecUnitFault c) := by
  rw [Gives, exec, execArrayFault]
  exact State.run_gives (by simp [coreOk_of hc, faultOk]) (by simp [hu, hv]) (if_pos rfl)

end

/-- Settles O33: each clause is the branch of a STREAM's start, of a pass's end or of a fault that its hypotheses choose. -/
theorem passes : Obligations.Passes := by
  unfold Obligations.Passes
  intro s c hc
  refine ⟨?stream, ?passEnd, runs_faultCountClear hc, gives_bubbleWindowStart hc, ?arrayFault, gives_arrayFault_vec hc⟩
  case stream =>
    intro pos o t ho hr hs
    refine ⟨fun hn => gives_stream hc ho hr hs (.inr (.inr hn)) (Dev.startStream_stop ho hn), fun hn hw => ?_⟩
    have hgo {e : Dev} := gives_stream (t := t) (e := e) hc ho hr hs (hw.imp_right .inl)
    refine ⟨fun a hp => hgo (Dev.startStream_poison ho hn hp), fun hp => ⟨fun hsw => hgo ?_, fun hsw => hgo ?_⟩⟩
    · rw [Dev.startStream_inject ho hn hp, Dev.inject_switching hsw, Dev.countStart_core]
    · rw [Dev.startStream_inject ho hn hp, Dev.inject_staying hsw, Dev.countStart_core]
  case passEnd =>
    rintro pos o t p d hu ho hh ht rfl hp hw
    exact ⟨fun hf => gives_passEnd hc hu ho hh ht (Dev.endPass_faultless hc hp hw ((s.dev.fld_passTimed p hc).trans hf)),
      fun hf => gives_passEnd hc hu ho hh ht (Dev.endPass_faulted hc hp hw ((s.dev.fld_passTimed p hc).trans hf))⟩
  case arrayFault =>
    intro cause arrays d hl hh ha ha' hu hp
    exact ⟨fun hf hd hx ho hb => gives_arrayFault hc hl hh ha ha' hu hp (Dev.arrayFault_first hf hd hx hp ho hb),
      fun hf hd => gives_arrayFault hc hl hh ha ha' hu hp (Dev.arrayFault_second hf hd)⟩

end Sys2Proof.Machine
end

section
/-! # Drains and replays

Settles O34. -/

namespace Sys2Proof.Machine

/-! ## A core read after a write -/

@[simp] theorem Dev.core_setCore_same (d : Dev) (c : Nat) (x : Core) : (d.setCore c x).core c = x :=
  Tab.get_set_same Core.init d.cores c x

theorem Dev.core_setCore_ne (d : Dev) {c k : Nat} (x : Core) (h : k ≠ c) : (d.setCore c x).core k = d.core k :=
  Tab.get_set_ne Core.init d.cores x h

@[simp] theorem Dev.core_modCore_same (d : Dev) (c : Nat) (f : Core → Core) : (d.modCore c f).core c = f (d.core c) :=
  d.core_setCore_same c _

theorem Dev.core_modCore_ne (d : Dev) {c k : Nat} (f : Core → Core) (h : k ≠ c) : (d.modCore c f).core k = d.core k :=
  d.core_setCore_ne _ h

@[simp] theorem Dev.core_bump (d : Dev) (f : Field) (n c : Nat) : (d.bump f n).core c = d.core c := rfl

@[simp] theorem Dev.budgetLeft_bump (d : Dev) (f : Field) (n c : Nat) : (d.bump f n).budgetLeft c = d.budgetLeft c := rfl

@[simp] theorem Dev.drainExp_bump (d : Dev) (f : Field) (n : Nat) (r : List Byte) (k : Nat) :
    (d.bump f n).drainExp r k = d.drainExp r k := rfl

/-! ## The conversion record -/

/-- A record in use is the one a drain converts by (R104). -/
theorem Dev.convOf_read {d : Dev} {c : Nat} {o : OpRec} (h : o.conv ≠ []) : d.convOf c o = o.conv := by
  simp [Dev.convOf, h]

/-- A drain whose record may be read holds none yet. -/
theorem Dev.conv_of_convReadable {d : Dev} {c pos : Nat} {o : OpRec} (ho : (d.core c).op? pos = some o)
    (h : d.convReadable c pos = true) : o.conv = [] := by
  simp only [Dev.convReadable, ho, Bool.and_eq_true, List.isEmpty_iff] at h
  obtain ⟨⟨⟨_, hconv⟩, _⟩, _⟩ := h
  exact hconv

/-- What the record r makes of a drain that starts: a stop, or a conversion that begins (R103, R104). -/
def Dev.drainStart (d : Dev) (c pos : Nat) (o : OpRec) (r : List Byte) : Dev :=
  if convRefused o.bytes r then d.stopOp c pos (Ending.at .badField c pos 0)
  else
    match d.poisonOf (if cvColmul r then [(sramAt c (cvMul r), 256)] else []) with
    | some p => d.stopMem c pos p 0
    | none => d.begun c pos (fun q => { q with conv := r })

section
variable {d : Dev} {c pos : Nat} {o : OpRec} {r : List Byte}

theorem Dev.drainStart_refused (h : convRefused o.bytes r = true) :
    d.drainStart c pos o r = d.stopOp c pos (Ending.at .badField c pos 0) := if_pos h

theorem Dev.drainStart_begun (h : convRefused o.bytes r = false)
    (hp : d.poisonOf (if cvColmul r then [(sramAt c (cvMul r), 256)] else []) = none) :
    d.drainStart c pos o r = d.begun c pos (fun q => { q with conv := r }) := by
  simp only [Dev.drainStart, h, hp, Bool.false_eq_true, if_false]

end

section
variable {s : State} {c pos : Nat} {o : OpRec} (hc : c < 192) (ho : (s.dev.core c).op? pos = some o) (hr : s.dev.st = .running)
include hc ho hr

theorem gives_convRecordRead (hd : s.dev.convReadable c pos = true) (hp : s.dev.firstPoison (sramAt c (drConv o.bytes)) 64 = none) :
    Gives (.convRecordRead c pos) s
      (s.dev.setCore c ((s.dev.core c).setOp pos (fun q => { q with conv := s.dev.read (sramAt c (drConv o.bytes)) 64 }))) := by
  have hconv : s.dev.convOf c o = s.dev.read (sramAt c (drConv o.bytes)) 64 := by
    simp [Dev.convOf, Dev.conv_of_convReadable ho hd]
  rw [Gives, exec, execConvRecordRead]
  exact State.run_gives (coreOk_of hc) (by simp [hr, hd]) (by simp only [ho, hp, hconv]; rfl)

/-- The start of a drain whose record is in use reads its accumulator rows, and its record decides (R103). -/
theorem gives_drain {t : Start} (hs : s.dev.startable c pos 4 = true) (hv : o.conv ≠ [])
    (hp : (s.dev.countStart t).poisonOf (drSource c o.bytes) = none) :
    Gives (.drain c pos t) s ((s.dev.countStart t).drainStart c pos o o.conv) := by
  rw [Gives, exec, execDrain]
  refine State.startCmd_gives hc hr hs ((Dev.startOpAt_go ho (by simpa [hv] using hp)).trans ?_)
  rw [Dev.convOf_read hv]
  rfl

end

/-! ## The end of a drain -/

section
variable {d : Dev} {c pos : Nat} {o : OpRec} {rows : List DrainRow}
  (hw : d.partOf (drainPuts c o.bytes o.conv) = none) (hg : cvGrad o.conv = false) (hs : d.drainSat c o.bytes = false)
include hw hg hs

/-- A drain without REPLAY that nothing overflowed shows its rows and is done (R82, R87). -/
theorem Dev.endDrain_visible (hr : drReplay o.bytes = false) (hrows : rows = d.drainRows c o.bytes o.conv 0)
    (hn : countOuts rows (·.ovf) = 0) : d.endDrain c pos o =
      ((d.bump Reg.ARR_NONFINITE.COUNT (countOuts rows (·.nonfin))).drainOutput c o.bytes o.conv rows (d.drainExp o.conv 0)
        (d.core c).attempts false).opDone c pos := by
  simp [Dev.endDrain, Dev.drainVerdict, hw, hg, hs, hr, ← hrows, hn]

/-- A drain under REPLAY whose rows overflow asks for a replay while lowerings and budget are left (R82, R83). -/
theorem Dev.endDrain_overflowed (hr : drReplay o.bytes = true)
    (hrows : rows = d.drainRows c o.bytes o.conv (Tab.get 0 (d.core c).lower pos)) (hn : countOuts rows (·.ovf) ≠ 0)
    (ha : (d.core c).attempts < 2) (hb : d.budgetLeft c ≠ 0) (hp : (d.core c).phase ≠ .stopped) : d.endDrain c pos o =
      ((d.bump Reg.ARR_NONFINITE.COUNT (countOuts rows (·.nonfin))).bump Reg.ARR_OVF_EVENTS.COUNT 1).setCore c
        { (d.core c).setOp pos (fun q => { q with overflowed := true }) with
          overs := (d.core c).overs ++ [pos], replayDue := true } := by
  simp [Dev.endDrain, Dev.drainVerdict, hw, hg, hs, hr, ← hrows, hn, ha, hb, hp]

end

theorem gives_drainEnd {s : State} {c pos : Nat} {o : OpRec} {e : Dev} (hc : c < 192) (hu : s.dev.up = true)
    (ho : s.dev.startedOp c pos 4 = some o) (he : s.dev.endDrain c pos o = e) : Gives (.drainEnd c pos) s e := by
  rw [Gives, exec, execDrainEnd]
  exact State.endCmd_gives hc hu ho he

/-! ## A replay -/

@[simp] theorem Dev.scrambleSet_cores (d : Dev) (l : List Rng) : (d.scrambleSet l).cores = d.cores :=
  foldl_keeps Dev.cores (fun d (r : Rng) => d.scramble r.1 r.2) (fun _ _ => rfl) _ d

@[simp] theorem Dev.scrambleSet_budgetUsed (d : Dev) (l : List Rng) : (d.scrambleSet l).budgetUsed = d.budgetUsed :=
  foldl_keeps Dev.budgetUsed (fun d (r : Rng) => d.scramble r.1 r.2) (fun _ _ => rfl) _ d

/-- What a core abandons leaves undefined bytes, and on the core only the operations up to the mark (R83). -/
theorem Dev.abandon_core (d : Dev) (c m : Nat) :
    (d.abandon c m).core c = { d.core c with ops := (d.core c).ops.filter (fun o => o.pos ≤ m) } := by
  have hcores := foldl_keeps Dev.cores (fun d o => d.scrambleSet (Core.undone c o)) (fun d _ => d.scrambleSet_cores _)
    ((d.core c).ops.filter (fun o => m < o.pos && (o.started || o.overflowed))) d
  have hcore := congrArg (fun t => Tab.get Core.init t c) hcores
  rw [Dev.abandon, Dev.core_modCore_same]
  exact congrArg (fun x : Core => { x with ops := x.ops.filter (fun o => o.pos ≤ m) }) hcore

theorem Dev.abandon_budgetUsed (d : Dev) (c m : Nat) : (d.abandon c m).budgetUsed = d.budgetUsed :=
  foldl_keeps Dev.budgetUsed (fun d o => d.scrambleSet (Core.undone c o)) (fun d _ => d.scrambleSet_budgetUsed _) _ d

/-- A change of the owning RUN changes the RUNs alone. -/
theorem Dev.modOwner_keeps (d : Dev) (c : Nat) (f : Run → Run) :
    (d.modOwner c f).cores = d.cores ∧ (d.modOwner c f).budgetUsed = d.budgetUsed := by
  unfold Dev.modOwner
  split <;> exact ⟨rfl, rfl⟩

@[simp] theorem Dev.takeBudget_core (d : Dev) (c k : Nat) : (d.takeBudget c).core k = d.core k :=
  congrArg (fun t => Tab.get Core.init t k) (Dev.modOwner_keeps _ c _).1

/-- One unit of the budget is taken (R85). -/
theorem Dev.takeBudget_used (d : Dev) (c : Nat) : Tab.get 0 (d.takeBudget c).budgetUsed c = Tab.get 0 d.budgetUsed c + 1 := by
  rw [Dev.takeBudget, (Dev.modOwner_keeps _ c _).2]
  exact Tab.get_set_same 0 d.budgetUsed c (Tab.get 0 d.budgetUsed c + 1)

/-- A segment issued again keeps no operation at its mark or behind it. -/
theorem Core.replaySegment_ops_lt {x : Core} {m : Nat} {o : OpRec} (h : o ∈ (x.replaySegment m).ops) : o.pos < m := by
  simp only [Core.replaySegment, List.mem_filter, decide_eq_true_eq] at h
  exact h.2

/-- An overflow replay that is due, with a mark and budget left, issues the segment again from the mark (R83). -/
theorem runs_overflowReplay {s : State} {c m : Nat} (hc : c < 192) (hu : s.dev.up = true) (hd : (s.dev.core c).replayDue = true)
    (hl : (s.dev.core c).live = true) (hm : (s.dev.core c).mark = some m) (hb : s.dev.budgetLeft c ≠ 0) :
    Runs (.overflowReplay c) s (fun e =>
      e = ((((s.dev.abandon c m).modCore c (·.replaySegment m)).takeBudget c).bump Reg.ARR_OVF_REPLAYS.COUNT 1) ∧
      (e.core c).next = m + 1 ∧ (e.core c).attempts = (s.dev.core c).attempts + 1 ∧ (∀ o ∈ (e.core c).ops, o.pos < m) ∧
      Tab.get 0 e.budgetUsed c = Tab.get 0 s.dev.budgetUsed c + 1) := by
  have hcore : ((((s.dev.abandon c m).modCore c (·.replaySegment m)).takeBudget c).bump Reg.ARR_OVF_REPLAYS.COUNT 1).core c =
      ((s.dev.abandon c m).core c).replaySegment m := by simp
  simp only [Runs, exec, execOverflowReplay]
  refine State.run_meets (coreOk_of hc) (by simp [hu, hd, hl]) ?_
  simp only [Dev.overflowReplay, hm, if_neg hb, hcore, true_and]
  refine ⟨rfl, by rw [Dev.abandon_core]; rfl, fun o => Core.replaySegment_ops_lt, ?_⟩
  rw [Dev.bump_budgetUsed, Dev.takeBudget_used, ← s.dev.abandon_budgetUsed c m]
  rfl

/-! ## The mark of a segment -/

theorem runs_replayMark {s : State} {c : Nat} (hc : c < 192) (ha : s.dev.atOp c 0x38 = true)
    (hv : (s.dev.core c).verdictOpen = false) : Runs (.replayMark c) s (fun e =>
      (e.core c).mark = some (s.dev.core c).next ∧ (e.core c).next = (s.dev.core c).next + 1 ∧ (e.core c).attempts = 0 ∧
      (e.core c).delta = opBits (s.dev.nextOp c) 1 0 4 ∧ e.mem = s.dev.mem ∧ ∀ k, k ≠ c → e.core k = s.dev.core k) := by
  simp only [Runs, exec, execReplayMark]
  refine State.run_meets (coreOk_of hc) (by simp [ha, hv]) ?_
  simp only [Dev.passNext, Dev.core_bump, Dev.core_modCore_same, true_and]
  exact ⟨rfl, fun k hk => (Dev.core_modCore_ne _ _ hk).trans (Dev.core_modCore_ne _ _ hk)⟩

/-- Settles O34: each clause is the branch of a drain's start or end, of a replay or of a mark that its hypotheses choose. -/
theorem drainsAndReplays : Obligations.DrainsAndReplays := by
  unfold Obligations.DrainsAndReplays
  intro s c hc
  refine ⟨fun pos o ho hr hd hp => gives_convRecordRead hc ho hr hd hp, ?start, ?refused, ?visible, ?overflowed,
    fun m hu hd hl hm hb => runs_overflowReplay hc hu hd hl hm hb, runs_replayMark hc⟩
  case start =>
    intro pos o t ho hr hs hv hp hf hm
    have hgo := gives_drain hc ho hr hs hv hp
    rw [Dev.drainStart_begun hf hm] at hgo
    exact hgo
  case refused =>
    intro pos o t ho hr hs hv hp hf
    have hgo := gives_drain hc ho hr hs hv hp
    rw [Dev.drainStart_refused hf] at hgo
    exact hgo
  case visible =>
    intro pos o hu ho hw hr hg hs hn
    exact gives_drainEnd hc hu ho (Dev.endDrain_visible hw hg hs hr rfl hn)
  case overflowed =>
    intro pos o rows hu ho hw hr hg hs hrows hn ha hb hp
    exact gives_drainEnd hc hu ho (Dev.endDrain_overflowed hw hg hs hr hrows hn ha hb hp)

end Sys2Proof.Machine
end

section
/-! # The cores and the RUNs: what changes of them leave as it was

A change at one core leaves the others; a fold over cores changes those in its list; a RUN keeps its key; the grant of cores passes
over a core that is held (R199). -/

namespace Sys2Proof.Machine

/-! ## One core, one RUN -/

@[simp] theorem Dev.setCore_mem (d : Dev) (c : Nat) (x : Core) : (d.setCore c x).mem = d.mem := rfl

@[simp] theorem Dev.setCore_evt (d : Dev) (c : Nat) (x : Core) : (d.setCore c x).evt = d.evt := rfl

@[simp] theorem Dev.fld_setCore (d : Dev) (c : Nat) (x : Core) (f : Field) : (d.setCore c x).fld f = d.fld f := rfl

@[simp] theorem Dev.modRun_mem (d : Dev) (k : Nat × Nat) (f : Run → Run) : (d.modRun k f).mem = d.mem := rfl

@[simp] theorem Dev.modRun_regs (d : Dev) (k : Nat × Nat) (f : Run → Run) : (d.modRun k f).regs = d.regs := rfl

@[simp] theorem Dev.core_setFld (d : Dev) (f : Field) (n c : Nat) : (d.setFld f n).core c = d.core c := rfl

@[simp] theorem Dev.core_bumpSat (d : Dev) (f : Field) (n c : Nat) : (d.bumpSat f n).core c = d.core c := rfl

@[simp] theorem Dev.core_modRun (d : Dev) (k : Nat × Nat) (f : Run → Run) (c : Nat) : (d.modRun k f).core c = d.core c := rfl

/-! ## Folds over cores -/

theorem mem_onesOf {w n i : Nat} : i ∈ onesOf w n ↔ i < w ∧ n.testBit i = true := by
  simp [onesOf, bit_eq_testBit]

theorem nodup_onesOf (w n : Nat) : (onesOf w n).Nodup := List.nodup_range.filter _

theorem Run.nodup_cores (r : Run) : r.cores.Nodup := nodup_onesOf 192 r.mask

theorem Run.mem_cores {r : Run} {c : Nat} : c ∈ r.cores ↔ c < 192 ∧ r.mask.testBit c = true := mem_onesOf

/-- A fold whose steps leave a core leaves it. -/
theorem foldl_core_of_forall {α : Type} {g : Dev → α → Dev} {c : Nat} {l : List α} (h : ∀ a ∈ l, ∀ d, (g d a).core c = d.core c) :
    ∀ d, (l.foldl g d).core c = d.core c := by
  induction l with
  | nil => exact fun _ => rfl
  | cons a l ih =>
    intro d
    rw [List.foldl_cons, ih fun b hb => h b (List.mem_cons_of_mem a hb), h a List.mem_cons_self]

section
variable {g : Dev → Nat → Dev} {c : Nat} {l : List Nat} (hne : ∀ d a, c ≠ a → (g d a).core c = d.core c)
include hne

/-- A fold whose steps change one core each leaves a core that its list does not name. -/
theorem foldl_core_of_not_mem (h : c ∉ l) (d : Dev) : (l.foldl g d).core c = d.core c :=
  foldl_core_of_forall (fun a ha d => hne d a fun e => h (e ▸ ha)) d

/-- Such a fold changes a core that its list names once, by its step at that core. -/
theorem foldl_core_of_mem {f : Core → Core} (hsame : ∀ d, (g d c).core c = f (d.core c)) (hl : l.Nodup) (h : c ∈ l) :
    ∀ d, (l.foldl g d).core c = f (d.core c) := by
  induction l with
  | nil => cases h
  | cons a l ih =>
    obtain ⟨ha, hl⟩ := List.nodup_cons.mp hl
    intro d
    rw [List.foldl_cons]
    by_cases hc : c = a
    · subst hc
      rw [foldl_core_of_not_mem hne ha, hsame]
    · rw [ih hl ((List.mem_cons.mp h).resolve_left hc), hne d a hc]

end

theorem foldl_modCore_core_mem {f : Core → Core} {l : List Nat} {c : Nat} (hl : l.Nodup) (h : c ∈ l) (d : Dev) :
    (l.foldl (fun d c => d.modCore c f) d).core c = f (d.core c) :=
  foldl_core_of_mem (fun d _ hc => d.core_modCore_ne f hc) (fun d => d.core_modCore_same c f) hl h d

theorem foldl_modCore_core_not_mem {f : Core → Core} {l : List Nat} {c : Nat} (h : c ∉ l) (d : Dev) :
    (l.foldl (fun d c => d.modCore c f) d).core c = d.core c :=
  foldl_core_of_not_mem (fun d _ hc => d.core_modCore_ne f hc) h d

/-- A fold whose steps change the cores alone changes the cores alone. -/
theorem foldl_cores_frame {α : Type} {g : Dev → α → Dev} (hg : ∀ d a, g d a = { d with cores := (g d a).cores }) (l : List α) :
    ∀ d, l.foldl g d = { d with cores := (l.foldl g d).cores } := by
  induction l with
  | nil => exact fun _ => rfl
  | cons a l ih =>
    intro d
    rw [List.foldl_cons, ih (g d a), hg d a]

/-! ## A RUN by its key -/

theorem Dev.key_of_run? {d : Dev} {k : Nat × Nat} {q : Run} (h : d.run? k = some q) : q.key = k := by
  simpa using List.find?_some h

/-- A RUN that is changed under its key is found under it, as changed. -/
theorem Dev.run?_modRun {d : Dev} {k : Nat × Nat} {q : Run} {f : Run → Run} (hf : ∀ r, (f r).key = r.key) (h : d.run? k = some q) :
    (d.modRun k f).run? k = some (f q) := by
  have hkey (r : Run) : (if r.key = k then f r else r).key = r.key := by
    split
    · exact hf r
    · rfl
  have hk := Dev.key_of_run? h
  rw [Dev.run?] at h
  simp only [Dev.run?, Dev.modRun, List.find?_map, Function.comp_def, hkey, h, Option.map_some, if_pos hk]

/-! ## The grant of cores -/

/-- A grant changes the cores and the RUNs alone. -/
theorem Dev.grant_frame (d : Dev) (r : Run) : d.grant r = { d with cores := (d.grant r).cores, runs := (d.grant r).runs } := by
  unfold Dev.grant
  split
  · rw [foldl_cores_frame fun _ _ => rfl]
  · rw [foldl_cores_frame fun _ _ => rfl]
    rfl

/-- A grant leaves a core that its RUN does not need. -/
theorem Dev.grant_core {d : Dev} {r : Run} {c : Nat} (h : c ∉ r.needs) : (d.grant r).core c = d.core c := by
  unfold Dev.grant
  split
  · rename_i hacq
    rw [Run.needs, if_pos hacq] at h
    refine foldl_core_of_forall (fun e he d => d.core_setCore_ne _ ?_) d
    rintro rfl
    exact h (List.mem_map_of_mem he)
  · rename_i hacq
    rw [Run.needs, if_neg hacq] at h
    exact foldl_core_of_not_mem (fun d a hc => d.core_setCore_ne _ hc) h d

theorem Dev.grantList_frame (rs : List Run) (kept : List Nat) (d : Dev) : Dev.grantList rs kept d =
    { d with cores := (Dev.grantList rs kept d).cores, runs := (Dev.grantList rs kept d).runs } := by
  induction rs generalizing kept d with
  | nil => rfl
  | cons r rs ih =>
    rw [Dev.grantList, ih]
    split
    · rw [d.grant_frame r]
    · rfl

/-- A core that a RUN holds is granted to none. -/
theorem Dev.grantList_core_held {c : Nat} (rs : List Run) (kept : List Nat) (d : Dev) (h : (d.core c).owner ≠ none) :
    (Dev.grantList rs kept d).core c = d.core c := by
  induction rs generalizing kept d with
  | nil => rfl
  | cons r rs ih =>
    have hstep : (if r.needs.all (fun c => (d.core c).owner.isNone && !kept.contains c && d.coreSt c = 0) then d.grant r else d).core c =
        d.core c := by
      split
      · rename_i hok
        refine Dev.grant_core fun hc => h ?_
        have hfree := List.all_eq_true.mp hok c hc
        simp only [Bool.and_eq_true, Option.isNone_iff_eq_none] at hfree
        exact hfree.1.1
      · rfl
    rw [Dev.grantList, ih _ _ (by rwa [hstep]), hstep]

theorem Dev.grantRuns_frame (d : Dev) : d.grantRuns = { d with cores := d.grantRuns.cores, runs := d.grantRuns.runs } :=
  Dev.grantList_frame d.waiting [] d

theorem Dev.grantRuns_mem (d : Dev) : d.grantRuns.mem = d.mem := by rw [d.grantRuns_frame]

theorem Dev.grantRuns_fld (d : Dev) (f : Field) : d.grantRuns.fld f = d.fld f := by
  rw [d.grantRuns_frame]
  rfl

theorem Dev.grantRuns_core_held {d : Dev} {c : Nat} (h : (d.core c).owner ≠ none) : d.grantRuns.core c = d.core c :=
  Dev.grantList_core_held d.waiting [] d h

end Sys2Proof.Machine
end

section
/-! # RUN, its check, and the dispatch of operations

Settles O31. -/

namespace Sys2Proof.Machine

/-! ## The descriptor -/

/-- A descriptor that leaves the head of its ring leaves memory, registers and the RUNs. -/
theorem Dev.popHead_keeps (d : Dev) (r : Nat) :
    (d.popHead r).mem = d.mem ∧ (d.popHead r).regs = d.regs ∧ (d.popHead r).runs = d.runs := by
  unfold Dev.popHead
  split <;> exact ⟨rfl, rfl, rfl⟩

theorem Dev.progOffsets_of_mem {d e : Dev} (h : e.mem = d.mem) (j : Desc) : e.progOffsets j = d.progOffsets j := by
  simp only [Dev.progOffsets, Dev.readLE, Dev.read, Dev.peek, h]

/-- A RUN as its descriptor asks for it, its waits met at the time given: it waits for all of its cores (R199). -/
def Dev.askedRun (d : Dev) (j : Desc) (met : Nat) : Run :=
  ⟨j.key, j.mask192, d.progOffsets j, d.fld (Reg.HQ_SQ_CFG.PRIO j.ring), met, false, false, false, [], 0, 0, [], []⟩

theorem Dev.askedRun_popHead (d : Dev) (r : Nat) (j : Desc) (met : Nat) : (d.popHead r).askedRun j met = d.askedRun j met := by
  obtain ⟨hmem, hregs, -⟩ := d.popHead_keeps r
  rw [Dev.askedRun, Dev.progOffsets_of_mem hmem, Dev.fld_of_regs hregs]
  rfl

/-- A RUN whose parameters can be read joins those that wait. -/
theorem Dev.startRun_joins {d : Dev} {j : Desc} {met : Nat} (h : j.num 52 5 = 0 ∨ d.readErr (j.num 52 5) 768 = none) :
    Dev.startRun met d j = ({ d with runs := d.runs ++ [d.askedRun j met] } : Dev).grantRuns := by
  have hread : (if j.num 52 5 = 0 then none else d.readErr (j.num 52 5) 768) = none := by
    split
    · rfl
    · rename_i hne
      exact h.resolve_left hne
  simp only [Dev.startRun, hread]
  rfl

section
variable {s : State} {r : Nat} {j : Desc} (hr : r < 16) (h : Starts s r j) (ho : j.opc = 0x10)
include hr h ho

theorem gives_run (hc : s.dev.runDescCheck j = none)
    (hp : j.num 52 5 = 0 ∨ (s.dev.popHead r).readErr (j.num 52 5) 768 = none) :
    Gives (.run r) s
      ({ s.dev.popHead r with runs := s.dev.runs ++ [s.dev.askedRun j (s.dev.metAt r)] } : Dev).grantRuns := by
  obtain ⟨-, -, hruns⟩ := s.dev.popHead_keeps r
  have hgo := Dev.startRun_joins (met := s.dev.metAt r) hp
  rw [hruns, Dev.askedRun_popHead] at hgo
  rw [Gives, exec, execRun, ← hgo]
  exact State.run_gives (decide_eq_true hr) (h.descDue (by simp [ho])) (by simp only [Dev.startDesc, h.1, hc])

theorem gives_run_refused {e : Ending} (hc : s.dev.runDescCheck j = some e) :
    Gives (.run r) s ((s.dev.popHead r).refuse j e) := by
  rw [Gives, exec, execRun]
  exact State.run_gives (decide_eq_true hr) (h.descDue (by simp [ho])) (by simp only [Dev.startDesc, h.1, hc])

end

/-! ## The check -/

/-- A check that finds nothing starts every core of the RUN. -/
theorem Dev.runChecked_started {d : Dev} {q : Run} (h : d.checkRun q.prog = none) :
    (∀ c, c < 192 → q.mask.testBit c = true → ((d.runChecked q).core c).phase = .running) ∧
    (∀ c, 192 ≤ c ∨ q.mask.testBit c = false → (d.runChecked q).core c = d.core c) ∧
    d.runChecked q = { d with cores := (d.runChecked q).cores, runs := (d.runChecked q).runs } := by
  simp only [Dev.runChecked, h]
  refine ⟨fun c hc hq => ?_, fun c hc => foldl_modCore_core_not_mem (fun hm => ?_) _, ?_⟩
  · rw [foldl_modCore_core_mem (f := fun x => { x with phase := .running }) q.nodup_cores (Run.mem_cores.mpr ⟨hc, hq⟩)]
  · obtain ⟨hlt, hbit⟩ := Run.mem_cores.mp hm
    rcases hc with hge | hoff
    · omega
    · rw [hbit] at hoff
      cases hoff
  · rw [foldl_cores_frame (fun _ _ => rfl)]
    rfl

/-- The end of the check of a RUN that has its cores. -/
theorem gives_runCheckDone {s : State} {k i : Nat} {q : Run} (hk : k < 16) (hu : s.dev.up = true)
    (hq : s.dev.run? (k, i) = some q) (ha : q.acquired = true) (hc : q.checked = false) :
    Gives (.runCheckDone k i) s (s.dev.runChecked q) := by
  rw [Gives, exec, execRunCheckDone]
  exact State.run_gives (decide_eq_true hk) (by simp [hu, hq, ha, hc]) (by simp only [hq])

/-! ## Dispatch -/

section
variable {d : Dev} {c : Nat}

theorem Dev.dispatchNext_poison {a : Nat} (h : d.firstPoison (sramAt c ((d.core c).hdr + 32 + 32 * (d.core c).next)) 32 = some a) :
    d.dispatchNext c = d.stopMem c (d.core c).next a 0 := by
  simp only [Dev.dispatchNext, h]

variable (h : d.firstPoison (sramAt c ((d.core c).hdr + 32 + 32 * (d.core c).next)) 32 = none)
include h

theorem Dev.dispatchNext_defined (ho : opDefined (opCode (d.nextOp c)) = true) :
    d.dispatchNext c = d.setCore c { d.core c with
      ops := insertOp (newOp (d.core c).next (d.nextOp c)) (d.core c).ops, next := (d.core c).next + 1 } := by
  simp only [Dev.dispatchNext, h, ho, Bool.not_true, Bool.false_eq_true, if_false]

theorem Dev.dispatchNext_undefined (ho : opDefined (opCode (d.nextOp c)) = false) :
    d.dispatchNext c = d.stopOp c (d.core c).next (Ending.at .badField c (d.core c).next 0) := by
  simp only [Dev.dispatchNext, h, ho, Bool.not_false, if_true]

end

theorem gives_seqDispatch {s : State} {c : Nat} {x : Ecc} {e : Dev} (hc : c < 192) (hd : (s.dev.meetEcc x).dispatchDue c = true)
    (he : (s.dev.meetEcc x).dispatchNext c = e) : Gives (.seqDispatch c x) s e := by
  rw [Gives, exec, execSeqDispatch]
  exact State.run_gives (coreOk_of hc) hd he

/-- Settles O31: a descriptor's start, the two ends of the check, and the three outcomes of a dispatch. -/
theorem runStarts : Obligations.RunStarts := by
  unfold Obligations.RunStarts
  refine ⟨fun s => ⟨?joins, ?refused, ?started, ?bad⟩, ?dispatch⟩
  case joins => exact fun r j hr h ho hc hp => gives_run hr h ho hc hp
  case refused => exact fun r j e hr h ho hc => gives_run_refused hr h ho hc
  case started =>
    exact fun k i q hk hu hq ha hc hn => (gives_runCheckDone hk hu hq ha hc).runs (Dev.runChecked_started hn)
  case bad =>
    intro k i q c p hk hu hq ha hc hn
    have hend := gives_runCheckDone hk hu hq ha hc
    rw [Dev.runChecked, hn] at hend
    exact hend
  case dispatch =>
    rintro s c x d hc rfl hd
    exact ⟨fun a hp => gives_seqDispatch hc hd (Dev.dispatchNext_poison hp),
      fun hp => ⟨fun ho => gives_seqDispatch hc hd (Dev.dispatchNext_defined hp ho),
        fun ho => gives_seqDispatch hc hd (Dev.dispatchNext_undefined hp ho)⟩⟩

end Sys2Proof.Machine
end

section
/-! # Vector code, MOVE, GATHER and XFER

Settles O35. -/

namespace Sys2Proof.Machine

/-! ## Starts -/

@[simp] theorem Dev.meetEcc_mem (d : Dev) (e : Ecc) : (d.meetEcc e).mem = d.mem :=
  foldl_keeps Dev.mem (fun d a => d.setPoison a) Dev.setPoison_mem _ d

@[simp] theorem Dev.meetEcc_vec (d : Dev) (e : Ecc) : (d.meetEcc e).vec = d.vec :=
  foldl_keeps Dev.vec (fun d a => d.setPoison a) Dev.setPoison_vec _ d

@[simp] theorem Dev.countStart_mem (d : Dev) (t : Start) : (d.countStart t).mem = d.mem := by simp [Dev.countStart]

@[simp] theorem Dev.countStart_vec (d : Dev) (t : Start) : (d.countStart t).vec = d.vec := by simp [Dev.countStart]

/-- The context of the vector code that an operation starts (R105, R119). -/
def vecStart (c pos : Nat) (l : List Byte) : VecCtx :=
  VecCtx.start 256 (sramAt c (opNum l 4 4)) (opNum l 2 2) pos (opNum l 8 4, opNum l 12 4) (opNum l 16 4, opNum l 20 4)
    (opNum l 24 4, opNum l 28 4)

section
variable {s : State} {c pos : Nat} {o : OpRec} {t : Start} (hc : c < 192) (ho : (s.dev.core c).op? pos = some o)
  (hr : s.dev.st = .running)
include hc ho hr

theorem gives_vec (hs : s.dev.startable c pos 0x10 = true) : Gives (.vec c pos t) s (({ s.dev.countStart t with
    vec := Tab.set VecCtx.init s.dev.vec c (vecStart c pos o.bytes) } : Dev).begun c pos id) := by
  rw [Gives, exec, execVec, ← s.dev.countStart_vec t]
  exact State.startCmd_gives hc hr hs (Dev.startOpAt_go ho rfl)

theorem runs_vec (hs : s.dev.startable c pos 0x10 = true) : Runs (.vec c pos t) s (fun e =>
    Tab.get VecCtx.init e.vec c = vecStart c pos o.bytes ∧ e.mem = s.dev.mem ∧
    ∀ k, k ≠ c → Tab.get VecCtx.init e.vec k = Tab.get VecCtx.init s.dev.vec k) :=
  (gives_vec hc ho hr hs).runs ⟨Tab.get_set_same VecCtx.init s.dev.vec c (vecStart c pos o.bytes), s.dev.countStart_mem t,
    fun _ hk => Tab.get_set_ne VecCtx.init s.dev.vec (vecStart c pos o.bytes) hk⟩

theorem gives_move (hs : s.dev.startable c pos 0x20 = true)
    (ha : ∀ go : Dev → Dev, (s.dev.countStart t).opAccess c pos (moveReads o.bytes) (moveWrites o.bytes) go =
      go (s.dev.countStart t)) :
    Gives (.move c pos t) s ((s.dev.countStart t).begun c pos id) := by
  rw [Gives, exec, execMove]
  exact State.startCmd_gives hc hr hs ((Dev.startOpAt_go ho rfl).trans (ha _))

theorem gives_gather (hs : s.dev.startable c pos 0x21 = true)
    (hp : (s.dev.countStart t).poisonOf [(sramAt c (opNum o.bytes 8 4), 4 * dmLen o.bytes)] = none) :
    Gives (.gather c pos t) s ((s.dev.countStart t).begun c pos id) := by
  rw [Gives, exec, execGather]
  exact State.startCmd_gives hc hr hs (Dev.startOpAt_go ho hp)

end

/-! ## The elements of a GATHER -/

section
variable {d : Dev} {c pos i k : Nat} {l : List Byte}

/-- The first element that would leave the vault stops the program, the destinations above it undefined (R106). -/
theorem Dev.gatherFromN_outside (h : 0x100000000 < d.gatherFrom c l i + gaSize l) : Dev.gatherFromN c pos l (k + 1) i d =
    (if k = 0 then d else d.scramble (sramAt c (dmC l + (i + 1) * gaSize l)) (k * gaSize l)).stopOp c pos
      (Ending.at .badField c pos i) := by
  rw [Dev.gatherFromN]
  exact if_pos h

/-- An element that can be read goes to its place, and the next one follows. -/
theorem Dev.gatherFromN_copied (h : d.gatherFrom c l i + gaSize l ≤ 0x100000000)
    (hp : d.firstPoison (vaultBase c + d.gatherFrom c l i) (gaSize l) = none)
    (hw : d.partOf [(sramAt c (dmC l + i * gaSize l), gaSize l)] = none) : Dev.gatherFromN c pos l (k + 1) i d =
    Dev.gatherFromN c pos l k (i + 1)
      (d.copy (vaultBase c + d.gatherFrom c l i) (sramAt c (dmC l + i * gaSize l)) (gaSize l)) := by
  rw [Dev.gatherFromN]
  simp only [if_neg (Nat.not_lt.mpr h), hp, hw]

end

/-! ## The start of an XFER -/

/-- What an XFER that can start does: a home that no entry makes reachable stops the program, and so does a LOST one when there are
bytes to carry; else its local range decides (R106, R245). -/
def Dev.xferStart (d : Dev) (c pos : Nat) (l : List Byte) : Dev :=
  if d.noRoute (xfHome l) then d.stopOp c pos (Ending.at .badField c pos (xfHome l))
  else if dmLen l != 0 && d.peerGone (xfHome l) then
    (d.sight (xfHome l) 4 0xFF).stopOp c pos (Ending.at .peerLost c pos (xfHome l))
  else
    d.opAccess c pos (if xfGet l then [] else [(dmA l, dmLen l)]) (if xfGet l then [(dmA l, dmLen l)] else [])
      (fun d => d.startXfer c pos l)

section
variable {d : Dev} {c pos : Nat} {l : List Byte}

theorem Dev.xferStart_noRoute (h : d.noRoute (xfHome l) = true) :
    d.xferStart c pos l = d.stopOp c pos (Ending.at .badField c pos (xfHome l)) := if_pos h

variable (h : d.noRoute (xfHome l) = false)
include h

theorem Dev.xferStart_lost (hg : d.peerGone (xfHome l) = true) (hn : dmLen l ≠ 0) :
    d.xferStart c pos l = (d.sight (xfHome l) 4 0xFF).stopOp c pos (Ending.at .peerLost c pos (xfHome l)) := by
  simp [Dev.xferStart, h, hg, hn]

theorem Dev.xferStart_go (hg : d.peerGone (xfHome l) = false ∨ dmLen l = 0)
    (ha : ∀ go : Dev → Dev, d.opAccess c pos (if xfGet l then [] else [(dmA l, dmLen l)])
      (if xfGet l then [(dmA l, dmLen l)] else []) go = go d) : d.xferStart c pos l = d.startXfer c pos l := by
  have hreach : (dmLen l != 0 && d.peerGone (xfHome l)) = false := by
    rcases hg with hg | hn
    · rw [hg, Bool.and_false]
    · simp [hn]
  simp only [Dev.xferStart, h, hreach, Bool.false_eq_true, if_false]
  exact ha _

end

theorem gives_xfer {s : State} {c pos : Nat} {o : OpRec} {t : Start} (hc : c < 192) (ho : (s.dev.core c).op? pos = some o)
    (hr : s.dev.st = .running) (hs : s.dev.startable c pos 0x22 = true) :
    Gives (.xfer c pos t) s ((s.dev.countStart t).xferStart c pos o.bytes) := by
  rw [Gives, exec, execXfer]
  exact State.startCmd_gives hc hr hs (Dev.startOpAt_go ho rfl)

/-! ## Ends -/

section
variable {s : State} {c pos : Nat} {o : OpRec} (hc : c < 192) (hu : s.dev.up = true)
include hc hu

theorem gives_vecEnd (ho : s.dev.startedOp c pos 0x10 = some o) (hv : (Tab.get VecCtx.init s.dev.vec c).ended = true) :
    Gives (.vecEnd c pos) s (({ s.dev with vec := Tab.set VecCtx.init s.dev.vec c VecCtx.init } : Dev).opDone c pos) := by
  rw [Gives, exec, execVecEnd]
  exact State.run_gives (coreOk_of hc) (by simp [hu, ho, hv]) rfl

theorem gives_moveComplete (ho : s.dev.startedOp c pos 0x20 = some o)
    (ha : ∀ go : Dev → Dev, s.dev.opAccess c pos (moveReads o.bytes) (moveWrites o.bytes) go = go s.dev) :
    Gives (.moveComplete c pos) s
      (((moveRows o.bytes).foldl (fun d p => d.storeCopy p.1 p.2 (dmLen o.bytes)) s.dev).opDone c pos) := by
  rw [Gives, exec, execMoveComplete]
  exact State.endCmd_gives hc hu ho (ha _)

theorem gives_gatherComplete {e : Dev} (ho : s.dev.startedOp c pos 0x21 = some o)
    (he : Dev.gatherFromN c pos o.bytes (dmLen o.bytes) 0 s.dev = e) : Gives (.gatherComplete c pos) s e := by
  rw [Gives, exec, execGatherComplete]
  exact State.endCmd_gives hc hu ho he

theorem gives_xferComplete {q : MfbOp} (ho : s.dev.startedOp c pos 0x22 = some o) (hq : s.dev.xferOp c pos = some q)
    (ha : q.pkts.all (·.acked) = true) : Gives (.xferComplete c pos) s
      ((((s.dev.dropOp q.id).bump Reg.MFB_OPS.COUNT 1).sendNotify q).opDone c pos) := by
  rw [Gives, exec, execXferComplete]
  exact State.run_gives (coreOk_of hc) (by simp only [hu, ho, hq, ha, Option.isSome_some, Option.any_some, Bool.and_self])
    (by simp only [hq])

end

/-- Settles O35: each clause is the start or the end of the operation, in the branch that its hypotheses choose. -/
theorem dataMovement : Obligations.DataMovement := by
  unfold Obligations.DataMovement
  intro s c pos o hc ho
  refine ⟨fun t hr hs => runs_vec hc ho hr hs, fun hu hso hv => gives_vecEnd hc hu hso hv,
    fun t hr hs ha => gives_move hc ho hr hs ha, fun hu hso ha => gives_moveComplete hc hu hso ha,
    fun t hr hs hp => gives_gather hc ho hr hs hp, ?gatherComplete, ?xfer, fun q hu hso hq ha => gives_xferComplete hc hu hso hq ha⟩
  case gatherComplete =>
    intro hu hso
    have hend {e : Dev} := gives_gatherComplete (e := e) hc hu hso
    refine ⟨hend rfl, fun hn => hend (by rw [hn]; rfl), fun k hn hout => ?_, fun k hn hin hp hw => ?_⟩
    · have hstop := Dev.gatherFromN_outside (pos := pos) (k := k) hout
      rw [Nat.zero_add, Nat.one_mul, ← hn] at hstop
      exact hend hstop
    · have hnext := Dev.gatherFromN_copied (pos := pos) (k := k) hin hp (by rwa [Nat.zero_mul])
      rw [Nat.zero_mul, ← hn] at hnext
      exact hend hnext
  case xfer =>
    rintro t d hr hs rfl
    have hgo := gives_xfer (t := t) hc ho hr hs
    refine ⟨fun hn => ?_, fun hn hg hl => ?_, fun hn hg ha => ?_⟩
    · rwa [Dev.xferStart_noRoute hn] at hgo
    · rwa [Dev.xferStart_lost hn hg hl] at hgo
    · rwa [Dev.xferStart_go hn hg ha] at hgo

end Sys2Proof.Machine
end

section
/-! # WAIT, SIGNAL, BARRIER and stopping at a boundary

Settles O36. -/

namespace Sys2Proof.Machine

/-! ## An operation that is passed, and a SIGNAL that fires -/

@[simp] theorem Dev.passNext_core_same (d : Dev) (c : Nat) :
    (d.passNext c).core c = { d.core c with next := (d.core c).next + 1, phase := .running } := d.core_modCore_same c _

@[simp] theorem Dev.passNext_evtGet (d : Dev) (c i : Nat) : (d.passNext c).evtGet i = d.evtGet i := by
  rw [Dev.evtGet, Dev.passNext, Dev.modCore, Dev.setCore_evt, Dev.evtGet]

@[simp] theorem Dev.passNext_mem (d : Dev) (c : Nat) : (d.passNext c).mem = d.mem := d.setCore_mem c _

@[simp] theorem Dev.fire_core (d : Dev) (l : List Byte) (c : Nat) : (d.fire l).core c = d.core c := by
  simp [Dev.fire, Dev.core]

@[simp] theorem Dev.fire_mem (d : Dev) (l : List Byte) : (d.fire l).mem = d.mem := by simp [Dev.fire]

theorem Dev.fire_evtGet (d : Dev) (l : List Byte) (i : Nat) :
    (d.fire l).evtGet i = (d.evtAdd (opNum l 2 2) (opNum l 8 4)).evtGet i := by
  rw [Dev.fire, Dev.evtGet, Dev.bump_evt, Dev.evtGet]

section
variable {s : State} {c : Nat} (hc : c < 192)
include hc

/-! ## WAIT -/

theorem gives_wait_passed (ha : s.dev.atOp c 0x30 = true)
    (hv : opNum (s.dev.nextOp c) 4 4 ≤ s.dev.evtGet (opNum (s.dev.nextOp c) 2 2)) :
    Gives (.wait c) s ((s.dev.passNext c).bump Reg.ARR_SEQ_OPS.COUNT 1) := by
  rw [Gives, exec, execWait]
  exact State.run_gives (coreOk_of hc) ha (if_pos hv)

theorem gives_wait_held (ha : s.dev.atOp c 0x30 = true)
    (hv : s.dev.evtGet (opNum (s.dev.nextOp c) 2 2) < opNum (s.dev.nextOp c) 4 4) :
    Gives (.wait c) s (s.dev.setCore c { s.dev.core c with
      phase := .waitEvent (opNum (s.dev.nextOp c) 2 2) (opNum (s.dev.nextOp c) 4 4), since := s.dev.clk }) := by
  rw [Gives, exec, execWait]
  exact State.run_gives (coreOk_of hc) ha (if_neg (Nat.not_le.mpr hv))

theorem gives_waitMet {i v : Nat} (hu : s.dev.up = true) (hp : (s.dev.core c).phase = .waitEvent i v) (hv : v ≤ s.dev.evtGet i)
    (hn : (s.dev.core c).preempt = false) (hs : s.dev.stopping c = false) :
    Gives (.waitMet c) s ((s.dev.passNext c).bump Reg.ARR_SEQ_OPS.COUNT 1) := by
  rw [Gives, exec, execWaitMet]
  exact State.run_gives (coreOk_of hc) (by simp [Dev.eventMet, hu, hp, hv, hn, hs]) rfl

theorem gives_waitTimeout (hu : s.dev.up = true) (hx : s.dev.waitExpired c = true) :
    Gives (.waitTimeout c) s
      (s.dev.stopCore c (Ending.at .timeout c (s.dev.core c).next ((s.dev.core c).waitsFor.getD 0))) := by
  rw [Gives, exec, execWaitTimeout]
  exact State.run_gives (coreOk_of hc) (by rw [hu, hx]; rfl) rfl

theorem gives_coreStopAtBoundary (hu : s.dev.up = true) (hs : s.dev.stopsNow c = true) :
    Gives (.coreStopAtBoundary c) s (s.dev.haltCore c none) := by
  rw [Gives, exec, execCoreStopAtBoundary]
  exact State.run_gives (coreOk_of hc) (by rw [hu, hs]; rfl) rfl

/-! ## SIGNAL -/

/-- A SIGNAL without a fence, and with none before it, fires as it is dispatched (R108). -/
theorem gives_signal_fires (ha : s.dev.atOp c 0x31 = true) (hf : opNum (s.dev.nextOp c) 4 1 = 0)
    (hq : (s.dev.core c).signals = []) : Gives (.signal c) s ((s.dev.passNext c).fire (s.dev.nextOp c)) := by
  rw [Gives, exec, execSignal]
  exact State.run_gives (coreOk_of hc) (by simp [ha, hq]) (if_pos (by simp [hf, hq]))

/-- Any other SIGNAL enters the queue, which holds eight. -/
theorem gives_signal_queued (ha : s.dev.atOp c 0x31 = true)
    (hf : opNum (s.dev.nextOp c) 4 1 ≠ 0 ∨ (s.dev.core c).signals ≠ []) (hl : (s.dev.core c).signals.length < 8) :
    Gives (.signal c) s ((s.dev.setCore c { s.dev.core c with
      signals := (s.dev.core c).signals ++ [newOp (s.dev.core c).next (s.dev.nextOp c)] }).passNext c) := by
  rw [Gives, exec, execSignal]
  refine State.run_gives (coreOk_of hc) (by simp [ha, hl]) (if_neg ?_)
  simpa only [Bool.and_eq_true, decide_eq_true_eq, List.isEmpty_iff, not_and_or] using hf

theorem gives_signalFire {g : OpRec} {rest : List OpRec} (hu : s.dev.up = true) (hq : (s.dev.core c).signals = g :: rest)
    (hf : (s.dev.core c).fenceMet g = true) :
    Gives (.signalFire c) s ((s.dev.setCore c { s.dev.core c with signals := rest }).fire g.bytes) := by
  rw [Gives, exec, execSignalFire]
  exact State.run_gives (coreOk_of hc) (by simp [hu, hq, hf]) (by simp only [hq]; rfl)

/-! ## BARRIER -/

/-- A core that arrives at a SCOPE 0 barrier is held at the turn that its arrivals number (R109). -/
theorem gives_barrier_local (ha : s.dev.atOp c 0x32 = true) (hf : (s.dev.core c).fenced = true)
    (hb : bit (opNum (s.dev.nextOp c) 1 1) 0 = false) : Gives (.barrier c) s
      (s.dev.setCore c { s.dev.core c with
        phase := .barrier (opNum (s.dev.nextOp c) 2 1) (Tab.get 0 (s.dev.core c).arrivals (opNum (s.dev.nextOp c) 2 1))
        since := s.dev.clk
        arrivals := Tab.set 0 (s.dev.core c).arrivals (opNum (s.dev.nextOp c) 2 1)
          (Tab.get 0 (s.dev.core c).arrivals (opNum (s.dev.nextOp c) 2 1) + 1) }) := by
  rw [Gives, exec, execBarrier]
  exact State.run_gives (coreOk_of hc) (by simp [ha, hf]) (congrArg (s.dev.setCore c) (if_neg (by simp [hb])))

theorem gives_barrier_step (ha : s.dev.atOp c 0x32 = true) (hf : (s.dev.core c).fenced = true)
    (hb : bit (opNum (s.dev.nextOp c) 1 1) 0 = true) :
    Gives (.barrier c) s (s.dev.setCore c { s.dev.core c with phase := .stepBarrier, since := s.dev.clk }) := by
  rw [Gives, exec, execBarrier]
  exact State.run_gives (coreOk_of hc) (by simp [ha, hf]) (congrArg (s.dev.setCore c) (if_pos hb))

end

/-! ## The release of a barrier -/

/-- The cores of a RUN that wait at turn n of a barrier go on. -/
def Dev.passBarrier (d : Dev) (q : Run) (id n : Nat) : Dev :=
  q.cores.foldl (fun d c => if (d.core c).owner = some q.key then d.modCore c (·.released id n) else d) d

section
variable {d : Dev} {q : Run} {c id n : Nat}

theorem Dev.passBarrier_mem : (d.passBarrier q id n).mem = d.mem :=
  foldl_keeps Dev.mem _ (fun d c => by split <;> rfl) q.cores d

/-- A core of the RUN that waits at that turn goes on; what the release does to the other cores leaves it. -/
theorem Dev.passBarrier_waiting (hq : c ∈ q.cores) (ho : (d.core c).owner = some q.key) (hp : (d.core c).phase = .barrier id n) :
    (d.passBarrier q id n).core c = { d.core c with phase := .running, next := (d.core c).next + 1 } := by
  have hrel := foldl_core_of_mem (g := fun d c => if (d.core c).owner = some q.key then d.modCore c (·.released id n) else d)
    (f := fun x => if x.owner = some q.key then x.released id n else x) (c := c) ?ne ?same q.nodup_cores hq d
  case ne =>
    intro d a hne
    split
    · exact d.core_modCore_ne _ hne
    · rfl
  case same =>
    intro d
    split
    · exact d.core_modCore_same c _
    · rfl
  rw [Dev.passBarrier, hrel, if_pos ho, Core.released, if_pos hp]

end

section
variable {s : State} {k i id : Nat} {q : Run} (hk : k < 16) (hi : id < 256) (hq : s.dev.run? (k, i) = some q)
include hk hi hq

/-- A barrier at which a core has not arrived is not released. -/
theorem gives_localBarrierRelease_idle (hb : s.dev.barrierFull q id = false) : Gives (.localBarrierRelease k i id) s s.dev := by
  rw [Gives, exec, execLocalBarrierRelease]
  exact State.run_idle (by simp [hk, hi]) (by simp [hq, hb])

theorem gives_localBarrierRelease (hu : s.dev.up = true) (hc : q.checked = true) (hs : q.stopping = false)
    (hb : s.dev.barrierFull q id = true) : Gives (.localBarrierRelease k i id) s
      (((s.dev.passBarrier q id (Tab.get 0 q.released id)).modRun q.key
        (fun r => { r with released := Tab.set 0 r.released id (Tab.get 0 q.released id + 1) })).bump
        Reg.ARR_SEQ_OPS.COUNT q.cores.length) := by
  rw [Gives, exec, execLocalBarrierRelease]
  exact State.run_gives (by simp [hk, hi]) (by simp [hu, hq, hc, hs, hb]) (by simp only [hq]; rfl)

end

/-- Settles O36: each clause is the branch of its command that its hypotheses choose. -/
theorem eventsAndBarriers : Obligations.EventsAndBarriers := by
  unfold Obligations.EventsAndBarriers
  intro s c hc
  refine ⟨gives_wait_passed hc, gives_wait_held hc, fun i v hu hp hv hn hs => gives_waitMet hc hu hp hv hn hs, gives_waitTimeout hc,
    gives_coreStopAtBoundary hc, ?fires, ?queued, fun g rest hu hq hf => gives_signalFire hc hu hq hf, gives_barrier_local hc,
    gives_barrier_step hc, ?release⟩
  case fires =>
    intro ha hf hq
    refine (gives_signal_fires hc ha hf hq).runs ⟨?_, fun i hi => ?_, ?_, ?_⟩
    · rw [Dev.fire_evtGet, Dev.evtGet_evtAdd_same, Dev.passNext_evtGet]
    · rw [Dev.fire_evtGet, Dev.evtGet_evtAdd_ne _ _ hi, Dev.passNext_evtGet]
    · simp
    · simp
  case queued =>
    intro ha hf hl
    refine (gives_signal_queued hc ha hf hl).runs ⟨rfl, ?_, ?_⟩
    · simp [Dev.passNext]
    · simp [Dev.passNext]
  case release =>
    intro k i id q hk hi hu hq hch hst
    refine ⟨fun hb => gives_localBarrierRelease_idle hk hi hq hb, fun hb hm ho hp => ?_⟩
    exact (gives_localBarrierRelease hk hi hq hu hch hst hb).runs
      ⟨Dev.passBarrier_waiting (Run.mem_cores.mpr ⟨hc, hm⟩) ho hp, Dev.passBarrier_mem⟩

end Sys2Proof.Machine
end

section
/-! # What a write of this device's agents leaves

A write sends on what of it lies in mirrored ranges (R161), and breaks the mirror where the partner cannot be reached (R162): the cores
stay, and every register field but the mirror's state and what records and packets count. While the mirror holds, memory changes in
the written range alone. -/

namespace Sys2Proof.Machine

/-! ## Fields and cores -/

/-- The fields that a write can change: the state of the mirror, and what records and packets that leave count. -/
def mirrorFields : List Field := Reg.VLT_MIRROR_PEER.STATE :: recordFields ++ sendFields

theorem FieldsKept.of_regs {d e : Dev} (l : List Field) (h : e.regs = d.regs) : FieldsKept l d e := fun f _ => Dev.fld_of_regs h f

theorem FieldsKept.record (d : Dev) (r : FaultRec) : FieldsKept recordFields d (d.record r) := by
  obtain ⟨-, -, hfields, -⟩ := OnlyReports.record d r []
  exact hfields

theorem FieldsKept.setMirror (d : Dev) (st : Nat) : FieldsKept mirrorFields d (d.setMirror st) := by
  have hlost : FieldsKept mirrorFields d (if st = 1 then d else d.handoverBuddyLost) := by
    obtain ⟨-, hregs, -⟩ := quiet_handoverLost d
    split
    · exact .refl _ d
    · exact .of_regs _ hregs
  exact (hlost.trans (.setFld _ Reg.VLT_MIRROR_PEER.STATE st _ (by decide))).trans ((FieldsKept.record _ _).mono (by decide))

theorem FieldsKept.breakMirror (d : Dev) : FieldsKept mirrorFields d d.breakMirror := by
  unfold Dev.breakMirror
  dsimp only
  split
  · exact FieldsKept.trans (.of_regs _ rfl) (.setMirror _ 2)
  · exact .of_regs _ rfl

/-- What a mirror sends changes the counters of packets that leave. -/
theorem Dev.sends_mirrorParts (d : Dev) (l : List (Nat × Nat)) : Sends d (l.foldl (fun d p => d.mirrorSend p.1 p.2) d) :=
  Sends.fold (fun (d : Dev) (p : Nat × Nat) => d.mirrorSend p.1 p.2) (fun d p => sends_mirrorSend d p.1 p.2) l d

theorem FieldsKept.mirror (d : Dev) (a n : Nat) : FieldsKept mirrorFields d (d.mirror a n) := by
  unfold Dev.mirror
  dsimp only
  split
  · exact .refl _ d
  · split
    · exact .refl _ d
    · split
      · exact .breakMirror d
      · obtain ⟨-, hfields⟩ := d.sends_mirrorParts (d.mirrorParts a n)
        exact hfields.mono (by decide)

/-- What holds of no write and of one write after another holds of a write cut at the copy of the live table (R302). -/
theorem Dev.besideLive_rel {R : Dev → Dev → Prop} (hrefl : ∀ d, R d d) (htrans : ∀ d e f, R d e → R e f → R d f) {a n : Nat}
    {f : Dev → Nat → Nat → Dev} (hf : ∀ d x m, a ≤ x → x + m ≤ a + n → R d (f d x m)) (d : Dev) : R d (d.besideLive a n f) := by
  unfold Dev.besideLive
  extract_lets lo hi e
  split
  · rename_i hcut
    simp only [overlaps, Bool.and_eq_true, decide_eq_true_eq] at hcut
    have he : R d e := by
      unfold e
      split
      · exact hf d a _ le_rfl (by omega)
      · exact hrefl d
    split
    · exact htrans d e _ he (hf e hi _ (by omega) (by omega))
    · exact he
  · exact hf d a n le_rfl le_rfl

/-- The cores and every field that no write changes are as before. -/
def WriteKeeps (d e : Dev) : Prop := e.cores = d.cores ∧ FieldsKept mirrorFields d e

theorem WriteKeeps.trans {d e f : Dev} (h : WriteKeeps d e) (h' : WriteKeeps e f) : WriteKeeps d f :=
  ⟨h'.1.trans h.1, h.2.trans h'.2⟩

theorem WriteKeeps.of_eq {d e : Dev} (hc : e.cores = d.cores) (hr : e.regs = d.regs) : WriteKeeps d e := ⟨hc, .of_regs _ hr⟩

theorem WriteKeeps.mirror (d : Dev) (a n : Nat) : WriteKeeps d (d.mirror a n) := ⟨d.mirror_cores a n, .mirror d a n⟩

theorem Dev.storeFree_keeps (d : Dev) (a n : Nat) : WriteKeeps d (d.storeFree a n) :=
  Dev.besideLive_rel (fun _ => .of_eq rfl rfl) (fun _ _ _ => .trans)
    (fun d x m _ _ => WriteKeeps.trans (.of_eq rfl rfl) (.mirror (d.scramble x m) x m)) d

theorem Dev.copyKept_keeps (d : Dev) (src dst n : Nat) : WriteKeeps d (d.copyKept src dst n) := by
  refine WriteKeeps.trans (.of_eq ?_ ?_) (.mirror _ dst n)
  · exact foldl_keeps Dev.cores (fun m (p : Nat × Bool) => m.setPoison (dst + (max p.1 src - src))) (fun _ _ => rfl) _ (d.copy src dst n)
  · exact foldl_keeps Dev.regs (fun m (p : Nat × Bool) => m.setPoison (dst + (max p.1 src - src))) (fun _ _ => rfl) _ (d.copy src dst n)

/-! ## Memory -/

/-- A mirror that holds, or that sends nothing, changes no register but the counters of packets that leave. -/
theorem Dev.sends_mirror {d : Dev} (h : MirrorHolds d) (a n : Nat) : Sends d (d.mirror a n) := by
  unfold Dev.mirror
  dsimp only
  split
  · exact .refl d
  · rename_i hon
    have hpeer : d.peerGone (d.fld Reg.VLT_MIRROR_PEER.FLAT_ID) = false := by simp_all [MirrorHolds]
    rw [hpeer]
    split
    · exact .refl d
    · exact d.sends_mirrorParts _

theorem MemKeptOutside.trans {a n : Nat} {d e f : Dev} (h : MemKeptOutside a n d e) (h' : MemKeptOutside a n e f) :
    MemKeptOutside a n d f := fun q hq => (h' q hq).trans (h q hq)

/-- While the mirror holds, it goes on holding, and memory outside [a, a + n) is as before. -/
def WritesWithin (a n : Nat) (d e : Dev) : Prop := MirrorHolds d → MirrorHolds e ∧ MemKeptOutside a n d e

theorem WritesWithin.trans {a n : Nat} {d e f : Dev} (h : WritesWithin a n d e) (h' : WritesWithin a n e f) : WritesWithin a n d f := by
  intro hd
  obtain ⟨he, hmem⟩ := h hd
  obtain ⟨hf, hmem'⟩ := h' he
  exact ⟨hf, hmem.trans hmem'⟩

theorem WritesWithin.scramble {a n x m : Nat} (d : Dev) (hx : a ≤ x) (hm : x + m ≤ a + n) : WritesWithin a n d (d.scramble x m) := by
  refine fun hd => ⟨hd, fun q hq => Dev.peek_write_out d x q _ ?_⟩
  rw [List.length_map, List.length_range]
  omega

theorem WritesWithin.mirror {a n : Nat} (d : Dev) (x m : Nat) : WritesWithin a n d (d.mirror x m) :=
  fun hd => ⟨(Dev.sends_mirror hd x m).holds.1.mpr hd, fun q _ => d.mirror_peek x m q (.inl hd)⟩

theorem Dev.storeFree_within (d : Dev) (a n : Nat) : WritesWithin a n d (d.storeFree a n) :=
  Dev.besideLive_rel (fun _ hd => ⟨hd, fun _ _ => rfl⟩) (fun _ _ _ => .trans)
    (fun d x m hx hm => (WritesWithin.scramble d hx hm).trans (.mirror _ x m)) d

end Sys2Proof.Machine
end

section
/-! # The end of a program, pre-emption and restore

Settles O37. -/

namespace Sys2Proof.Machine

/-! ## The end of a program -/

section
variable {s : State} {c : Nat} (hc : c < 192)
include hc

theorem gives_endOp (ha : s.dev.atOp c 0x3F = true ∨ (s.dev.dispatches c = true ∧ s.dev.pastEnd c = true))
    (hv : (s.dev.core c).verdictOpen = false) :
    Gives (.endOp c) s (s.dev.setCore c { s.dev.core c with phase := .ending }) := by
  rw [Gives, exec, execEndOp]
  exact State.run_gives (coreOk_of hc) (by simpa [hv] using ha) rfl

variable (hu : s.dev.up = true)
include hu

theorem gives_programComplete (hp : (s.dev.core c).phase = .ending) (ho : (s.dev.core c).ops = [])
    (hg : (s.dev.core c).signals = []) : Gives (.programComplete c) s
      (((s.dev.setCore c { s.dev.core c with phase := .ended }).bump Reg.ARR_SEQ_OPS.COUNT 1).checkOwnerEnd c) := by
  rw [Gives, exec, execProgramComplete]
  exact State.run_gives (coreOk_of hc) (by simp [hu, hp, Core.fenced, ho, hg]) rfl

end

/-- A core that no RUN holds ends no RUN. -/
theorem Dev.checkOwnerEnd_unowned {d : Dev} {c : Nat} (h : (d.core c).owner = none) : d.checkOwnerEnd c = d := by
  simp only [Dev.checkOwnerEnd, h]

/-! ## The save -/

/-- An entry that is not the default is found in the table after its write. -/
theorem Tab.find?_set {α : Type} [DecidableEq α] {dflt x : α} (t : Tab α) (q : Nat) (h : x ≠ dflt) :
    (Tab.set dflt t q x).find? (fun e => e.1 = q) = some (q, x) := by
  rw [Tab.set, if_neg h]
  have hkeys := Tab.erase_keys t q
  generalize Tab.erase t q = u at hkeys
  induction u with
  | nil => simp [Tab.insert]
  | cons p u ih =>
    rw [Tab.insert]
    split
    · simp
    · rw [List.find?_cons_of_neg (by simpa using hkeys p List.mem_cons_self)]
      exact ih fun e he => hkeys e (List.mem_cons_of_mem p he)

theorem Dev.modOwner_frame (d : Dev) (c : Nat) (f : Run → Run) : d.modOwner c f = { d with runs := (d.modOwner c f).runs } := by
  unfold Dev.modOwner
  split <;> rfl

/-- A RUN that holds a core holds it as changed. -/
theorem Dev.ownerRun_modOwner {d : Dev} {c : Nat} {q : Run} {f : Run → Run} (hf : ∀ r, (f r).key = r.key) (h : d.ownerRun c = some q) :
    (d.core c).owner.bind (d.modOwner c f).run? = some (f q) := by
  obtain ⟨k, hk, hq⟩ := Option.bind_eq_some_iff.mp h
  simp only [Dev.modOwner, hk, Option.bind_some]
  exact Dev.run?_modRun hf hq

theorem Core.toSave_owner (x : Core) : x.toSave.owner = x.owner := by
  unfold Core.toSave Core.dropShadow
  dsimp only
  split <;> rfl

/-- The record that a core's save forms (R113). -/
def Dev.saveRecord (d : Dev) (c : Nat) : Core := { (d.core c).toSave with area := d.saveArea c }

/-- What a core that saves leaves on the device: its record with its RUN, and the longest wait for a boundary. -/
def Dev.saveBegun (d : Dev) (c cycles : Nat) : Dev :=
  let e := d.modOwner c (fun r => { r with saved := Tab.set Core.init r.saved c (d.saveRecord c) })
  (e.setFld Reg.ARR_PREEMPT_MAX.CYCLES (max (e.fld Reg.ARR_PREEMPT_MAX.CYCLES) (satTo 0xFFFFFF cycles))).setCore c
    { d.core c with phase := .saving, area := d.saveArea c }

theorem satTo_eq_min (top n : Nat) : satTo top n = min top n := by
  unfold satTo
  split <;> omega

section
variable (d : Dev) (c n : Nat)

theorem Dev.saveBegun_core_same : (d.saveBegun c n).core c = { d.core c with phase := .saving, area := d.saveArea c } :=
  Dev.core_setCore_same _ c _

theorem Dev.saveBegun_core_ne {k : Nat} (h : k ≠ c) : (d.saveBegun c n).core k = d.core k := by
  rw [Dev.saveBegun, Dev.core_setCore_ne _ _ h, Dev.core_setFld, Dev.core, Dev.core, Dev.modOwner_frame]

theorem Dev.saveBegun_mem : (d.saveBegun c n).mem = d.mem := by
  rw [Dev.saveBegun, Dev.setCore_mem, Dev.setFld_mem, Dev.modOwner_frame]

theorem Dev.saveBegun_longestWait : (d.saveBegun c n).fld Reg.ARR_PREEMPT_MAX.CYCLES =
    max (d.fld Reg.ARR_PREEMPT_MAX.CYCLES) (min 0xFFFFFF n) % 2 ^ Reg.ARR_PREEMPT_MAX.CYCLES.w := by
  rw [Dev.saveBegun, Dev.fld_setCore, Dev.fld_setFld_same, Dev.modOwner_frame, ← satTo_eq_min]
  rfl

end

/-- The record stands with the RUN that holds the core: it names its owner, so it is no core that is free. -/
theorem Dev.saveBegun_savedCore {d : Dev} {c n : Nat} {q : Run} (h : d.ownerRun c = some q) :
    (d.saveBegun c n).savedCore c = some (d.saveRecord c) := by
  have hne : d.saveRecord c ≠ Core.init := by
    intro he
    obtain ⟨k, hk, -⟩ := Option.bind_eq_some_iff.mp h
    have hnone : (d.core c).toSave.owner = none := congrArg Core.owner he
    rw [Core.toSave_owner, hk] at hnone
    cases hnone
  have howner : (d.saveBegun c n).ownerRun c = some { q with saved := Tab.set Core.init q.saved c (d.saveRecord c) } := by
    rw [Dev.ownerRun, Dev.saveBegun_core_same]
    exact Dev.ownerRun_modOwner (fun _ => rfl) h
  rw [Dev.savedCore, howner, Option.bind_some, Tab.find?_set _ _ hne, Option.map_some]

/-! ## The end of the save -/

/-- The save area as written: the record's bytes are free ones, behind them stands the window (R113). -/
def Dev.saveWritten (d : Dev) (c : Nat) : Dev :=
  let w := (d.core c).area
  if w.2.1 = 0 then d.storeFree w.2.2 4096 else (d.storeFree w.2.2 4096).copyKept (sramAt c w.1) (w.2.2 + 4096) w.2.1

/-- A save that has ended is counted, and the longest one kept. -/
def Dev.saveCounted (d : Dev) (c micros : Nat) : Dev :=
  let e := (d.saveWritten c).bumpSat Reg.ARR_PREEMPTS.SAVES 1
  e.setFld Reg.ARR_SAVE_MAX.SAVE_US (max (e.fld Reg.ARR_SAVE_MAX.SAVE_US) (satTo 0xFFFF micros))

/-- The core is free, waiting RUNs get cores, and the RUN k that held it ends where all its cores are done (R115, R199). -/
def Dev.coreFreed (d : Dev) (c : Nat) (k : Option (Nat × Nat)) : Dev :=
  match k with
  | some k => (d.setCore c Core.init).grantRuns.checkRunEnd k
  | none => (d.setCore c Core.init).grantRuns

section
variable (d : Dev) (c n : Nat)

theorem Dev.saveWritten_keeps : WriteKeeps d (d.saveWritten c) := by
  unfold Dev.saveWritten
  dsimp only
  split
  · exact d.storeFree_keeps _ _
  · exact (d.storeFree_keeps _ _).trans (Dev.copyKept_keeps _ _ _ _)

theorem Dev.saveCounted_core (k : Nat) : (d.saveCounted c n).core k = d.core k :=
  congrArg (fun t => Tab.get Core.init t k) (d.saveWritten_keeps c).1

theorem Dev.saveCounted_saves : (d.saveCounted c n).fld Reg.ARR_PREEMPTS.SAVES =
    min (2 ^ Reg.ARR_PREEMPTS.SAVES.w - 1) (d.fld Reg.ARR_PREEMPTS.SAVES + 1) := by
  rw [Dev.saveCounted, Dev.fld_setFld_ne _ _ (by decide), Dev.fld_bumpSat_same, (d.saveWritten_keeps c).2 _ (by decide)]

/-- A save without a window writes the record's 4 KiB alone. -/
theorem Dev.saveCounted_memKept (hm : MirrorHolds d) (hw : (d.core c).area.2.1 = 0) :
    MemKeptOutside (d.core c).area.2.2 4096 d (d.saveCounted c n) := by
  have hwritten : d.saveWritten c = d.storeFree (d.core c).area.2.2 4096 := if_pos hw
  obtain ⟨-, hmem⟩ := d.storeFree_within (d.core c).area.2.2 4096 hm
  rw [← hwritten] at hmem
  exact hmem

end

section
variable {s : State} {c : Nat} (hc : c < 192) (hu : s.dev.up = true)
include hc hu

theorem gives_preemptRequest (hd : s.dev.preemptDue c = true) :
    Gives (.preemptRequest c) s (s.dev.setCore c { s.dev.core c with preempt := true }) := by
  rw [Gives, exec, execPreemptRequest]
  exact State.run_gives (coreOk_of hc) (by rw [hu, hd]; rfl) rfl

theorem gives_preemptSave (n : Nat) (hs : (s.dev.core c).savable = true) :
    Gives (.preemptSave c n) s (s.dev.saveBegun c n) := by
  rw [Gives, exec, execPreemptSave]
  exact State.run_gives (coreOk_of hc) (by rw [hu, hs]; rfl) rfl

theorem gives_preemptSaveDone (n : Nat) (hp : (s.dev.core c).phase = .saving) :
    Gives (.preemptSaveDone c n) s ((s.dev.saveCounted c n).coreFreed c (s.dev.core c).owner) := by
  rw [Gives, exec, execPreemptSaveDone, ← s.dev.saveCounted_core c n]
  exact State.run_gives (coreOk_of hc) (by simp [hu, hp, Dev.saveCounted_core]) rfl

theorem gives_preemptRestore {x : Core} (hp : (s.dev.core c).phase = .restoring) (hx : s.dev.savedCore c = some x) :
    Gives (.preemptRestore c) s (s.dev.readBack c x) := by
  rw [Gives, exec, execPreemptRestore]
  exact State.run_gives (coreOk_of hc) (by simp [hu, hp, hx]) (by simp only [hx])

end

/-! ## The end of the restore -/

/-- The core takes up its record, the RUN holds it no more as saved, the resume is counted (R114, R115). -/
def Dev.resumed (d : Dev) (c micros : Nat) (q : Run) (x : Core) : Dev :=
  let e := d.setCore c { x with owner := (d.core c).owner, preempt := (d.core c).preempt }
  let e := e.modCore c (·.passReleased q)
  let e := e.modRun q.key (fun r => { r with saved := Tab.erase r.saved c })
  let e := e.bumpSat Reg.ARR_PREEMPTS.RESUMES 1
  e.setFld Reg.ARR_SAVE_MAX.RESTORE_US (max (e.fld Reg.ARR_SAVE_MAX.RESTORE_US) (satTo 0xFFFF micros))

section
variable (d : Dev) (c n : Nat) (q : Run) (x : Core)

/-- A core that was saved at no barrier is as its record says. -/
theorem Dev.resumed_core (hx : x.phase = .running) :
    (d.resumed c n q x).core c = { x with owner := (d.core c).owner, preempt := (d.core c).preempt } := by
  have hpass : ({ x with owner := (d.core c).owner, preempt := (d.core c).preempt } : Core).passReleased q =
      { x with owner := (d.core c).owner, preempt := (d.core c).preempt } := by
    simp only [Core.passReleased, hx]
  rw [Dev.resumed, Dev.core_setFld, Dev.core_bumpSat, Dev.core_modRun, Dev.core_modCore_same, Dev.core_setCore_same, hpass]

theorem Dev.resumed_mem : (d.resumed c n q x).mem = d.mem := by
  rw [Dev.resumed, Dev.setFld_mem, Dev.bumpSat_mem, Dev.modRun_mem, Dev.modCore, Dev.setCore_mem, Dev.setCore_mem]

theorem Dev.resumed_resumes : (d.resumed c n q x).fld Reg.ARR_PREEMPTS.RESUMES =
    min (2 ^ Reg.ARR_PREEMPTS.RESUMES.w - 1) (d.fld Reg.ARR_PREEMPTS.RESUMES + 1) := by
  rw [Dev.resumed, Dev.fld_setFld_ne _ _ (by decide), Dev.fld_bumpSat_same, Dev.fld_of_regs (Dev.modRun_regs _ _ _),
    Dev.modCore, Dev.fld_setCore, Dev.fld_setCore]

end

theorem Dev.reloadActive_none {d : Dev} {c : Nat} (h : (d.core c).active = none) : d.reloadActive c = d := by
  simp only [Dev.reloadActive, h]

theorem gives_preemptRestoreDone {s : State} {c : Nat} (n : Nat) {x : Core} {q : Run} (hc : c < 192) (hu : s.dev.up = true)
    (hp : (s.dev.core c).phase = .reloading) (hx : s.dev.savedCore c = some x) (hq : s.dev.ownerRun c = some q) :
    Gives (.preemptRestoreDone c n) s ((s.dev.resumed c n q x).reloadActive c).grantRuns := by
  rw [Gives, exec, execPreemptRestoreDone]
  exact State.run_gives (coreOk_of hc) (by simp [hu, hp, hx]) (by simp only [hq, hx]; rfl)

/-- A core that resumes, with no active tile to load again, goes on where its record stood; the RUNs that then get cores do not
get this one. -/
theorem runs_preemptRestoreDone {s : State} {c : Nat} (n : Nat) {x : Core} {q : Run} (hc : c < 192) (hu : s.dev.up = true)
    (hp : (s.dev.core c).phase = .reloading) (hx : s.dev.savedCore c = some x) (hq : s.dev.ownerRun c = some q)
    (ha : x.active = none) (hr : x.phase = .running) : Runs (.preemptRestoreDone c n) s (fun e =>
      (e.core c).phase = .running ∧ (e.core c).next = x.next ∧ (e.core c).ops = x.ops ∧ e.mem = s.dev.mem ∧
      e.fld Reg.ARR_PREEMPTS.RESUMES =
        min (2 ^ Reg.ARR_PREEMPTS.RESUMES.w - 1) (s.dev.fld Reg.ARR_PREEMPTS.RESUMES + 1)) := by
  have hgo := gives_preemptRestoreDone n hc hu hp hx hq
  have hcore := s.dev.resumed_core c n q x hr
  have hheld : ((s.dev.resumed c n q x).core c).owner ≠ none := by
    obtain ⟨k, hk, -⟩ := Option.bind_eq_some_iff.mp hq
    rw [hcore]
    exact fun h => by cases hk.symm.trans h
  rw [Dev.reloadActive_none (by rw [hcore]; exact ha)] at hgo
  refine hgo.runs ?_
  rw [Dev.grantRuns_core_held hheld, hcore, Dev.grantRuns_mem, Dev.resumed_mem, Dev.grantRuns_fld, Dev.resumed_resumes]
  exact ⟨hr, rfl, rfl, rfl, rfl⟩

/-- Settles O37: the branches of END, of the save and of the restore that the hypotheses choose. -/
theorem preemption : Obligations.Preemption := by
  unfold Obligations.Preemption
  refine ⟨fun s c hc => ⟨gives_endOp hc, gives_programComplete hc, ?unowned⟩, fun s c hc hu => ⟨gives_preemptRequest hc hu, ?save,
    ?saveDone, fun x hp hx => gives_preemptRestore hc hu hp hx, fun n x q hp hx hq ha hr =>
      runs_preemptRestoreDone n hc hu hp hx hq ha hr⟩⟩
  case unowned =>
    intro hu hp ho hg hn
    have hend := gives_programComplete hc hu hp ho hg
    rw [Dev.checkOwnerEnd_unowned (by simpa using hn)] at hend
    exact hend.runs ⟨by simp, Dev.fld_bump_same _ _ _, rfl⟩
  case save =>
    intro n hs
    exact (gives_preemptSave hc hu n hs).runs ⟨s.dev.saveBegun_core_same c n, fun q hq => Dev.saveBegun_savedCore hq,
      s.dev.saveBegun_longestWait c n, s.dev.saveBegun_mem c n, fun k hk => s.dev.saveBegun_core_ne c n hk⟩
  case saveDone =>
    intro n hp
    have hend := gives_preemptSaveDone hc hu n hp
    refine ⟨(s.dev.saveCounted c n).setCore c Core.init, Dev.core_setCore_same _ _ _,
      (Dev.fld_setCore _ _ _ _).trans (s.dev.saveCounted_saves c n), s.dev.saveCounted_memKept c n, fun ho => ?_, fun k ho => ?_⟩
    · rw [ho] at hend
      exact hend
    · rw [ho] at hend
      exact hend

end Sys2Proof.Machine
end

section
/-! # One vector instruction of a context: its execution, and what stops it

Settles O38 and O43. -/

namespace Sys2Proof.Machine

/-! ## Execution -/

/-- What the instruction w makes of a context and of memory (R120). -/
def Dev.vecOut (d : Dev) (x w : Nat) : VecOut :=
  vecStep (d.vecEnv x) (d.updExp ((d.ctx x).cr 1 % 4096)) (d.vecLoad x) (d.ctx x) w

/-- No effect of an instruction stops it: what stops one is found before it takes effect (R136). -/
theorem vecEffect_stop (e : VecEnv) (u : Int) (load : Nat → Byte) (y : VecCtx) (w : Nat) : (vecEffect e u load y w).stop = none := by
  unfold vecEffect
  split
  case h_6 => unfold vcvt; dsimp only; split <;> rfl
  all_goals rfl

theorem Dev.vecOut_stop (d : Dev) (x w : Nat) : (d.vecOut x w).stop = none := vecEffect_stop ..

/-- The device after an SRAM read of context x met the errors k; an update core reads no SRAM. -/
def Dev.vecMeets (d : Dev) (x : Nat) (k : Ecc) : Dev := if isUpd x then d else d.meetEcc k

@[simp] theorem Dev.vecMeets_noEcc (d : Dev) (x : Nat) : d.vecMeets x noEcc = d := ite_self d

theorem Dev.vecExec_applied {d : Dev} {x w : Nat} {k : Ecc} (hw : d.vecWord x = w) (hf : d.firstPoison (d.ctx x).fetchAt 4 = none)
    (hs : vecStopOf (d.vecEnv x) (d.ctx x) w = none) (hp : (d.vecMeets x k).loadPoison x w = none) :
    d.vecExec x k = (d.vecMeets x k).vecApply x ((d.vecMeets x k).vecOut x w) := by
  have hstop := (d.vecMeets x k).vecOut_stop x w
  rw [Dev.vecMeets] at hp hstop ⊢
  rw [Dev.vecOut] at hstop ⊢
  simp only [Dev.vecExec, hw, hf, hs, hp, hstop]

theorem Dev.vecDue_of_goes {d : Dev} {x w op : Nat} (hg : VecGoes d x w) (hop : vOp w = op) : d.vecDue x op = true := by
  obtain ⟨hr, hw, hd, hl, -, -, -⟩ := hg
  simp [Dev.vecDue, hr, hw, hd, hl, hop]

section
variable {s : State} {x w op : Nat} {c : Instr} (hx : x < 256) (hg : VecGoes s.dev x w) (hop : vOp w = op)
include hx hg hop

/-- A load whose read finds no poison, of memory or of the errors k. -/
theorem gives_vecLoadCmd {k : Ecc} (hc : exec c s = s.vecLoadCmd x op k) (hp : (s.dev.vecMeets x k).loadPoison x w = none) :
    Gives c s ((s.dev.vecMeets x k).vecApply x ((s.dev.vecMeets x k).vecOut x w)) := by
  have hdue := Dev.vecDue_of_goes hg hop
  obtain ⟨-, hw, -, -, hf, hs, -⟩ := hg
  exact .of_run hc (decide_eq_true hx) hdue (Dev.vecExec_applied hw hf hs hp)

theorem gives_vecCmd (hc : exec c s = s.vecCmd x op) : Gives c s (s.dev.vecApply x (s.dev.vecOut x w)) := by
  obtain ⟨-, -, -, -, -, -, hp⟩ := id hg
  have hgo := gives_vecLoadCmd (k := noEcc) hx hg hop hc (by rwa [Dev.vecMeets_noEcc])
  rwa [Dev.vecMeets_noEcc] at hgo

end

/-- Settles O38: every command of the two lists is the execution of its opcode in the context. -/
theorem vectorSteps : Obligations.VectorSteps := by
  unfold Obligations.VectorSteps
  intro s x w hx hg
  refine ⟨fun c op hmem hop => gives_vecCmd hx hg hop ?plain, fun k d c op hd hp hmem hop => ?loads⟩
  case plain =>
    exact (List.forall_iff_forall_mem (p := fun q : Instr × Nat => exec q.1 s = s.vecCmd x q.2)).mp (by and_intros <;> rfl) _ hmem
  case loads =>
    subst hd
    refine gives_vecLoadCmd hx hg hop ?_ hp
    exact (List.forall_iff_forall_mem (p := fun q : Instr × Nat => exec q.1 s = s.vecLoadCmd x q.2 k)).mp (by and_intros <;> rfl) _ hmem

/-! ## Stops -/

theorem not_isUpd {x : Nat} (hx : x < 192) : isUpd x = false := decide_eq_false (Nat.not_le.mpr hx)

theorem ctxOk_of_core {x : Nat} (hx : x < 192) : ctxOk x = true := decide_eq_true (by omega)

/-- A condition of R136 is met before SRAM is read. -/
theorem Dev.vecExec_refused {d : Dev} {x : Nat} {k : Ecc} {r : VecStop} (hf : d.firstPoison (d.ctx x).fetchAt 4 = none)
    (hs : vecStopOf (d.vecEnv x) (d.ctx x) (d.vecWord x) = some r) : d.vecExec x k = d.vecRefuse x r := by
  simp only [Dev.vecExec, hf, hs]

theorem vecStopOf_undefined {e : VecEnv} {y : VecCtx} {w : Nat} (h : vecDefined w = false) :
    vecStopOf e y w = some .undefined := by simp [vecStopOf, h]

section
variable {d : Dev} {x : Nat} (hx : x < 192)
include hx

/-- The context of a core's stopped program runs nothing any more, and the VEC stops with the instruction's number. -/
theorem Dev.vecStop_core (st : Status) (aux : Nat) : d.vecStop x st aux =
    (d.setCtx x VecCtx.init).stopOp x (d.ctx x).pos ⟨st, ⟨0, x, 0xFF, (d.ctx x).pos, (d.ctx x).pc, aux⟩⟩ := by
  simp [Dev.vecStop, not_isUpd hx]

theorem Dev.vecRefuse_undefined :
    d.vecRefuse x .undefined = (d.bumpSat Reg.ARR_VEC_STOPS.FIELD 1).vecStop x .badField 0 := by
  simp [Dev.vecRefuse, not_isUpd hx]

theorem Dev.vecRefuse_access {r : VecStop} (hr : r = .misaligned ∨ r = .range) : d.vecRefuse x r =
    ((d.bumpSat Reg.ARR_VEC_STOPS.FIELD 1).bumpSat Reg.ARR_VEC_STOPS.RANGE 1).vecStop x .badField 0 := by
  simp [Dev.vecRefuse, not_isUpd hx, hr]

end

section
variable {s : State} {x : Nat} {e : Dev} (hx : x < 192) (hr : s.dev.vecRuns x = true)
include hx hr

theorem gives_vecUndefined (hd : vecDefined (s.dev.vecWord x) = false) (hf : s.dev.firstPoison (s.dev.ctx x).fetchAt 4 = none)
    (he : s.dev.vecRefuse x .undefined = e) : Gives (.vecUndefined x) s e := by
  rw [Gives, exec, execVecUndefined]
  exact State.run_gives (ctxOk_of_core hx) (by simp [hr, hd]) ((Dev.vecExec_refused hf (vecStopOf_undefined hd)).trans he)

theorem gives_vecLimitExceeded (hl : s.dev.vecSpent x = true)
    (hs : vecStopOf (s.dev.vecEnv x) (s.dev.ctx x) (s.dev.vecWord x) = none)
    (he : (s.dev.bumpSat Reg.ARR_VEC_STOPS.LIMIT 1).vecStop x .timeout 0 = e) : Gives (.vecLimitExceeded x) s e := by
  rw [Gives, exec, execVecLimitExceeded]
  exact State.run_gives (ctxOk_of_core hx) (by simp [hr, hl, hs]) (by simpa [not_isUpd hx] using he)

/-- A defined instruction that meets a condition of R136 is refused, also past the limit. -/
theorem gives_vecCmd_refused {c : Instr} {op : Nat} {r : VecStop} (hc : exec c s = s.vecCmd x op) (hop : vOp (s.dev.vecWord x) = op)
    (hd : vecDefined (s.dev.vecWord x) = true) (hf : s.dev.firstPoison (s.dev.ctx x).fetchAt 4 = none)
    (hs : vecStopOf (s.dev.vecEnv x) (s.dev.ctx x) (s.dev.vecWord x) = some r) (he : s.dev.vecRefuse x r = e) : Gives c s e :=
  .of_run hc (ctxOk_of_core hx) (by simp [Dev.vecDue, hr, hop, hd, hs]) ((Dev.vecExec_refused hf hs).trans he)

end

/-- Settles O43: the refusal that each condition leads to, with its counters. -/
theorem vectorStops : Obligations.VectorStops := by
  unfold Obligations.VectorStops
  intro s x hx hr
  refine ⟨fun hd hf => gives_vecUndefined hx hr hd hf ?_, fun hl hs => gives_vecLimitExceeded hx hr hl hs ?_, fun hop hd hf hs => ?_⟩
  · rw [Dev.vecRefuse_undefined hx]
    exact Dev.vecStop_core hx .badField 0
  · exact Dev.vecStop_core hx .timeout 0
  · obtain ⟨r, hs, hacc⟩ : ∃ r, vecStopOf (s.dev.vecEnv x) (s.dev.ctx x) (s.dev.vecWord x) = some r ∧ (r = .misaligned ∨ r = .range) :=
      hs.elim (fun h => ⟨_, h, .inl rfl⟩) (fun h => ⟨_, h, .inr rfl⟩)
    refine gives_vecCmd_refused hx hr rfl hop hd hf hs ?_
    rw [Dev.vecRefuse_access hx hacc]
    exact Dev.vecStop_core hx .badField 0

end Sys2Proof.Machine
end

section
/-! # Registers of a vector context, and the device after an instruction

What a write of a register leaves of a context (R117, R123), where an instruction leaves the code (R120), and what the instruction
of a core that nothing stops leaves of the device. -/

namespace Sys2Proof.Machine

/-! ## Registers -/

/-- D names one of 32 registers. -/
theorem vD_lt (w : Nat) : vD w < 32 := bits_lt w 21 5

theorem vImm_eq (w : Nat) : vImm w = w % 65536 := rfl

section
variable (y : VecCtx)

@[simp] theorem VecCtx.sr_zero : y.sr 0 = 0 := rfl

@[simp] theorem VecCtx.setS_v (i : Nat) (a : Word) : (y.setS i a).v = y.v := by unfold VecCtx.setS; split <;> rfl
@[simp] theorem VecCtx.setS_pc (i : Nat) (a : Word) : (y.setS i a).pc = y.pc := by unfold VecCtx.setS; split <;> rfl

/-- s0 ignores what is written to it. -/
theorem VecCtx.sr_setS_same {i : Nat} (a : Word) (h : i < y.s.length) : (y.setS i a).sr i = if i = 0 then 0 else a := by
  unfold VecCtx.setS
  split
  · rename_i h0
    rw [h0, VecCtx.sr_zero]
  · rename_i h0
    simp [VecCtx.sr, h0, h]

theorem VecCtx.sr_setS_ne {i j : Nat} (a : Word) (h : j ≠ i) : (y.setS i a).sr j = y.sr j := by
  unfold VecCtx.setS
  split
  · rfl
  · simp [VecCtx.sr, List.getElem?_set_ne h.symm]

@[simp] theorem VecCtx.setP_s (i n : Nat) : (y.setP i n).s = y.s := by unfold VecCtx.setP; split <;> rfl
@[simp] theorem VecCtx.setP_v (i n : Nat) : (y.setP i n).v = y.v := by unfold VecCtx.setP; split <;> rfl

/-- p0 ignores what is written to it. -/
theorem VecCtx.setP_zero (n : Nat) : y.setP 0 n = y := rfl

theorem VecCtx.getD_setP {i : Nat} (n : Nat) (h0 : i ≠ 0) (h : i < y.p.length) : (y.setP i n).p.getD i 0 = n := by
  simp [VecCtx.setP, h0, h]

theorem VecCtx.pr_setP_same {i : Nat} (n l : Nat) (h0 : i ≠ 0) (h : i < y.p.length) : (y.setP i n).pr i l = bit n l := by
  rw [VecCtx.pr, y.getD_setP n h0 h]
  simp [h0]

theorem VecCtx.prWord_setP_same {lanes i : Nat} (n : Nat) (h0 : i ≠ 0) (h : i < y.p.length) :
    (y.setP i n).prWord lanes i = n := by
  rw [VecCtx.prWord, if_neg h0, y.getD_setP n h0 h]

end

/-! ## Where the code goes -/

section
variable (y : VecCtx) (t : Option Nat)

/-- A move changes the position and whether the code runs on, and nothing else. -/
theorem VecCtx.goto_frame : y.goto t = { y with pc := (y.goto t).pc, run := (y.goto t).run, ended := (y.goto t).ended } := by
  unfold VecCtx.goto
  split
  · split <;> rfl
  · rfl

theorem VecCtx.goto_inside {n : Nat} (h : n < y.count) : y.goto (some n) = { y with pc := n } := if_pos h

theorem VecCtx.advance_pc : y.advance.pc = y.pc + 1 := by
  unfold VecCtx.advance VecCtx.goto
  dsimp only
  split <;> rfl

/-- The target of a branch that stays within the code. -/
theorem VecCtx.target_inside {w n : Nat} (hn : (n : Int) = y.pc + sext 16 (w % 65536)) (h : n < y.count) :
    y.target w = some n := by
  simp only [VecCtx.target, vImm_eq, ← hn]
  simp [h]

/-- The target of a branch that leaves the code. -/
theorem VecCtx.target_outside {w : Nat}
    (h : (y.pc : Int) + sext 16 (w % 65536) < 0 ∨ (y.count : Int) ≤ y.pc + sext 16 (w % 65536)) : y.target w = none := by
  simp only [VecCtx.target, vImm_eq]
  refine if_neg fun hin => ?_
  obtain ⟨hlo, hhi⟩ := (Bool.and_eq_true _ _).mp hin
  have hge := of_decide_eq_true hlo
  have hlt := of_decide_eq_true hhi
  omega

end

section
variable {y x : VecCtx} {w : Nat}

theorem vecNext_halt (h : vOp w = 0) : vecNext y x w = { y with run := false, ended := true } := if_pos h

theorem vecNext_plain (h : 0 < vOp w) (h' : vOp w < 0x30) : vecNext y x w = y.advance := by
  rw [vecNext, if_neg (by omega), if_neg (by omega)]

theorem vecNext_branch (h : 0x30 ≤ vOp w) : vecNext y x w =
    if branchTaken (vOp w) (x.sr (vD w)) (x.sr (vA w)) then y.goto (x.target w) else y.advance := by
  rw [vecNext, if_neg (by omega), if_pos h]

/-- Where the code goes, the registers stay. -/
theorem vecNext_frame (y x : VecCtx) (w : Nat) : vecNext y x w =
    { y with pc := (vecNext y x w).pc, run := (vecNext y x w).run, ended := (vecNext y x w).ended } := by
  unfold vecNext VecCtx.advance
  split
  · rfl
  · split
    · split <;> exact y.goto_frame _
    · exact y.goto_frame _

end

/-- The context y that an instruction of x made, moved on and with the instruction counted (R120). -/
def vecAfter (y x : VecCtx) (w : Nat) : VecCtx := { vecNext y x w with executed := x.executed + 1 }

section
variable (y x : VecCtx) (w : Nat)

@[simp] theorem vecAfter_s : (vecAfter y x w).s = y.s := by rw [vecAfter, vecNext_frame]
@[simp] theorem vecAfter_v : (vecAfter y x w).v = y.v := by rw [vecAfter, vecNext_frame]
@[simp] theorem vecAfter_p : (vecAfter y x w).p = y.p := by rw [vecAfter, vecNext_frame]
@[simp] theorem vecAfter_sr (i : Nat) : (vecAfter y x w).sr i = y.sr i := by simp [VecCtx.sr]
@[simp] theorem vecAfter_lane (i l : Nat) : (vecAfter y x w).lane i l = y.lane i l := by simp [VecCtx.lane]
@[simp] theorem vecAfter_pr (i l : Nat) : (vecAfter y x w).pr i l = y.pr i l := by simp [VecCtx.pr]
@[simp] theorem vecAfter_prWord (n i : Nat) : (vecAfter y x w).prWord n i = y.prWord n i := by simp [VecCtx.prWord]

variable {y x w}

theorem vecAfter_pc (h : 0 < vOp w) (h' : vOp w < 0x30) : (vecAfter y x w).pc = y.pc + 1 := by
  rw [vecAfter, vecNext_plain h h']
  exact y.advance_pc

end

/-! ## Effects -/

section
variable {e : VecEnv} {u : Int} {load : Nat → Byte} {y : VecCtx} {w : Nat}

theorem vecEffect_vfp (h : vOp w = 0x01) : vecEffect e u load y w = .regs (vfp e.lanes y w) := by simp only [vecEffect, h]

theorem vecEffect_vint (h : vOp w = 0x02) : vecEffect e u load y w = .regs (vint e.lanes y w) := by simp only [vecEffect, h]

theorem vecEffect_vcmp (h : vOp w = 0x03) : vecEffect e u load y w = .regs (vcmp e.lanes y w) := by simp only [vecEffect, h]

theorem vecEffect_vpred (h : vOp w = 0x08) : vecEffect e u load y w = .regs (vpred e.lanes y w) := by simp only [vecEffect, h]

theorem vecEffect_load (h : 0x10 ≤ vOp w) (h' : vOp w ≤ 0x14) : vecEffect e u load y w = .regs (vload e.lanes load y w) := by
  obtain h | h | h | h | h : vOp w = 0x10 ∨ vOp w = 0x11 ∨ vOp w = 0x12 ∨ vOp w = 0x13 ∨ vOp w = 0x14 := by omega
  all_goals simp only [vecEffect, h]

theorem vecEffect_store (h : 0x18 ≤ vOp w) (h' : vOp w ≤ 0x1C) :
    vecEffect e u load y w = ⟨y, vstore e.lanes load y w, 0, 0, 0, none⟩ := by
  obtain h | h | h | h | h : vOp w = 0x18 ∨ vOp w = 0x19 ∨ vOp w = 0x1A ∨ vOp w = 0x1B ∨ vOp w = 0x1C := by omega
  all_goals simp only [vecEffect, h]

theorem vecEffect_salu (h : vOp w = 0x20) :
    vecEffect e u load y w = .regs (y.setS (vD w) (salu (vFn w) (y.sr (vA w)) (y.sr (vB w)))) := by simp only [vecEffect, h]

theorem vecEffect_saddi (h : vOp w = 0x21) :
    vecEffect e u load y w = .regs (y.setS (vD w) (y.sr (vA w) + immWord w)) := by simp only [vecEffect, h]

theorem vecEffect_slui (h : vOp w = 0x22) :
    vecEffect e u load y w = .regs (y.setS (vD w) (BitVec.ofNat 32 (vImm w * 65536))) := by simp only [vecEffect, h]

theorem vecEffect_sori (h : vOp w = 0x23) :
    vecEffect e u load y w = .regs (y.setS (vD w) (y.sr (vA w) ||| BitVec.ofNat 32 (vImm w))) := by simp only [vecEffect, h]

theorem vecEffect_sld (h : vOp w = 0x24) : vecEffect e u load y w = .regs (y.setS (vD w)
    (BitVec.ofNat 32 (leNat ((List.range 4).map (fun i => load ((y.sr (vA w) + immWord w).toNat + i)))))) := by
  simp only [vecEffect, h]

theorem vecEffect_sst (h : vOp w = 0x25) : vecEffect e u load y w = ⟨y, (List.range 4).map (fun i =>
    ((y.sr (vA w) + immWord w).toNat + i, BitVec.ofNat 8 ((y.sr (vD w)).toNat / 256 ^ i))), 0, 0, 0, none⟩ := by
  simp only [vecEffect, h]

theorem vecEffect_mfc (h : vOp w = 0x27) :
    vecEffect e u load y w = .regs (y.setS (vD w) (BitVec.ofNat 32 (readCtl e y (vImm w % 16)))) := by simp only [vecEffect, h]

/-- HALT and the branches change no register. -/
theorem vecEffect_move (h : vOp w = 0 ∨ 0x30 ≤ vOp w) : vecEffect e u load y w = .regs y := by
  unfold vecEffect
  split
  case h_27 => rfl
  all_goals omega

end

/-! ## The device -/

section
variable (d : Dev)

@[simp] theorem Dev.gradCount_mem (i u o : Nat) : (d.gradCount i u o).mem = d.mem := rfl
@[simp] theorem Dev.gradCount_cores (i u o : Nat) : (d.gradCount i u o).cores = d.cores := rfl
@[simp] theorem Dev.gradCount_regs (i u o : Nat) : (d.gradCount i u o).regs = d.regs := rfl

@[simp] theorem Dev.setCtx_mem (x : Nat) (y : VecCtx) : (d.setCtx x y).mem = d.mem := rfl
@[simp] theorem Dev.setCtx_cores (x : Nat) (y : VecCtx) : (d.setCtx x y).cores = d.cores := rfl
@[simp] theorem Dev.setCtx_regs (x : Nat) (y : VecCtx) : (d.setCtx x y).regs = d.regs := rfl

@[simp] theorem Dev.vecWrite_mem (l : List Host.Cell) : (d.vecWrite l).mem = Tab.setAll 0 d.mem l := rfl
@[simp] theorem Dev.vecWrite_cores (l : List Host.Cell) : (d.vecWrite l).cores = d.cores := rfl
@[simp] theorem Dev.vecWrite_regs (l : List Host.Cell) : (d.vecWrite l).regs = d.regs := rfl
@[simp] theorem Dev.vecWrite_vec (l : List Host.Cell) : (d.vecWrite l).vec = d.vec := rfl

@[simp] theorem Dev.ctx_setCtx_same (x : Nat) (y : VecCtx) : (d.setCtx x y).ctx x = y :=
  Tab.get_set_same VecCtx.init d.vec x y

end

/-- What the instruction w does in a context before it moves on. -/
def Dev.vecEff (d : Dev) (x w : Nat) : VecOut :=
  vecEffect (d.vecEnv x) (d.updExp ((d.ctx x).cr 1 % 4096)) (d.vecLoad x) (d.ctx x) w

theorem Dev.vecOut_ctx (d : Dev) (x w : Nat) : (d.vecOut x w).ctx = vecAfter (d.vecEff x w).ctx (d.ctx x) w := rfl

theorem Dev.vecOut_stores (d : Dev) (x w : Nat) : (d.vecOut x w).stores = (d.vecEff x w).stores := rfl

/-- No poisoned unit is covered in part where nothing is stored. -/
theorem Dev.storePart_nil (d : Dev) : d.storePart [] = none := by simp [Dev.storePart]

/-- The counters of an instruction of a core. -/
def vecFields : List Field := [Reg.ARR_VEC_INSTR.COUNT, Reg.ARR_NONFINITE.COUNT]

/-- The device e after an instruction of core x that nothing stops: the context is y, the bytes l are stored, the cores stay and so
does every field but the two counters. -/
structure VecDone (d : Dev) (x : Nat) (y : VecCtx) (l : List (Nat × Byte)) (e : Dev) : Prop where
  ctx : e.ctx x = y
  mem : e.mem = Tab.setAll 0 d.mem (storeCells x l)
  cores : e.cores = d.cores
  fields : FieldsKept vecFields d e

theorem VecDone.mem_kept {d e : Dev} {x : Nat} {y : VecCtx} (h : VecDone d x y [] e) : e.mem = d.mem := h.mem

/-- A core's instruction whose stores cover no poisoned unit in part is done. -/
theorem Dev.vecApply_done {d : Dev} {x : Nat} {o : VecOut} (hx : x < 192) (hp : d.storePart (storeCells x o.stores) = none) :
    VecDone d x o.ctx o.stores (d.vecApply x o) := by
  simp only [Dev.vecApply, not_isUpd hx, hp, Bool.false_eq_true, if_false]
  have hcount (b : Dev) : FieldsKept vecFields b ((b.bump Reg.ARR_VEC_INSTR.COUNT 1).bump Reg.ARR_NONFINITE.COUNT o.nonfin) :=
    (FieldsKept.setFld b _ _ _ (by decide)).trans (.setFld _ _ _ _ (by decide))
  refine ⟨?_, by simp, by simp, .trans (.of_regs _ (by simp)) (hcount _)⟩
  rw [Dev.ctx, Dev.bump_vec, Dev.bump_vec, Dev.vecWrite_vec]
  exact Dev.ctx_setCtx_same _ x o.ctx

section
variable {s : State} {x w op : Nat} {c : Instr} {P : Dev → Prop} (hx : x < 192) (hg : VecGoes s.dev x w) (hop : vOp w = op)
  (hc : exec c s = s.vecCmd x op)
include hx hg hop hc

theorem runs_vecCmd (hp : s.dev.storePart (storeCells x (s.dev.vecEff x w).stores) = none)
    (h : ∀ e, VecDone s.dev x (vecAfter (s.dev.vecEff x w).ctx (s.dev.ctx x) w) (s.dev.vecEff x w).stores e → P e) : Runs c s P := by
  have hdone := Dev.vecApply_done (o := s.dev.vecOut x w) hx (by rwa [s.dev.vecOut_stores])
  rw [s.dev.vecOut_ctx, s.dev.vecOut_stores] at hdone
  exact (gives_vecCmd (by omega) hg hop hc).runs (h _ hdone)

/-- An instruction that changes registers only. -/
theorem runs_vecRegs {y : VecCtx} (he : s.dev.vecEff x w = .regs y)
    (h : ∀ e, VecDone s.dev x (vecAfter y (s.dev.ctx x) w) [] e → P e) : Runs c s P := by
  refine runs_vecCmd hx hg hop hc ?_ ?_ <;> rw [he]
  · exact s.dev.storePart_nil
  · exact h

end

end Sys2Proof.Machine
end

section
/-! # Scalar instructions and branches of vector code

Settles O39 and O40. -/

namespace Sys2Proof.Machine

/-! ## Scalar results -/

/-- The four bytes that SLD reads stand at its offset in the core's SRAM. -/
theorem Dev.leNat_vecLoad (d : Dev) {x : Nat} (hx : x < 192) (a n : Nat) :
    leNat ((List.range n).map (fun i => d.vecLoad x (a + i))) = d.readLE (sramAt x a) n := by
  simp [Dev.readLE, Dev.read, Dev.vecLoad, not_isUpd hx, sramAt, Nat.add_assoc]

/-- Sixteen control registers: the low four bits of IMM name one. -/
theorem vImm_mod (w : Nat) : vImm w % 16 = w % 16 := Nat.mod_mod_of_dvd w (by decide)

/-- An instruction whose effect is to write v into s[D]. -/
theorem runs_vecScalar {s : State} {x w op : Nat} {c : Instr} {v : Word} (hx : x < 192) (hg : VecGoes s.dev x w)
    (hs : (s.dev.ctx x).s.length = 32) (hop : vOp w = op) (hlo : 0 < op) (hhi : op < 0x30) (hc : exec c s = s.vecCmd x op)
    (he : s.dev.vecEff x w = .regs ((s.dev.ctx x).setS (vD w) v)) : Runs c s (fun e =>
      (e.ctx x).sr (vD w) = (if vD w = 0 then 0 else v) ∧ (∀ i, i ≠ vD w → (e.ctx x).sr i = (s.dev.ctx x).sr i) ∧
      (e.ctx x).v = (s.dev.ctx x).v ∧ (e.ctx x).pc = (s.dev.ctx x).pc + 1 ∧ (e.ctx x).executed = (s.dev.ctx x).executed + 1 ∧
      e.mem = s.dev.mem ∧ e.cores = s.dev.cores ∧ FieldsKept [Reg.ARR_VEC_INSTR.COUNT, Reg.ARR_NONFINITE.COUNT] s.dev e) := by
  refine runs_vecRegs hx hg hop hc he fun e hdone => ?_
  have hD : vD w < (s.dev.ctx x).s.length := hs ▸ vD_lt w
  rw [hdone.ctx, vecAfter_pc (hop ▸ hlo) (hop ▸ hhi)]
  refine ⟨?_, fun i hi => ?_, by simp, by simp, rfl, hdone.mem_kept, hdone.cores, hdone.fields⟩
  · rw [vecAfter_sr, VecCtx.sr_setS_same _ _ hD]
  · rw [vecAfter_sr, VecCtx.sr_setS_ne _ _ hi]

/-- Settles O39: each instruction writes its result into s[D]. -/
theorem vectorScalars : Obligations.VectorScalars := by
  unfold Obligations.VectorScalars
  intro s x w hx hg hs c op v hmem hop
  simp only [List.mem_cons, Prod.mk.injEq, List.not_mem_nil, or_false] at hmem
  obtain ⟨rfl, rfl, rfl⟩ | ⟨rfl, rfl, rfl⟩ | ⟨rfl, rfl, rfl⟩ | ⟨rfl, rfl, rfl⟩ | ⟨rfl, rfl, rfl⟩ | ⟨rfl, rfl, rfl⟩ := hmem
  · exact runs_vecScalar hx hg hs hop (by decide) (by decide) rfl (vecEffect_salu hop)
  · exact runs_vecScalar hx hg hs hop (by decide) (by decide) rfl (vecEffect_saddi hop)
  · exact runs_vecScalar hx hg hs hop (by decide) (by decide) rfl (vecEffect_slui hop)
  · exact runs_vecScalar hx hg hs hop (by decide) (by decide) rfl (vecEffect_sori hop)
  · rw [← s.dev.leNat_vecLoad hx]
    exact runs_vecScalar hx hg hs hop (by decide) (by decide) rfl (vecEffect_sld hop)
  · rw [← vImm_mod]
    exact runs_vecScalar hx hg hs hop (by decide) (by decide) rfl (vecEffect_mfc hop)

/-! ## Branches -/

section
variable {y : VecCtx} {w : Nat} (h : 0x30 ≤ vOp w)
include h

theorem vecAfter_notTaken (hb : branchTaken (vOp w) (y.sr (vD w)) (y.sr (vA w)) = false) : (vecAfter y y w).pc = y.pc + 1 := by
  rw [vecAfter, vecNext_branch h, hb]
  exact y.advance_pc

variable (hb : branchTaken (vOp w) (y.sr (vD w)) (y.sr (vA w)) = true)
include hb

theorem vecAfter_inside {n : Nat} (hn : (n : Int) = y.pc + sext 16 (w % 65536)) (hin : n < y.count) :
    (vecAfter y y w).pc = n ∧ (vecAfter y y w).run = y.run := by
  rw [vecAfter, vecNext_branch h, if_pos hb, y.target_inside hn hin, y.goto_inside hin]
  exact ⟨rfl, rfl⟩

theorem vecAfter_outside (hout : (y.pc : Int) + sext 16 (w % 65536) < 0 ∨ (y.count : Int) ≤ y.pc + sext 16 (w % 65536)) :
    (vecAfter y y w).run = false ∧ (vecAfter y y w).ended = true := by
  rw [vecAfter, vecNext_branch h, if_pos hb, y.target_outside hout]
  exact ⟨rfl, rfl⟩

end

/-- Settles O40: a branch moves the position alone, by whether it is taken and where its target lies. -/
theorem vectorBranches : Obligations.VectorBranches := by
  unfold Obligations.VectorBranches
  intro s x w hx hg
  refine ⟨fun c op b hmem hop => ?branch, fun hop => ?halt⟩
  case branch =>
    have hbranch : exec c s = s.vecCmd x op ∧ 0x30 ≤ op ∧ b = branchTaken op ((s.dev.ctx x).sr (vD w)) ((s.dev.ctx x).sr (vA w)) := by
      simp only [List.mem_cons, Prod.mk.injEq, List.not_mem_nil, or_false] at hmem
      obtain ⟨rfl, rfl, rfl⟩ | ⟨rfl, rfl, rfl⟩ | ⟨rfl, rfl, rfl⟩ | ⟨rfl, rfl, rfl⟩ | ⟨rfl, rfl, rfl⟩ := hmem
      · exact ⟨rfl, by decide, rfl⟩
      · exact ⟨rfl, by decide, decide_not⟩
      · exact ⟨rfl, by decide, rfl⟩
      · exact ⟨rfl, by decide, rfl⟩
      · exact ⟨rfl, by decide, rfl⟩
    obtain ⟨hc, h30, hb⟩ := hbranch
    rw [← hop] at h30 hb
    refine runs_vecRegs hx hg hop hc (vecEffect_move (.inr h30)) fun e hdone => ?_
    rw [hdone.ctx]
    exact ⟨by simp, by simp, by simp, rfl, hdone.mem_kept, hdone.cores, fun hn => vecAfter_notTaken h30 (hb ▸ hn),
      fun ht t hn hin => vecAfter_inside h30 (hb ▸ ht) hn hin, fun ht hout => vecAfter_outside h30 (hb ▸ ht) hout⟩
  case halt =>
    refine runs_vecRegs hx hg hop rfl (vecEffect_move (.inl hop)) fun e hdone => ?_
    rw [hdone.ctx]
    refine ⟨?_, ?_, by simp, by simp, by simp, hdone.mem_kept, hdone.cores⟩ <;> rw [vecAfter, vecNext_halt hop]

end Sys2Proof.Machine
end

section
/-! # Lane results and predicates of vector code

Settles O41. -/

namespace Sys2Proof.Machine

/-! ## Lanes -/

section
variable (y : VecCtx) (lanes d : Nat) (act : Nat → Bool) (f : Nat → Word)

theorem VecCtx.lane_setV_same (hd : d < y.v.length) {l : Nat} (hl : l < lanes) :
    (y.setV lanes d act f).lane d l = if act l then f l else y.lane d l := by
  simp [VecCtx.setV, VecCtx.lane, hd, hl]

theorem VecCtx.lane_setV_ne {i : Nat} (h : i ≠ d) (l : Nat) : (y.setV lanes d act f).lane i l = y.lane i l := by
  simp [VecCtx.setV, VecCtx.lane, List.getElem?_set_ne h.symm]

end

/-- The context z is y with f's values in the active lanes of v[d], and with flags raised perhaps (R123). -/
structure VecCtx.SetsLanes (y : VecCtx) (d : Nat) (act : Nat → Bool) (f : Nat → Word) (z : VecCtx) : Prop where
  active : ∀ l, l < 256 → act l = true → z.lane d l = f l
  inactive : ∀ l, l < 256 → act l = false → z.lane d l = y.lane d l
  others : ∀ i l, i ≠ d → z.lane i l = y.lane i l
  s : z.s = y.s
  p : z.p = y.p
  pc : z.pc = y.pc

section
variable {y z : VecCtx} {d : Nat} {act : Nat → Bool} {f g : Nat → Word}

theorem VecCtx.SetsLanes.setV (hd : d < y.v.length) (hfg : ∀ l, l < 256 → g l = f l) :
    y.SetsLanes d act f (y.setV 256 d act g) where
  active l hl ha := by rw [y.lane_setV_same 256 d act g hd hl, if_pos ha, hfg l hl]
  inactive l hl ha := by rw [y.lane_setV_same 256 d act g hd hl, ha]; rfl
  others i l hi := y.lane_setV_ne 256 d act g hi l
  s := rfl
  p := rfl
  pc := rfl

theorem VecCtx.SetsLanes.raise (h : y.SetsLanes d act f z) (fl : Nat) : y.SetsLanes d act f (z.raise fl) :=
  ⟨h.active, h.inactive, h.others, h.s, h.p, h.pc⟩

end

section
variable {y : VecCtx} {w : Nat} (hv : y.v.length = 32)
include hv

theorem vfp_setsLanes : y.SetsLanes (vD w) (y.pr (vPr w)) (fun l => BitVec.ofNat 32 (vfpAt y w l).1) (vfp 256 y w) :=
  (VecCtx.SetsLanes.setV (hv ▸ vD_lt w) fun l hl => by simp [hl]).raise _

theorem vint_setsLanes : y.SetsLanes (vD w) (y.pr (vPr w))
    (fun l => vintLane (vFn w) l (y.lane (vA w) l) (y.opB w l) (y.lane (vD w) l)) (vint 256 y w) :=
  .setV (hv ▸ vD_lt w) fun _ _ => rfl

theorem vload_setsLanes (load : Nat → Byte) :
    y.SetsLanes (vD w) (y.pr (vPr w)) (loadLane load y w) (vload 256 load y w) := .setV (hv ▸ vD_lt w) fun _ _ => rfl

end

/-- A core has 256 lanes (R116). -/
theorem Dev.vecEnv_lanes (d : Dev) {x : Nat} (hx : x < 192) : (d.vecEnv x).lanes = 256 := by simp [Dev.vecEnv, not_isUpd hx]

/-- An instruction whose effect is to write f's values into the active lanes of v[D]. -/
theorem runs_vecLanes {s : State} {x w op : Nat} {c : Instr} {z : VecCtx} {f : Nat → Word} (hx : x < 192)
    (hg : VecGoes s.dev x w) (hop : vOp w = op) (hlo : 0 < op) (hhi : op < 0x30) (hc : exec c s = s.vecCmd x op)
    (he : s.dev.vecEff x w = .regs z) (hz : (s.dev.ctx x).SetsLanes (vD w) ((s.dev.ctx x).pr (vPr w)) f z) : Runs c s (fun e =>
      (∀ l, l < 256 → (s.dev.ctx x).pr (vPr w) l = true → (e.ctx x).lane (vD w) l = f l) ∧
      (∀ l, l < 256 → (s.dev.ctx x).pr (vPr w) l = false → (e.ctx x).lane (vD w) l = (s.dev.ctx x).lane (vD w) l) ∧
      (∀ i l, i ≠ vD w → (e.ctx x).lane i l = (s.dev.ctx x).lane i l) ∧ (e.ctx x).s = (s.dev.ctx x).s ∧
      (e.ctx x).p = (s.dev.ctx x).p ∧ (e.ctx x).pc = (s.dev.ctx x).pc + 1 ∧ e.mem = s.dev.mem ∧ e.cores = s.dev.cores) := by
  refine runs_vecRegs hx hg hop hc he fun e hdone => ?_
  rw [hdone.ctx, vecAfter_pc (hop ▸ hlo) (hop ▸ hhi), vecAfter_s, vecAfter_p, hz.pc]
  simp only [vecAfter_lane]
  exact ⟨hz.active, hz.inactive, hz.others, hz.s, hz.p, trivial, hdone.mem_kept, hdone.cores⟩

/-! ## Predicates -/

theorem predOf_succ (n : Nat) (f : Nat → Bool) : predOf (n + 1) f = if f n then predOf n f + 2 ^ n else predOf n f := by
  simp [predOf, List.range_succ]

theorem predOf_lt (f : Nat → Bool) (n : Nat) : predOf n f < 2 ^ n := by
  induction n with
  | zero => exact Nat.one_pos
  | succ n ih =>
    rw [predOf_succ, Nat.pow_succ]
    split <;> omega

/-- A predicate word's bit is what the lane's function says. -/
theorem bit_predOf (f : Nat → Bool) {n l : Nat} (h : l < n) : bit (predOf n f) l = f l := by
  induction n with
  | zero => omega
  | succ n ih =>
    have hlt := predOf_lt f n
    rw [bit_eq_testBit] at ih ⊢
    rw [predOf_succ, Nat.add_comm]
    obtain hl | rfl : l < n ∨ l = n := by omega
    · rw [← ih hl]
      split
      · exact Nat.testBit_two_pow_add_gt hl _
      · rfl
    · have htop := Nat.testBit_lt_two_pow hlt
      split
      · rename_i hf
        rw [Nat.testBit_two_pow_add_eq, htop, hf]
        rfl
      · rename_i hf
        rw [htop, Bool.eq_false_iff.mpr hf]

/-- An instruction that nothing stops has zeros in the fields it leaves unused. -/
theorem vecFieldsOk_of_goes {d : Dev} {x w : Nat} (hg : VecGoes d x w) : vecFieldsOk (d.ctx x).bscale w = true := by
  obtain ⟨-, -, hd, -, -, hs, -⟩ := hg
  cases hf : vecFieldsOk (d.ctx x).bscale w with
  | true => rfl
  | false => simp [vecStopOf, hd, hf] at hs

theorem vcmp_dest {b : Bool} {w : Nat} (hop : vOp w = 0x03) (h : vecFieldsOk b w = true) : vD w < 8 := by
  simpa [vecFieldsOk, hop] using h

/-- AND, OR and XOR name predicates throughout. -/
theorem vpred_operands {b : Bool} {w : Nat} (hop : vOp w = 0x08) (hf : vFn w = 0 ∨ vFn w = 1 ∨ vFn w = 2)
    (h : vecFieldsOk b w = true) : vD w < 8 ∧ vA w < 8 ∧ vB w < 8 := by
  simp only [vecFieldsOk, hop, Bool.and_eq_true, Bool.or_eq_true, decide_eq_true_eq] at h
  obtain ⟨⟨-, hD⟩, hAB⟩ := h
  have hAB : vA w < 8 ∧ vB w < 8 := by obtain hf | hf | hf := hf <;> simpa [hf] using hAB
  exact ⟨by omega, hAB⟩

/-- The word that AND, OR or XOR writes. -/
def predLogic (f a b : Nat) : Nat := if f = 0 then a &&& b else if f = 1 then a ||| b else a ^^^ b

theorem vpred_logic (lanes : Nat) (y : VecCtx) {w : Nat} (hf : vFn w = 0 ∨ vFn w = 1 ∨ vFn w = 2) : vpred lanes y w =
    y.setP (vD w) (predLogic (vFn w) (y.prWord lanes (vA w % 8)) (y.prWord lanes (vB w % 8))) := by
  obtain hf | hf | hf := hf <;> simp [vpred, predLogic, hf]

/-- Settles O41: the destination's lanes or the predicate word that each instruction writes. -/
theorem vectorLanes : Obligations.VectorLanes := by
  unfold Obligations.VectorLanes
  refine ⟨fun s x w hx hg hv c op f hmem hop => ?lanes, fun s x w hx hg hp => ⟨fun hop hD => ?vcmp, fun hop hD hf => ?vpred,
    fun hop hD => ?vcmpZero⟩⟩
  case lanes =>
    have hlanes := s.dev.vecEnv_lanes hx
    simp only [List.mem_cons, Prod.mk.injEq, List.not_mem_nil, or_false] at hmem
    obtain ⟨rfl, rfl, rfl⟩ | ⟨rfl, rfl, rfl⟩ | hmem := hmem
    · exact runs_vecLanes hx hg hop (by decide) (by decide) rfl (vecEffect_vfp hop) (hlanes ▸ vfp_setsLanes hv)
    · exact runs_vecLanes hx hg hop (by decide) (by decide) rfl (vecEffect_vint hop) (hlanes ▸ vint_setsLanes hv)
    · have hc : exec c s = s.vecCmd x op ∧ 0x10 ≤ op ∧ op ≤ 0x14 ∧ f = loadLane (s.dev.vecLoad x) (s.dev.ctx x) w := by
        obtain ⟨rfl, rfl, rfl⟩ | ⟨rfl, rfl, rfl⟩ | ⟨rfl, rfl, rfl⟩ | ⟨rfl, rfl, rfl⟩ | ⟨rfl, rfl, rfl⟩ := hmem
        all_goals exact ⟨rfl, by decide, by decide, rfl⟩
      obtain ⟨hc, hlo, hhi, rfl⟩ := hc
      exact runs_vecLanes hx hg hop (by omega) (by omega) hc (vecEffect_load (hop ▸ hlo) (hop ▸ hhi))
        (hlanes ▸ vload_setsLanes hv _)
  case vcmp =>
    refine runs_vecRegs hx hg hop rfl (vecEffect_vcmp hop) fun e hdone => ?_
    have hD8 := vcmp_dest hop (vecFieldsOk_of_goes hg)
    have hbit (l : Nat) (hl : l < 256) := bit_predOf (fun l => if (s.dev.ctx x).pr (vPr w) l then
      cmpLane (vFn w) ((s.dev.ctx x).lane (vA w) l) ((s.dev.ctx x).opB w l) else (s.dev.ctx x).pr (vD w) l) hl
    rw [hdone.ctx, s.dev.vecEnv_lanes hx, vcmp, Nat.mod_eq_of_lt hD8]
    simp only [vecAfter_pr, VecCtx.pr_setP_same _ _ _ hD (hp ▸ hD8)]
    refine ⟨fun l hl ha => ?_, fun l hl ha => ?_, by simp, by simp, hdone.mem_kept⟩
    · exact (hbit l hl).trans (if_pos ha)
    · exact (hbit l hl).trans (if_neg (Bool.eq_false_iff.mp ha))
  case vpred =>
    refine runs_vecRegs hx hg hop rfl (vecEffect_vpred hop) fun e hdone => ?_
    obtain ⟨hD8, hA8, hB8⟩ := vpred_operands hop hf (vecFieldsOk_of_goes hg)
    rw [hdone.ctx, s.dev.vecEnv_lanes hx, vpred_logic _ _ hf, Nat.mod_eq_of_lt hA8, Nat.mod_eq_of_lt hB8, vecAfter_prWord,
      VecCtx.prWord_setP_same _ _ hD (hp ▸ hD8)]
    exact ⟨rfl, by simp, by simp, hdone.mem_kept⟩
  case vcmpZero =>
    refine runs_vecRegs hx hg hop rfl (vecEffect_vcmp hop) fun e hdone => ?_
    rw [hdone.ctx, vecAfter_p, vcmp, hD, Nat.zero_mod, VecCtx.setP_zero]

end Sys2Proof.Machine
end

section
/-! # Stores of vector code

Settles O42. -/

namespace Sys2Proof.Machine

/-! ## Where the bytes of a vector store go -/

/-- The offset a lies in the span p. -/
def InSpan (p : Nat × Nat) (a : Nat) : Prop := p.1 ≤ a ∧ a < p.1 + p.2

section
variable {y : VecCtx} {w : Nat} {load : Nat → Byte} {q : Nat × Byte}

/-- What a lane stores over m lies in its own span. -/
theorem mem_storeLane {l : Nat} {m : List (Nat × Byte)} (h : q ∈ storeLane y w m load l) :
    q ∈ m ∨ ∃ p, laneSpan y w l = some p ∧ InSpan p q.1 := by
  unfold storeLane at h
  split at h
  · exact .inl h
  · rename_i p hp
    extract_lets _ _ _ new at h
    rw [List.foldl_flip_cons_eq_append (f := fun i => (p.1 + i, BitVec.ofNat 8 (new / 256 ^ i))), List.mem_append,
      List.mem_reverse, List.mem_map] at h
    obtain ⟨i, hi, rfl⟩ | h := h
    · have hlt := List.mem_range.mp hi
      exact .inr ⟨p, hp, Nat.le_add_right _ _, Nat.add_lt_add_left hlt _⟩
    · exact .inl h

theorem mem_storeLanes {ls : List Nat} {m : List (Nat × Byte)} (h : q ∈ ls.foldl (fun m l => storeLane y w m load l) m) :
    q ∈ m ∨ ∃ l ∈ ls, ∃ p, laneSpan y w l = some p ∧ InSpan p q.1 := by
  induction ls generalizing m with
  | nil => exact .inl h
  | cons a ls ih =>
    obtain h | ⟨l, hl, hp⟩ := ih h
    · exact (mem_storeLane h).imp_right fun hp => ⟨a, List.mem_cons_self, hp⟩
    · exact .inr ⟨l, List.mem_cons_of_mem a hl, hp⟩

/-- A vector store puts every byte into a span that an active lane touches. -/
theorem mem_vstore {lanes : Nat} (hop : vOp w ≤ 0x1C) (h : q ∈ vstore lanes load y w) :
    ∃ p ∈ memSpans lanes y w, InSpan p q.1 := by
  obtain h | ⟨l, hl, p, hp, hin⟩ := mem_storeLanes (List.mem_reverse.mp h)
  · cases h
  · rw [memSpans, if_neg (by simp only [Bool.or_eq_true, decide_eq_true_eq]; omega)]
    exact ⟨p, List.mem_filterMap.mpr ⟨l, hl, hp⟩, hin⟩

end

/-- Bytes of device memory at no stored offset are as before. -/
theorem VecDone.peek_out {d e : Dev} {x q : Nat} {y : VecCtx} {l : List (Nat × Byte)} (h : VecDone d x y l e)
    (hq : ∀ c ∈ l, sramAt x c.1 ≠ q) : e.peek q = d.peek q := by
  rw [Dev.peek, h.mem]
  refine Tab.get_setAll_ne 0 _ q d.mem fun p hp => ?_
  obtain ⟨c, hc, rfl⟩ := List.mem_map.mp hp
  exact hq c hc

/-! ## Scalar stores -/

/-- The bytes of a number from an address on, least significant first (R8). -/
theorem cellsAt_leBytes (n a v : Nat) :
    cellsAt a (leBytes n v) = (List.range n).map (fun i => (a + i, BitVec.ofNat 8 (v / 256 ^ i))) := by
  induction n generalizing a v with
  | zero => rfl
  | succ n ih =>
    rw [leBytes, cellsAt, ih, List.range_succ_eq_map, List.map_cons, List.map_map]
    simp [Function.comp_def, Nat.pow_succ', Nat.div_div_eq_div_mul, Nat.add_comm, Nat.add_left_comm]

theorem Dev.read_of_mem {d e : Dev} (h : e.mem = d.mem) (a n : Nat) : e.read a n = d.read a n := by
  simp only [Dev.read, Dev.peek, h]

section
variable {d e : Dev} {x a n v : Nat} {y : VecCtx}
  (h : VecDone d x y ((List.range n).map (fun i => (a + i, BitVec.ofNat 8 (v / 256 ^ i)))) e)
include h

/-- The bytes of a number stored at an offset of a core's SRAM are a write of device memory. -/
theorem VecDone.mem_leBytes : e.mem = (d.write (sramAt x a) (leBytes n v)).mem := by
  rw [h.mem, Dev.write, cellsAt_leBytes]
  simp [storeCells, sramAt, Nat.add_assoc, Function.comp_def]

theorem VecDone.read_leBytes : e.read (sramAt x a) n = leBytes n v := by
  have hread := d.read_write_same (sramAt x a) (leBytes n v)
  rw [length_leBytes] at hread
  rw [Dev.read_of_mem h.mem_leBytes, hread]

theorem VecDone.keeps_leBytes : MemKeptOutside (sramAt x a) n d e := by
  intro q hq
  rw [Dev.peek, h.mem_leBytes]
  exact d.peek_write_out _ q _ (by rwa [length_leBytes])

end

/-- Settles O42: SST writes the bytes of s[D] and no other; the other stores write within the spans of their active lanes. -/
theorem vectorStores : Obligations.VectorStores := by
  unfold Obligations.VectorStores
  intro s x w hx hg hp
  refine ⟨fun hop => ?sst, fun c op hmem hop => ?vectors⟩
  case sst =>
    refine runs_vecCmd hx hg hop rfl hp fun e hdone => ?_
    rw [Dev.vecEff, vecEffect_sst hop] at hdone
    refine ⟨hdone.read_leBytes, hdone.keeps_leBytes, ?_⟩
    rw [hdone.ctx]
    exact ⟨by simp, by simp, by simp⟩
  case vectors =>
    have hstore : exec c s = s.vecCmd x op ∧ 0x18 ≤ op ∧ op ≤ 0x1C := by
      simp only [List.mem_cons, Prod.mk.injEq, List.not_mem_nil, or_false] at hmem
      obtain ⟨rfl, rfl⟩ | ⟨rfl, rfl⟩ | ⟨rfl, rfl⟩ | ⟨rfl, rfl⟩ | ⟨rfl, rfl⟩ := hmem
      all_goals exact ⟨rfl, by decide, by decide⟩
    obtain ⟨hc, hlo, hhi⟩ := hstore
    refine runs_vecCmd hx hg hop hc hp fun e hdone => ?_
    rw [Dev.vecEff, vecEffect_store (hop ▸ hlo) (hop ▸ hhi), s.dev.vecEnv_lanes hx] at hdone
    refine ⟨fun q hq => hdone.peek_out fun b hb => ?_, ?_⟩
    · obtain ⟨p, hps, hin⟩ := mem_vstore (hop ▸ hhi) hb
      have hout := hq p hps
      simp only [InSpan, sramAt] at hin hout ⊢
      omega
    · rw [hdone.ctx]
      exact ⟨by simp, by simp, by simp, hdone.cores⟩

end Sys2Proof.Machine
end

section
/-! # Reads and writes of vaults, refresh, scrub and repair

Settles O44. -/

namespace Sys2Proof.Machine

/-! ## Registers and the vaults' state alone -/

/-- Nothing changes but the vaults' state and the listed register fields. -/
def VaultsOnly (l : List Field) (d e : Dev) : Prop := e = { d with regs := e.regs, vlt := e.vlt } ∧ FieldsKept l d e

section
variable {l : List Field} {d e g : Dev}

theorem VaultsOnly.trans (h : VaultsOnly l d e) (h' : VaultsOnly l e g) : VaultsOnly l d g := by
  refine ⟨?_, FieldsKept.trans h.2 h'.2⟩
  rw [h'.1, h.1]

theorem VaultsOnly.modVlt (d : Dev) (f : Vlt → Vlt) : VaultsOnly l d (d.modVlt f) := ⟨rfl, .of_regs l rfl⟩

theorem VaultsOnly.bump (d : Dev) (f : Field) (n : Nat) (hf : f.key ∈ l.map Field.key) : VaultsOnly l d (d.bump f n) :=
  ⟨rfl, .setFld d f _ l hf⟩

theorem VaultsOnly.fields (h : VaultsOnly l d e) : FieldsKept l d e := h.2

theorem VaultsOnly.mem (h : VaultsOnly l d e) : e.mem = d.mem := by rw [h.1]

theorem VaultsOnly.peek (h : VaultsOnly l d e) (q : Nat) : e.peek q = d.peek q := by rw [Dev.peek, h.mem, Dev.peek]

theorem VaultsOnly.poison (h : VaultsOnly l d e) : e.poison = d.poison := by rw [h.1]

theorem VaultsOnly.cores (h : VaultsOnly l d e) : e.cores = d.cores := by rw [h.1]

theorem VaultsOnly.out (h : VaultsOnly l d e) : e.out = d.out := by rw [h.1]

theorem VaultsOnly.locked (h : VaultsOnly l d e) : e.locked = d.locked := by rw [h.1]

end

/-! ## An access without an error -/

/-- The counters that an access counts on even without an error. -/
def accessFields : List Field := [Reg.VLT_CE.COUNT, Reg.VLT_CRC_RETRY.COUNT]

/-- An access to the sector at x through pipe p without an error. -/
def cleanAccess (p x : Nat) : VaultErr := ⟨[], p, false, x, 0, false, false⟩

theorem vaultErrOk_cleanAccess {c p x : Nat} (hp : p < 20) (hx : x % 64 = 0) (hlo : vaultBase c ≤ x) (hhi : x < vaultBase (c + 1)) :
    vaultErrOk c (cleanAccess p x) = true := by
  simp [vaultErrOk, attemptsOk, cleanAccess, hp, hx, hlo, hhi]

theorem Dev.pipeTraffic_cleanAccess (d : Dev) (c p x : Nat) :
    d.pipeTraffic c (cleanAccess p x) = (d.bump Reg.VLT_CRC_RETRY.COUNT 0).pipeGood c p := rfl

theorem VaultsOnly.pipeTraffic (d : Dev) (c p x : Nat) : VaultsOnly accessFields d (d.pipeTraffic c (cleanAccess p x)) := by
  rw [Dev.pipeTraffic_cleanAccess]
  exact (VaultsOnly.bump d Reg.VLT_CRC_RETRY.COUNT 0 (by decide)).trans (.modVlt _ _)

theorem VaultsOnly.sectorRead (d : Dev) (c p x : Nat) : VaultsOnly accessFields d (d.sectorRead c (cleanAccess p x) false) :=
  .bump d Reg.VLT_CE.COUNT 0 (by decide)

theorem Dev.poisonedIn_eq_nil {d : Dev} {a n : Nat} (h : d.poisonIn a n = false) : d.poisonedIn a n = [] := by
  refine List.filter_eq_nil_iff.mpr fun q hq => ?_
  obtain ⟨e, he, rfl⟩ := List.mem_map.mp hq
  exact List.any_eq_false.mp h e he

theorem Dev.fenceHolds_of_idle {d : Dev} (h : d.mirrorOut = 0) (l : List Nat) : d.fenceHolds l = false := by
  simp [Dev.fenceHolds, h]

section
variable {d e : Dev} (h : VaultsOnly accessFields d e)
include h

theorem VaultsOnly.read (a n : Nat) : e.read a n = d.read a n := Dev.read_of_mem h.mem a n

theorem VaultsOnly.mirrors : e.mirrors = d.mirrors := by
  rw [Dev.mirrors, Dev.on, h.locked, h.fields _ (by decide), h.fields _ (by decide)]
  rfl

theorem VaultsOnly.logAddr (n : Nat) : e.logAddr n = d.logAddr n := by rw [Dev.logAddr, h.fields _ (by decide), Dev.logAddr]

theorem VaultsOnly.liveCopy (q : Nat) : liveCopy e q = liveCopy d q := by
  rw [Machine.liveCopy, Dev.updArea, h.locked, h.fields _ (by decide)]
  rfl

theorem VaultsOnly.peerGone (i : Nat) : e.peerGone i = d.peerGone i := by
  have hroute {f : Field} (hf : (Reg.FAB_ROUTE.KIND 0).key ≤ f.key) : e.fld f = d.fld f := by
    refine h.fields f fun hm => ?_
    have hlow : ∀ k ∈ accessFields.map Field.key, k < (Reg.FAB_ROUTE.KIND 0).key := by decide
    exact absurd (hlow _ hm) (Nat.not_lt.mpr hf)
  rw [Dev.peerGone, Dev.noRoute, Dev.kind, Dev.on, hroute, hroute]
  · rfl
  all_goals
    simp only [Field.key, Reg.FAB_ROUTE.KIND, Reg.FAB_ROUTE.LOST]
    omega

theorem VaultsOnly.mirrorHolds (hd : MirrorHolds d) : MirrorHolds e := by
  rw [MirrorHolds, h.mirrors, h.peerGone, h.fields _ (by decide)]
  exact hd

/-- What is stored after an access without an error is stored as if there had been none. -/
theorem VaultsOnly.stored {g : Dev} {a : Nat} {l : List Byte} (hs : Stored a l e g) : Stored a l d g := by
  intro q hq
  rw [← h.liveCopy, ← h.peek]
  refine hs q (hq.imp h.mirrorHolds ?_)
  rw [h.logAddr]
  exact id

end

/-- A store with mirroring off changes no register. -/
theorem Dev.store_regs_of_not_mirrors {d : Dev} (h : d.mirrors = false) (a : Nat) (l : List Byte) : (d.store a l).regs = d.regs := by
  have hkeep : (d.store a l).regs = d.regs ∧ (d.store a l).locked = d.locked :=
    Dev.besideLive_rel (R := fun d e => d.mirrors = false → e.regs = d.regs ∧ e.locked = d.locked) (fun _ _ => ⟨rfl, rfl⟩)
      ?trans ?part d h
  case trans =>
    intro d e g hde heg hd
    obtain ⟨hregs, hlock⟩ := hde hd
    have he : e.mirrors = false := by
      rw [Dev.mirrors, Dev.on, hlock, Dev.fld_of_regs hregs, Dev.fld_of_regs hregs]
      exact hd
    obtain ⟨hregs', hlock'⟩ := heg he
    exact ⟨hregs'.trans hregs, hlock'.trans hlock⟩
  case part =>
    intro d x m _ _ hd
    have hoff (b : List Byte) : (d.write x b).mirror x m = d.write x b := if_pos (congrArg Bool.not hd)
    rw [hoff]
    exact ⟨rfl, rfl⟩
  exact hkeep.1

theorem Dev.store_cores (d : Dev) (a : Nat) (l : List Byte) : (d.store a l).cores = d.cores :=
  Dev.besideLive_rel (R := fun d e => e.cores = d.cores) (fun _ => rfl) (fun _ _ _ h h' => h'.trans h)
    (fun d x _ _ _ => Dev.mirror_cores (d.write x _) x _) d

/-! ## Reads and writes -/

section
variable {s : State} {c off : Nat} (hc : c < 192) (hs : s.dev.live = true)
include hc hs

theorem runs_vaultRead {n p x : Nat} (hn : 1 ≤ n ∧ n ≤ 256 ∧ off + n ≤ 0x100000000) (he : vaultErrOk c (cleanAccess p x) = true)
    (hg : s.dev.coreGone c = false) (hp : s.dev.poisonIn (vaultBase c + off) n = false) :
    Runs (.vaultRead c off n (cleanAccess p x)) s (fun e =>
      e.out = .readData (s.dev.read (vaultBase c + off) n) false :: s.dev.out ∧ MemKept s.dev e ∧
        FieldsKept accessFields s.dev e ∧ e.cores = s.dev.cores ∧ e.poison = s.dev.poison) := by
  have hnil := Dev.poisonedIn_eq_nil hp
  have hdue : (s.dev.live && !s.dev.fenceHolds (s.dev.poisonedIn (vaultBase c + off) n ++
      (if (cleanAccess p x).ue || (cleanAccess p x).allFail then [(cleanAccess p x).sector] else []))) = true := by
    simp [hs, hnil, cleanAccess, Dev.fenceHolds]
  have hserved : VaultsOnly accessFields s.dev ((s.dev.pipeTraffic c (cleanAccess p x)).sectorRead c (cleanAccess p x) false) :=
    (VaultsOnly.pipeTraffic s.dev c p x).trans (.sectorRead _ c p x)
  rw [Runs, exec, execVaultRead]
  refine State.run_meets (by simp [coreOk_of hc, hn, he]) hdue ?_
  simp only [hg, hnil, List.filter_nil, List.foldl_nil, Bool.false_eq_true, if_false]
  generalize hd : (s.dev.pipeTraffic c (cleanAccess p x)).sectorRead c (cleanAccess p x) _ = d
  replace hserved : VaultsOnly accessFields s.dev d := hd ▸ hserved
  have hclean : d.poisonIn (vaultBase c + off) n = false := by rw [Dev.poisonIn, hserved.poison]; exact hp
  rw [if_neg (by simp [hclean]), hserved.read]
  exact ⟨congrArg _ hserved.out, hserved.peek, hserved.fields, hserved.cores, hserved.poison⟩

theorem gives_vaultRead_gone {n : Nat} {e : VaultErr} (hn : 1 ≤ n ∧ n ≤ 256 ∧ off + n ≤ 0x100000000) (he : vaultErrOk c e = true)
    (hm : s.dev.mirrorOut = 0) (hg : s.dev.coreGone c = true) :
    Gives (.vaultRead c off n e) s { s.dev with out := .readData (zeros n) true :: s.dev.out } := by
  rw [Gives, exec, execVaultRead]
  exact State.run_gives (by simp [coreOk_of hc, hn, he]) (by simp [hs, Dev.fenceHolds_of_idle hm]) (if_pos hg)

theorem runs_vaultWrite {l : List Byte} {p x : Nat} (hl : 1 ≤ l.length ∧ l.length ≤ 256 ∧ off + l.length ≤ 0x100000000)
    (hp : p < 20) (he : vaultErrOk c (cleanAccess p x) = true) (hg : s.dev.coreGone c = false) :
    Runs (.vaultWrite c off l (cleanAccess p x) []) s (fun e =>
      Stored (vaultBase c + off) l s.dev e ∧ e.cores = s.dev.cores ∧
        (s.dev.mirrors = false → FieldsKept accessFields s.dev e)) := by
  have hagain : againOk (cleanAccess p x) [] = true := by simp [againOk, attemptsOk, cleanAccess, hp]
  have hserved : VaultsOnly accessFields s.dev
      ((if readsSector off l.length (x % 0x100000000) then s.dev.sectorRead c (cleanAccess p x) false else s.dev).pipeTraffic c
        (cleanAccess p x)) := by
    split
    · exact (VaultsOnly.sectorRead s.dev c p x).trans (.pipeTraffic _ c p x)
    · exact .pipeTraffic s.dev c p x
  rw [Runs, exec, execVaultWrite]
  refine State.run_meets (by simp [coreOk_of hc, hl, he, hagain]) (by simp [hs, cleanAccess]) ?_
  rw [if_neg (by simp [hg])]
  refine ⟨hserved.stored (Dev.store_stored _ _ l), (Dev.store_cores _ _ l).trans hserved.cores, fun hm => hserved.fields.trans ?_⟩
  exact .of_regs _ (Dev.store_regs_of_not_mirrors (hserved.mirrors.trans hm) _ l)

theorem gives_vaultWrite_gone {l : List Byte} {e : VaultErr} {m : List Nat}
    (hl : 1 ≤ l.length ∧ l.length ≤ 256 ∧ off + l.length ≤ 0x100000000) (he : vaultErrOk c e = true) (ha : againOk e m = true)
    (hm : s.dev.mirrorOut = 0) (hg : s.dev.coreGone c = true) : Gives (.vaultWrite c off l e m) s s.dev := by
  rw [Gives, exec, execVaultWrite]
  exact State.run_gives (by simp [coreOk_of hc, hl, he, ha]) (by simp [hs, Dev.fenceHolds_of_idle hm]) (if_pos hg)

end

/-! ## Repair, refresh and scrub -/

/-- A list in which something is found has something of that kind. -/
theorem any_of_find?_eq_some {α : Type} {p : α → Bool} {l : List α} {x : α} (h : l.find? p = some x) : l.any p = true :=
  List.any_eq_true.mpr ⟨x, List.mem_of_find?_eq_some h, List.find?_some h⟩

variable {s : State}

theorem gives_rowRepairFused {k row : Nat} {x : Nat × Nat × Nat} (hk : bankOk k = true) (hr : row < 8192) (hu : s.dev.up = true)
    (hx : s.dev.vlt.unfused.find? (fun e => e.1 = k && e.2.1 = row) = some x) :
    Gives (.rowRepairFused k row) s { s.dev with
      vlt := { s.dev.vlt with unfused := s.dev.vlt.unfused.erase x }
      fuses := { s.dev.fuses with rows := Tab.set 0 s.dev.fuses.rows (32 * k + x.2.2) (row + 1) } } := by
  have hany : s.dev.vlt.unfused.any (fun e => e.1 = k && e.2.1 = row) = true := any_of_find?_eq_some hx
  rw [Gives, exec, execRowRepairFused]
  exact State.run_gives (by simp [hk, hr]) (by rw [hu, hany]; rfl) (by simp only [hx]; rfl)

/-- A record after a field's write changes that field and the reports alone, unless the field places the host log. -/
theorem OnlyReports.setFld_record {l : List Field} (d : Dev) (f : Field) (n : Nat) (r : FaultRec) (hf : f.key ∈ l.map Field.key)
    (hbase : Reg.FLT_LOG_BASE.BASE.key ≠ f.key) : OnlyReports l d ((d.setFld f n).record r) := by
  obtain ⟨hframe, hhq, hfields, hmem⟩ := OnlyReports.record (d.setFld f n) r l
  have hlog : (d.setFld f n).logAddr 0 = d.logAddr 0 := by rw [Dev.logAddr, Dev.fld_setFld_ne _ _ hbase, Dev.logAddr]
  rw [hlog] at hmem
  exact ⟨hframe, hhq, (FieldsKept.setFld d f n _ (by simp only [List.map_append, List.mem_append, hf, true_or])).trans hfields, hmem⟩

theorem runs_bankSpareDone {c k : Nat} (hc : c < 192 ∨ c = 0xFF) (hk : bankOk k = true) (hu : s.dev.up = true)
    (hcopy : s.dev.vlt.copies.contains (c, k) = true) : Runs (.bankSpareDone c k) s (fun e =>
      e.fld Reg.VLT_SPARES_USED.BANKS =
        min (2 ^ Reg.VLT_SPARES_USED.BANKS.w - 1) (s.dev.fld Reg.VLT_SPARES_USED.BANKS + 1) ∧
      e.vlt.copies = s.dev.vlt.copies.erase (c, k) ∧
      OnlyReports [Reg.VLT_SPARES_USED.BANKS] { s.dev with vlt := e.vlt } e) := by
  rw [Runs, exec, execBankSpareDone]
  refine State.run_meets (by simp [coreOk, hc, hk]) (by rw [hu, hcopy]; rfl) ⟨?_, by simp [Dev.modVlt], ?_⟩
  · rw [Dev.fld_record _ _ (by decide) (by decide) (by decide), Dev.fld_bumpSat_same]
    rfl
  · rw [Dev.record_vlt]
    exact OnlyReports.setFld_record _ _ _ _ (by decide) (by decide)

theorem gives_refreshDue {x y k : Nat} (hx : x < 224) (hy : y < 16) (hk : k < 17) (hs : s.dev.live = true) :
    Gives (.refreshDue x y k) s { s.dev with vlt := { s.dev.vlt with
      refresh := Tab.set 0 s.dev.vlt.refresh (bankKey x y k) ((Tab.get 0 s.dev.vlt.refresh (bankKey x y k) + 8) % 8224) } } := by
  rw [Gives, exec, execRefreshDue]
  exact State.run_gives (by simp [hx, hy, hk]) hs rfl

/-- The counters of a scrub without an error. -/
def scrubFields : List Field := [Reg.VLT_CE.COUNT, Reg.VLT_SCRUB_PASS.COUNT]

/-- The row of a scrubbed sector has its corrected errors counted anew. -/
def Dev.scrubCounted (d : Dev) (row : Nat) : Dev :=
  (d.bump Reg.VLT_CE.COUNT 0).modVlt (fun v => { v with rowCe := Tab.set 0 v.rowCe row (Tab.get 0 d.vlt.rowCe row + 0) })

/-- A column's pointer moves past sector n, and at the end of the column a pass is counted. -/
def Dev.scrubMoved (d : Dev) (col n : Nat) : Dev :=
  if n + 1 < 2 ^ 26 then d.modVlt (fun v => { v with scrub := Tab.set 0 v.scrub col (n + 1) })
  else (d.modVlt (fun v => { v with
    scrub := Tab.set 0 v.scrub col 0
    rowCe := v.rowCe.filter (fun e => e.1 / (8192 * 512) != col) })).bump Reg.VLT_SCRUB_PASS.COUNT 1

theorem Dev.coreAt_ok {d : Dev} {t i k : Nat} (ht : t < 8) (h : d.coreAt t i = some k) : k < 192 := by
  obtain ⟨j, hj, rfl⟩ := List.mem_map.mp (List.mem_of_find?_eq_some h)
  have := List.mem_range.mp hj
  omega

section
variable {d : Dev} {t i : Nat} (hp : ∀ k, d.coreAt t i = some k →
  d.poisonIn (vaultBase k + 64 * Tab.get 0 d.vlt.scrub (28 * t + i)) 64 = false)
include hp

/-- The scrub of a sector that reads without an error. -/
theorem Dev.scrubSector_clean : ∃ row, d.scrubSector t i 0 false false =
    (d.scrubCounted row).scrubMoved (28 * t + i) (Tab.get 0 d.vlt.scrub (28 * t + i)) := by
  refine ⟨8192 * d.bankIn (28 * t + i) (vLayer (64 * Tab.get 0 d.vlt.scrub (28 * t + i)))
    (vBank (64 * Tab.get 0 d.vlt.scrub (28 * t + i))) + vRow (64 * Tab.get 0 d.vlt.scrub (28 * t + i)), ?_⟩
  have hclean : (coreOk ((d.coreAt t i).getD 0xFF) &&
      d.poisonIn (vaultBase ((d.coreAt t i).getD 0xFF) + 64 * Tab.get 0 d.vlt.scrub (28 * t + i)) 64) = false := by
    cases h : d.coreAt t i with
    | none => rfl
    | some k => simp [hp k h]
  rw [Dev.scrubSector]
  exact congrArg (fun e : Dev => e.scrubMoved _ _) (if_neg (by rw [Bool.not_eq_true]; exact hclean))

theorem Dev.scrubWaits_clean : d.scrubWaits t i false = false := by
  unfold Dev.scrubWaits
  split
  · rfl
  · rename_i k hk
    simp [hp k hk]

end

theorem Dev.scrubCounted_only (d : Dev) (row : Nat) : VaultsOnly scrubFields d (d.scrubCounted row) :=
  (VaultsOnly.bump d Reg.VLT_CE.COUNT 0 (by decide)).trans (.modVlt _ _)

theorem Dev.scrubMoved_only (d : Dev) (col n : Nat) : VaultsOnly scrubFields d (d.scrubMoved col n) := by
  unfold Dev.scrubMoved
  split
  · exact .modVlt d _
  · exact (VaultsOnly.modVlt d _).trans (.bump _ Reg.VLT_SCRUB_PASS.COUNT 1 (by decide))

theorem Dev.scrubMoved_pointer (d : Dev) (col : Nat) {n : Nat} (hn : n < 2 ^ 26) :
    Tab.get 0 (d.scrubMoved col n).vlt.scrub col = (n + 1) % 2 ^ 26 := by
  unfold Dev.scrubMoved
  split
  · rename_i hlt
    rw [Nat.mod_eq_of_lt hlt]
    simp [Dev.modVlt]
  · rename_i hge
    rw [show n + 1 = 2 ^ 26 by omega]
    simp [Dev.modVlt]

theorem Dev.scrubMoved_pass (d : Dev) (col : Nat) {n : Nat} (hn : n + 1 = 2 ^ 26) :
    (d.scrubMoved col n).fld Reg.VLT_SCRUB_PASS.COUNT =
      (d.fld Reg.VLT_SCRUB_PASS.COUNT + 1) % 2 ^ Reg.VLT_SCRUB_PASS.COUNT.w := by
  rw [Dev.scrubMoved, if_neg (by omega), Dev.fld_bump_same]
  rfl

theorem runs_patrolScrub {t i : Nat} (ht : t < 8) (hi : i < 28) (hs : s.dev.live = true) (hu : s.dev.siteUsed t i = true)
    (hn : Tab.get 0 s.dev.vlt.scrub (28 * t + i) < 2 ^ 26)
    (hp : ∀ k, s.dev.coreAt t i = some k →
      s.dev.poisonIn (vaultBase k + 64 * Tab.get 0 s.dev.vlt.scrub (28 * t + i)) 64 = false) :
    Runs (.patrolScrub t i 0 false false) s (fun e =>
      Tab.get 0 e.vlt.scrub (28 * t + i) = (Tab.get 0 s.dev.vlt.scrub (28 * t + i) + 1) % 2 ^ 26 ∧
      (Tab.get 0 s.dev.vlt.scrub (28 * t + i) + 1 = 2 ^ 26 → e.fld Reg.VLT_SCRUB_PASS.COUNT =
        (s.dev.fld Reg.VLT_SCRUB_PASS.COUNT + 1) % 2 ^ Reg.VLT_SCRUB_PASS.COUNT.w) ∧
      MemKept s.dev e ∧ e.poison = s.dev.poison ∧ FieldsKept scrubFields s.dev e) := by
  obtain ⟨row, hscrub⟩ := Dev.scrubSector_clean hp
  have hcounted := s.dev.scrubCounted_only row
  have honly := hcounted.trans (Dev.scrubMoved_only _ (28 * t + i) (Tab.get 0 s.dev.vlt.scrub (28 * t + i)))
  rw [Runs, exec, execPatrolScrub]
  refine State.run_meets (by simp [ht, hi]) (by rw [hs, hu, Dev.scrubWaits_clean hp]; rfl) ?_
  rw [hscrub]
  refine ⟨Dev.scrubMoved_pointer _ _ hn, fun hend => ?_, honly.peek, honly.poison, honly.fields⟩
  have hpass : (s.dev.scrubCounted row).fld Reg.VLT_SCRUB_PASS.COUNT = s.dev.fld Reg.VLT_SCRUB_PASS.COUNT :=
    Dev.fld_bump_ne s.dev 0 (by decide)
  rw [Dev.scrubMoved_pass _ _ hend, hpass]

/-- Settles O44: an access without an error changes its counters and its pipe alone, and the store after it puts the bytes. -/
theorem vaultAccess : Obligations.VaultAccess := by
  unfold Obligations.VaultAccess
  refine ⟨fun s c hc hs => ⟨?read, ?readGone, ?write, ?writeGone⟩, fun s => ⟨?repair, ?copy, ?refresh, ?scrub⟩⟩
  case read =>
    exact fun off n p x h1 h2 h3 hp hx hlo hhi hg hpo =>
      runs_vaultRead hc hs ⟨h1, h2, h3⟩ (vaultErrOk_cleanAccess hp hx hlo hhi) hg hpo
  case readGone => exact fun off n e h1 h2 h3 he hm hg => gives_vaultRead_gone hc hs ⟨h1, h2, h3⟩ he hm hg
  case write =>
    exact fun off l p x h1 h2 h3 hp hx hlo hhi hg => runs_vaultWrite hc hs ⟨h1, h2, h3⟩ hp (vaultErrOk_cleanAccess hp hx hlo hhi) hg
  case writeGone => exact fun off l e m h1 h2 h3 he ha hm hg => gives_vaultWrite_gone hc hs ⟨h1, h2, h3⟩ he ha hm hg
  case repair => exact fun k row x hk hr hu hx => gives_rowRepairFused hk hr hu hx
  case copy => exact fun c k hc hk hu hcopy => runs_bankSpareDone hc hk hu hcopy
  case refresh => exact fun x y k hx hy hk hs => gives_refreshDue hx hy hk hs
  case scrub => exact fun t i ht hi hs hu hn hp => runs_patrolScrub ht hi hs hu hn hp

end Sys2Proof.Machine
end

section
/-! # What the last steps of a migration leave

A migration that ends, and a core that changes its state, write records, show the migrations of a tower, complete a descriptor, grant
cores and let a QUIESCE complete. One lemma per function says that this leaves the fields of cores and sites, and all memory below
Midway SRAM. -/

namespace Sys2Proof.Machine

/-- The fields that these steps change. -/
def closingFields : List Field := recordFields ++ [Reg.GLB_STATE_CHANGE.STATE, Reg.GLB_STATE_CHANGE.FLAGS, Reg.EVT_SIGNALS.COUNT,
  Reg.HQ_DESC_DONE.COUNT, Reg.TWR_MIG.ACTIVE, Reg.TWR_MIG.QUEUED, Reg.VLT_MIG_LAST.DURATION_US, Reg.VLT_MIG_LAST.RESULT,
  Reg.VLT_MIG_LAST.LOGICAL, Reg.VLT_MIG_LAST.BUDDY_SECTORS]

/-- Every other field, and every byte of the vaults and of the cores' SRAM, is as before. -/
def ClosingKeeps (d e : Dev) : Prop := FieldsKept closingFields d e ∧ ∀ q, q < midwayBase → e.peek q = d.peek q

/-- A field of the logical cores or of the sites of towers. -/
@[reducible] def Field.OfTowers (f : Field) : Prop := (Reg.TWR_CORE.SITE 0).key ≤ f.key ∧ f.key < Reg.TWR_MIG.ACTIVE.key

theorem Field.OfTowers.not_closing {f : Field} (h : f.OfTowers) : f.key ∉ closingFields.map Field.key := by
  intro hm
  have hout : ∀ k ∈ closingFields.map Field.key, k < (Reg.TWR_CORE.SITE 0).key ∨ Reg.TWR_MIG.ACTIVE.key ≤ k := by decide
  obtain ⟨hlo, hhi⟩ := h
  rcases hout _ hm with hk | hk
  · exact absurd hk (Nat.not_lt.mpr hlo)
  · exact absurd hhi (Nat.not_lt.mpr hk)

/-- The host log lies in Midway SRAM. -/
theorem Dev.lt_logAddr (d : Dev) {q : Nat} (hq : q < midwayBase) : q < d.logAddr 0 := by
  rw [Dev.logAddr]
  omega

namespace ClosingKeeps

variable {d e g : Dev}

theorem fld (h : ClosingKeeps d e) {f : Field} (hf : f.OfTowers) : e.fld f = d.fld f := h.1 f hf.not_closing

theorem refl (d : Dev) : ClosingKeeps d d := ⟨.refl _ d, fun _ _ => rfl⟩

theorem trans (h : ClosingKeeps d e) (h' : ClosingKeeps e g) : ClosingKeeps d g :=
  ⟨h.1.trans h'.1, fun q hq => (h'.2 q hq).trans (h.2 q hq)⟩

theorem of_eq (hm : e.mem = d.mem) (hr : e.regs = d.regs) : ClosingKeeps d e :=
  ⟨.of_regs _ hr, fun q _ => by rw [Dev.peek, hm, Dev.peek]⟩

theorem ite {c : Prop} [Decidable c] (h : ClosingKeeps d e) (h' : ClosingKeeps d g) : ClosingKeeps d (if c then e else g) := by
  split
  · exact h
  · exact h'

theorem setFld (d : Dev) (f : Field) (n : Nat) (hf : f.key ∈ closingFields.map Field.key := by decide) :
    ClosingKeeps d (d.setFld f n) := ⟨.setFld d f n _ hf, fun _ _ => rfl⟩

theorem record (d : Dev) (r : FaultRec) : ClosingKeeps d (d.record r) :=
  ⟨(FieldsKept.record d r).mono (by decide), fun q hq => d.peek_record_out r q (.inl (d.lt_logAddr hq))⟩

theorem msix (d : Dev) (v : Nat) : ClosingKeeps d (d.msix v) := of_eq rfl rfl

theorem refreshFlags (d : Dev) : ClosingKeeps d d.refreshFlags :=
  ite (refl d) (trans (of_eq (e := { d with degradedSeen := d.degraded }) rfl rfl) (trans (setFld _ _ _) (msix _ _)))

theorem signal (d : Dev) (j : Desc) (st : Status) : ClosingKeeps d (d.signal j st) :=
  ite (trans (of_eq (e := d.evtSet (j.num 10 2) _) rfl rfl) (setFld _ Reg.EVT_SIGNALS.COUNT _)) (refl d)

theorem writeCpl (d : Dev) (r : Nat) (h : HeldRec) : ClosingKeeps d (d.writeCpl r h) := by
  unfold Dev.writeCpl
  extract_lets a b ring w hq e
  have he : ClosingKeeps d e :=
    trans (of_eq (e := { w with hq := { w.hq with interval := w.pollMin } }) rfl rfl) (setFld _ Reg.HQ_DESC_DONE.COUNT _)
  exact ite (he.trans (msix e _)) he

theorem putCpl (d : Dev) (r : Nat) (h : HeldRec) : ClosingKeeps d (d.putCpl r h) := ite (writeCpl d r h) (of_eq rfl rfl)

theorem finish (d : Dev) (j : Desc) (e : Ending) : ClosingKeeps d (d.finish j e) :=
  (signal d j e.st).trans (trans (of_eq (e := (d.signal j e.st).setRing j.ring _) rfl rfl) (putCpl _ _ _))

theorem finishKey (d : Dev) (k : Nat × Nat) (e : Ending) : ClosingKeeps d (d.finishKey k e) := by
  unfold Dev.finishKey
  split
  · exact finish d _ e
  · exact refl d

theorem setState (d : Dev) (st : DevState) : ClosingKeeps d (d.setState st) :=
  trans (of_eq (e := { d with st := st }) rfl rfl) ((setFld _ Reg.GLB_STATE_CHANGE.STATE 1).trans (msix _ 0))

theorem showMigs (d : Dev) (t : Nat) : ClosingKeeps d (d.showMigs t) :=
  (setFld d Reg.TWR_MIG.ACTIVE _).trans (setFld _ Reg.TWR_MIG.QUEUED _)

theorem grantRuns (d : Dev) : ClosingKeeps d d.grantRuns := of_eq d.grantRuns_mem (by rw [d.grantRuns_frame])

theorem quiesceNow (d : Dev) : ClosingKeeps d d.quiesceNow := by
  unfold Dev.quiesceNow
  split
  · exact refl d
  · have hstep : ClosingKeeps d { d with stp := { d.stp with quiesce := none, sends := [] } } := of_eq rfl rfl
    exact ite ((hstep.trans (setState _ .quiesced)).trans (finishKey _ _ _)) (refl d)

theorem dropMig (d : Dev) (c : Nat) : ClosingKeeps d (d.dropMig c) :=
  trans (of_eq (e := { d with migs := d.migs.filter (fun m => m.core != c) }) rfl rfl) (showMigs _ _)

theorem migrationEnd (d : Dev) (m : Migr) (result : Nat) : ClosingKeeps d (d.migrationEnd m result) :=
  ((((setFld d Reg.VLT_MIG_LAST.DURATION_US _).trans (setFld _ Reg.VLT_MIG_LAST.RESULT _)).trans
    (setFld _ Reg.VLT_MIG_LAST.LOGICAL _)).trans (setFld _ Reg.VLT_MIG_LAST.BUDDY_SECTORS _)).trans (record _ _)

/-- A core's change of state writes its code, and keeps the rest. -/
theorem setCoreSt (d : Dev) (c st a b : Nat) : ClosingKeeps (d.setFld (Reg.TWR_CORE.STATE c) st) (d.setCoreSt c st a b) :=
  (record _ _).trans (refreshFlags _)

end ClosingKeeps

end Sys2Proof.Machine
end

section
/-! # Pipes, the mirror, migrations and SPARE_CORE

Settles O45. -/

namespace Sys2Proof.Machine

/-! ## Cores and sites -/

theorem ofTowers_core {c lo w reset : Nat} {acc : Access} (hc : c < 192) (hlo : lo < 64) :
    (⟨0x50000 + 0x4 * c, lo, w, acc, reset⟩ : Field).OfTowers := by
  simp only [Field.OfTowers, Field.key, Reg.TWR_CORE.SITE, Reg.TWR_MIG.ACTIVE]
  omega

theorem ofTowers_state {c : Nat} (hc : c < 192) : (Reg.TWR_CORE.STATE c).OfTowers := ofTowers_core hc (by decide)

theorem ofTowers_site {c : Nat} (hc : c < 192) : (Reg.TWR_CORE.SITE c).OfTowers := ofTowers_core hc (by decide)

theorem ofTowers_target {c : Nat} (hc : c < 192) : (Reg.TWR_CORE.TARGET c).OfTowers := ofTowers_core hc (by decide)

theorem ofTowers_spare {t : Nat} (ht : t < 8) : (Reg.TWR_SPARE_SITES.SPARE t).OfTowers := by
  simp only [Field.OfTowers, Field.key, Reg.TWR_CORE.SITE, Reg.TWR_MIG.ACTIVE, Reg.TWR_SPARE_SITES.SPARE]
  omega

theorem ofTowers_retired {t : Nat} (ht : t < 8) : (Reg.TWR_RETIRED_SITES.RETIRED t).OfTowers := by
  simp only [Field.OfTowers, Field.key, Reg.TWR_CORE.SITE, Reg.TWR_MIG.ACTIVE, Reg.TWR_RETIRED_SITES.RETIRED]
  omega

theorem lt_of_towerOf {c t : Nat} (ht : t < 8) (h : towerOf c = t) : c < 192 := by
  rw [towerOf] at h
  omega

theorem towerOf_lt {c : Nat} (hc : c < 192) : towerOf c < 8 := by
  rw [towerOf]
  omega

section
variable (d : Dev)

theorem Dev.bit_setFldBit_set {f : Field} {i : Nat} (hi : i < f.w) : bit ((d.setFldBit f i true).fld f) i = true := by
  rw [Dev.fld_setFldBit_same, bit_eq_testBit, Nat.testBit_mod_two_pow, ← bit_eq_testBit, bit_setBit]
  simp [hi]

theorem Dev.takeSite_spare (t site : Nat) : bit ((d.takeSite t site).fld (Reg.TWR_SPARE_SITES.SPARE t)) site = false := by
  rw [Dev.takeSite, Dev.fld_setFld_ne _ _ (by simp [Field.key, Reg.TWR_SPARE_SITES.SPARE, Reg.TWR_SPARE_SITES.COUNT]),
    Dev.bit_setFldBit_clear]

theorem Dev.lowSpare_of_fld {e : Dev} {t : Nat}
    (h : e.fld (Reg.TWR_SPARE_SITES.SPARE t) = d.fld (Reg.TWR_SPARE_SITES.SPARE t)) : e.lowSpare t = d.lowSpare t := by
  rw [Dev.lowSpare, h, Dev.lowSpare]

theorem Dev.lowSpare_retireSite (t site : Nat) : (d.retireSite t site).lowSpare t = d.lowSpare t :=
  d.lowSpare_of_fld (Dev.fld_setFldBit_ne _ _ _ (by
    simp only [Field.key, Reg.TWR_SPARE_SITES.SPARE, Reg.TWR_RETIRED_SITES.RETIRED]
    omega))

end

theorem mem_migIn {d : Dev} {t : Nat} {p : MigPhase} {m : Migr} (h : d.migIn t p = some m) :
    m ∈ d.migs ∧ towerOf m.core = t ∧ m.phase = p := by
  have hp := List.find?_some h
  simp only [Bool.and_eq_true, decide_eq_true_eq] at hp
  exact ⟨List.mem_of_find?_eq_some h, hp⟩

@[simp] theorem Dev.migIn_showMigs (d : Dev) (t u : Nat) (p : MigPhase) : (d.showMigs t).migIn u p = d.migIn u p := rfl

@[simp] theorem Dev.showMigs_mem (d : Dev) (t : Nat) : (d.showMigs t).mem = d.mem := rfl

@[simp] theorem Dev.dropMig_mem (d : Dev) (c : Nat) : (d.dropMig c).mem = d.mem := rfl

@[simp] theorem Dev.takeSite_mem (d : Dev) (t site : Nat) : (d.takeSite t site).mem = d.mem := rfl

@[simp] theorem Dev.modMig_mem (d : Dev) (c : Nat) (f : Migr → Migr) : (d.modMig c f).mem = d.mem := rfl

@[simp] theorem Dev.modVlt_mem (d : Dev) (f : Vlt → Vlt) : (d.modVlt f).mem = d.mem := rfl

theorem Dev.popHead_state (d : Dev) (r : Nat) : (d.popHead r).st = d.st ∧ (d.popHead r).stp = d.stp := by
  unfold Dev.popHead
  split <;> exact ⟨rfl, rfl⟩

theorem Dev.fld_popHead (d : Dev) (r : Nat) (f : Field) : (d.popHead r).fld f = d.fld f := by
  obtain ⟨-, hregs, -⟩ := d.popHead_keeps r
  exact Dev.fld_of_regs hregs f

/-! ## Pipes and the mirror -/

/-- A pipe's retrain has ended: it is counted anew, and jobs go on to its vault's next pipe. -/
def Dev.retrainEnded (d : Dev) (c p : Nat) : Dev := d.modVlt (fun v => { v with
  retrain := v.retrain.erase (c, p)
  fails := Tab.set 0 v.fails (32 * d.column c + p) 0
  secFails := Tab.set [] v.secFails (32 * d.column c + p) []
  calJobs := v.calJobs.map (fun j => j.advance c p) })

variable {s : State}

theorem gives_pipeRetrainDone {c p : Nat} {ok : Bool} {e : Dev} (hc : c < 192) (hp : p < 20) (hu : s.dev.up = true)
    (hr : s.dev.vlt.retrain.contains (c, p) = true)
    (he : (if s.dev.coreGone c then s.dev.retrainEnded c p else if ok then (s.dev.retrainEnded c p).trainSet c p
      else (s.dev.retrainEnded c p).pipeOut c p) = e) :
    Gives (.pipeRetrainDone c p ok) s e.feedRetrains.closeVaultCals := by
  subst he
  rw [Gives, exec, execPipeRetrainDone]
  exact State.run_gives (by simp [coreOk_of hc, hp]) (by rw [hu, hr]; rfl) rfl

theorem runs_mirrorResyncDone (hu : s.dev.up = true) (hm : s.dev.fld Reg.VLT_MIRROR_PEER.STATE = 3) (ho : s.dev.mirrorOut = 0) :
    Runs .mirrorResyncDone s (fun e =>
      OnlyReports [Reg.VLT_MIRROR_PEER.STATE] s.dev e ∧ e.fld Reg.VLT_MIRROR_PEER.STATE = 1) := by
  rw [Runs, exec, execMirrorResyncDone]
  refine State.run_meets rfl (by simp [hu, hm, ho]) ⟨OnlyReports.setFld_record _ _ _ _ (by decide) (by decide), ?_⟩
  exact (Dev.fld_record _ _ (by decide) (by decide) (by decide)).trans (Dev.fld_setFld_same _ _ 1)

/-! ## The phases of a migration -/

/-- A migration that is changed to another phase is no longer one that waits. -/
theorem Dev.migIn_modMig_ne {d : Dev} {t : Nat} {m : Migr} {f : Migr → Migr} (hf : ∀ x, (f x).phase ≠ .waiting) :
    (d.modMig m.core f).migIn t .waiting ≠ some m := by
  intro h
  obtain ⟨hmem, -, hphase⟩ := mem_migIn h
  obtain ⟨x, -, hx⟩ := List.mem_map.mp hmem
  split at hx
  · exact hf x (hx ▸ hphase)
  · rename_i hne
    exact hne (congrArg Migr.core hx)

/-- A migration has its turn on a spare site: it takes the site, and bank copies of its core are abandoned. -/
def Dev.onSpare (d : Dev) (m : Migr) (site : Nat) : Dev :=
  (((d.takeSite (towerOf m.core) site).setFld (Reg.TWR_CORE.TARGET m.core) site).modVlt (fun v => { v with
    copies := v.copies.filter (fun e => e.1 != m.core) })).modMig m.core (fun m => { m with
    phase := .init, target := site, since := d.clk })

section
variable {d : Dev} {m : Migr} {site : Nat}

theorem Dev.migTurn_of_lowSpare (hs : d.lowSpare (towerOf m.core) = some site) :
    d.migTurn m = (d.onSpare m site).showMigs (towerOf m.core) := by
  simp only [Dev.migTurn, hs]
  rfl

/-- A migration that has had its turn is no longer one that waits. -/
theorem Dev.migIn_onSpare_ne {t : Nat} : (d.onSpare m site).migIn t .waiting ≠ some m := by
  refine Dev.migIn_modMig_ne fun x => ?_
  rintro ⟨⟩

theorem Dev.onSpare_mem : (d.onSpare m site).mem = d.mem := by
  rw [Dev.onSpare, Dev.modMig_mem, Dev.modVlt_mem, Dev.setFld_mem, Dev.takeSite_mem]

theorem Dev.onSpare_site : (d.onSpare m site).fld (Reg.TWR_CORE.TARGET m.core) = site % 32 ∧
    bit ((d.onSpare m site).fld (Reg.TWR_SPARE_SITES.SPARE (towerOf m.core))) site = false := by
  have hregs : (d.onSpare m site).regs = ((d.takeSite (towerOf m.core) site).setFld (Reg.TWR_CORE.TARGET m.core) site).regs := rfl
  have hne : (Reg.TWR_SPARE_SITES.SPARE (towerOf m.core)).key ≠ (Reg.TWR_CORE.TARGET m.core).key := by
    simp only [Field.key, Reg.TWR_SPARE_SITES.SPARE, Reg.TWR_CORE.TARGET]
    omega
  rw [Dev.fld_of_regs hregs, Dev.fld_of_regs hregs, Dev.fld_setFld_same, Dev.fld_setFld_ne _ _ hne, Dev.takeSite_spare]
  exact ⟨rfl, rfl⟩

theorem Dev.migTurn_takesSpare (hm : m.core < 192) (hs : d.lowSpare (towerOf m.core) = some site) :
    (d.migTurn m).fld (Reg.TWR_CORE.TARGET m.core) = site % 32 ∧
      bit ((d.migTurn m).fld (Reg.TWR_SPARE_SITES.SPARE (towerOf m.core))) site = false ∧
      (d.migTurn m).migIn (towerOf m.core) .waiting ≠ some m ∧ (d.migTurn m).mem = d.mem := by
  obtain ⟨htarget, hspare⟩ := Dev.onSpare_site (d := d) (m := m) (site := site)
  have hshow := ClosingKeeps.showMigs (d.onSpare m site) (towerOf m.core)
  rw [Dev.migTurn_of_lowSpare hs, hshow.fld (ofTowers_target hm), hshow.fld (ofTowers_spare (towerOf_lt hm)), Dev.migIn_showMigs,
    Dev.showMigs_mem]
  exact ⟨htarget, hspare, Dev.migIn_onSpare_ne, Dev.onSpare_mem⟩

end

theorem Dev.unreadable_nil {d : Dev} {m : Migr} (h : d.corePoison m.core = []) : d.unreadable m [] = [] := by
  simp [Dev.unreadable, h]

/-- A copy that can read everything goes on to the verification. -/
theorem Dev.copied_all {d : Dev} {m : Migr} (h : d.corePoison m.core = []) (go : Dev → Dev) : d.copied m [] go =
    go ((d.bumpSat Reg.VLT_UE.BUDDY 0).modMig m.core (fun m => { m with buddy := m.buddy + 0, fetch := m.fetch ++ [] })) := by
  simp only [Dev.copied, Dev.unreadable_nil h]
  rfl

theorem Dev.modMig_modMig (d : Dev) (c : Nat) {f g : Migr → Migr} (hf : ∀ m, (f m).core = m.core) :
    (d.modMig c f).modMig c g = d.modMig c (fun m => g (f m)) := by
  simp only [Dev.modMig, List.map_map]
  congr 1
  refine List.map_congr_left fun m _ => ?_
  by_cases hc : m.core = c <;> simp [hc, hf]

section
variable {t : Nat} {m : Migr} (ht : t < 8) (hu : s.dev.up = true)
include ht hu

theorem runs_migrationStart {site : Nat} (hr : s.dev.migRuns t = false) (hm : s.dev.migIn t .waiting = some m)
    (hs : s.dev.lowSpare t = some site) : Runs (.migrationStart t) s (fun e =>
      e.fld (Reg.TWR_CORE.TARGET m.core) = site % 32 ∧ bit (e.fld (Reg.TWR_SPARE_SITES.SPARE t)) site = false ∧
      e.migIn t .waiting ≠ some m ∧ e.mem = s.dev.mem) := by
  obtain ⟨-, rfl, -⟩ := mem_migIn hm
  rw [Runs, exec, execMigrationStart]
  refine State.run_meets (decide_eq_true ht) (by simp [hu, hr, hm]) ?_
  simp only [hm]
  exact Dev.migTurn_takesSpare (lt_of_towerOf ht rfl) hs

theorem gives_migrationInitDone (hm : s.dev.migIn t .init = some m) :
    Gives (.migrationInitDone t) s (s.dev.modMig m.core (fun m => { m with phase := .copy })) := by
  rw [Gives, exec, execMigrationInitDone]
  exact State.run_gives (decide_eq_true ht) (by simp [hu, hm]) (by simp only [hm])

theorem runs_migrationCopyDone (hm : s.dev.migIn t .copy = some m) (hp : s.dev.corePoison m.core = []) :
    Runs (.migrationCopyDone t []) s (fun e => e.migs = (s.dev.modMig m.core (fun m => { m with phase := .verify })).migs ∧
      e.mem = s.dev.mem ∧ FieldsKept [Reg.VLT_UE.BUDDY] s.dev e) := by
  have hwait : s.dev.copyWaits m [] = false := by simp [Dev.copyWaits, Dev.unreadable_nil hp]
  rw [Runs, exec, execMigrationCopyDone]
  refine State.run_meets (decide_eq_true ht) (by simp [hu, hm, hwait]) ?_
  simp only [hm, Dev.copied_all hp]
  refine ⟨?_, rfl, FieldsKept.setFld s.dev Reg.VLT_UE.BUDDY _ _ (by decide)⟩
  rw [Dev.modMig_modMig]
  · simp [Dev.modMig]
  · exact fun _ => rfl

end

/-! ## The cut-over -/

/-- The core of a migration serves from its target, and its source site is retired. -/
def Dev.siteMoved (d : Dev) (m : Migr) : Dev :=
  (((d.setFld (Reg.TWR_CORE.SITE m.core) m.target).setFld (Reg.TWR_CORE.TARGET m.core) 0x1F).bumpSat
    (Reg.TWR_CORE.MIGRATIONS m.core) 1).retireSite (towerOf m.core) (d.siteOf m.core)

/-- A core on a fresh site has passed nothing and lacks no site. -/
def Dev.freshSite (d : Dev) (c : Nat) : Dev :=
  { d with cleanPasses := Tab.set 0 d.cleanPasses c 0, shortSites := setBit d.shortSites c false }

@[simp] theorem Dev.fld_freshSite (d : Dev) (c : Nat) (f : Field) : (d.freshSite c).fld f = d.fld f := rfl

@[simp] theorem Dev.freshSite_mem (d : Dev) (c : Nat) : (d.freshSite c).mem = d.mem := rfl

/-- A cut-over up to the end of the migration: the sectors fetched stand on the target, all pipes serve, and no fault is counted. -/
def Dev.movedOver (d : Dev) (m : Migr) : Dev :=
  ((((({ d with poison := d.poison.filter (fun e => !m.fetch.contains e.1) } : Dev).siteMoved m).setFld
    (Reg.VLT_PIPES.UP m.core) 0xFFFFF).setFld (Reg.TWR_CORE.PIPES m.core) 20).freshSite m.core).setFld
    (Reg.ARR_CORE_FAULT.PENDING m.core) 0

theorem ClosingKeeps.cutOver (d : Dev) (m : Migr) :
    ClosingKeeps (((d.movedOver m).dropMig m.core).setFld (Reg.TWR_CORE.STATE m.core) 0) (d.cutOver m) := by
  unfold Dev.cutOver
  refine .trans ?_ ((ClosingKeeps.grantRuns _).trans (.quiesceNow _))
  have hend := (ClosingKeeps.setCoreSt ((d.movedOver m).dropMig m.core) m.core 0 (d.siteOf m.core) m.target).trans
    (.migrationEnd _ m 1)
  cases m.desc with
  | none => exact hend
  | some k => exact hend.trans (.finishKey _ k _)

section
variable {d : Dev} {m : Migr} (hm : m.core < 192)
include hm

theorem Dev.fld_movedOver {f : Field} (hf : f.OfTowers) (hp : f.key ≠ (Reg.TWR_CORE.PIPES m.core).key) :
    (d.movedOver m).fld f = (d.siteMoved m).fld f := by
  have hout : f.key ≠ (Reg.VLT_PIPES.UP m.core).key ∧ f.key ≠ (Reg.ARR_CORE_FAULT.PENDING m.core).key := by
    simp only [Field.OfTowers, Field.key, Reg.TWR_CORE.SITE, Reg.TWR_MIG.ACTIVE, Reg.VLT_PIPES.UP, Reg.ARR_CORE_FAULT.PENDING] at hf ⊢
    omega
  obtain ⟨hup, hpending⟩ := hout
  rw [Dev.movedOver, Dev.fld_setFld_ne _ _ hpending, Dev.fld_freshSite, Dev.fld_setFld_ne _ _ hp, Dev.fld_setFld_ne _ _ hup]
  rfl

theorem Dev.siteMoved_site (ht : m.target < 32) : (d.siteMoved m).siteOf m.core = m.target := by
  have hne : (Reg.TWR_CORE.SITE m.core).key ≠ (Reg.TWR_CORE.TARGET m.core).key ∧
      (Reg.TWR_CORE.SITE m.core).key ≠ (Reg.TWR_CORE.MIGRATIONS m.core).key ∧
      (Reg.TWR_CORE.SITE m.core).key ≠ (Reg.TWR_RETIRED_SITES.RETIRED (towerOf m.core)).key := by
    simp only [Field.key, Reg.TWR_CORE.SITE, Reg.TWR_CORE.TARGET, Reg.TWR_CORE.MIGRATIONS, Reg.TWR_RETIRED_SITES.RETIRED]
    omega
  obtain ⟨htarget, hcount, hretired⟩ := hne
  rw [Dev.siteOf, Dev.siteMoved, Dev.retireSite, Dev.fld_setFldBit_ne _ _ _ hretired, Dev.fld_bumpSat_ne _ _ hcount,
    Dev.fld_setFld_ne _ _ htarget, Dev.fld_setFld_same]
  exact Nat.mod_eq_of_lt ht

/-- What the cut-over leaves of the core's place, and of the site that it comes from. -/
theorem Dev.cutOver_sites : (d.cutOver m).coreSt m.core = 0 ∧
    (m.target < 32 → (d.cutOver m).siteOf m.core = m.target) ∧
    (d.siteOf m.core < 28 →
      bit ((d.cutOver m).fld (Reg.TWR_RETIRED_SITES.RETIRED (towerOf m.core))) (d.siteOf m.core) = true) := by
  have hcut := ClosingKeeps.cutOver d m
  have hdrop := ClosingKeeps.dropMig (d.movedOver m) m.core
  have hfld {f : Field} (hf : f.OfTowers) (hs : f.key ≠ (Reg.TWR_CORE.STATE m.core).key)
      (hp : f.key ≠ (Reg.TWR_CORE.PIPES m.core).key) : (d.cutOver m).fld f = (d.siteMoved m).fld f := by
    rw [hcut.fld hf, Dev.fld_setFld_ne _ _ hs, hdrop.fld hf, Dev.fld_movedOver hm hf hp]
  refine ⟨?_, fun ht => ?_, fun ho => ?_⟩
  · rw [Dev.coreSt, hcut.fld (ofTowers_state hm), Dev.fld_setFld_same]
    rfl
  · rw [Dev.siteOf, hfld (ofTowers_site hm) ?_ ?_]
    · exact Dev.siteMoved_site hm ht
    all_goals simp [Field.key, Reg.TWR_CORE.SITE, Reg.TWR_CORE.STATE, Reg.TWR_CORE.PIPES]
  · rw [hfld (ofTowers_retired (towerOf_lt hm)) ?_ ?_]
    · exact Dev.bit_setFldBit_set _ ho
    all_goals
      simp only [Field.key, Reg.TWR_RETIRED_SITES.RETIRED, Reg.TWR_CORE.STATE, Reg.TWR_CORE.PIPES]
      omega

end

theorem gives_migrationVerifyDone {t : Nat} {m : Migr} (mismatch : Bool) (ht : t < 8) (hu : s.dev.up = true)
    (hm : s.dev.migIn t .verify = some m) :
    Gives (.migrationVerifyDone t mismatch []) s (if mismatch then s.dev.targetFailed m else s.dev.cutOver m) := by
  rw [Gives, exec, execMigrationVerifyDone]
  exact State.run_gives (decide_eq_true ht) (by simp [hu, hm]) (by simp only [hm, List.isEmpty_nil, if_true])

/-! ## SPARE_CORE -/

theorem Desc.reserved_of_none {j : Desc} {l : List (Nat × Nat × Nat)} (h : j.reservedByte l = none) : j.reserved l = none := by
  rw [Desc.reserved, h]
  rfl

section
variable {d : Dev} {c site : Nat} (k : Nat × Nat) (hc : c < 192)
include hc

/-- A LOST core that is brought back is MIGRATING to the site that it takes (R378). -/
theorem Dev.revive_onSpare (hup : d.fld (Reg.D2D_LINK_STATUS.BUNDLE_UP (towerOf c)) ≠ 0) (hs : d.lowSpare (towerOf c) = some site) :
    (d.revive c k).coreSt c = 1 ∧ (d.revive c k).fld (Reg.TWR_CORE.TARGET c) = site % 32 := by
  have hup' : (d.retireSite (towerOf c) (d.siteOf c)).fld (Reg.D2D_LINK_STATUS.BUNDLE_UP (towerOf c)) ≠ 0 := by
    rwa [Dev.retireSite, Dev.fld_setFldBit_ne]
    simp only [Field.key, Reg.D2D_LINK_STATUS.BUNDLE_UP, Reg.TWR_RETIRED_SITES.RETIRED]
    omega
  have hs' := (d.lowSpare_retireSite (towerOf c) (d.siteOf c)).trans hs
  have hkeep : ∃ x y : Dev, y.regs = (x.setFld (Reg.TWR_CORE.TARGET c) site).regs ∧
      ClosingKeeps (y.setFld (Reg.TWR_CORE.STATE c) 1) (d.revive c k) := by
    simp only [Dev.revive, if_neg hup', hs']
    refine ⟨(d.retireSite (towerOf c) (d.siteOf c)).takeSite (towerOf c) site, _, ?_,
      (ClosingKeeps.setCoreSt _ c 1 _ site).trans (.showMigs _ _)⟩
    rfl
  obtain ⟨x, y, hregs, hy⟩ := hkeep
  rw [Dev.coreSt, hy.fld (ofTowers_state hc), hy.fld (ofTowers_target hc), Dev.fld_setFld_same,
    Dev.fld_setFld_ne _ _ (by simp [Field.key, Reg.TWR_CORE.TARGET, Reg.TWR_CORE.STATE]), Dev.fld_of_regs hregs, Dev.fld_setFld_same]
  exact ⟨rfl, rfl⟩

/-- A LOST core is RETIRED when its tower has no spare site (R379). -/
theorem Dev.revive_retired (hs : d.lowSpare (towerOf c) = none) : (d.revive c k).coreSt c = 3 := by
  have hs' := (d.lowSpare_retireSite (towerOf c) (d.siteOf c)).trans hs
  have hkeep : ∃ x : Dev, ClosingKeeps (x.setFld (Reg.TWR_CORE.STATE c) 3) (d.revive c k) := by
    simp only [Dev.revive, hs', ite_self]
    exact ⟨_, (ClosingKeeps.setCoreSt _ c 3 _ 0x1F).trans (.finishKey _ k _)⟩
  obtain ⟨x, hx⟩ := hkeep
  rw [Dev.coreSt, hx.fld (ofTowers_state hc), Dev.fld_setFld_same]
  rfl

end

section
variable {r : Nat} {j : Desc} (hr : r < 16) (h : Starts s r j) (ho : j.opc = 0xA0) (hv : j.reservedByte [(24, 0, 8)] = none)
  (hc : j.num 24 1 < 192)
include hr h ho hv hc

theorem gives_spareCore_refused {e : Ending}
    (he : firstFail [failIf (s.dev.coreSt (j.num 24 1) = 1) s.dev.conflict,
      failIf (s.dev.coreSt (j.num 24 1) = 3) ⟨.noResource, Detail.none⟩] = some e) :
    Gives (.spareCore r) s ((s.dev.popHead r).refuse j e) := by
  have hcore : badIf (191 < j.num 24 1) 24 = none := if_neg (by simp; omega)
  rw [Gives, exec, execSpareCore]
  refine State.run_gives (decide_eq_true hr) (h.descDue (by simp [ho])) ?_
  simp only [Dev.startDesc, h.1, Desc.reserved_of_none hv, hcore, h.stateCheck, firstFail_none_cons, he]

theorem gives_spareCore_go (h1 : s.dev.coreSt (j.num 24 1) ≠ 1) (h3 : s.dev.coreSt (j.num 24 1) ≠ 3) :
    Gives (.spareCore r) s ((s.dev.popHead r).atGap j Dev.spareCoreGo) := by
  have hcore : badIf (191 < j.num 24 1) 24 = none := if_neg (by simp; omega)
  rw [Gives, exec, execSpareCore]
  exact h.run_go hr (by simp [ho]) (by
    rw [Desc.reserved_of_none hv, hcore, h.stateCheck, firstFail_none_cons]; simp [failIf, h1, h3])

end

/-- Outside RUNNING the work of a descriptor starts at once (R196). -/
theorem Dev.atGap_now {d : Dev} (j : Desc) (go : Dev → Desc → Dev) (h : d.st ≠ .running) : d.atGap j go = go d j :=
  if_neg (by simp [h])

/-- In RUNNING the work of a descriptor waits for the next step gap (R196). -/
theorem Dev.atGap_deferred {d : Dev} (j : Desc) (go : Dev → Desc → Dev) (h : d.st = .running) (hp : d.stp.phase ≠ .gap) :
    d.atGap j go = d.deferGap (.calReq j.ring j.sub) := if_pos (by simp [h, hp])

/-! ## A core brought back -/

section
variable (d : Dev) {c q : Nat} (hc : c < 192)
include hc

/-- Zeros stored over a vault: the copy of the live table and the host log lie in Midway SRAM. -/
theorem Dev.peek_storeZero_vault (hq : q < midwayBase) : (d.storeZero (vaultBase c) 0x100000000).peek q =
    if vaultBase c ≤ q ∧ q < vaultBase c + 0x100000000 then 0 else d.peek q := by
  have habove : vaultBase c + 0x100000000 ≤ d.updArea + 0x1000 := by
    simp only [vaultBase, Dev.updArea, midwayBase]
    omega
  have hlive : (d.locked && overlaps (vaultBase c) 0x100000000 (d.updArea + 0x1000) 0x1000) = false := by
    simp [overlaps, Nat.not_lt.mpr habove]
  rw [Dev.storeZero, Dev.besideLive_off _ _ _ _ hlive, Dev.mirror_peek _ _ _ _ (.inr (.inl (Dev.lt_logAddr _ hq))), Dev.peek_zero]

/-- The site brought in for a core, up to its change of state: zeroed, with all pipes in service and no fault counted. -/
def Dev.siteZeroed (d : Dev) (c : Nat) (m : Migr) : Dev :=
  let x := (d.storeZero (vaultBase c) 0x100000000).zero (sramAt c 0) sramSize
  let x := ((x.setFld (Reg.TWR_CORE.SITE c) m.target).setFld (Reg.TWR_CORE.TARGET c) 0x1F).setFld (Reg.ARR_CORE_FAULT.PENDING c) 0
  let x := (x.setFld (Reg.VLT_PIPES.UP c) 0xFFFFF).setFld (Reg.TWR_CORE.PIPES c) 20
  (x.freshSite c).dropMig c

theorem Dev.peek_siteZeroed (m : Migr) (hq : q < midwayBase) : (d.siteZeroed c m).peek q =
    if sramAt c 0 ≤ q ∧ q < sramAt c 0 + sramSize then 0
    else if vaultBase c ≤ q ∧ q < vaultBase c + 0x100000000 then 0 else d.peek q := by
  have hzero : (d.siteZeroed c m).mem = ((d.storeZero (vaultBase c) 0x100000000).zero (sramAt c 0) sramSize).mem := by
    simp only [Dev.siteZeroed, Dev.dropMig_mem, Dev.freshSite_mem, Dev.setFld_mem]
  rw [← d.peek_storeZero_vault hc hq, ← Dev.peek_zero, Dev.peek, hzero, Dev.peek]

/-- A core that becomes ACTIVE on a zeroed site has a vault and an SRAM of zeros. -/
theorem ClosingKeeps.siteZeroed {e : Dev} {m : Migr} (h : ClosingKeeps ((d.siteZeroed c m).setFld (Reg.TWR_CORE.STATE c) 0) e) :
    e.coreSt c = 0 ∧ (∀ o, o < 0x100000000 → e.peek (vaultBase c + o) = 0) ∧ (∀ o, o < sramSize → e.peek (sramAt c o) = 0) := by
  have hpeek {q : Nat} (hq : q < midwayBase) : e.peek q = (d.siteZeroed c m).peek q := h.2 q hq
  refine ⟨?_, fun o ho => ?_, fun o ho => ?_⟩
  · rw [Dev.coreSt, h.fld (ofTowers_state hc), Dev.fld_setFld_same]
    rfl
  · have hq : vaultBase c + o < midwayBase := by
      simp only [vaultBase, midwayBase]
      omega
    rw [hpeek hq, d.peek_siteZeroed hc m hq, if_pos (⟨by omega, by omega⟩ : vaultBase c ≤ vaultBase c + o ∧ _), ite_self]
  · have hq : sramAt c o < midwayBase := by
      simp only [sramAt, sramBase, sramSize, midwayBase] at ho ⊢
      omega
    rw [hpeek hq, d.peek_siteZeroed hc m hq, if_pos]
    simp only [sramAt]
    omega

end

theorem runs_spareZeroDone {c : Nat} {m : Migr} (hc : c < 192) (hu : s.dev.up = true)
    (hm : s.dev.migs.find? (fun m => m.core = c && m.phase = .zero) = some m) :
    Runs (.spareZeroDone c) s (fun e => e.coreSt c = 0 ∧ (∀ o, o < 0x100000000 → e.peek (vaultBase c + o) = 0) ∧
      (∀ o, o < sramSize → e.peek (sramAt c o) = 0)) := by
  have hany : s.dev.migs.any (fun m => m.core = c && m.phase = .zero) = true :=
    any_of_find?_eq_some hm
  have hstate := ClosingKeeps.setCoreSt (s.dev.siteZeroed c m) c 0 (s.dev.siteOf c) m.target
  rw [Runs, exec, execSpareZeroDone]
  refine State.run_meets (coreOk_of hc) (by rw [hu, hany]; rfl) ?_
  simp only [hm]
  refine ClosingKeeps.siteZeroed s.dev hc (m := m) (.trans ?_ ((ClosingKeeps.grantRuns _).trans (.quiesceNow _)))
  cases m.desc with
  | none => exact hstate
  | some k => exact hstate.trans (.finishKey _ k _)

/-! ## Calibration and margining of pipes -/

section
variable {r : Nat} {j : Desc} (hr : r < 16) (h : Starts s r j)
include hr h

theorem gives_calReqVault (ho : j.opc = 0x90) (hk : j.num 24 1 = 2) (hv : j.reservedByte [(24, 0, 8), (26, 0, 192)] = none)
    (hm : s.dev.namedMigrating j = false) : Gives (.calReqVault r) s ((s.dev.popHead r).atGap j Dev.calVaultGo) := by
  rw [Gives, exec, execCalReqVault]
  exact h.run_go hr (by simp [ho, hk]) (by rw [Desc.reserved_of_none hv, h.stateCheck, hm]; rfl)

theorem gives_marginVault (ho : j.opc = 0xE0) (hk : j.num 24 1 = 0)
    (hc : s.dev.marginCheck j 192 (320 * popCount 192 j.mask)
      [failIf (s.dev.namedMigrating j) s.dev.conflict, ((onesOf 192 j.mask).find? s.dev.coreGone).map Ending.lost] = none) :
    Gives (.marginVault r) s (if j.mask = 0 then (s.dev.popHead r).finish j ⟨.done, Detail.none⟩
      else (s.dev.popHead r).modVlt (fun v => { v with marginJobs := v.marginJobs ++
        [SweepJob.begin j.key (((onesOf 192 j.mask).map (fun c => (List.range 20).map (fun p => (c, p)))).flatten)] })) := by
  rw [Gives, exec, execMarginVault]
  exact h.run_go hr (by simp [ho, hk]) hc

end

theorem gives_vaultMarginPipeDone {c p : Nat} {x : PipeSweep} {w : SweepJob} (hc : c < 192) (hp : p < 20) (hu : s.dev.up = true)
    (hw : s.dev.vlt.marginJobs.find? (fun j => j.busy.contains (c, p)) = some w) {d : Dev}
    (hd : d = s.dev.modVlt (fun v => { v with timing := Tab.set (0, 0, 0) v.timing c (s.dev.sweepTiming c p x) })) :
    Gives (.vaultMarginPipeDone c p x) s
      ((d.putRecord w.desc (fun j => 320 * maskRank j.mask c + 16 * p)
        (d.pipeRecord c p x (s.dev.sweepTiming c p x))).modVlt (fun v => { v with
          marginJobs := v.marginJobs.map (fun j => if j.desc = w.desc then j.advance c p else j) })).closeVaultMargins := by
  have hany : s.dev.vlt.marginJobs.any (fun j => j.busy.contains (c, p)) = true :=
    any_of_find?_eq_some hw
  subst hd
  rw [Gives, exec, execVaultMarginPipeDone]
  exact State.run_gives (by simp [coreOk_of hc, hp]) (by rw [hu, hany]; rfl) (by simp only [hw])

/-- Settles O45: each clause is the command's effect in the case that its hypotheses choose, with what it leaves of cores and sites. -/
theorem coreMigration : Obligations.CoreMigration := by
  unfold Obligations.CoreMigration
  intro s
  refine ⟨?pipe, fun hu hm ho => runs_mirrorResyncDone hu hm ho, fun t m site ht hu hr hm hs => runs_migrationStart ht hu hr hm hs,
    fun t m ht hu hm => gives_migrationInitDone ht hu hm, fun t m ht hu hm hp => runs_migrationCopyDone ht hu hm hp, ?verify, ?spare,
    fun c m hc hu hm => runs_spareZeroDone hc hu hm, fun r j hr h ho hk hv hm => gives_calReqVault hr h ho hk hv hm, ?margin,
    fun c p x w d hc hp hu hw hd => gives_vaultMarginPipeDone hc hp hu hw hd⟩
  case pipe =>
    intro c p hc hp hu hr d hd
    subst hd
    refine ⟨fun hg => ⟨?_, ?_⟩, fun ok hg => gives_pipeRetrainDone hc hp hu hr (if_pos hg)⟩
    · exact gives_pipeRetrainDone hc hp hu hr (by rw [hg]; rfl)
    · exact gives_pipeRetrainDone hc hp hu hr (by rw [hg]; rfl)
  case verify =>
    intro t m ht hu hm
    obtain ⟨-, htower, -⟩ := mem_migIn hm
    subst htower
    obtain ⟨hactive, hsite, hretired⟩ := Dev.cutOver_sites (d := s.dev) (lt_of_towerOf ht rfl)
    exact ⟨fun htarget => (gives_migrationVerifyDone false ht hu hm).runs ⟨rfl, hactive, hsite htarget, hretired⟩,
      gives_migrationVerifyDone true ht hu hm⟩
  case spare =>
    intro r j hr h ho hv hc
    obtain ⟨hst, hstp⟩ := s.dev.popHead_state r
    have hfld := s.dev.fld_popHead r
    have hcore : (s.dev.popHead r).coreSt (j.num 24 1) = s.dev.coreSt (j.num 24 1) := hfld _
    have hlow := s.dev.lowSpare_of_fld (hfld (Reg.TWR_SPARE_SITES.SPARE (towerOf (j.num 24 1))))
    refine ⟨fun h1 => ?_, fun h3 => ?_, fun hs h0 => ?_, fun hs h2 => ?_, fun hs hp h1 h3 => ?_⟩
    · exact gives_spareCore_refused hr h ho hv hc (by simp [failIf, h1])
    · exact gives_spareCore_refused hr h ho hv hc (by simp [failIf, h3])
    · have hgo := gives_spareCore_go hr h ho hv hc (by omega) (by omega)
      rw [Dev.atGap_now _ _ (hst ▸ hs)] at hgo
      simpa only [Dev.spareCoreGo, hcore, h0] using hgo
    · have hgo := gives_spareCore_go hr h ho hv hc (by omega) (by omega)
      rw [Dev.atGap_now _ _ (hst ▸ hs)] at hgo
      simp only [Dev.spareCoreGo, hcore, h2] at hgo
      exact hgo.runs ⟨rfl, fun site hup hlo => Dev.revive_onSpare _ hc (by rwa [hfld]) (hlow.trans hlo),
        fun hlo => Dev.revive_retired _ hc (hlow.trans hlo)⟩
    · have hgo := gives_spareCore_go hr h ho hv hc h1 h3
      rwa [Dev.atGap_deferred _ _ (hst.trans hs) (by rwa [hstp])] at hgo
  case margin =>
    intro r j hr h ho hk hc
    have hgo := gives_marginVault hr h ho hk hc
    exact ⟨fun h0 => by rwa [if_pos h0] at hgo, fun h0 => by rwa [if_neg h0] at hgo⟩

end Sys2Proof.Machine
end

section
/-! # The completion of a descriptor

Settles O24. What a completion writes: its signal, then its record (R185, R188). -/

namespace Sys2Proof.Machine

variable {d e g : Dev} {j : Desc} {r q : Nat}

/-! ## Ring pairs -/

theorem Dev.ring_setRing (d : Dev) (r q : Nat) (x : Ring) : (d.setRing r x).ring q = if q = r then x else d.ring q :=
  Tab.get_set _ _ _ _ _

@[simp] theorem Dev.ring_setRing_same (d : Dev) (r : Nat) (x : Ring) : (d.setRing r x).ring r = x := Tab.get_set_same _ _ _ _

theorem Dev.ring_setRing_ne (d : Dev) (x : Ring) (h : q ≠ r) : (d.setRing r x).ring q = d.ring q := Tab.get_set_ne _ _ _ h

@[simp] theorem Dev.fld_setRing (d : Dev) (r : Nat) (x : Ring) (f : Field) : (d.setRing r x).fld f = d.fld f := rfl

theorem Dev.host_setRing (d : Dev) (r : Nat) (x : Ring) : (d.setRing r x).hq.host = d.hq.host := rfl

/-! ## Host memory -/

/-- The first bytes of what has been written to host memory read back. -/
theorem Dev.hostRead_hostWrite (d : Dev) (a : Nat) {l : List Byte} {n : Nat} (h : n ≤ l.length) :
    (d.hostWrite a l).hostRead a n = l.take n := by
  refine List.ext_getElem (by simp [Dev.hostRead, h]) fun i hi hi' => ?_
  have hl : i < l.length := by
    rw [List.length_take] at hi'
    omega
  simp only [Dev.hostRead, Dev.hostWrite, List.getElem_map, List.getElem_range, List.getElem_take]
  exact Tab.get_cells_in 0 l a i _ hl

theorem Dev.hostRead_of_host (h : e.hq.host = d.hq.host) (a n : Nat) : e.hostRead a n = d.hostRead a n := by
  simp only [Dev.hostRead, h]

/-! ## The signal -/

/-- A signal changes the counters, what waits on them, and the count of signals. -/
theorem Dev.signal_frame (d : Dev) (j : Desc) (st : Status) : d.signal j st = { d with
    regs := (d.signal j st).regs, evt := (d.signal j st).evt, mfb := (d.signal j st).mfb, met := (d.signal j st).met } := by
  unfold Dev.signal
  split <;> rfl

theorem Dev.fld_signal (d : Dev) (j : Desc) (st : Status) {f : Field} (h : f.key ≠ Reg.EVT_SIGNALS.COUNT.key) :
    (d.signal j st).fld f = d.fld f := by
  unfold Dev.signal
  split
  · exact Dev.get_evtAdd_ne _ _ _ _ _ h
  · rfl

theorem Dev.signal_on {st : Status} (h : j.fb 1 2 1 = 1) (hg : st.good = true) : d.signal j st = d.evtAdd (j.num 10 2) (j.num 16 4) := by
  simp [Dev.signal, h, hg]

theorem Dev.signal_off {st : Status} (h : j.fb 1 2 1 = 0) : d.signal j st = d := by
  simp [Dev.signal, h]

/-! ## Records written -/

/-- Records have been written: the host interface has moved on, its settings and what its rings have fetched and started staying,
the count of records has too, and what leaves the block. -/
structure RecordsWritten (d e : Dev) : Prop where
  frame : e = { d with
    regs := e.regs, out := e.out
    hq := { d.hq with
      rings := e.hq.rings, interval := e.hq.interval, host := e.hq.host, pba := e.hq.pba, holdoff := e.hq.holdoff } }
  fields : FieldsKept [Reg.HQ_DESC_DONE.COUNT] d e
  rings : ∀ q, e.ring q = { d.ring q with held := (e.ring q).held, cqTail := (e.ring q).cqTail }

namespace RecordsWritten

theorem refl (d : Dev) : RecordsWritten d d := ⟨rfl, .refl _ d, fun _ => rfl⟩

theorem trans (h : RecordsWritten d e) (h' : RecordsWritten e g) : RecordsWritten d g :=
  ⟨by rw [h'.frame, h.frame], h.fields.trans h'.fields, fun q => by rw [h'.rings, h.rings]⟩

theorem foldl {α : Type} {f : Dev → α → Dev} (hf : ∀ d a, RecordsWritten d (f d a)) (l : List α) :
    ∀ d, RecordsWritten d (l.foldl f d) := by
  induction l with
  | nil => exact refl
  | cons a l ih => exact fun d => (hf d a).trans (ih _)

theorem msix (d : Dev) (v : Nat) : RecordsWritten d (d.msix v) := ⟨rfl, .of_regs _ rfl, fun _ => rfl⟩

theorem setRing (d : Dev) (r : Nat) {x : Ring} (hx : x = { d.ring r with held := x.held, cqTail := x.cqTail }) :
    RecordsWritten d (d.setRing r x) := by
  refine ⟨rfl, .of_regs _ rfl, fun q => ?_⟩
  rw [Dev.ring_setRing]
  split
  · rename_i hq
    rw [hq]
    exact hx
  · rfl

theorem hostWrite (d : Dev) (a : Nat) (l : List Byte) : RecordsWritten d (d.hostWrite a l) := ⟨rfl, .of_regs _ rfl, fun _ => rfl⟩

theorem setInterval (d : Dev) (n : Nat) : RecordsWritten d { d with hq := { d.hq with interval := n } } :=
  ⟨rfl, .of_regs _ rfl, fun _ => rfl⟩

theorem bumpDone (d : Dev) (n : Nat) : RecordsWritten d (d.bump Reg.HQ_DESC_DONE.COUNT n) :=
  ⟨rfl, .setFld d Reg.HQ_DESC_DONE.COUNT _ _ (by decide), fun _ => rfl⟩

theorem st (h : RecordsWritten d e) : e.st = d.st := by rw [h.frame]

theorem mem (h : RecordsWritten d e) : e.mem = d.mem := by rw [h.frame]

theorem cores (h : RecordsWritten d e) : e.cores = d.cores := by rw [h.frame]

theorem evt (h : RecordsWritten d e) : e.evt = d.evt := by rw [h.frame]

theorem locked (h : RecordsWritten d e) : e.locked = d.locked := by rw [h.frame]

theorem fetched (h : RecordsWritten d e) (q : Nat) : (e.ring q).fetched = (d.ring q).fetched := by rw [h.rings]

theorem started (h : RecordsWritten d e) (q : Nat) : (e.ring q).started = (d.ring q).started := by rw [h.rings]

theorem cqHead (h : RecordsWritten d e) (q : Nat) : (e.ring q).cqHead = (d.ring q).cqHead := by rw [h.rings]

/-- The settings of the function stay, and with them what masks a vector. -/
theorem settings (h : RecordsWritten d e) : e.hq.pcieUp = d.hq.pcieUp ∧ e.hq.busMaster = d.hq.busMaster ∧ e.hq.msixOn = d.hq.msixOn ∧
    e.hq.pcie = d.hq.pcie ∧ e.hq.msixTab = d.hq.msixTab ∧ e.hq.hostErr = d.hq.hostErr := by
  rw [h.frame]
  exact ⟨rfl, rfl, rfl, rfl, rfl, rfl⟩

theorem msixMasked (h : RecordsWritten d e) (v : Nat) : e.msixMasked v = d.msixMasked v := by
  obtain ⟨hup, -, hon, -, htab, -⟩ := h.settings
  rw [Dev.msixMasked, hup, hon, htab, Dev.msixMasked]

theorem fld (h : RecordsWritten d e) {f : Field} (hf : f.key ≠ Reg.HQ_DESC_DONE.COUNT.key := by decide) : e.fld f = d.fld f :=
  h.fields f (by simpa using hf)

theorem polls (h : RecordsWritten d e) : e.polls = d.polls := by
  obtain ⟨hup, hbus, -⟩ := h.settings
  rw [Dev.polls, Dev.on, h.locked, h.fld, hup, hbus]
  rfl

end RecordsWritten

/-- The fields of a ring's completion ring are not the count of records. -/
theorem cplFields_ne (r : Nat) : (Reg.HQ_CQ_CFG.LOG2_SIZE r).key ≠ Reg.HQ_DESC_DONE.COUNT.key ∧
    (Reg.HQ_CQ_BASE.ADDR r).key ≠ Reg.HQ_DESC_DONE.COUNT.key := by
  simp only [Field.key, Reg.HQ_CQ_CFG.LOG2_SIZE, Reg.HQ_CQ_BASE.ADDR, Reg.HQ_DESC_DONE.COUNT]
  omega

/-! ## One record -/

/-- The address of the entry that a ring's next record takes. -/
def Dev.cplAddr (d : Dev) (r : Nat) : Nat :=
  d.fld (Reg.HQ_CQ_BASE.ADDR r) / 0x1000 * 0x1000 + 32 * ((d.ring r).cqTail % ringSize (d.fld (Reg.HQ_CQ_CFG.LOG2_SIZE r)))

/-- The bytes of a record with its phase bit. -/
def Dev.phased (d : Dev) (r : Nat) (l : List Byte) : List Byte := l.take 1 ++ leBytes 1 (leAt l 1 1 + 128 * d.phase r) ++ l.drop 2

/-- A ring whose next record has been written. -/
def Ring.written (x : Ring) : Ring := { x with cqTail := (x.cqTail + 1) % 2 ^ 32 }

/-- The device with a record's bytes in host memory and the ring's tail moved on, before the message. -/
def Dev.cplStored (d : Dev) (r : Nat) (h : HeldRec) : Dev :=
  let w := (d.hostWrite (d.cplAddr r) (d.phased r h.bytes)).setRing r (d.ring r).written
  ({ w with hq := { w.hq with interval := w.pollMin } } : Dev).bump Reg.HQ_DESC_DONE.COUNT 1

theorem Dev.writeCpl_eq (d : Dev) (r : Nat) (h : HeldRec) :
    d.writeCpl r h = if h.irq then (d.cplStored r h).msix ((d.cplStored r h).ringVector r) else d.cplStored r h := rfl

section
variable (d) (r) (h : HeldRec)

theorem RecordsWritten.cplStored : RecordsWritten d (d.cplStored r h) :=
  (((RecordsWritten.hostWrite d _ _).trans (.setRing _ r rfl)).trans (.setInterval _ _)).trans (.bumpDone _ 1)

theorem RecordsWritten.writeCpl : RecordsWritten d (d.writeCpl r h) := by
  rw [Dev.writeCpl_eq]
  split
  · exact (RecordsWritten.cplStored d r h).trans (.msix _ _)
  · exact .cplStored d r h

theorem Dev.writeCpl_rings : (d.writeCpl r h).hq.rings = (d.setRing r (d.ring r).written).hq.rings := by
  rw [Dev.writeCpl_eq]
  split <;> rfl

theorem Dev.writeCpl_host : (d.writeCpl r h).hq.host = (d.hostWrite (d.cplAddr r) (d.phased r h.bytes)).hq.host := by
  rw [Dev.writeCpl_eq]
  split <;> rfl

theorem Dev.ring_writeCpl (q : Nat) : (d.writeCpl r h).ring q = if q = r then (d.ring r).written else d.ring q := by
  rw [Dev.ring, Dev.writeCpl_rings]
  exact Dev.ring_setRing d r q _

end

/-! ## The end of a descriptor -/

/-- A ring without one of its started descriptors. -/
def Ring.ended (x : Ring) (sub : Nat) : Ring := { x with started := x.started.filter (fun y => y.sub != sub) }

/-- The device when a completion has given its signal and the descriptor has left the started ones. -/
def Dev.signalled (d : Dev) (j : Desc) (st : Status) : Dev :=
  (d.signal j st).setRing j.ring (((d.signal j st).ring j.ring).ended j.sub)

theorem Dev.finish_eq (d : Dev) (j : Desc) (x : Ending) :
    d.finish j x = (d.signalled j x.st).putCpl j.ring ⟨(d.signalled j x.st).cplBytes j x, j.fb 1 4 1 = 1⟩ := rfl

section
variable (d) (j) (st : Status)

@[simp] theorem Dev.signal_hq : (d.signal j st).hq = d.hq := by rw [Dev.signal_frame]

theorem Dev.signalled_mem : (d.signalled j st).mem = d.mem := by
  show (d.signal j st).mem = d.mem
  rw [Dev.signal_frame]

theorem Dev.signalled_cores : (d.signalled j st).cores = d.cores := by
  show (d.signal j st).cores = d.cores
  rw [Dev.signal_frame]

theorem Dev.signalled_locked : (d.signalled j st).locked = d.locked := by
  show (d.signal j st).locked = d.locked
  rw [Dev.signal_frame]

theorem Dev.ring_signalled : (d.signalled j st).ring j.ring = (d.ring j.ring).ended j.sub := by
  rw [Dev.signalled, Dev.ring_setRing_same, Dev.ring, Dev.signal_hq, Dev.ring]

theorem Dev.signalled_host : (d.signalled j st).hq.host = d.hq.host := by
  show (d.signal j st).hq.host = d.hq.host
  rw [Dev.signal_hq]

theorem Dev.polls_signalled : (d.signalled j st).polls = d.polls := by
  have hlink : (d.signalled j st).hq.pcieUp = d.hq.pcieUp ∧ (d.signalled j st).hq.busMaster = d.hq.busMaster := by
    show (d.signal j st).hq.pcieUp = _ ∧ (d.signal j st).hq.busMaster = _
    rw [Dev.signal_hq]
    exact ⟨rfl, rfl⟩
  rw [Dev.polls, Dev.on, Dev.signalled_locked, Dev.signalled, Dev.fld_setRing, Dev.fld_signal d j st (by decide), ← Dev.signalled,
    hlink.1, hlink.2]
  rfl

variable {j} (hj : j.ring < 16)
include hj

/-- The fields of a completion ring are not the count of signals. -/
theorem Dev.cplFields_signalled : (d.signalled j st).fld (Reg.HQ_CQ_CFG.LOG2_SIZE j.ring) = d.fld (Reg.HQ_CQ_CFG.LOG2_SIZE j.ring) ∧
    (d.signalled j st).fld (Reg.HQ_CQ_BASE.ADDR j.ring) = d.fld (Reg.HQ_CQ_BASE.ADDR j.ring) := by
  constructor
  all_goals
    refine Dev.fld_signal d j st ?_
    simp only [Field.key, Reg.HQ_CQ_CFG.LOG2_SIZE, Reg.HQ_CQ_BASE.ADDR, Reg.EVT_SIGNALS.COUNT]
    omega

theorem Dev.cqRoom_signalled : (d.signalled j st).cqRoom j.ring = d.cqRoom j.ring := by
  rw [Dev.cqRoom, Dev.ring_signalled, (d.cplFields_signalled st hj).1]
  rfl

theorem Dev.phase_signalled : (d.signalled j st).phase j.ring = d.phase j.ring := by
  rw [Dev.phase, Dev.ring_signalled, (d.cplFields_signalled st hj).1]
  rfl

theorem Dev.cplAddr_signalled : (d.signalled j st).cplAddr j.ring = d.cplAddr j.ring := by
  rw [Dev.cplAddr, Dev.ring_signalled, (d.cplFields_signalled st hj).1, (d.cplFields_signalled st hj).2]
  rfl

end

section
variable {h : HeldRec}

theorem RecordsWritten.putCpl (d : Dev) (r : Nat) (h : HeldRec) : RecordsWritten d (d.putCpl r h) := by
  unfold Dev.putCpl
  split
  · exact .writeCpl d r h
  · exact .setRing d r rfl

theorem Dev.putCpl_of_room (hp : d.polls = true) (hr : d.cqRoom r = true) (hh : (d.ring r).held = []) :
    d.putCpl r h = d.writeCpl r h := by
  simp [Dev.putCpl, hp, hr, hh]

theorem Dev.putCpl_of_not_room (hp : d.polls = false ∨ d.cqRoom r = false) :
    d.putCpl r h = d.setRing r { d.ring r with held := (d.ring r).held ++ [h] } := by
  rcases hp with hp | hp <;> simp [Dev.putCpl, hp]

end

theorem RecordsWritten.finish (d : Dev) (j : Desc) (x : Ending) : RecordsWritten (d.signalled j x.st) (d.finish j x) :=
  .putCpl _ _ _

theorem Dev.evtGet_finish (d : Dev) (j : Desc) (x : Ending) (i : Nat) : (d.finish j x).evtGet i = (d.signal j x.st).evtGet i := by
  rw [Dev.evtGet, (RecordsWritten.finish d j x).evt]
  rfl

/-! ### The bytes of a record -/

theorem leBytes_one (n : Nat) : leBytes 1 n = [BitVec.ofNat 8 n] := rfl

/-- The bytes of a record that are the same for every outcome of a status (R188). -/
theorem Dev.cplBytes_head (d : Dev) (j : Desc) (x : Ending) : ∃ rest, d.cplBytes j x =
    BitVec.ofNat 8 x.st.code :: BitVec.ofNat 8 j.ring :: BitVec.ofNat 8 j.opc :: 0 :: (leBytes 4 j.sub ++ slice j.bytes 20 4 ++ rest) := by
  refine ⟨leBytes 1 x.det.note ++ leBytes 1 x.det.lcore ++ leBytes 1 x.det.fieldByte ++ [0] ++ leBytes 2 x.det.pos ++
    leBytes 2 x.det.vinstr ++ leBytes 4 x.det.aux ++ leBytes 8 d.now, ?_⟩
  simp only [Dev.cplBytes, leBytes_one, List.append_assoc, List.cons_append, List.nil_append]

/-- The first 12 bytes of a record with its phase bit. -/
theorem Dev.phased_cplBytes (d e : Dev) (x : Ending) (hj : j.ring < 16) : (d.phased r (e.cplBytes j x)).take 12 =
    leBytes 1 x.st.code ++ leBytes 1 (j.ring + 128 * d.phase r) ++ leBytes 1 j.opc ++ [0] ++ leBytes 4 j.sub ++ slice j.bytes 20 4 := by
  obtain ⟨rest, hb⟩ := e.cplBytes_head j x
  have hring : leAt (e.cplBytes j x) 1 1 = j.ring := by
    rw [hb]
    simp [leAt, slice, padTo, zeros, leNat]
    omega
  have hlen : (leBytes 4 j.sub ++ slice j.bytes 20 4).length = 8 := by simp
  rw [Dev.phased, hring, hb]
  simp only [leBytes_one, List.take_succ_cons, List.take_zero, List.drop_succ_cons, List.drop_zero, List.cons_append, List.nil_append,
    List.append_assoc] at hlen ⊢
  rw [← List.append_assoc, List.take_left' hlen]

theorem Dev.length_phased_cplBytes (d e : Dev) (r : Nat) (x : Ending) : 12 ≤ (d.phased r (e.cplBytes j x)).length := by
  simp [Dev.phased, Dev.cplBytes]

section
variable (d) {x : Ending} (hj : j.ring < 16)
include hj

/-- A completion with room in its ring writes its record, and the ring moves on. -/
theorem Dev.finish_written (hp : d.polls = true) (hr : d.cqRoom j.ring = true) (hh : (d.ring j.ring).held = []) :
    (d.finish j x).ring j.ring = ((d.ring j.ring).ended j.sub).written ∧
    (d.finish j x).hostRead (d.cplAddr j.ring) 12 = leBytes 1 x.st.code ++ leBytes 1 (j.ring + 128 * d.phase j.ring) ++
      leBytes 1 j.opc ++ [0] ++ leBytes 4 j.sub ++ slice j.bytes 20 4 := by
  have hput : d.finish j x = (d.signalled j x.st).writeCpl j.ring ⟨(d.signalled j x.st).cplBytes j x, j.fb 1 4 1 = 1⟩ := by
    rw [Dev.finish_eq]
    exact Dev.putCpl_of_room ((d.polls_signalled j x.st).trans hp) ((d.cqRoom_signalled x.st hj).trans hr)
      (by rw [Dev.ring_signalled]; exact hh)
  rw [hput]
  constructor
  · rw [Dev.ring_writeCpl, if_pos rfl, Dev.ring_signalled]
  · rw [Dev.hostRead_of_host (Dev.writeCpl_host _ _ _), Dev.cplAddr_signalled d x.st hj,
      Dev.hostRead_hostWrite _ _ (Dev.length_phased_cplBytes _ _ _ x), Dev.phased_cplBytes _ _ x hj, Dev.phase_signalled d x.st hj]

/-- A completion without room, or whose host cannot be reached, holds its record. -/
theorem Dev.finish_held (hp : d.polls = false ∨ d.cqRoom j.ring = false) :
    (d.finish j x).hq.host = d.hq.host ∧ ∃ h : HeldRec, (d.finish j x).ring j.ring =
      { (d.ring j.ring).ended j.sub with held := (d.ring j.ring).held ++ [h] } := by
  have hput := Dev.putCpl_of_not_room (d := d.signalled j x.st) (r := j.ring)
    (h := ⟨(d.signalled j x.st).cplBytes j x, j.fb 1 4 1 = 1⟩) (by rwa [Dev.polls_signalled, Dev.cqRoom_signalled d x.st hj])
  rw [Dev.finish_eq, hput]
  refine ⟨(Dev.host_setRing _ _ _).trans (d.signalled_host j x.st), ⟨(d.signalled j x.st).cplBytes j x, j.fb 1 4 1 = 1⟩, ?_⟩
  rw [Dev.ring_setRing_same, Dev.ring_signalled]
  rfl

end

/-- Settles O24: the signal, then the record, written or held. -/
theorem completionRecord : Obligations.CompletionRecord := by
  unfold Obligations.CompletionRecord
  intro d j x hj hh _
  have h := RecordsWritten.finish d j x
  refine ⟨fun hs hg => ?signal, fun hs => ?silent, h.mem.trans (d.signalled_mem j _), h.cores.trans (d.signalled_cores j _), ?fetched,
    ?started, fun hp hr => ?written, fun hp => ?held⟩
  case signal => rw [Dev.evtGet_finish, Dev.signal_on hs hg, Dev.evtGet_evtAdd_same]
  case silent =>
    rw [h.evt]
    show (d.signal j x.st).evt = d.evt
    rw [Dev.signal_off hs]
  case fetched =>
    rw [h.fetched, Dev.ring_signalled]
    rfl
  case started =>
    rw [h.started, Dev.ring_signalled]
    rfl
  case written =>
    obtain ⟨hring, hread⟩ := Dev.finish_written d (x := x) hj hp hr hh
    rw [hring]
    exact ⟨rfl, hh, hread⟩
  case held =>
    obtain ⟨hhost, r, hring⟩ := Dev.finish_held d (x := x) hj hp
    rw [hring, hh]
    exact ⟨rfl, hhost, rfl⟩

end Sys2Proof.Machine
end

section
/-! # The PCIe link and the MSI-X vectors

Settles O21. -/

namespace Sys2Proof.Machine

variable {s : State} {d : Dev}

/-! ## A message -/

/-- The vector's hold-off has ended. -/
def Dev.holdoffFreed (d : Dev) (v : Nat) : Dev := { d with hq := { d.hq with holdoff := Tab.set .idle d.hq.holdoff v .idle } }

@[simp] theorem Dev.holdoffFreed_idle (d : Dev) (v : Nat) : Tab.get .idle (d.holdoffFreed v).hq.holdoff v = .idle := by
  rw [Dev.holdoffFreed, Tab.get_set_same]

@[simp] theorem Dev.msixMasked_holdoffFreed (d : Dev) (v n : Nat) : (d.holdoffFreed v).msixMasked n = d.msixMasked n := rfl

section
variable {v : Nat} (hi : Tab.get .idle d.hq.holdoff v = .idle)
include hi

/-- A message of a free vector that is not masked goes at once. -/
theorem Dev.msix_sent (hm : d.msixMasked v = false) : (d.msix v).out = .msix v :: d.out ∧ (d.msix v).hq.pba = d.hq.pba := by
  simp [Dev.msix, hi, hm]

/-- A message of a free vector that is masked stays pending. -/
theorem Dev.msix_pending (hm : d.msixMasked v = true) : (d.msix v).out = d.out ∧ Tab.get false (d.msix v).hq.pba v = true := by
  simp [Dev.msix, hi, hm]

/-- A message begins the hold-off, sent or pending. -/
theorem Dev.msix_holding (hh : d.fld Reg.HQ_IRQ_HOLDOFF.HOLDOFF ≠ 0) : Tab.get .idle (d.msix v).hq.holdoff v = .holding d.clk := by
  simp [Dev.msix, hi, hh]

end

/-! ## The end of a hold-off -/

section
variable {v t : Nat} (hv : v < 256) (ho : s.dev.holdoffOver v = true)
include hv ho

theorem gives_irqHoldoffExpire_holding (h : Tab.get .idle s.dev.hq.holdoff v = .holding t) :
    Gives (.irqHoldoffExpire v) s (s.dev.holdoffFreed v) := by
  rw [Gives, exec, execIrqHoldoffExpire]
  exact State.run_gives (decide_eq_true hv) ho (by simp only [h]; rfl)

theorem gives_irqHoldoffExpire_waiting (h : Tab.get .idle s.dev.hq.holdoff v = .waiting t) :
    Gives (.irqHoldoffExpire v) s ((s.dev.holdoffFreed v).msix v) := by
  rw [Gives, exec, execIrqHoldoffExpire]
  exact State.run_gives (decide_eq_true hv) ho (by simp only [h]; rfl)

end

/-! ## The MSI-X table -/

/-- The double word of the table as a write stores it. -/
def Dev.msixStored (d : Dev) (dw v : Nat) : Dev :=
  { d with hq := { d.hq with
    msixTab := Tab.set (if dw % 4 = 3 then 1 else 0) d.hq.msixTab dw
      (if dw % 4 = 3 then v % 2 else if dw % 4 = 0 then v / 4 * 4 else v) } }

theorem gives_msixTableWrite {dw v : Nat} (hd : dw < 1024) (hv : v < 2 ^ 32) (hu : s.dev.hq.pcieUp = true) :
    Gives (.msixTableWrite dw v) s ((s.dev.msixStored dw v).sendPending (dw / 4)) := by
  rw [Gives, exec, execMsixTableWrite]
  exact State.run_gives (by rw [decide_eq_true hd, decide_eq_true hv]; rfl) hu rfl

theorem Dev.sendPending_of_none {v : Nat} (h : Tab.get false d.hq.pba v = false) : d.sendPending v = d := by
  simp [Dev.sendPending, h]

/-- The pending message is taken off its bit. -/
def Dev.pendingTaken (d : Dev) (v : Nat) : Dev := { d with hq := { d.hq with pba := Tab.set false d.hq.pba v false } }

@[simp] theorem Dev.msixMasked_pendingTaken (d : Dev) (v n : Nat) : (d.pendingTaken v).msixMasked n = d.msixMasked n := rfl

/-- Neither a write of the table nor the taking of a pending message touches a hold-off, or sends anything. -/
theorem Dev.pendingTaken_msixStored (d : Dev) (dw v n : Nat) : ((d.msixStored dw v).pendingTaken n).hq.holdoff = d.hq.holdoff ∧
    ((d.msixStored dw v).pendingTaken n).out = d.out ∧ ((d.msixStored dw v).pendingTaken n).regs = d.regs ∧
    ((d.msixStored dw v).pendingTaken n).mem = d.mem := ⟨rfl, rfl, rfl, rfl⟩

theorem Dev.sendPending_of_unmasked {v : Nat} (h : Tab.get false d.hq.pba v = true) (hm : d.msixMasked v = false) :
    d.sendPending v = (d.pendingTaken v).msix v := by
  simp only [Dev.sendPending, h, hm, Bool.not_false, Bool.and_self, if_true]
  rfl

/-- A vector whose vector control is written with an even value is not masked, MSI-X being on. -/
theorem Dev.msixMasked_msixStored {n v : Nat} (hv : v % 2 = 0) (hu : d.hq.pcieUp = true) (hm : d.hq.msixOn = true) :
    (d.msixStored (4 * n + 3) v).msixMasked n = false := by
  have h3 : (4 * n + 3) % 4 = 3 := by omega
  simp [Dev.msixMasked, Dev.msixStored, h3, hv, hu, hm]

/-- Settles O21: the reset of the controller, the two ends of a hold-off, and the message that a write of the table frees. -/
theorem linkAndVectors : Obligations.LinkAndVectors := by
  unfold Obligations.LinkAndVectors
  intro s
  refine ⟨?reset, ?freed, ?shared, ?stored, ?unmasked⟩
  case reset =>
    intro hu
    rw [Gives, exec, execPcieLinkReset]
    exact State.run_gives rfl hu rfl
  case freed => exact fun v t hv h ho => gives_irqHoldoffExpire_holding hv ho h
  case shared =>
    intro v t hv h ho
    have hidle := s.dev.holdoffFreed_idle v
    exact (gives_irqHoldoffExpire_waiting hv ho h).runs
      ⟨rfl, rfl, fun hm => Dev.msix_sent hidle hm, fun hm => Dev.msix_pending hidle hm, fun hh => Dev.msix_holding hidle hh⟩
  case stored =>
    intro dw v hd hv hu hp
    have h := gives_msixTableWrite hd hv hu
    rwa [Dev.sendPending_of_none (d := s.dev.msixStored dw v) hp] at h
  case unmasked =>
    intro n v hn hv he hu hm hp hi
    have hfree := Dev.msixMasked_msixStored (d := s.dev) (n := n) he hu hm
    refine (gives_msixTableWrite (by omega) hv hu).runs ?_
    rw [show (4 * n + 3) / 4 = n by omega, Dev.sendPending_of_unmasked (d := s.dev.msixStored (4 * n + 3) v) hp hfree]
    obtain ⟨hhold, hsent, hregs, hmem⟩ := s.dev.pendingTaken_msixStored (4 * n + 3) v n
    obtain ⟨hout, hpba⟩ := Dev.msix_sent (by rw [hhold]; exact hi) ((Dev.msixMasked_pendingTaken _ n n).trans hfree)
    refine ⟨by rw [hout, hsent], ?_, by rw [Dev.msix_regs, hregs], by rw [Dev.msix_mem, hmem]⟩
    rw [hpba, Dev.pendingTaken, Tab.get_set_same]

end Sys2Proof.Machine
end

section
/-! # Polling, and the return of the PCIe function to D0

Settles O22. -/

namespace Sys2Proof.Machine

variable {s : State} {d : Dev} {r q : Nat}

/-! ## A fold that reaches one of its elements once -/

/-- What a fold's step at one element makes true, from what the steps before it keep, is true after the fold when the steps after
it keep it. -/
theorem foldl_reaches {α β : Type} {f : β → α → β} {I Q : β → Prop} {a : α} (hI : ∀ b x, x ≠ a → I b → I (f b x))
    (hQ : ∀ b, I b → Q (f b a)) (hk : ∀ b x, x ≠ a → Q b → Q (f b x)) :
    ∀ {l : List α}, l.Nodup → a ∈ l → ∀ b, I b → Q (l.foldl f b) := by
  have hafter : ∀ {l : List α}, a ∉ l → ∀ b, Q b → Q (l.foldl f b) := by
    intro l
    induction l with
    | nil => exact fun _ b hb => hb
    | cons x l ih =>
      intro hl b hb
      rw [List.mem_cons, not_or] at hl
      exact ih hl.2 _ (hk b x (Ne.symm hl.1) hb)
  intro l
  induction l with
  | nil => exact fun _ hl => absurd hl List.not_mem_nil
  | cons x l ih =>
    intro hn hl b hb
    obtain ⟨hx, hn⟩ := List.nodup_cons.mp hn
    by_cases hxa : x = a
    · subst hxa
      exact hafter hx _ (hQ b hb)
    · exact ih hn ((List.mem_cons.mp hl).resolve_left (Ne.symm hxa)) _ (hI b x hxa hb)

/-! ## Held records -/

theorem RecordsWritten.flushHeld (r n : Nat) : ∀ d, RecordsWritten d (Dev.flushHeld r n d) := by
  induction n with
  | zero => exact .refl
  | succ n ih =>
    intro d
    unfold Dev.flushHeld
    split
    · exact .refl d
    · split
      · exact ((RecordsWritten.setRing d r rfl).trans (.writeCpl _ r _)).trans (ih _)
      · exact .refl d

/-- Writing one ring's held records leaves the other rings. -/
theorem Dev.ring_flushHeld_ne (h : q ≠ r) (n : Nat) : ∀ d : Dev, (Dev.flushHeld r n d).ring q = d.ring q := by
  induction n with
  | zero => exact fun _ => rfl
  | succ n ih =>
    intro d
    unfold Dev.flushHeld
    split
    · rfl
    · split
      · rw [ih, Dev.ring_writeCpl, if_neg h, Dev.ring_setRing_ne _ _ h]
      · rfl

theorem Dev.flushHeld_of_none (n : Nat) (h : (d.ring r).held = []) : Dev.flushHeld r n d = d := by
  cases n <;> simp [Dev.flushHeld, h]

/-- A ring that holds one record and has room for it holds none afterwards, its tail moved on by one. -/
theorem Dev.flushHeld_one {h : HeldRec} (n : Nat) (hh : (d.ring r).held = [h]) (hr : d.cqRoom r = true) :
    ((Dev.flushHeld r (n + 1) d).ring r).held = [] ∧
      ((Dev.flushHeld r (n + 1) d).ring r).cqTail = ((d.ring r).cqTail + 1) % 2 ^ 32 := by
  have hring : ((d.setRing r { d.ring r with held := [] }).writeCpl r h).ring r = ({ d.ring r with held := [] } : Ring).written := by
    rw [Dev.ring_writeCpl, if_pos rfl, Dev.ring_setRing_same]
  have hstep : Dev.flushHeld r (n + 1) d = (d.setRing r { d.ring r with held := [] }).writeCpl r h := by
    simp only [Dev.flushHeld, hh, hr, if_true]
    exact Dev.flushHeld_of_none n (by rw [hring]; rfl)
  rw [hstep, hring]
  exact ⟨rfl, rfl⟩

/-- The held records of every ring are written while there is room. -/
def Dev.heldFlushed (d : Dev) : Dev := (List.range 16).foldl (fun d r => Dev.flushHeld r 64 d) d

theorem RecordsWritten.heldFlushed (d : Dev) : RecordsWritten d d.heldFlushed := .foldl (fun d r => .flushHeld r 64 d) _ d

theorem Dev.cqTail_heldFlushed_of_none (h : (d.ring q).held = []) : d.heldFlushed.ring q = d.ring q := by
  have hstep (e : Dev) (r : Nat) (he : e.ring q = d.ring q) : (Dev.flushHeld r 64 e).ring q = d.ring q := by
    by_cases hr : q = r
    · rw [← hr, Dev.flushHeld_of_none 64 (by rw [he, h]), he]
    · rw [Dev.ring_flushHeld_ne hr, he]
  exact List.foldlRecOn (motive := fun e => e.ring q = d.ring q) _ _ rfl fun e he r _ => hstep e r he

theorem Dev.heldFlushed_one {h : HeldRec} (hq : q < 16) (hh : (d.ring q).held = [h]) (hr : d.cqRoom q = true) :
    (d.heldFlushed.ring q).held = [] ∧ (d.heldFlushed.ring q).cqTail = ((d.ring q).cqTail + 1) % 2 ^ 32 := by
  refine foldl_reaches (I := fun e => e.ring q = d.ring q ∧ e.cqRoom q = true)
    (Q := fun e => (e.ring q).held = [] ∧ (e.ring q).cqTail = ((d.ring q).cqTail + 1) % 2 ^ 32) ?before ?here ?after List.nodup_range
    (List.mem_range.mpr hq) d ⟨rfl, hr⟩
  case before =>
    rintro e r hne ⟨hring, hroom⟩
    have he := Dev.ring_flushHeld_ne (Ne.symm hne) 64 e
    refine ⟨he.trans hring, ?_⟩
    rw [Dev.cqRoom, he, (RecordsWritten.flushHeld r 64 e).fields _ (by simpa using (cplFields_ne q).1)]
    exact hroom
  case here =>
    rintro e ⟨hring, hroom⟩
    rw [← hring]
    exact Dev.flushHeld_one 63 (hring ▸ hh) hroom
  case after =>
    intro e r hne he
    rwa [Dev.ring_flushHeld_ne (Ne.symm hne)]

/-! ## Pending messages -/

theorem RecordsWritten.sendPending (d : Dev) (v : Nat) : RecordsWritten d (d.sendPending v) := by
  unfold Dev.sendPending
  split
  · exact (⟨rfl, .of_regs _ rfl, fun _ => rfl⟩ : RecordsWritten d (d.pendingTaken v)).trans (.msix _ v)
  · exact .refl d

theorem Dev.rings_sendPending (d : Dev) (v : Nat) : (d.sendPending v).hq.rings = d.hq.rings := by
  unfold Dev.sendPending
  split <;> rfl

/-- A message of a vector that is not masked sets no pending bit. -/
theorem Dev.pba_msix {v : Nat} (n : Nat) (h : n = v → d.msixMasked v = false) : Tab.get false (d.msix n).hq.pba v = Tab.get false d.hq.pba v := by
  by_cases hn : n = v
  · subst hn
    simp [Dev.msix, h rfl]
  · simp only [Dev.msix]
    split
    · exact Tab.get_set_ne _ _ _ (Ne.symm hn)
    · rfl

theorem Dev.pba_sendPending_same {v : Nat} (h : d.msixMasked v = false) : Tab.get false (d.sendPending v).hq.pba v = false := by
  cases hp : Tab.get false d.hq.pba v with
  | false => rwa [Dev.sendPending_of_none hp]
  | true =>
    rw [Dev.sendPending_of_unmasked hp h, Dev.pba_msix (d := d.pendingTaken v) v (fun _ => h)]
    exact Tab.get_set_same false d.hq.pba v false

theorem Dev.pba_sendPending_ne {v n : Nat} (hn : n ≠ v) : Tab.get false (d.sendPending n).hq.pba v = Tab.get false d.hq.pba v := by
  unfold Dev.sendPending
  split
  · exact (Dev.pba_msix (d := d.pendingTaken n) n fun h => absurd h hn).trans
      (Tab.get_set_ne false d.hq.pba false (Ne.symm hn))
  · rfl

/-- The pending messages of every vector go, if it is not masked. -/
def Dev.pendingSent (d : Dev) : Dev := (List.range 256).foldl Dev.sendPending d

theorem RecordsWritten.pendingSent (d : Dev) : RecordsWritten d d.pendingSent := by
  unfold Dev.pendingSent
  exact .foldl .sendPending _ d

theorem Dev.ring_pendingSent (d : Dev) (q : Nat) : d.pendingSent.ring q = d.ring q := by
  have h : d.pendingSent.hq.rings = d.hq.rings := by
    unfold Dev.pendingSent
    exact foldl_keeps (fun d : Dev => d.hq.rings) Dev.sendPending Dev.rings_sendPending _ d
  rw [Dev.ring, h, Dev.ring]

/-- Among vectors each gone through once, one that is not masked has no message pending afterwards. -/
theorem Dev.pba_foldl_sendPending {v : Nat} {l : List Nat} (hn : l.Nodup) (hv : v ∈ l) (hm : d.msixMasked v = false) :
    Tab.get false (l.foldl Dev.sendPending d).hq.pba v = false := by
  refine foldl_reaches (I := fun e => e.msixMasked v = false) (Q := fun e => Tab.get false e.hq.pba v = false) ?before
    (fun e => Dev.pba_sendPending_same) ?after hn hv d hm
  case before => exact fun e n _ he => ((RecordsWritten.sendPending e n).msixMasked v).trans he
  case after => exact fun e n hn he => (Dev.pba_sendPending_ne hn).trans he

theorem Dev.pba_pendingSent {v : Nat} (hv : v < 256) (hm : d.msixMasked v = false) : Tab.get false d.pendingSent.hq.pba v = false := by
  rw [Dev.pendingSent]
  exact Dev.pba_foldl_sendPending List.nodup_range (List.mem_range.mpr hv) hm

/-! ## The return to D0 -/

/-- The function in D0 with Bus Master Enable and configuration space set. -/
def Dev.inD0 (d : Dev) (m : Bool) (c : PcieSetup) : Dev :=
  { d with hq := { d.hq with pcieUp := true, busMaster := true, msixOn := m, pcie := c } }

/-- What the return to D0 leaves: held records are written, then pending messages sent. -/
def Dev.d0Returned (d : Dev) (m : Bool) (c : PcieSetup) : Dev :=
  (if (d.inD0 m c).polls then (d.inD0 m c).heldFlushed else d.inD0 m c).pendingSent

theorem gives_pcieD0Return {m : Bool} {c : PcieSetup} (hc : pcieSetupOk c = true) (hs : s.dev.st ≠ .reset)
    (hp : s.dev.pins.perstN = true) : Gives (.pcieD0Return m c) s (s.dev.d0Returned m c) := by
  rw [Gives, exec, execPcieD0Return]
  exact State.run_gives hc (by simp [hs, hp]) rfl

section
variable (d) (m : Bool) (c : PcieSetup)

theorem RecordsWritten.flushedD0 :
    RecordsWritten (d.inD0 m c) (if (d.inD0 m c).polls then (d.inD0 m c).heldFlushed else d.inD0 m c) := by
  split
  · exact .heldFlushed _
  · exact .refl _

theorem RecordsWritten.d0Returned : RecordsWritten (d.inD0 m c) (d.d0Returned m c) :=
  (RecordsWritten.flushedD0 d m c).trans (.pendingSent _)

end

theorem Dev.cqTail_d0Returned (m : Bool) (c : PcieSetup) (h : (d.ring q).held = []) : (d.d0Returned m c).ring q = d.ring q := by
  rw [Dev.d0Returned, Dev.ring_pendingSent]
  split
  · exact Dev.cqTail_heldFlushed_of_none (d := d.inD0 m c) h
  · rfl

theorem Dev.d0Returned_one {h : HeldRec} (m : Bool) (c : PcieSetup) (hq : q < 16) (hl : d.locked = true)
    (he : d.fld Reg.HQ_CTRL.ENABLE = 1) (hh : (d.ring q).held = [h]) (hr : d.cqRoom q = true) :
    ((d.d0Returned m c).ring q).held = [] ∧ ((d.d0Returned m c).ring q).cqTail = ((d.ring q).cqTail + 1) % 2 ^ 32 := by
  have hpolls : (d.inD0 m c).polls = true := by
    have hon : d.on Reg.HQ_CTRL.ENABLE = true := decide_eq_true he
    show (d.locked && d.on Reg.HQ_CTRL.ENABLE && true && true) = true
    rw [hl, hon]
    rfl
  rw [Dev.d0Returned, Dev.ring_pendingSent, if_pos hpolls]
  exact Dev.heldFlushed_one (d := d.inD0 m c) hq hh hr

theorem Dev.pba_d0Returned {v : Nat} (c : PcieSetup) (hv : v < 256) (ht : Tab.get 1 d.hq.msixTab (4 * v + 3) % 2 = 0) :
    Tab.get false (d.d0Returned true c).hq.pba v = false := by
  rw [Dev.d0Returned]
  refine Dev.pba_pendingSent hv (((RecordsWritten.flushedD0 d true c).msixMasked v).trans ?_)
  simp [Dev.msixMasked, Dev.inD0, ht]

/-! ## A poll -/

/-- The doorbell area as a poll has read it: the tails and heads of the rings in use are taken, unless the read completes with an
error. -/
def Dev.doorbellRead (d : Dev) (a : Nat) : Dev :=
  if d.hostErrIn a 128 then d
  else d.ringsOn.foldl
    (fun e r => e.readDoorbell r (leAt (d.hostRead a 128) (4 * r) 4) (leAt (d.hostRead a 128) (64 + 4 * r) 4)) d

/-- What fetches, the status line, the interval and held records leave alone, a poll leaves as the doorbell area has it. -/
theorem Dev.poll_keeps {γ : Type} (g : Dev → γ) (hf : ∀ e r n, g (Dev.fetch r n e) = g e) (hw : ∀ e a l, g (Dev.hostWrite e a l) = g e)
    (hi : ∀ (e : Dev) n, g { e with hq := { e.hq with interval := n } } = g e) (hh : ∀ e r, g (Dev.flushHeld r 64 e) = g e) (d : Dev) :
    g d.poll = g (d.doorbellRead (d.fld Reg.HQ_DB_ADDR.ADDR / 128 * 128)) := by
  unfold Dev.poll
  extract_lets a l old read moved fetched shown hq timed
  have hshown : g shown = g fetched := by
    unfold shown
    split
    · exact hw _ _ _
    · rfl
  calc g (timed.ringsOn.foldl (fun e r => Dev.flushHeld r 64 e) timed)
      _ = g timed := foldl_keeps g _ (fun e r => hh e r) _ timed
      _ = g shown := hi shown _
      _ = g fetched := hshown
      _ = g read := foldl_keeps g _ (fun e r => hf e r _) _ read

/-! ### What a fetch and a read of the doorbell area leave alone -/

/-- A fetch takes descriptors, and moves the ring's head on. -/
theorem Dev.ring_fetch (r q n : Nat) : ∀ d : Dev, (Dev.fetch r n d).ring q =
    { d.ring q with fetched := ((Dev.fetch r n d).ring q).fetched, head := ((Dev.fetch r n d).ring q).head } := by
  induction n with
  | zero => exact fun _ => rfl
  | succ n ih =>
    intro d
    unfold Dev.fetch
    extract_lets x j
    split
    · rfl
    · rw [ih, Dev.ring_setRing]
      split
      · rename_i hq
        subst hq
        rfl
      · rfl

/-- What a poll leaves alone beside the rings. -/
def Dev.pollKept (d : Dev) : DevState × Tab Core × List Host.Cell × Tab Nat × List (Nat × Nat) :=
  (d.st, d.cores, d.mem, d.evt, d.hq.hostErr)

theorem Dev.pollKept_fetch (r n : Nat) : ∀ d : Dev, (Dev.fetch r n d).pollKept = d.pollKept := by
  induction n with
  | zero => exact fun _ => rfl
  | succ n ih =>
    intro d
    unfold Dev.fetch
    extract_lets x j
    split
    · rfl
    · rw [ih]
      rfl

theorem RecordsWritten.pollKept {e : Dev} (h : RecordsWritten d e) : e.pollKept = d.pollKept := by
  rw [Dev.pollKept, h.frame]
  rfl

theorem Dev.pollKept_readDoorbell (d : Dev) (r t c : Nat) : (d.readDoorbell r t c).pollKept = d.pollKept := by
  unfold Dev.readDoorbell
  extract_lets x
  split
  · rfl
  · split <;> rfl

/-- A read of a ring's doorbell changes its tail and its head of completion records alone. -/
theorem Dev.ring_readDoorbell (d : Dev) (r t c q : Nat) : (d.readDoorbell r t c).ring q = { d.ring q with
    tail := ((d.readDoorbell r t c).ring q).tail, lastBad := ((d.readDoorbell r t c).ring q).lastBad
    cqHead := ((d.readDoorbell r t c).ring q).cqHead } := by
  have hset (x : Ring) (hx : x = { d.ring r with tail := x.tail, lastBad := x.lastBad, cqHead := x.cqHead }) :
      (d.setRing r x).ring q = { d.ring q with tail := ((d.setRing r x).ring q).tail, lastBad := ((d.setRing r x).ring q).lastBad
                                               cqHead := ((d.setRing r x).ring q).cqHead } := by
    rw [Dev.ring_setRing]
    split
    · rename_i hq
      rw [hq]
      exact hx
    · rfl
  unfold Dev.readDoorbell
  extract_lets x
  split
  · exact hset _ rfl
  · split <;> exact hset _ rfl

theorem Dev.ring_readDoorbell_ne (h : q ≠ r) (t c : Nat) : (d.readDoorbell r t c).ring q = d.ring q := by
  unfold Dev.readDoorbell
  extract_lets x
  split
  · exact Dev.ring_setRing_ne _ _ h
  · split <;> exact Dev.ring_setRing_ne _ _ h

theorem Dev.readDoorbell_good {t : Nat} (c : Nat) (h : d.tailOk r t = true) :
    ((d.readDoorbell r t c).ring r).tail = t ∧ ((d.readDoorbell r t c).ring r).cqHead = c := by
  simp [Dev.readDoorbell, h]

theorem Dev.fld_readDoorbell (d : Dev) (r t c : Nat) {f : Field} (h : f.key ≠ (Reg.HQ_RING_STATUS.BAD_TAIL r).key) :
    (d.readDoorbell r t c).fld f = d.fld f := by
  unfold Dev.readDoorbell
  extract_lets x
  split
  · rfl
  · split
    · rfl
    · exact Dev.fld_bumpSat_ne _ _ h

theorem sqSize_ne_badTail (q r : Nat) : (Reg.HQ_SQ_CFG.LOG2_SIZE q).key ≠ (Reg.HQ_RING_STATUS.BAD_TAIL r).key := by
  simp only [Field.key, Reg.HQ_SQ_CFG.LOG2_SIZE, Reg.HQ_RING_STATUS.BAD_TAIL]
  omega

theorem mem_ringsOn (hr : r < 16) (h : d.ringOn r = true) : r ∈ d.ringsOn :=
  List.mem_filter.mpr ⟨List.mem_range.mpr hr, h⟩

/-- The tail and the head of a ring in use, as a read of the doorbell area takes them, the tail being valid. -/
theorem Dev.doorbellRead_good {a t : Nat} (hq : q < 16) (hon : d.ringOn q = true) (he : d.hostErrIn a 128 = false)
    (ht : t = leAt (d.hostRead a 128) (4 * q) 4) (hok : d.tailOk q t = true) :
    ((d.doorbellRead a).ring q).tail = t ∧ ((d.doorbellRead a).ring q).cqHead = leAt (d.hostRead a 128) (64 + 4 * q) 4 := by
  rw [Dev.doorbellRead, if_neg (by rw [he]; exact Bool.false_ne_true)]
  refine foldl_reaches (I := fun e => e.tailOk q t = true)
    (Q := fun e => (e.ring q).tail = t ∧ (e.ring q).cqHead = leAt (d.hostRead a 128) (64 + 4 * q) 4) ?before ?here ?after
    (List.nodup_range.filter _) (mem_ringsOn hq hon) d hok
  case before =>
    intro e r hne h
    rwa [Dev.tailOk, Dev.ring_readDoorbell_ne (Ne.symm hne), Dev.fld_readDoorbell _ _ _ _ (sqSize_ne_badTail q r)]
  case here =>
    intro e h
    rw [← ht]
    exact Dev.readDoorbell_good _ h
  case after =>
    intro e r hne h
    rwa [Dev.ring_readDoorbell_ne (Ne.symm hne)]

/-- What a read of one doorbell leaves alone, the read of the doorbell area does. -/
theorem Dev.doorbellRead_keeps {γ : Type} (g : Dev → γ) (h : ∀ e r t c, g (Dev.readDoorbell e r t c) = g e) (d : Dev) (a : Nat) :
    g (d.doorbellRead a) = g d := by
  unfold Dev.doorbellRead
  split
  · rfl
  · exact foldl_keeps g _ (fun e r => h e r _ _) _ d

theorem Dev.pollKept_poll (d : Dev) : d.poll.pollKept = d.pollKept :=
  (d.poll_keeps Dev.pollKept (fun e r n => e.pollKept_fetch r n) (fun _ _ _ => rfl) (fun _ _ => rfl)
    fun e r => (RecordsWritten.flushHeld r 64 e).pollKept).trans (d.doorbellRead_keeps _ Dev.pollKept_readDoorbell _)

theorem Dev.started_poll (d : Dev) (q : Nat) : (d.poll.ring q).started = (d.ring q).started :=
  (d.poll_keeps (fun e => (e.ring q).started) (fun e r n => by rw [Dev.ring_fetch]) (fun _ _ _ => rfl) (fun _ _ => rfl)
    fun e r => (RecordsWritten.flushHeld r 64 e).started q).trans
      (d.doorbellRead_keeps (fun e => (e.ring q).started) (fun e r t c => by rw [Dev.ring_readDoorbell]) _)

/-- After the read of the doorbell area a poll changes no tail and no head of completion records. -/
theorem Dev.tail_poll (d : Dev) (q : Nat) :
    (d.poll.ring q).tail = ((d.doorbellRead (d.fld Reg.HQ_DB_ADDR.ADDR / 128 * 128)).ring q).tail ∧
      (d.poll.ring q).cqHead = ((d.doorbellRead (d.fld Reg.HQ_DB_ADDR.ADDR / 128 * 128)).ring q).cqHead :=
  ⟨d.poll_keeps (fun e => (e.ring q).tail) (fun e r n => by rw [Dev.ring_fetch]) (fun _ _ _ => rfl) (fun _ _ => rfl)
      fun e r => by rw [(RecordsWritten.flushHeld r 64 e).rings],
    d.poll_keeps (fun e => (e.ring q).cqHead) (fun e r n => by rw [Dev.ring_fetch]) (fun _ _ _ => rfl) (fun _ _ => rfl)
      fun e r => (RecordsWritten.flushHeld r 64 e).cqHead q⟩

theorem gives_doorbellPoll {c : HostChange} (hu : s.dev.up = true) (hp : s.dev.polls = true) :
    Gives (.doorbellPoll c) s (s.dev.hostChange c).poll := by
  rw [Gives, exec, execDoorbellPoll]
  exact State.run_gives rfl (by rw [hu, hp]; rfl) rfl

/-- Settles O22: what the records and messages of a return to D0 change, and what of a poll follows the doorbell area. -/
theorem pollingResumes : Obligations.PollingResumes := by
  unfold Obligations.PollingResumes
  intro s
  refine ⟨?d0, ?poll⟩
  case d0 =>
    intro m c hc hs hp
    have h := RecordsWritten.d0Returned s.dev m c
    obtain ⟨hup, hbus, hon, hset, -⟩ := h.settings
    refine (gives_pcieD0Return hc hs hp).runs
      ⟨h.st, hup, hbus, hon, hset, h.cores, h.mem, h.evt, fun r _ hh => ?none, fun r x hr hl he hh hroom => ?one, fun v hv hm ht => ?sent⟩
    case none => rw [Dev.cqTail_d0Returned m c hh]
    case one => exact Dev.d0Returned_one m c hr hl he hh hroom
    case sent =>
      subst hm
      exact Dev.pba_d0Returned c hv ht
  case poll =>
    intro c hu hp
    have h := (s.dev.hostChange c).pollKept_poll
    simp only [Dev.pollKept, Prod.mk.injEq] at h
    obtain ⟨hst, hcores, hmem, hevt, herr⟩ := h
    refine (gives_doorbellPoll hu hp).runs
      ⟨hst, hcores, hmem, hevt, herr, fun r _ => Dev.started_poll _ r, fun r a t hr hon ha he ht hok => ?_⟩
    subst ha
    obtain ⟨htail, hhead⟩ := (s.dev.hostChange c).tail_poll r
    rw [htail, hhead]
    exact Dev.doorbellRead_good hr hon he ht hok

end Sys2Proof.Machine
end

section
/-! # NOP, EVENT, undefined opcodes and the wait limit

Settles O23. -/

namespace Sys2Proof.Machine

variable {s : State} {r : Nat} {j : Desc}

/-! ## What is read after the descriptor has left the head of its ring -/

theorem Dev.popHead_evt (d : Dev) (r : Nat) : (d.popHead r).evt = d.evt := by
  unfold Dev.popHead
  split <;> rfl

theorem Dev.evtGet_popHead (d : Dev) (r i : Nat) : (d.popHead r).evtGet i = d.evtGet i := by
  rw [Dev.evtGet, d.popHead_evt, Dev.evtGet]

theorem Dev.refDev_of_regs {d e : Dev} (h : e.regs = d.regs) (i : Nat) : e.refDev i = d.refDev i := by
  simp only [Dev.refDev, Dev.on, Dev.fld_of_regs h]

theorem Dev.refAddr_of_regs {d e : Dev} (h : e.regs = d.regs) (i off : Nat) : e.refAddr i off = d.refAddr i off := by
  simp only [Dev.refAddr, Dev.refDev_of_regs h, Dev.fld_of_regs h]

/-! ## The checks of an EVENT -/

theorem isEvent_opc {e : Nat} (h : isEvent e j = true) : j.opc = 0x02 := by
  simp only [isEvent, Bool.and_eq_true, decide_eq_true_eq] at h
  exact h.1

/-- An EVENT of no defined operation is refused at byte 24, whatever the rest of its fields say. -/
theorem Dev.eventCheck_of_undefined (d : Dev) (h : j.fb 24 0 2 = 3)
    (hv : j.reservedByte [(24, 0, 2), (26, 0, 16), (28, 0, 32), (32, 0, 64)] = none) :
    d.eventCheck j = some ⟨.badField, { Detail.none with fieldByte := 24 }⟩ := by
  rw [Dev.eventCheck, Desc.reserved_of_none hv, badIf_of 24 (decide_eq_true h)]
  rfl

/-- A result that goes to host memory is written there, and the descriptor goes on. -/
theorem Dev.putResult_host {d : Dev} {a : Nat} (l : List Byte) (go : Dev → Dev) (h : d.refDev (j.refIdx a) = false) :
    d.putResult j a l go = go (d.hostWrite (d.refAddr (j.refIdx a) (j.refOff a)) l) := by
  simp only [Dev.putResult, h, Bool.false_eq_true, if_false]

/-! ## The descriptors -/

section
variable (hr : r < 16) (h : Starts s r j)
include hr h

theorem gives_nop (ho : j.opc = 0x01) (hv : j.reservedByte [] = none) :
    Gives (.nop r) s ((s.dev.popHead r).finish j ⟨.done, Detail.none⟩) := by
  rw [Gives, exec, execNop]
  exact h.run_go hr (decide_eq_true ho) (by simp only [Desc.reserved_of_none hv, h.stateCheck, firstFail_none_cons, firstFail_nil])

theorem gives_descUndefined (ho : opcDefined j.opc = false) :
    Gives (.descUndefined r) s ((s.dev.popHead r).finish j ⟨.badOpcode, Detail.none⟩) := by
  have hne : j.opc ≠ 0x10 ∧ j.opc ≠ 0x30 := by
    constructor <;> intro hc <;> rw [hc] at ho <;> exact absurd ho (by decide)
  rw [Gives, exec, execDescUndefined]
  exact h.run_finish hr (by rw [ho]; rfl) rfl hne

/-- An EVENT that its checks refuse completes with their outcome, whichever of the three commands starts it. -/
theorem run_event_refused {k : Nat} {e : Ending} {go : Dev → Desc → Dev} (ho : isEvent k j = true) (hc : s.dev.eventCheck j = some e) :
    s.run (r < 16) (s.dev.descDue r (isEvent k)) (fun d => d.startDesc r Dev.eventCheck go) =
      .next { s with dev := (s.dev.popHead r).finish j e } :=
  h.run_finish hr ho hc (by rw [isEvent_opc ho]; decide)

theorem gives_eventRead_host (ho : isEvent 2 j = true) (hc : s.dev.eventCheck j = none) (hd : s.dev.refDev (j.refIdx 32) = false) :
    Gives (.eventRead r) s (((s.dev.popHead r).hostWrite (s.dev.refAddr (j.refIdx 32) (j.refOff 32))
      (leBytes 4 (s.dev.evtGet (j.num 26 2)))).finish j ⟨.done, Detail.none⟩) := by
  obtain ⟨-, hregs, -⟩ := s.dev.popHead_keeps r
  have hput := Dev.putResult_host (d := s.dev.popHead r) (a := 32) (leBytes 4 (s.dev.evtGet (j.num 26 2)))
    (fun d => d.finish j (Ending.plain .done)) (by rw [Dev.refDev_of_regs hregs, hd])
  rw [Dev.refAddr_of_regs hregs] at hput
  rw [Gives, exec, execEventRead]
  refine (h.run_go hr ho hc).trans ?_
  simp only [Dev.evtGet_popHead, hput]
  rfl

end

/-! ## The wait limit -/

theorem gives_descWaitTimeout_host (hr : r < 16) (hh : s.dev.head? r = some j) (hu : s.dev.up = true) (hon : s.dev.ringOn r = true)
    (hroom : s.dev.startRoom r = true) (hw : s.dev.waitsMet j = false) (hl : s.dev.fld Reg.HQ_WAIT_LIMIT.MS ≠ 0)
    (ht : ms (s.dev.fld Reg.HQ_WAIT_LIMIT.MS) ≤ s.dev.clk - j.since) :
    Gives (.descWaitTimeout r false) s ((s.dev.popHead r).finish j (s.dev.waitEnding j)) := by
  have hover : s.dev.waitOver r = true := by simp [Dev.waitOver, hh, hw, hl, ht]
  rw [Gives, exec, execDescWaitTimeout]
  exact State.run_gives (decide_eq_true hr) (by simp [hu, hon, hroom, hover]) (by simp only [hh, Bool.false_eq_true, if_false])

theorem gives_descWaitTimeout_core (hr : r < 16) (hh : s.dev.coreHead r = true) (hw : s.dev.waitsMet (s.dev.nextCoreDesc r) = false)
    (hl : s.dev.fld Reg.HQ_WAIT_LIMIT.MS ≠ 0)
    (ht : ms (s.dev.fld Reg.HQ_WAIT_LIMIT.MS) ≤ s.dev.clk - Tab.get 0 s.dev.mfb.ringSince r) :
    Gives (.descWaitTimeout r true) s
      ((s.dev.popCore r).coreRecord (s.dev.nextCoreDesc r) (s.dev.waitEnding (s.dev.nextCoreDesc r))) := by
  have hover : s.dev.coreWaitOver r = true := by simp [Dev.coreWaitOver, hh, hw, hl, ht]
  rw [Gives, exec, execDescWaitTimeout]
  exact State.run_gives (decide_eq_true hr) (by simp [hover]) (by simp only [if_true])

/-- Settles O23: the start of each plain descriptor, its refusals, and the two ends of a wait. -/
theorem plainDescriptors : Obligations.PlainDescriptors := by
  unfold Obligations.PlainDescriptors
  refine ⟨fun s r j hr h => ⟨?nop, ?undefined, ?add, ?set, ?read, ?addRefused, ?badEvent⟩, ?host, ?core⟩
  case nop => exact fun ho hv => gives_nop hr h ho hv
  case undefined => exact fun ho => gives_descUndefined hr h ho
  case add =>
    intro ho hc
    rw [Gives, exec, execEventAdd]
    exact h.run_go hr ho hc
  case set =>
    intro ho hc
    rw [Gives, exec, execEventSet]
    exact h.run_go hr ho hc
  case read => exact fun ho hc hd => gives_eventRead_host hr h ho hc hd
  case addRefused =>
    intro e ho hc
    rw [Gives, exec, execEventAdd]
    exact run_event_refused hr h ho hc
  case badEvent =>
    intro ho hf hv
    rw [Gives, exec, execEventRead]
    exact run_event_refused hr h ho (s.dev.eventCheck_of_undefined hf hv)
  case host => exact fun s r j hr hh hu hon hroom hw hl ht => gives_descWaitTimeout_host hr hh hu hon hroom hw hl ht
  case core =>
    rintro s r j hr hh rfl hw hl ht
    exact gives_descWaitTimeout_core hr hh hw hl ht

end Sys2Proof.Machine
end

section
/-! # Writes of EVT_DATA and of the generator's test registers

Settles O17. -/

namespace Sys2Proof.Machine

variable {d : Dev} {s : State}

/-! ## EVT_DATA -/

theorem gives_evtDataWrite {v : Nat} (hs : s.dev.barUp = true) (hv : v < 2 ^ 32) (ha : s.dev.answers 0x20004 = true) :
    Gives (.evtDataWrite v) s (s.dev.evtData v) := by
  rw [Gives, exec, execEvtDataWrite]
  exact State.run_gives (decide_eq_true hv) (by rw [hs, ha]; rfl) rfl

theorem Dev.evtData_of_locked (v : Nat) (h : d.locked = true) : d.evtData v = d.bumpSat Reg.GLB_LOCK_CHECK.IGNORED 1 := if_pos h

theorem Dev.evtData_of_not_locked (v : Nat) (h : d.locked = false) : d.evtData v = d.evtSet (d.fld Reg.EVT_SEL.INDEX) v :=
  if_neg (by rw [h]; exact Bool.false_ne_true)

/-! ## The generator's test registers (R77) -/

def srTestARow : RegRow := ⟨0x70408, 0x0, 1, true, [Reg.ARR_SR_TEST_A.ELEM, Reg.ARR_SR_TEST_A.USE]⟩

def srTestBRow : RegRow := ⟨0x70410, 0x0, 1, true, [Reg.ARR_SR_TEST_B.STEP, Reg.ARR_SR_TEST_B.TENSOR]⟩

theorem findReg_srTestARow : findReg 0x70408 = some (srTestARow, 0) := by decide +kernel

theorem findReg_srTestBRow : findReg 0x70410 = some (srTestBRow, 0) := by decide +kernel

/-- A field of a register that is no array, and that is no logical core's site. -/
theorem RegRow.field_zero {g : RegRow} {f : Field} (hf : f.off = g.base) (hc : f.off ≠ 0x50000) : g.field 0 f = f := by
  obtain ⟨off, lo, w, acc, reset⟩ := f
  simp only [RegRow.field, Nat.zero_mul, Nat.add_zero, hc, decide_false, Bool.false_and, Bool.false_eq_true, if_false]
  rw [← hf]

/-- A write of a test register stores its two fields, whether locked or not, and computes the word anew. -/
theorem Dev.write64_srTest {g : RegRow} {a b : Field} (v : Nat) (hr : findReg g.base = some (g, 0)) (hw : g.wide = true)
    (hg : g.base = 0x70408 ∨ g.base = 0x70410) (hl : g.fields = [a, b]) (ha : a.off = g.base ∧ a.acc = .rw)
    (hb : b.off = g.base ∧ b.acc = .rw) (hv : v < 2 ^ 64) :
    d.write64 g.base v = ((d.setFld a (bits v a.lo a.w)).setFld b (bits v b.lo b.w)).srTest := by
  have hne : g.base ≠ 0x20004 ∧ g.base ≠ 0x100060 ∧ g.base ≠ 0x50000 := by omega
  have hsite {f : Field} (hf : f.off = g.base) : g.field 0 f = f := RegRow.field_zero hf (hf ▸ hne.2.2)
  have hreg : d.write64 g.base v = d.writeReg g 0 v := by simp only [Dev.write64, hr, hw, if_true, Nat.mod_eq_of_lt hv]
  rw [hreg]
  rcases hg with hg | hg <;>
    simp [Dev.writeReg, hg, hl, hsite ha.1, hsite hb.1, Dev.writeField, ha.2, hb.2]

theorem Dev.onlyFields_srTest {l : List Field} (f g : Field) (a b : Nat)
    (hf : f.key ∈ l.map Field.key) (hg : g.key ∈ l.map Field.key) (hw : Reg.ARR_SR_TEST_OUT.WORD.key ∈ l.map Field.key) :
    OnlyFields l d ((d.setFld f a).setFld g b).srTest :=
  ((OnlyFields.setFld d f a l hf).trans (.setFld _ g b l hg)).trans (.setFld _ Reg.ARR_SR_TEST_OUT.WORD _ l hw)

theorem Dev.fld_srTest_ne {f : Field} (h : f.key ≠ Reg.ARR_SR_TEST_OUT.WORD.key) : d.srTest.fld f = d.fld f := d.fld_setFld_ne _ h

theorem Dev.fld_srTest_word : d.srTest.fld Reg.ARR_SR_TEST_OUT.WORD =
    srWord (d.fld Reg.ARR_SR_KEY.KEY) (d.fld Reg.ARR_SR_TEST_B.STEP) (d.fld Reg.ARR_SR_TEST_B.TENSOR)
      (d.fld Reg.ARR_SR_TEST_A.USE) (d.fld Reg.ARR_SR_TEST_A.ELEM) % 2 ^ 32 := d.fld_setFld_same _ _

/-- The bits of a value that a field takes. -/
theorem bits_mod (v lo w : Nat) : bits v lo w % 2 ^ w = v / 2 ^ lo % 2 ^ w := by
  rw [bits, Nat.mod_mod, Nat.shiftRight_eq_div_pow]

/-- The two fields of a test register as written. -/
theorem Dev.fld_setFld_pair {a b : Field} (v : Nat) (h : a.key ≠ b.key) :
    ((d.setFld a (bits v a.lo a.w)).setFld b (bits v b.lo b.w)).fld a = v / 2 ^ a.lo % 2 ^ a.w ∧
      ((d.setFld a (bits v a.lo a.w)).setFld b (bits v b.lo b.w)).fld b = v / 2 ^ b.lo % 2 ^ b.w := by
  rw [Dev.fld_setFld_ne _ _ h, Dev.fld_setFld_same, Dev.fld_setFld_same, bits_mod, bits_mod]
  exact ⟨rfl, rfl⟩

theorem Dev.fld_setFld_pair_ne {a b f : Field} (x y : Nat) (ha : f.key ≠ a.key) (hb : f.key ≠ b.key) :
    ((d.setFld a x).setFld b y).fld f = d.fld f := (Dev.fld_setFld_ne _ y hb).trans (d.fld_setFld_ne x ha)

theorem gives_srTestWrite {b : Bool} {v : Nat} (hs : s.dev.barUp = true) (hv : v < 2 ^ 64) (ha : s.dev.answers 0x70408 = true) :
    Gives (.srTestWrite b v) s (s.dev.write64 (if b then 0x70410 else 0x70408) v) := by
  rw [Gives, exec, execSrTestWrite]
  exact State.run_gives (decide_eq_true hv) (by rw [hs, ha]; rfl) rfl

/-- Settles O17: `evtData` before and after lock, and `srTest` after the two fields of each test register. -/
theorem eventAndTestWrites : Obligations.EventAndTestWrites := by
  unfold Obligations.EventAndTestWrites
  intro s hs
  refine ⟨?event, ?locked, ?testA, ?testB⟩
  case event =>
    intro v hv ha hl
    refine (gives_evtDataWrite hs hv ha).runs ?_
    rw [Dev.evtData_of_not_locked v hl]
    exact ⟨rfl, rfl, by rw [Dev.evtGet_evtSet_same, Nat.mod_eq_of_lt hv], fun i hi => Dev.evtGet_evtSet_ne _ v hi⟩
  case locked =>
    intro v hv ha hl
    refine (gives_evtDataWrite hs hv ha).runs ?_
    rw [Dev.evtData_of_locked v hl]
    exact ⟨.setFld _ _ _ _ (by decide), by simp [Reg.GLB_LOCK_CHECK.IGNORED]⟩
  case testA =>
    intro v hv ha
    refine (gives_srTestWrite (b := false) hs hv ha).runs ?_
    have hwrite := Dev.write64_srTest (d := s.dev) (g := srTestARow) v findReg_srTestARow rfl (.inl rfl) rfl ⟨rfl, rfl⟩ ⟨rfl, rfl⟩ hv
    rw [show (if false then 0x70410 else 0x70408) = srTestARow.base from rfl, hwrite]
    obtain ⟨hlow, hhigh⟩ := s.dev.fld_setFld_pair (a := Reg.ARR_SR_TEST_A.ELEM) (b := Reg.ARR_SR_TEST_A.USE) v (by decide)
    have hlow' : _ = v % 2 ^ 48 := hlow.trans (congrArg (· % 2 ^ 48) (Nat.div_one v))
    refine ⟨Dev.onlyFields_srTest _ _ _ _ (by decide) (by decide) (by decide), (Dev.fld_srTest_ne (by decide)).trans hlow',
      (Dev.fld_srTest_ne (by decide)).trans hhigh, ?_⟩
    rw [Dev.fld_srTest_word, hlow', hhigh, Dev.fld_setFld_pair_ne _ _ (by decide) (by decide),
      Dev.fld_setFld_pair_ne _ _ (by decide) (by decide), Dev.fld_setFld_pair_ne _ _ (by decide) (by decide)]
    rfl
  case testB =>
    intro v hv ha
    refine (gives_srTestWrite (b := true) hs hv ha).runs ?_
    have hwrite := Dev.write64_srTest (d := s.dev) (g := srTestBRow) v findReg_srTestBRow rfl (.inr rfl) rfl ⟨rfl, rfl⟩ ⟨rfl, rfl⟩ hv
    rw [show (if true then 0x70410 else 0x70408) = srTestBRow.base from rfl, hwrite]
    obtain ⟨hlow, hhigh⟩ := s.dev.fld_setFld_pair (a := Reg.ARR_SR_TEST_B.STEP) (b := Reg.ARR_SR_TEST_B.TENSOR) v (by decide)
    have hlow' : _ = v % 2 ^ 32 := hlow.trans (congrArg (· % 2 ^ 32) (Nat.div_one v))
    refine ⟨Dev.onlyFields_srTest _ _ _ _ (by decide) (by decide) (by decide), (Dev.fld_srTest_ne (by decide)).trans hlow',
      (Dev.fld_srTest_ne (by decide)).trans hhigh, ?_⟩
    rw [Dev.fld_srTest_word, hlow', hhigh, Dev.fld_setFld_pair_ne _ _ (by decide) (by decide),
      Dev.fld_setFld_pair_ne _ _ (by decide) (by decide), Dev.fld_setFld_pair_ne _ _ (by decide) (by decide)]
    rfl

end Sys2Proof.Machine
end

section
/-! # Reads and writes through BAR2

Settles O26. -/

namespace Sys2Proof.Machine

variable {s : State} {d : Dev} {o a : Nat}

/-- An access that finds nothing in SRAM changes nothing. -/
@[simp] theorem Dev.meetEcc_nil (d : Dev) : d.meetEcc ⟨[], []⟩ = d := rfl

/-! ## Reads -/

theorem Dev.srcErr_memory {n : Nat} (h : a < mirrorBase) : d.srcErr a n = d.readErr a n := by
  simp [Dev.srcErr, Nat.not_le.mpr h]

theorem Dev.srcRead_memory {n : Nat} (h : a < mirrorBase) : d.srcRead a n = d.read a n := by
  simp [Dev.srcRead, Nat.not_le.mpr h]

section
variable {n : Nat} (hk : bar2Ok o n = true) (hu : s.dev.bar2Up o n = true) (ha : s.dev.bar2Addr o = some a)
include hk hu ha

theorem gives_bar2Read : Gives (.bar2Read o n ⟨[], []⟩) s (s.dev.bar2ReadAt a n) := by
  rw [Gives, exec, execBar2Read]
  exact State.run_gives hk hu (by simp only [ha, Dev.meetEcc_nil])

end

theorem Dev.bar2ReadAt_good {n : Nat} (hm : a < mirrorBase) (he : d.readErr a n = none) :
    d.bar2ReadAt a n = d.emit (.readData (d.read a n) false) := by
  simp only [Dev.bar2ReadAt, Dev.srcErr_memory hm, he, Dev.srcRead_memory hm]

theorem Dev.bar2ReadAt_bad {n : Nat} (hm : a < mirrorBase)
    (he : d.readErr a n = some .unpopulated ∨ ∃ c, d.readErr a n = some (.lostCore c)) : d.bar2ReadAt a n = d.bar2Poisoned n := by
  rcases he with he | ⟨c, he⟩ <;> simp only [Dev.bar2ReadAt, Dev.srcErr_memory hm, he]

/-- A read completion with its data poisoned counts one read, and leaves every byte of memory. -/
theorem Dev.bar2Poisoned_counts (d : Dev) (n : Nat) :
    (d.bar2Poisoned n).fld Reg.HQ_BAR2_ERR.READS = min 0xFFFF (d.fld Reg.HQ_BAR2_ERR.READS + 1) ∧ MemKept d (d.bar2Poisoned n) ∧
      FieldsKept [Reg.HQ_BAR2_ERR.READS] d (d.bar2Poisoned n) ∧ ∃ l, (d.bar2Poisoned n).out = .readData l true :: d.out :=
  ⟨d.fld_bumpSat_same Reg.HQ_BAR2_ERR.READS 1, fun _ => rfl, .setFld d Reg.HQ_BAR2_ERR.READS _ _ (by decide), _, rfl⟩

/-! ## Writes -/

/-- A dropped write counts, and changes nothing else. -/
theorem Dev.bar2Dropped_counts (d : Dev) : OnlyFields [Reg.HQ_BAR2_ERR.WRITES] d (d.bumpSat Reg.HQ_BAR2_ERR.WRITES 1) ∧
    (d.bumpSat Reg.HQ_BAR2_ERR.WRITES 1).fld Reg.HQ_BAR2_ERR.WRITES = min 0xFFFF (d.fld Reg.HQ_BAR2_ERR.WRITES + 1) :=
  ⟨.setFld d Reg.HQ_BAR2_ERR.WRITES _ _ (by decide), d.fld_bumpSat_same Reg.HQ_BAR2_ERR.WRITES 1⟩

section
variable {l : List Byte} (hk : bar2Ok o l.length = true) (hu : s.dev.bar2Up o l.length = true)
include hk hu

/-- A write that finds nothing in SRAM meets no new poison, and writes no fault record. -/
theorem gives_bar2Write (ha : s.dev.bar2Addr o = some a) : Gives (.bar2Write o l ⟨[], []⟩) s (s.dev.bar2WriteAt a l) := by
  rw [Gives, exec, execBar2Write]
  refine State.run_gives hk hu ?_
  simp only [ha, Dev.meetEcc_nil]
  cases s.dev.partAt a l.length <;> rfl

theorem gives_bar2Write_nowhere (ha : s.dev.bar2Addr o = none) :
    Gives (.bar2Write o l ⟨[], []⟩) s (s.dev.bumpSat Reg.HQ_BAR2_ERR.WRITES 1) := by
  rw [Gives, exec, execBar2Write]
  exact State.run_gives hk hu (by simp only [ha])

end

theorem Dev.bar2WriteAt_stored {l : List Byte} (he : d.accErr a l.length = none) (hp : d.partAt a l.length = none) :
    d.bar2WriteAt a l = d.store a l := by
  simp [Dev.bar2WriteAt, he, hp]

theorem Dev.bar2WriteAt_dropped {l : List Byte} (h : d.accErr a l.length ≠ none ∨ d.partAt a l.length ≠ none) :
    d.bar2WriteAt a l = d.bumpSat Reg.HQ_BAR2_ERR.WRITES 1 := by
  simp only [← Option.isSome_iff_ne_none] at h
  rcases h with h | h <;> simp [Dev.bar2WriteAt, h]

/-- Settles O26: what a read answers and counts, and what a write stores, or drops and counts. -/
theorem bar2Accesses : Obligations.Bar2Accesses := by
  unfold Obligations.Bar2Accesses
  intro s
  refine ⟨?good, ?poisoned, ?stored, ?dropped, ?nowhere⟩
  case good =>
    intro o n a hk hu ha hm he
    have h := gives_bar2Read hk hu ha
    rwa [Dev.bar2ReadAt_good hm he] at h
  case poisoned =>
    intro o n a hk hu ha hm he
    refine (gives_bar2Read hk hu ha).runs ?_
    rw [Dev.bar2ReadAt_bad hm he]
    exact s.dev.bar2Poisoned_counts n
  case stored =>
    intro o l a hk hu ha he hp
    refine (gives_bar2Write hk hu ha).runs ?_
    rw [Dev.bar2WriteAt_stored he hp]
    exact ⟨s.dev.store_stored a l, s.dev.store_cores a l, fun hm => Dev.store_regs_of_not_mirrors hm a l⟩
  case dropped =>
    intro o l a hk hu ha h
    refine (gives_bar2Write hk hu ha).runs ?_
    rw [Dev.bar2WriteAt_dropped h]
    exact s.dev.bar2Dropped_counts
  case nowhere => exact fun o l hk hu ha => (gives_bar2Write_nowhere hk hu ha).runs s.dev.bar2Dropped_counts

end Sys2Proof.Machine
end

section
/-! # The end of a DMA

Refutes O25. -/

namespace Sys2Proof.Machine

/-- A DMA in flight ends with what its accesses find in SRAM. -/
theorem gives_dmaComplete {s : State} {r k : Nat} {j : Desc} (x : Ecc) (hr : r < 16) (hu : s.dev.up = true)
    (hj : s.dev.desc? (r, k) = some j) (ho : j.opc = 0x20) : Gives (.dmaComplete r k x) s ((s.dev.meetEcc x).dmaEnd j) := by
  rw [Gives, exec, execDmaComplete]
  exact State.run_gives (decide_eq_true hr) (by simp [hu, Dev.flies, hj, ho]) (by simp only [hj])

/-- A DMA of one byte from offset 0 of region 0 to offset 64 of it. -/
def oneByteDma : Desc :=
  ⟨0, 0, (List.range 64).map (fun i => if i = 0 then 0x20 else if i = 34 then 64 else if i = 40 then 1 else 0), 0⟩

/-- A device in READY with that DMA in flight, region 0 being device memory, whose memory lists address 0 twice: a byte reads as
its first entry, and a copy stores the entries in their order, so that the last one stays. -/
def listedTwice : Dev :=
  ({ Dev.init with
      st := .ready
      mem := [(0, 1), (0, 2)]
      hq := { HQ.init with rings := [(0, { Ring.init with started := [oneByteDma] })] } } : Dev).setFld (Reg.HQ_REGION_LEN.DEVICE 0) 1

/-- The copied byte is the last entry, not the byte that the source read as. -/
theorem listedTwice_copied : ((listedTwice.meetEcc ⟨[], []⟩).dmaEnd oneByteDma).peek 64 = 2 ∧
    (listedTwice.read (listedTwice.dmaSrc oneByteDma) oneByteDma.dmaLen).getD 0 0 = 1 := by
  decide +kernel

/-- Refutes O25: the statement ranges over memories that are not canonical, which no run reaches (O5); where memory lists a source
byte twice, a copy from device memory to device memory stores another byte than the source reads as. -/
theorem not_dmaCopies : ¬ Obligations.DmaCopies := by
  unfold Obligations.DmaCopies
  rintro ⟨-, hend⟩
  obtain ⟨-, hcopy, -⟩ := hend ⟨listedTwice, []⟩ 0 0 oneByteDma ⟨[], []⟩ (by decide) (by decide +kernel) (by decide +kernel)
    (by decide +kernel) rfl
  obtain ⟨e, he, hstored, -⟩ := hcopy (by decide +kernel) (by decide +kernel) (by decide +kernel) (by decide +kernel)
    (by decide +kernel) (by decide +kernel)
  have hx := gives_dmaComplete (s := ⟨listedTwice, []⟩) (r := 0) (k := 0) ⟨[], []⟩ (by decide) (by decide +kernel)
    (j := oneByteDma) (by decide +kernel) (by decide +kernel)
  have hdev : e = (listedTwice.meetEcc ⟨[], []⟩).dmaEnd oneByteDma := congrArg State.dev (Host.Outcome.next.inj (he.symm.trans hx))
  obtain ⟨hgot, hsrc⟩ := listedTwice_copied
  have h64 := hstored 64 (.inl (by decide +kernel))
  rw [hdev, hgot, if_pos (by decide +kernel)] at h64
  have hzero : 64 - (State.dev ⟨listedTwice, []⟩).dmaDst oneByteDma = 0 := by decide +kernel
  rw [hzero] at h64
  exact absurd (h64.trans hsrc) (by decide)

end Sys2Proof.Machine
end

section
/-! # MFAB descriptors at their source

Settles O56. -/

namespace Sys2Proof.Machine

variable {s : State} {d : Dev} {r k : Nat} {j : Desc}

/-! ## How an MFAB starts -/

/-- What a command of an MFAB does, whatever MOPs it is the command of. -/
theorem Starts.run_mfab {p : Nat → Bool} (h : Starts s r j) (hr : r < 16) (ho : j.opc = 0x40) (hq : s.dev.seqWaits j = false)
    (hp : p j.mop = true) :
    (∀ e, s.dev.mfabCheck j = some e → s.run (ringOk r) (s.dev.mfabDue r p) (fun d => d.startMfab r) =
      .next { s with dev := (s.dev.popHead r).finish j e }) ∧
    (s.dev.mfabCheck j = none → s.run (ringOk r) (s.dev.mfabDue r p) (fun d => d.startMfab r) =
      .next { s with dev := (s.dev.popHead r).mfabGo (.desc r j.sub) j }) := by
  have hdue : (decide (j.opc = 0x40) && p j.mop && !s.dev.seqWaits j) = true := by simp [ho, hq, hp]
  refine ⟨fun e hc => ?refused, fun hc => ?runs⟩
  case refused =>
    exact h.run_finish (p := fun j => j.opc = 0x40 && p j.mop && !s.dev.seqWaits j) (chk := Dev.mfabCheck) hr hdue hc
      (by rw [ho]; decide)
  case runs =>
    have hgo := h.run_go (p := fun j => j.opc = 0x40 && p j.mop && !s.dev.seqWaits j) (chk := Dev.mfabCheck)
      (go := fun d j => d.mfabGo (.desc j.ring j.sub) j) hr hdue hc
    rw [h.2.1] at hgo
    exact hgo

/-- Each command of an MFAB is due for its own MOP, and starts its descriptor as every other does. -/
theorem exec_mfab {c : Instr} {m : Nat}
    (hm : (c, m) ∈ [(Instr.get r, 1), (.getCached r, 2), (.put r, 3), (.putLine r, 4), (.invalidate r, 5), (.invalidateAll r, 6),
      (.aIadd r, 0x10), (.aFadd r, 0x11), (.aSwap r, 0x12), (.aCas r, 0x13), (.aUmax r, 0x14), (.aUmin r, 0x15), (.aOr r, 0x16),
      (.aAnd r, 0x17), (.rFadd r, 0x20), (.rIadd r, 0x21), (.rFmax r, 0x22), (.rFmin r, 0x23)]) :
    ∃ p : Nat → Bool, p m = true ∧ exec c s = s.run (ringOk r) (s.dev.mfabDue r p) (fun d => d.startMfab r) := by
  simp only [List.mem_cons, Prod.mk.injEq, List.not_mem_nil, or_false] at hm
  rcases hm with ⟨rfl, rfl⟩ | ⟨rfl, rfl⟩ | ⟨rfl, rfl⟩ | ⟨rfl, rfl⟩ | ⟨rfl, rfl⟩ | ⟨rfl, rfl⟩ | ⟨rfl, rfl⟩ | ⟨rfl, rfl⟩ | ⟨rfl, rfl⟩ |
    ⟨rfl, rfl⟩ | ⟨rfl, rfl⟩ | ⟨rfl, rfl⟩ | ⟨rfl, rfl⟩ | ⟨rfl, rfl⟩ | ⟨rfl, rfl⟩ | ⟨rfl, rfl⟩ | ⟨rfl, rfl⟩ | ⟨rfl, rfl⟩ <;>
    exact ⟨_, by decide, rfl⟩

/-! ## What an MFAB that passes its checks does -/

section
variable (org : MfbOrigin)

theorem Dev.mfabGo_invalidate (h : j.mop = 5) : d.mfabGo org j =
    ((d.rlcDropRange (j.num 26 2) j.remote j.len).bump Reg.MFB_OPS.COUNT 1).endDesc org j (Ending.plain .done) := by
  simp [Dev.mfabGo, h]

theorem Dev.mfabGo_invalidateAll (h : j.mop = 6) :
    d.mfabGo org j = (d.rlcDropAll.bump Reg.MFB_OPS.COUNT 1).endDesc org j (Ending.plain .done) := by
  simp [Dev.mfabGo, h]

theorem Dev.mfabGo_empty (h5 : j.mop ≠ 5) (h6 : j.mop ≠ 6) (hl : j.len = 0) :
    d.mfabGo org j = (d.bump Reg.MFB_OPS.COUNT 1).endDesc org j (Ending.plain .done) := by
  simp [Dev.mfabGo, h5, h6, hl]

section
variable (hm : j.mop ≠ 4 ∧ j.mop ≠ 5 ∧ j.mop ≠ 6) (hl : j.len ≠ 0)
include hm hl

theorem Dev.mfabGo_peerLost (hp : d.peerGone (j.num 26 2) = true) : d.mfabGo org j =
    ((d.bump Reg.MFB_OPS.COUNT 1).sight (j.num 26 2) 4 0xFF).endDesc org j ⟨.peerLost, Detail.auxed (j.num 26 2)⟩ := by
  simp [Dev.mfabGo, hm, hl, hp]

variable (hp : d.peerGone (j.num 26 2) = false)
include hp

theorem Dev.mfabGo_get (hg : mopGet j.mop = true) : d.mfabGo org j = d.startGet org j := by
  simp [Dev.mfabGo, hm, hl, hp, hg]

theorem Dev.mfabGo_atomic (hg : mopGet j.mop = false) (ha : mopAtomic j.mop = true) : d.mfabGo org j = d.startAtomic org j := by
  simp [Dev.mfabGo, hm, hl, hp, hg, ha]

theorem Dev.mfabGo_write (hg : mopGet j.mop = false) (ha : mopAtomic j.mop = false) : d.mfabGo org j =
    d.withLocal org j (fun d l => d.takeTag.startOp (d.opOfDesc org j j.mop (opPkts j.mop j.remote l j.len))) := by
  simp [Dev.mfabGo, hm, hl, hp, hg, ha]

end

/-- The bytes of LOCAL in device memory that can be read go on as they are. -/
theorem Dev.withLocal_dev {a : Nat} (go : Dev → List Byte → Dev) (hd : d.refDev (j.refIdx 40) = true)
    (ha : a = d.refAddr (j.refIdx 40) (j.refOff 40)) (he : d.readErr a j.len = none) : d.withLocal org j go = go d (d.read a j.len) := by
  subst ha
  simp only [Dev.withLocal, hd, if_true, he]

theorem Dev.startGet_uncached (h1 : j.mop = 1) (he : d.localErr j j.len = none) :
    d.startGet org j = d.takeTag.startOp (d.opOfDesc org j 1 (opPkts 1 j.remote [] j.len)) := by
  simp [Dev.startGet, he, h1]

theorem Dev.startAtomic_sent (he : d.localErr j j.len = none) : d.startAtomic org j =
    d.takeSeq.startOp { d.opOfDesc org j j.mop [freshPkt j.remote j.len []] with tag := d.mfb.seq } := by
  simp only [Dev.startAtomic, he]

end

/-- An atomic is none of the other operations. -/
theorem mop_of_atomic {m : Nat} (h : mopAtomic m = true) : (m ≠ 4 ∧ m ≠ 5 ∧ m ≠ 6) ∧ mopGet m = false := by
  simp only [mopAtomic, Bool.and_eq_true, decide_eq_true_eq] at h
  refine ⟨by omega, ?_⟩
  simp only [mopGet, Bool.or_eq_false_iff, decide_eq_false_iff_not]
  omega

/-- A PUT and a reduction are neither gets nor atomics. -/
theorem mop_of_write {m : Nat} (h : m = 3 ∨ mopReduce m = true) :
    (m ≠ 4 ∧ m ≠ 5 ∧ m ≠ 6) ∧ mopGet m = false ∧ mopAtomic m = false := by
  simp only [mopReduce, Bool.and_eq_true, decide_eq_true_eq] at h
  refine ⟨by omega, ?_, ?_⟩
  · simp only [mopGet, Bool.or_eq_false_iff, decide_eq_false_iff_not]
    omega
  · simp only [mopAtomic, Bool.and_eq_false_iff, decide_eq_false_iff_not]
    omega

/-! ## Core request rings -/

theorem gives_coreRingStart (hr : r < 16) (hd : s.dev.coreDue r = true) : Gives (.coreRingStart r) s (s.dev.startCore r) := by
  rw [Gives, exec, execCoreRingStart]
  exact State.run_gives (decide_eq_true hr) hd rfl

section
variable (hp : d.firstPoison (d.coreDescAt r (d.nextCoreDesc r).sub) 64 = none)
include hp

theorem Dev.startCore_refused {e : Ending} (hc : (d.popCore r).coreCheck (d.nextCoreDesc r) = some e) :
    d.startCore r = (d.popCore r).coreRecord (d.nextCoreDesc r) e := by
  simp only [Dev.startCore, hp, hc]

variable (hc : (d.popCore r).coreCheck (d.nextCoreDesc r) = none)
include hc

theorem Dev.startCore_nop (ho : (d.nextCoreDesc r).opc = 1) :
    d.startCore r = (d.popCore r).coreRecord (d.nextCoreDesc r) ⟨.done, Detail.none⟩ := by
  simp only [Dev.startCore, hp, hc, ho, if_true]
  rfl

theorem Dev.startCore_mfab (ho : (d.nextCoreDesc r).opc ≠ 1) :
    d.startCore r = (d.popCore r).mfabGo (.coreRing r (d.nextCoreDesc r).sub) (d.nextCoreDesc r) := by
  simp only [Dev.startCore, hp, hc, ho, if_false]

end

/-! ## Timers at the source -/

section
variable {o : MfbOp} (hu : s.dev.up = true) (ho : s.dev.op? k = some o)
include hu ho

theorem gives_getRetry (hm : mopGet o.mop = true) (hn : s.dev.unanswered o ≠ []) :
    Gives (.getRetry k) s ((s.dev.unanswered o).foldl (fun d x => d.sendReq o x) s.dev) := by
  rw [Gives, exec, execGetRetry]
  exact State.run_gives rfl (by simp [hu, ho, hm, hn]) (by simp only [ho])

theorem gives_atomicRetry {q : MfbOp} (hm : mopAtomic o.mop = true) (hn : s.dev.unanswered o ≠ []) (ht : s.dev.now < o.issued + ms 10)
    (hd : d = s.dev.modOp k (fun o => { o with tries := o.tries + 1 })) (hq : d.op? k = some q) :
    Gives (.atomicRetry k) s ((d.unanswered q).foldl (fun d x => d.sendReq q x) d) := by
  subst hd
  rw [Gives, exec, execAtomicRetry]
  exact State.run_gives rfl (by simp [hu, ho, hm, hn, ht]) (by simp only [hq])

theorem gives_atomicDeadline (hm : mopAtomic o.mop = true) (hn : o.pkts.any (·.sent) = true) (ht : o.issued + ms 12 ≤ s.dev.now) :
    Gives (.atomicDeadline k) s (s.dev.opEnd o ⟨.indeterminate, Detail.auxed o.home⟩) := by
  rw [Gives, exec, execAtomicDeadline]
  exact State.run_gives rfl (by simp only [hu, ho, Option.any_some, hm, hn, ht, decide_true, Bool.and_self]) (by simp only [ho])

theorem gives_mfbRespTimeout (hg : mopGet o.mop = false) (ha : mopAtomic o.mop = false) (hn : o.pkts.all (·.acked) = false)
    (ht : o.start + s.dev.respTime ≤ s.dev.clk) :
    Gives (.mfbRespTimeout k) s
      (if o.mop = 4 then s.dev.notifyEnd o (s.dev.respEnding o) else s.dev.opEnd o (s.dev.respEnding o)) := by
  rw [Gives, exec, execMfbRespTimeout]
  exact State.run_gives rfl
    (by simp only [hu, ho, Option.any_some, hg, ha, hn, ht, decide_true, Bool.not_false, Bool.and_self]) (by simp only [ho])

end

theorem Dev.respEnding_write {o : MfbOp} (h : o.mop ≠ 4) : d.respEnding o = ⟨.timeout, Detail.none⟩ := if_neg h

theorem Dev.respEnding_line {o : MfbOp} {x : Nat} (h : o.mop = 4)
    (hx : (d.lineMembers o.home).find? (fun x => !o.ackedBy x) = some x) : d.respEnding o = ⟨.peerLost, Detail.auxed x⟩ := by
  rw [Dev.respEnding, if_pos h, hx, Option.getD_some]

/-- Settles O56: the start of an MFAB from a host ring and from a core request ring, its outcomes, and the source's timers. -/
theorem fabricDescriptors : Obligations.FabricDescriptors := by
  unfold Obligations.FabricDescriptors
  intro s
  refine ⟨?start, ?go, ?core, ?timers, ?window, ?sequence⟩
  case start =>
    intro r j c hr h ho hq hm
    obtain ⟨p, hp, hx⟩ := exec_mfab (s := s) hm
    obtain ⟨hbad, hgood⟩ := h.run_mfab hr ho hq hp
    exact ⟨fun e hc => hx.trans (hbad e hc), fun hc => hx.trans (hgood hc)⟩
  case go =>
    intro d r k j
    refine ⟨?empty, ?dropAll, ?dropRange, ?lost, fun hl hp => ⟨?get, ?write, ?atomic⟩⟩
    case empty => exact fun h5 h6 hl => d.mfabGo_empty _ h5 h6 hl
    case dropAll => exact fun h => d.mfabGo_invalidateAll _ h
    case dropRange => exact fun h => d.mfabGo_invalidate _ h
    case lost => exact fun h4 h5 h6 hl hp => d.mfabGo_peerLost _ ⟨h4, h5, h6⟩ hl hp
    case get =>
      intro h1 he
      rw [Dev.mfabGo_get _ (by rw [h1]; decide) hl hp (by rw [h1]; rfl), Dev.startGet_uncached _ h1 he]
    case write =>
      intro a hm hd ha he
      obtain ⟨hne, hg, hat⟩ := mop_of_write hm
      rw [Dev.mfabGo_write _ hne hl hp hg hat, Dev.withLocal_dev _ _ hd ha he]
    case atomic =>
      intro ha he
      obtain ⟨hne, hg⟩ := mop_of_atomic ha
      rw [Dev.mfabGo_atomic _ hne hl hp hg ha, Dev.startAtomic_sent _ he]
  case core =>
    rintro r j d hr hd rfl rfl hp
    have h := gives_coreRingStart hr hd
    refine ⟨fun e hc => ?refused, fun hc ho => ?nop, fun hc ho => ?mfab⟩
    case refused => rwa [Dev.startCore_refused hp hc] at h
    case nop => rwa [Dev.startCore_nop hp hc ho] at h
    case mfab => rwa [Dev.startCore_mfab hp hc ho] at h
  case timers =>
    intro k o hu ho
    refine ⟨?getRetry, ?atomicRetry, ?deadline, fun hg ha hn ht => ⟨?timeout, ?member⟩⟩
    case getRetry => exact fun hm hn => gives_getRetry hu ho hm hn
    case atomicRetry => exact fun d q hm hn ht hd hq => gives_atomicRetry hu ho hm hn ht hd hq
    case deadline => exact fun hm hn ht => gives_atomicDeadline hu ho hm hn ht
    case timeout =>
      intro h4
      have h := gives_mfbRespTimeout hu ho hg ha hn ht
      rwa [if_neg h4, Dev.respEnding_write h4] at h
    case member =>
      intro x h4 hx
      have h := gives_mfbRespTimeout hu ho hg ha hn ht
      rwa [if_pos h4, Dev.respEnding_line h4 hx] at h
  case window =>
    intro hu hw
    rw [Gives, exec, execMfbWindowTimer]
    exact State.run_gives rfl (by rw [hu, hw]; rfl) rfl
  case sequence =>
    intro hu ho
    rw [Runs, exec, execAtomicSequenceFree]
    refine State.run_meets rfl (by rw [hu, ho]; rfl) ⟨?_, fun n hn => ?_, rfl⟩
    · simp [Dev.seqFree]
    · simp only [Dev.seqFree, Tab.get_set_ne _ _ _ hn]

end Sys2Proof.Machine
end

section
/-! # What a descriptor's start and its end leave

The head of a ring that is taken changes the host interface alone; a completion changes counters, rings, host memory and what leaves
the block. -/

namespace Sys2Proof.Machine

theorem Dev.popHead_frame (d : Dev) (r : Nat) : d.popHead r = { d with hq := (d.popHead r).hq, met := (d.popHead r).met } := by
  unfold Dev.popHead
  split <;> rfl

theorem Dev.popHead_cores (d : Dev) (r : Nat) : (d.popHead r).cores = d.cores := by rw [Dev.popHead_frame]

theorem Dev.popHead_opt (d : Dev) (r : Nat) : (d.popHead r).opt = d.opt := by rw [Dev.popHead_frame]

section
variable (d : Dev) (j : Desc) (x : Ending)

theorem Dev.signalled_frame : d.signalled j x.st = { d with
    regs := (d.signal j x.st).regs, evt := (d.signal j x.st).evt, mfb := (d.signal j x.st).mfb, met := (d.signal j x.st).met
    hq := (d.signalled j x.st).hq } := by
  unfold Dev.signalled Dev.signal
  split <;> rfl

theorem Dev.finish_frame : d.finish j x = { d with
    regs := (d.finish j x).regs, out := (d.finish j x).out, hq := (d.finish j x).hq
    evt := (d.signal j x.st).evt, mfb := (d.signal j x.st).mfb, met := (d.signal j x.st).met } := by
  have hrec := (RecordsWritten.finish d j x).frame
  generalize d.finish j x = e at hrec ⊢
  rw [hrec, d.signalled_frame]

theorem Dev.finish_st : (d.finish j x).st = d.st := by rw [Dev.finish_frame]

theorem Dev.finish_stp : (d.finish j x).stp = d.stp := by rw [Dev.finish_frame]

theorem Dev.finish_mem : (d.finish j x).mem = d.mem := by rw [Dev.finish_frame]

theorem Dev.finish_cores : (d.finish j x).cores = d.cores := by rw [Dev.finish_frame]

theorem Dev.finish_opt : (d.finish j x).opt = d.opt := by rw [Dev.finish_frame]

theorem Dev.fld_finish {f : Field} (hs : f.key ≠ Reg.EVT_SIGNALS.COUNT.key) (hd : f.key ≠ Reg.HQ_DESC_DONE.COUNT.key) :
    (d.finish j x).fld f = d.fld f :=
  ((RecordsWritten.finish d j x).fld hd).trans (d.fld_signal j x.st hs)

end

end Sys2Proof.Machine
end

section
/-! # Blocks, alignment beats and control blocks of optical ports

Settles O46. -/

namespace Sys2Proof.Machine

/-! ## A port after a change of it -/

@[simp] theorem Dev.port_setPort_same (d : Dev) (p : Nat) (x : Port) : (d.setPort p x).port p = x := Tab.get_set_same _ _ _ _

@[simp] theorem Dev.port_modPort_same (d : Dev) (p : Nat) (f : Port → Port) : (d.modPort p f).port p = f (d.port p) :=
  d.port_setPort_same p _

/-- A control block that goes out leaves those that wait for an answer. -/
theorem Dev.ctl_sendCtl (d : Dev) (p sub : Nat) (body : List Byte) : ((d.sendCtl p sub body).port p).ctl = (d.port p).ctl :=
  (congrArg Port.ctl (d.port_setPort_same p (d.port p).afterBlock)).trans rfl

/-! ## Alignment beats -/

/-- A table whose first k entries are each changed by a function of their own. -/
theorem Tab.get_foldl_set {α : Type} [DecidableEq α] (r : α) (g : Nat → α → α) (t : Tab α) {k n : Nat} (hn : n < k) :
    Tab.get r ((List.range k).foldl (fun t i => Tab.set r t i (g i (Tab.get r t i))) t) n = g n (Tab.get r t n) :=
  foldl_reaches (I := fun t' => Tab.get r t' n = Tab.get r t n) (Q := fun t' => Tab.get r t' n = g n (Tab.get r t n))
    (fun t' i hi h => (Tab.get_set_ne r t' _ (Ne.symm hi)).trans h)
    (fun t' h => by rw [Tab.get_set_same, h])
    (fun t' i hi h => (Tab.get_set_ne r t' _ (Ne.symm hi)).trans h)
    List.nodup_range (List.mem_range.mpr hn) t rfl

/-- The alignment units of a port rest on its transmit slots, its moves and its count. -/
theorem Dev.alignUnit_congr {d e : Dev} {p : Nat} (hr : e.regs = d.regs) (hm : (e.port p).txMoves = (d.port p).txMoves)
    (ha : (e.port p).acount = (d.port p).acount) : e.alignUnit p = d.alignUnit p := by
  funext n
  simp only [Dev.alignUnit, Dev.txSlotOf, Dev.slotLanes, Dev.fld_of_regs hr, hm, ha]

/-- A beat goes out with the port's count, and the count goes on. -/
theorem Dev.port_sendAlign (d : Dev) (p : Nat) :
    (d.sendAlign p).port p = { d.port p with acount := ((d.port p).acount + 1) % 65536, txAlign := d.txBeats p } :=
  d.port_setPort_same p _

theorem Dev.out_sendAlign (d : Dev) (p : Nat) :
    (d.sendAlign p).out = .align p (d.port p).acount ((List.range 18).map (d.alignUnit p)) :: d.out := rfl

theorem Dev.sendAlign_keeps (d : Dev) (p : Nat) : (d.sendAlign p).regs = d.regs ∧ (d.sendAlign p).mem = d.mem := ⟨rfl, rfl⟩

theorem Dev.setPort_keeps (d : Dev) (p : Nat) (y : Port) :
    (d.setPort p y).regs = d.regs ∧ (d.setPort p y).mem = d.mem ∧ (d.setPort p y).out = d.out := ⟨rfl, rfl, rfl⟩

/-- The beat of a port that has taken up what another brought: its own moves and count as before. -/
theorem Dev.sendAlign_setPort (d : Dev) (p : Nat) {y : Port} (hm : y.txMoves = (d.port p).txMoves) (ha : y.acount = (d.port p).acount) :
    ((d.setPort p y).sendAlign p).out = .align p (d.port p).acount ((List.range 18).map (d.alignUnit p)) :: d.out ∧
    ((d.setPort p y).sendAlign p).port p =
      { y with acount := (y.acount + 1) % 65536, txAlign := (d.setPort p y).txBeats p } ∧
    ((d.setPort p y).sendAlign p).regs = d.regs ∧ ((d.setPort p y).sendAlign p).mem = d.mem := by
  obtain ⟨hregs, hmem, hout⟩ := d.setPort_keeps p y
  obtain ⟨hregs', hmem'⟩ := (d.setPort p y).sendAlign_keeps p
  have hy := d.port_setPort_same p y
  have hunits : (d.setPort p y).alignUnit p = d.alignUnit p := Dev.alignUnit_congr hregs (by rw [hy, hm]) (by rw [hy, ha])
  refine ⟨?_, ?_, hregs'.trans hregs, hmem'.trans hmem⟩
  · rw [Dev.out_sendAlign, hunits, hy, ha, hout]
  · rw [Dev.port_sendAlign, hy]

theorem Dev.lanesFail_nil (d : Dev) (p : Nat) : d.lanesFail p [] = d := by
  simp [Dev.lanesFail]

/-- Where every lane's history holds fewer errors than the limit, no lane is bad. -/
theorem Dev.alignBad_nil {d : Dev} {p : Nat}
    (h : ∀ n, n < 18 → popCount 16 (Tab.get 0 (d.port p).align n) < max 1 (d.fld Reg.OPT_LANE_CFG.ALIGN_ERR)) : d.alignBad p = [] := by
  refine List.filter_eq_nil_iff.mpr fun n hn => ?_
  simp [Nat.not_le.mpr (h n (List.mem_range.mp hn))]

/-- Of units without bit errors the first names the peer's count. -/
theorem find?_unitOk {l : List (List Byte)} (hl : l.length = 18) (h : ∀ u ∈ l, unitOk u = true) :
    l.find? unitOk = some (l.getD 0 []) := by
  cases l with
  | nil => cases hl
  | cons u l => exact List.find?_cons_of_pos (h u List.mem_cons_self)

theorem unitOk_getD {l : List (List Byte)} (hl : l.length = 18) (h : ∀ u ∈ l, unitOk u = true) {n : Nat} (hn : n < 18) :
    unitOk (l.getD n []) = true := by
  rw [List.getD_eq_getElem _ _ (hl ▸ hn)]
  exact h _ (List.getElem_mem _)

/-! ## The commands -/

section
variable {s : State} {p : Nat} (hp : p < 48) (hl : s.dev.live = true) (hc : s.dev.carries p = true)
include hp hl hc

/-- A port that carries takes a block that is no control block. -/
theorem gives_linkBlockReceive {b : List Byte} {e : Dev} (hb : b.length = 256) (ht : blkGood b = true → blkType b ≠ 2)
    (he : (if !blkGood b then s.dev.bumpSat (Reg.OPT_ERR.CRC_FAIL p) 1
      else if blkType b = 0 then
        if ((s.dev.blkHeader p b).rxData p b).carries p then ((s.dev.blkHeader p b).rxData p b).answer p
        else (s.dev.blkHeader p b).rxData p b
      else if blkType b = 1 then s.dev.blkHeader p b
      else s.dev) = e) : Gives (.linkBlockReceive p b) s e := by
  rw [Gives, exec, execLinkBlockReceive]
  exact State.run_gives (by simp [portOk, hp, hb]) (by simpa [hl, hc, imp_iff_not_or] using ht) he

theorem gives_resendTimer {b : BlkBuf} (hb : b ∈ (s.dev.port p).unacked)
    (ht : b.at' + us (max 2 (s.dev.fld Reg.OPT_CFG.RESEND_US)) ≤ s.dev.clk) :
    Gives (.resendTimer p) s ((s.dev.port p).unacked.foldl (fun d b => d.resendBlock p b) s.dev) := by
  have hdue : s.dev.resendDue p = true := List.any_eq_true.mpr ⟨b, hb, decide_eq_true ht⟩
  rw [Gives, exec, execResendTimer]
  exact State.run_gives (decide_eq_true hp) (by simp [hl, hc, hdue]) rfl

theorem runs_alignmentBeat {l : List (List Byte)} (hlen : l.length = 18) (hunit : ∀ u ∈ l, u.length = 16)
    (hok : ∀ u ∈ l, unitOk u = true)
    (hfew : ∀ n, n < 18 →
      popCount 16 (alignNext (Tab.get 0 (s.dev.port p).align n) false) < max 1 (s.dev.fld Reg.OPT_LANE_CFG.ALIGN_ERR)) :
    Runs (.alignmentBeat p l) s (fun e =>
      e.out = .align p (s.dev.port p).acount ((List.range 18).map (s.dev.alignUnit p)) :: s.dev.out ∧
      (e.port p).acount = ((s.dev.port p).acount + 1) % 65536 ∧ (e.port p).rxAcount = leAt (l.getD 0 []) 6 2 ∧
      e.regs = s.dev.regs ∧ e.mem = s.dev.mem) := by
  rw [Runs, exec, execAlignmentBeat]
  refine State.run_meets (by simpa [portOk, hp, hlen] using hunit) (by simp [hl, hc]) ?_
  extract_lets x count hist errs d e
  have hcount : count = leAt (l.getD 0 []) 6 2 := by
    unfold count
    rw [find?_unitOk hlen hok]
  have hhist (n : Nat) (hn : n < 18) : Tab.get 0 hist n = alignNext (Tab.get 0 x.align n) false := by
    rw [← Bool.not_true, ← unitOk_getD hlen hok hn]
    exact Tab.get_foldl_set 0 (fun i h => alignNext h (!unitOk (l.getD i []))) x.align hn
  clear_value count hist errs
  obtain ⟨hout, hport, hregs, hmem⟩ := s.dev.sendAlign_setPort p (y := { x with
    align := hist, alignErrs := errs, rxAcount := count, eqBand := s.dev.fld Reg.TGT_STATUS.MIDWAY_BAND }) rfl rfl
  have hgood : e.alignBad p = [] := Dev.alignBad_nil fun n hn => by
    rw [hport, Dev.fld_of_regs hregs]
    exact (hhist n hn).symm ▸ hfew n hn
  rw [hgood, Dev.lanesFail_nil]
  exact ⟨hout, by rw [hport], by rw [hport, ← hcount], hregs, hmem⟩

/-- A planned training by the peer: this end drains, and trains as well; a failure's cause fails the port. -/
theorem gives_retrain {b : List Byte} {e : Dev} (hb : ctlIs b 7 = true) (hcar : (s.dev.blkHeader p b).carries p = true)
    (he : (if leAt b 9 1 % 8 = 0 then
        ((((s.dev.blkHeader p b).setFld (Reg.OPT_LANE_STATE.RX_CAL p) 0x1F).modPort p
          (fun x => { x with withdrawn := true })).timeCheck.slotsChanged p).emptyQueue p
      else (s.dev.blkHeader p b).failPort p (leAt b 9 1 % 8)) = e) : Gives (.retrain p b) s e := by
  rw [Gives, exec, execRetrain]
  refine State.run_gives (decide_eq_true hp) (by simp [hl, hc, hb]) ?_
  simp only [hcar, Bool.not_true, Bool.false_eq_true, if_false]
  exact he

/-- Control blocks that have waited are sent again while none of them has gone sixteen times. -/
theorem gives_controlResendTimer (hdue : (s.dev.port p).ctl.any s.dev.ctlDue = true)
    (hfew : (s.dev.port p).ctl.all (fun c => decide (s.dev.clk < c.at' + us 1) || decide (c.sends < 16)) = true) :
    Gives (.controlResendTimer p) s
      ((((s.dev.port p).ctl.filter s.dev.ctlDue).foldl (fun d c => d.sendCtl p c.sub c.body) s.dev).modPort p
        (fun x => { x with ctl := (s.dev.port p).ctl.map (fun c =>
          if s.dev.ctlDue c then { c with sends := c.sends + 1, at' := s.dev.clk } else c) })) := by
  have hover : (s.dev.port p).ctl.any (fun c => s.dev.ctlDue c && decide (16 ≤ c.sends)) = false := by
    refine List.any_eq_false.mpr fun c hm => ?_
    have := List.all_eq_true.mp hfew c hm
    simp only [Bool.or_eq_true, decide_eq_true_eq] at this
    simp only [Dev.ctlDue, Bool.and_eq_true, decide_eq_true_eq]
    omega
  have hkeep := foldl_keeps (fun d => (d.port p).ctl) (fun d (c : CtlBuf) => d.sendCtl p c.sub c.body)
    (fun d c => d.ctl_sendCtl p c.sub c.body) ((s.dev.port p).ctl.filter s.dev.ctlDue) s.dev
  rw [Gives, exec, execControlResendTimer]
  refine State.run_gives (decide_eq_true hp) (by rw [hl, hc, hdue]; rfl) ?_
  simp only [hover, Bool.false_eq_true, if_false, Dev.modPort, hkeep]

theorem gives_controlResendTimer_failed {c : CtlBuf} (hm : c ∈ (s.dev.port p).ctl) (hdue : s.dev.ctlDue c = true) (hs : 16 ≤ c.sends) :
    Gives (.controlResendTimer p) s (s.dev.failPort p 6) := by
  have hany : (s.dev.port p).ctl.any s.dev.ctlDue = true := List.any_eq_true.mpr ⟨c, hm, hdue⟩
  have hover : (s.dev.port p).ctl.any (fun c => s.dev.ctlDue c && decide (16 ≤ c.sends)) = true :=
    List.any_eq_true.mpr ⟨c, hm, by simp [hdue, hs]⟩
  rw [Gives, exec, execControlResendTimer]
  exact State.run_gives (decide_eq_true hp) (by rw [hl, hc, hany]; rfl) (if_pos hover)

theorem gives_laneMoveSwitch {rx : Bool} {i : Nat} {m : SlotMove} (hi : i < 16) (hm : s.dev.moveReady p rx i = some m) :
    Gives (.laneMoveSwitch p rx i) s (if rx then s.dev.rxSwitch p m else
      ((s.dev.setTxLane p i m.new).modPort p
        (fun x => { x with txMoves := x.txMoves.filter (fun y => y.slot != i) })).slotsChanged p) := by
  rw [Gives, exec, execLaneMoveSwitch]
  exact State.run_gives (by simp [portOk, hp, hi]) (by simp [hl, hc, hm]) (by simp only [hm])

end

/-- Settles O46: each clause is the branch of a block's receipt, of a move or of a timer that its hypotheses choose. -/
theorem portBlocks : Obligations.PortBlocks := by
  unfold Obligations.PortBlocks
  intro s p hp hl hc
  refine ⟨?bad, ?idle, ?data, ?resend, ?align, ?move, ?moveAck, ?rxSwitch, ?txSwitch, ?margin, ?cal, ?retrainFailed, ?retrainPlanned,
    ?again, ?sixteen, ?time, ?estimate⟩
  case bad =>
    intro b hb hg
    refine (gives_linkBlockReceive hp hl hc hb (by simp [hg]) (if_pos (by rw [hg]; rfl))).runs ?_
    exact ⟨.setFld _ _ _ _ (by simp), Dev.fld_bumpSat_same _ (Reg.OPT_ERR.CRC_FAIL p) 1⟩
  case idle => exact fun b hb hg ht => gives_linkBlockReceive hp hl hc hb (by simp [ht]) (by simp [hg, ht])
  case data => exact fun b hb hg ht hcar => gives_linkBlockReceive hp hl hc hb (by simp [ht]) (by simp [hg, ht, hcar])
  case resend => exact fun b hb ht => gives_resendTimer hp hl hc hb ht
  case align => exact fun l hlen hunit hok hfew => runs_alignmentBeat hp hl hc hlen hunit hok hfew
  case move =>
    rintro b d x hb hslot rfl rfl
    refine ⟨fun m hnew hm => ?_, fun hnew hm => ?_⟩
    all_goals
      have hne : leAt b 11 1 ≠ 0x1F := by omega
      rw [Gives, exec, execLaneMove]
      exact State.run_gives (decide_eq_true hp) (by simp [hl, hc, hb, hslot, hnew]) (by simp only [if_neg hne, hm])
  case moveAck =>
    intro b hb
    rw [Gives, exec, execLaneMoveAck]
    exact State.run_gives (decide_eq_true hp) (by simp [hl, hc, hb]) rfl
  case rxSwitch => exact fun i m hi hm => gives_laneMoveSwitch hp hl hc hi hm
  case txSwitch => exact fun i m hi hm => gives_laneMoveSwitch hp hl hc hi hm
  case margin =>
    intro b hb
    rw [Gives, exec, execMarginReport]
    exact State.run_gives (decide_eq_true hp) (by simp [hl, hc, hb]) rfl
  case cal =>
    intro b hb hlane
    rw [Gives, exec, execCalLane]
    exact State.run_gives (decide_eq_true hp) (by simp [hl, hc, hb, hlane]) rfl
  case retrainFailed => exact fun b hb hcar h => gives_retrain hp hl hc hb hcar (if_neg h)
  case retrainPlanned => exact fun b hb hcar h => gives_retrain hp hl hc hb hcar (if_pos h)
  case again =>
    intro hdue hfew
    have h := gives_controlResendTimer hp hl hc hdue hfew
    simp only [Dev.ctlDue, decide_eq_true_eq] at h
    exact h
  case sixteen => exact fun c hm hdue hs => gives_controlResendTimer_failed hp hl hc hm (decide_eq_true hdue) hs
  case time =>
    rw [Gives, exec, execTimeBlockSend]
    exact State.run_gives (decide_eq_true hp) (by rw [hl, hc]; rfl) rfl
  case estimate =>
    rintro l m hlen hsmall rfl
    rw [Gives, exec, execMarginEstimate]
    exact State.run_gives (by rw [portOk, decide_eq_true hp, decide_eq_true hlen, hsmall]; rfl) (by rw [hl, hc]; rfl) rfl

end Sys2Proof.Machine
end

section
/-! # Training, calibration and recovery of optical ports

Settles O47. -/

namespace Sys2Proof.Machine

variable {s : State} {p : Nat}

/-! ## A port that goes DOWN -/

/-- The fields that the notice of a port's change of state, its record and the completions that follow can change. -/
def noticeFields : List Field := Reg.OPT_PORT_CHANGE.PORT :: Reg.STP_STATUS.TIME_STATE :: closingFields

/-- The ports, and every field but those, are as before. -/
def PortsKept (d e : Dev) : Prop := FieldsKept noticeFields d e ∧ e.opt.ports = d.opt.ports

namespace PortsKept

variable {d e g : Dev}

theorem refl (d : Dev) : PortsKept d d := ⟨.refl _ d, rfl⟩

theorem trans (h : PortsKept d e) (h' : PortsKept e g) : PortsKept d g := ⟨h.1.trans h'.1, h'.2.trans h.2⟩

theorem of_closing (h : ClosingKeeps d e) (ho : e.opt = d.opt) : PortsKept d e := ⟨h.1.mono (by decide), congrArg Opt.ports ho⟩

theorem setFld (d : Dev) (f : Field) (n : Nat) (hf : f.key ∈ noticeFields.map Field.key := by decide) : PortsKept d (d.setFld f n) :=
  ⟨.setFld d f n _ hf, rfl⟩

theorem record (d : Dev) (x : FaultRec) : PortsKept d (d.record x) := of_closing (.record d x) (d.record_opt x)

theorem refreshFlags (d : Dev) : PortsKept d d.refreshFlags := of_closing (.refreshFlags d) d.refreshFlags_opt

theorem timeCheck (d : Dev) : PortsKept d d.timeCheck := by
  unfold Dev.timeCheck
  extract_lets t
  split
  · exact refl d
  · split
    · exact setFld d Reg.STP_STATUS.TIME_STATE 3
    · split
      · exact trans ⟨.of_regs _ rfl, rfl⟩ (setFld _ Reg.STP_STATUS.TIME_STATE 1)
      · exact refl d

theorem finishKey (d : Dev) (k : Nat × Nat) (x : Ending) : PortsKept d (d.finishKey k x) := by
  refine of_closing (.finishKey d k x) ?_
  unfold Dev.finishKey
  split
  · exact d.finish_opt _ x
  · rfl

theorem foldl {α : Type} {f : Dev → α → Dev} (hf : ∀ d a, PortsKept d (f d a)) (l : List α) :
    ∀ d, PortsKept d (l.foldl f d) := by
  induction l with
  | nil => exact refl
  | cons a l ih => exact fun d => (hf d a).trans (ih _)

theorem calEnded (d : Dev) (p : Nat) : PortsKept d (d.calEnded p) :=
  trans ⟨.of_regs _ rfl, rfl⟩ (foldl (fun d (j : SweepJob) => finishKey d j.desc _) _ _)

theorem port (h : PortsKept d e) (p : Nat) : e.port p = d.port p := by
  rw [Dev.port, h.2, Dev.port]

/-- A field of a port's status is none of those. -/
theorem status {lo w reset : Nat} {acc : Access} (h : PortsKept d e) (hp : p < 48) (hlo : lo < 64) :
    e.fld ⟨0x80100 + 0x4 * p, lo, w, acc, reset⟩ = d.fld ⟨0x80100 + 0x4 * p, lo, w, acc, reset⟩ := by
  refine h.1 _ fun hm => ?_
  have hout : ∀ k ∈ noticeFields.map Field.key, k < 64 * 0x80100 ∨ 64 * (0x80100 + 4 * 48) ≤ k := by decide
  have := hout _ hm
  simp only [Field.key] at this
  omega

end PortsKept

/-- The device when the state DOWN of a port and its cause are written. -/
def Dev.downWritten (d : Dev) (p cause : Nat) : Dev :=
  (d.setFld (Reg.OPT_PORT_STATUS.STATE p) 0).timeCheck.setFld (Reg.OPT_PORT_STATUS.CAUSE p) cause

theorem PortsKept.setPortSt_down (d : Dev) (p cause : Nat) : PortsKept (d.downWritten p cause) (d.setPortSt p 0 cause) := by
  unfold Dev.setPortSt
  extract_lets old d1 d2 d3 d4
  have h3 : PortsKept d2 d3 := .setFld d2 Reg.OPT_PORT_CHANGE.PORT _
  have h4 : PortsKept d3 d4 := by
    unfold d4
    split
    · exact .refl d3
    · exact .record d3 _
  split
  · exact .refl d2
  · exact (h3.trans h4).trans (.refreshFlags d4)

theorem Dev.downWritten_status (d : Dev) {cause : Nat} (hp : p < 48) (hc : cause < 8) :
    (d.downWritten p cause).portSt p = 0 ∧ (d.downWritten p cause).fld (Reg.OPT_PORT_STATUS.CAUSE p) = cause ∧
      (d.downWritten p cause).port p = d.port p := by
  have hne : (Reg.OPT_PORT_STATUS.STATE p).key ≠ (Reg.OPT_PORT_STATUS.CAUSE p).key := by
    simp [Field.key, Reg.OPT_PORT_STATUS.STATE, Reg.OPT_PORT_STATUS.CAUSE]
  have htime := PortsKept.timeCheck (d.setFld (Reg.OPT_PORT_STATUS.STATE p) 0)
  refine ⟨?_, ?_, htime.port p⟩
  · rw [Dev.portSt, Dev.downWritten, Dev.fld_setFld_ne _ _ hne]
    exact (htime.status hp (by decide)).trans (Dev.fld_setFld_same d (Reg.OPT_PORT_STATUS.STATE p) 0)
  · exact (Dev.fld_setFld_same _ (Reg.OPT_PORT_STATUS.CAUSE p) cause).trans (Nat.mod_eq_of_lt hc)

/-- A port whose training an IDENT ends as miswired, before its state is written. -/
def Dev.miswired (d : Dev) (p : Nat) : Dev :=
  ((d.clearLink p).modPort p (fun x => { x with since := d.clk, miswire := true, withdrawn := false, calibrating := false })).bumpSat
    Reg.OPT_TRAINS.FAILED 1

theorem Dev.miswired_port (d : Dev) (p : Nat) : ((d.miswired p).port p).miswire = true := by
  rw [Dev.miswired, Dev.port, Dev.bumpSat_opt, ← Dev.port, Dev.port_modPort_same]

/-- A port that goes DOWN with a record, and whose calibration ends, shows its state and cause. -/
theorem Dev.setPortSt_down_status (d : Dev) {cause : Nat} (x : FaultRec) (hp : p < 48) (hc : cause < 8) :
    (((d.setPortSt p 0 cause).record x).calEnded p).portSt p = 0 ∧
      (((d.setPortSt p 0 cause).record x).calEnded p).fld (Reg.OPT_PORT_STATUS.CAUSE p) = cause ∧
      (((d.setPortSt p 0 cause).record x).calEnded p).port p = d.port p := by
  have hkeep := ((PortsKept.setPortSt_down d p cause).trans (.record _ x)).trans (.calEnded _ p)
  obtain ⟨hst, hcause, hport⟩ := d.downWritten_status hp hc
  exact ⟨(hkeep.status hp (by decide)).trans hst, (hkeep.status hp (by decide)).trans hcause, (hkeep.port p).trans hport⟩

/-! ## Light and training -/

section
variable (hp : p < 48) (hl : s.dev.live = true)
include hp hl

theorem gives_lightDetected {d e : Dev} (hlight : s.dev.lightStarts p = true)
    (hd : d = (s.dev.setFeedLost p false).modPort p (fun x => { x with lightLost := false }))
    (he : (if d.portSt p = 5 then d.tryAgain p else d.startTraining p) = e) : Gives (.lightDetected p) s e := by
  subst hd
  rw [Gives, exec, execLightDetected]
  exact State.run_gives (decide_eq_true hp) (by rw [hl, hlight]; rfl) he

/-- Feed or light lost: a port that carries fails, or its lanes do, and a training fails. -/
theorem gives_lossOfLight {feed : Bool} {lanes : List Nat} {d e : Dev} (hlanes : lanes.all (· < 18) = true)
    (hd : d = (if (List.range 18).all lanes.contains then
      (if feed then s.dev.setFeedLost p true else s.dev).modPort p (fun x => { x with lightLost := true })
      else if feed then s.dev.setFeedLost p true else s.dev))
    (he : (if d.carries p then (if feed then d.failPort p 5 else d.lanesFail p lanes)
      else if d.portSt p = 1 && (feed || (List.range 18).all lanes.contains) then d.trainFails p (if feed then 5 else 1)
      else d) = e) : Gives (.lossOfLight p feed lanes) s e := by
  subst hd
  rw [Gives, exec, execLossOfLight]
  exact State.run_gives (by rw [portOk, decide_eq_true hp, hlanes]; rfl) hl he

theorem gives_trainingComplete {r : TrainResult} (hr : trainOk r = true) (hst : s.dev.portSt p = 1)
    (hi : (s.dev.port p).ident = true) : Gives (.trainingComplete p r) s (s.dev.trainDone p r) := by
  rw [Gives, exec, execTrainingComplete]
  exact State.run_gives (by rw [portOk, decide_eq_true hp, hr]; rfl) (by rw [hl, decide_eq_true hst, hi]; rfl) rfl

theorem gives_trainingPhaseTimeout {b : Bool} {d e : Dev} (hst : s.dev.portSt p = 1) (hd : d = s.dev.trainFails p (if b then 1 else 2))
    (he : (if d.st = .running then d else d.pumpPortCals) = e) : Gives (.trainingPhaseTimeout p b) s e := by
  subst hd
  rw [Gives, exec, execTrainingPhaseTimeout]
  exact State.run_gives (decide_eq_true hp) (by rw [hl, decide_eq_true hst]; rfl) he

theorem gives_trainingRetryTimer (he : s.dev.engineUp p = true) (ht : (s.dev.port p).since + ms 10 ≤ s.dev.clk)
    (hwhy : (s.dev.portSt p = 0 ∧ s.dev.fld (Reg.OPT_PORT_STATUS.CAUSE p) ∈ [1, 2, 5]) ∨
      (s.dev.portSt p = 5 ∧ s.dev.fld (Reg.OPT_PORT_STATUS.ENG_LINK p) = 0 ∧
        s.dev.fld (Reg.OPT_PORT_STATUS.TRIES p) < max 1 (s.dev.fld Reg.OPT_CFG.TRAIN_TRIES))) :
    Gives (.trainingRetryTimer p) s (s.dev.startTraining p) := by
  rw [Gives, exec, execTrainingRetryTimer]
  refine State.run_gives (decide_eq_true hp) ?_ rfl
  rw [hl, he, decide_eq_true ht]
  rcases hwhy with ⟨hst, hc⟩ | ⟨hst, hlink, htries⟩
  · rw [hst, List.contains_iff_mem.mpr hc]
    rfl
  · rw [hst, Dev.on, hlink, decide_eq_true htries]
    rfl

theorem gives_ident {b : List Byte} {d : Dev} (hb : ctlIs b 1 = true) (hst : s.dev.portSt p = 1) (hi : identOk p b = true)
    (hd : d = ((s.dev.setFld (Reg.OPT_PEER.FLAT_ID p) (leAt b 9 2)).setFld (Reg.OPT_PEER.PORT p) (leAt b 11 1 % 64)).setFld
      (Reg.OPT_PEER.SWITCH p) (leAt b 12 1 % 2)) : Gives (.ident p b) s
      (({ d.setOn (Reg.OPT_PEER.VALID p) true with
        peerCoord := Tab.set (0, 0, 0) s.dev.peerCoord p (leAt b 13 1, leAt b 14 1, leAt b 15 1) } : Dev).modPort p
        (fun x => { x with ident := true })) := by
  subst hd
  rw [Gives, exec, execIdent]
  exact State.run_gives (decide_eq_true hp) (by rw [hl, decide_eq_true hst, hb]; rfl) (by simp only [hi, if_true]; rfl)

/-- An IDENT that the port does not accept takes it DOWN as miswired (R212). -/
theorem runs_ident_miswired {b : List Byte} (hb : ctlIs b 1 = true) (hst : s.dev.portSt p = 1) (hi : identOk p b = false) :
    Runs (.ident p b) s (fun e => e.portSt p = 0 ∧ e.fld (Reg.OPT_PORT_STATUS.CAUSE p) = 3 ∧ (e.port p).miswire = true) := by
  rw [Runs, exec, execIdent]
  refine State.run_meets (decide_eq_true hp) (by rw [hl, decide_eq_true hst, hb]; rfl) ?_
  extract_lets q d1 d2 d3 d4
  rw [if_neg (by rw [hi]; decide)]
  obtain ⟨hdown, hcause, hport⟩ := (d2.miswired p).setPortSt_down_status (cause := 3)
    ⟨5, 2, some (leAt b 9 2), p, [0, 0] ++ leBytes 1 q, []⟩ hp (by decide)
  exact ⟨hdown, hcause, (congrArg Port.miswire hport).trans (d2.miswired_port p)⟩

theorem gives_miswireHoldExpire (hst : s.dev.portSt p = 0) (hm : (s.dev.port p).miswire = true)
    (ht : (s.dev.port p).since + sec 1 ≤ s.dev.clk) :
    Gives (.miswireHoldExpire p) s (s.dev.modPort p (fun x => { x with miswire := false })) := by
  rw [Gives, exec, execMiswireHoldExpire]
  exact State.run_gives (decide_eq_true hp) (by rw [hl, decide_eq_true hst, hm, decide_eq_true ht]; rfl) rfl

/-! ## Lane calibration and rings -/

theorem gives_laneCalDone {d : Dev} {n : Nat} (pass : Bool) (hc : s.dev.carries p = true) (hn : n = s.dev.fld (Reg.OPT_LANE_STATE.RX_CAL p))
    (hrun : n ≠ 0x1F) (hd : d = s.dev.setFld (Reg.OPT_LANE_STATE.RX_CAL p) 0x1F) : Gives (.laneCalDone p pass) s
      (((if pass then (d.setFldBit (Reg.OPT_LANE_STATE.RX_FAILED p) n false).modPort p (fun x => { x with
          align := Tab.set 0 x.align n 0, ringLost := setBit x.ringLost n false }) else d).sendCtl p 6
        (leBytes 1 n ++ [1])).slotsChanged p |>.laneFree p) := by
  subst hn hd
  rw [Gives, exec, execLaneCalDone]
  exact State.run_gives (decide_eq_true hp) (by simp [hl, hc, hrun]) rfl

theorem gives_ringLockLoss (rx : Bool) {lanes : List Nat} (hlanes : lanes.all (· < 18) = true) (hc : s.dev.carries p = true) :
    Gives (.ringLockLoss p rx lanes) s
      (if rx then (s.dev.modPort p (fun x => { x with ringLost := withLanes x.ringLost lanes })).lanesFail p lanes
      else s.dev.modPort p (fun x => { x with txRingLost := withLanes x.txRingLost lanes })) := by
  rw [Gives, exec, execRingLockLoss]
  exact State.run_gives (by rw [portOk, decide_eq_true hp, hlanes]; rfl) (by rw [hl, hc]; rfl) rfl

section
variable {n : Nat} (hn : n < 18) (hc : s.dev.carries p = true)
include hn hc

theorem gives_ringRelock_tx (hb : bit (s.dev.port p).txRingLost n = true) :
    Gives (.ringRelock p false n) s (s.dev.modPort p (fun x => { x with txRingLost := setBit x.txRingLost n false })) := by
  rw [Gives, exec, execRingRelock]
  exact State.run_gives (by simp [portOk, hp, hn]) (by simp [hl, hc, hb]) rfl

/-- A receive ring relocks: a lane that has not failed takes a vacant slot. -/
theorem gives_ringRelock_rx {d e : Dev} (hb : bit (s.dev.port p).ringLost n = true)
    (hd : d = s.dev.modPort p (fun x => { x with ringLost := setBit x.ringLost n false }))
    (he : (if d.rxFailed p n then d else d.laneFree p) = e) : Gives (.ringRelock p true n) s e := by
  subst hd
  rw [Gives, exec, execRingRelock]
  exact State.run_gives (by simp [portOk, hp, hn]) (by simp [hl, hc, hb]) he

end

/-! ## Port calibration -/

theorem gives_portCalDue (hc : s.dev.carries p = true) (hdue : (s.dev.port p).calDue = false)
    (hwhy : (s.dev.fld Reg.OPT_CFG.PORT_CAL_H ≠ 0 ∧
        (s.dev.port p).trained + sec (3600 * s.dev.fld Reg.OPT_CFG.PORT_CAL_H) ≤ s.dev.clk) ∨
      s.dev.fld (Reg.OPT_CAL_REC.POWER_BAND p) + 1 < s.dev.fld Reg.TGT_STATUS.POWER_BAND ∨
      s.dev.fld Reg.TGT_STATUS.POWER_BAND + 1 < s.dev.fld (Reg.OPT_CAL_REC.POWER_BAND p)) :
    Gives (.portCalDue p) s ((s.dev.modPort p (fun x => { x with calDue := true })).deferGap (.portCal p)) := by
  have htimed : s.dev.portCalTimed p = true := by simpa [Dev.portCalTimed, or_assoc] using hwhy
  rw [Gives, exec, execPortCalDue]
  exact State.run_gives (decide_eq_true hp) (by rw [hl, hc, hdue, htimed]; rfl) rfl

theorem gives_portCalDrained {m : Bool} (hc : s.dev.carries p = true) (hw : (s.dev.port p).withdrawn = true)
    (hu : (s.dev.port p).unacked = []) (hm : m = ((s.dev.port p).moveDue && s.dev.onBackup p != bit s.dev.lim.toBackup (p % 8))) :
    Gives (.portCalDrained p) s (((if m then s.dev.flipFeed p else s.dev).modPort p (fun x => { x with
      moveDue := false, moving := m, calibrating := true, replay := [] })).startTraining p) := by
  subst hm
  rw [Gives, exec, execPortCalDrained]
  exact State.run_gives (decide_eq_true hp) (by rw [hl, hc, hw, hu]; rfl) rfl

end

/-! ## CAL_REQ and MARGIN -/

section
variable {r : Nat} {j : Desc} (hr : r < 16) (h : Starts s r j)
include hr h

theorem gives_calReqOptical (ho : j.opc = 0x90) (hk : j.num 24 1 = 0) (hv : j.reservedByte [(24, 0, 8), (26, 0, 192)] = none)
    (hm : j.mask < 2 ^ 48) : Gives (.calReqOptical r) s ((s.dev.popHead r).atGap j Dev.calOptGo) := by
  have hw : badIf (decide (2 ^ 48 ≤ j.mask)) 26 = none := if_neg (by simpa only [decide_eq_true_eq, Nat.not_le] using hm)
  rw [Gives, exec, execCalReqOptical]
  exact h.run_go hr (by simp [ho, hk]) (by rw [Desc.reserved_of_none hv, hw, h.stateCheck]; rfl)

theorem gives_marginOptical (ho : j.opc = 0xE0) (hk : j.num 24 1 = 1)
    (hc : s.dev.marginCheck j 48 (288 * popCount 48 j.mask) [] = none) : Gives (.marginOptical r) s
      (((onesOf 48 j.mask).foldl (fun d q => Dev.marginTake j.key q 18 d)
        ({ s.dev.popHead r with opt := { s.dev.opt with marginJobs := s.dev.opt.marginJobs ++ [⟨j.key,
          ((onesOf 48 j.mask).map (fun q => (List.range 18).map (fun n => (q, n)))).flatten, [], []⟩] } } : Dev)).closeOptMargins) := by
  rw [Gives, exec, execMarginOptical, ← s.dev.popHead_opt r]
  exact h.run_go hr (by simp [ho, hk]) hc

end

/-- The sweep of a lane that carries no slot ends with its record, and the job goes on to the next lane. -/
theorem gives_optMarginLaneDone {n : Nat} {x : LaneSweep} {j : SweepJob} (hp : p < 48) (hn : n < 18) (hu : s.dev.up = true)
    (hj : s.dev.opt.marginJobs.find? (fun j => j.busy.contains (p, n)) = some j) (hs : s.dev.slotOf p n = none) :
    Gives (.optMarginLaneDone p n x) s (((s.dev.putLane j.desc p n
      (s.dev.laneRecord p n (leAt (Tab.get [] j.recs (32 * p + n)) 0 1) (leAt (Tab.get [] j.recs (32 * p + n)) 1 1) (some x))).modOptMargin
        (fun i => if i.desc = j.desc then { i with busy := i.busy.erase (p, n) } else i)).laneFree p) := by
  have hany : s.dev.opt.marginJobs.any (fun j => j.busy.contains (p, n)) = true := any_of_find?_eq_some hj
  rw [Gives, exec, execOptMarginLaneDone]
  exact State.run_gives (by simp [portOk, hp, hn]) (by rw [hu, hany, hs]; rfl) (by simp only [hj])

/-! ## The peer's recovery notice -/

theorem gives_linkRecoveryNotice {q : Packet} {w : Recovery} (hl : s.dev.live = true) (ht : s.dev.canTake q = true) (hc : q.cls = 3)
    (ho : q.op = 1) (hq : (s.dev.take q).noticePort q = some p) (hw : ((s.dev.take q).port p).recovery = some w) :
    Gives (.linkRecoveryNotice q) s
      ((((s.dev.take q).modPort p (fun x => { x with recovery := none })).takeBack (queuedOf (w.replay.drop
        (wholePrefix (fun b : BlkBuf => seqLe b.seq (leAt q.payload 1 2)) (fun b : BlkBuf => b.eop) w.replay 0 0)))).pumpAll p) := by
  rw [Gives, exec, execLinkRecoveryNotice]
  exact State.run_gives rfl (by rw [hl, ht, hc, ho]; rfl) (by simp only [hq, hw])

/-- Settles O47: each clause is the branch of the command that its hypotheses choose. -/
theorem portStates : Obligations.PortStates := by
  unfold Obligations.PortStates
  intro s p hp hl
  refine ⟨?light, ?loss, ?dark, fun r hr hst hi => gives_trainingComplete hp hl hr hst hi, ?phase,
    fun he ht hwhy => gives_trainingRetryTimer hp hl he ht hwhy, fun hst hm ht => gives_miswireHoldExpire hp hl hst hm ht,
    fun b d hb hst hi hd => gives_ident hp hl hb hst hi hd, fun b hb hst hi => runs_ident_miswired hp hl hb hst hi, ?laneCal,
    fun d n hc hn hrun hd => ⟨gives_laneCalDone hp hl false hc hn hrun hd, gives_laneCalDone hp hl true hc hn hrun hd⟩,
    fun l hlanes hc => ⟨gives_ringLockLoss hp hl true hlanes hc, gives_ringLockLoss hp hl false hlanes hc⟩, ?relock,
    fun hc hdue hwhy => gives_portCalDue hp hl hc hdue hwhy, fun m hc hw hu hm => gives_portCalDrained hp hl hc hw hu hm,
    fun r j hr h ho hk hv hm => gives_calReqOptical hr h ho hk hv hm, fun r j hr h ho hk hc => gives_marginOptical hr h ho hk hc,
    fun n x j hn hu hj hs => gives_optMarginLaneDone hp hn hu hj hs,
    fun q w ht hc ho hq hw => gives_linkRecoveryNotice hl ht hc ho hq hw, ?lost⟩
  case light =>
    intro d hlight hd
    exact ⟨fun h => gives_lightDetected hp hl hlight hd (if_pos h), fun h => gives_lightDetected hp hl hlight hd (if_neg h)⟩
  case loss =>
    intro l hlanes hsome
    have hfeed : s.dev.setFeedLost p true = (if (List.range 18).all l.contains then
        (s.dev.setFeedLost p true).modPort p (fun x => { x with lightLost := true }) else s.dev.setFeedLost p true) := by
      rw [hsome]; rfl
    refine ⟨fun hc => ⟨?lanes, fun hc' => ?port⟩, fun hst => ?training⟩
    case lanes => exact gives_lossOfLight (feed := false) (d := s.dev) hp hl hlanes (by rw [hsome]; rfl) (if_pos hc)
    case port => exact gives_lossOfLight (feed := true) hp hl hlanes hfeed (if_pos hc')
    case training =>
      exact gives_lossOfLight (feed := true) hp hl hlanes hfeed (by simp [Dev.carries, hst])
  case dark =>
    intro hst
    have hst' : (s.dev.modPort p (fun x => { x with lightLost := true })).portSt p = 1 := hst
    exact gives_lossOfLight (feed := false) hp hl (by decide) rfl (by simp [Dev.carries, hst'])
  case phase =>
    intro b d hst hd
    exact ⟨fun h => gives_trainingPhaseTimeout hp hl hst hd (if_pos h), fun h => gives_trainingPhaseTimeout hp hl hst hd (if_neg h)⟩
  case laneCal =>
    rintro d hfree rfl
    refine ⟨fun i n hi hn hlen hmove => ?_, fun i hi hn => ?_, fun hi hmove hswept => ?_⟩
    all_goals
      rw [Gives, exec, execLaneCalDue]
      refine State.run_gives (decide_eq_true hp) (by rw [hl, hfree]; rfl) ?_
    · simp only [hi, hn, hmove, decide_eq_true hlen]
      rfl
    · simp only [hi, hn, List.head?_nil]
    · simp only [hi, hmove, hswept]
      rfl
  case relock =>
    intro n d hn hc
    refine ⟨fun hb => gives_ringRelock_tx hp hl hn hc hb, fun hb hd => ⟨fun hf => ?_, fun hf => ?_⟩⟩
    · exact gives_ringRelock_rx hp hl hn hc hb hd (if_pos hf)
    · exact gives_ringRelock_rx hp hl hn hc hb hd (if_neg (by rw [hf]; decide))
  case lost =>
    intro h
    rw [Gives, exec, execRecoveryNoticeTimeout]
    exact State.run_gives (decide_eq_true hp) (by rw [hl, h]; rfl) rfl

end Sys2Proof.Machine
end

section
/-! # The router's commands and the suspect notices

Settles O50. -/

namespace Sys2Proof.Machine

variable {s : State}

/-! ## The router -/

section
variable (hl : s.dev.live = true)
include hl

/-- A packet that was taken back goes first, whatever has arrived. -/
theorem gives_packetRoute_again {a : Again} {l : List Again} (ha : s.dev.fab.again = a :: l) : Gives .packetRoute s
    (({ s.dev with fab := { s.dev.fab with again := l } } : Dev).routeAgain a).pumpPorts := by
  rw [Gives, exec, execPacketRoute]
  exact State.run_gives rfl (by simp [hl, ha]) (by simp only [ha])

theorem gives_packetRoute_arrived {e : Option Nat × Packet} {l : List (Option Nat × Packet)} (ha : s.dev.fab.again = [])
    (he : s.dev.fab.arrived = e :: l) : Gives .packetRoute s
    (({ s.dev with fab := { s.dev.fab with arrived := l } } : Dev).route e.1 e.2) := by
  rw [Gives, exec, execPacketRoute]
  exact State.run_gives rfl (by simp [hl, he]) (by simp only [ha, he])

theorem gives_treeWaitTimeout {w : TreeWait} {l : List TreeWait} (hw : s.dev.fab.treeWait = w :: l)
    (ht : w.since + s.dev.treeWaitTime ≤ s.dev.clk) : Gives .treeWaitTimeout s
    (({ s.dev with fab := { s.dev.fab with treeWait := l } } : Dev).bumpSat Reg.FAB_DROPS.NO_ROUTE 1) := by
  rw [Gives, exec, execTreeWaitTimeout]
  exact State.run_gives rfl (by simp [hl, hw, ht]) (by rw [hw, List.drop_one, List.tail_cons])

/-! ## Suspect notices -/

theorem gives_suspectNotice {p : Packet} {d e : Dev} (ht : s.dev.canTake p = true) (hc : p.cls = 3) (ho : p.op = 0x40)
    (hd : d = (if leAt p.payload 3 1 < 2 then
      ((s.dev.take p).holdNotice (leAt p.payload 0 2)).noticeLine (leAt p.payload 3 1 + 1) p.payload
      else (s.dev.take p).holdNotice (leAt p.payload 0 2)))
    (he : (if d.flt.handover.any (fun h => h.peer = leAt p.payload 0 2) then d.sight (leAt p.payload 0 2) (leAt p.payload 2 1) 0xFF
      else d) = e) : Gives (.suspectNotice p) s e := by
  subst hd
  rw [Gives, exec, execSuspectNotice]
  exact State.run_gives rfl (by simp [hl, ht, hc, ho]) he

end

theorem gives_suspectCountUpdate {x i : Nat} (hx : x < 65536) (hu : s.dev.up = true) (hi : s.dev.suspectAt x = some i)
    (hg : s.dev.flt.suspects.any (fun e => e.2.id = x && e.2.origin && e.2.grown && e.2.told + sec 1 ≤ s.dev.clk) = true) :
    Gives (.suspectCountUpdate x) s
      ((s.dev.putSuspect i { Tab.get Suspect.none s.dev.flt.suspects i with grown := false, told := s.dev.clk }).suspectReport 5
        (Tab.get Suspect.none s.dev.flt.suspects i)) := by
  rw [Gives, exec, execSuspectCountUpdate]
  exact State.run_gives (decide_eq_true hx) (by rw [hu, hg]; rfl) (by simp only [hi])

/-- Settles O50: which packet is routed next, the drop of one that waits for a tree port, and the life of notices and origins. -/
theorem routingAndSuspects : Obligations.RoutingAndSuspects := by
  unfold Obligations.RoutingAndSuspects
  intro s
  refine ⟨fun a l hl ha => gives_packetRoute_again hl ha, fun e l hl ha he => gives_packetRoute_arrived hl ha he, ?treeWait, ?notice,
    ?hold, fun x i hx hu hi hg => gives_suspectCountUpdate hx hu hi hg⟩
  case treeWait =>
    intro w l hl hw ht
    exact (gives_treeWaitTimeout hl hw ht).runs
      ⟨.setFld _ Reg.FAB_DROPS.NO_ROUTE _ _ (by decide), Dev.fld_bumpSat_same _ Reg.FAB_DROPS.NO_ROUTE 1⟩
  case notice =>
    rintro p x d hl ht hc ho rfl hd
    exact ⟨fun hn => gives_suspectNotice hl ht hc ho hd (by rw [hn]; rfl), fun hy => gives_suspectNotice hl ht hc ho hd (if_pos hy)⟩
  case hold =>
    intro x hx hu h
    rw [Gives, exec, execSuspectHoldExpire]
    exact State.run_gives (decide_eq_true hx) (by rw [hu, Bool.true_and, Bool.or_eq_true]; exact h) rfl

end Sys2Proof.Machine
end

section
/-! # Steps, the step barrier and the step boundary

Settles O58. -/

namespace Sys2Proof.Machine

variable {s : State} {r : Nat} {j : Desc}

/-! ## A step that begins -/

theorem Desc.num_lt (j : Desc) (a n : Nat) : j.num a n < 256 ^ n := by
  have h := leNat_lt (slice j.bytes a n)
  rwa [length_slice] at h

/-- A step that begins is open under its configuration, which shows its number, and is not failed; the cores and the device state stay. -/
structure StepOpened (d : Dev) (cfg : StepCfg) (e : Dev) : Prop where
  st : e.st = d.st
  phase : e.stp.phase = .open
  failed : e.stp.failed = false
  config : e.stp.cfg = cfg
  step : e.fld Reg.STP_STEP.STEP = cfg.step % 2 ^ 32
  cores : e.cores = d.cores

theorem StepOpened.record {d e : Dev} {cfg : StepCfg} (h : StepOpened d cfg e) (x : FaultRec) : StepOpened d cfg (e.record x) where
  st := (e.record_st x).trans h.st
  phase := (congrArg Stp.phase (e.record_stp x)).trans h.phase
  failed := (congrArg Stp.failed (e.record_stp x)).trans h.failed
  config := (congrArg Stp.cfg (e.record_stp x)).trans h.config
  step := (e.fld_record x (by decide) (by decide) (by decide)).trans h.step
  cores := (e.record_cores x).trans h.cores

theorem StepOpened.finish {d e : Dev} {cfg : StepCfg} (h : StepOpened d cfg e) (j : Desc) (x : Ending) :
    StepOpened d cfg (e.finish j x) where
  st := (e.finish_st j x).trans h.st
  phase := (congrArg Stp.phase (e.finish_stp j x)).trans h.phase
  failed := (congrArg Stp.failed (e.finish_stp j x)).trans h.failed
  config := (congrArg Stp.cfg (e.finish_stp j x)).trans h.config
  step := (e.fld_finish j x (by decide) (by decide)).trans h.step
  cores := (e.finish_cores j x).trans h.cores

theorem StepOpened.openStep (d : Dev) (cfg : StepCfg) (attempt start : Nat) : StepOpened d cfg (d.openStep cfg attempt start) := by
  unfold Dev.openStep
  extract_lets d1 car d2 t
  have h : StepOpened d cfg d2 := ⟨rfl, rfl, rfl, rfl, Dev.fld_setFld_same _ Reg.STP_STEP.STEP cfg.step, rfl⟩
  split
  · exact h
  · exact h.record _

/-! ## STEP_CFG, QUIESCE and RESUME -/

section
variable (hr : r < 16) (h : Starts s r j)
include hr h

theorem gives_stepCfg (ho : j.opc = 0x60) (hc : s.dev.stepCfgCheck j = none) :
    Gives (.stepCfg r) s ((s.dev.popHead r).stepCfgGo j) := by
  rw [Gives, exec, execStepCfg]
  exact h.run_go hr (decide_eq_true ho) hc

theorem gives_quiesce (ho : j.opc = 0xC0) (hv : j.reservedByte [] = none) (hst : s.dev.st = .running) :
    Gives (.quiesce r) s ((s.dev.popHead r).modStp (fun t => { t with quiesce := some j.key })) := by
  have hin : s.dev.inSt [.running] = true := by rw [Dev.inSt, hst]; rfl
  rw [Gives, exec, execQuiesce]
  exact h.run_go hr (decide_eq_true ho) (by rw [Desc.reserved_of_none hv, Dev.stateCheck_of_inSt hin]; rfl)

theorem gives_resume (ho : j.opc = 0xC1) (hv : j.reservedByte [] = none) (hst : s.dev.st = .quiesced)
    (hx : s.dev.flt.exported = false) : Gives (.resume r) s ((s.dev.popHead r).resumeGo j) := by
  have hin : s.dev.inSt [.quiesced] = true := by rw [Dev.inSt, hst]; rfl
  rw [Gives, exec, execResume]
  exact h.run_go hr (decide_eq_true ho) (by rw [Desc.reserved_of_none hv, Dev.stateCheck_of_inSt hin, hx]; rfl)

end

/-- A STEP_CFG in READY enters RUNNING and opens its step. -/
theorem Dev.stepCfgGo_ready {d : Dev} (h : d.st = .ready) (j : Desc) :
    StepOpened (d.setState .running) j.stepCfg (d.stepCfgGo j) := by
  rw [Dev.stepCfgGo, if_pos h]
  exact (StepOpened.openStep _ _ _ _).finish j _

/-- Outside READY a STEP_CFG waits for the boundary. -/
theorem Dev.stepCfgGo_waits {d : Dev} (h : d.st ≠ .ready) (j : Desc) :
    (d.stepCfgGo j).stp = { d.stp with next := some j.stepCfg } ∧ (d.stepCfgGo j).st = d.st ∧ (d.stepCfgGo j).mem = d.mem ∧
      (d.stepCfgGo j).cores = d.cores := by
  rw [Dev.stepCfgGo, if_neg h]
  exact ⟨Dev.finish_stp _ _ _, Dev.finish_st _ _ _, Dev.finish_mem _ _ _, Dev.finish_cores _ _ _⟩

/-- A RESUME enters RUNNING and opens the step kept. -/
theorem Dev.resumeGo_opens (d : Dev) (j : Desc) : StepOpened (d.setState .running) (d.stp.nextCfg false) (d.resumeGo j) :=
  (StepOpened.openStep _ _ _ _).finish j _

/-! ## The barrier and the boundary -/

theorem gives_stepArrival (h : s.dev.arrives = true) : Gives .stepArrival s (s.dev.modStp (fun t => { t with
    phase := .arrived, tArr := s.dev.now, round := 0, held := ⟨1, t.failed, s.dev.now, s.dev.now, s.dev.barRank⟩ })).barPump := by
  rw [Gives, exec, execStepArrival]
  exact State.run_gives rfl h rfl

theorem gives_barrierResend (hst : s.dev.st = .running) (h : s.dev.stp.sends.any s.dev.barDue = true) : Gives .barrierResend s
    ((s.dev.barLive.filter s.dev.barDue).foldl (fun d x => d.send x.pkt) (s.dev.modStp (fun t => { t with
      sends := s.dev.barLive.map (fun x => if s.dev.barDue x then { x with at' := s.dev.clk } else x) }))) := by
  rw [Gives, exec, execBarrierResend]
  exact State.run_gives rfl (by rw [h, Bool.and_true]; exact decide_eq_true hst) rfl

/-- An edge of the synchronisation input counts when none came within 1 µs before it. -/
theorem gives_stepSyncEdge {d e : Dev} (hst : s.dev.st = .running)
    (hedge : s.dev.stp.lastEdge = 0 ∨ us 1 + s.dev.stp.lastEdge ≤ s.dev.clk + 1)
    (hd : d = s.dev.modStp (fun t => { t with lastEdge := s.dev.clk + 1 }))
    (he : (if !s.dev.stp.cfg.syncEn then d
      else if s.dev.stp.phase = .syncWait && s.dev.now ≤ s.dev.stp.winEnd then
        (d.bumpSat Reg.STP_SYNC.HIT 1).boundary s.dev.now s.dev.stp.committed
      else d.modStp (fun t => { t with edges := s.dev.now :: t.edges })) = e) : Gives .stepSyncEdge s e := by
  subst hd
  rw [Gives, exec, execStepSyncEdge]
  exact State.run_gives rfl (by simpa [hst] using hedge) he

/-- With no RUN and no collective the timed fall-back rolls the step back and writes its record alone. -/
theorem gives_timedFallback (hst : s.dev.st = .running) (hph : [.gap, .open, .arrived].contains s.dev.stp.phase = true)
    (ht : s.dev.stp.fallback ≤ s.dev.now) (hruns : s.dev.runs = []) (hcolls : s.dev.car.colls = []) : Gives .timedFallback s
    (((s.dev.modStp (fun t => { t with timed := true, phase := .rolling })).bumpSat Reg.STP_ENDS.TIMED 1).record
      ⟨0x0B, 1, none, 0xFF, leBytes 4 s.dev.stepNo ++ leBytes 1 s.dev.barWaits ++ leBytes 1 (flag (decide (s.dev.stp.phase = .arrived))),
        leBytes 8 s.dev.stp.tArr⟩) := by
  rw [Gives, exec, execTimedFallback]
  refine State.run_gives rfl (by rw [hph, decide_eq_true ht, decide_eq_true hst]; rfl) ?_
  have hruns' : (s.dev.modStp (fun t => { t with timed := true })).runs = [] := hruns
  have hcolls' : (s.dev.modStp (fun t => { t with timed := true })).car.colls = [] := hcolls
  simp only [hruns', List.map_nil, List.foldl_nil, hcolls']
  rfl

theorem Dev.stepOver_unsynced {d : Dev} (b : Bool) (h : d.stp.cfg.syncEn = false) :
    d.stepOver b = (d.modStp (fun t => { t with tc := d.now, committed := b })).boundary d.now b := by
  simp only [Dev.stepOver, h, Bool.not_false, if_true]

/-- A RUN that has no cores yet ends with TIMEOUT at the fall-back. -/
theorem Dev.timeoutRun_waiting {d : Dev} {k : Nat × Nat} {x : Run} (hk : d.run? k = some x) (ha : x.acquired = false) :
    d.timeoutRun k = d.finishRun x ⟨.timeout, Detail.none⟩ := by
  have hheld : d.runHeld x = false := by rw [Dev.runHeld, ha, Bool.false_and]
  simp only [Dev.timeoutRun, hk, hheld, ha, Bool.false_eq_true, if_false, Bool.not_false, if_true]
  rfl

/-! ## Time blocks -/

theorem wrapInt_lt (w : Nat) (i : Int) : wrapInt w i < 2 ^ w := by
  have hpos : (0 : Int) < ((2 ^ w : Nat) : Int) := by exact_mod_cast Nat.two_pow_pos w
  have hlt := Int.emod_lt_of_pos i hpos
  rw [wrapInt]
  omega

/-- The fields that the discipline of fabric time changes. -/
def disciplineFields : List Field := [Reg.STP_TIME_OFFSET.OFFSET, Reg.STP_TIME_OFFSET.TRIM, Reg.STP_STATUS.TIME_STATE]

theorem FieldsKept.setTimeState (d : Dev) (n : Nat) : FieldsKept disciplineFields d (d.setFld Reg.STP_STATUS.TIME_STATE n) :=
  .setFld d _ n _ (by decide)

theorem FieldsKept.timeState (d : Dev) (off : Int) : FieldsKept disciplineFields d (d.timeState off) := by
  unfold Dev.timeState
  extract_lets inside d1 reset
  have hreset (n : Nat) : FieldsKept disciplineFields d ((reset d1).setFld Reg.STP_STATUS.TIME_STATE n) :=
    FieldsKept.trans (.of_regs _ rfl) (.setTimeState (reset d1) n)
  split
  · exact hreset 1
  · split
    · exact hreset 2
    · exact .of_regs _ rfl
  · split
    · exact hreset 1
    · exact .of_regs _ rfl
  · exact .of_regs _ rfl

theorem FieldsKept.newTrim (d : Dev) : FieldsKept disciplineFields d d.newTrim := by
  unfold Dev.newTrim
  extract_lets v
  exact FieldsKept.trans (.of_regs _ rfl) (.setFld _ Reg.STP_TIME_OFFSET.TRIM _ _ (by decide))

theorem FieldsKept.discipline (d : Dev) (off : Int) : FieldsKept disciplineFields d (d.discipline off) := by
  unfold Dev.discipline
  extract_lets u d1 d2
  have h : FieldsKept disciplineFields d d2 :=
    ((FieldsKept.setFld d Reg.STP_TIME_OFFSET.OFFSET _ _ (by decide)).trans (.timeState d1 off)).trans (.newTrim _)
  split
  · exact h.trans (.of_regs _ rfl)
  · exact h

/-- No port's link delay is a field that the discipline changes. -/
theorem linkDelay_not_discipline {p : Nat} (hp : p < 48) : (Reg.OPT_LINK_DELAY.DELAY p).key ∉ disciplineFields.map Field.key := by
  simp only [disciplineFields, List.map_cons, List.map_nil, List.mem_cons, List.not_mem_nil, or_false, Field.key,
    Reg.OPT_LINK_DELAY.DELAY, Reg.STP_TIME_OFFSET.OFFSET, Reg.STP_TIME_OFFSET.TRIM, Reg.STP_STATUS.TIME_STATE]
  omega

/-- A TIME block writes the delay that it computes, and the discipline leaves it. -/
theorem Dev.timeBlock_delay (d : Dev) {p : Nat} (b : List Byte) (hp : p < 48) :
    (d.timeBlock p b).fld (Reg.OPT_LINK_DELAY.DELAY p) = wrapInt 24 (stampUnits
      ((((d.stamp : Int) - (256 * leAt b 18 8 + leAt b 26 1)) -
        ((256 * leAt b 9 8 + leAt b 17 1) - (256 * leAt b 27 8 + leAt b 35 1))) / 2)) := by
  unfold Dev.timeBlock
  extract_lets at' t4 tx delay d1 d2
  have h2 : d2.fld (Reg.OPT_LINK_DELAY.DELAY p) = wrapInt 24 (stampUnits delay) :=
    (Dev.fld_setFld_same d (Reg.OPT_LINK_DELAY.DELAY p) _).trans (Nat.mod_eq_of_lt (wrapInt_lt 24 _))
  split
  · exact (FieldsKept.discipline d2 _ _ (linkDelay_not_discipline hp)).trans h2
  · exact h2

/-- Settles O58: the start and the end of steps, the barrier's packets, the boundary, and a TIME block's delay. -/
theorem stepsAndBarrier : Obligations.StepsAndBarrier := by
  unfold Obligations.StepsAndBarrier
  intro s
  refine ⟨?stepCfg, fun r j hr h ho hv hst => gives_quiesce hr h ho hv hst, ?resume, fun h => gives_stepArrival h, ?record, ?ack,
    fun hst h => gives_barrierResend hst h, ?edge, ?windowEnd, ?gapEnd, ?commit, ?rollback, ?rollbackDone,
    fun d b h => Dev.stepOver_unsynced b h, fun hst hph ht hr hc => gives_timedFallback hst hph ht hr hc,
    fun k x hk ha => Dev.timeoutRun_waiting hk ha, ?time, fun d p b hp => d.timeBlock_delay b hp⟩
  case stepCfg =>
    intro r j hr h ho hc
    obtain ⟨hst', hstp⟩ := s.dev.popHead_state r
    obtain ⟨hmem, -, -⟩ := s.dev.popHead_keeps r
    refine ⟨fun hst => (gives_stepCfg hr h ho hc).runs ?_, fun hst => (gives_stepCfg hr h ho hc).runs ?_⟩
    · have hopen := Dev.stepCfgGo_ready (hst'.trans hst) j
      exact ⟨hopen.st, hopen.step.trans (Nat.mod_eq_of_lt (j.num_lt 24 4)), hopen.phase, hopen.failed, hopen.config,
        hopen.cores.trans (s.dev.popHead_cores r)⟩
    · obtain ⟨hnext, hst2, hm, hcores⟩ := Dev.stepCfgGo_waits (d := s.dev.popHead r) (by rw [hst', hst]; decide) j
      rw [hnext, hst2, hm, hcores, hst', hstp, hmem, s.dev.popHead_cores r]
      exact ⟨rfl, rfl, hst, rfl, rfl⟩
  case resume =>
    intro r j hr h ho hv hst hx
    obtain ⟨-, hstp⟩ := s.dev.popHead_state r
    refine (gives_resume hr h ho hv hst hx).runs ?_
    have hopen := Dev.resumeGo_opens (s.dev.popHead r) j
    rw [hstp] at hopen
    exact ⟨hopen.st, hopen.phase, hopen.config, hopen.cores.trans (s.dev.popHead_cores r)⟩
  case record =>
    rintro p d e hu ht rfl rfl
    rw [Gives, Gives, Gives, Gives, exec, execBarrierRecord]
    refine ⟨fun ha => ?_, fun ha => ?_, fun ha => ?_, fun ha => ?_⟩
    all_goals exact State.run_gives rfl (by rw [hu, ht]; rfl) (by simp only [ha])
  case ack =>
    intro p hu ht
    rw [Gives, exec, execBarrierAck]
    exact State.run_gives rfl (by rw [hu, ht]; rfl) rfl
  case edge =>
    intro d hst hedge hd
    refine ⟨fun hs => gives_stepSyncEdge hst hedge hd ?_, fun hs hph hw => gives_stepSyncEdge hst hedge hd ?_,
      fun hs hph => gives_stepSyncEdge hst hedge hd ?_⟩
    · simp [hs]
    · simp [hs, hph, hw]
    · simp [hs, hph]
  case windowEnd =>
    intro hst hph hw
    rw [Gives, exec, execSyncWindowEnd]
    exact State.run_gives rfl (by simp [hst, hph, hw]) rfl
  case gapEnd =>
    intro hst hph hw
    rw [Gives, exec, execStepGapEnd]
    exact State.run_gives rfl (by simp [hst, hph, hw]) rfl
  case commit =>
    intro hst hph hb hm
    rw [Gives, exec, execStepCommitDone]
    exact State.run_gives rfl (by simp [hst, hph, hb, hm]) rfl
  case rollback =>
    intro hst hph hu hc ht
    rw [Gives, exec, execStepRollback]
    exact State.run_gives rfl (by simp [hst, hph, hu, hc, ht]) rfl
  case rollbackDone =>
    intro hst hph hu
    rw [Gives, exec, execStepRollbackDone]
    exact State.run_gives rfl (by simp [hst, hph, hu]) rfl
  case time =>
    intro p b hp hl hc hb
    rw [Gives, exec, execTime]
    exact State.run_gives (decide_eq_true hp) (by rw [hl, hc, hb]; rfl) rfl

end Sys2Proof.Machine
end

section
/-! # Limelight cartridges and the board switch

Settles O48. A notice about a slot (its record, a reason, a change of the board switch) leaves what shows the slot (`SlotKept`);
the state that a command writes and the record it reads therefore stand when the command ends. -/

namespace Sys2Proof.Machine

variable {s : State} {i : Nat}

/-! ## What a notice about a slot leaves -/

/-- A field of LIM_STATE or LIM_SERIAL, or the count of the cartridges that were rejected. -/
@[reducible] def Field.ShowsSlot (f : Field) : Prop :=
  ((Reg.LIM_STATE.STATE 0).key ≤ f.key ∧ f.key < Reg.LIM_SW.SEL.key) ∨
    ((Reg.LIM_SERIAL.SERIAL 0).key ≤ f.key ∧ f.key < Reg.LIM_EVENTS.SWITCHOVERS.key) ∨ f.key = Reg.LIM_EVENTS.REJECTED.key

theorem Field.ShowsSlot.key_ne {f g : Field} (hf : f.ShowsSlot) (hg : ¬g.ShowsSlot) : f.key ≠ g.key := by
  rintro e
  rw [Field.ShowsSlot, e] at hf
  exact hg hf

theorem showsSlot_state {lo w reset : Nat} {acc : Access} (hi : i < 10) (hlo : lo < 64) :
    (⟨0x90000 + 0x4 * i, lo, w, acc, reset⟩ : Field).ShowsSlot := by
  simp only [Field.ShowsSlot, Field.key, Reg.LIM_STATE.STATE, Reg.LIM_SW.SEL]
  omega

theorem showsSlot_serial (hi : i < 10) : (Reg.LIM_SERIAL.SERIAL i).ShowsSlot := by
  simp only [Field.ShowsSlot, Field.key, Reg.LIM_SERIAL.SERIAL, Reg.LIM_EVENTS.SWITCHOVERS]
  omega

theorem not_showsSlot_life {lo w reset : Nat} {acc : Access} (hi : i < 10) (hlo : lo < 64) :
    ¬(⟨0x90100 + 0x8 * i, lo, w, acc, reset⟩ : Field).ShowsSlot := by
  simp only [Field.ShowsSlot, Field.key, Reg.LIM_STATE.STATE, Reg.LIM_SW.SEL, Reg.LIM_SERIAL.SERIAL, Reg.LIM_EVENTS.SWITCHOVERS,
    Reg.LIM_EVENTS.REJECTED]
  omega

theorem not_showsSlot_fade {lo w reset : Nat} {acc : Access} (hi : i < 10) (hlo : lo < 64) :
    ¬(⟨0x90200 + 0x4 * i, lo, w, acc, reset⟩ : Field).ShowsSlot := by
  simp only [Field.ShowsSlot, Field.key, Reg.LIM_STATE.STATE, Reg.LIM_SW.SEL, Reg.LIM_SERIAL.SERIAL, Reg.LIM_EVENTS.SWITCHOVERS,
    Reg.LIM_EVENTS.REJECTED]
  omega

/-- The fields that show slots, the record of the cartridge in slot i, its LM_EN, the presence pins and the device state are as
before. -/
structure SlotKept (i : Nat) (d e : Dev) : Prop where
  fld : ∀ f : Field, f.ShowsSlot → e.fld f = d.fld f
  card : (e.slot i).card = (d.slot i).card
  lmEn : bit e.pins.lmEn i = bit d.pins.lmEn i
  present : e.pins.lmPresent = d.pins.lmPresent
  st : e.st = d.st

theorem Dev.slot_modSlot (d : Dev) (k j : Nat) (f : Slot → Slot) :
    (d.modSlot k f).slot j = if j = k then f (d.slot k) else d.slot j := Tab.get_set _ _ _ _ _

/-- The select pins of the board switch set. -/
def Dev.selectPins (d : Dev) (sel : Nat) : Dev := { d with pins := { d.pins with lmSwSel := sel } }

theorem Dev.slot_setFld (d : Dev) (f : Field) (n j : Nat) : (d.setFld f n).slot j = d.slot j := rfl

namespace SlotKept

variable {d e g : Dev}

theorem refl (i : Nat) (d : Dev) : SlotKept i d d := ⟨fun _ _ => rfl, rfl, rfl, rfl, rfl⟩

theorem trans (h : SlotKept i d e) (h' : SlotKept i e g) : SlotKept i d g :=
  ⟨fun f hf => (h'.fld f hf).trans (h.fld f hf), h'.card.trans h.card, h'.lmEn.trans h.lmEn, h'.present.trans h.present,
    h'.st.trans h.st⟩

theorem of_eq (hr : e.regs = d.regs := by rfl) (hl : e.lim.slots = d.lim.slots := by rfl) (hen : e.pins.lmEn = d.pins.lmEn := by rfl)
    (hp : e.pins.lmPresent = d.pins.lmPresent := by rfl) (hst : e.st = d.st := by rfl) : SlotKept i d e :=
  ⟨fun f _ => Dev.fld_of_regs hr f, by rw [Dev.slot, hl, Dev.slot], by rw [hen], hp, hst⟩

theorem ite {c : Prop} [Decidable c] (h : SlotKept i d e) (h' : SlotKept i d g) : SlotKept i d (if c then e else g) := by
  split
  · exact h
  · exact h'

theorem setFld (d : Dev) (f : Field) (n : Nat) (hf : ¬f.ShowsSlot := by decide) : SlotKept i d (d.setFld f n) :=
  ⟨fun _ hg => Dev.fld_setFld_ne d n (hg.key_ne hf), rfl, rfl, rfl, rfl⟩

theorem record (d : Dev) (x : FaultRec) : SlotKept i d (d.record x) where
  fld _ hf := d.fld_record x (hf.key_ne (by decide)) (hf.key_ne (by decide)) (hf.key_ne (by decide))
  card := by rw [Dev.slot, Dev.record_lim, Dev.slot]
  lmEn := by rw [Dev.record_pins]
  present := by rw [Dev.record_pins]
  st := d.record_st x

theorem refreshFlags (d : Dev) : SlotKept i d d.refreshFlags where
  fld _ hf := d.fld_refreshFlags (hf.key_ne (by decide))
  card := by rw [Dev.slot, Dev.refreshFlags_lim, Dev.slot]
  lmEn := by rw [Dev.refreshFlags_pins]
  present := by rw [Dev.refreshFlags_pins]
  st := d.refreshFlags_st

theorem setReason (d : Dev) (n : Nat) : SlotKept i d (d.setReason n) :=
  ite (refl i d) (((setFld d _ _).trans (setFld _ _ _)).trans (record _ _))

theorem clearReason (d : Dev) (n : Nat) : SlotKept i d (d.clearReason n) :=
  ite (((setFld d _ _).trans (setFld _ _ _)).trans (record _ _)) (refl i d)

theorem wantHome (d : Dev) (k : Nat) : SlotKept i d (d.wantHome k) := trans (e := d.modLim _) of_eq (setReason _ _)

theorem wantSpare (d : Dev) (k : Nat) : SlotKept i d (d.wantSpare k) := trans (e := d.modLim _) of_eq (setReason _ _)

theorem slotFilled (d : Dev) (k : Nat) : SlotKept i d (d.slotFilled k) := by
  unfold Dev.slotFilled
  extract_lets d1 d2
  have h1 : SlotKept i d d1 := of_eq
  have h2 : SlotKept i d d2 := of_eq
  exact ite (ite (h1.trans (clearReason _ _)) h1) (ite (h2.trans (clearReason _ _)) h2)

theorem emptyCheck (d : Dev) (k : Nat) : SlotKept i d (d.emptyCheck k) := ite (wantHome d k) (refl i d)

theorem switchStart (d : Dev) (k : Nat) : SlotKept i d (d.switchStart k) := by
  unfold Dev.switchStart
  extract_lets j d1 sel pins d2
  have h1 : SlotKept i d d1 := setFld d _ _
  have h2 : SlotKept i d d2 := h1.trans (trans (e := d1.selectPins sel) of_eq (setFld (d1.selectPins sel) Reg.LIM_SW.SEL sel))
  exact ite of_eq (ite (wantSpare d _) (ite (refl i d) (h2.trans of_eq)))

theorem spareReady (d : Dev) (k : Nat) : SlotKept i d (d.spareReady k) := by
  unfold Dev.spareReady
  split
  · exact switchStart d _
  · exact refl i d

theorem showLife (d : Dev) (hi : i < 10) : SlotKept i d (d.showLife i) :=
  (setFld d _ _ (not_showsSlot_life hi (by decide))).trans (setFld _ _ _ (not_showsSlot_life hi (by decide)))

/-- What the registers of an emptied slot keep beside AUTH and SERIAL. -/
theorem slotBare (d : Dev) (hi : i < 10) :
    SlotKept i ((d.setFld (Reg.LIM_STATE.AUTH i) 0).setFld (Reg.LIM_SERIAL.SERIAL i) 0) (d.slotBare i) :=
  ((((setFld _ _ _ (not_showsSlot_life hi (by decide))).trans (setFld _ _ _ (not_showsSlot_life hi (by decide)))).trans
    (setFld _ _ _ (not_showsSlot_fade hi (by decide)))).trans (setFld _ _ _ (not_showsSlot_fade hi (by decide)))).trans
    (setFld _ _ _ (not_showsSlot_fade hi (by decide)))

theorem setLmEn_ne (d : Dev) {k : Nat} (b : Bool) (h : i ≠ k) : SlotKept i d (d.setLmEn k b) := by
  unfold Dev.setLmEn
  extract_lets d1
  refine ite (refl i d) ⟨fun _ _ => rfl, ?_, ?_, rfl, rfl⟩
  · exact congrArg Slot.card ((d.slot_modSlot k i _).trans (if_neg h))
  · exact (bit_setBit _ _ _ _).trans (if_neg h)

end SlotKept

/-! ## The state of a slot -/

/-- The device when a slot's state and its cause are written. -/
def Dev.slotWritten (d : Dev) (k st cause : Nat) : Dev :=
  (d.setFld (Reg.LIM_STATE.STATE k) st).setFld (Reg.LIM_STATE.CAUSE k) cause

theorem SlotKept.setSlotSt {d : Dev} {st : Nat} (hi : i < 10) (h : d.slotSt i ≠ st) (cause : Nat) :
    SlotKept i (d.slotWritten i st cause) (d.setSlotSt i st cause) := by
  unfold Dev.setSlotSt
  rw [if_neg h]
  exact trans (ite (record _ _) ((record _ _).trans (setFld _ _ _ (not_showsSlot_fade hi (by decide))))) (refreshFlags _)

section
variable (d : Dev) (k : Nat) {st cause : Nat}

theorem Dev.fld_slotWritten {f : Field} (hst : f.key ≠ (Reg.LIM_STATE.STATE k).key) (hc : f.key ≠ (Reg.LIM_STATE.CAUSE k).key) :
    (d.slotWritten k st cause).fld f = d.fld f := (Dev.fld_setFld_ne _ _ hc).trans (Dev.fld_setFld_ne _ _ hst)

theorem Dev.slotWritten_state (hst : st < 8) : (d.slotWritten k st cause).slotSt k = st := by
  rw [Dev.slotSt, Dev.slotWritten, Dev.fld_setFld_ne _ _ (by simp [Field.key, Reg.LIM_STATE.STATE, Reg.LIM_STATE.CAUSE]),
    Dev.fld_setFld_same]
  exact Nat.mod_eq_of_lt hst

theorem Dev.slotWritten_cause (hc : cause < 4) : (d.slotWritten k st cause).fld (Reg.LIM_STATE.CAUSE k) = cause := by
  rw [Dev.slotWritten, Dev.fld_setFld_same]
  exact Nat.mod_eq_of_lt hc

end

section
variable {d : Dev} {st : Nat} (hi : i < 10) (hst : st < 8)
include hi hst

theorem SlotKept.state_of_written {e : Dev} {cause : Nat} (h : SlotKept i (d.slotWritten i st cause) e) : e.slotSt i = st :=
  (h.fld _ (showsSlot_state hi (by decide))).trans (d.slotWritten_state i hst)

theorem Dev.setSlotSt_state (cause : Nat) : (d.setSlotSt i st cause).slotSt i = st := by
  by_cases h : d.slotSt i = st
  · rw [Dev.setSlotSt, if_pos h, h]
  · exact (SlotKept.setSlotSt hi h cause).state_of_written hi hst

end

theorem Dev.setSlotSt_lim (d : Dev) (k st cause : Nat) : (d.setSlotSt k st cause).lim = d.lim := by
  unfold Dev.setSlotSt
  split
  · rfl
  · rw [Dev.refreshFlags_lim]
    split <;> exact Dev.record_lim _ _

theorem Dev.spareGroup_of_group {d e : Dev} (h : e.lim.group = d.lim.group) (k : Nat) : e.spareGroup k = d.spareGroup k := by
  unfold Dev.spareGroup
  rw [h]

theorem SlotKept.cause_of_written {d e : Dev} {st cause : Nat} (hi : i < 10) (hc : cause < 4)
    (h : SlotKept i (d.slotWritten i st cause) e) : e.fld (Reg.LIM_STATE.CAUSE i) = cause :=
  (h.fld _ (showsSlot_state hi (by decide))).trans (d.slotWritten_cause i hc)

/-! ## LM_EN -/

section
variable (d : Dev) (k : Nat) (b : Bool)

theorem Dev.setLmEn_frame : d.setLmEn k b = { d with pins := (d.setLmEn k b).pins, lim := (d.setLmEn k b).lim } := by
  unfold Dev.setLmEn
  split <;> rfl

theorem Dev.setLmEn_regs : (d.setLmEn k b).regs = d.regs := by rw [Dev.setLmEn_frame]

theorem Dev.setLmEn_st : (d.setLmEn k b).st = d.st := by rw [Dev.setLmEn_frame]

theorem Dev.setLmEn_lmPresent : (d.setLmEn k b).pins.lmPresent = d.pins.lmPresent := by
  unfold Dev.setLmEn
  split <;> rfl

theorem Dev.bit_setLmEn (j : Nat) : bit (d.setLmEn k b).pins.lmEn j = if j = k then b else bit d.pins.lmEn j := by
  unfold Dev.setLmEn
  split
  case isTrue h =>
    split
    case isTrue hj => rw [hj, h]
    case isFalse => rfl
  case isFalse => exact bit_setBit _ _ _ _

theorem Dev.setLmEn_card (j : Nat) : ((d.setLmEn k b).slot j).card = (d.slot j).card := by
  unfold Dev.setLmEn
  split
  case isTrue => rfl
  case isFalse =>
    refine (congrArg Slot.card (d.slot_modSlot k j _)).trans ?_
    split
    case isTrue hj => rw [hj]
    case isFalse => rfl

end

/-- One slot of R230: a cartridge that warms is enabled. -/
def Dev.lightSlot (d : Dev) (k : Nat) : Dev := if d.slotSt k = 1 then d.setLmEn k true else d

theorem Dev.lightUp_eq (d : Dev) :
    d.lightUp = if d.st = .boot && !d.cartsChecked then d else (List.range 10).foldl Dev.lightSlot d := rfl

theorem Dev.lightSlot_regs (d : Dev) (k : Nat) : (d.lightSlot k).regs = d.regs := by
  unfold Dev.lightSlot
  split
  · exact d.setLmEn_regs k true
  · rfl

theorem Dev.lightSlot_card (d : Dev) (k j : Nat) : ((d.lightSlot k).slot j).card = (d.slot j).card := by
  unfold Dev.lightSlot
  split
  · exact d.setLmEn_card k true j
  · rfl

theorem Dev.lightSlot_lit (d : Dev) (k : Nat) (h : bit d.pins.lmEn i = true) : bit (d.lightSlot k).pins.lmEn i = true := by
  unfold Dev.lightSlot
  split
  · rw [Dev.bit_setLmEn, h, ite_self]
  · exact h

theorem Dev.lightUp_regs (d : Dev) : d.lightUp.regs = d.regs := by
  rw [Dev.lightUp_eq]
  split
  · rfl
  · exact foldl_keeps Dev.regs Dev.lightSlot Dev.lightSlot_regs _ d

theorem Dev.lightUp_card (d : Dev) (j : Nat) : (d.lightUp.slot j).card = (d.slot j).card := by
  rw [Dev.lightUp_eq]
  split
  · rfl
  · exact foldl_keeps (fun d : Dev => (d.slot j).card) Dev.lightSlot (fun d k => d.lightSlot_card k j) _ d

/-- A slot that does not warm is not enabled, and keeps what it holds. -/
theorem SlotKept.lightUp {d : Dev} (hi : i < 10) (h : d.slotSt i ≠ 1) : SlotKept i d d.lightUp := by
  rw [Dev.lightUp_eq]
  refine ite (refl i d) (List.foldlRecOn _ _ (refl i d) fun e he k _ => ?_)
  unfold Dev.lightSlot
  split
  case isTrue hk =>
    have hne : i ≠ k := by
      rintro rfl
      exact h ((he.fld _ (showsSlot_state hi (by decide))).symm.trans hk)
    exact he.trans (setLmEn_ne e true hne)
  case isFalse => exact he

/-- A slot that warms is enabled, but in BOOT. -/
theorem Dev.lightUp_lit {d : Dev} (hi : i < 10) (hst : d.st ≠ .boot) (h : d.slotSt i = 1) : bit d.lightUp.pins.lmEn i = true := by
  obtain ⟨before, after, hsplit⟩ := List.append_of_mem (List.mem_range.mpr hi)
  rw [Dev.lightUp_eq, if_neg (by simp [hst]), hsplit, List.foldl_append, List.foldl_cons]
  have hregs := foldl_keeps Dev.regs Dev.lightSlot Dev.lightSlot_regs before d
  refine List.foldlRecOn (motive := fun e => bit e.pins.lmEn i = true) _ _ ?_ fun (e : Dev) he k _ => e.lightSlot_lit k he
  have hwarm : (before.foldl Dev.lightSlot d).slotSt i = 1 := (Dev.fld_of_regs hregs _).trans h
  rw [Dev.lightSlot, if_pos hwarm, Dev.bit_setLmEn, if_pos rfl]

/-! ## The check -/

/-- A cartridge that has passed its check stands in slot i: its record and the registers that show it. -/
structure Dev.HoldsCard (d : Dev) (i : Nat) (card : List Byte) : Prop where
  auth : d.fld (Reg.LIM_STATE.AUTH i) = 1
  serial : d.fld (Reg.LIM_SERIAL.SERIAL i) = leAt card 8 8
  card : (d.slot i).card = card

section
variable {d e : Dev} {c : List Byte} (h : d.HoldsCard i c)
include h

theorem Dev.HoldsCard.kept (hi : i < 10) (hk : SlotKept i d e) : e.HoldsCard i c :=
  ⟨(hk.fld _ (showsSlot_state hi (by decide))).trans h.auth, (hk.fld _ (showsSlot_serial hi)).trans h.serial, hk.card.trans h.card⟩

theorem Dev.HoldsCard.slotWritten (st cause : Nat) : (d.slotWritten i st cause).HoldsCard i c where
  auth := (d.fld_slotWritten i (by simp [Field.key, Reg.LIM_STATE.STATE, Reg.LIM_STATE.AUTH])
    (by simp [Field.key, Reg.LIM_STATE.CAUSE, Reg.LIM_STATE.AUTH])).trans h.auth
  serial := (d.fld_slotWritten i (by simp only [Field.key, Reg.LIM_STATE.STATE, Reg.LIM_SERIAL.SERIAL]; omega)
    (by simp only [Field.key, Reg.LIM_STATE.CAUSE, Reg.LIM_SERIAL.SERIAL]; omega)).trans h.serial
  card := h.card

theorem Dev.HoldsCard.lightUp : d.lightUp.HoldsCard i c :=
  ⟨(Dev.fld_of_regs d.lightUp_regs _).trans h.auth, (Dev.fld_of_regs d.lightUp_regs _).trans h.serial,
    (d.lightUp_card i).trans h.card⟩

/-- A cartridge in a home slot warms: it is enabled, but in BOOT (R230, R235). -/
theorem Dev.HoldsCard.warm (hi : i < 10) (hst : d.slotSt i ≠ 1) :
    (d.warm i).slotSt i = 1 ∧ (d.warm i).HoldsCard i c ∧ (d.st ≠ .boot → bit (d.warm i).pins.lmEn i = true) := by
  have hsince : SlotKept i d (d.modSlot i (fun x => { x with since := d.clk })) :=
    ⟨fun _ _ => rfl, (congrArg Slot.card ((d.slot_modSlot i i _).trans (if_pos rfl)) :), rfl, rfl, rfl⟩
  have hset := SlotKept.setSlotSt (d := d.modSlot i (fun x => { x with since := d.clk })) hi hst 0
  have hwarm := hset.state_of_written hi (by decide)
  refine ⟨(Dev.fld_of_regs (Dev.lightUp_regs _) _).trans hwarm, (((h.kept hi hsince).slotWritten 1 0).kept hi hset).lightUp,
    fun hboot => Dev.lightUp_lit hi ?_ hwarm⟩
  rw [hset.st]
  exact hboot

/-- A cartridge in a spare slot stands by, and stays dark (R230, R235). -/
theorem Dev.HoldsCard.standBy (hi : i < 10) (hst : d.slotSt i ≠ 3) (he : e = ((d.setSlotSt i 3 0).spareReady i).lightUp) :
    e.slotSt i = 3 ∧ e.HoldsCard i c ∧ bit e.pins.lmEn i = bit d.pins.lmEn i := by
  subst he
  have hset := (SlotKept.setSlotSt hi hst 0).trans (.spareReady _ i)
  have hstate := hset.state_of_written hi (by decide)
  have hkeep := hset.trans (.lightUp hi (by rw [hstate]; decide))
  exact ⟨hkeep.state_of_written hi (by decide), (h.slotWritten 3 0).kept hi hkeep, hkeep.lmEn⟩

end

/-- What a check makes of a slot: the record and the result of the check. -/
def Slot.ofCheck (card : List Byte) (code : Nat) : Slot :=
  { Slot.init with card := card, code := code, sumP := List.replicate 18 0 }

/-- The device when a cartridge's record has been read at its check. -/
def Dev.cardStored (d : Dev) (i : Nat) (card : List Byte) (code : Nat) : Dev :=
  d.modLim (fun l => { l with slots := Tab.set Slot.init l.slots i (Slot.ofCheck card code) })

/-- The device when the record is shown. -/
def Dev.cardRead (d : Dev) (i : Nat) (card : List Byte) (code : Nat) : Dev :=
  ((d.cardStored i card code).setFld (Reg.LIM_SERIAL.SERIAL i) (((d.cardStored i card code).slot i).field 8 8)).showLife i

/-- The device when the cartridge has passed. -/
def Dev.cardPassed (d : Dev) (i : Nat) (card : List Byte) : Dev :=
  ((d.cardRead i card 1).setFld (Reg.LIM_STATE.AUTH i) 1).slotFilled i

section
variable (d : Dev) (c : List Byte) (code : Nat)

theorem Dev.cardStored_card : ((d.cardStored i c code).slot i).card = c :=
  congrArg Slot.card (Tab.get_set_same Slot.init d.lim.slots i (Slot.ofCheck c code))

variable (hi : i < 10)
include hi

theorem Dev.cardRead_card : ((d.cardRead i c code).slot i).card = c :=
  (SlotKept.showLife _ hi).card.trans (d.cardStored_card c code)

theorem Dev.cardRead_serial : (d.cardRead i c code).fld (Reg.LIM_SERIAL.SERIAL i) = leAt c 8 8 := by
  have hlt : leAt c 8 8 < 2 ^ 64 := by
    have := leNat_lt (slice c 8 8)
    rw [length_slice] at this
    exact this
  rw [Dev.cardRead, (SlotKept.showLife _ hi).fld _ (showsSlot_serial hi), Dev.fld_setFld_same, Slot.field, d.cardStored_card c code]
  exact Nat.mod_eq_of_lt hlt

/-- Of the fields that show slots, reading the record writes SERIAL alone. -/
theorem Dev.fld_cardRead {f : Field} (hf : f.ShowsSlot) (hs : f.key ≠ (Reg.LIM_SERIAL.SERIAL i).key) :
    (d.cardRead i c code).fld f = d.fld f :=
  ((SlotKept.showLife _ hi).fld _ hf).trans (Dev.fld_setFld_ne (d.cardStored i c code) _ hs)

theorem Dev.cardRead_state : (d.cardRead i c code).slotSt i = d.slotSt i :=
  d.fld_cardRead c code hi (showsSlot_state hi (by decide)) (by simp only [Field.key, Reg.LIM_STATE.STATE, Reg.LIM_SERIAL.SERIAL]; omega)

/-- A slot whose cartridge passes holds its record; its state and its LM_EN are still as before the check. -/
theorem Dev.cardPassed_holds : (d.cardPassed i c).HoldsCard i c ∧ (d.cardPassed i c).slotSt i = d.slotSt i ∧
    bit (d.cardPassed i c).pins.lmEn i = bit d.pins.lmEn i ∧ (d.cardPassed i c).st = d.st := by
  have hkeep : SlotKept i ((d.cardRead i c 1).setFld (Reg.LIM_STATE.AUTH i) 1) (d.cardPassed i c) := .slotFilled _ i
  have hread : ((d.cardRead i c 1).setFld (Reg.LIM_STATE.AUTH i) 1).HoldsCard i c := by
    refine ⟨Dev.fld_setFld_same _ _ _, ?_, ?_⟩
    · rw [Dev.fld_setFld_ne _ _ (by simp only [Field.key, Reg.LIM_STATE.AUTH, Reg.LIM_SERIAL.SERIAL]; omega), d.cardRead_serial c 1 hi]
    · rw [Dev.slot_setFld, d.cardRead_card c 1 hi]
  refine ⟨hread.kept hi hkeep, ?_, hkeep.lmEn, hkeep.st⟩
  have hstate : (d.cardPassed i c).slotSt i = ((d.cardRead i c 1).setFld (Reg.LIM_STATE.AUTH i) 1).slotSt i :=
    hkeep.fld _ (showsSlot_state hi (by decide))
  rw [hstate, Dev.slotSt, Dev.fld_setFld_ne _ _ (by simp [Field.key, Reg.LIM_STATE.STATE, Reg.LIM_STATE.AUTH])]
  exact d.cardRead_state c 1 hi

theorem Dev.checked_pass (h : d.slotSt i = 0) : (d.checked i c 1).slotSt i = (if i < 8 then 1 else 3) ∧ (d.checked i c 1).HoldsCard i c ∧
    (d.st ≠ .boot → i < 8 → bit (d.checked i c 1).pins.lmEn i = true) ∧
    (8 ≤ i → bit (d.checked i c 1).pins.lmEn i = bit d.pins.lmEn i) := by
  obtain ⟨hcard, hstate, hen, hst⟩ := d.cardPassed_holds c hi
  rw [h] at hstate
  have hchecked : d.checked i c 1 =
      if i < 8 then (d.cardPassed i c).warm i else (((d.cardPassed i c).setSlotSt i 3 0).spareReady i).lightUp := rfl
  rw [hchecked]
  by_cases h8 : i < 8
  · obtain ⟨hwarm, hholds, hlit⟩ := hcard.warm hi (by rw [hstate]; decide)
    rw [if_pos h8, if_pos h8]
    exact ⟨hwarm, hholds, fun hboot _ => hlit (by rw [hst]; exact hboot), fun hge => absurd h8 (Nat.not_lt.mpr hge)⟩
  · obtain ⟨hby, hholds, hdark⟩ := hcard.standBy hi (by rw [hstate]; decide) rfl
    rw [if_neg h8, if_neg h8]
    exact ⟨hby, hholds, fun _ hlt => absurd hlt h8, fun _ => hdark.trans hen⟩

theorem Dev.checked_fail (h : d.slotSt i = 0) (hc : code ≠ 1) : (d.checked i c code).slotSt i = 6 ∧
    (d.checked i c code).fld (Reg.LIM_STATE.CAUSE i) = 1 ∧ bit (d.checked i c code).pins.lmEn i = bit d.pins.lmEn i ∧
    (d.checked i c code).fld Reg.LIM_EVENTS.REJECTED =
      min (2 ^ Reg.LIM_EVENTS.REJECTED.w - 1) (d.fld Reg.LIM_EVENTS.REJECTED + 1) := by
  let count := (d.cardRead i c code).bumpSat Reg.LIM_EVENTS.REJECTED 1
  have hstate : count.slotSt i = 0 := by
    refine (Dev.fld_bumpSat_ne _ _ ?_).trans ((d.cardRead_state c code hi).trans h)
    simp only [Field.key, Reg.LIM_STATE.STATE, Reg.LIM_EVENTS.REJECTED]
    omega
  have hset := SlotKept.setSlotSt (st := 6) hi (by rw [hstate]; decide) 1
  have hlight := hset.trans (.lightUp hi (by rw [hset.state_of_written hi (by decide)]; decide))
  have hkeep : SlotKept i (count.slotWritten i 6 1) (d.checked i c code) := by
    have hchecked : d.checked i c code =
        if i < 8 then ((count.setSlotSt i 6 1).lightUp).wantHome i else (count.setSlotSt i 6 1).lightUp := if_neg hc
    rw [hchecked]
    exact .ite (hlight.trans (.wantHome _ i)) hlight
  refine ⟨hkeep.state_of_written hi (by decide), hkeep.cause_of_written hi (by decide), hkeep.lmEn, ?_⟩
  rw [hkeep.fld _ (by decide), Dev.fld_slotWritten _ _ (by simp only [Field.key, Reg.LIM_STATE.STATE, Reg.LIM_EVENTS.REJECTED]; omega)
    (by simp only [Field.key, Reg.LIM_STATE.CAUSE, Reg.LIM_EVENTS.REJECTED]; omega), Dev.fld_bumpSat_same,
    d.fld_cardRead c code hi (by decide) (by simp only [Field.key, Reg.LIM_SERIAL.SERIAL, Reg.LIM_EVENTS.REJECTED]; omega)]

end

/-! ## A slot that feeds no port -/

/-- A dark slot that is no spare in use stops feeding: its LM_EN is low and its state is written (R235). -/
theorem SlotKept.stopFeeding_dark {d : Dev} {st : Nat} (hi : i < 10) (hdark : d.slotLit i = false)
    (hg : i < 8 ∨ d.spareGroup i = none) (hst : d.slotSt i ≠ st) (cause : Nat) :
    SlotKept i ((d.setLmEn i false).slotWritten i st cause) (d.stopFeeding i st cause) := by
  unfold Dev.stopFeeding
  extract_lets ports fed group d1 d2 d3 d4
  have hfed : fed = false := by
    unfold fed
    rw [hdark]
    rfl
  have hgroup : group = none := by
    unfold group
    rcases hg with h8 | hnone
    · rw [if_pos h8]
    · rw [hnone, ite_self]
  have h1 : SlotKept i ((d.setLmEn i false).slotWritten i st cause) d1 :=
    .setSlotSt hi (by rw [Dev.slotSt, Dev.fld_of_regs (d.setLmEn_regs i false)]; exact hst) cause
  have h3 : d3 = d1 := by
    unfold d3 d2
    rw [hfed, hgroup]
    rfl
  have h4 : SlotKept i d1 d4 := by
    unfold d4
    rw [h3]
    exact ite (wantHome d1 i) (emptyCheck d1 i)
  rw [hfed, h3]
  exact ite (h1.trans h4) h1

theorem Dev.slotLit_of_warming {d : Dev} (h : d.slotSt i = 1) : d.slotLit i = false := by
  unfold Dev.slotLit
  extract_lets st
  have hst : st = 1 := h
  rw [hst]
  rfl

theorem Dev.slotBare_shows (d : Dev) (hi : i < 10) : (d.slotBare i).slotSt i = d.slotSt i ∧
    (d.slotBare i).fld (Reg.LIM_STATE.AUTH i) = 0 ∧ (d.slotBare i).pins = d.pins := by
  have hkeep := SlotKept.slotBare d hi
  refine ⟨(hkeep.fld _ (showsSlot_state hi (by decide))).trans ?_, (hkeep.fld _ (showsSlot_state hi (by decide))).trans ?_, rfl⟩
  · exact (Dev.fld_setFld_ne _ _ (by simp only [Field.key, Reg.LIM_SERIAL.SERIAL]; omega)).trans
      (Dev.fld_setFld_ne _ _ (by simp [Field.key, Reg.LIM_STATE.AUTH]))
  · exact (Dev.fld_setFld_ne _ _ (by simp only [Field.key, Reg.LIM_SERIAL.SERIAL]; omega)).trans
      (Dev.fld_setFld_same _ _ _)

/-! ## The accounting of a cartridge's hours -/

theorem Dev.slot_showLife (d : Dev) (k j : Nat) : (d.showLife k).slot j = d.slot j := rfl

theorem Dev.slot_showPredict (d : Dev) (k j : Nat) : (d.showPredict k).slot j = d.slot j := rfl

theorem Slot.account_hours (x : Slot) (t : Nat) :
    (x.account t).field 64 4 = min 0xFFFFFFFF (x.field 64 4 + (x.hourRest + t) / sec 3600) := by
  unfold Slot.account
  extract_lets hour den eq
  rw [Slot.field, leAt, slice_append _ _ _ _ (by simp), slice_rest _ _ _ _ (length_slice _ _ _) (length_leBytes _ _), leNat_leBytes,
    satTo_eq_min]
  exact Nat.mod_eq_of_lt (by omega)

/-! ## The commands -/

section
variable (hi : i < 10)
include hi

theorem gives_lmPresence (h : s.dev.present i = false) : Gives (.lmPresence i) s { s.dev with pins := { s.dev.pins with
    lmPresent := setBit s.dev.pins.lmPresent i true, lmAt := Tab.set 0 s.dev.pins.lmAt i s.dev.clk } } := by
  rw [Gives, exec, execLmPresence]
  exact State.run_gives (decide_eq_true hi) (by rw [h]; rfl) rfl

theorem gives_cartridgeCheck {a : Option CartCheck}
    (ha : a.all (fun e => e.1.length = 72 && e.2.1.length = 3840 && e.2.2.length = 384) = true) (hl : s.dev.live = true)
    (hp : s.dev.present i = true) (hst : s.dev.slotSt i = 0) (ht : Tab.get 0 s.dev.pins.lmAt i + ms 500 ≤ s.dev.clk) :
    Gives (.cartridgeCheck i a) s ((s.dev.draw.emit (.limCheck i (leBytes 16 s.dev.free))).checked i ((a.map (·.1)).getD [])
      (checkCode (leBytes 16 s.dev.free) a)) := by
  rw [Gives, exec, execCartridgeCheck]
  exact State.run_gives (by rw [slotOk, decide_eq_true hi, ha]; rfl)
    (by rw [hl, hp, decide_eq_true hst, decide_eq_true ht]; rfl) rfl

/-- Once HALTED the registers alone follow a removal. -/
theorem runs_lmRemoval_halted (hp : s.dev.present i = true) (hst : s.dev.st = .halted) :
    Runs (.lmRemoval i) s (fun e => e.slotSt i = 0 ∧ bit e.pins.lmEn i = false ∧ bit e.pins.lmPresent i = false ∧
      e.fld (Reg.LIM_STATE.AUTH i) = 0 ∧ e.mem = s.dev.mem) := by
  rw [Runs, exec, execLmRemoval]
  refine State.run_meets (decide_eq_true hi) hp ?_
  rw [if_pos hst]
  obtain ⟨hstate, hauth, hpins⟩ := Dev.slotBare_shows (({ s.dev with pins := { s.dev.pins with
    lmPresent := setBit s.dev.pins.lmPresent i false, lmEn := setBit s.dev.pins.lmEn i false } } : Dev).setFld (Reg.LIM_STATE.STATE i) 0) hi
  refine ⟨hstate.trans (Dev.fld_setFld_same _ _ _), ?_, ?_, hauth, rfl⟩
  · exact (congrArg (fun q : Pins => bit q.lmEn i) hpins).trans ((bit_setBit _ _ _ _).trans (if_pos rfl))
  · exact (congrArg (fun q : Pins => bit q.lmPresent i) hpins).trans ((bit_setBit _ _ _ _).trans (if_pos rfl))

theorem gives_lmRemoval {d : Dev} (hp : s.dev.present i = true)
    (hd : d = { s.dev with pins := { s.dev.pins with lmPresent := setBit s.dev.pins.lmPresent i false } }) (hst : s.dev.st ≠ .halted) :
    Gives (.lmRemoval i) s ((((if s.dev.slotSt i = 0 then d else d.stopFeeding i 0 0).modLim (fun l => { l with
      slots := Tab.erase l.slots i })).slotBare i).lightUp) := by
  subst hd
  rw [Gives, exec, execLmRemoval]
  exact State.run_gives (decide_eq_true hi) hp (if_neg hst)

/-- A dark slot whose cartridge is removed is empty, with LM_EN low. -/
theorem Dev.removed_shows {d e : Dev} (hne : d.slotSt i ≠ 0) (hdark : d.slotLit i = false) (hg : i < 8 ∨ d.spareGroup i = none)
    (he : e = (((d.stopFeeding i 0 0).modLim (fun l => { l with slots := Tab.erase l.slots i })).slotBare i).lightUp) :
    e.slotSt i = 0 ∧ bit e.pins.lmEn i = false ∧ e.pins.lmPresent = d.pins.lmPresent ∧ e.fld (Reg.LIM_STATE.AUTH i) = 0 := by
  subst he
  have hstop := SlotKept.stopFeeding_dark hi hdark hg hne 0
  obtain ⟨hstate, hauth, hpins⟩ :=
    Dev.slotBare_shows ((d.stopFeeding i 0 0).modLim (fun l => { l with slots := Tab.erase l.slots i })) hi
  have hzero := hstate.trans (hstop.state_of_written hi (by decide))
  have hlight := SlotKept.lightUp hi (by rw [hzero]; decide)
  refine ⟨(hlight.fld _ (showsSlot_state hi (by decide))).trans hzero, ?_, ?_,
    (hlight.fld _ (showsSlot_state hi (by decide))).trans hauth⟩
  · rw [hlight.lmEn, hpins]
    exact hstop.lmEn.trans ((d.bit_setLmEn i false i).trans (if_pos rfl))
  · rw [hlight.present, hpins]
    exact hstop.present.trans (d.setLmEn_lmPresent i false)

section
variable (hl : s.dev.live = true)
include hl

theorem gives_cartridgePoll_silent (hne : s.dev.slotSt i ≠ 0) (hret : s.dev.slotSt i ≠ 6) (hn : (s.dev.slot i).silent + 1 < 10) :
    Gives (.cartridgePoll i none) s (s.dev.modSlot i (fun x => { x with silent := x.silent + 1 })) := by
  rw [Gives, exec, execCartridgePoll]
  refine State.run_gives (by rw [slotOk, decide_eq_true hi]; rfl) (by simp [hl, hne, hret]) ?_
  have hsilent : ((s.dev.modSlot i (fun x => { x with silent := x.silent + 1 })).slot i).silent = (s.dev.slot i).silent + 1 :=
    congrArg Slot.silent ((s.dev.slot_modSlot i i _).trans (if_pos rfl))
  exact if_neg (by simp [hsilent, Nat.not_le.mpr hn])

theorem gives_cartridgePoll_answer {r : CartReading} (hr : r.power.length = 18) (hne : s.dev.slotSt i ≠ 0) (hret : s.dev.slotSt i ≠ 6) :
    Gives (.cartridgePoll i (some r)) s (s.dev.cartAnswer i r) := by
  rw [Gives, exec, execCartridgePoll]
  exact State.run_gives (by rw [slotOk, decide_eq_true hi, Option.all_some, decide_eq_true hr]; rfl) (by simp [hl, hne, hret]) rfl

theorem gives_warmingTimeout (hst : s.dev.slotSt i = 1) (ht : (s.dev.slot i).since + sec 120 ≤ s.dev.clk) :
    Gives (.warmingTimeout i) s (s.dev.stopFeeding i 6 2) := by
  rw [Gives, exec, execWarmingTimeout]
  exact State.run_gives (decide_eq_true hi) (by rw [hl, decide_eq_true hst, decide_eq_true ht]; rfl) rfl

end

/-- A warming spare that is ready and serves no group goes ONLINE (R235). -/
theorem Dev.cartAnswer_online {d : Dev} {r : CartReading} (hst : d.slotSt i = 1) (hen : bit d.pins.lmEn i = true)
    (hready : (d.slot i).ready r = true) (h8 : 8 ≤ i) (hg : d.spareGroup i = none) : (d.cartAnswer i r).slotSt i = 2 := by
  unfold Dev.cartAnswer
  extract_lets x worst d1 d2 d3
  have h1 : SlotKept i d d1 :=
    (SlotKept.setFld d _ _ (not_showsSlot_fade hi (by decide))).trans (.setFld _ _ _ (not_showsSlot_fade hi (by decide)))
  obtain ⟨hregs, hpins, hgroup⟩ : d3.regs = d1.regs ∧ d3.pins = d.pins ∧ d3.lim.group = d.lim.group := by
    unfold d3
    split <;> exact ⟨rfl, rfl, rfl⟩
  have hstate : d3.slotSt i = 1 :=
    (Dev.fld_of_regs hregs _).trans ((h1.fld _ (showsSlot_state hi (by decide))).trans hst)
  have hnone : (d3.setSlotSt i 2 0).spareGroup i = none :=
    (Dev.spareGroup_of_group ((congrArg Lim.group (d3.setSlotSt_lim i 2 0)).trans hgroup) i).trans hg
  rw [Dev.slotLit_of_warming hstate, hstate, hpins, hen, hready]
  rw [Dev.online, if_neg (Nat.not_lt.mpr h8), hnone]
  exact Dev.setSlotSt_state hi (by decide) 0

/-- An account of 1 h or more adds its whole hours to HOURS, and shows them (R233). -/
theorem runs_lifeAccounting (hl : s.dev.live = true) (hen : bit s.dev.pins.lmEn i = true) (hne : s.dev.slotSt i ≠ 0)
    (ht : sec 3600 ≤ s.dev.emission i) : Runs (.lifeAccounting i) s (fun e =>
      (e.slot i).field 64 4 = min 0xFFFFFFFF ((s.dev.slot i).field 64 4 + ((s.dev.slot i).hourRest + s.dev.emission i) / sec 3600) ∧
      e.fld (Reg.LIM_LIFE.HOURS i) = (e.slot i).field 64 4 ∧ (e.slot i).n = 0 ∧
      FieldsKept [Reg.LIM_LIFE.HOURS i, Reg.LIM_LIFE.EQ_HOURS i, Reg.LIM_FADE.PREDICT_H i] s.dev e) := by
  rw [Runs, exec, execLifeAccounting]
  refine State.run_meets (decide_eq_true hi) (by simp [hl, hen, hne, ht]) ?_
  extract_lets x avg d
  have hslot : d.slot i = { (s.dev.slot i).account (s.dev.emission i) with
      emitAt := s.dev.clk
      hist := if s.dev.slotSt i = 4 && !avg.isEmpty then (avg :: (s.dev.slot i).hist).take 168 else (s.dev.slot i).hist } :=
    (s.dev.slot_modSlot i i _).trans (if_pos rfl)
  have hhours : (d.slot i).field 64 4 = ((s.dev.slot i).account (s.dev.emission i)).field 64 4 := by rw [hslot]; rfl
  rw [Slot.account_hours] at hhours
  rw [Dev.slot_showPredict, Dev.slot_showLife]
  refine ⟨hhours, ?_, (congrArg Slot.n hslot :), ?_⟩
  · have hshow : ((d.showLife i).showPredict i).fld (Reg.LIM_LIFE.HOURS i) = (d.slot i).field 64 4 % 2 ^ 32 :=
      (Dev.fld_setFld_ne _ _ (by simp only [Field.key, Reg.LIM_LIFE.HOURS, Reg.LIM_FADE.PREDICT_H]; omega)).trans
        ((Dev.fld_setFld_ne _ _ (by simp [Field.key, Reg.LIM_LIFE.HOURS, Reg.LIM_LIFE.EQ_HOURS])).trans (Dev.fld_setFld_same _ _ _))
    exact hshow.trans (Nat.mod_eq_of_lt (by omega))
  · have hlife : FieldsKept [Reg.LIM_LIFE.HOURS i, Reg.LIM_LIFE.EQ_HOURS i, Reg.LIM_FADE.PREDICT_H i] s.dev (d.showLife i) :=
      (FieldsKept.of_regs _ rfl).trans ((FieldsKept.setFld d _ _ _ (by simp)).trans (.setFld _ _ _ _ (by simp)))
    exact hlife.trans (.setFld _ _ _ _ (by simp))

/-! ### The board switch -/

section
variable {k : Nat} (h8 : 8 ≤ i) (hl : s.dev.live = true) (hg : s.dev.spareGroup i = some k)
include h8 hl hg

theorem gives_switchSettled {g : Nat} {e : Dev} (ht : Tab.get 0 s.dev.lim.selAt (i - 8) + ms 10 ≤ s.dev.clk)
    (he : (if s.dev.slotSt i = 3 then s.dev.warm i
      else if (s.dev.slotSt i = 2 || s.dev.slotSt i = 4) && !Tab.get false s.dev.lim.confirmed (i - 8) && g % 64 = 63
        then s.dev.confirmBackup k else s.dev) = e) : Gives (.switchSettled i g) s e := by
  rw [Gives, exec, execSwitchSettled]
  exact State.run_gives (by simp only [Bool.or_eq_true, decide_eq_true_eq]; omega) (by rw [hl, hg, decide_eq_true ht]; rfl)
    (by simp only [hg, he])

theorem gives_switchLightTimeout (hc : Tab.get false s.dev.lim.confirmed (i - 8) = false) (hst : s.dev.slotSt i = 2 ∨ s.dev.slotSt i = 4)
    (ht : Tab.get 0 s.dev.lim.selAt (i - 8) + ms 20 ≤ s.dev.clk) : Gives (.switchLightTimeout i) s
      ((((s.dev.setFldBit Reg.LIM_SW.FAULT k true).record (.mk1 6 2 i (leBytes 1 k))).releaseSpare k).limDone k
        ⟨.noResource, Detail.none⟩) := by
  rw [Gives, exec, execSwitchLightTimeout]
  refine State.run_gives (by simp only [Bool.or_eq_true, decide_eq_true_eq]; omega) ?_ (by simp only [hg]; rfl)
  rw [hl, hg, hc, decide_eq_true ht]
  rcases hst with h | h <;> rw [h] <;> rfl

end

end

/-- SPARE_LIMELIGHT for a home slot whose spare may be named: the switch-over starts, and the descriptor ends or waits (R242). -/
theorem gives_spareLimelight {r k : Nat} {j : Desc} {d e : Dev} (hr : r < 16) (h : Starts s r j) (ho : j.opc = 0xA1)
    (hv : j.reservedByte [(24, 0, 16)] = none) (hk : k = j.num 24 1) (h8 : k < 8) (hspare : j.num 25 1 = 0xFF ∨ j.num 25 1 = spareOf k)
    (hd : d = (s.dev.popHead r).switchStart k)
    (he : (if d.spareGroup (spareOf k) != some k then d.finish j (Ending.plain .noResource)
      else if d.backupLit k && (groupPorts k).all (fun p => d.onBackup p && !(d.port p).moving) then d.finish j (Ending.plain .done)
      else d.modLim (fun l => { l with jobs := l.jobs ++ [(j.key, k)] })) = e) : Gives (.spareLimelight r) s e := by
  subst hk hd he
  have hslot : badIf (decide (7 < j.num 24 1)) 24 = none := if_neg (by simpa only [decide_eq_true_eq] using by omega)
  have hspare' : badIf (j.num 25 1 != 0xFF && j.num 25 1 != spareOf (j.num 24 1)) 25 = none :=
    if_neg (by rcases hspare with h | h <;> simp [h])
  rw [Gives, exec, execSpareLimelight]
  exact h.run_go hr (decide_eq_true ho) (by rw [Desc.reserved_of_none hv, hslot, hspare', h.stateCheck]; rfl)

/-- Settles O48: each clause is the branch of the command that its hypotheses choose. -/
theorem cartridges : Obligations.Cartridges := by
  unfold Obligations.Cartridges
  intro s i hi
  refine ⟨fun h => gives_lmPresence hi h, ?check, ?removal,
    fun hl hne hret hn => gives_cartridgePoll_silent hi hl hne hret hn,
    fun r hr hl hne hret => ⟨gives_cartridgePoll_answer hi hl hr hne hret,
      fun hst hen hready h8 hg => Dev.cartAnswer_online hi hst hen hready h8 hg⟩,
    fun hl hen hne ht _ => runs_lifeAccounting hi hl hen hne ht, ?warming, ?settled,
    fun k h8 hl hg hc hst ht => gives_switchLightTimeout hi h8 hl hg hc hst ht, ?spare⟩
  case check =>
    intro a ha hl hp hst ht
    refine (gives_cartridgeCheck hi ha hl hp hst ht).runs ⟨?_, fun hcode => Dev.checked_fail _ _ _ hi hst hcode⟩
    rintro c chain sig rfl hcode
    rw [hcode]
    obtain ⟨hstate, hcard, hlit, hdark⟩ := Dev.checked_pass (s.dev.draw.emit (.limCheck i (leBytes 16 s.dev.free))) c hi hst
    exact ⟨hstate, hcard.auth, hcard.serial, hcard.card, hlit, hdark⟩
  case removal =>
    intro d hp hd
    refine ⟨fun hst => runs_lmRemoval_halted hi hp hst, fun hst => gives_lmRemoval hi hp hd hst, fun hst hne hdark hg => ?_⟩
    refine (gives_lmRemoval hi hp hd hst).runs ?_
    rw [if_neg hne]
    obtain ⟨hstate, hen, hpresent, hauth⟩ := Dev.removed_shows (d := d) hi (by rw [hd]; exact hne) (by rw [hd]; exact hdark)
      (by rw [hd]; exact hg) rfl
    refine ⟨hstate, hen, ?_, hauth⟩
    rw [hpresent, hd]
    exact (bit_setBit _ _ _ _).trans (if_pos rfl)
  case warming =>
    intro hl hst ht
    have hgives := gives_warmingTimeout hi hl hst ht
    refine ⟨hgives, fun hg => hgives.runs ?_⟩
    have hstop := SlotKept.stopFeeding_dark (st := 6) hi (Dev.slotLit_of_warming hst) hg (by rw [hst]; decide) 2
    exact ⟨hstop.state_of_written hi (by decide), hstop.cause_of_written hi (by decide),
      hstop.lmEn.trans ((s.dev.bit_setLmEn i false i).trans (if_pos rfl))⟩
  case settled =>
    intro g k h8 hl hg ht
    refine ⟨fun hst => gives_switchSettled hi h8 hl hg ht (if_pos hst), fun hst hc hlit => gives_switchSettled hi h8 hl hg ht ?_⟩
    rw [hc, hlit]
    rcases hst with h | h <;> rw [h] <;> rfl
  case spare =>
    intro r j k d hr h ho hv hk h8 hspare hd
    refine ⟨fun hg => ?_, fun hg hlit hports => ?_, fun hg hwait => ?_⟩
    all_goals refine gives_spareLimelight hr h ho hv hk h8 hspare hd ?_
    · rw [if_pos (by simpa using hg)]
      rfl
    · rw [if_neg (by simp [hg]), if_pos]
      · rfl
      · simp only [hlit, Bool.true_and, List.all_eq_true, Bool.and_eq_true, Bool.not_eq_true']
        exact hports
    · rw [if_neg (by simp [hg]), if_neg]
      intro hdone
      obtain ⟨hlit, hports⟩ := Bool.and_eq_true_iff.mp hdone
      rcases hwait with hdark | ⟨p, hp, hhome⟩
      · rw [hdark] at hlit
        exact absurd hlit (by decide)
      · have hon := List.all_eq_true.mp hports p hp
        rw [hhome] at hon
        exact absurd hon Bool.false_ne_true

end Sys2Proof.Machine
end

section
/-! # The handover of a device's state and the takeover of its flat ID

Settles O49. -/

namespace Sys2Proof.Machine

/-! ## What records, completions and stores leave of a handover -/

theorem Dev.pumpReports_handover (n : Nat) : ∀ d : Dev,
    (Dev.pumpReports n d).flt.handover = d.flt.handover ∧ (Dev.pumpReports n d).flt.exported = d.flt.exported := by
  induction n with
  | zero => exact fun _ => ⟨rfl, rfl⟩
  | succ n ih =>
    intro d
    unfold Dev.pumpReports
    split
    · exact ih _
    · exact ⟨rfl, rfl⟩

theorem Dev.record_handover (d : Dev) (r : FaultRec) :
    (d.record r).flt.handover = d.flt.handover ∧ (d.record r).flt.exported = d.flt.exported := by
  unfold Dev.record
  split
  · exact ⟨rfl, rfl⟩
  · exact Dev.pumpReports_handover 8 ((d.logRecord r).msix 0)

theorem Dev.finishKey_flt (d : Dev) (k : Nat × Nat) (e : Ending) : (d.finishKey k e).flt = d.flt := by
  unfold Dev.finishKey
  split
  · rw [Dev.finish_frame]
  · rfl

/-- The bytes received of the present unit, where a handover is in progress. -/
def Dev.unitBytes (d : Dev) : Option (List Byte) := d.flt.handover.map Handover.unitBuf

theorem Dev.unitBytes_of_handover (d : Dev) {h : Handover} (hh : d.flt.handover = some h) : d.unitBytes = some h.unitBuf :=
  congrArg (Option.map Handover.unitBuf) hh

theorem Dev.unitBytes_of_flt {d e : Dev} (h : e.flt = d.flt) : e.unitBytes = d.unitBytes := by
  rw [Dev.unitBytes, h, Dev.unitBytes]

theorem Dev.unitBytes_handoverBuddyLost (d : Dev) : d.handoverBuddyLost.unitBytes = d.unitBytes := by
  unfold Dev.handoverBuddyLost
  split
  · rfl
  · rename_i h hh
    refine (foldl_keeps Dev.unitBytes _ ?_ _ _).trans ?_
    · exact fun _ _ => rfl
    · rw [d.unitBytes_of_handover hh]
      rfl

theorem Dev.unitBytes_breakMirror (d : Dev) : d.breakMirror.unitBytes = d.unitBytes := by
  unfold Dev.breakMirror
  extract_lets m e
  split
  · obtain ⟨hrecord, -⟩ := (e.handoverBuddyLost.setFld Reg.VLT_MIRROR_PEER.STATE 2).record_handover
      ⟨4, 4, some (e.handoverBuddyLost.fld Reg.VLT_MIRROR_PEER.FLAT_ID), 0xFF, leBytes 1 2, []⟩
    exact (congrArg (Option.map Handover.unitBuf) hrecord).trans e.unitBytes_handoverBuddyLost
  · rfl

theorem Dev.mirrorSend_flt (d : Dev) (a n : Nat) : (d.mirrorSend a n).flt = d.flt := by
  have hquiet := quiet_mirrorSend d a n
  simp only [quiet, Prod.mk.injEq] at hquiet
  tauto

theorem Dev.unitBytes_mirror (d : Dev) (a n : Nat) : (d.mirror a n).unitBytes = d.unitBytes := by
  unfold Dev.mirror
  extract_lets l
  split
  · rfl
  · split
    · rfl
    · split
      · exact d.unitBytes_breakMirror
      · refine foldl_keeps Dev.unitBytes _ (fun d p => ?_) l d
        exact Dev.unitBytes_of_flt (d.mirrorSend_flt p.1 p.2)

theorem Dev.unitBytes_store (d : Dev) (a : Nat) (l : List Byte) : (d.store a l).unitBytes = d.unitBytes :=
  Dev.besideLive_rel (R := fun d e => e.unitBytes = d.unitBytes) (fun _ => rfl) (fun _ _ _ h h' => h'.trans h)
    (fun d x n _ _ => Dev.unitBytes_mirror (d.write x (slice l (x - a) n)) x n) d

/-! ## A handover that ends -/

/-- A handover that ends leaves none in progress, shows phase 4, and keeps the fields that do not show it and that its record
and its completion do not change. -/
theorem Dev.endHandover_shows (d : Dev) (h : Handover) (e : Ending) :
    (d.endHandover h e).flt.handover = none ∧ (d.endHandover h e).flt.exported = d.flt.exported ∧
      (d.endHandover h e).fld Reg.FLT_HANDOVER.PHASE = 4 ∧
      FieldsKept ([Reg.FLT_HANDOVER.PHASE, Reg.FLT_HANDOVER.LOST_CORES] ++ closingFields) d (d.endHandover h e) := by
  unfold Dev.endHandover
  extract_lets flt d1 d2 d3
  obtain ⟨hho, hexported⟩ := d2.record_handover ⟨0x0C, 1, some h.peer, 0xFF,
    leBytes 1 (if h.isExport then 1 else 2) ++ leBytes 1 e.st.code ++ leBytes 1 (coreCount h.lost), []⟩
  have hflt := d3.finishKey_flt h.desc e
  obtain ⟨hclose, -⟩ := (ClosingKeeps.record d2 _).trans (.finishKey d3 h.desc e)
  refine ⟨(congrArg Flt.handover hflt).trans hho, (congrArg Flt.exported hflt).trans hexported, ?_, ?_⟩
  · rw [hclose _ (by decide), Dev.fld_setFld_ne _ _ (by decide)]
    exact Dev.fld_setFld_same d1 Reg.FLT_HANDOVER.PHASE 4
  · have hset : FieldsKept ([Reg.FLT_HANDOVER.PHASE, Reg.FLT_HANDOVER.LOST_CORES] ++ closingFields) d d2 :=
      FieldsKept.trans (.of_regs _ rfl) ((FieldsKept.setFld d1 _ _ _ (by decide)).trans (.setFld _ _ _ _ (by decide)))
    exact hset.trans (hclose.mono (by decide))

/-- The flat ID is exported: FAB_SELF says so, and its entry is KIND tree with MOVED (R263, R398). -/
def Dev.selfExported (d : Dev) : Dev :=
  let moved := (d.setFld Reg.FAB_SELF.EXPORTED 1).changeEntry d.selfId (fun e =>
    (e.setFld (Reg.FAB_ROUTE.KIND d.selfId) 2).setFld (Reg.FAB_ROUTE.MOVED d.selfId) 1)
  { moved with flt := { moved.flt with exported := true } }

theorem Dev.fld_selfExported (d : Dev) : d.selfExported.fld Reg.FAB_SELF.EXPORTED = 1 := by
  have hkept : (((d.setFld Reg.FAB_SELF.EXPORTED 1).setFld (Reg.FAB_ROUTE.KIND d.selfId) 2).setFld
      (Reg.FAB_ROUTE.MOVED d.selfId) 1).fld Reg.FAB_SELF.EXPORTED = 1 := by
    rw [Dev.fld_setFld_ne, Dev.fld_setFld_ne, Dev.fld_setFld_same]
    · rfl
    all_goals
      simp only [Field.key, Reg.FAB_SELF.EXPORTED, Reg.FAB_ROUTE.KIND, Reg.FAB_ROUTE.MOVED]
      omega
  exact (Dev.fld_record _ _ (by decide) (by decide) (by decide)).trans hkept

/-- An export that ends so is over, and the device's flat ID is exported. -/
theorem Dev.endHandover_selfExported (d : Dev) (h : Handover) (x : Ending) {e : Dev} (he : e = d.selfExported.endHandover h x) :
    e.fld Reg.FAB_SELF.EXPORTED = 1 ∧ e.flt.exported = true ∧ e.flt.handover = none ∧ e.fld Reg.FLT_HANDOVER.PHASE = 4 := by
  subst he
  obtain ⟨hnone, hexported, hphase, hkept⟩ := d.selfExported.endHandover_shows h x
  exact ⟨(hkept _ (by decide)).trans d.fld_selfExported, hexported, hnone, hphase⟩

/-! ## The handover in progress -/

theorem Dev.handover_modHo {d : Dev} {h : Handover} (hh : d.flt.handover = some h) (f : Handover → Handover) :
    (d.modHo f).flt.handover = some (f h) :=
  congrArg (Option.map f) hh

/-- What the source asks of a packet and its handover before it acts. -/
theorem Handover.source_goes {h : Handover} {p : Packet} {x : HoPhase} (hx : h.isExport = true) (hp : h.phase = x)
    (hs : p.src = h.peer) : (!h.isExport || h.phase != x || p.src != h.peer) = false := by
  rw [hx, hp, hs, bne_self_eq_false, bne_self_eq_false]
  rfl

/-- What the spare asks of a packet and its handover before it acts. -/
theorem Handover.spare_goes {h : Handover} {p : Packet} {x : HoPhase} (hx : h.isExport = false) (hp : h.phase = x)
    (hs : p.src = h.peer) : (h.isExport || h.phase != x || p.src != h.peer) = false := by
  rw [hx, hp, hs, bne_self_eq_false, bne_self_eq_false]
  rfl

/-! ## The two descriptors -/

section
variable {s : State} {r : Nat} {j : Desc} (hr : r < 16) (h : Starts s r j) (hm : s.dev.migs = [])
include hr h hm

theorem gives_handoverExport (ho : j.opc = 0xB0) (hv : j.reservedByte [(24, 0, 16)] = none) (hst : s.dev.st = .quiesced)
    (hx : s.dev.flt.exported = false) : Gives (.handoverExport r) s ((s.dev.popHead r).beginHo j true (s.dev.popHead r).selfId
      (s.dev.popHead r).activeMask ((s.dev.popHead r).unitCount (s.dev.popHead r).activeMask)) := by
  have hin : s.dev.inSt [.quiesced] = true := by rw [Dev.inSt, hst]; rfl
  rw [Gives, exec, execHandoverExport, hm, List.isEmpty_nil, Bool.and_true]
  exact h.run_go hr (decide_eq_true ho)
    (by rw [Dev.exportCheck, Desc.reserved_of_none hv, Dev.stateCheck_of_inSt hin, hx]; rfl)

theorem gives_handoverImport (ho : j.opc = 0xB1) (hv : j.reservedByte [(24, 0, 16), (26, 0, 16)] = none) (hst : s.dev.st = .ready) :
    Gives (.handoverImport r) s ((s.dev.popHead r).beginHo j false (j.num 26 2) 0 0) := by
  have hin : s.dev.inSt [.ready] = true := by rw [Dev.inSt, hst]; rfl
  rw [Gives, exec, execHandoverImport, hm, List.isEmpty_nil, Bool.and_true]
  exact h.run_go hr (decide_eq_true ho) (by rw [Dev.importCheck, Desc.reserved_of_none hv, Dev.stateCheck_of_inSt hin]; rfl)

end

/-! ## The limits of time -/

section
variable {s : State} {h : Handover} (hu : s.dev.up = true) (hh : s.dev.flt.handover = some h)
include hu hh

theorem gives_manifestResend (hx : h.isExport = true) (hp : h.phase = .manifest) (ht : h.asked + ms 1 ≤ s.dev.clk) :
    Gives .manifestResend s ((s.dev.modHo (fun h => { h with asked := s.dev.clk })).sendManifest h) := by
  rw [Gives, exec, execManifestResend]
  exact State.run_gives rfl (by rw [hu, Dev.hoIs, hh, Option.any_some, Option.any_some, hx, hp, decide_eq_true ht]; rfl) (by rw [hh])

theorem gives_handoverWaitTimeout (hp : h.phase = .manifest) (ht : h.start + s.dev.hoWait ≤ s.dev.clk) :
    Gives .handoverWaitTimeout s (s.dev.abortHandover h ⟨.timeout, Detail.none⟩) := by
  rw [Gives, exec, execHandoverWaitTimeout]
  exact State.run_gives rfl (by rw [hu, hh, Option.any_some, hp, decide_eq_true ht]; rfl) (by rw [hh]; rfl)

theorem gives_handoverStall (hp : h.phase = .copy ∨ (h.phase = .takeover ∧ h.isExport = true)) (ht : h.progress + sec 1 ≤ s.dev.clk) :
    Gives .handoverStall s (s.dev.abortHandover h ⟨.timeout, Detail.none⟩) := by
  rw [Gives, exec, execHandoverStall]
  refine State.run_gives rfl ?_ (by rw [hh]; rfl)
  rw [hu, hh, Option.any_some, decide_eq_true ht]
  rcases hp with hcopy | ⟨htake, hx⟩
  · rw [hcopy]; rfl
  · rw [htake, hx]; rfl

end

/-! ## The source -/

section
variable {s : State} {p : Packet} {h : Handover} (hh : (s.dev.take p).flt.handover = some h) (hs : p.src = h.peer)
  (hx : h.isExport = true)
include hh hs hx

/-- Accepted, the copy starts (R396). -/
theorem gives_accept_go (ht : s.dev.hoTakes p 0x51 = true) (hw : s.dev.unitsWait = false) (hp : h.phase = .manifest)
    (hc : leAt p.payload 0 1 = 0) : Gives (.accept p) s (Dev.sendUnits 64
      (((s.dev.take p).modHo (fun h => { h with phase := .copy, progress := (s.dev.take p).clk })).showHo true 2)) := by
  rw [Gives, exec, execAccept]
  exact State.run_gives rfl (by rw [ht, hw]; rfl) (by simp only [hh, Handover.source_goes hx hp hs, hc]; rfl)

/-- The spare lacks a core: the export ends (R396). -/
theorem gives_accept_missing (ht : s.dev.hoTakes p 0x51 = true) (hw : s.dev.unitsWait = false) (hp : h.phase = .manifest)
    (hc : leAt p.payload 0 1 = 1) : Gives (.accept p) s ((s.dev.take p).endHandover h ⟨.noResource, Detail.none⟩) := by
  rw [Gives, exec, execAccept]
  exact State.run_gives rfl (by rw [ht, hw]; rfl) (by simp only [hh, Handover.source_goes hx hp hs, hc]; rfl)

/-- An acknowledgement that asks for no unit again: more units flow, or the takeover begins (R395, R396). -/
theorem gives_unitAck {d e : Dev} (ht : s.dev.hoTakes p 0x54 = true) (hw : s.dev.unitsWait = false) (hp : h.phase = .copy)
    (ha : leAt p.payload 4 4 = 0xFFFFFFFF) (hd : d = ((s.dev.take p).modHo (fun x => { x with
      verified := max h.verified (leAt p.payload 0 4)
      progress := (s.dev.take p).clk
      buddy := x.buddy.filter (fun e => max h.verified (leAt p.payload 0 4) ≤ e.1) })).setFld
        Reg.FLT_HANDOVER.UNITS (max h.verified (leAt p.payload 0 4)))
    (he : (if h.units ≤ max h.verified (leAt p.payload 0 4) then (d.modHo (fun h => { h with phase := .takeover })).showHo true 3
      else Dev.sendUnits 64 d) = e) : Gives (.unitAck p) s e := by
  have hcopy : d.hoIs true .copy = true := by
    rw [hd, Dev.hoIs, Dev.setFld_flt, Dev.handover_modHo hh, Option.any_some, hx, hp]
    rfl
  subst hd he
  rw [Gives, exec, execUnitAck]
  refine State.run_gives rfl (by rw [ht, hw]; rfl) ?_
  simp only [hh, Handover.source_goes hx hp hs, ha, hcopy, Bool.and_true, decide_eq_true_eq, Bool.false_eq_true, if_false, if_true]

/-- The spare says Done: the export completes (R396, R398). -/
theorem gives_handoverDone (ht : s.dev.hoTakes p 0x55 = true) (hp : h.phase = .takeover) :
    Gives (.handoverDone p) s ((s.dev.take p).selfExported.endHandover h h.outcome) := by
  rw [Gives, exec, execHandoverDone]
  refine State.run_gives rfl ht ?_
  simp only [hh]
  exact if_neg (by rw [hx, hp, hs, bne_self_eq_false]; exact Bool.false_ne_true)

end

/-! ## The spare -/

section
variable {s : State} {p : Packet} {h : Handover} (hh : (s.dev.take p).flt.handover = some h) (hx : h.isExport = false)
include hh hx

/-- A manifest whose cores the spare has and whose key is its own is accepted, and the copy starts (R396). -/
theorem gives_manifest_go (ht : s.dev.hoTakes p 0x50 = true) (hs : leAt p.payload 0 2 = h.peer) (hp : h.phase = .manifest)
    (hc : (s.dev.take p).manifestCode p.payload = 0) : Gives (.manifest p) s ((((s.dev.take p).modHo (fun h => { h with
      phase := .copy, progress := (s.dev.take p).clk, cores := leAt p.payload 8 24, units := leAt p.payload 32 8 })).showHo
        false 2).sendAccept h 0) := by
  rw [Gives, exec, execManifest]
  exact State.run_gives rfl ht (by simp only [hh, hx, hs, hp, hc, bne_self_eq_false]; rfl)

/-- A manifest that names a core the spare lacks ends the import (R396). -/
theorem gives_manifest_missing (ht : s.dev.hoTakes p 0x50 = true) (hs : leAt p.payload 0 2 = h.peer) (hp : h.phase = .manifest)
    (hc : (s.dev.take p).manifestCode p.payload = 1) :
    Gives (.manifest p) s (((s.dev.take p).sendAccept h 1).endHandover h ⟨.noResource, Detail.none⟩) := by
  rw [Gives, exec, execManifest]
  exact State.run_gives rfl ht (by simp only [hh, hx, hs, hp, hc, bne_self_eq_false]; rfl)

/-- Bytes of the peer for an address of memory are stored, and kept for the unit's check (R395, R396). -/
theorem runs_handoverData (ht : s.dev.hoTakes p 0x52 = true) (hs : p.src = h.peer) (hp : h.phase = .copy)
    (ha : memRange p.da p.payload.length = true) : Runs (.handoverData p) s (fun e => Stored p.da p.payload s.dev e ∧
      ∃ g, e.flt.handover = some g ∧ g.unitBuf = h.unitBuf ++ p.payload) := by
  rw [Runs, exec, execHandoverData]
  refine State.run_meets rfl ht ?_
  simp only [hh, Handover.spare_goes hx hp hs, ha, Bool.false_eq_true, if_false, if_true]
  set d := (s.dev.take p).modHo (fun h => { h with progress := (s.dev.take p).clk, unitBuf := h.unitBuf ++ p.payload })
  refine ⟨d.store_stored p.da p.payload, Option.map_eq_some_iff.mp ?_⟩
  exact (d.unitBytes_store p.da p.payload).trans (d.unitBytes_of_handover (Dev.handover_modHo hh _))

theorem gives_unitEnd (x : HandoverParts) (ht : s.dev.hoTakes p 0x53 = true) (hs : p.src = h.peer) (hp : h.phase = .copy) :
    Gives (.unitEnd p x) s ((s.dev.take p).unitEnd h p x) := by
  rw [Gives, exec, execUnitEnd]
  refine State.run_gives rfl ht ?_
  simp only [hh, Handover.spare_goes hx hp hs, Bool.false_eq_true, if_false]

end

/-! ## Takeover notices -/

section
variable {s : State} (hu : s.dev.up = true)
include hu

theorem gives_takeoverNotice {p : Packet} {e : Dev} (ht : s.dev.takes p 3 2 = true)
    (he : (if leAt p.payload 0 2 = (s.dev.take p).selfId then (s.dev.take p).record ⟨7, 3, some p.src, 0xFF, [], []⟩
      else ((s.dev.take p).applyTake (leAt p.payload 0 2)).send ((s.dev.take p).mkPkt 3 true 3 p.src 0 0 (slice p.payload 0 4))) = e) :
    Gives (.takeoverNotice p) s e := by
  rw [Gives, exec, execTakeoverNotice]
  exact State.run_gives rfl (by rw [hu, ht]; rfl) he

theorem gives_takeoverAck {p : Packet} {t : Takeover} (ht : s.dev.takes p 3 3 = true) (hf : (s.dev.take p).fab.takeover = some t)
    (hi : leAt p.payload 0 2 = t.id) (hm : t.members.any (fun e => e.1 = p.src) = true) :
    Gives (.takeoverAck p) s ((s.dev.take p).takeAcked p.src) := by
  rw [Gives, exec, execTakeoverAck]
  refine State.run_gives rfl (by rw [hu, ht]; rfl) (if_pos ?_)
  rw [hf, Option.any_some, hi, hm, decide_eq_true rfl]
  rfl

theorem gives_takeoverResend {t : Takeover} {e : Dev} (hf : s.dev.fab.takeover = some t) (ht : t.at' + ms 1 ≤ s.dev.clk)
    (he : (if t.members.all (fun e => 10 ≤ e.2) then s.dev.takeoverEnd (t.members.map (·.1))
      else ((t.members.filter (fun e => e.2 < 10)).map (·.1)).foldl (fun d m => d.sendTake t.id m)
        ({ s.dev with fab := { s.dev.fab with takeover := some { t with
          members := t.members.map (fun (e : Nat × Nat) => (e.1, min 10 (e.2 + 1))), at' := s.dev.clk } } } : Dev)) = e) :
    Gives .takeoverResend s e := by
  rw [Gives, exec, execTakeoverResend]
  refine State.run_gives rfl (by rw [hu, hf, Option.any_some, decide_eq_true ht]; rfl) ?_
  simp only [hf]
  exact he

end

/-- Settles O49: each clause is the branch of the command that its hypotheses choose. -/
theorem handoverProtocol : Obligations.HandoverProtocol := by
  unfold Obligations.HandoverProtocol
  intro s
  refine ⟨fun r j hr h hm ho hv hst hx => gives_handoverExport hr h hm ho hv hst hx,
    fun r j hr h hm ho hv hst => gives_handoverImport hr h hm ho hv hst,
    fun h hu hh => ⟨gives_manifestResend hu hh, gives_handoverWaitTimeout hu hh, gives_handoverStall hu hh⟩,
    ?source, ?spare, ?notice, fun p t hu ht hf hi hm => gives_takeoverAck hu ht hf hi hm, ?resend⟩
  case source =>
    intro p h hh hs hx
    refine ⟨gives_accept_go hh hs hx, gives_accept_missing hh hs hx, fun d ht hw hp ha hd => ⟨fun hv => ?_, fun hv => ?_⟩,
      fun ht hp => (gives_handoverDone hh hs hx ht hp).runs (Dev.endHandover_selfExported _ h _ rfl)⟩
    · exact gives_unitAck hh hs hx ht hw hp ha hd (if_neg (Nat.not_le.mpr hv))
    · exact gives_unitAck hh hs hx ht hw hp ha hd (if_pos hv)
  case spare =>
    intro p h hh hx
    exact ⟨gives_manifest_go hh hx, gives_manifest_missing hh hx, runs_handoverData hh hx, gives_unitEnd hh hx⟩
  case notice =>
    intro p hu ht
    exact ⟨fun hi => gives_takeoverNotice hu ht (if_pos hi), fun hi => gives_takeoverNotice hu ht (if_neg hi)⟩
  case resend =>
    intro t hu hf ht
    refine ⟨fun hall => gives_takeoverResend hu hf ht (if_pos hall), fun hall => gives_takeoverResend hu hf ht (if_neg ?_)⟩
    rw [hall]
    exact Bool.false_ne_true

end Sys2Proof.Machine
end

section
/-! # The step, ill-formed commands, PERST_N, and the debug ports

Settles O1, O2, O3, O8 and O20. -/

namespace Sys2Proof.Machine

/-! ## The step -/

/-- Settles O1: `step` takes the front command apart from the rest. -/
theorem stepRunsFront : Obligations.StepRunsFront := by
  unfold Obligations.StepRunsFront
  exact fun _ _ => rfl

/-- Debug observation changes DBG_OBS and the free-value counter alone, and leaves DBG_OBS low while it is off. -/
theorem Dev.observe_frame (d : Dev) : d.observe = { d with pins := d.observe.pins, fresh := d.observe.fresh } ∧
    d.observe.pins = { d.pins with dbgObs := d.observe.pins.dbgObs } ∧
    (d.fld Reg.DBG_CTRL.ENABLE ≠ 1 → d.observe.pins.dbgObs = 0) := by
  unfold Dev.observe
  by_cases hon : d.fld Reg.DBG_CTRL.ENABLE = 1
  · by_cases hedge : d.obsEdge = true
    · simp [Dev.on, hon, hedge]
    · simp [Dev.on, hon, hedge]
  · simp [Dev.on, hon]

/-- Settles O2: with no command a step is the tick, whose observation changes DBG_OBS alone. -/
theorem idleStepTicks : Obligations.IdleStepTicks := by
  unfold Obligations.IdleStepTicks
  intro s hp hst
  obtain ⟨hframe, hpins, hoff⟩ := Dev.observe_frame { s.dev with stp := s.dev.stp.tick, clock := s.dev.clock + 1 }
  have htick : s.dev.tick = Dev.observe { s.dev with stp := s.dev.stp.tick, clock := s.dev.clock + 1 } := if_neg hst
  refine ⟨s.dev.tick, by simp only [step, hp], ?_⟩
  rw [htick]
  refine ⟨?_, ?_, hpins, hoff⟩
  all_goals rw [hframe]

/-- Settles O3: `exec_shape` says that every meaning is one run, which faults without its unit and never refuses. -/
theorem faultIffIllFormed : Obligations.FaultIffIllFormed := by
  unfold Obligations.FaultIffIllFormed
  intro c s
  obtain ⟨due, f, hx⟩ := exec_shape c s
  rw [hx]
  exact ⟨State.run_fault, fun _ => State.run_not_refused, fun _ => State.run_pending⟩

/-! ## PERST_N -/

/-- Settles O8: both edges of PERST_N are due in every state. -/
theorem perstResetsPcieOnly : Obligations.PerstResetsPcieOnly := by
  unfold Obligations.PerstResetsPcieOnly
  intro s
  constructor
  · rw [Gives, exec, execPerstNAssert]
    exact State.run_gives rfl rfl rfl
  · rw [Gives, exec, execPerstNRelease]
    exact State.run_gives rfl rfl rfl

/-! ## The debug multiplexer and the JTAG port -/

/-- The group that a selection within the ranges of groups 4, 5 and 6 and below 0x80 shows is the one asked for. -/
theorem obsSelected_of_plain {g u : Nat} (h : g < 0x80) (h4 : g ≠ 4) (h5 : g ≠ 5) (h6 : g ≠ 6) : obsSelected g u = g := by
  have hlow : ¬0x80 ≤ g := by omega
  simp [obsSelected, hlow, h4, h5, h6]

theorem obsSelected_tower (u : Nat) : obsSelected 4 u = if u < 192 then 4 else 0 := by
  by_cases h : u < 192
  · simp [obsSelected, h]
  · simp [obsSelected, h, Nat.not_lt.mp h]

theorem obsSelected_link (u : Nat) : obsSelected 5 u = if u < 20 then 5 else 0 := by
  by_cases h : u < 20
  · simp [obsSelected, h]
  · simp [obsSelected, h, Nat.not_lt.mp h]

theorem obsSelected_port (u : Nat) : obsSelected 6 u = if u < 48 then 6 else 0 := by
  by_cases h : u < 48
  · simp [obsSelected, h]
  · simp [obsSelected, h, Nat.not_lt.mp h]

theorem obsSelected_restricted {g u : Nat} (hp : Config.dbgRestricted = false) (h : 0x80 ≤ g) : obsSelected g u = 0 := by
  simp [obsSelected, hp, h]

theorem obsSelected_le (g u : Nat) : obsSelected g u ≤ g := by
  unfold obsSelected
  split <;> omega

/-- DBG_SEL after a write: the unit asked for, and the group that the selection allows. -/
theorem Dev.dbgSel_shows (d : Dev) (v : Nat) : OnlyFields [Reg.DBG_SEL.UNIT, Reg.DBG_SEL.GROUP] d (d.dbgSel v) ∧
    (d.dbgSel v).fld Reg.DBG_SEL.UNIT = v / 256 % 256 ∧
    (d.dbgSel v).fld Reg.DBG_SEL.GROUP = obsSelected (v % 256) (v / 256 % 256) := by
  have hgroup : bits v 0 8 = v % 256 := by simp [bits]
  have hunit : bits v 8 8 = v / 256 % 256 := by simp [bits, Nat.shiftRight_eq_div_pow]
  rw [Dev.dbgSel, hgroup, hunit]
  refine ⟨(OnlyFields.setFld _ _ _ _ (by decide)).trans (.setFld _ _ _ _ (by decide)), ?_, ?_⟩
  · rw [Dev.fld_setFld_ne _ _ (by decide), Dev.fld_setFld_same]
    simp [Reg.DBG_SEL.UNIT]
  · rw [Dev.fld_setFld_same]
    refine Nat.mod_eq_of_lt (Nat.lt_of_le_of_lt (obsSelected_le _ _) ?_)
    simp only [Reg.DBG_SEL.GROUP]
    omega

theorem Dev.extestOk_iff (d : Dev) : d.extestOk = true ↔ d.st = .reset ∧ d.pins.resetN = false := by
  simp [Dev.extestOk]

/-- Settles O20: the selected group by the range it falls in, and each instruction of the JTAG port. -/
theorem debugPorts : Obligations.DebugPorts := by
  unfold Obligations.DebugPorts
  intro s
  refine ⟨fun v hv hup ha => ?select, fun ht => ⟨?bypass, ?idcode, ?sample, fun hst hr => ?extest, fun hno => ?refused⟩, ?low, ?high⟩
  case select =>
    obtain ⟨honly, hunit, hgroup⟩ := s.dev.dbgSel_shows v
    rw [Runs, exec, execDbgSelWrite]
    refine State.run_meets (decide_eq_true hv) (by rw [hup, ha]; rfl) ⟨honly, hunit, ?_⟩
    rw [hgroup]
    refine ⟨obsSelected_of_plain, fun h => ?_, fun h => ?_, fun h => ?_, obsSelected_restricted⟩
    · rw [h, obsSelected_tower]
    · rw [h, obsSelected_link]
    · rw [h, obsSelected_port]
  case bypass =>
    rw [Gives, exec, execJtagBypass]
    exact State.run_gives rfl ht rfl
  case idcode =>
    rw [Gives, exec, execJtagIdcode]
    exact State.run_gives rfl ht rfl
  case sample =>
    rw [Gives, exec, execJtagSamplePreload]
    exact State.run_gives rfl ht rfl
  case extest =>
    have hok : s.dev.extestOk = true := s.dev.extestOk_iff.mpr ⟨hst, hr⟩
    constructor
    · rw [Gives, exec, execJtagExtest]
      exact State.run_gives rfl ht (by rw [hok]; rfl)
    · rw [Gives, exec, execJtagExtestPulse]
      exact State.run_gives rfl ht (by rw [hok]; rfl)
  case refused =>
    have hok : s.dev.extestOk = false := by
      rw [Bool.eq_false_iff]
      intro h
      obtain ⟨hst, hr⟩ := s.dev.extestOk_iff.mp h
      rcases hno with hno | hno
      · exact hno hst
      · rw [hr] at hno
        exact Bool.noConfusion hno
    constructor
    · rw [Gives, exec, execJtagExtest]
      exact State.run_gives rfl ht (by rw [hok]; rfl)
    · rw [Gives, exec, execJtagExtestPulse]
      exact State.run_gives rfl ht (by rw [hok]; rfl)
  case low =>
    rw [Gives, exec, execJtagTrst]
    exact State.run_gives rfl rfl rfl
  case high =>
    rw [Gives, exec, execJtagTrst]
    exact State.run_gives rfl rfl rfl

end Sys2Proof.Machine
end

section
/-! # The set-up lock

Settles O15 and O16. The checks made at lock (R446) mend the routing table, show what they find and write records; every other field,
and all memory but the host log, stays. -/

namespace Sys2Proof.Machine

variable {s : State} {d e g : Dev}

/-! ## The checks -/

/-- The fields below the routing table that the checks change. -/
def checkFields : List Field := recordFields ++ [Reg.FAB_STATUS.SELF_ERR, Reg.FAB_STATUS.BLOCK_ERR, Reg.FAB_COORD_ERR.PORT,
  Reg.MFB_STATUS.DOMAIN_ERR, Reg.STP_STATUS.TIME_STATE]

/-- A device after some of the checks. -/
structure LockChecked (d e : Dev) : Prop where
  frame : e = { d with regs := e.regs, mem := e.mem, flt := e.flt, hq := e.hq, out := e.out, stp := e.stp }
  time : e.stp.time = d.stp.time
  fields : ∀ f : Field, f.key ∉ checkFields.map Field.key → f.key < (Reg.FAB_ROUTE.KIND 0).key → e.fld f = d.fld f
  mem : MemKeptOutside (d.logAddr 0) 0x4000 d e

namespace LockChecked

theorem refl (d : Dev) : LockChecked d d := ⟨rfl, rfl, fun _ _ _ => rfl, fun _ _ => rfl⟩

theorem logAddr (h : LockChecked d e) : e.logAddr 0 = d.logAddr 0 := by
  rw [Dev.logAddr, h.fields _ (by decide) (by decide), Dev.logAddr]

theorem trans (h : LockChecked d e) (h' : LockChecked e g) : LockChecked d g where
  frame := by rw [h'.frame, h.frame]
  time := h'.time.trans h.time
  fields f hf hr := (h'.fields f hf hr).trans (h.fields f hf hr)
  mem := h.mem.trans (h.logAddr ▸ h'.mem)

theorem ite {c : Prop} [Decidable c] (h : LockChecked d e) (h' : LockChecked d g) : LockChecked d (if c then e else g) := by
  split
  · exact h
  · exact h'

theorem foldl {α : Type} {f : Dev → α → Dev} (hf : ∀ d a, LockChecked d (f d a)) (l : List α) : ∀ d, LockChecked d (l.foldl f d) := by
  induction l with
  | nil => exact refl
  | cons a l ih => exact fun d => (hf d a).trans (ih _)

/-- A field that the checks show, or one of the routing table. -/
theorem setFld (d : Dev) (f : Field) (n : Nat) (hf : f.key ∈ checkFields.map Field.key ∨ (Reg.FAB_ROUTE.KIND 0).key ≤ f.key) :
    LockChecked d (d.setFld f n) where
  frame := rfl
  time := rfl
  fields x hx hr := by
    refine Dev.fld_setFld_ne d n fun hk => ?_
    rw [hk] at hx hr
    rcases hf with hf | hf
    · exact hx hf
    · exact absurd hr (Nat.not_lt.mpr hf)
  mem _ _ := rfl

theorem setShown (d : Dev) (f : Field) (n : Nat) (hf : f.key ∈ checkFields.map Field.key := by decide) : LockChecked d (d.setFld f n) :=
  setFld d f n (.inl hf)

theorem setKind (d : Dev) (i n : Nat) : LockChecked d (d.setFld (Reg.FAB_ROUTE.KIND i) n) := by
  refine setFld d _ n (.inr ?_)
  simp only [Field.key, Reg.FAB_ROUTE.KIND]
  omega

theorem record (d : Dev) (r : FaultRec) : LockChecked d (d.record r) := by
  obtain ⟨hframe, -, hfields, hmem⟩ := OnlyReports.record d r []
  refine ⟨?_, by rw [Dev.record_stp], fun f hf _ => hfields f fun hm => hf ?_, hmem⟩
  · rw [Dev.record_stp]
    exact hframe
  · simp only [checkFields, List.map_append, List.mem_append]
    exact .inl hm

theorem changeEntry (d : Dev) (i : Nat) {f : Dev → Dev} (hf : LockChecked d (f d)) : LockChecked d (d.changeEntry i f) :=
  hf.trans (record _ _)

theorem selfCheck (d : Dev) : LockChecked d d.selfCheck := by
  unfold Dev.selfCheck
  extract_lets own others e e'
  have he : LockChecked d e := setShown d Reg.FAB_STATUS.SELF_ERR 1
  have he' : LockChecked e e' := ite (refl e) (changeEntry e own (setKind e own 3))
  exact ite (refl d) (ite (refl d) ((he.trans he').trans (foldl (fun d i => changeEntry d i (setKind d i 0)) others e')))

theorem timeCheck (d : Dev) : LockChecked d d.timeCheck := by
  unfold Dev.timeCheck
  extract_lets t
  have hruns : LockChecked d { d with stp := { d.stp with inRun := 0, outRun := 0 } } := ⟨rfl, rfl, fun _ _ _ => rfl, fun _ _ => rfl⟩
  exact ite (refl d) (ite (setShown d _ _) (ite (hruns.trans (setShown _ _ _)) (refl d)))

theorem coordCheck (d : Dev) (p : Nat) : LockChecked d (d.coordCheck p) := by
  unfold Dev.coordCheck
  extract_lets bad was e
  have he : LockChecked d e := (setShown d Reg.FAB_COORD_ERR.PORT _).trans (timeCheck _)
  exact ite (refl d) (ite (he.trans (record e _)) he)

theorem lockChecks (d : Dev) : LockChecked d d.lockChecks :=
  ((((selfCheck d).trans (setShown _ Reg.FAB_STATUS.BLOCK_ERR _)).trans (foldl coordCheck _ _)).trans
    (setShown _ Reg.MFB_STATUS.DOMAIN_ERR _))

end LockChecked

/-! ## The lock -/

/-- The device when the checks begin: locked, with nothing refused. -/
def Dev.lockBegun (d : Dev) : Dev := { ((d.setFld Reg.GLB_LOCK_CHECK.REFUSED 0).setFld Reg.GLB_LOCK_CHECK.AREAS 0) with locked := true }

/-- The mirror, where it is enabled, is in sync from lock on. -/
def Dev.mirrorSynced (d : Dev) : Dev := if d.on Reg.VLT_MIRROR_PEER.ENABLE then d.setFld Reg.VLT_MIRROR_PEER.STATE 1 else d

/-- The polling interval begins anew. -/
def Dev.pollsAnew (d : Dev) : Dev := { d with hq := { d.hq with interval := d.pollMin } }

/-- What follows the checks: the update area zeroed, the mirror in sync, the time of the lock shown, the interval of polls. -/
def Dev.lockEnded (d : Dev) : Dev :=
  (d.zeroUpdArea.mirrorSynced.setFld Reg.GLB_LOCK_TIME.TIME d.zeroUpdArea.mirrorSynced.now).pollsAnew

theorem Dev.lockNow_eq (d : Dev) : d.lockNow = d.lockBegun.lockChecks.lockEnded := by
  unfold Dev.lockNow
  extract_lets d1 d2 d3 d4 d5 d6
  have h2 : d2 = d.lockBegun := rfl
  have h5 : d5 = d4.mirrorSynced := rfl
  have h6 : d6 = d5.setFld Reg.GLB_LOCK_TIME.TIME d5.now := rfl
  have h4 : d4 = d3.zeroUpdArea := rfl
  have h3 : d3 = d2.lockChecks := rfl
  show d6.pollsAnew = _
  rw [h6, h5, h4, h3, h2, Dev.lockEnded]

theorem Dev.mirrorSynced_frame (d : Dev) : d.mirrorSynced = { d with regs := d.mirrorSynced.regs } := by
  unfold Dev.mirrorSynced
  split <;> rfl

theorem Dev.lockEnded_frame (d : Dev) : d.lockEnded = { d.zeroUpdArea with regs := d.lockEnded.regs, hq := d.lockEnded.hq } := by
  rw [Dev.lockEnded, Dev.mirrorSynced_frame]
  rfl

theorem Dev.lockEnded_fields (d : Dev) : FieldsKept [Reg.VLT_MIRROR_PEER.STATE, Reg.GLB_LOCK_TIME.TIME] d d.lockEnded := by
  have hsync (d : Dev) : FieldsKept [Reg.VLT_MIRROR_PEER.STATE, Reg.GLB_LOCK_TIME.TIME] d d.mirrorSynced := by
    unfold Dev.mirrorSynced
    split
    · exact .setFld d _ _ _ (by decide)
    · exact .refl _ d
  exact .trans (.of_regs _ rfl) ((hsync d.zeroUpdArea).trans (.setFld _ Reg.GLB_LOCK_TIME.TIME _ _ (by decide)))

theorem Dev.lockEnded_time (d : Dev) : d.lockEnded.fld Reg.GLB_LOCK_TIME.TIME = d.stp.time % 2 ^ 64 := by
  have hnow : d.zeroUpdArea.mirrorSynced.now = d.stp.time := by
    rw [Dev.mirrorSynced_frame]
    rfl
  refine (Dev.fld_setFld_same _ _ _).trans ?_
  rw [hnow]
  rfl

/-- A byte of memory is in the update area. -/
def Dev.InUpdArea (d : Dev) (q : Nat) : Prop :=
  midwayBase + 0x1000000 * d.fld Reg.UPD_AREA.BASE ≤ q ∧ q < midwayBase + 0x1000000 * d.fld Reg.UPD_AREA.BASE + 0x1000000

theorem Dev.peek_lockEnded (d : Dev) (q : Nat) :
    (d.InUpdArea q → d.lockEnded.peek q = 0) ∧ (¬d.InUpdArea q → d.lockEnded.peek q = d.peek q) := by
  have hz : d.lockEnded.peek q = d.zeroUpdArea.peek q := by rw [d.lockEnded_frame, Dev.peek, Dev.peek]
  have h := d.peek_zero (midwayBase + 0x1000000 * d.fld Reg.UPD_AREA.BASE) 0x1000000 q
  rw [hz]
  exact ⟨fun hq => h.trans (if_pos hq), fun hq => h.trans (if_neg hq)⟩

/-- The lock reads of a device after the checks what it would read before them. -/
theorem LockChecked.inUpdArea (h : LockChecked d e) (q : Nat) : e.InUpdArea q ↔ d.InUpdArea q := by
  rw [Dev.InUpdArea, h.fields _ (by decide) (by decide), Dev.InUpdArea]

theorem Dev.lockBegun_fields (d : Dev) : FieldsKept [Reg.GLB_LOCK_CHECK.REFUSED, Reg.GLB_LOCK_CHECK.AREAS] d d.lockBegun :=
  ((FieldsKept.setFld d Reg.GLB_LOCK_CHECK.REFUSED 0 _ (by decide)).trans (.setFld _ Reg.GLB_LOCK_CHECK.AREAS 0 _ (by decide))).trans
    (.of_regs _ rfl)

theorem Dev.lockBegun_shows (d : Dev) :
    d.lockBegun.fld Reg.GLB_LOCK_CHECK.REFUSED = 0 ∧ d.lockBegun.fld Reg.GLB_LOCK_CHECK.AREAS = 0 :=
  ⟨(Dev.fld_setFld_ne (f := Reg.GLB_LOCK_CHECK.AREAS) _ 0 (by decide)).trans (d.fld_setFld_same Reg.GLB_LOCK_CHECK.REFUSED 0),
    Dev.fld_setFld_same _ Reg.GLB_LOCK_CHECK.AREAS 0⟩

/-- A lock shows nothing refused, and the time it took effect. -/
theorem Dev.lockNow_shows (d : Dev) : d.lockNow.fld Reg.GLB_LOCK_CHECK.REFUSED = 0 ∧ d.lockNow.fld Reg.GLB_LOCK_CHECK.AREAS = 0 ∧
    d.lockNow.fld Reg.GLB_LOCK_TIME.TIME = d.stp.time % 2 ^ 64 := by
  have hc := LockChecked.lockChecks d.lockBegun
  rw [Dev.lockNow_eq]
  refine ⟨?_, ?_, ?_⟩
  · rw [Dev.lockEnded_fields _ _ (by decide), hc.fields _ (by decide) (by decide)]
    exact d.lockBegun_shows.1
  · rw [Dev.lockEnded_fields _ _ (by decide), hc.fields _ (by decide) (by decide)]
    exact d.lockBegun_shows.2
  · rw [Dev.lockEnded_time, hc.time]
    rfl

/-- A lock leaves the state, the cores, the counters and the flash. -/
theorem Dev.lockNow_keeps (d : Dev) : d.lockNow.locked = true ∧ d.lockNow.st = d.st ∧ d.lockNow.cores = d.cores ∧
    d.lockNow.evt = d.evt ∧ d.lockNow.flash = d.flash := by
  have hc := LockChecked.lockChecks d.lockBegun
  rw [Dev.lockNow_eq, Dev.lockEnded_frame, hc.frame]
  exact ⟨rfl, rfl, rfl, rfl, rfl⟩

/-- A lock zeroes the update area, and leaves every byte outside it and the host log. -/
theorem Dev.peek_lockNow (d : Dev) (q : Nat) : (d.InUpdArea q → d.lockNow.peek q = 0) ∧
    (¬d.InUpdArea q → q < d.logAddr 0 ∨ d.logAddr 0 + 0x4000 ≤ q → d.lockNow.peek q = d.peek q) := by
  have hc := LockChecked.lockChecks d.lockBegun
  obtain ⟨hin, hout⟩ := d.lockBegun.lockChecks.peek_lockEnded q
  have hlog : d.lockBegun.logAddr 0 = d.logAddr 0 := by rw [Dev.logAddr, d.lockBegun_fields _ (by decide), Dev.logAddr]
  have harea : d.lockBegun.InUpdArea q ↔ d.InUpdArea q := by rw [Dev.InUpdArea, d.lockBegun_fields _ (by decide), Dev.InUpdArea]
  rw [hc.inUpdArea, harea] at hin hout
  rw [Dev.lockNow_eq]
  exact ⟨hin, fun hq hl => (hout hq).trans (hc.mem q (hlog.symm ▸ hl))⟩

/-! ## Requests -/

/-- A request with the key, where PCIe carries it. -/
theorem exec_setupLock (hup : s.dev.barUp = true) : exec .setupLock s = .next { s with dev := s.dev.lockWrite lockKey } := by
  rw [exec, execSetupLock]
  exact State.run_gives rfl hup rfl

theorem Dev.lockWrite_ignored (h : d.st ≠ .ready ∨ d.locked = true) : d.lockWrite lockKey = d := by
  rcases h with h | h <;> simp [Dev.lockWrite, h]

theorem Dev.lockWrite_honoured (hst : d.st = .ready) (hl : d.locked = false) : d.lockWrite lockKey = d.lockRequest := by
  simp [Dev.lockWrite, hst, hl]

/-- A request that finds areas in each other's way shows them. -/
theorem Dev.lockRequest_refused (h : d.lockMask ≠ 0) :
    d.lockRequest = (d.setFld Reg.GLB_LOCK_CHECK.REFUSED 1).setFld Reg.GLB_LOCK_CHECK.AREAS d.lockMask := if_neg h

theorem Dev.setRefused_shows (d : Dev) (m : Nat) :
    ((d.setFld Reg.GLB_LOCK_CHECK.REFUSED 1).setFld Reg.GLB_LOCK_CHECK.AREAS m).fld Reg.GLB_LOCK_CHECK.REFUSED = 1 ∧
    ((d.setFld Reg.GLB_LOCK_CHECK.REFUSED 1).setFld Reg.GLB_LOCK_CHECK.AREAS m).fld Reg.GLB_LOCK_CHECK.AREAS = m % 256 := by
  have hwidth : 2 ^ Reg.GLB_LOCK_CHECK.AREAS.w = 256 := rfl
  rw [Dev.fld_setFld_same, Dev.fld_setFld_ne _ _ (by decide), Dev.fld_setFld_same, hwidth]
  exact ⟨rfl, rfl⟩

theorem Dev.lockRequest_passed (h : d.lockMask = 0) : d.lockRequest = d.lockNow := if_pos h

/-- Settles O15: what `lockWrite` does with the key, and that no poll is due before the lock. -/
theorem lockRequests : Obligations.LockRequests := by
  unfold Obligations.LockRequests
  intro s hup
  refine ⟨fun h => ?ignored, fun hst hl => ?honoured, fun c hl => ?poll, fun _ _ => rfl⟩
  case ignored => rw [Gives, exec_setupLock hup, Dev.lockWrite_ignored h]
  case honoured =>
    refine ⟨_, exec_setupLock hup, ?_⟩
    rw [Dev.lockWrite_honoured hst hl]
    by_cases hm : s.dev.lockMask = 0
    · rw [Dev.lockRequest_passed hm]
      exact .inl s.dev.lockNow_keeps.1
    · rw [Dev.lockRequest_refused hm]
      exact .inr (s.dev.setRefused_shows _).1
  case poll =>
    rw [Gives, exec, execDoorbellPoll]
    exact State.run_idle rfl (by simp [Dev.polls, hl])

/-- Settles O16: the three outcomes of a request, and what the lock changes. -/
theorem setupLock : Obligations.SetupLock := by
  unfold Obligations.SetupLock
  intro s hup
  refine ⟨fun h => ?ignored, fun hst hl hm => ?refused, fun hst hl hm => ?passed⟩
  case ignored => rw [Gives, exec_setupLock hup, Dev.lockWrite_ignored h]
  case refused =>
    refine ⟨_, exec_setupLock hup, ?_⟩
    rw [Dev.lockWrite_honoured hst hl, Dev.lockRequest_refused hm]
    refine ⟨(OnlyFields.setFld _ _ _ _ (by decide)).trans (.setFld _ _ _ _ (by decide)), ?_, s.dev.setRefused_shows _⟩
    rw [Dev.setFld_locked, Dev.setFld_locked, hl]
  case passed =>
    obtain ⟨hrefused, hareas, htime⟩ := s.dev.lockNow_shows
    obtain ⟨hlocked, hstate, hcores, hevt, hflash⟩ := s.dev.lockNow_keeps
    refine ⟨_, exec_setupLock hup, ?_⟩
    rw [Dev.lockWrite_honoured hst hl, Dev.lockRequest_passed hm]
    refine ⟨hlocked, hstate.trans hst, hrefused, hareas, htime, fun a hlo hhi => ?_, fun a hout hlog => ?_, hcores, hevt, hflash⟩
    · exact (s.dev.peek_lockNow a).1 ⟨hlo, hhi⟩
    · refine (s.dev.peek_lockNow a).2 (fun hin => ?_) hlog
      obtain ⟨hlo, hhi⟩ := hin
      omega

end Sys2Proof.Machine
end

section
/-! # Entering RESET, ROM start and the image phase of boot

Settles O7, O9 and O10. -/

namespace Sys2Proof.Machine

variable {d e : Dev} {s : State}

/-! ## What RESET leaves -/

/-- What the device is in RESET with the flash fl, but for SEC_ACT_NEXT. -/
def Dev.afterReset (d : Dev) (fl : Tab Byte) : Dev := { Dev.init with
  fuses := d.fuses, flash := fl, fresh := d.fresh, out := d.out, vlt := Vlt.ofFuses d.fuses.rows
  hq := { HQ.init with host := d.hq.host, hostErr := d.hq.hostErr }
  pins := { Pins.init with pwrgood := d.pins.pwrgood, resetN := d.pins.resetN, perstN := d.pins.perstN,
                           profile := d.pins.profile, lmPresent := d.pins.lmPresent, trstN := d.pins.trstN, jtag := d.pins.jtag } }

/-- The selection of an Act kept over a reset (R415). -/
def Dev.withActNext (d : Dev) (act valid : Nat) : Dev :=
  (d.setFld Reg.SEC_ACT_NEXT.ACT act).setFld Reg.SEC_ACT_NEXT.VALID valid

theorem Dev.enterReset_eq (d : Dev) : ∃ fl, (d.boot.flashJob = none → fl = d.flash) ∧ d.enterReset false = d.afterReset fl ∧
    d.enterReset true = (d.afterReset fl).withActNext (d.fld Reg.SEC_ACT_NEXT.ACT) (d.fld Reg.SEC_ACT_NEXT.VALID) := by
  obtain ⟨fl, b, hshape, hfl⟩ := d.interruptFlash_shape
  refine ⟨fl, hfl, ?_, ?_⟩
  · rw [Dev.enterReset, hshape]
    rfl
  · rw [Dev.enterReset, hshape]
    rfl

theorem Dev.withActNext_only (d : Dev) (a v : Nat) :
    OnlyFields [Reg.SEC_ACT_NEXT.ACT, Reg.SEC_ACT_NEXT.VALID] d (d.withActNext a v) :=
  (OnlyFields.setFld d Reg.SEC_ACT_NEXT.ACT a _ (by decide)).trans (.setFld _ Reg.SEC_ACT_NEXT.VALID v _ (by decide))

theorem Dev.withActNext_shows (d : Dev) (a v : Nat) : (d.withActNext a v).fld Reg.SEC_ACT_NEXT.ACT = a % 4 ∧
    (d.withActNext a v).fld Reg.SEC_ACT_NEXT.VALID = v % 2 := by
  have hact : 2 ^ Reg.SEC_ACT_NEXT.ACT.w = 4 := rfl
  have hvalid : 2 ^ Reg.SEC_ACT_NEXT.VALID.w = 2 := rfl
  rw [Dev.withActNext, Dev.fld_setFld_ne _ _ (by decide), Dev.fld_setFld_same, Dev.fld_setFld_same, hact, hvalid]
  exact ⟨rfl, rfl⟩

/-- A device in RESET as after reset: its state, its engines, and its outputs. -/
structure InResetOf (d e : Dev) : Prop where
  st : e.st = .reset
  locked : e.locked = false
  engines : EnginesKept { Dev.init with fuses := d.fuses, flash := e.flash, vlt := Vlt.ofFuses d.fuses.rows } e
  flash : d.boot.flashJob = none → e.flash = d.flash
  fuses : e.fuses = d.fuses
  inputs : e.pins.pwrgood = d.pins.pwrgood ∧ e.pins.resetN = d.pins.resetN
  outputs : e.pins.lmEn = 0 ∧ e.pins.lmSwSel = 0 ∧ e.pins.dbgObs = 0 ∧ e.pins.thermtripOut = false ∧ e.pins.flDriven = false ∧
    e.pins.avsRuns = false ∧ e.pins.lanesRun = false

/-- Entering RESET leaves a device as after reset, SEC_ACT_NEXT apart where power stays on. -/
theorem Dev.enterReset_inResetOf (d : Dev) (power : Bool) : InResetOf d (d.enterReset power) := by
  obtain ⟨fl, hfl, hoff, hon⟩ := d.enterReset_eq
  have hz : InResetOf d (d.afterReset fl) :=
    ⟨rfl, rfl, ⟨rfl, rfl, rfl, rfl, rfl, rfl, rfl, rfl, rfl, rfl, rfl, rfl, rfl, rfl, rfl, rfl, rfl, rfl, rfl⟩, hfl, rfl, ⟨rfl, rfl⟩,
      ⟨rfl, rfl, rfl, rfl, rfl, rfl, rfl⟩⟩
  cases power with
  | false => exact hoff ▸ hz
  | true =>
    rw [hon, (Dev.withActNext_only _ _ _).1]
    exact ⟨hz.st, hz.locked, hz.engines, hz.flash, hz.fuses, hz.inputs, hz.outputs⟩

/-- Entering RESET leaves every register field at its reset value, SEC_ACT_NEXT apart while power stays on. -/
theorem Dev.enterReset_fields (d : Dev) :
    FieldsKept [] Dev.init (d.enterReset false) ∧ FieldsKept [Reg.SEC_ACT_NEXT.ACT, Reg.SEC_ACT_NEXT.VALID] Dev.init (d.enterReset true) ∧
    (d.enterReset true).fld Reg.SEC_ACT_NEXT.ACT = d.fld Reg.SEC_ACT_NEXT.ACT % 4 ∧
    (d.enterReset true).fld Reg.SEC_ACT_NEXT.VALID = d.fld Reg.SEC_ACT_NEXT.VALID % 2 := by
  obtain ⟨fl, -, hoff, hon⟩ := d.enterReset_eq
  rw [hoff, hon]
  exact ⟨.of_regs _ rfl, FieldsKept.trans (.of_regs _ rfl) (Dev.withActNext_only _ _ _).2, Dev.withActNext_shows _ _ _⟩

/-- An advance that power loss cuts short leaves the fused version between the old one and the image's, and undoes no revocation. -/
theorem Dev.cutAdvance_shape (d : Dev) : ∃ n svn revoked,
    d.cutAdvance = { d with fresh := n, fuses := { d.fuses with svn := svn, revoked := revoked } } ∧
    (d.fld Reg.SEC_FUSE.ADVANCE_PENDING ≠ 1 → svn = d.fuses.svn ∧ revoked = d.fuses.revoked) ∧
    d.fuses.svn ≤ svn ∧ svn ≤ max d.fuses.svn (leAt d.boot.header 12 1) ∧
    ∀ k, d.fuses.revoked.testBit k = true → revoked.testBit k = true := by
  by_cases hp : d.fld Reg.SEC_FUSE.ADVANCE_PENDING = 1
  · have hon : d.on Reg.SEC_FUSE.ADVANCE_PENDING = true := (d.on_iff _).mpr hp
    rw [Dev.cutAdvance, if_pos hon]
    refine ⟨_, _, _, rfl, fun h => absurd hp h, Nat.le_add_right _ _, ?_, fun k hk => ?_⟩
    · have hlt := Nat.mod_lt d.free (show 0 < leAt d.boot.header 12 1 - d.fuses.svn + 1 by omega)
      omega
    · rw [Nat.testBit_or, hk, Bool.true_or]
  · have hon : ¬d.on Reg.SEC_FUSE.ADVANCE_PENDING = true := fun h => hp ((d.on_iff _).mp h)
    rw [Dev.cutAdvance, if_neg hon]
    exact ⟨_, _, _, rfl, fun _ => ⟨rfl, rfl⟩, le_rfl, le_max_left _ _, fun _ h => h⟩

/-- Settles O7: both pins lead to `enterReset`, after the advance that power loss cuts short. -/
theorem resetEntered : Obligations.ResetEntered := by
  unfold Obligations.ResetEntered
  intro s
  constructor
  · rw [Runs, exec, execResetNAssert]
    refine State.run_meets rfl rfl ?_
    generalize hd : ({ s.dev with pins := { s.dev.pins with resetN := false } } : Dev) = d
    have h := d.enterReset_inResetOf s.dev.pins.pwrgood
    obtain ⟨hoff, hon, hact, hvalid⟩ := d.enterReset_fields
    subst hd
    refine ⟨h.st, h.inputs.2, h.locked, h.engines, h.flash, ?_, fun hp => ?_, h.outputs⟩
    · cases s.dev.pins.pwrgood with
      | false => exact hoff.mono (by simp)
      | true => exact hon
    · rw [hp]
      exact ⟨hact, hvalid⟩
  · rw [Runs, exec, execPwrgoodFall]
    refine State.run_meets rfl rfl ?_
    obtain ⟨n, svn, revoked, hcut, hidle, hlo, hhi, hrev⟩ := s.dev.cutAdvance_shape
    rw [hcut]
    generalize hd : ({ s.dev with fresh := n, fuses := { s.dev.fuses with svn := svn, revoked := revoked }
                                  pins := { s.dev.pins with pwrgood := false } } : Dev) = d
    have h := d.enterReset_inResetOf false
    obtain ⟨hoff, -⟩ := d.enterReset_fields
    subst hd
    rw [h.fuses]
    refine ⟨h.st, h.inputs.1, h.locked, h.engines, rfl, fun hp => ?_, hlo, hhi, hrev, h.flash, hoff, h.outputs⟩
    obtain ⟨rfl, rfl⟩ := hidle hp
    rfl

/-! ## ROM start -/

/-- The device when ROM has begun: in BOOT, its outputs driven, the link restarting. -/
def Dev.released (d : Dev) (r : RomInputs) : Dev := { d with
  st := .boot
  pins := { d.pins with profile := r.profile, flDriven := true, avsRuns := true, lanesRun := true }
  boot := { d.boot with phase := .waitRoot, pulse := false }
  flt := { d.flt with session := d.free % 2 ^ 32 }
  hq := { d.hq with pcieUp := d.pins.perstN }
  fresh := d.fresh + 1 }

/-- The device when ROM waits for the root PLL: the profile of the pins shown, the Act chosen. -/
def Dev.awaitsRoot (d : Dev) (r : RomInputs) : Dev :=
  ((d.released r).setFld Reg.SEC_ACT_NEXT.PINS r.profile).loadAct r.profile

theorem Dev.romStart_eq (d : Dev) (r : RomInputs) : d.romStart r =
    if r.rootLock then (((d.awaitsRoot r).setFld Reg.CLK_STATUS.ROOT_LOCK 1).showStraps r).romChecks r else d.awaitsRoot r := rfl

/-- ROM in BOOT, before its checks: what it shows of the pins, and what it leaves. -/
structure RomBegun (d : Dev) (r : RomInputs) (e : Dev) : Prop where
  st : e.st = .boot
  phase : e.boot.phase = .waitRoot
  driven : e.pins.flDriven = true
  profile : e.fld Reg.SEC_ACT_NEXT.PINS = r.profile
  kept : e.mem = d.mem ∧ e.fuses = d.fuses ∧ e.flash = d.flash

theorem RomBegun.setFld {r : RomInputs} (h : RomBegun d r e) (f : Field) (n : Nat) (hf : Reg.SEC_ACT_NEXT.PINS.key ≠ f.key) :
    RomBegun d r (e.setFld f n) :=
  ⟨h.st, h.phase, h.driven, (Dev.fld_setFld_ne e n hf).trans h.profile, h.kept⟩

theorem RomBegun.showStraps {r : RomInputs} (h : RomBegun d r e) : RomBegun d r (e.showStraps r) :=
  ((h.setFld _ _ (by decide)).setFld _ _ (by decide)).setFld _ _ (by decide)

theorem Dev.awaitsRoot_begun (d : Dev) {r : RomInputs} (hp : r.profile < 4) : RomBegun d r (d.awaitsRoot r) := by
  obtain ⟨b, hphase, -, hframe, hfields⟩ := ((d.released r).setFld Reg.SEC_ACT_NEXT.PINS r.profile).loadAct_shape r.profile
  have hshown : (d.awaitsRoot r).fld Reg.SEC_ACT_NEXT.PINS = r.profile := by
    have hwidth : 2 ^ Reg.SEC_ACT_NEXT.PINS.w = 4 := rfl
    refine (hfields _ (by decide)).trans ((Dev.fld_setFld_same (d.released r) _ _).trans ?_)
    rw [hwidth, Nat.mod_eq_of_lt hp]
  refine ⟨?_, ?_, ?_, hshown, ?_⟩
  all_goals rw [Dev.awaitsRoot, hframe]
  · rfl
  · exact hphase
  · rfl
  · exact ⟨rfl, rfl, rfl⟩

/-- The device with the root PLL's lock and the straps shown, when the checks of ROM begin. -/
def Dev.strapsShown (d : Dev) (r : RomInputs) : Dev := ((d.awaitsRoot r).setFld Reg.CLK_STATUS.ROOT_LOCK 1).showStraps r

theorem Dev.strapsShown_begun (d : Dev) {r : RomInputs} (hp : r.profile < 4) : RomBegun d r (d.strapsShown r) :=
  ((d.awaitsRoot_begun hp).setFld _ _ (by decide)).showStraps

theorem Dev.fld_strapsShown (d : Dev) (r : RomInputs) :
    (d.strapsShown r).fld Reg.CLK_STATUS.ROOT_LOCK = 1 ∧ (d.strapsShown r).fld Reg.D2D_STRAP.HUB = r.hubWord % 2 := by
  have hwidth : 2 ^ Reg.D2D_STRAP.HUB.w = 2 := rfl
  constructor
  · rw [Dev.strapsShown, Dev.showStraps, Dev.fld_setFld_ne _ _ (by decide), Dev.fld_setFld_ne _ _ (by decide),
      Dev.fld_setFld_ne _ _ (by decide), Dev.fld_setFld_same]
    rfl
  · rw [Dev.strapsShown, Dev.showStraps, Dev.fld_setFld_ne _ _ (by decide), Dev.fld_setFld_ne _ _ (by decide), Dev.fld_setFld_same, hwidth]

section
variable {r : RomInputs}

/-- The checks pass, and ROM goes on to the image. -/
theorem Dev.romChecks_passed (hs : strapFault r = none) (hr : r.railsBad = 0) :
    d.romChecks r = { d with boot := { d.boot with phase := .rom } } := by
  simp only [Dev.romChecks, hs, hr, if_true]

theorem Dev.romChecks_strap (hs : strapFault r ≠ none) : (d.romChecks r).st = .halted := by
  obtain ⟨x, hx⟩ := Option.ne_none_iff_exists'.mp hs
  simp only [Dev.romChecks, hx]
  exact Dev.enterHalted_st _ _ _

theorem Dev.romChecks_rail (hs : strapFault r = none) (hr : r.railsBad ≠ 0) (hw : r.railsBad < 2 ^ 16) :
    (d.romChecks r).st = .halted ∧ (d.romChecks r).fld Reg.DBG_RAIL_FAULT.RAIL = r.railsBad := by
  simp only [Dev.romChecks, hs, hr, if_false]
  refine ⟨Dev.enterHalted_st _ _ _, (Dev.fld_enterHalted _ _ _ (by decide)).trans ?_⟩
  rw [Dev.fld_setFld_same]
  exact Nat.mod_eq_of_lt hw

theorem Dev.fld_setBoot (d : Dev) (b : Boot) (f : Field) : ({ d with boot := b } : Dev).fld f = d.fld f := rfl

/-- What ROM shows when its checks have passed. -/
theorem RomBegun.passed {c : Dev} (h : RomBegun d r e) (hroot : e.fld Reg.CLK_STATUS.ROOT_LOCK = 1)
    (hhub : e.fld Reg.D2D_STRAP.HUB = r.hubWord % 2) (hc : d.mem = c.mem ∧ d.fuses = c.fuses ∧ d.flash = c.flash) :
    let g : Dev := { e with boot := { e.boot with phase := .rom } }
    g.st = .boot ∧ g.boot.phase = .rom ∧ g.fld Reg.CLK_STATUS.ROOT_LOCK = 1 ∧ g.fld Reg.SEC_ACT_NEXT.PINS = r.profile ∧
      g.fld Reg.D2D_STRAP.HUB = r.hubWord % 2 ∧ g.pins.flDriven = true ∧ g.mem = c.mem ∧ g.fuses = c.fuses ∧ g.flash = c.flash := by
  obtain ⟨hmem, hfuses, hflash⟩ := h.kept
  obtain ⟨hmem', hfuses', hflash'⟩ := hc
  refine ⟨h.st, rfl, ?_, ?_, ?_, h.driven, hmem.trans hmem', hfuses.trans hfuses', hflash.trans hflash'⟩
  · rw [Dev.fld_setBoot, hroot]
  · rw [Dev.fld_setBoot, h.profile]
  · rw [Dev.fld_setBoot, hhub]

/-- What release by the pins, and the end of an internal pulse, do: ROM starts. -/
theorem exec_release {c : Instr} (hlen : r.towerWords.length = 8) (hp : r.profile < 4) (hw : r.railsBad < 2 ^ 16) (hst : s.dev.st = .reset)
    (hc : c = .resetRelease r ∧ s.dev.boot.pulse = false ∨
      c = .internalResetPulseEnd r ∧ s.dev.boot.pulse = true ∧ s.dev.pins.pwrgood = true ∧ s.dev.pins.resetN = true) :
    ∃ p : Pins, exec c s = .next { s with dev := Dev.romStart { s.dev with pins := p } r } := by
  have hunit : (decide (r.towerWords.length = 8) && decide (r.profile < 4) && decide (r.railsBad < 2 ^ 16)) = true := by
    simp only [hlen, hp, hw, decide_true, Bool.and_self]
  rcases hc with ⟨rfl, hpulse⟩ | ⟨rfl, hpulse, hpower, hreset⟩
  · refine ⟨{ s.dev.pins with pwrgood := true, resetN := true }, ?_⟩
    rw [exec, execResetRelease]
    exact State.run_gives hunit (by simp [hst, hpulse]) rfl
  · refine ⟨s.dev.pins, ?_⟩
    rw [exec, execInternalResetPulseEnd]
    exact State.run_gives hunit (by simp [hst, hpulse, hpower, hreset]) rfl

end

theorem runs_rootPllLockTimeout (hst : s.dev.st = .boot) (hph : s.dev.boot.phase = .waitRoot) (hms : ms 2 ≤ s.dev.clk) :
    Runs .rootPllLockTimeout s (fun e => e.st = .halted ∧ e.boot = s.dev.boot) := by
  rw [Runs, exec, execRootPllLockTimeout]
  exact State.run_meets rfl (by simp [hst, hph, hms]) ⟨Dev.enterHalted_st _ _ _, Dev.enterHalted_boot _ _ _⟩

theorem Dev.romStart_waits (d : Dev) {r : RomInputs} (hl : r.rootLock = false) : d.romStart r = d.awaitsRoot r := by
  rw [Dev.romStart_eq, hl]
  rfl

/-- Settles O9: ROM begins alike for both commands; the lock of the root PLL, then the straps, then the rails decide. -/
theorem bootStart : Obligations.BootStart := by
  unfold Obligations.BootStart
  intro s r c hlen hp hw hst hc
  obtain ⟨p, hx⟩ := exec_release hlen hp hw hst hc
  generalize hd : ({ s.dev with pins := p } : Dev) = d at hx
  have hkept : d.mem = s.dev.mem ∧ d.fuses = s.dev.fuses ∧ d.flash = s.dev.flash := by
    subst hd
    exact ⟨rfl, rfl, rfl⟩
  have hlocked (hl : r.rootLock = true) : d.romStart r = (d.strapsShown r).romChecks r := by
    rw [Dev.romStart_eq, if_pos hl, Dev.strapsShown]
  have hbegun := d.strapsShown_begun hp
  refine ⟨fun hl hs hr => ?passes, fun hl hs => ?strap, fun hl hs hr => ?rail, fun hl => ⟨?waits, fun t hst hph hms => ?timeout⟩⟩
  case passes =>
    refine ⟨_, hx, ?_⟩
    obtain ⟨hroot, hhub⟩ := d.fld_strapsShown r
    rw [hlocked hl, Dev.romChecks_passed hs hr]
    exact hbegun.passed hroot hhub hkept
  case strap =>
    refine ⟨_, hx, ?_⟩
    rw [hlocked hl]
    exact Dev.romChecks_strap hs
  case rail =>
    refine ⟨_, hx, ?_⟩
    rw [hlocked hl]
    exact Dev.romChecks_rail hs hr hw
  case waits =>
    refine ⟨_, hx, ?_⟩
    rw [Dev.romStart_waits d hl]
    exact ⟨(d.awaitsRoot_begun hp).st, (d.awaitsRoot_begun hp).phase⟩
  case timeout =>
    exact runs_rootPllLockTimeout hst hph hms

/-! ## The image -/

/-- Register fields written one after another change the register table alone. -/
theorem Dev.setFlds_frame {α : Type} (f : α → Field) (w : α → Nat) (l : List α) (d : Dev) :
    l.foldl (fun d i => d.setFld (f i) (w i)) d = { d with regs := (l.foldl (fun d i => d.setFld (f i) (w i)) d).regs } := by
  have h (r : Tab Nat) := foldl_keeps (fun d : Dev => ({ d with regs := r } : Dev)) (fun d i => d.setFld (f i) (w i)) (fun _ _ => rfl) l d
  exact h (l.foldl (fun d i => d.setFld (f i) (w i)) d).regs

/-- The digest of an image's header lies above every other field that boot shows. -/
theorem Dev.fld_showDigest (w : Nat → Nat) (l : List Nat) {f : Field} (hf : f.key < (Reg.SEC_IMAGE_DIGEST.DIGEST 0).key) (d : Dev) :
    (l.foldl (fun d i => d.setFld (Reg.SEC_IMAGE_DIGEST.DIGEST i) (w i)) d).fld f = d.fld f := by
  refine foldl_keeps (fun d : Dev => d.fld f) _ (fun d i => Dev.fld_setFld_ne d _ ?_) l d
  simp only [Field.key, Reg.SEC_IMAGE_DIGEST.DIGEST] at hf ⊢
  omega

/-- What an accepted image shows, before its digest. -/
def Dev.imageShown (d : Dev) (h : List Byte) : Dev :=
  (((d.setFld Reg.SEC_STATUS.IMAGE_OK 1).setFld Reg.SEC_STATUS.KEY_SLOT (leAt h 6 1)).setFld Reg.SEC_STATUS.SVN
    (leAt h 12 1)).setFld Reg.SEC_BUILD.BUILD (leAt h 16 4)

theorem Dev.imageShown_regs (d : Dev) (b : Boot) (h : List Byte) :
    (({ d with boot := b } : Dev).imageShown h).regs = (d.imageShown h).regs := rfl

theorem Dev.fld_imageShown (d : Dev) (h : List Byte) : (d.imageShown h).fld Reg.SEC_STATUS.IMAGE_OK = 1 ∧
    (d.imageShown h).fld Reg.SEC_STATUS.KEY_SLOT = leAt h 6 1 % 4 ∧ (d.imageShown h).fld Reg.SEC_STATUS.SVN = leAt h 12 1 % 64 ∧
    (d.imageShown h).fld Reg.SEC_BUILD.BUILD = leAt h 16 4 % 2 ^ 32 := by
  have hslot : 2 ^ Reg.SEC_STATUS.KEY_SLOT.w = 4 := rfl
  have hsvn : 2 ^ Reg.SEC_STATUS.SVN.w = 64 := rfl
  have hbuild : Reg.SEC_BUILD.BUILD.w = 32 := rfl
  rw [Dev.imageShown]
  refine ⟨?_, ?_, ?_, ?_⟩
  · rw [Dev.fld_setFld_ne _ _ (by decide), Dev.fld_setFld_ne _ _ (by decide), Dev.fld_setFld_ne _ _ (by decide), Dev.fld_setFld_same]
    rfl
  · rw [Dev.fld_setFld_ne _ _ (by decide), Dev.fld_setFld_ne _ _ (by decide), Dev.fld_setFld_same, hslot]
  · rw [Dev.fld_setFld_ne _ _ (by decide), Dev.fld_setFld_same, hsvn]
  · rw [Dev.fld_setFld_same, hbuild]

/-- Boot goes on with an accepted image; it asks for a fuse advance where its version or its key slot does. -/
def Dev.imageBoot (d : Dev) (h : List Byte) : Boot := { d.boot with
  phase := .image
  header := h
  advance := d.fuses.svn < leAt h 12 1 ||
    (bit (leAt h 7 1) 0 && (List.range (leAt h 6 1)).any (fun s => !bit d.fuses.revoked s)) }

theorem Dev.imageAccepted_eq (d : Dev) (h : List Byte) : d.imageAccepted h = (List.range 8).foldl
    (fun d i => d.setFld (Reg.SEC_IMAGE_DIGEST.DIGEST i) (leAt (sha256 h) (4 * i) 4))
    (({ d with boot := d.imageBoot h } : Dev).imageShown h) := by
  unfold Dev.imageAccepted
  extract_lets adv b d1 d2
  have h2 : d2 = d1.imageShown h := rfl
  have h1 : d1 = { d with boot := d.imageBoot h } := rfl
  rw [h2, h1]

/-- An accepted image is shown with its digest, and boot goes on with its header. -/
theorem Dev.imageAccepted_shape (d : Dev) (h : List Byte) :
    d.imageAccepted h = { d with boot := d.imageBoot h, regs := (d.imageAccepted h).regs } ∧
    ∀ f : Field, f.key < (Reg.SEC_IMAGE_DIGEST.DIGEST 0).key → (d.imageAccepted h).fld f = (d.imageShown h).fld f := by
  rw [Dev.imageAccepted_eq]
  constructor
  · rw [Dev.setFlds_frame]
    rfl
  · intro f hf
    rw [Dev.fld_showDigest _ _ hf]
    exact Dev.fld_of_regs (Dev.imageShown_regs d _ h) f

theorem Dev.enterRecovery_shows (d : Dev) (c : Nat) : (d.enterRecovery c).st = .recovery ∧
    (d.enterRecovery c).fld Reg.SEC_STATUS.BOOT_CAUSE = c % 16 ∧ (d.enterRecovery c).pins.lmEn = 0 ∧
    (d.enterRecovery c).mem = d.mem ∧ (d.enterRecovery c).flash = d.flash ∧ (d.enterRecovery c).fuses = d.fuses := by
  have hwidth : 2 ^ Reg.SEC_STATUS.BOOT_CAUSE.w = 16 := rfl
  refine ⟨rfl, ?_, rfl, rfl, rfl, rfl⟩
  rw [Dev.enterRecovery, Dev.fld, Dev.get_setState _ _ _ _ (by decide), Dev.get_setFld_same, hwidth]

/-- Settles O10: the three outcomes of the checks, by the cause they find and whether it is the first. -/
theorem bootImage : Obligations.BootImage := by
  unfold Obligations.BootImage
  intro s readErr hst hph
  refine ⟨?_, rfl⟩
  rw [Runs, exec, execImageLoaded]
  refine State.run_meets rfl (by simp [hst, hph]) ?_
  by_cases hc : s.dev.flashCause readErr = 0
  · rw [if_pos hc]
    obtain ⟨hframe, hfields⟩ := s.dev.imageAccepted_shape (s.dev.flashRead 0 1024)
    obtain ⟨hok, hslot, hsvn, hbuild⟩ := s.dev.fld_imageShown (s.dev.flashRead 0 1024)
    rw [← hfields _ (by decide)] at hok hslot hsvn hbuild
    generalize s.dev.imageAccepted (s.dev.flashRead 0 1024) = e at *
    refine ⟨by rw [hframe], by rw [hframe], by rw [hframe], fun _ => ?_, fun h => absurd hc h, fun h => absurd hc h⟩
    refine ⟨by rw [hframe, hst], by rw [hframe, Dev.imageBoot], by rw [hframe, Dev.imageBoot], hok, hslot, hsvn, hbuild⟩
  · rw [if_neg hc]
    by_cases hf : s.dev.boot.fails = 0
    · rw [if_pos hf]
      exact ⟨rfl, rfl, rfl, fun h => absurd h hc, fun _ _ => rfl, fun _ h => absurd hf h⟩
    · rw [if_neg hf]
      obtain ⟨hst', hcause, hlm, hmem, hflash, hfuses⟩ := s.dev.enterRecovery_shows (s.dev.flashCause readErr)
      exact ⟨hmem, hflash, hfuses, fun h => absurd h hc, fun _ h => absurd h hf, fun _ _ => ⟨hst', hcause, hlm⟩⟩

end Sys2Proof.Machine
end

section
/-! # What stores and packets leave of the flash and of the step

The functions that a store of this device's agents calls, one lemma each: none of them writes flash or the state of the step. -/

namespace Sys2Proof.Machine

/-- What neither a packet that leaves nor a store of this device's agents changes: flash, and the state of the step with its time. -/
def Dev.aside (d : Dev) : Tab Byte × Stp := (d.flash, d.stp)

theorem aside_setPort (d : Dev) (p : Nat) (x : Port) : (d.setPort p x).aside = d.aside := rfl

theorem aside_sendBlock (d : Dev) (p ty vc : Nat) (a b : Bool) (s : Nat) (l : List Byte) :
    (d.sendBlock p ty vc a b s l).aside = d.aside := rfl

theorem aside_sendPktBlocks (p : Nat) (q : Queued) (l : List Byte) (t k : Nat) :
    ∀ d : Dev, (Dev.sendPktBlocks p q l t k d).aside = d.aside := by
  induction k with
  | zero => exact fun _ => rfl
  | succ k ih =>
    intro d
    unfold Dev.sendPktBlocks
    rw [ih, aside_setPort, aside_sendBlock]

theorem aside_pumpN (p n : Nat) : ∀ d : Dev, (Dev.pumpN p n d).aside = d.aside := by
  induction n with
  | zero => exact fun _ => rfl
  | succ n ih =>
    intro d
    unfold Dev.pumpN
    split
    · rfl
    · dsimp only
      rw [ih, aside_sendPktBlocks]
      split <;> rfl

theorem aside_leave (d : Dev) (n : Nat) (src : Option Nat) (q : Nat) (p o : Packet) (f : Bool) : (d.leave n src q p o f).aside = d.aside := by
  unfold Dev.leave
  split
  · rfl
  · exact aside_pumpN _ _ _

theorem aside_lineCopy (d : Dev) (n : Nat) (src : Option Nat) (p : Packet) : (d.lineCopy n src p).aside = d.aside := by
  unfold Dev.lineCopy
  dsimp only
  split
  · rfl
  · split
    · rfl
    · exact aside_leave _ _ _ _ _ _ _

theorem aside_lineOut (d : Dev) (p : Packet) (c n : Nat) : (d.lineOut p c n).aside = d.aside := by
  unfold Dev.lineOut Dev.numbered
  split
  · rfl
  · exact aside_lineCopy _ _ _ _

theorem aside_lineSend (d : Dev) (a : Nat) (p : Packet) : (d.lineSend a p).aside = d.aside := by
  unfold Dev.lineSend
  dsimp only
  split
  · rfl
  · rw [aside_lineOut, aside_lineOut]
    rfl

theorem aside_ite {c : Prop} [Decidable c] {d x y : Dev} (hx : x.aside = d.aside) (hy : y.aside = d.aside) :
    (if c then x else y).aside = d.aside := by
  split
  · exact hx
  · exact hy

theorem aside_sendReq (d : Dev) (o : MfbOp) (k : MfbPkt) : (d.sendReq o k).aside = d.aside := by
  unfold Dev.sendReq
  exact aside_ite ((aside_lineSend _ _ _).trans (aside_ite rfl rfl)) (aside_ite (d := d) rfl rfl)

theorem aside_pumpHomeN (h n : Nat) : ∀ d : Dev, (Dev.pumpHomeN h n d).aside = d.aside := by
  induction n with
  | zero => exact fun _ => rfl
  | succ n ih =>
    intro d
    unfold Dev.pumpHomeN
    split
    · rfl
    · rw [ih, aside_sendReq]

theorem aside_rlcWrite (d : Dev) (o : MfbOp) : (d.rlcWrite o).aside = d.aside := by
  unfold Dev.rlcWrite
  split
  · exact foldl_keeps Dev.aside (fun d x => d.rlcDropRange x o.remote o.len) (fun _ _ => rfl) _ d
  · split <;> rfl

theorem aside_startOp (d : Dev) (o : MfbOp) : (d.startOp o).aside = d.aside := by
  unfold Dev.startOp Dev.pumpOp
  exact (foldl_keeps Dev.aside Dev.pumpHome (fun _ h => aside_pumpHomeN h 256 _) _ _).trans (aside_rlcWrite d _)

theorem aside_mirrorSend (d : Dev) (a n : Nat) : (d.mirrorSend a n).aside = d.aside := aside_startOp _ _

theorem aside_handoverBuddyLost (d : Dev) : d.handoverBuddyLost.aside = d.aside := by
  unfold Dev.handoverBuddyLost
  split
  · rfl
  · refine (foldl_keeps Dev.aside _ ?_ _ _).trans ?_
    · exact fun _ _ => rfl
    · rfl

theorem aside_setFld (d : Dev) (f : Field) (n : Nat) : (d.setFld f n).aside = d.aside := rfl

theorem aside_record (d : Dev) (r : FaultRec) : (d.record r).aside = d.aside := by
  rw [Dev.aside, Dev.record_flash, Dev.record_stp, Dev.aside]

theorem aside_breakMirror (d : Dev) : d.breakMirror.aside = d.aside := by
  unfold Dev.breakMirror
  extract_lets m e
  split
  · rw [Dev.setMirror, aside_record, aside_setFld, if_neg (by decide)]
    exact aside_handoverBuddyLost e
  · rfl

theorem aside_mirror (d : Dev) (a n : Nat) : (d.mirror a n).aside = d.aside := by
  unfold Dev.mirror
  extract_lets l
  split
  · rfl
  · split
    · rfl
    · split
      · exact aside_breakMirror d
      · exact foldl_keeps Dev.aside (fun (d : Dev) (p : Nat × Nat) => d.mirrorSend p.1 p.2) (fun d p => aside_mirrorSend d p.1 p.2) l d

theorem aside_store (d : Dev) (a : Nat) (l : List Byte) : (d.store a l).aside = d.aside :=
  Dev.besideLive_rel (R := fun d e => e.aside = d.aside) (fun _ => rfl) (fun _ _ _ h h' => h'.trans h)
    (fun d x n _ _ => aside_mirror (d.write x (slice l (x - a) n)) x n) d

theorem flash_store (d : Dev) (a : Nat) (l : List Byte) : (d.store a l).flash = d.flash := congrArg Prod.fst (aside_store d a l)

theorem now_store (d : Dev) (a : Nat) (l : List Byte) : (d.store a l).now = d.now := congrArg (fun x => x.2.time) (aside_store d a l)

end Sys2Proof.Machine
end

section
/-! # Acts, attestation and firmware update

Settles O52. -/

namespace Sys2Proof.Machine

variable {d e : Dev} {s : State} {r k : Nat} {j : Desc}

/-! ## What a descriptor's start and its end leave -/

/-- A head that is taken changes the host interface and the times of met waits alone. -/
theorem Dev.popHead_shape (d : Dev) (r : Nat) : ∃ q m, d.popHead r = { d with hq := q, met := m } := ⟨_, _, d.popHead_frame r⟩

/-- A descriptor that starts and that a check refuses. -/
theorem Starts.run_refuse {p : Desc → Bool} {chk : Dev → Desc → Option Ending} {go : Dev → Desc → Dev} {x : Ending} (h : Starts s r j)
    (hr : r < 16) (hp : p j = true) (hc : chk s.dev j = some x) :
    s.run (r < 16) (s.dev.descDue r p) (fun d => d.startDesc r chk go) = .next { s with dev := (s.dev.popHead r).refuse j x } :=
  State.run_gives (decide_eq_true hr) (h.descDue hp) (by simp only [Dev.startDesc, h.1, hc])

theorem Dev.finish_secure (d : Dev) (j : Desc) (x : Ending) :
    (d.finish j x).boot = d.boot ∧ (d.finish j x).fuses = d.fuses ∧ (d.finish j x).flash = d.flash := by
  rw [d.finish_frame]
  exact ⟨rfl, rfl, rfl⟩

theorem Dev.finishKey_flash (d : Dev) (k : Nat × Nat) (x : Ending) : (d.finishKey k x).flash = d.flash := by
  unfold Dev.finishKey
  split
  · exact (d.finish_secure _ x).2.2
  · rfl

theorem Dev.fld_finishKey (d : Dev) (k : Nat × Nat) (x : Ending) {f : Field} (hs : f.key ≠ Reg.EVT_SIGNALS.COUNT.key)
    (hd : f.key ≠ Reg.HQ_DESC_DONE.COUNT.key) : (d.finishKey k x).fld f = d.fld f := by
  unfold Dev.finishKey
  split
  · exact d.fld_finish _ x hs hd
  · rfl

/-! ## ACT_SELECT -/

/-- The Act that a descriptor selects, shown in SEC_ACT_NEXT (R415). -/
def Dev.actSelected (d : Dev) (j : Desc) : Dev := (d.setFld Reg.SEC_ACT_NEXT.ACT (j.fb 24 0 2)).setFld Reg.SEC_ACT_NEXT.VALID 1

theorem Dev.fld_actSelected (d : Dev) (j : Desc) : (d.actSelected j).fld Reg.SEC_ACT_NEXT.ACT = j.fb 24 0 2 ∧
    (d.actSelected j).fld Reg.SEC_ACT_NEXT.VALID = 1 := by
  constructor
  · rw [Dev.actSelected, Dev.fld_setFld_ne _ _ (by decide), Dev.fld_setFld_same]
    exact Nat.mod_eq_of_lt (Nat.mod_lt _ (Nat.two_pow_pos 2))
  · rw [Dev.actSelected, Dev.fld_setFld_same]
    rfl

/-- ACT_SELECT of an Act that its checks let through. -/
theorem Starts.run_actSelect (h : Starts s r j) (hr : r < 16) (ho : j.opc = 0x80) (hc : s.dev.actSelectCheck j = none) :
    exec (.actSelect r) s = .next { s with dev := ((s.dev.popHead r).actSelected j).finish j ⟨.done, Detail.none⟩ } := by
  rw [exec, execActSelect]
  exact h.run_go hr (decide_eq_true ho) hc

theorem Starts.run_actSelect_refused {x : Ending} (h : Starts s r j) (hr : r < 16) (ho : j.opc = 0x80) (hc : s.dev.actSelectCheck j = some x) :
    exec (.actSelect r) s = .next { s with dev := (s.dev.popHead r).refuse j x } := by
  rw [exec, execActSelect]
  exact h.run_refuse hr (decide_eq_true ho) hc

/-! ## FW_STAGE -/

/-- What an access meets of the error correction: poison, and work for the next step gap. -/
theorem Dev.meetEcc_shape (d : Dev) (x : Ecc) : ∃ p t, d.meetEcc x = { d with poison := p, stp := t } := by
  have hpoison (l : List Nat) (p : Tab Bool) := foldl_keeps (fun d : Dev => ({ d with poison := p } : Dev))
    (fun d a => d.setPoison a) (fun _ _ => rfl) l d
  unfold Dev.meetEcc
  extract_lets inSram e acts
  have he : e = { d with poison := e.poison } := hpoison _ e.poison
  generalize e.poison = p at he
  clear_value e
  subst he
  exact ⟨_, _, rfl⟩

theorem Stored.of_mem {a : Nat} {l : List Byte} {g : Dev} (h : Stored a l d e) (hm : g.mem = e.mem) : Stored a l d g := by
  intro q hq
  rw [Dev.peek, hm]
  exact h q hq

/-- The staged bytes are stored, and the descriptor completes. -/
theorem Dev.stageEnd_stored (d : Dev) (j : Desc) {l : List Byte} (hp : d.partAt (d.stageBase + j.imageOff) l.length = none) :
    Stored (d.stageBase + j.imageOff) l d (d.stageEnd j l) ∧ (d.stageEnd j l).flash = d.flash := by
  have hend : d.stageEnd j l = (d.store (d.stageBase + j.imageOff) l).finish j ⟨.done, Detail.none⟩ := by
    simp only [Dev.stageEnd, hp]
    rfl
  rw [hend]
  exact ⟨(d.store_stored _ l).of_mem (Dev.finish_mem _ _ _), (Dev.finish_secure _ _ _).2.2.trans (flash_store _ _ _)⟩

theorem exec_fwStageComplete {x : Ecc} (hr : r < 16) (hu : s.dev.up = true) (hf : s.dev.flies (r, k) 0xD1 = true)
    (hj : s.dev.desc? (r, k) = some j) : exec (.fwStageComplete r k x) s = .next { s with
      dev := (s.dev.meetEcc x).withList j 24 j.stageLen (fun d l => d.stageEnd j l) } := by
  rw [exec, execFwStageComplete]
  exact State.run_gives (decide_eq_true hr) (by rw [hu, hf]; rfl) (by simp only [hj])

/-- The end of a staging whose bytes can be read and stored. -/
theorem runs_fwStageComplete {x : Ecc} {l : List Byte} (hr : r < 16) (hu : s.dev.up = true) (hf : s.dev.flies (r, k) 0xD1 = true)
    (hj : s.dev.desc? (r, k) = some j)
    (hl : ∀ go : Dev → List Byte → Dev, (s.dev.meetEcc x).withList j 24 j.stageLen go = go (s.dev.meetEcc x) l)
    (hp : (s.dev.meetEcc x).partAt (s.dev.stageBase + j.imageOff) l.length = none) :
    Runs (.fwStageComplete r k x) s (fun e => Stored (s.dev.stageBase + j.imageOff) l s.dev e ∧ e.flash = s.dev.flash) := by
  refine ⟨_, exec_fwStageComplete hr hu hf hj, ?_⟩
  rw [hl]
  obtain ⟨p, t, hshape⟩ := s.dev.meetEcc_shape x
  have h := ((s.dev.meetEcc x).stageEnd_stored j (l := l))
  rw [hshape] at h hp ⊢
  exact h hp

/-! ## FW_COMMIT -/

theorem Dev.commitShows_only (d : Dev) (c n : Nat) : OnlyFields [Reg.SEC_COMMIT.CAUSE, Reg.SEC_COMMIT.RESULT] d (d.commitShows c n) :=
  (OnlyFields.setFld d Reg.SEC_COMMIT.CAUSE c _ (by decide)).trans (.setFld _ Reg.SEC_COMMIT.RESULT n _ (by decide))

theorem Dev.fld_commitShows (d : Dev) (c n : Nat) : (d.commitShows c n).fld Reg.SEC_COMMIT.RESULT = n % 4 ∧
    (d.commitShows c n).fld Reg.SEC_COMMIT.CAUSE = c % 2 ^ Reg.SEC_COMMIT.CAUSE.w := by
  have hwidth : 2 ^ Reg.SEC_COMMIT.RESULT.w = 4 := rfl
  rw [Dev.commitShows]
  exact ⟨by rw [Dev.fld_setFld_same, hwidth], by rw [Dev.fld_setFld_ne _ _ (by decide), Dev.fld_setFld_same]⟩

/-- The kind of a package, shown where it is an image or an Act record. -/
def Dev.kindShown (d : Dev) (p : List Byte) : Dev := if isImage p || isAct p then d.setOn Reg.SEC_COMMIT.KIND (isAct p) else d

theorem Dev.kindShown_frame (d : Dev) (p : List Byte) : d.kindShown p = { d with regs := (d.kindShown p).regs } := by
  unfold Dev.kindShown
  split <;> rfl

theorem Dev.commitGo_refused (d : Dev) {p : List Byte} (h : d.commitCause p j.imageLen ≠ 0) :
    d.commitGo j p = ((d.kindShown p).commitShows (d.commitCause p j.imageLen) 2).finish j
      ⟨.badField, { Detail.none with fieldByte := 24 }⟩ := if_neg h

theorem Dev.commitGo_passed (d : Dev) {p : List Byte} (h : d.commitCause p j.imageLen = 0) :
    d.commitGo j p = { d.kindShown p with boot := { (d.kindShown p).boot with flashJob := some (d.commitJob j p) } } := if_pos h

/-- A package that is judged leaves flash and fuses; what is refused shows its cause, and what passes has its write begun. -/
theorem Dev.commitGo_shows (d : Dev) (p : List Byte) (c : Nat) (hc : d.commitCause p j.imageLen = c) :
    (d.commitGo j p).flash = d.flash ∧ (d.commitGo j p).fuses = d.fuses ∧
    (c ≠ 0 → (∃ e : Dev, d.commitGo j p = (e.commitShows c 2).finish j ⟨.badField, { Detail.none with fieldByte := 24 }⟩) ∧
      (d.commitGo j p).fld Reg.SEC_COMMIT.RESULT = 2 ∧
      (d.commitGo j p).fld Reg.SEC_COMMIT.CAUSE = c % 2 ^ Reg.SEC_COMMIT.CAUSE.w ∧ (d.commitGo j p).boot = d.boot) ∧
    (c = 0 → (d.commitGo j p).boot = { d.boot with flashJob := some (d.commitJob j p) }) := by
  have hkind := d.kindShown_frame p
  by_cases h : c = 0
  · rw [d.commitGo_passed (hc.trans h), hkind]
    exact ⟨rfl, rfl, fun hn => absurd h hn, fun _ => rfl⟩
  · obtain ⟨hresult, hcause⟩ := (d.kindShown p).fld_commitShows c 2
    obtain ⟨hframe, -⟩ := (d.kindShown p).commitShows_only c 2
    rw [d.commitGo_refused (by rwa [hc]), hc]
    obtain ⟨hboot, hfuses, hflash⟩ := ((d.kindShown p).commitShows c 2).finish_secure j ⟨.badField, { Detail.none with fieldByte := 24 }⟩
    rw [hframe, hkind] at hboot hfuses hflash
    refine ⟨?_, ?_, fun _ => ⟨⟨_, rfl⟩, ?_, ?_, ?_⟩, fun h0 => absurd h0 h⟩
    · rw [hframe, hkind, hflash]
    · rw [hframe, hkind, hfuses]
    · rw [Dev.fld_finish _ _ _ (by decide) (by decide), hresult]
    · rw [Dev.fld_finish _ _ _ (by decide) (by decide), hcause]
    · rw [hframe, hkind, hboot]

/-- What a commit does whose package can be read. -/
theorem Starts.run_fwCommit (h : Starts s r j) (hr : r < 16) (ho : j.opc = 0xD2) (hb : j.reservedByte [(24, 0, 32)] = none)
    (hst : s.dev.st = .ready) (he : s.dev.readErr s.dev.stageBase (min j.imageLen 16777216) = none) :
    ∃ q m, exec (.fwCommit r) s = .next { s with
      dev := Dev.commitGo { s.dev with hq := q, met := m } j (s.dev.package j.imageLen) } := by
  obtain ⟨q, m, hpop⟩ := s.dev.popHead_shape r
  refine ⟨q, m, ?_⟩
  have hchk : firstFail [j.reserved [(24, 0, 32)], s.dev.stateCheck [.ready]] = none := by
    simp [Desc.reserved, hb, Dev.stateCheck, Dev.inSt, hst, failIf]
  rw [exec, execFwCommit, ringOk]
  refine (h.run_go hr (decide_eq_true ho) hchk).trans ?_
  rw [hpop]
  have he' : Dev.readErr { s.dev with hq := q, met := m } (Dev.stageBase { s.dev with hq := q, met := m }) (min j.imageLen 16777216) = none :=
    he
  simp only [he']
  rfl

/-! ## The end of a flash write -/

/-- A package that has been written is shown as pending, and its bytes stand in flash. -/
theorem Dev.commitDone_shows (d : Dev) (w : FlashJob) : (d.commitDone w).flash = (d.flashWrite w.addr w.data).flash ∧
    (d.commitDone w).fld Reg.SEC_COMMIT.PENDING = 1 ∧ (d.commitDone w).fld Reg.SEC_COMMIT.RESULT = 1 := by
  have hpending : ((((d.flashWrite w.addr w.data).setFld Reg.SEC_COMMIT.PENDING 1).commitShows 0 1)).fld Reg.SEC_COMMIT.PENDING = 1 :=
    ((Dev.commitShows_only _ 0 1).2 _ (by decide)).trans (Dev.fld_setFld_same _ _ _)
  have hresult := ((d.flashWrite w.addr w.data).setFld Reg.SEC_COMMIT.PENDING 1).fld_commitShows 0 1
  have hframe := (((d.flashWrite w.addr w.data).setFld Reg.SEC_COMMIT.PENDING 1).commitShows_only 0 1).1
  have hgen (a : Nat) : Reg.SEC_COMMIT.PENDING.key ≠ (Reg.SEC_ACT_GEN.GENERATION a).key ∧
      Reg.SEC_COMMIT.RESULT.key ≠ (Reg.SEC_ACT_GEN.GENERATION a).key := by
    simp only [Field.key, Reg.SEC_COMMIT.PENDING, Reg.SEC_COMMIT.RESULT, Reg.SEC_ACT_GEN.GENERATION]
    omega
  unfold Dev.commitDone
  dsimp only
  generalize ((d.flashWrite w.addr w.data).setFld Reg.SEC_COMMIT.PENDING 1).commitShows 0 1 = e at *
  cases w.act with
  | none => exact ⟨by rw [hframe]; rfl, hpending, hresult.1⟩
  | some a =>
    exact ⟨by rw [Dev.setFld_flash, hframe]; rfl, (Dev.fld_setFld_ne _ _ (hgen a).1).trans hpending,
      (Dev.fld_setFld_ne _ _ (hgen a).2).trans hresult.1⟩

theorem Dev.commitFails_shows (d : Dev) (w : FlashJob) : (d.commitFails w).fld Reg.SEC_COMMIT.RESULT = 3 ∧
    (w.act = none → (d.commitFails w).flash = (d.flashErase 0 1024).flash) ∧
    (∀ a, w.act = some a → (d.commitFails w).flash = (d.flashErase w.addr 4096).flash) := by
  unfold Dev.commitFails
  refine ⟨(Dev.fld_commitShows _ _ _).1, fun h => ?_, fun a h => ?_⟩
  · rw [h]
    rfl
  · rw [h]
    rfl

/-- The end of a commit's write, well or not. -/
theorem exec_flashWriteDone {w : FlashJob} {k : Nat × Nat} (ok : Bool) (hu : s.dev.up = true) (hj : s.dev.boot.flashJob = some w)
    (hk : w.desc = some k) : exec (.flashWriteDone ok) s = .next { s with
      dev := (if ok then Dev.commitDone { s.dev with boot := { s.dev.boot with flashJob := none } } w
        else Dev.commitFails { s.dev with boot := { s.dev.boot with flashJob := none } } w).finishKey k
          ⟨if ok then .done else .noResource, Detail.none⟩ } := by
  rw [exec, execFlashWriteDone]
  exact State.run_gives rfl (by simp [hu, hj, hk]) (by simp only [hj, hk]; rfl)

/-- Settles O52: each command's effect, with what a completion leaves of fields, memory and flash. -/
theorem securityCommands : Obligations.SecurityCommands := by
  unfold Obligations.SecurityCommands
  intro s
  refine ⟨fun r j hr h ho => ?actSelect, fun r j hr h ho hc => ?attest, fun k l j hu ha hj => ?attestComplete,
    fun r j hr h ho hc => ?fwStage, ?fwStageComplete, fun r j c hr h ho hb hst he hcause => ?fwCommit, fun w k hu hj hk => ⟨?written, ?failed⟩⟩
  case actSelect =>
    cases hc : s.dev.actSelectCheck j with
    | none =>
      refine ⟨_, h.run_actSelect hr ho hc, fun _ => ?_, fun x hx => absurd hx (by simp)⟩
      obtain ⟨hact, hvalid⟩ := (s.dev.popHead r).fld_actSelected j
      rw [Dev.fld_finish _ _ _ (by decide) (by decide), Dev.fld_finish _ _ _ (by decide) (by decide), Dev.finish_mem,
        (Dev.finish_secure _ _ _).2.2]
      refine ⟨hact, hvalid, ?_, ?_⟩
      · show (s.dev.popHead r).mem = s.dev.mem
        rw [Dev.popHead_frame]
      · show (s.dev.popHead r).flash = s.dev.flash
        rw [Dev.popHead_frame]
    | some x =>
      refine ⟨_, h.run_actSelect_refused hr ho hc, fun hx => absurd hx (by simp), fun y hy => ?_⟩
      rw [Option.some.inj hy]
  case attest =>
    rw [Gives, exec, execAttest, ringOk]
    refine (h.run_go hr (decide_eq_true ho) hc).trans ?_
    rw [Dev.popHead_frame]
  case attestComplete =>
    rw [Gives, exec, execAttestComplete]
    refine State.run_gives rfl (by simp [hu, ha]) ?_
    have hj' : Dev.desc? { s.dev with boot := { s.dev.boot with attests := l } } k = some j := hj
    simp only [ha, hj']
  case fwStage =>
    have hgo : exec (.fwStage r) s = .next { s with
        dev := if j.stageLen = 0 then (s.dev.popHead r).finish j ⟨.done, Detail.none⟩ else s.dev.popHead r } := by
      rw [exec, execFwStage, ringOk]
      exact h.run_go hr (decide_eq_true ho) hc
    exact ⟨fun hl => by rw [Gives, hgo, if_pos hl], fun hl => by rw [Gives, hgo, if_neg hl]⟩
  case fwStageComplete =>
    rintro r k j l x d hr hu hf hj rfl hl hp
    exact runs_fwStageComplete hr hu hf hj hl hp
  case fwCommit =>
    obtain ⟨q, m, hx⟩ := h.run_fwCommit hr ho hb hst he
    refine ⟨_, hx, ?_⟩
    exact Dev.commitGo_shows { s.dev with hq := q, met := m } _ c hcause.symm
  case written =>
    obtain ⟨hflash, hpending, hresult⟩ := Dev.commitDone_shows { s.dev with boot := { s.dev.boot with flashJob := none } } w
    refine ⟨_, exec_flashWriteDone true hu hj hk, rfl, ?_, ?_, ?_⟩
    · exact (Dev.finishKey_flash _ _ _).trans hflash
    · exact (Dev.fld_finishKey _ _ _ (by decide) (by decide)).trans hpending
    · exact (Dev.fld_finishKey _ _ _ (by decide) (by decide)).trans hresult
  case failed =>
    obtain ⟨hresult, himage, hact⟩ := Dev.commitFails_shows { s.dev with boot := { s.dev.boot with flashJob := none } } w
    refine ⟨_, exec_flashWriteDone false hu hj hk, rfl, fun hn => ?_, fun a ha => ?_, ?_⟩
    · exact (Dev.finishKey_flash _ _ _).trans (himage hn)
    · exact (Dev.finishKey_flash _ _ _).trans (hact a ha)
    · exact (Dev.fld_finishKey _ _ _ (by decide) (by decide)).trans hresult

end Sys2Proof.Machine
end

section
/-! # The management port

Settles O51. -/

namespace Sys2Proof.Machine

variable {d e : Dev} {s : State} {m : List Byte}

/-! ## A command by its outcome -/

section
variable (bad : Bool) (states : List DevState) (busy : Bool) (data : List Byte) (go : Dev → Dev)

theorem Dev.mgmtCmd_unsigned (h : d.mgmtTagOk m = false) :
    d.mgmtCmd m bad states busy data go = d.mgmtReject (leAt m 24 1) 0xFF := by
  simp [Dev.mgmtCmd, h]

/-- A command of another session, or whose number has been used, is answered REPLAY. -/
theorem Dev.mgmtCmd_replayed (h : d.mgmtTagOk m = true)
    (hr : leAt m 20 4 ≠ d.flt.session ∨ ∃ k, d.flt.lastCmd = some k ∧ leAt m 16 4 ≤ k) :
    d.mgmtCmd m bad states busy data go = (d.mgmtReply m 1 []).mgmtReject (leAt m 24 1) 1 := by
  have hst : d.mgmtStatus m bad states busy = 1 := by
    rcases hr with hr | ⟨k, hk, hle⟩
    · simp [Dev.mgmtStatus, hr]
    · simp [Dev.mgmtStatus, hk, hle]
  simp [Dev.mgmtCmd, h, hst]

end

/-- A command that is signed, of this session, new, and of the right length. -/
structure Dev.MgmtGood (d : Dev) (m : List Byte) : Prop where
  kind : leAt m 0 1 = 0x10
  signed : d.mgmtTagOk m = true
  session : leAt m 20 4 = d.flt.session
  length : m.length = 80
  reserved : leAt m 25 7 = 0
  fresh : ∀ n, d.flt.lastCmd = some n → n < leAt m 16 4

/-- The device that has noted the number of a command. -/
def Dev.cmdNoted (d : Dev) (m : List Byte) : Dev := { d with flt := { d.flt with lastCmd := some (leAt m 16 4) } }

section
variable (h : d.MgmtGood m)
include h

theorem Dev.MgmtGood.not_replayed : (leAt m 20 4 != d.flt.session || d.flt.lastCmd.any (fun n => leAt m 16 4 ≤ n)) = false := by
  rw [h.session, bne_self_eq_false, Bool.false_or]
  cases hl : d.flt.lastCmd with
  | none => rfl
  | some n => simpa using h.fresh n hl

variable {states : List DevState} (hst : d.inSt states = true) (data : List Byte) (go : Dev → Dev)
include hst

/-- A good command is answered, counted, and has its effect. -/
theorem Dev.mgmtCmd_obeyed {bad busy : Bool} (hbad : bad = false) (hbusy : busy = false) : d.mgmtCmd m bad states busy data go =
    go (((d.cmdNoted m).mgmtReply m 0 data).bumpSat Reg.FLT_MGMT_CMDS.ACCEPTED 1) := by
  have hstatus : d.mgmtStatus m bad states busy = 0 := by
    simp [Dev.mgmtStatus, h.not_replayed, hbad, hbusy, h.length, h.reserved, hst]
  simp [Dev.mgmtCmd, h.signed, hstatus, Dev.cmdNoted]

theorem Dev.mgmtCmd_busy {bad busy : Bool} (hbad : bad = false) (hbusy : busy = true) : d.mgmtCmd m bad states busy data go =
    ((d.cmdNoted m).mgmtReply m 4 []).mgmtReject (leAt m 24 1) 4 := by
  have hstatus : d.mgmtStatus m bad states busy = 4 := by
    simp [Dev.mgmtStatus, h.not_replayed, hbad, hbusy, h.length, h.reserved, hst]
  simp [Dev.mgmtCmd, h.signed, hstatus, Dev.cmdNoted]

end

/-- A message that is rejected is counted and recorded. -/
theorem Dev.mgmtReject_shows (d : Dev) (cmd st : Nat) : OnlyReports [Reg.FLT_MGMT_CMDS.REJECTED] d (d.mgmtReject cmd st) ∧
    (d.mgmtReject cmd st).fld Reg.FLT_MGMT_CMDS.REJECTED =
      min (2 ^ Reg.FLT_MGMT_CMDS.REJECTED.w - 1) (d.fld Reg.FLT_MGMT_CMDS.REJECTED + 1) := by
  constructor
  · exact OnlyReports.setFld_record d _ _ _ (by decide) (by decide)
  · rw [Dev.mgmtReject, Dev.fld_record _ _ (by decide) (by decide) (by decide), Dev.fld_bumpSat_same]

theorem leAt_lt (l : List Byte) (a n : Nat) : leAt l a n < 256 ^ n := by
  have h := leNat_lt (slice l a n)
  rwa [length_slice] at h

/-! ## The commands of the port -/

/-- A request placed for the driver, with vector 0. -/
def Dev.requestPlaced (d : Dev) (code a b : Nat) : Dev :=
  (((((d.setFld Reg.FLT_MGMT_REQ.CODE code).setFld Reg.FLT_MGMT_REQ.A a).setFld Reg.FLT_MGMT_REQ.B b).setFld
    Reg.FLT_MGMT_REQ.VALID 1).setFld Reg.GLB_STATE_CHANGE.REQUEST 1).msix 0

/-- The device enters RESET with an internal pulse. -/
def Dev.pulsed (d : Dev) : Dev := { d.enterReset true with boot := { (d.enterReset true).boot with pulse := true } }

section
variable (hserves : s.dev.mgmtServes = true)
include hserves

theorem Dev.mgmtServes_st : s.dev.st ≠ .reset := by
  intro h
  simp [Dev.mgmtServes, h] at hserves

section
variable (hkind : leAt m 0 1 = 0x10)
include hkind

theorem mgmtIs_of {p : Nat → Bool} (hp : p (leAt m 24 1) = true) : s.dev.mgmtIs m p = true := by
  simp [Dev.mgmtIs, hserves, hkind, hp]

theorem exec_getState (hc : leAt m 24 1 = 1) : exec (.getState m) s = .next { s with
    dev := s.dev.mgmtCmd m (leAt m 24 1 != 1) anyState false s.dev.stateData (fun d => d) } := by
  rw [exec, execGetState]
  exact State.run_gives rfl (mgmtIs_of hserves hkind (by rw [hc]; rfl)) rfl

theorem exec_getRecords (hc : leAt m 24 1 = 2) : exec (.getRecords m) s = .next { s with
    dev := s.dev.mgmtCmd m (leAt m 36 1 = 0 || 32 < leAt m 36 1) logStates false
      (recordsFrom s.dev.flt.logged (leAt m 32 4) (leAt m 36 1)) (fun d => d) } := by
  rw [exec, execGetRecords]
  exact State.run_gives rfl (mgmtIs_of hserves hkind (by rw [hc]; rfl)) rfl

theorem exec_getSuspects (hc : leAt m 24 1 = 3) : exec (.getSuspects m) s = .next { s with
    dev := s.dev.mgmtCmd m false logStates false ((List.range 64).map (fun i => leBytes 8 (s.dev.suspectWord i))).flatten (fun d => d) } := by
  rw [exec, execGetSuspects]
  exact State.run_gives rfl (mgmtIs_of hserves hkind (by rw [hc]; rfl)) rfl

theorem exec_setLost (hc : leAt m 24 1 = 4) : exec (.setLost m) s = .next { s with
    dev := s.dev.mgmtCmd m (1 < leAt m 34 1) [.ready, .running, .quiesced] false [] (fun d =>
      if leAt m 34 1 = 1 then d.setLost (leAt m 32 2) else d.markLost (leAt m 32 2) false) } := by
  rw [exec, execSetLost]
  exact State.run_gives rfl (mgmtIs_of hserves hkind (by rw [hc]; rfl)) rfl

theorem exec_request (hc : leAt m 24 1 = 5) : exec (.request m) s = .next { s with
    dev := s.dev.mgmtCmd m (leAt m 32 1 = 0 || 6 < leAt m 32 1) [.ready, .running, .quiesced] (s.dev.on Reg.FLT_MGMT_REQ.VALID) []
      (fun d => d.requestPlaced (leAt m 32 1) (leAt m 34 2) (leAt m 36 2)) } := by
  rw [exec, execRequest]
  exact State.run_gives rfl (mgmtIs_of hserves hkind (by rw [hc]; rfl)) rfl

theorem exec_mgmtReset (hc : leAt m 24 1 = 6) :
    exec (.mgmtReset m) s = .next { s with
      dev := s.dev.mgmtCmd m false anyState (s.dev.boot.flashJob.isSome || s.dev.boot.rcvJob) [] Dev.pulsed } := by
  rw [exec, execMgmtReset]
  exact State.run_gives rfl (mgmtIs_of hserves hkind (by rw [hc]; rfl)) rfl

end

end

theorem Dev.answered_keeps (d : Dev) (m : List Byte) :
    (((d.cmdNoted m).mgmtReply m 0 []).bumpSat Reg.FLT_MGMT_CMDS.ACCEPTED 1).mem = d.mem ∧
    (((d.cmdNoted m).mgmtReply m 0 []).bumpSat Reg.FLT_MGMT_CMDS.ACCEPTED 1).cores = d.cores := ⟨rfl, rfl⟩

theorem Dev.requestPlaced_shows (d : Dev) {code a b : Nat} (hc : code ≤ 6) (ha : a < 2 ^ 16) (hb : b < 2 ^ 16) :
    (d.requestPlaced code a b).fld Reg.FLT_MGMT_REQ.VALID = 1 ∧ (d.requestPlaced code a b).fld Reg.FLT_MGMT_REQ.CODE = code ∧
    (d.requestPlaced code a b).fld Reg.FLT_MGMT_REQ.A = a ∧ (d.requestPlaced code a b).fld Reg.FLT_MGMT_REQ.B = b ∧
    (d.requestPlaced code a b).mem = d.mem ∧ (d.requestPlaced code a b).cores = d.cores := by
  have hcode : code < 2 ^ Reg.FLT_MGMT_REQ.CODE.w := Nat.lt_of_le_of_lt hc (by decide)
  unfold Dev.requestPlaced
  refine ⟨?_, ?_, ?_, ?_, rfl, rfl⟩
  · rw [Dev.fld_msix, Dev.fld_setFld_ne _ _ (by decide), Dev.fld_setFld_same]
    rfl
  · rw [Dev.fld_msix, Dev.fld_setFld_ne _ _ (by decide), Dev.fld_setFld_ne _ _ (by decide), Dev.fld_setFld_ne _ _ (by decide),
      Dev.fld_setFld_ne _ _ (by decide), Dev.fld_setFld_same, Nat.mod_eq_of_lt hcode]
  · rw [Dev.fld_msix, Dev.fld_setFld_ne _ _ (by decide), Dev.fld_setFld_ne _ _ (by decide), Dev.fld_setFld_ne _ _ (by decide),
      Dev.fld_setFld_same]
    exact Nat.mod_eq_of_lt ha
  · rw [Dev.fld_msix, Dev.fld_setFld_ne _ _ (by decide), Dev.fld_setFld_ne _ _ (by decide), Dev.fld_setFld_same]
    exact Nat.mod_eq_of_lt hb

/-- Each command of the port is one `mgmtCmd`, whatever becomes of it. -/
theorem exec_mgmtCmd {c : Instr} {n : Nat} (hserves : s.dev.mgmtServes = true) (hkind : leAt m 0 1 = 0x10) (hn : leAt m 24 1 = n)
    (hc : (c, n) ∈ [(Instr.getState m, 1), (.getRecords m, 2), (.getSuspects m, 3), (.setLost m, 4), (.request m, 5), (.mgmtReset m, 6)]) :
    ∃ bad states busy data go, exec c s = .next { s with dev := s.dev.mgmtCmd m bad states busy data go } := by
  simp only [List.mem_cons, Prod.mk.injEq, List.not_mem_nil, or_false] at hc
  rcases hc with ⟨rfl, rfl⟩ | ⟨rfl, rfl⟩ | ⟨rfl, rfl⟩ | ⟨rfl, rfl⟩ | ⟨rfl, rfl⟩ | ⟨rfl, rfl⟩
  · exact ⟨_, _, _, _, _, exec_getState hserves hkind hn⟩
  · exact ⟨_, _, _, _, _, exec_getRecords hserves hkind hn⟩
  · exact ⟨_, _, _, _, _, exec_getSuspects hserves hkind hn⟩
  · exact ⟨_, _, _, _, _, exec_setLost hserves hkind hn⟩
  · exact ⟨_, _, _, _, _, exec_request hserves hkind hn⟩
  · exact ⟨_, _, _, _, _, exec_mgmtReset hserves hkind hn⟩

theorem inSt_anyState (h : d.st ≠ .reset) : d.inSt anyState = true := by
  cases hs : d.st <;> simp_all [Dev.inSt, anyState]

/-- Settles O51: the outcomes of a command, then the reports and the link. -/
theorem managementPort : Obligations.ManagementPort := by
  unfold Obligations.ManagementPort
  refine ⟨fun s m hserves => ⟨fun c n hmem hkind hn => ⟨fun ht => ?unsigned, fun ht hr => ?replayed⟩, ?good, fun hk ht => ?ack, fun hdue => ?resend⟩,
    fun s hst => ⟨fun hon => ?up, fun hl => ?down, fun hv => ?take⟩⟩
  case unsigned =>
    obtain ⟨bad, states, busy, data, go, hx⟩ := exec_mgmtCmd hserves hkind hn hmem
    refine ⟨_, hx, ?_⟩
    rw [Dev.mgmtCmd_unsigned bad states busy data go ht]
    exact s.dev.mgmtReject_shows _ _
  case replayed =>
    obtain ⟨bad, states, busy, data, go, hx⟩ := exec_mgmtCmd hserves hkind hn hmem
    rw [Gives, hx, Dev.mgmtCmd_replayed bad states busy data go ht hr, hn]
  case good =>
    rintro d hkind ht hses hlen hres hnew rfl
    have hg : s.dev.MgmtGood m := ⟨hkind, ht, hses, hlen, hres, hnew⟩
    have hany : s.dev.inSt anyState = true := inSt_anyState (Dev.mgmtServes_st hserves)
    refine ⟨fun hc => ?getState, fun hc h0 h32 hst => ?getRecords, fun hc hst => ?getSuspects, fun hc hup => ?setLost,
      fun hc hup h0 h6 => ?request, fun hc hjob hrcv => ?reset⟩
    case getState =>
      rw [Gives, exec_getState hserves hkind hc, Dev.mgmtCmd_obeyed hg hany _ _ (by rw [hc]; rfl) rfl]
      rfl
    case getRecords =>
      rw [Gives, exec_getRecords hserves hkind hc, Dev.mgmtCmd_obeyed hg (states := logStates) hst _ _ (by simp [h0, h32]) rfl]
      rfl
    case getSuspects =>
      rw [Gives, exec_getSuspects hserves hkind hc, Dev.mgmtCmd_obeyed hg (states := logStates) hst _ _ rfl rfl]
      rfl
    case setLost =>
      constructor
      · intro h1
        rw [Gives, exec_setLost hserves hkind hc, Dev.mgmtCmd_obeyed hg hup _ _ (by rw [h1]; rfl) rfl, if_pos h1]
        rfl
      · intro h1
        rw [Gives, exec_setLost hserves hkind hc, Dev.mgmtCmd_obeyed hg hup _ _ (by rw [h1]; rfl) rfl, if_neg (by rw [h1]; decide)]
        rfl
    case request =>
      have hbad : (decide (leAt m 32 1 = 0) || decide (6 < leAt m 32 1)) = false := by simp [h0, h6]
      refine ⟨fun hv => ?_, fun hv => ?_⟩
      · have hx := exec_request hserves hkind hc
        rw [Dev.mgmtCmd_obeyed hg hup _ _ hbad (by simp [Dev.on, hv])] at hx
        obtain ⟨hmem, hcores⟩ := s.dev.answered_keeps m
        refine ⟨by rw [Gives, hx]; rfl, _, hx, ?_⟩
        generalize ((s.dev.cmdNoted m).mgmtReply m 0 []).bumpSat Reg.FLT_MGMT_CMDS.ACCEPTED 1 = e at *
        obtain ⟨hvalid, hcode, ha, hb, hmem', hcores'⟩ := e.requestPlaced_shows h6 (leAt_lt m 34 2) (leAt_lt m 36 2)
        exact ⟨hvalid, hcode, ha, hb, hmem'.trans hmem, hcores'.trans hcores⟩
      · rw [Gives, exec_request hserves hkind hc, Dev.mgmtCmd_busy hg hup _ _ hbad (by simp [Dev.on, hv]), hc]
        rfl
    case reset =>
      have hx := exec_mgmtReset hserves hkind hc
      rw [Dev.mgmtCmd_obeyed hg hany _ _ rfl (by simp [hjob, hrcv])] at hx
      exact ⟨_, hx, (Dev.enterReset_inResetOf _ _).st, rfl⟩
  case ack =>
    rw [Gives, exec, execReportAck]
    exact State.run_gives rfl (by simp [hserves, hk]) (by simp only [ht]; rfl)
  case resend =>
    rw [Gives, exec, execReportResend]
    exact State.run_gives rfl (by rw [hserves, hdue]; rfl) rfl
  case up =>
    rw [Gives, exec, execMgmtLinkUp]
    exact State.run_gives rfl (by simp [hst, hon]) rfl
  case down =>
    rw [Gives, exec, execMgmtLinkDown]
    exact State.run_gives rfl ((s.dev.on_iff _).mpr hl) rfl
  case take =>
    rw [Gives, exec, execMgmtReqTake]
    exact State.run_gives rfl (by rw [(s.dev.on_iff _).mpr hv, Bool.and_true]; exact inSt_anyState hst) rfl

end Sys2Proof.Machine
end

section
/-! # Posting of collectives and groups

Settles O53. -/

namespace Sys2Proof.Machine

variable {s : State} {d : Dev} {r : Nat} {j : Desc}

/-! ## How a COLL starts -/

/-- Each command of a COLL is due for its own KIND, and starts its descriptor as every other does. -/
theorem exec_coll {c : Instr}
    (hc : (c, true) ∈ [(Instr.collAllReduce r, decide (j.kind = 0)), (.collReduceScatter r, decide (j.kind = 1)),
      (.collAllGather r, decide (j.kind = 2)), (.collBroadcast r, decide (j.kind = 3)), (.collReduce r, decide (4 ≤ j.kind))]) :
    ∃ p : Nat → Bool, p j.kind = true ∧
      exec c s = s.run (ringOk r) (s.dev.collDue r p) (fun d => d.startDesc r Dev.collCheck Dev.startColl) := by
  simp only [List.mem_cons, Prod.mk.injEq, List.not_mem_nil, or_false] at hc
  rcases hc with ⟨rfl, hk⟩ | ⟨rfl, hk⟩ | ⟨rfl, hk⟩ | ⟨rfl, hk⟩ | ⟨rfl, hk⟩ <;> exact ⟨_, hk.symm, rfl⟩

/-- A COLL that is refused while a step runs marks the step failed. -/
theorem Dev.refuse_coll_failed (d : Dev) {x : Ending} (ho : j.opc = 0x30) (hst : d.st = .running) : (d.refuse j x).stp.failed = true := by
  have hmark : d.refuse j x = (d.markStep true).finish j x := by simp [Dev.refuse, ho, hst]
  rw [hmark, Dev.finish_stp]
  exact Bool.or_true _

/-- Lists that can be read and hold good entries give the buffers of a COLL. -/
theorem Dev.startColl_lists {send recv : List (List Byte)} (hs : d.collList j 32 true = .inr send) (hr : d.collList j 40 false = .inr recv)
    (hsok : d.listOk j true (j.num 48 4) send = true) (hrok : d.listOk j false (j.num 52 4) recv = true) :
    d.startColl j = d.postBufs j (d.collBufs j 32 true (j.num 48 4) send) (d.collBufs j 40 false j.recvElems recv) := by
  simp [Dev.startColl, hs, hr, hsok, hrok]

/-! ## Posting -/

/-- Buffers that are memory and do not overlap. -/
theorem Dev.postBufs_good {send recv : List (Nat × Nat)}
    (hs : (d.collOf j send recv).sendRanges.all (fun q => q.2 = 0 || memRange q.1 q.2) = true)
    (hr : (d.collOf j send recv).recvRanges.all (fun q => q.2 = 0 || memRange q.1 q.2) = true)
    (hov : ∀ q ∈ (d.collOf j send recv).sendRanges, ∀ w ∈ (d.collOf j send recv).recvRanges, overlaps q.1 q.2 w.1 w.2 = false) :
    d.postBufs j send recv = d.post (d.collOf j send recv) := by
  have hmem (l : List (Nat × Nat)) (h : l.all (fun q => q.2 = 0 || memRange q.1 q.2) = true) :
      l.any (fun q => q.2 != 0 && !memRange q.1 q.2) = false := by
    simp only [List.all_eq_true, List.any_eq_false] at h ⊢
    intro q hq
    have := h q hq
    revert this
    cases memRange q.1 q.2 <;> simp
  have hno : (d.collOf j send recv).sendRanges.any (fun q => (d.collOf j send recv).recvRanges.any
      (fun w => overlaps q.1 q.2 w.1 w.2)) = false := by
    simp only [List.any_eq_false, List.any_eq_true, not_exists, not_and]
    exact fun q hq w hw => by simp [hov q hq w hw]
  simp [Dev.postBufs, hmem _ hs, hmem _ hr, hno]

/-- No packet that is held concerns a tag that none of them names. -/
theorem heldFor_eq_nil {tag : Nat} {early : List Early} (h : ∀ e ∈ early, leAt e.pkt.payload 0 4 ≠ tag) :
    (early.map (·.pkt)).filter (fun p => (p.op = 0x20 && leAt p.payload 0 4 = tag) || noticeFor tag p) = [] := by
  simp only [List.filter_eq_nil_iff, List.mem_map]
  rintro p ⟨e, he, rfl⟩
  simp [noticeFor, h e he]

/-- A collective that nothing held concerns and whose members can be reached waits behind those before it. -/
theorem Dev.post_waits (x : Coll) (hu : x.update = false) (hlost : x.members.find? (fun i => d.on (Reg.FAB_ROUTE.LOST i)) = none)
    (hheld : ∀ e ∈ d.car.early, leAt e.pkt.payload 0 4 ≠ x.tag) : d.post x = { d with car := { d.car with
      colls := d.car.colls ++ [{ x with recs := [(x.rank, (x.count, x.cap, x.digest))] }]
      done := d.car.done.filter (· != x.tag)
      early := d.car.early.filter (fun e => !([] : List Packet).contains e.pkt) } } := by
  have hlost' (c : Car) : x.members.find? (fun i => ({ d with car := c } : Dev).on (Reg.FAB_ROUTE.LOST i)) = none := hlost
  have hu' : ({ x with recs := Tab.insert [] x.rank (x.count, x.cap, x.digest) } : Coll).update = false := hu
  simp only [Dev.post, heldFor_eq_nil hheld, List.filter_nil, List.map_nil, List.foldl_nil, hlost', hu', Bool.not_false, if_true]
  rfl

/-! ## Groups -/

theorem Dev.group_setGroup (d : Dev) (g : Nat) (l : List Nat) :
    (d.setGroup g l).group g = l ∧ ∀ i, i ≠ g → (d.setGroup g l).group i = d.group i :=
  ⟨Tab.get_set_same [] d.car.groups g l, fun _ hi => Tab.get_set_ne [] d.car.groups l hi⟩

theorem Dev.finish_car (d : Dev) (j : Desc) (x : Ending) : (d.finish j x).car = d.car := by rw [Dev.finish_frame]

theorem Dev.popHead_car (d : Dev) (r : Nat) : (d.popHead r).car = d.car := by rw [Dev.popHead_frame]

theorem Dev.group_of_car {e : Dev} (h : e.car = d.car) (g : Nat) : e.group g = d.group g := by rw [Dev.group, h, Dev.group]

/-- A group entry that is changed as its descriptor completes. -/
theorem Dev.setGroup_finish (d : Dev) (r g : Nat) (l : List Nat) (x : Ending) {e : Dev} (he : e = ((d.popHead r).setGroup g l).finish j x) :
    e.group g = l ∧ (∀ i, i ≠ g → e.group i = d.group i) ∧ e.car.colls = d.car.colls ∧ e.mem = d.mem := by
  subst he
  have hcar := Dev.finish_car ((d.popHead r).setGroup g l) j x
  have hpop := Dev.popHead_car d r
  obtain ⟨hsame, hother⟩ := (d.popHead r).group_setGroup g l
  refine ⟨(Dev.group_of_car hcar g).trans hsame,
    fun i hi => (Dev.group_of_car hcar i).trans ((hother i hi).trans (Dev.group_of_car hpop i)), ?_, ?_⟩
  · rw [hcar]
    change (d.popHead r).car.colls = d.car.colls
    rw [hpop]
  · rw [Dev.finish_mem]
    change (d.popHead r).mem = d.mem
    rw [Dev.popHead_frame]

/-- The members that a list of n flat IDs names. -/
def listedIds (n : Nat) (l : List Byte) : List Nat := (List.range n).map (fun i => leAt l (2 * i) 2)

section
variable {l : List Byte} (hd : j.deletes = false) (hl : ∀ go : Dev → List Byte → Dev, d.withList j 32 (2 * j.num 28 4) go = go d l)
include hd hl

theorem Dev.startGroup_defines (h1 : (listedIds (j.num 28 4) l).count d.selfId = 1)
    (hroom : d.groupUsed (j.num 24 2) + (listedIds (j.num 28 4) l).length ≤ 1048576) :
    d.startGroup j = (d.setGroup (j.num 24 2) (listedIds (j.num 28 4) l)).finish j ⟨.done, Detail.none⟩ := by
  rw [listedIds] at h1 hroom ⊢
  simp only [Dev.startGroup, hd, hl, h1, Nat.not_lt.mpr hroom, bne_self_eq_false, Bool.false_eq_true, if_false, Ending.plain]

theorem Dev.startGroup_badList (h1 : (listedIds (j.num 28 4) l).count d.selfId ≠ 1) :
    d.startGroup j = d.finish j ⟨.badField, { Detail.none with fieldByte := 32 }⟩ := by
  rw [listedIds] at h1
  simp only [Dev.startGroup, hd, hl, bne_iff_ne, ne_eq, h1, not_false_eq_true, Bool.false_eq_true, if_false, if_true]
  rfl

end

theorem Dev.startGroup_deletes (h : j.deletes = true) :
    d.startGroup j = (d.setGroup (j.num 24 2) []).finish j ⟨.done, Detail.none⟩ := by
  simp only [Dev.startGroup, h, if_true, Ending.plain]

/-- What COLL_GROUP asks of the device does not depend on the head that was taken. -/
theorem Dev.popHead_groups (d : Dev) (r g : Nat) : (d.popHead r).groupUsed g = d.groupUsed g ∧ (d.popHead r).selfId = d.selfId := by
  obtain ⟨q, m, h⟩ := d.popHead_shape r
  rw [h]
  exact ⟨rfl, rfl⟩

/-- Settles O53: a COLL starts by its lists and its buffers, a collective waits for its slot behind those before it, and a group's
entry is the only one that its descriptor changes. -/
theorem collectivePosting : Obligations.CollectivePosting := by
  unfold Obligations.CollectivePosting
  intro s
  refine ⟨fun r j c d hr h ho hd hc => ?start, ?buffers, ?posted, fun i c hup hi hn => ?slot, fun r j hr h ho hc => ?group⟩
  case start =>
    subst hd
    obtain ⟨p, hp, hexec⟩ := exec_coll (s := s) hc
    have hdue : (decide (j.opc = 0x30) && p j.kind) = true := by rw [ho, hp]; rfl
    refine ⟨fun e he => ⟨hexec.trans (h.run_refuse hr hdue he), fun hst => ?_⟩, fun send recv hchk hs hv hsok hrok => ?_⟩
    · exact Dev.refuse_coll_failed _ ho ((congrArg Dev.st (s.dev.popHead_frame r)).trans hst)
    · rw [Gives, hexec]
      exact (h.run_go hr hdue hchk).trans (by rw [Dev.startColl_lists hs hv hsok hrok])
  case buffers =>
    rintro j x send recv rfl hs hr hov
    exact Dev.postBufs_good hs hr hov
  case posted =>
    intro x hu hlost hheld
    rw [Dev.post_waits x hu hlost hheld]
    exact ⟨rfl, rfl, rfl⟩
  case slot =>
    rw [Gives, exec, execCollSlotAssign]
    exact State.run_gives rfl (by simp [hup, hi, hn]) (by simp only [hi, hn])
  case group =>
    obtain ⟨hused, hself⟩ := s.dev.popHead_groups r (j.num 24 2)
    refine ⟨fun hdel => ?_, fun l ids hdel hl hids => ?_⟩
    · refine ⟨_, h.run_go hr (by simp [ho, hdel]) hc, ?_⟩
      exact s.dev.setGroup_finish r _ _ _ (Dev.startGroup_deletes hdel)
    · replace hids : ids = listedIds (j.num 28 4) l := hids
      subst hids
      have hgo := h.run_go (p := fun j => decide (j.opc = 0x31) && !j.deletes) (go := Dev.startGroup) hr (by simp [ho, hdel]) hc
      refine ⟨fun h1 hroom => ⟨_, hgo, ?_⟩, fun h1 => ⟨_, hgo, ?_⟩⟩
      · obtain ⟨hg, hother, -, hmem⟩ := s.dev.setGroup_finish r _ _ _
          (Dev.startGroup_defines hdel hl (by rw [hself]; exact h1) (by rw [hused]; exact hroom))
        exact ⟨hg, hother, hmem⟩
      · rw [Dev.startGroup_badList hdel hl (by rw [hself]; exact h1)]
        exact ⟨fun g => (Dev.group_of_car (Dev.finish_car _ _ _) g).trans (Dev.group_of_car (Dev.popHead_car _ _) g), rfl⟩

end Sys2Proof.Machine
end

section
/-! # Packets of collectives, their watchdog and their notices

Settles O54. -/

namespace Sys2Proof.Machine

variable {s : State} {d : Dev} {p : Packet} {c : Coll} {x : InXfer}

/-! ## The count exchange -/

theorem gives_exchangeAck (h : s.dev.takes p 3 0x21 = true)
    (hd : d = { s.dev.take p with car := { s.dev.car with sends := s.dev.car.sends.filter (fun x => !answers p x) } }) :
    (∀ c, d.collTag (leAt p.payload 0 4) = some c → Gives (.exchangeAck p) s (d.modColl c.key (fun c => { c with last := s.dev.clk }))) ∧
    (d.collTag (leAt p.payload 0 4) = none → Gives (.exchangeAck p) s d) := by
  have hexec : exec (.exchangeAck p) s = .next { s with dev := match d.collTag (leAt p.payload 0 4) with
      | some c => d.progress c
      | none => d } := by
    subst hd
    rw [exec, execExchangeAck]
    exact State.run_gives rfl h rfl
  have hclk : d.clk = s.dev.clk := by subst hd; rfl
  refine ⟨fun c hc => ?found, fun hc => ?absent⟩
  case found => rw [Gives, hexec, hc, ← hclk]; rfl
  case absent => rw [Gives, hexec, hc]

/-! ## Data packets and the ends of chunks -/

/-- A data packet of a transfer here is taken where it goes on from what has come and stays within what is granted. -/
theorem exec_carouselData (h : s.dev.takes p 2 0x10 = true) (hd : d = s.dev.take p) (hc : d.collLow p.tag = some c)
    (hx : c.inFrom (bits p.da 32 8) p.src = some x) : exec (.carouselData p) s = .next { s with
      dev := if p.da % 2 ^ 32 = x.got && x.got + p.payload.length ≤ x.limit then
        (d.modColl c.key (fun c => c.modIn x.round (fun x => { x with bytes := x.bytes ++ p.payload }))).progress c
      else d.progress c } := by
  subst hd
  rw [exec, execCarouselData]
  exact State.run_gives rfl h (by simp only [hc, hx])

theorem gives_carouselData (h : s.dev.takes p 2 0x10 = true) (hd : d = s.dev.take p) (hc : d.collLow p.tag = some c)
    (hx : c.inFrom (bits p.da 32 8) p.src = some x) :
    (p.da % 2 ^ 32 = x.got → x.got + p.payload.length ≤ x.limit → Gives (.carouselData p) s
      ((d.modColl c.key (fun c => c.modIn x.round (fun x => { x with bytes := x.bytes ++ p.payload }))).progress c)) ∧
    (p.da % 2 ^ 32 ≠ x.got ∨ x.limit < x.got + p.payload.length → Gives (.carouselData p) s (d.progress c)) := by
  have hexec := exec_carouselData h hd hc hx
  refine ⟨fun hnext hroom => ?_, fun hbad => ?_⟩
  · exact hexec.trans (by rw [if_pos (Bool.and_eq_true_iff.mpr ⟨decide_eq_true hnext, decide_eq_true hroom⟩)])
  · have hnot : ¬ (decide (p.da % 2 ^ 32 = x.got) && decide (x.got + p.payload.length ≤ x.limit)) = true := by
      simp only [Bool.and_eq_true, decide_eq_true_eq]
      omega
    exact hexec.trans (by rw [if_neg hnot])

/-- The scale bytes that the end of a chunk carries. -/
def chunkScales (p : Packet) : List Byte := if bit (leAt p.payload 5 1) 0 then p.payload.drop 16 else []

/-- The end of the granted chunk that comes in now is judged by its CRC, its length and the adders. -/
theorem exec_chunkEnd {a : Bool} (h : s.dev.takes p 2 0x11 = true) (hd : d = s.dev.take p)
    (hc : d.collTag (leAt p.payload 0 4) = some c) (hx : c.inFrom (leAt p.payload 4 1) p.src = some x)
    (hnow : leAt p.payload 8 4 = x.now) (hgr : leAt p.payload 8 4 < x.granted) : exec (.chunkEnd p a) s = .next { s with
      dev := if crc32c (x.nextBytes ++ chunkScales p) != leAt p.payload 12 4 || x.nextBytes.isEmpty ||
          segLeft x.chunks (leAt p.payload 8 4) < x.nextBytes.length then
        (d.progress c).crcFail c (leAt p.payload 4 1) (leAt p.payload 8 4)
      else if a && c.wired (leAt p.payload 4 1) then (d.progress c).adderFail c (leAt p.payload 4 1) (leAt p.payload 8 4)
      else ((d.progress c).modColl c.key (fun c => c.chunkIn x (chunkScales p))).pumpColl c.key } := by
  subst hd
  have hdue : (leAt p.payload 8 4 != x.now || decide (x.granted ≤ leAt p.payload 8 4)) = false := by
    rw [Bool.or_eq_false_iff]
    exact ⟨by rw [hnow, bne_self_eq_false], decide_eq_false (Nat.not_le.mpr hgr)⟩
  rw [exec, execChunkEnd]
  refine State.run_gives rfl h ?_
  simp only [hc, hx, hdue, Bool.false_eq_true, if_false]
  rfl

theorem gives_chunkEnd (h : s.dev.takes p 2 0x11 = true) (hd : d = s.dev.take p)
    (hc : d.collTag (leAt p.payload 0 4) = some c) (hx : c.inFrom (leAt p.payload 4 1) p.src = some x)
    (hnow : leAt p.payload 8 4 = x.now) (hgr : leAt p.payload 8 4 < x.granted) :
    (crc32c (x.nextBytes ++ chunkScales p) = leAt p.payload 12 4 → x.nextBytes ≠ [] →
      x.nextBytes.length ≤ segLeft x.chunks (leAt p.payload 8 4) →
      Gives (.chunkEnd p false) s (((d.progress c).modColl c.key (fun c => c.chunkIn x (chunkScales p))).pumpColl c.key) ∧
      (c.wired (leAt p.payload 4 1) = true → Gives (.chunkEnd p true) s
        ((d.progress c).adderFail c (leAt p.payload 4 1) (leAt p.payload 8 4)))) ∧
    (crc32c (x.nextBytes ++ chunkScales p) ≠ leAt p.payload 12 4 → ∀ a, Gives (.chunkEnd p a) s
      ((d.progress c).crcFail c (leAt p.payload 4 1) (leAt p.payload 8 4))) := by
  have hexec (a : Bool) := exec_chunkEnd (a := a) h hd hc hx hnow hgr
  refine ⟨fun hcrc hne hlen => ?_, fun hcrc a => ?_⟩
  · have hgood : ¬ (crc32c (x.nextBytes ++ chunkScales p) != leAt p.payload 12 4 || x.nextBytes.isEmpty ||
        decide (segLeft x.chunks (leAt p.payload 8 4) < x.nextBytes.length)) = true := by
      simp [hcrc, hne, hlen]
    refine ⟨(hexec false).trans ?_, fun hw => (hexec true).trans ?_⟩
    · rw [if_neg hgood, if_neg (by simp)]
    · rw [if_neg hgood, if_pos (by simp [hw])]
  · exact (hexec a).trans (by rw [if_pos (by simp [hcrc])])

/-! ## Grants -/

/-- A grant for a collective here that has its slot. -/
theorem exec_grant (h : s.dev.takes p 2 0x12 = true) (hd : d = s.dev.take p)
    (hc : d.collTag (leAt p.payload 0 4) = some c) (hslot : c.slot ≠ none) : exec (.grant p) s = .next { s with
      dev := if c.data then
        ((d.progress c).modColl c.key (fun c' => { c' with outs := c'.outs.map (fun o =>
          if o.round = leAt p.payload 4 1 && o.dst = rankIn p.src c.members then o.grant (leAt p.payload 8 4) else o) })).pumpColl c.key
      else (d.progress c).modColl c.key (fun x => x.earlyGrant (leAt p.payload 4 1) (rankIn p.src c.members) (leAt p.payload 8 4)) } := by
  subst hd
  have hs : c.slot.isNone = false := Option.isNone_eq_false_iff.mpr (Option.isSome_iff_ne_none.mpr hslot)
  rw [exec, execGrant]
  exact State.run_gives rfl h (by simp only [hc, hs, Bool.false_eq_true, if_false])

theorem gives_grant_unknown (h : s.dev.takes p 2 0x12 = true) (hc : (s.dev.take p).collTag (leAt p.payload 0 4) = none) :
    Gives (.grant p) s (s.dev.take p) := by
  rw [Gives, exec, execGrant]
  exact State.run_gives rfl h (by simp only [hc])

/-! ## Notices -/

/-- A poison notice seen before is only taken; a new one is relayed, marks the step that runs and ends its collective. -/
theorem exec_poisonNotice (h : s.dev.takes p 3 0x22 = true) (hd : d = s.dev.take p) : exec (.poisonNotice p) s = .next { s with
    dev := if d.car.seen.contains (0x22, p.payload) then d
      else ((d.relayNotice p).markStep ((d.relayNotice p).st = .running)).applyNotice p } := by
  subst hd
  rw [exec, execPoisonNotice]
  exact State.run_gives rfl h rfl

theorem exec_abortNotice (h : s.dev.takes p 3 0x23 = true) (hd : d = s.dev.take p) : exec (.abortNotice p) s = .next { s with
    dev := if d.car.seen.contains (0x23, p.payload) then d else (d.relayNotice p).applyNotice p } := by
  subst hd
  rw [exec, execAbortNotice]
  exact State.run_gives rfl h rfl

theorem gives_poisonNotice (h : s.dev.takes p 3 0x22 = true) (hd : d = s.dev.take p) :
    (d.car.seen.contains (0x22, p.payload) = true → Gives (.poisonNotice p) s d) ∧
    (d.car.seen.contains (0x22, p.payload) = false →
      Gives (.poisonNotice p) s (((d.relayNotice p).markStep ((d.relayNotice p).st = .running)).applyNotice p)) := by
  have hexec := exec_poisonNotice h hd
  exact ⟨fun hs => hexec.trans (by rw [if_pos hs]), fun hs => hexec.trans (by rw [if_neg (by rw [hs]; exact Bool.false_ne_true)])⟩

theorem gives_abortNotice (h : s.dev.takes p 3 0x23 = true) (hd : d = s.dev.take p) :
    (d.car.seen.contains (0x23, p.payload) = true → Gives (.abortNotice p) s d) ∧
    (d.car.seen.contains (0x23, p.payload) = false → Gives (.abortNotice p) s ((d.relayNotice p).applyNotice p)) := by
  have hexec := exec_abortNotice h hd
  exact ⟨fun hs => hexec.trans (by rw [if_pos hs]), fun hs => hexec.trans (by rw [if_neg (by rw [hs]; exact Bool.false_ne_true)])⟩

theorem Dev.applyNotice_poison (hc : d.collTag (leAt p.payload 0 4) = some c) (hop : p.op = 0x22) :
    d.applyNotice p = d.finishColl c ⟨.poisoned, Detail.auxed (leAt p.payload 0 4)⟩ := by
  simp [Dev.applyNotice, hc, noticeEnd, hop]

/-! ## The watchdog and the early entries -/

theorem gives_collWatchdog {r k : Nat} (hr : r < 16) (hup : s.dev.up = true) (hc : s.dev.coll? (r, k) = some c)
    (hover : c.last + s.dev.watchdog ≤ s.dev.clk) : Gives (.collWatchdog r k) s
      ((s.dev.record (s.dev.timeoutRecord c)).abortColl c 0 0xFFFF ⟨.timeout, Detail.auxed c.tag⟩) := by
  rw [Gives, exec, execCollWatchdog]
  exact State.run_gives (decide_eq_true hr) (by simp [hup, hc, Dev.watchdogOver, hover]) (by simp only [hc])

theorem gives_earlyEntryExpire {e : Early} (hup : s.dev.up = true) (he : e ∈ s.dev.car.early)
    (hold : e.time + 2 * s.dev.watchdog ≤ s.dev.clk) : Gives .earlyEntryExpire s
      { s.dev with car := { s.dev.car with early := s.dev.car.early.filter (fun e => !(e.time + 2 * s.dev.watchdog ≤ s.dev.clk)) } } := by
  have hany : s.dev.car.early.any (fun e => e.time + 2 * s.dev.watchdog ≤ s.dev.clk) = true :=
    List.any_eq_true.mpr ⟨e, he, decide_eq_true hold⟩
  rw [Gives, exec, execEarlyEntryExpire]
  exact State.run_gives rfl (by rw [hup, hany]; rfl) rfl

/-- Settles O54, packet by packet: each command takes its packet, and the branch of the collective it names is the one that the
hypotheses of the clause select. -/
theorem collectiveTraffic : Obligations.CollectiveTraffic := by
  unfold Obligations.CollectiveTraffic
  intro s
  refine ⟨fun p h => ?exchange, fun p d h hd => gives_exchangeAck h hd, fun hlive hany => ?resend,
    fun p d c x h hd hc hx => gives_carouselData h hd hc hx, ?chunk, fun p h hc => gives_grant_unknown h hc, ?grant, ?notices,
    fun p c hc hop => Dev.applyNotice_poison hc hop, fun r k c hr hup hc hover => gives_collWatchdog hr hup hc hover,
    fun e hup he hold => gives_earlyEntryExpire hup he hold⟩
  case exchange =>
    rw [Gives, exec, execExchangePacket]
    exact State.run_gives rfl h rfl
  case resend =>
    rw [Gives, exec, execExchangeResend]
    refine State.run_gives rfl (by rw [hlive]; exact hany) ?_
    have hdue : s.dev.exDue = fun x => decide (x.at' + us 20 ≤ s.dev.clk) := rfl
    simp only [hdue, decide_eq_true_eq] <;> rfl
  case chunk =>
    rintro p d c x sc h hd hc hx hnow hgr rfl
    exact gives_chunkEnd h hd hc hx hnow hgr
  case grant =>
    intro p d c h hd hc hslot
    have hexec := exec_grant h hd hc hslot
    exact ⟨fun hdata => hexec.trans (by rw [if_pos hdata]), fun hdata => hexec.trans (by rw [if_neg (by rw [hdata]; exact Bool.false_ne_true)])⟩
  case notices =>
    intro p d hd
    exact ⟨fun h => (gives_poisonNotice h hd).1, fun h => (gives_poisonNotice h hd).2, fun h => (gives_abortNotice h hd).1,
      fun h => (gives_abortNotice h hd).2⟩

end Sys2Proof.Machine
end

section
/-! # The update engine

Settles O55. -/

namespace Sys2Proof.Machine

variable {s : State} {d : Dev} {r k : Nat} {j : Desc}

/-! ## Descriptors that a running step stages -/

/-- A descriptor that starts where there is room to stage it, and that its checks let through. -/
theorem Starts.run_staged {p : Desc → Bool} {chk : Dev → Desc → Option Ending} {go : Dev → Desc → Dev} (h : Starts s r j)
    (hr : r < 16) (hp : p j = true) (hroom : s.dev.stageRoom = true) (hc : chk s.dev j = none) :
    s.run (ringOk r) (s.dev.stageRoom && s.dev.descDue r p) (fun d => d.startDesc r chk go) =
      .next { s with dev := go (s.dev.popHead r) j } :=
  State.run_gives (decide_eq_true hr) (by rw [hroom, h.descDue hp]; rfl) (by simp only [Dev.startDesc, h.1, hc])

theorem Dev.popHead_st (d : Dev) (r : Nat) : (d.popHead r).st = d.st := (d.popHead_state r).1

/-! ## Bindings and freezes -/

/-- A binding whose header is good and whose resources are there. -/
theorem Dev.startBind_binds {p : Nat} {b : Binding} (hu : j.unbinds = false) (hread : d.readErr (midwayBase + j.num 48 4) 32 = none)
    (hhdr : updHdrOk (d.read (midwayBase + j.num 48 4) 32) = true) (hb : b = j.binding (d.read (midwayBase + j.num 48 4) 32) 0)
    (harr : d.arrayOk (j.num 33 5) (4 * b.slots * j.cp) = true) (hrun : freezeRun (d.besides j.tensor) b.blocks = some p)
    (hlen : d.allBinds.length < 4096) (hplaced : d.undoPlaced = true)
    (hundo : undoNeed (b :: d.besides j.tensor) ≤ d.fld Reg.UPD_UNDO_LEN.LEN) :
    d.startBind j = d.bindNow j { b with pos := p } := by
  subst hb
  have hres : ¬ (decide (4096 ≤ d.allBinds.length) || !d.undoPlaced || decide (d.fld Reg.UPD_UNDO_LEN.LEN <
      undoNeed (j.binding (d.read (midwayBase + j.num 48 4) 32) 0 :: d.besides j.tensor))) = true := by
    simp [hlen, hplaced, hundo]
  simp only [Dev.startBind, hu, hread, Dev.bindHdr, hhdr, harr, hrun, Bool.not_true, Bool.false_eq_true, if_false, if_neg hres]

theorem Dev.bindNow_stages (b : Binding) (h : d.st = .running) : d.bindNow j b = d.stage (.bind j.key b) := if_pos h

theorem Dev.bindNow_binds (b : Binding) (h : d.st ≠ .running) : d.bindNow j b = (d.putBind b).finish j ⟨.done, Detail.none⟩ := if_neg h

theorem Dev.startBind_stages (hu : j.unbinds = true) (h : d.st = .running) : d.startBind j = d.stage (.unbind j.key j.tensor) := by
  rw [Dev.startBind, if_pos hu, if_pos h]

theorem Dev.startBind_unbinds (hu : j.unbinds = true) (h : d.st ≠ .running) :
    d.startBind j = (d.unbind j.tensor).finish j ⟨.done, Detail.none⟩ := by
  rw [Dev.startBind, if_pos hu, if_neg h]
  rfl

theorem Dev.startFreeze_stages (h : d.st = .running) :
    d.startFreeze j = d.stage (.freeze j.key j.tensor (j.num 28 4) (j.num 32 4) j.freezes) := if_pos h

theorem Dev.startFreeze_freezes (h : d.st ≠ .running) :
    d.startFreeze j = (d.freeze j.tensor (j.num 28 4) (j.num 32 4) j.freezes).finish j ⟨.done, Detail.none⟩ := if_neg h

/-- The run of blocks of a freeze in the freeze map: each of its n bits below the limit is set or cleared. -/
theorem Tab.get_setRun (on : Bool) (base first lim : Nat) (t : Tab Bool) : ∀ n i, first ≤ i → i < first + n → i < lim →
    Tab.get false ((List.range n).foldl (fun f i => if first + i < lim then Tab.set false f (base + first + i) on else f) t)
      (base + i) = on
  | 0, i, hle, hlt, _ => absurd hle (by omega)
  | n + 1, i, hle, hlt, hlim => by
    rw [List.range_succ, List.foldl_append]
    simp only [List.foldl_cons, List.foldl_nil]
    by_cases hi : i = first + n
    · subst hi
      rw [if_pos hlim, Nat.add_assoc]
      exact Tab.get_set_same false _ _ on
    · have ih := Tab.get_setRun on base first lim t n i hle (by omega) hlim
      split
      · rw [Tab.get_set_ne false _ on (by omega)]
        exact ih
      · exact ih

theorem Dev.isFrozen_freeze {t f n i : Nat} {b : Binding} (on : Bool) (hb : d.bind? t = some b) (hle : f ≤ i) (hlt : i < f + n)
    (hi : i < b.blocks) : (d.freeze t f n on).isFrozen b i = on := by
  simp only [Dev.freeze, hb, Dev.isFrozen]
  exact Tab.get_setRun on b.pos f b.blocks d.upd.frozen n i hle hlt hi

theorem mem_insertBind (b q : Binding) : ∀ l, q ∈ insertBind b l ↔ q = b ∨ q ∈ l
  | [] => by simp [insertBind]
  | x :: l => by
    have ih := mem_insertBind b q l
    rw [insertBind]
    split
    · rw [List.mem_cons]
    · rw [List.mem_cons, ih, List.mem_cons]
      tauto

/-- No binding of a tensor is left once it is unbound. -/
theorem Dev.unbind_binds (d : Dev) (t : Nat) : ∀ q ∈ (d.unbind t).upd.binds, q.tensor ≠ t := by
  intro q hq
  unfold Dev.unbind at hq
  split at hq
  case h_1 hnone =>
    have := List.find?_eq_none.mp hnone q hq
    simpa using this
  case h_2 b hsome =>
    have hmem : q ∈ d.upd.binds.filter (fun q => q.tensor != t) := hq
    simpa using (List.mem_filter.mp hmem).2

theorem Dev.putBind_binds (d : Dev) (b q : Binding) : q ∈ (d.putBind b).upd.binds ↔ q = b ∨ q ∈ (d.unbind b.tensor).upd.binds :=
  mem_insertBind b q _

/-! ## Blocks -/

theorem gives_blockDispatch {e : Coll × Nat} (hk : k < 64) (hup : s.dev.up = true) (hroom : s.dev.updRoom k = true)
    (hnext : s.dev.nextDue = some e) : Gives (.blockDispatch k) s (s.dev.giveBlock k e.1 e.2) := by
  rw [Gives, exec, execBlockDispatch]
  exact State.run_gives (decide_eq_true hk) (by simp [hup, hroom, hnext]) (by simp only [hnext])

section
variable {w : BlkJob} (hk : k < 64) (hup : s.dev.up = true) (hrun : Tab.get none s.dev.upd.running k = some w)
include hk hup hrun

theorem gives_updateBlockEnd_fault : Gives (.updateBlockEnd k true) s (s.dev.updFault k) := by
  rw [Gives, exec, execUpdateBlockEnd]
  exact State.run_gives (decide_eq_true hk) (by simp [hup, hrun]) rfl

/-- A block whose program has ended is written, or poisons its collective. -/
theorem gives_updateBlockEnd {c : Coll} {b : Binding} {i : Nat} (hend : (Tab.get VecCtx.init s.dev.vec (192 + k)).ended = true)
    (hd : d = s.dev.clearRun k) (hc : d.coll? w.key = some c) (hb : d.collBlock c w.block = some (b, i)) :
    (d.rangeErr (b.ranges i) = none → Gives (.updateBlockEnd k false) s
      (((d.writeBlock c (Tab.get VecCtx.init s.dev.vec (192 + k)) b i w.block).nextBlock k).pumpColl w.key)) ∧
    (∀ e, d.rangeErr (b.ranges i) = some e → Gives (.updateBlockEnd k false) s (((d.blockErr c e).nextBlock k).pumpColl w.key)) := by
  have hexec {e : Dev} (he : s.dev.endBlock k = e) : Gives (.updateBlockEnd k false) s e := by
    rw [Gives, exec, execUpdateBlockEnd]
    exact State.run_gives (decide_eq_true hk) (by simp [hup, hrun, hend]) (by rw [if_neg Bool.false_ne_true, he])
  subst hd
  exact ⟨fun h => hexec (by simp only [Dev.endBlock, hrun, hc, hb, h]), fun e h => hexec (by simp only [Dev.endBlock, hrun, hc, hb, h])⟩

end

/-! ## Errors of update cores -/

/-- A collective found under a key at which the collectives were changed is one of the changed ones. -/
theorem Dev.coll?_modColl {f : Coll → Coll} {c : Coll} {q : Nat × Nat} (h : (d.modColl q f).coll? q = some c) : ∃ x ∈ d.car.colls, x.key = q ∧ c = f x := by
  have hmem := List.mem_of_find?_eq_some h
  have hkey := List.find?_some h
  obtain ⟨x, hx, hxc⟩ := List.mem_map.mp hmem
  by_cases hq : x.key = q
  · rw [if_pos hq] at hxc
    exact ⟨x, hx, hq, hxc.symm⟩
  · rw [if_neg hq] at hxc
    subst hxc
    exact absurd (of_decide_eq_true hkey) hq

/-- A block that goes back with its first error is in no collective that the error poisons. -/
theorem Dev.blockAgain_first {w : BlkJob} {c : Coll} (h : ∀ c ∈ d.car.colls, Tab.get 0 c.faults w.block = 0)
    (hc : (d.blockAgain w 1).coll? w.key = some c) : Tab.get 0 c.faults w.block = 1 := by
  obtain ⟨x, hx, -, rfl⟩ := Dev.coll?_modColl hc
  change Tab.get 0 (Tab.set 0 x.faults w.block (Tab.get 0 x.faults w.block + 1)) w.block = 1
  rw [Tab.get_set_same, h x hx]

theorem Dev.noUpdCores_idle (h : d.updCoresUp ≠ 0) : d.noUpdCores = d := if_neg h

/-- The device once an update core has had an error: its block is dropped, and the core is out of service. -/
def Dev.coreFaulted (d : Dev) (k : Nat) : Dev := ((d.bumpSat Reg.UPD_FAULTS.CORE_FAULTS 1).clearRun k).retireUpd k

/-- The device once no block waits loaded on an update core. -/
def Dev.dropNext (d : Dev) (k : Nat) : Dev := { d with upd := { d.upd with next := Tab.set none d.upd.next k none } }

theorem Dev.updCoresUp_blockAgain (d : Dev) (k n : Nat) (w : BlkJob) : ((d.dropNext k).blockAgain w n).updCoresUp = d.updCoresUp := rfl

theorem Dev.updFault_first {w : BlkJob} (hrun : Tab.get none d.upd.running k = some w) (hnext : Tab.get none d.upd.next k = none)
    (hfirst : ∀ c ∈ (d.coreFaulted k).car.colls, Tab.get 0 c.faults w.block = 0) (hup : (d.coreFaulted k).updCoresUp ≠ 0) :
    d.updFault k = ((d.coreFaulted k).dropNext k).blockAgain w 1 := by
  have hcores : (((d.coreFaulted k).dropNext k).blockAgain w 1).updCoresUp ≠ 0 := by
    rwa [Dev.updCoresUp_blockAgain]
  unfold Dev.updFault
  extract_lets run wait core upd idle held last
  have hcore : core = d.coreFaulted k := rfl
  have hheld : held = core.dropNext k := by simp only [held, wait, hnext]; rfl
  have hlast : last = match (held.blockAgain w 1).coll? w.key with
      | none => held.blockAgain w 1
      | some c => if 2 ≤ Tab.get 0 c.faults w.block then (held.blockAgain w 1).poisonColl c 0 0
          ⟨.deviceFault, Detail.auxed (held.blockAgain w 1).upd.retireSeq⟩
        else held.blockAgain w 1 := by
    simp only [last, run, hrun] <;> rfl
  clear_value last held idle upd core
  subst hheld hcore
  rw [hlast]
  split
  case h_1 => exact Dev.noUpdCores_idle hcores
  case h_2 c hc =>
    have hone := Dev.blockAgain_first (d := (d.coreFaulted k).dropNext k) hfirst hc
    rw [if_neg (by omega)]
    exact Dev.noUpdCores_idle hcores

/-- Settles O55: what a descriptor of the update engine does turns on whether a step runs, and a block's end on what its arrays
and its collective show. -/
theorem updateEngine : Obligations.UpdateEngine := by
  unfold Obligations.UpdateEngine
  intro s
  refine ⟨?bind, ?unbind, ?freeze, ?frozen, ?replaces, fun k e hk hup hroom hn => gives_blockDispatch hk hup hroom hn,
    fun k j c b i d hk hup hrun hend hd hc hb => gives_updateBlockEnd hk hup hrun hend hd hc hb, ?first,
    fun k j hk hup hrun => gives_updateBlockEnd_fault hk hup hrun⟩
  case bind =>
    rintro r j h b p hr hs ho hchk hroom hu hread rfl hhdr hb harr hrun hlen hplaced hundo
    have hgo : exec (.updBind r) s = .next { s with dev := (s.dev.popHead r).startBind j } :=
      hs.run_staged hr (by simp [ho, hu]) hroom hchk
    have hbinds : (s.dev.popHead r).startBind j = (s.dev.popHead r).bindNow j { b with pos := p } := by
      obtain ⟨q, m, hpop⟩ := s.dev.popHead_shape r
      rw [hpop]
      exact Dev.startBind_binds hu hread hhdr hb harr hrun hlen hplaced hundo
    rw [hbinds] at hgo
    refine ⟨fun hst => ?_, fun hst => ?_⟩
    · rw [Gives, hgo, Dev.bindNow_binds _ (by rwa [Dev.popHead_st])]
    · rw [Gives, hgo, Dev.bindNow_stages _ (by rwa [Dev.popHead_st])]
  case unbind =>
    intro r j hr hs ho hchk hroom hu
    have hgo : exec (.updUnbind r) s = .next { s with dev := (s.dev.popHead r).startBind j } :=
      hs.run_staged hr (by simp [ho, hu]) hroom hchk
    refine ⟨fun hst => ?_, fun hst => ?_⟩
    · rw [Gives, hgo, Dev.startBind_unbinds hu (by rwa [Dev.popHead_st])]
    · rw [Gives, hgo, Dev.startBind_stages hu (by rwa [Dev.popHead_st])]
  case freeze =>
    intro r j c b hr hs ho hchk hroom hc hb
    have hgo : exec c s = .next { s with dev := (s.dev.popHead r).startFreeze j } := by
      simp only [List.mem_cons, Prod.mk.injEq, List.not_mem_nil, or_false] at hc
      rcases hc with ⟨rfl, rfl⟩ | ⟨rfl, rfl⟩
      · exact hs.run_staged hr (by simp [ho, hb]) hroom hchk
      · exact hs.run_staged hr (by simp [ho, hb]) hroom hchk
    refine ⟨fun hst => ?_, fun hst => ?_⟩
    · rw [Gives, hgo, Dev.startFreeze_freezes (by rwa [Dev.popHead_st]), hb]
    · rw [Gives, hgo, Dev.startFreeze_stages (by rwa [Dev.popHead_st]), hb]
  case frozen =>
    intro d t f n b hb i hle hlt hi
    exact ⟨Dev.isFrozen_freeze true hb hle hlt hi, Dev.isFrozen_freeze false hb hle hlt hi⟩
  case replaces =>
    intro d b
    refine ⟨(d.putBind_binds b b).mpr (.inl rfl), fun q hq ht => ?_⟩
    rcases (d.putBind_binds b q).mp hq with h | h
    · exact h
    · exact absurd ht (d.unbind_binds b.tensor q h)
  case first =>
    rintro k j d hk hup hrun hnext rfl hfirst hcores
    rw [Gives, gives_updateBlockEnd_fault hk hup hrun, Dev.updFault_first hrun hnext hfirst hcores]
    rfl

end Sys2Proof.Machine
end

section
/-! # The home agent of the memory fabric, and responses

Settles O57. -/

namespace Sys2Proof.Machine

variable {s : State} {d : Dev} {p : Packet} {o : MfbOp}

/-! ## Packets that reach a home -/

theorem exec_mfbGetRequest (h : s.dev.homeTakes p 1 = true) (hd : d = s.dev.take p) : exec (.mfbGetRequest p) s = .next { s with
    dev := if d.readStatus p = 0 then d.respond p 1 (d.read p.da (reqLen p))
      else ((d.homeFault p (d.readStatus p)).countStatus (d.readStatus p)).respond p 4 (leBytes 1 (d.readStatus p)) } := by
  subst hd
  rw [exec, execMfbGetRequest]
  exact State.run_gives rfl h rfl

/-- Each command of a write packet is due for its own operation, and hands the packet to the queues of its lines. -/
theorem exec_homeWrite {b : Bool} {c : Instr}
    (hc : (c, p.op) ∈ [(Instr.mfbPutPacket p b, 2), (.mfbReductionPacket p b, 4), (.mfbMirrorWrite p b, 5), (.mfbPutLineCopy p b, 6)])
    (h : s.dev.homeTakes p p.op = true) : exec c s = .next { s with dev := (s.dev.take p).writeArrive p b } := by
  have hrun {n : Nat} (hn : p.op = n) :
      s.run true (s.dev.homeTakes p n) (fun d => (d.take p).writeArrive p b) = .next { s with dev := (s.dev.take p).writeArrive p b } :=
    State.run_gives rfl (hn ▸ h) rfl
  simp only [List.mem_cons, Prod.mk.injEq, List.not_mem_nil, or_false] at hc
  rcases hc with ⟨rfl, hn⟩ | ⟨rfl, hn⟩ | ⟨rfl, hn⟩ | ⟨rfl, hn⟩ <;> exact hrun hn

theorem Dev.writeArrive_applies {b : Bool} (hb : b = false) (hw : d.mfb.hot.any (writeWaits p) = false) :
    d.writeArrive p b = d.applyWrite p := by
  rw [Dev.writeArrive, if_neg (by rw [hb, hw]; exact Bool.false_ne_true)]

/-- A write that waits joins the waiting writes, and shows the longest queue alone. -/
theorem Dev.writeArrive_waits {b : Bool} (h : b = true ∨ d.mfb.hot.any (writeWaits p) = true) :
    (d.writeArrive p b).mfb.hot = d.mfb.hot ++ [p] ∧ (d.writeArrive p b).mem = d.mem ∧
    FieldsKept [Reg.MFB_THROTTLE.MAX_QUEUE] d (d.writeArrive p b) := by
  rw [Dev.writeArrive, if_pos (by simpa using h)]
  extract_lets m e
  have hkept : FieldsKept [Reg.MFB_THROTTLE.MAX_QUEUE] d e := .of_regs _ rfl
  exact ⟨congrArg Mfb.hot (e.setFld_mfb _ _), e.setFld_mem _ _, hkept.trans (.setFld e _ _ _ (by decide))⟩

theorem exec_mfbNotify (h : s.dev.homeTakes p 7 = true) : exec (.mfbNotify p) s = .next { s with
    dev := if s.dev.homeAdmits p.src then ((s.dev.take p).evtAdd (leAt p.payload 0 2) 1).respondAck p 0
      else (s.dev.take p).respondAck p 2 } := by
  rw [exec, execMfbNotify]
  exact State.run_gives rfl h rfl

/-! ## Atomics at the table -/

/-- With no atomic held, one that is admitted is a write that arrives. -/
theorem Dev.admitAtomic_eq {b : Bool} (h : d.mfb.heldAtomics = []) : d.admitAtomic p b = (d.take p).writeArrive p b := by
  have hheld : (d.take p).mfb.heldAtomics.erase p = (d.take p).mfb.heldAtomics := by
    change d.mfb.heldAtomics.erase p = d.mfb.heldAtomics
    rw [h, List.erase_nil]
  rw [Dev.admitAtomic]
  extract_lets e
  rw [hheld]

theorem exec_mfbAtomicRequest {b : Bool} (h : s.dev.atInput p 3 = true)
    (hroom : s.dev.tableFull = false ∨ s.dev.mfb.heldAtomics.contains p = false) : exec (.mfbAtomicRequest p b) s = .next { s with
    dev := if s.dev.tableFull then s.dev.holdAtomic p else s.dev.admitAtomic p b } := by
  have hdue : (s.dev.tableFull && s.dev.mfb.heldAtomics.contains p) = false := Bool.and_eq_false_iff.mpr hroom
  rw [exec, execMfbAtomicRequest]
  exact State.run_gives rfl (by rw [h, hdue]; rfl) rfl

/-- An atomic more waits in the home's input. -/
def Dev.withHeld (d : Dev) (p : Packet) : Dev := { d with mfb := { d.mfb with heldAtomics := d.mfb.heldAtomics ++ [p] } }

theorem Dev.holdAtomic_eq (d : Dev) (p : Packet) : d.holdAtomic p = (d.withHeld p).bumpSat Reg.MFB_TABLE.FULL_STALLS 1 := by
  rw [Dev.holdAtomic, Dev.withHeld]

theorem FieldsKept.bumpSat (d : Dev) (f : Field) (n : Nat) (l : List Field) (h : f.key ∈ l.map Field.key) : FieldsKept l d (d.bumpSat f n) :=
  .setFld d f _ l h

/-- An atomic for a full table is held in the input. -/
theorem Dev.holdAtomic_holds (d : Dev) (p : Packet) : (d.holdAtomic p).mfb.heldAtomics = d.mfb.heldAtomics ++ [p] ∧
    (d.holdAtomic p).fab = d.fab ∧ (d.holdAtomic p).mem = d.mem := by
  rw [Dev.holdAtomic_eq, Dev.bumpSat_mfb, Dev.bumpSat_fab, Dev.bumpSat_mem]
  exact ⟨rfl, rfl, rfl⟩

theorem Dev.holdAtomic_fields (d : Dev) (p : Packet) : FieldsKept [Reg.MFB_TABLE.FULL_STALLS] d (d.holdAtomic p) := by
  have hkept : FieldsKept [Reg.MFB_TABLE.FULL_STALLS] d (d.withHeld p) := .of_regs _ rfl
  rw [Dev.holdAtomic_eq]
  exact hkept.trans (.bumpSat _ _ _ _ (by decide))

theorem exec_resultTableEntryExpire {e : MfbResult} {l : List MfbResult} (hup : s.dev.up = true) (ht : s.dev.mfb.table = e :: l)
    (hold : e.time + ms 10 ≤ s.dev.now) (hd : d = { s.dev with mfb := { s.dev.mfb with table := l } }) :
    (d.mfb.heldAtomics.find? (fun p => d.homeTakes p 3) = none → Gives .resultTableEntryExpire s d) ∧
    (∀ p, d.mfb.heldAtomics.find? (fun p => d.homeTakes p 3) = some p → Gives .resultTableEntryExpire s (d.admitAtomic p false)) := by
  have hdrop : d = { s.dev with mfb := { s.dev.mfb with table := s.dev.mfb.table.drop 1 } } := by
    rw [hd, ht, List.drop_succ_cons, List.drop_zero]
  have hdue : s.dev.mfb.table.head?.any (fun e => e.time + ms 10 ≤ s.dev.now) = true := by
    rw [ht, List.head?_cons, Option.any_some]
    exact decide_eq_true hold
  clear hd
  have hexec {e : Dev} (he : (match d.mfb.heldAtomics.find? (fun p => d.homeTakes p 3) with
      | some p => d.admitAtomic p false
      | none => d) = e) : Gives .resultTableEntryExpire s e := by
    subst hdrop he
    rw [Gives, exec, execResultTableEntryExpire]
    exact State.run_gives rfl (by rw [hup, hdue]; rfl) rfl
  exact ⟨fun h => hexec (by rw [h]), fun p h => hexec (by rw [h])⟩

/-! ## Writes that take effect -/

section
variable (hop : p.op ≠ 3 ∧ p.op ≠ 4)
include hop

theorem Dev.applyWrite_refused (h : d.homeStatus p ≠ 0) : d.applyWrite p = d.respondAck p (d.homeStatus p) := by
  simp [Dev.applyWrite, hop, h]

theorem Dev.applyWrite_stores (h5 : p.op ≠ 5) (h : d.homeStatus p = 0) : d.applyWrite p = (d.store p.da p.payload).respondAck p 0 := by
  simp [Dev.applyWrite, hop, h, h5]

end

theorem Dev.applyWrite_mirror (hop : p.op = 5) (h : d.homeStatus p = 0) : d.applyWrite p = (d.write p.da p.payload).respondAck p 0 := by
  simp [Dev.applyWrite, hop, h]

theorem Dev.applyWrite_reduces (hop : p.op = 4) (h : d.readStatus p = 0) : d.applyWrite p = (d.doReduce p).respondAck p 0 := by
  simp [Dev.applyWrite, hop, h]

theorem Dev.doReduce_stored (d : Dev) (p : Packet) : Stored p.da ((List.range (reqLen p / 4)).map (fun i => leBytes 4
    (reduceOne (leAt p.payload 0 1) (d.readLE (p.da + 4 * i) 4) (leAt p.payload (4 + 4 * i) 4)))).flatten d (d.doReduce p) := by
  rw [Dev.doReduce, List.map_map]
  exact d.store_stored _ _

theorem Dev.applyWrite_atomic (hop : p.op = 3) : d.applyWrite p = d.doAtomic p := if_pos hop

section
variable (hadm : d.homeAdmits p.src = true) (hgood : reqMalformed p = false)
include hadm hgood

theorem Dev.doAtomic_stale (h : leAt p.payload 24 8 + ms 10 ≤ d.now ∨ leAt p.payload 24 8 < d.mfb.since) :
    d.doAtomic p = (d.bumpSat Reg.MFB_ATOMICS.STALE 1).respondAtomic p 5 0 0 := by
  simp [Dev.doAtomic, hadm, hgood, h]

variable (hnew : d.now < leAt p.payload 24 8 + ms 10) (hsince : d.mfb.since ≤ leAt p.payload 24 8)
include hnew hsince

theorem Dev.doAtomic_duplicate {e : MfbResult} (h : d.mfb.table.find? (fun e => e.src = p.src && e.tag = p.tag) = some e) :
    d.doAtomic p = (d.bumpSat Reg.MFB_ATOMICS.DUPLICATES 1).respondAtomic p 0 1 e.old := by
  have hfresh : (decide (leAt p.payload 24 8 + ms 10 ≤ d.now) || decide (leAt p.payload 24 8 < d.mfb.since)) = false := by
    simp [hnew, hsince]
  simp only [Dev.doAtomic, hadm, hgood, hfresh, h, Bool.not_true, Bool.false_eq_true, if_false]

/-- An atomic that the table does not hold writes its operation's result, and the table holds the old value. -/
theorem Dev.doAtomic_applies {n : Nat} {l : List Byte} (h : d.mfb.table.find? (fun e => e.src = p.src && e.tag = p.tag) = none)
    (hst : d.readStatus p = 0) (hn : n = leAt p.payload 1 1)
    (hl : l = leBytes n (atomicNew (leAt p.payload 0 1) n (d.readLE p.da n) (leAt p.payload 8 8) (leAt p.payload 16 8))) :
    d.doAtomic p = (((d.store p.da l).bump Reg.MFB_ATOMICS.APPLIED 1).tablePut
      ⟨p.src, p.tag, d.readLE p.da n, d.now⟩).respondAtomic p 0 0 (d.readLE p.da n) := by
  have hfresh : (decide (leAt p.payload 24 8 + ms 10 ≤ d.now) || decide (leAt p.payload 24 8 < d.mfb.since)) = false := by
    simp [hnew, hsince]
  subst hn hl
  simp only [Dev.doAtomic, hadm, hgood, hfresh, h, hst, now_store, Bool.not_true, Bool.false_eq_true, if_false, bne_self_eq_false]

end

/-! ## Responses at the source -/

theorem exec_mfbGetData (h : s.dev.respTakes p 1 = true) (hd : d = s.dev.take p) (ho : d.opOf false p.src p.tag p.da = some o)
    (hm : mopGet o.mop = true) : Gives (.mfbGetData p) s (d.getData o p) := by
  subst hd
  rw [Gives, exec, execMfbGetData]
  exact State.run_gives rfl h (by simp only [ho, hm, if_true])

/-- An acknowledgement is judged by its status, then by the operation that it answers. -/
theorem exec_mfbAcknowledgement (h : s.dev.respTakes p 2 = true) (hd : d = s.dev.take p)
    (ho : d.opOf false p.src p.tag p.da = some o) : exec (.mfbAcknowledgement p) s = .next { s with
    dev := if leAt p.payload 0 1 != 0 then d.opRefused o p.src p.da (leAt p.payload 0 1)
      else if o.mop = 4 then d.lineAck o p.src p.da
      else (d.ackPkt o p.da).checkOp o.id } := by
  subst hd
  rw [exec, execMfbAcknowledgement]
  exact State.run_gives rfl h (by simp only [ho])

theorem exec_mfbError (h : s.dev.respTakes p 4 = true) (hd : d = s.dev.take p) (ho : d.opOf false p.src p.tag p.da = some o)
    (hst : leAt p.payload 0 1 ≠ 0) : Gives (.mfbError p) s (d.opRefused o p.src p.da (leAt p.payload 0 1)) := by
  subst hd
  rw [Gives, exec, execMfbError]
  exact State.run_gives rfl h (by simp only [ho, Option.some_or, hst, if_false])

/-- Every packet of an operation is answered: it ends good, where it asks for no notification and is no program's transfer. -/
theorem Dev.checkOp_ends {k : Nat} (ho : d.op? k = some o) (hall : o.pkts.all (·.acked) = true) (hn : o.notify = none)
    (hx : ∀ c n, o.origin ≠ .xfer c n) : d.checkOp k = (d.dropOp o.id).opEnd o ⟨.done, Detail.none⟩ := by
  have hgood : d.opGood o = d.notifyEnd o (Ending.plain .done) := by
    unfold Dev.opGood
    split
    · rename_i c n horg
      exact absurd horg (hx c n)
    · rfl
  simp only [Dev.checkOp, ho, hall, if_true, hgood, Dev.notifyEnd, Dev.sendNotify, hn, Ending.plain]

theorem exec_mfbAtomicResult (h : s.dev.respTakes p 3 = true) (hd : d = s.dev.take p) :
    (∀ o, d.opOf true p.src p.tag p.da = some o → leAt p.payload 0 1 = 0 →
      Gives (.mfbAtomicResult p) s (d.atomicDone o (leAt p.payload 8 8))) ∧
    (d.opOf true p.src p.tag p.da = none → Gives (.mfbAtomicResult p) s (d.bumpSat Reg.MFB_SOURCE.LATE 1)) := by
  subst hd
  refine ⟨fun o ho hst => ?_, fun ho => ?_⟩ <;> rw [Gives, exec, execMfbAtomicResult]
  · exact State.run_gives rfl h (by simp only [ho, hst, if_true])
  · exact State.run_gives rfl h (by simp only [ho])

theorem gives_hotLineWrite {l : Nat} (hl : l < 2 ^ 34) (hup : s.dev.up = true) (hn : s.dev.hotNext l = some p) :
    Gives (.hotLineWrite l) s (({ s.dev with mfb := { s.dev.mfb with hot := s.dev.mfb.hot.erase p } } : Dev).applyWrite p) := by
  rw [Gives, exec, execHotLineWrite]
  exact State.run_gives (decide_eq_true hl) (by rw [hup, hn]; rfl) (by simp only [hn])

/-- Settles O57: what a home does turns on a request's status and on the table; a response ends the operation that it answers. -/
theorem homeAgent : Obligations.HomeAgent := by
  unfold Obligations.HomeAgent
  intro s
  refine ⟨?read, ?write, ?atomic, ?store, ?mirror, ?table, ?reduce, ?notify, fun l p hl hup hn => gives_hotLineWrite hl hup hn,
    fun e l d hup ht hold hd => exec_resultTableEntryExpire hup ht hold hd, ?response,
    fun d k o ho hall _ hn hx => Dev.checkOp_ends ho hall hn hx, fun p d hd h => exec_mfbAtomicResult h hd⟩
  case read =>
    intro p h
    have hexec := exec_mfbGetRequest h rfl
    exact ⟨fun h0 => hexec.trans (by rw [if_pos h0]), fun h0 => hexec.trans (by rw [if_neg h0])⟩
  case write =>
    intro p b c hc h
    have hexec := exec_homeWrite hc h
    refine ⟨fun hb hw => hexec.trans (by rw [Dev.writeArrive_applies (d := s.dev.take p) hb hw]), fun hw => ⟨_, hexec, ?_⟩⟩
    obtain ⟨hhot, hmem, hkept⟩ := (s.dev.take p).writeArrive_waits hw
    exact ⟨hhot, hmem, (FieldsKept.of_regs _ rfl).trans hkept⟩
  case atomic =>
    intro p b h
    refine ⟨fun hfull hb hw hheld => ?_, fun hfull hnew => ⟨_, exec_mfbAtomicRequest h (.inr hnew), ?_⟩⟩
    · refine (exec_mfbAtomicRequest h (.inl hfull)).trans ?_
      rw [if_neg (by rw [hfull]; exact Bool.false_ne_true), Dev.admitAtomic_eq hheld, Dev.writeArrive_applies (d := s.dev.take p) hb hw]
    · rw [if_pos hfull]
      obtain ⟨hheld, hfab, hmem⟩ := s.dev.holdAtomic_holds p
      exact ⟨hheld, hfab, hmem, s.dev.holdAtomic_fields p⟩
  case store =>
    intro d p hop
    have hplain : p.op ≠ 3 ∧ p.op ≠ 4 := by omega
    exact ⟨fun h => ⟨Dev.applyWrite_stores hplain (by omega) h, d.store_stored _ _⟩, fun h => Dev.applyWrite_refused hplain h⟩
  case mirror =>
    intro d p hop
    exact ⟨fun h => Dev.applyWrite_mirror hop h, fun h => Dev.applyWrite_refused (by omega) h⟩
  case table =>
    intro d p hop hadm hgood
    rw [Dev.applyWrite_atomic hop]
    refine ⟨fun h => Dev.doAtomic_stale hadm hgood h, fun hnew hsince => ⟨fun e he => ?_, fun n l ht hst hn hl => ?_⟩⟩
    · exact Dev.doAtomic_duplicate hadm hgood hnew hsince he
    · exact ⟨d.store_stored _ _, Dev.doAtomic_applies hadm hgood hnew hsince ht hst hn hl⟩
  case reduce =>
    intro d p hop hst
    exact ⟨Dev.applyWrite_reduces hop hst, d.doReduce_stored p⟩
  case notify =>
    intro p h
    have hexec := exec_mfbNotify h
    exact ⟨fun ha => hexec.trans (by rw [if_pos ha]), fun ha => hexec.trans (by rw [if_neg (by rw [ha]; exact Bool.false_ne_true)])⟩
  case response =>
    intro p o d hd ho
    refine ⟨fun h hm => exec_mfbGetData h hd ho hm, fun h hst => ?_, fun h hst hm => ?_, fun h hst hm => ?_,
      fun h hst => exec_mfbError h hd ho hst⟩ <;> refine (exec_mfbAcknowledgement h hd ho).trans ?_
    · rw [if_pos (bne_iff_ne.mpr hst)]
    · rw [if_neg (by rw [hst]; exact Bool.false_ne_true), if_pos hm]
    · rw [if_neg (by rw [hst]; exact Bool.false_ne_true), if_neg hm]

end Sys2Proof.Machine
end
